-- ==== Sys2Proof/Word.lean ====
section
/-!
DEFINITION. The word types of the machine (00 R2: bit 0 is the least significant bit of every field).
-/
namespace Sys2Proof

/-- One byte of memory. -/
abbrev Byte := BitVec 8
/-- A 32-bit word: a lane, a pad word, a token's value. -/
abbrev W32 := BitVec 32
/-- A 64-bit word: a scalar register, an instruction word, an address. -/
abbrev W64 := BitVec 64
/-- A vector register or a memory line, 1,024 bits (05 R75, 06 R100). -/
abbrev Line := BitVec 1024

end Sys2Proof
end

