-- ==== Sys2Proof/Config.lean ====
section
/-!
DEFINITION. What an implementation fixes and the values the manual leaves open.
An open value is an opaque constant: nothing can be proved about its value.
-/
namespace Sys2Proof.Config

/-- The number this device answers to in a remote address (18 R269, bits [50:41]); the manual gives no value
(log 5, DESIGN CHOICE: a free constant). -/
opaque deviceNumber : BitVec 10

/-- The value of a bubble token has no meaning (08 R136): a free value, a fresh one for each use (log 7). -/
opaque bubbleValue : Nat → W32

/-- A word whose value the manual leaves open, such as tval of a fault for which it names none: a free value, a fresh one for
each use (log 14). -/
opaque openWord : Nat → BitVec 64

/-- The rate, in parts per million, at which the servo corrects an offset (11 R205): the manual gives only its bound, which the
model applies (log 16). -/
opaque slewRate : Int → Nat → Nat

/-- The secure domain of a port that carries a partition's traffic to a device (25 R354): the manual does not say which of the 64
it is (log 42). -/
opaque domainOf : Nat → Nat → BitVec 6

/-- The colours with a quota in the receiving region of a channel whose receive end lies on another device (25 R349): the manual does
not say how the send end learns them (log 55). -/
opaque peerColours : Nat → BitVec 256

/-- What a byte of a GDDR-7 line reads as under a key it was not encrypted with (10 R189: AES-256-XTS, whose result
the manual does not print): a free value of the key and the address (log 13). -/
opaque foreignByte : Nat → Nat → Byte

/-- SHA3-256 (26 R368, R370): the manual names the function and prints no table of it (log 8). -/
opaque sha3 : List Byte → BitVec 256
/-- An ML-DSA-44 signature, 2,420 bytes, over a message under a certificate slot's key (26 R364, R373; log 8). -/
opaque sign : List Byte → List Byte → BitVec (8 * 2420)
/-- The management trust anchor, installed in manufacture (28 R386). -/
opaque managementAnchor : List Byte
/-- Whether a peer's chain and ML-DSA-44 signature in a message verify under a trust anchor (26 R364, R366; log 8). -/
opaque verifies : List Byte → List Byte → Bool
/-- The ML-KEM-768 ciphertext that answers an encapsulation key, and the shared secret it carries (26 R364; log 8). -/
opaque ciphertext : List Byte → Nat → BitVec (8 * 1088)
opaque sharedSecret : List Byte → Nat → BitVec 256
/-- A random nonce of the security core (26 R367: the start nonce; log 8). -/
opaque nonce : Nat → BitVec 256
/-- The public key of a pair made by the device for a certificate slot (26 R371; log 8). -/
opaque newKey : Nat → BitVec (8 * 1312)
/-- The key that a link session's key schedule gives from its shared secret to a domain of its port (26 R364, R366; log 8). -/
opaque linkKey : BitVec 256 → Nat → BitVec 256
/-- The measurement of the boot ROM and of the firmware (26 R370; log 8). -/
opaque bootMeasurement : Nat → BitVec 256
end Sys2Proof.Config
end

