-- ==== Sys2Proof/Syntax.lean ====
section
/-!
DEFINITION. The instruction set as syntax: the ten formats of Table 02.5, the element configuration word of
Tables 02.11 and 02.12, the operands of the events, and `Instr`, one constructor for each row of
spec/opcode_table.json.
A core instruction carries its format's fields as Table 02.5 names them (the major opcode is the constructor, the
reserved bits are absent); which field values an entry accepts is `Instr.wf` (02 R34).
-/
namespace Sys2Proof

/-- A core number: die [9:8], sector [7:6], cluster [5:4], quad [3:2], core [1:0] (01 R10). -/
abbrev CoreNum := BitVec 10
/-- A partition number, 0-15 (26 R355). -/
abbrev PartNum := BitVec 4
/-- A region handle without its reserved bits (Table 08.4). -/
abbrev Handle := BitVec 16
/-- An element of the package: quad [15:8] (core number bits [9:2]), row [7:4] and column [3:0] in the quad's 16x16
grid (01 R9, 09 R148). -/
abbrev ElemNum := BitVec 16

/-- Format RRR (Table 02.5). -/
structure RRR where
  g : BitVec 3
  gs : Bool
  d : BitVec 6
  a : BitVec 6
  b : BitVec 6
  c : BitVec 6
  func : BitVec 8
  ty : BitVec 5
  rm : BitVec 2
  sat : Bool
deriving DecidableEq, Repr

/-- Format RRI (Table 02.5): no b field, a 40-bit immediate. -/
structure RRI where
  g : BitVec 3
  gs : Bool
  d : BitVec 6
  a : BitVec 6
  imm : BitVec 40
deriving DecidableEq, Repr

/-- Format MEM (Table 02.5). -/
structure MEM where
  g : BitVec 3
  gs : Bool
  d : BitVec 6
  a : BitVec 6
  b : BitVec 6
  ix : Bool
  scope : BitVec 3
  ord : BitVec 2
  ty : BitVec 5
  sh : BitVec 3
  func : BitVec 4
  off : BitVec 16
deriving DecidableEq, Repr

/-- Format BRX (Table 02.5). -/
structure BRX where
  g : BitVec 3
  gs : Bool
  d : BitVec 6
  a : BitVec 6
  b : BitVec 6
  off : BitVec 34
deriving DecidableEq, Repr

/-- Format VEC (Table 02.5). -/
structure VEC where
  g : BitVec 3
  gs : Bool
  d : BitVec 6
  a : BitVec 6
  b : BitVec 6
  c : BitVec 6
  m : BitVec 3
  z : Bool
  func : BitVec 8
  ty : BitVec 5
  rm : BitVec 2
  sat : Bool
  imm : BitVec 8
deriving DecidableEq, Repr

/-- Format MTX (Table 02.5). -/
structure MTX where
  g : BitVec 3
  gs : Bool
  d : BitVec 6
  a : BitVec 6
  b : BitVec 6
  func : BitVec 8
  ty : BitVec 5
  w : BitVec 3
  acc : BitVec 2
  sp : Bool
  imm : BitVec 15
deriving DecidableEq, Repr

/-- Format STR (Table 02.5). -/
structure STR where
  g : BitVec 3
  gs : Bool
  d : BitVec 6
  a : BitVec 6
  b : BitVec 6
  sid : BitVec 4
  smask : BitVec 16
  func : BitVec 8
deriving DecidableEq, Repr

/-- Format NET (Table 02.5). -/
structure NET where
  g : BitVec 3
  gs : Bool
  d : BitVec 6
  a : BitVec 6
  b : BitVec 6
  pa : BitVec 2
  pb : BitVec 2
  kind : BitVec 12
  func : BitVec 8
deriving DecidableEq, Repr

/-- Format SYS (Table 02.5). -/
structure SYS where
  g : BitVec 3
  gs : Bool
  d : BitVec 6
  a : BitVec 6
  b : BitVec 6
  sreg : BitVec 12
  func : BitVec 8
  imm : BitVec 14
deriving DecidableEq, Repr

/-- An element configuration word without its operation code (Tables 02.11 and 02.12). -/
structure ElemCfg where
  fmt : BitVec 3
  rm : BitVec 2
  sat : Bool
  fin : Bool
  tagp : BitVec 2
  nin : BitVec 3
  cin : BitVec 4
  opx : BitVec 8
  const : BitVec 32
  q3 : BitVec 3
  q2 : BitVec 3
  q1 : BitVec 3
  q0 : BitVec 3
  out0 : BitVec 6
  out1 : BitVec 6
  share : BitVec 7
  ordx : Bool
  port : BitVec 4
deriving DecidableEq, Repr

/-- A token on a link (Table 08.1) with the slot generation that rides beside it (08 R135). -/
structure Token where
  value : W32
  colour : BitVec 8
  context : BitVec 10
  iter : BitVec 14
  fmt : BitVec 3
  slot : BitVec 2
  eor : Bool
  eos : Bool
  poison : Bool
  bubble : Bool
  gen : BitVec 6
deriving DecidableEq, Repr

/-- An SPDM message and its binding header (26 R365, Table 26.5): the port it came by, its kind, its VF, the
certificate slot it names, and its bytes. -/
structure Spdm where
  port : BitVec 4
  ver : BitVec 4
  kind : BitVec 4
  vf : BitVec 6
  rsvZero : Bool
  lenOk : Bool
  slot : BitVec 3
  body : List Byte
deriving DecidableEq, Repr

/-- An IEEE 1588 event message at a port (11 R204): a Sync with its origin time, a two-step Sync, whose origin time follows, or the delay
request that the clock sends. -/
inductive PtpMsg where
  | sync (t1 : W64)
  | syncTwoStep
  | delayReq
deriving DecidableEq, Repr

/-- One row of spec/opcode_table.json each. The core instructions carry their format, the element operations their
configuration word, and the events the unit or the value they concern. -/
inductive Instr where
  /-- R74: Adds two scalar integers, optionally saturating. -/
  | add (o : RRR)
  /-- R74: Subtracts two scalar integers, optionally saturating. -/
  | sub (o : RRR)
  /-- R74: Multiplies two scalar integers, keeping the low bits or saturating. -/
  | mul (o : RRR)
  /-- R74: Writes the high half of the double-width product. -/
  | mulh (o : RRR)
  /-- R74: Divides scalar integers toward zero with defined results for zero divisors. -/
  | div (o : RRR)
  /-- R74: Computes the remainder of a truncating division. -/
  | rem (o : RRR)
  /-- R74: Bitwise AND of two scalar registers. -/
  | and (o : RRR)
  /-- R74: Bitwise OR of two scalar registers. -/
  | or (o : RRR)
  /-- R74: Bitwise XOR of two scalar registers. -/
  | xor (o : RRR)
  /-- R74: Shifts a scalar left by a register count modulo the width. -/
  | shl (o : RRR)
  /-- R74: Shifts a scalar logically right by a register count. -/
  | shr (o : RRR)
  /-- R74: Shifts a scalar arithmetically right by a register count. -/
  | sar (o : RRR)
  /-- R74: Writes the smaller of two scalar integers. -/
  | min (o : RRR)
  /-- R74: Writes the larger of two scalar integers. -/
  | max (o : RRR)
  /-- R74: Compares two scalar integers and writes 1 or 0. -/
  | cmp (o : RRR)
  /-- R74: Selects one of two scalar registers by a third. -/
  | sel (o : RRR)
  /-- R69: Compares two scalars and writes all ones or zero to a predicate. -/
  | pcmp (o : RRR)
  /-- R69: Combines predicates with a logical function. -/
  | plog (o : RRR)
  /-- R69: Moves, counts or finds bits between predicates and scalars. -/
  | pmov (o : RRR)
  /-- R55: Reads or writes a loop register, with checks on lbeg, lend and lact. -/
  | lreg (o : RRR)
  /-- R74: Adds two scalar floating-point values with one rounding. -/
  | fadd (o : RRR)
  /-- R74: Subtracts two scalar floating-point values with one rounding. -/
  | fsub (o : RRR)
  /-- R74: Multiplies two scalar floating-point values with one rounding. -/
  | fmul (o : RRR)
  /-- R74: Divides two scalar floating-point values with one rounding. -/
  | fdiv (o : RRR)
  /-- R74: Fused multiply-add of scalar floating-point values rounded once. -/
  | fma (o : RRR)
  /-- R74: Writes the lesser of two floating-point values. -/
  | fmin (o : RRR)
  /-- R74: Writes the greater of two floating-point values. -/
  | fmax (o : RRR)
  /-- R74: Compares two floating-point values and writes 1 or 0. -/
  | fcmp (o : RRR)
  /-- R50: Converts a scalar between formats and counts losses at commit. -/
  | fcvt (o : RRR)
  /-- R48: Writes the reciprocal square root seed of an FP32 value. -/
  | frsqs (o : RRR)
  /-- R48: Writes the reciprocal seed of an FP32 value. -/
  | frcps (o : RRR)
  /-- R116: Checks and queues a contiguous copy command for the draught engine. -/
  | cpy (o : RRR)
  /-- R116: Checks and queues a strided row copy named by a control block. -/
  | cpy2 (o : RRR)
  /-- R147: Reads the current colour, context or a colour binding. -/
  | mfc (o : RRR)
  /-- R147: Reads a colour's quota, live keys and purge state in a region. -/
  | colqRd (o : RRR)
  /-- R147: Opens a region's entry ports to a colour. -/
  | colqOpen (o : RRR)
  /-- R147: Closes a region's entry ports to a colour. -/
  | colqClose (o : RRR)
  /-- R166: Purges a colour from a region at delivery. -/
  | rpurge (o : RRR)
  /-- R179: Checks a region image and queues a load command for the loader. -/
  | rload (o : RRR)
  /-- R172: Snapshots a section descriptor and takes a section-table entry. -/
  | rarm (o : RRR)
  /-- R179: Waits for a region or colour to be calm, or for a section to complete, or reads status. -/
  | rcalm (o : RRR)
  /-- R161: Tears a region down, plainly or by force, at delivery. -/
  | rtear (o : RRR)
  /-- R168: Injects a result token at an element output, releasing a fault hold. -/
  | rinj (o : RRR)
  /-- R329: Writes a vane configuration, probe word or probe vector. -/
  | vnset (o : RRR)
  /-- R329: Loads or clears a steering-bank slot. -/
  | steerset (o : RRR)
  /-- R329: Reads a vane configuration, probe word or counts. -/
  | vnrd (o : RRR)
  /-- R343: Sends a route-class packet from the local pad. -/
  | msend (o : RRR)
  /-- R343: Masks receive classes of the core. -/
  | mmask (o : RRR)
  /-- R343: Unmasks receive classes of the core. -/
  | munmask (o : RRR)
  /-- R343: Frees the previous slot and takes the oldest delivered ring slot. -/
  | mrecvPop (o : RRR)
  /-- R343: Configures and empties the core's receive ring. -/
  | mrecvCfg (o : RRR)
  /-- R343: Reads the receive ring status. -/
  | mrecvSt (o : RRR)
  /-- R343: Frees the taken ring slot at commit. -/
  | mrecvFree (o : RRR)
  /-- R74: Adds a sign-extended immediate to a register. -/
  | addi (o : RRI)
  /-- R74: Bitwise AND with a sign-extended immediate. -/
  | andi (o : RRI)
  /-- R74: Bitwise OR with a sign-extended immediate. -/
  | ori (o : RRI)
  /-- R74: Bitwise XOR with a sign-extended immediate. -/
  | xori (o : RRI)
  /-- R74: Shifts left by an immediate count. -/
  | shli (o : RRI)
  /-- R74: Shifts logically right by an immediate count. -/
  | shri (o : RRI)
  /-- R74: Shifts arithmetically right by an immediate count. -/
  | sari (o : RRI)
  /-- R74: Loads a sign-extended 40-bit immediate into a register. -/
  | movi (o : RRI)
  /-- R74: Places a 24-bit immediate in the top bits while keeping the low 40 bits. -/
  | movhi (o : RRI)
  /-- R29: Branches to the block at the header address plus the word offset. -/
  | br (o : BRX)
  /-- R29: Branches to a register address plus the word offset. -/
  | brr (o : BRX)
  /-- R29: Branches relative to the header and writes the fall-through address as a link. -/
  | call (o : BRX)
  /-- R29: Branches to a register address plus offset and writes a link. -/
  | callr (o : BRX)
  /-- R29: Transfers control to the address held in a register. -/
  | ret (o : BRX)
  /-- R70: Enters a hardware loop by setting lcnt, lbeg, lend and lact, or skips the body when the count is zero. -/
  | loop (o : BRX)
  /-- R28: Computes a memory-operand address without translation or access. -/
  | lea (o : MEM)
  /-- R83: Loads 128 contiguous bytes into a vector register by lane mask. -/
  | vld (o : MEM)
  /-- R83: Stores the active lanes of a vector register to 128 contiguous bytes. -/
  | vst (o : MEM)
  /-- R84: Loads each active lane from an address formed from an index vector. -/
  | vgath (o : MEM)
  /-- R84: Stores each active lane to an address formed from an index vector. -/
  | vscat (o : MEM)
  /-- R103: Plain load of an aligned scalar. -/
  | ld (o : MEM)
  /-- R103: Plain store of an aligned scalar, optionally setting pad words full. -/
  | st (o : MEM)
  /-- R104: Acquire load at a scope. -/
  | lda (o : MEM)
  /-- R104: Release store at a scope, written through to its point of coherence. -/
  | stl (o : MEM)
  /-- R105: Waits until local pad words are full, then reads and optionally empties them. -/
  | ldf (o : MEM)
  /-- R107: Requests a line into the L1 or L2 without fault. -/
  | pf (o : MEM)
  /-- R108: Writes dirty lines of a range back to the scope's points of coherence. -/
  | cflush (o : MEM)
  /-- R108: Writes back and invalidates lines and fetch-path copies of a range. -/
  | cinv (o : MEM)
  /-- R110: Removes one or all control-block cache entries. -/
  | invalCb (o : MEM)
  /-- R106: Sleeps until a local pad word meets a condition and returns it. -/
  | waita (o : MEM)
  /-- R133: Sends an atomic integer update to the home bank and returns the old value. -/
  | amo (o : MEM)
  /-- R133: Sends an atomic floating-point update to the bank and returns the old value. -/
  | amof (o : MEM)
  /-- R133: Sends a compare-and-swap to the bank. -/
  | cas (o : MEM)
  /-- R133: Sends an integer reduction to the bank with no reply. -/
  | red (o : MEM)
  /-- R133: Sends a floating-point reduction to the bank with no reply. -/
  | redf (o : MEM)
  /-- R133: Updates a 128-byte line lane by lane at its bank. -/
  | bupd (o : MEM)
  /-- R133: Fills a range at its bank and optionally sets its presence tags. -/
  | bfill (o : MEM)
  /-- R126: Waits for a full presence word, reads it and empties it. -/
  | take (o : MEM)
  /-- R126: Waits for an empty presence word, writes it and fills it. -/
  | put (o : MEM)
  /-- R126: Waits for a full presence word and reads it, leaving it full. -/
  | rdf (o : MEM)
  /-- R125: Empties a presence tag at the bank and serves its queue. -/
  | clrp (o : MEM)
  /-- R133: Reads a presence word's deferred count, poison and full state. -/
  | pstat (o : MEM)
  /-- R128: Sequentially consistent load performed under the trade token. -/
  | ldsc (o : MEM)
  /-- R128: Sequentially consistent store performed under the trade token. -/
  | stsc (o : MEM)
  /-- R128: Sequentially consistent atomic update under the trade token. -/
  | amoSc (o : MEM)
  /-- R128: Sequentially consistent compare-and-swap under the trade token. -/
  | casSc (o : MEM)
  /-- R86: Adds vector sub-lanes. -/
  | vadd (o : VEC)
  /-- R86: Subtracts vector sub-lanes. -/
  | vsub (o : VEC)
  /-- R86: Multiplies vector sub-lanes. -/
  | vmul (o : VEC)
  /-- R86: Takes the minimum of vector sub-lanes. -/
  | vmin (o : VEC)
  /-- R86: Takes the maximum of vector sub-lanes. -/
  | vmax (o : VEC)
  /-- R86: Bitwise AND of vector lanes. -/
  | vand (o : VEC)
  /-- R86: Bitwise OR of vector lanes. -/
  | vor (o : VEC)
  /-- R86: Bitwise XOR of vector lanes. -/
  | vxor (o : VEC)
  /-- R86: Shifts vector sub-lanes left by vector or immediate counts. -/
  | vshl (o : VEC)
  /-- R86: Shifts vector sub-lanes logically right. -/
  | vshr (o : VEC)
  /-- R86: Shifts vector sub-lanes arithmetically right. -/
  | vsar (o : VEC)
  /-- R87: Adds floating-point vector sub-lanes. -/
  | vfadd (o : VEC)
  /-- R87: Subtracts floating-point vector sub-lanes. -/
  | vfsub (o : VEC)
  /-- R87: Multiplies floating-point vector sub-lanes. -/
  | vfmul (o : VEC)
  /-- R87: Fused multiply-add of floating-point vector sub-lanes. -/
  | vfma (o : VEC)
  /-- R87: Floating-point minimum of vector sub-lanes. -/
  | vfmin (o : VEC)
  /-- R87: Floating-point maximum of vector sub-lanes. -/
  | vfmax (o : VEC)
  /-- R88: Compares vector lanes into one predicate bit per lane. -/
  | vcmp (o : VEC)
  /-- R89: Chooses each lane from one of two vectors by a predicate. -/
  | vsel (o : VEC)
  /-- R91: Reduces the active lanes through the fixed tree into a scalar. -/
  | vred (o : VEC)
  /-- R92: Permutes vector lanes by an index vector. -/
  | vperm (o : VEC)
  /-- R93: Broadcasts a scalar or a lane to every active lane. -/
  | vbcast (o : VEC)
  /-- R94: Extracts one lane into a scalar register. -/
  | vext (o : VEC)
  /-- R95: Inserts a scalar into one lane of a vector. -/
  | vins (o : VEC)
  /-- R50: Converts vector elements between formats, widening or narrowing by part. -/
  | vcvt (o : VEC)
  /-- R48: Writes reciprocal square root seeds of active lanes. -/
  | vrsqs (o : VEC)
  /-- R48: Writes reciprocal seeds of active lanes. -/
  | vrcps (o : VEC)
  /-- R214: Queues loading of a half-tile from the crown into a weight slot. -/
  | wload (o : MTX)
  /-- R214: Queues scaling of accumulator rows by pad scales. -/
  | mscl (o : MTX)
  /-- R216: Queues multiplication of pad rows into accumulator rows. -/
  | mma (o : MTX)
  /-- R220: Attaches a stream to the island for row multiplication and optional emission. -/
  | mmas (o : MTX)
  /-- R214: Queues clearing of accumulator rows or the island count. -/
  | aclr (o : MTX)
  /-- R214: Reads accumulator values, poison bits or island status. -/
  | ard (o : MTX)
  /-- R214: Writes accumulator values from a vector or the pad. -/
  | awr (o : MTX)
  /-- R214: Saves or restores an accumulator tile with its poison bits. -/
  | asave (o : MTX)
  /-- R182: Binds or unbinds a stream to a descriptor and binding word. -/
  | sbind (o : STR)
  /-- R186: Starts or resumes named streams. -/
  | sstart (o : STR)
  /-- R191: Stops named read streams from issuing. -/
  | sclose (o : STR)
  /-- R191: Waits for streams' accesses or holds streams until the core's stores are visible. -/
  | sbar (o : STR)
  /-- R191: Reads or writes a stream position, or reads its status. -/
  | spos (o : STR)
  /-- R187: Installs a stream's flag or token done action. -/
  | sdone (o : STR)
  /-- R230: Takes the head node of the core's pool and writes its header at commit. -/
  | nalloc (o : NET)
  /-- R230: Frees a node at commit so that it returns to a pool once its links are NIL. -/
  | nfree (o : NET)
  /-- R245: Reads a node word at the bank. -/
  | nld (o : NET)
  /-- R245: Writes a node word at commit. -/
  | nst (o : NET)
  /-- R241: Joins two ends, delivered at commit under the link protocol. -/
  | nlink (o : NET)
  /-- R245: Pushes a pair to the bag, or releases the current pair with .rel. -/
  | npush (o : NET)
  /-- R245: Takes the head entry of the core's own bag. -/
  | npop (o : NET)
  /-- R232: Looks up the rule body for a pair of kinds. -/
  | nruleLook (o : NET)
  /-- R231: Installs a rule table for the partition's cores of the issuer's owner tag. -/
  | nruleSet (o : NET)
  /-- R233: Empties the rule caches of the partition's cores. -/
  | nruleInv (o : NET)
  /-- R51: Reads, and optionally clears, one of the core's converter counts. -/
  | statrd (o : SYS)
  /-- R111: Orders the core's accesses of given kinds at a scope. -/
  | fence (o : SYS)
  /-- R276: Removes cached translations and writes a flag when they are no longer used. -/
  | tlbi (o : SYS)
  /-- R276: Walks a translation for inspection without caching. -/
  | tlbw (o : SYS)
  /-- R298: Discards its block and traps with the software trap code. -/
  | trap (o : SYS)
  /-- R298: Returns from a trap to tblock or to dispatch and restores the level. -/
  | eret (o : SYS)
  /-- R277: Reads a system register or capability word. -/
  | mfs (o : SYS)
  /-- R277: Writes a system register at commit, including W1C and posting forms. -/
  | mts (o : SYS)
  /-- R298: Commits its block and then traps with the system call code. -/
  | sysc (o : SYS)
  /-- R298: Traps with the breakpoint code when enabled. -/
  | bkpt (o : SYS)
  /-- R298: Commits and stops the core or enters bag dispatch. -/
  | halt (o : SYS)
  /-- R298: Gates streams at tile ends or saves streams and accumulators. -/
  | rsave (o : SYS)
  /-- R298: Restores streams and accumulators from a save area. -/
  | rrest (o : SYS)
  /-- R176: Fires a copy of its input to the outputs. -/
  | passE (o : ElemCfg)
  /-- R176: Emits its constant on each trigger token. -/
  | constE (o : ElemCfg)
  /-- R176: Sends input 0 to one arm by the predicate. -/
  | steerE (o : ElemCfg)
  /-- R169: Emits tokens of either input in arrival order. -/
  | mergeE (o : ElemCfg)
  /-- R141: Issues iteration tags within the overlap depth. -/
  | loopE (o : ElemCfg)
  /-- R140: Allocates a context and emits with it. -/
  | callE (o : ElemCfg)
  /-- R140: Emits with the caller's tag and marks the context freeing. -/
  | retE (o : ElemCfg)
  /-- R176: Element integer addition. -/
  | addE (o : ElemCfg)
  /-- R176: Element integer subtraction. -/
  | subE (o : ElemCfg)
  /-- R176: Element integer multiplication. -/
  | mulE (o : ElemCfg)
  /-- R176: Element integer minimum. -/
  | minE (o : ElemCfg)
  /-- R176: Element integer maximum. -/
  | maxE (o : ElemCfg)
  /-- R176: Element bitwise AND. -/
  | andE (o : ElemCfg)
  /-- R176: Element bitwise OR. -/
  | orE (o : ElemCfg)
  /-- R176: Element bitwise XOR. -/
  | xorE (o : ElemCfg)
  /-- R176: Element shift left. -/
  | shlE (o : ElemCfg)
  /-- R176: Element arithmetic or logical shift right. -/
  | shrE (o : ElemCfg)
  /-- R176: Element integer compare emitting 1 or 0. -/
  | cmpE (o : ElemCfg)
  /-- R176: Element selection of one of two inputs. -/
  | selE (o : ElemCfg)
  /-- R176: Element floating-point addition. -/
  | faddE (o : ElemCfg)
  /-- R176: Element floating-point subtraction. -/
  | fsubE (o : ElemCfg)
  /-- R176: Element floating-point multiplication. -/
  | fmulE (o : ElemCfg)
  /-- R176: Element fused multiply-add. -/
  | fmaE (o : ElemCfg)
  /-- R176: Element floating-point minimum. -/
  | fminE (o : ElemCfg)
  /-- R176: Element floating-point maximum. -/
  | fmaxE (o : ElemCfg)
  /-- R176: Element floating-point compare per lane. -/
  | fcmpE (o : ElemCfg)
  /-- R52: Converts tokens between formats, packing or unpacking lanes. -/
  | cvtE (o : ElemCfg)
  /-- R176: Accumulates a row and emits the sum at eor. -/
  | accE (o : ElemCfg)
  /-- R177: Loads a word by colour-translated address. -/
  | mloadE (o : ElemCfg)
  /-- R177: Stores a word and optionally emits a done token. -/
  | mstoreE (o : ElemCfg)
  /-- R177: Performs a read-modify-write at the floor bank. -/
  | mrmwE (o : ElemCfg)
  /-- R178: S-element division. -/
  | sdivE (o : ElemCfg)
  /-- R178: S-element base-2 exponential. -/
  | sexp2E (o : ElemCfg)
  /-- R178: S-element base-2 logarithm. -/
  | slog2E (o : ElemCfg)
  /-- R178: S-element sine of pi times x. -/
  | ssinE (o : ElemCfg)
  /-- R178: S-element table lookup. -/
  | stabE (o : ElemCfg)
  /-- R53: Adds two count tokens with saturation. -/
  | statE (o : ElemCfg)
  /-- R306: Holds a sequence token until its position is next and retires it. -/
  | commitE (o : ElemCfg)
  /-- R310: Steers each row by the policy in its header. -/
  | routeE (o : ElemCfg)
  /-- R311: Merges sparse bias pairs into a logit row. -/
  | spaddE (o : ElemCfg)
  /-- R312: Keeps and emits the k largest values of a row with positions. -/
  | topkE (o : ElemCfg)
  /-- R313: Emits the running sum along a row. -/
  | cumsE (o : ElemCfg)
  /-- R315: Emits a Philox-4x32-10 draw for a position. -/
  | drawE (o : ElemCfg)
  /-- R314: Applies frequency and presence penalties to a logit. -/
  | penalE (o : ElemCfg)
  /-- R316: Applies a per-colour scale and offset read from memory. -/
  | adptE (o : ElemCfg)
  /-- R323: Buffers a row and, at its eor, scores it against probes, halting or steering. -/
  | vaneE (o : ElemCfg)
  /-- R214: The island performs the next command of its queue. -/
  | islandCommandPerform (n : CoreNum)
  /-- R63: The answer of a wait form arrives and its block commits. -/
  | waitAnswer (n : CoreNum)
  /-- R63: A pending interrupt or pre-emption sends a cancel to the wait's target. -/
  | waitCancel (n : CoreNum)
  /-- R133: The bank's answer to a committed atomic arrives and writes X[d]. -/
  | bankReply (n : CoreNum)
  /-- R282: A pending unmasked interrupt is taken between blocks. -/
  | interruptTaken (n : CoreNum)
  /-- R333: A remote load without a reply for 2^24 cycles discards its block. -/
  | remoteLoadTimeout (n : CoreNum)
  /-- R252: A dirty line is written back to its home, at the latest 65,536 cycles after it became dirty. -/
  | l1WriteBack (n : CoreNum) (line : BitVec 45)
  /-- R112: The draught engine copies one queued command and writes its flag. -/
  | engineCommand (n : CoreNum)
  /-- R122: A bank operation enters the sub-bank pipeline and is performed atomically. -/
  | bankOperation (k : Nat)
  /-- R126: A presence request arrives at the bank and is performed, deferred or refused. -/
  | presenceArrive (k : Nat)
  /-- R127: A cancel removes a still-queued deferred request at the bank. -/
  | presenceCancel (n : CoreNum)
  /-- R128: The trade token reaches a bank, which performs up to 8 SC requests and passes it on. -/
  | tradeTokenArrival
  /-- R122: A plain line write or write-back reaches its home and is performed. -/
  | lineWrite (n : CoreNum) (line : BitVec 45)
  /-- R145: A token at an entry port is admitted, held, refused or discarded by colour. -/
  | entryPortAdmit (n : CoreNum) (port : BitVec 4) (slot : BitVec 2)
  /-- R143: A token held at quota is admitted once a key may be born. -/
  | heldTokenAdmit (n : CoreNum) (port : BitVec 4) (slot : BitVec 2) (colour : BitVec 8)
  /-- R151: A token crosses a link into the receiving input, or is discarded as stale. -/
  | linkTransfer (e : ElemNum) (src : BitVec 3) (slot : BitVec 2) (colour : BitVec 8)
  /-- R170: An ordered exit side emits the next token of the expected iteration. -/
  | exitReorderEmit (n : CoreNum) (port : BitVec 4) (slot : BitVec 2) (colour : BitVec 8)
  /-- R47: A converter emits a colour's four count tokens after an eos token. -/
  | countTokens (e : ElemNum)
  /-- R177: A memory reply reaches an M-element and its result is emitted. -/
  | mElementReply (e : ElemNum) (k : Nat)
  /-- R306: Retires a token once pos reaches it, updating counts and the descriptor. -/
  | retire (e : ElemNum) (slot : BitVec 2) (colour : BitVec 8) (context : BitVec 10)
  /-- R308: Resolves a complete draft-tree step, retiring its accepted path. -/
  | treeStep (e : ElemNum) (slot : BitVec 2) (colour : BitVec 8) (context : BitVec 10)
  /-- R327: The vane unit performs a delivered VNSET or STEERSET between rows. -/
  | vaneCommandPerform (n : CoreNum)
  /-- R163: The calm tree sweeps every 8 or 16 cycles and reports filters calm. -/
  | calmSweep (quad : Bool) (n : CoreNum)
  /-- R165: A colour's stall counter reaches 2^dexp and the colour is purged and closed. -/
  | doldrums (h : Handle) (colour : BitVec 8)
  /-- R166: A purge ends when the colour is calm with nothing outstanding. -/
  | purgeEnd (h : Handle) (colour : BitVec 8)
  /-- R167: An M-element request with no reply after 2^rexp cycles faults. -/
  | remoteTimeout (e : ElemNum) (k : Nat)
  /-- R161: The loader delivers a queued load, making the dynamic checks. -/
  | loadDelivery (quad : Bool) (n : CoreNum)
  /-- R159: The loader writes an element slot once it is free, with the load's generation. -/
  | elementWrite (h : Handle)
  /-- R160: An element of a one-shot region frees itself after the section's last eos. -/
  | oneShotFree (e : ElemNum) (slot : BitVec 2)
  /-- R172: An armed section starts when its regions are resident and injects start tokens. -/
  | sectionStart (n : CoreNum) (entry : BitVec 4)
  /-- R173: The barrier releases when every sink has counted its eos and stores are visible. -/
  | sectionRelease (n : CoreNum) (entry : BitVec 4)
  /-- R175: A section ends early as absent, purged or torn. -/
  | sectionEarlyEnd (n : CoreNum) (entry : BitVec 4)
  /-- R174: A refused kind 1 completion PUT is sent again every 1,024 cycles. -/
  | completionPutRetry (n : CoreNum) (entry : BitVec 4)
  /-- R183: A stream performs one access of its pattern. -/
  | streamAccess (n : CoreNum) (i : BitVec 4)
  /-- R184: A write stream takes an exit token and stores or skips it. -/
  | portWriteToken (n : CoreNum) (i : BitVec 4)
  /-- R388: A read stream token reaches the entry side of its port. -/
  | portReadDelivery (n : CoreNum) (i : BitVec 4)
  /-- R187: After a tile's writes are visible, the stream writes a flag or injects a token. -/
  | doneAction (n : CoreNum) (i : BitVec 4)
  /-- R214: The island performs an arriving stream row into an accumulator. -/
  | islandRow (n : CoreNum) (i : BitVec 4)
  /-- R221: After a tile's last row, the island emits accumulator rows as tokens. -/
  | islandEmit (n : CoreNum) (i : BitVec 4)
  /-- R194: An ingress record arrives and is queued or refused. -/
  | ingressRecord (part : PartNum) (port : BitVec 3) (vf : BitVec 6) (rec : W64)
  /-- R196: A head record reaches its colour's queue head and triggers a launch. -/
  | headRecordServed (part : PartNum) (port : BitVec 3) (colour : BitVec 8)
  /-- R194: A data record with no open launch is discarded and counted. -/
  | orphan (part : PartNum) (port : BitVec 3) (colour : BitVec 8)
  /-- R206: A timed entry's slot starts and may trigger, skip or abort a launch. -/
  | timedSlotStart (part : PartNum) (n : BitVec 4)
  /-- R197: The scheduler admits the oldest launch of the highest priority. -/
  | admission (part : PartNum)
  /-- R198: The loader handles one image entry of a running launch. -/
  | loaderImage (part : PartNum)
  /-- R200: The scheduler arms a launch's section once its images are resident. -/
  | launchArm (part : PartNum) (id : Nat)
  /-- R201: The launch pair is pushed to the bag of the record's core. -/
  | launchPairPush (part : PartNum) (id : Nat)
  /-- R202: A launch completes and its completion record is written or dropped. -/
  | launchCompletion (part : PartNum) (id : Nat)
  /-- R204: An IEEE 1588 event message is timestamped at a port. -/
  | ptpEventMessage (port : BitVec 4) (domain : BitVec 8) (msg : PtpMsg)
  /-- R205: The clock servo steps device time at first lock or slews it. -/
  | servoCorrection
  /-- R238: A core in dispatch pops or steals a pair, claims it and runs its rule. -/
  | dispatch (n : CoreNum)
  /-- R330: A switch forwards a packet on its lane toward its destination. -/
  | packetForward (k : Nat) (queued : BitVec 7)
  /-- R334: A packet arrives at its destination window and is delivered, held or discarded. -/
  | packetArrival (k : Nat)
  /-- R336: A sheared header creates a hole and a re-request. -/
  | shearedHeader (k : Nat)
  /-- R336: A paced re-request leaves once per lull interval and the sender retransmits. -/
  | reRequest (n : CoreNum)
  /-- R333: An acknowledgement frees a retransmit place, or a nack refuses the packet. -/
  | acknowledgement (k : Nat)
  /-- R333: An unacknowledged packet is sent again after 2^20 cycles or abandoned after 16 sends. -/
  | retransmitTimeout (k : Nat)
  /-- R337: A remote read is performed at its delivery and a reply is sent. -/
  | remoteRead (k : Nat)
  /-- R337: A remote write is performed at its delivery and acknowledged. -/
  | remoteWrite (k : Nat)
  /-- R262: A remote read reply reaches its requester. -/
  | readReply (k : Nat)
  /-- R339: A route-class packet fills the next ring slot and bumps the count word. -/
  | routeClassDelivery (k : Nat)
  /-- R347: A channel ready frame opens or faults the receiving end. -/
  | readyFrame (k : Nat)
  /-- R347: An end in WAIT resends its ready frame every 2^16 cycles. -/
  | readyResend (part : PartNum) (chan : BitVec 6)
  /-- R349: A receive end admits a frame's tokens and returns credits. -/
  | tokenFrame (k : Nat)
  /-- R349: A credit frame returns credits for one colour to the send end. -/
  | creditFrame (k : Nat)
  /-- R347: A close frame returns an open end to WAIT. -/
  | closeFrame (k : Nat)
  /-- R349: The exit side releases a token on a credit. -/
  | channelTokenSend (part : PartNum) (chan : BitVec 6) (colour : BitVec 8)
  /-- R354: A packet that cannot be opened under its phase is discarded and counted. -/
  | authfail (port : BitVec 4) (dom : BitVec 6) (phase : Bool)
  /-- R366: A port's physical layer trains and enters TRAINED. -/
  | linkTrained (port : BitVec 4)
  /-- R366: A port returns to UNTRAINED on loss of signal. -/
  | lossOfSignal (port : BitVec 4)
  /-- R363: SPDM version request. -/
  | getVersion (m : Spdm)
  /-- R363: SPDM capabilities request. -/
  | getCapabilities (m : Spdm)
  /-- R364: Negotiates algorithms, requiring ML-DSA-44 and ML-KEM-768. -/
  | negotiateAlgorithms (m : Spdm)
  /-- R363: Returns certificate chain digests. -/
  | getDigests (m : Spdm)
  /-- R363: Returns a certificate chain. -/
  | getCertificate (m : Spdm)
  /-- R371: Signs a challenge over the slot contents at acceptance. -/
  | challenge (m : Spdm)
  /-- R370: Returns measurement blocks. -/
  | getMeasurements (m : Spdm)
  /-- R364: Starts a session with ML-KEM-768 key exchange. -/
  | keyExchange (m : Spdm)
  /-- R363: Completes session establishment, possibly entering AUTH. -/
  | finish (m : Spdm)
  /-- R363: SPDM heartbeat. -/
  | heartbeat (m : Spdm)
  /-- R363: Updates session keys. -/
  | keyUpdate (m : Spdm)
  /-- R366: Ends a session; a link returns to TRAINED, a tenant VF may enter ERROR. -/
  | endSession (m : Spdm)
  /-- R371: Writes a certificate slot, deferred past pending responses. -/
  | setCertificate (m : Spdm)
  /-- R371: Returns a certificate signing request, possibly replacing a slot key. -/
  | getCsr (m : Spdm)
  /-- R363: Sends a chunk of a large SPDM message. -/
  | chunkSend (m : Spdm)
  /-- R363: Gets a chunk of a large SPDM response. -/
  | chunkGet (m : Spdm)
  /-- R386: Carries a TDISP or management request. -/
  | vendorDefinedRequest (m : Spdm)
  /-- R367: TDISP version request. -/
  | getTdispVersion (vf : BitVec 6)
  /-- R367: TDISP capabilities request. -/
  | getTdispCapabilities (vf : BitVec 6)
  /-- R367: Locks a VF's configuration, fixing its frozen set. -/
  | lockInterfaceRequest (vf : BitVec 6)
  /-- R369: Reports a VF's frozen set and context measurement. -/
  | getDeviceInterfaceReport (vf : BitVec 6)
  /-- R367: Reports a VF's assignment state. -/
  | getDeviceInterfaceState (vf : BitVec 6)
  /-- R367: Moves a locked VF to RUN with the start nonce. -/
  | startInterfaceRequest (vf : BitVec 6) (nonce : BitVec 256)
  /-- R367: Stops a VF, scrubbing its colours and issuing receipts. -/
  | stopInterfaceRequest (vf : BitVec 6)
  /-- R367: A change to the frozen set or a sealed-frame error moves the VF to ERROR. -/
  | frozenSetChange (vf : BitVec 6)
  /-- R356: Management write of a partition entry, with refusals. -/
  | partWrite (n : PartNum) (v : BitVec 256)
  /-- R357: Management write of a virtual-function entry. -/
  | vfWrite (n : BitVec 6) (v : W64)
  /-- R361: Management write of a partition's link permits. -/
  | lpermWrite (n : PartNum) (v : W64)
  /-- R139: Management write of a colour-table entry. -/
  | colourTableWrite (c : BitVec 8) (v : BitVec 128)
  /-- R359: Changes a stopped core's owner tag and clears its state. -/
  | ownerTagWrite (n : CoreNum) (tag : BitVec 16)
  /-- R360: Starts a core held in reset at a block with a colour and argument. -/
  | startCommand (n : CoreNum) (tag : BitVec 16) (colour : BitVec 8) (block : W64) (arg : W64)
  /-- R284: Management reset of a stopped core. -/
  | coreReset (n : CoreNum)
  /-- R378: Retires a GDDR-7 frame into the retirement table. -/
  | retireCommand (frame : BitVec 40)
  /-- R362: Loads a colour or partition GDDR-7 key. -/
  | keyLoad (shared : Bool) (n : BitVec 8) (key : BitVec 512) (session : Bool)
  /-- R354: Loads a transport key phase of a secure domain. -/
  | linkKeyLoad (port : BitVec 4) (dom : BitVec 6) (phase : Bool) (key : BitVec 256)
  /-- R354: Sets the transmit phase or accept bits of a secure domain. -/
  | lkstatWrite (port : BitVec 4) (dom : BitVec 6) (v : W64)
  /-- R368: Seals a virtual range into a context measurement. -/
  | sealRange (colour : BitVec 8) (va : W64) (len : W64)
  /-- R281: The package supervisor sets a core's pre-emption request. -/
  | setPre (n : CoreNum)
  /-- R377: The channel controller reads and corrects a sector on patrol. -/
  | patrol (sector : BitVec 47) (bad : Bool)
  /-- R385: Boots the security core, trains channels and zeroes on-package memory. -/
  | coldReset
  /-- R383: Lowers the clock on excess power or temperature, stepping down after 10 ms. -/
  | throttle
  /-- R383: Restores the clock one step after 100 ms below both limits. -/
  | throttleRestore
  /-- R384: Removes every rail at 115 °C or on loss of coolant flow. -/
  | thermalTrip
  /-- R207: Enables or stops launch admission and sets maxrun. -/
  | lschedWrite (part : PartNum) (v : W64)
  /-- R207: Sets the completion ring, refusing an oversized csize. -/
  | lcbaseWrite (part : PartNum) (v : W64)
  /-- R196: A write of LROOT triggers a root launch. -/
  | lrootWrite (part : PartNum) (v : W64)
  /-- R206: Enables or disables timed launches, fixing first slots. -/
  | ttctlWrite (part : PartNum) (v : W64)
  /-- R207: Writes a timed entry, effective at its next slot start. -/
  | ttWrite (part : PartNum) (n : BitVec 4) (hi : Bool) (v : W64)
  /-- R207: Binds or disables an ingress port, discarding records when cleared. -/
  | ingWrite (part : PartNum) (n : BitVec 3) (v : W64)
  /-- R129: Asks a bank to join or leave the trade ring. -/
  | bkctlWrite (die : BitVec 2) (bank : BitVec 7) (v : W64)
  /-- R237: Enables or stops bag dispatch on a core. -/
  | bagctlWrite (n : CoreNum) (v : W64)
  /-- R246: Sets or removes a bag's spill ring. -/
  | bagspillWrite (n : CoreNum) (v : W64)
  /-- R287: Sets the fault-log ring, refusing an oversized fsize. -/
  | flbaseWrite (part : PartNum) (v : W64)
  /-- R341: Starts a rehash or sets the lull interval. -/
  | netctlWrite (part : PartNum) (v : W64)
  /-- R346: Writes a channel entry, enabling or closing an end. -/
  | channelEntryWrite (part : PartNum) (chan : BitVec 6) (hi : Bool) (v : W64)
  /-- R207: Writes a register field that has no behaviour of its own. -/
  | registerWrite (pa : BitVec 52) (v : W64)
  /-- R356: Overwrites a sector's floor banks, die-bank quarters and L2 slice, or a channel's GDDR-7 range, so that it may leave its partition. -/
  | releaseScrub (channel : Bool) (n : BitVec 7)
  /-- R146: A token leaves an exit side bound as an ingress port's egress and is delivered to the virtual function that owns its colour. -/
  | hostEgressDelivery (part : PartNum) (port : BitVec 3)
deriving DecidableEq, Repr

end Sys2Proof
end

