-- ==== Sys2Proof/WellFormed.lean ====
section
/-!
DEFINITION. Which field values an instruction's entry lists (02 R25, R26, R34; for configuration words R36), and the
level it requires. A core instruction that is not well formed raises an illegal-instruction trap at decode; a
configuration word that is not well formed is refused by RLOAD.
-/
namespace Sys2Proof

/-- What a six-bit operand field names (Table 02.2): a scalar, a vector or a predicate register, or nothing. -/
inductive Field where
  | x | v | p | z
deriving DecidableEq, Repr

/-- R26: the field does not exceed its file and its unused high bits are zero. -/
def Field.ok (k : Field) (f : BitVec 6) : Bool :=
  match k with
  | .x => true
  | .v => f.toNat < 32
  | .p => f.toNat < 8
  | .z => f == 0

/-- R25: g = 0 with gs = 1 is reserved. -/
def guardOk (g : BitVec 3) (gs : Bool) : Bool := !(g == 0 && gs)

/-- Integer types of scalar forms, codes 0x00-0x07 (R21, R74). -/
def isIntTy (t : BitVec 5) : Bool := t.toNat ≤ 7
/-- Scalar floating-point types of the arithmetic forms, 0x08-0x0A. -/
def isFloatTy (t : BitVec 5) : Bool := 8 ≤ t.toNat && t.toNat ≤ 10
/-- Integer lane types of Table 05.2. -/
def isVIntTy (t : BitVec 5) : Bool := t == 4 || t == 5 || (0x11 ≤ t.toNat && t.toNat ≤ 0x14)
/-- Floating-point lane types of Table 05.2. -/
def isVFloatTy (t : BitVec 5) : Bool := t == 8 || t == 0xD || t == 0xE
/-- `.s32 .n32 .f32`, the types of VCMP, VRED and VEXT. -/
def isLaneTy (t : BitVec 5) : Bool := t == 4 || t == 5 || t == 8
/-- Width in bits of a type code 0x00-0x0C, and the sub-lane width of a packed one (R21). -/
def tyWidth (t : BitVec 5) : Nat :=
  match t.toNat with
  | 0 | 1 => 8 | 2 | 3 => 16 | 4 | 5 => 32 | 6 | 7 => 64
  | 8 => 32 | 9 | 10 => 16 | 11 | 12 => 8
  | 0xD | 0xE => 16 | 0xF | 0x10 => 8
  | 0x11 | 0x12 => 8 | 0x13 | 0x14 => 16
  | _ => 32

/-- An RRR word whose d, a, b and c fields are of the given kinds, with rm zero unless `rmOk`, sat zero unless
`satOk`, and the func and type given. -/
def RRR.ok (o : RRR) (d a b c : Field) (func ty : Bool) (rmOk satOk : Bool) : Bool :=
  guardOk o.g o.gs && d.ok o.d && a.ok o.a && b.ok o.b && c.ok o.c && func && ty &&
    (rmOk || o.rm == 0) && (satOk || !o.sat)

/-- A form of the integer group (04, Table 04.4). -/
def RRR.int (o : RRR) (satOk : Bool) : Bool := o.ok .x .x .x .z (o.func == 0) (isIntTy o.ty) false satOk
/-- A command form: no type, rm or sat. -/
def RRR.cmd (o : RRR) (d a b c : Field) (func : Bool) : Bool := o.ok d a b c func (o.ty == 0) false false

/-- R44, R50: FCVT's types, rounding mode and `.sat`, for a source code and a destination code. -/
def cvtOk (src dst : Nat) (rm : BitVec 2) (sat : Bool) : Bool :=
  src ≤ 12 && dst ≤ 12 && !(src ≤ 7 && dst ≤ 7 && rm != 0) &&
    (!sat || dst == 11 || dst == 12 || (src ≤ 7 && dst ≤ 7))

def RRI.ok (o : RRI) (a : Field) (imm : Bool) : Bool := guardOk o.g o.gs && a.ok o.a && imm

def BRX.ok (o : BRX) (d a : Field) (off : Bool) : Bool :=
  guardOk o.g o.gs && d.ok o.d && a.ok o.a && o.b == 0 && off

/-- R28: with ix = 0 the fields b and sh are zero; with ix = 1, b is the index, a scalar, or a vector in VGATH. -/
def MEM.addrOk (o : MEM) (index : Field) : Bool :=
  if o.ix then index.ok o.b else o.b == 0 && o.sh == 0

/-- A MEM word with an R28 address: kinds of d, then conditions on scope, ord, type and func. -/
def MEM.ok (o : MEM) (d : Field) (scope ord ty func : Bool) : Bool :=
  guardOk o.g o.gs && d.ok o.d && o.addrOk .x && scope && ord && ty && func

/-- A MEM word of the AMO family: ix = 0, sh = 0, b an operand (R28). -/
def MEM.amo (o : MEM) (d b : Field) (ord ty func : Bool) : Bool :=
  guardOk o.g o.gs && d.ok o.d && b.ok o.b && !o.ix && o.sh == 0 && ty && func && ord

/-- R131: the scope of a bank form is given exactly when it is an acquire or a release. -/
def MEM.scopeOk (o : MEM) : Bool :=
  if o.ord == 1 || o.ord == 2 then o.scope.toNat ≤ 6 else o.scope == 0

/-- Type codes 0x00-0x0A of LD and ST. -/
def isMemTy (t : BitVec 5) : Bool := t.toNat ≤ 10

/-- Forms whose `.all` function takes no address (06, under Table 06.2). -/
def MEM.noAddr (o : MEM) : Bool := o.a == 0 && o.b == 0 && !o.ix && o.sh == 0 && o.off == 0

/-- The rules CFLUSH and CINV share (Table 06.2). -/
def MEM.maint (o : MEM) : Bool :=
  o.ok (if o.func == 1 then .x else .z) (o.scope.toNat ≤ 6) (o.ord == 0) (o.ty == 0)
    (o.func.toNat ≤ 2 && (o.func != 2 || o.noAddr))

/-- AMO, AMO.SC: operand type and function (Table 07.4). -/
def MEM.amoInt (o : MEM) (last : Nat) : Bool := 4 ≤ o.ty.toNat && o.ty.toNat ≤ 7 && o.func.toNat ≤ last
def MEM.amoFloat (o : MEM) : Bool := (o.ty == 8 || o.ty == 0xD) && o.func.toNat ≤ 2
/-- TAKE, PUT and RDF: types 0x06 and 0x07. -/
def MEM.dword (o : MEM) : Bool := (o.ty == 6 || o.ty == 7) && o.func == 0

/-- A VEC word: kinds of the four operand fields, then conditions. -/
def VEC.ok (o : VEC) (d a b c : Field) (func ty rm sat mask imm : Bool) : Bool :=
  guardOk o.g o.gs && d.ok o.d && a.ok o.a && b.ok o.b && c.ok o.c && func && ty && (rm || o.rm == 0) &&
    (sat || !o.sat) && (mask || (o.m == 0 && !o.z)) && imm

/-- Lane forms of Table 05.3 with no func and no imm8. -/
def VEC.lanes (o : VEC) (c : Field) (ty rm sat : Bool) : Bool :=
  o.ok .v .v .v c (o.func == 0) ty rm sat true (o.imm == 0)

/-- VSHL, VSHR, VSAR (Table 05.3, R86). -/
def VEC.shift (o : VEC) : Bool :=
  o.ok .v .v (if o.func == 1 then .z else .v) .z (o.func.toNat ≤ 1) (isVIntTy o.ty) false false true
    (if o.func == 1 then o.imm.toNat < tyWidth o.ty else o.imm == 0)

/-- An MTX word. -/
def MTX.ok (o : MTX) (d a b : Field) (func ty w acc sp imm : Bool) : Bool :=
  guardOk o.g o.gs && d.ok o.d && a.ok o.a && b.ok o.b && func && ty && (w || o.w == 0) &&
    (acc || o.acc == 0) && (sp || !o.sp) && imm

/-- The operand types of an island product: `.bf16 .e4m3 .e5m2`. -/
def MTX.opTy (o : MTX) : Bool := o.ty == 9 || o.ty == 0xB || o.ty == 0xC
/-- R223 sc: [14:8] start, [7:0] count 1-128, start + count ≤ 128. -/
def MTX.sc (o : MTX) : Bool :=
  1 ≤ o.imm.toNat % 256 && o.imm.toNat / 256 + o.imm.toNat % 256 ≤ 128
/-- R223 rh: [14:8] row, [7:1] zero, [0] half. -/
def MTX.rh (o : MTX) : Bool := o.imm.toNat % 256 ≤ 1
/-- R223 st: [14:8] start, [7:0] zero. -/
def MTX.st (o : MTX) : Bool := o.imm.toNat % 256 == 0

/-- An STR word. -/
def STR.ok (o : STR) (d a b : Field) (sid smask func : Bool) : Bool :=
  guardOk o.g o.gs && d.ok o.d && a.ok o.a && b.ok o.b && (sid || o.sid == 0) &&
    (if smask then o.smask != 0 else o.smask == 0) && func
/-- [2:0] scope 0-6, [3] the function, the rest zero (Table 10.6). -/
def STR.scopeFunc (o : STR) : Bool := o.func.toNat < 16 && o.func.toNat % 8 ≤ 6

/-- A NET word. -/
def NET.ok (o : NET) (d a b : Field) (pa pb kind func : Bool) : Bool :=
  guardOk o.g o.gs && d.ok o.d && a.ok o.a && b.ok o.b && (pa || o.pa == 0) && (pb || o.pb == 0) &&
    (if kind then o.kind != 0 else o.kind == 0) && func

/-- A SYS word. -/
def SYS.ok (o : SYS) (d a b : Field) (sreg func imm : Bool) : Bool :=
  guardOk o.g o.gs && d.ok o.d && a.ok o.a && b.ok o.b && sreg && func && imm

/-- Table 19.1: system registers MFS may name. tpost (0x008) reads as zero (DEDUCED from its row, log 10). -/
def sregReadable (r : BitVec 12) : Bool := r.toNat ≤ 8 || (0x10 ≤ r.toNat && r.toNat ≤ 0x16)
/-- Table 19.1: system registers MTS may name. -/
def sregWritable (r : BitVec 12) : Bool := r.toNat ≤ 8 || r == 0x10

/-! ## Element configuration words (R36) -/

/-- What Table 02.14 and the op's entry say of an element operation. -/
structure OpInfo where
  cls : Char
  nin : Nat
  fmts : List Nat
  /-- const is a parameter: cin must be 0 (R176, R303). -/
  param : Bool := false
  rm : Bool := false
  fin : Bool := false
  sat : Bool := false
  /-- out1 may be nonzero: a second output, or a converter's count tokens. -/
  out1 : Bool := false
  /-- out0 may be zero. -/
  noOut : Bool := false
deriving DecidableEq, Repr

/-- Table 02.14 with the conditions of each entry. -/
def opInfo (op : BitVec 8) : Option OpInfo :=
  let any := [0, 1, 2, 3, 4, 5, 6]
  let conv : OpInfo := ⟨'A', 2, [2, 3, 4], false, true, true, false, true, false⟩
  match op.toNat with
  | 0x01 => some ⟨'A', 1, any, false, false, false, false, true, false⟩
  | 0x02 => some ⟨'A', 1, any, true, false, false, false, true, false⟩
  | 0x03 => some ⟨'A', 2, any, false, false, false, false, true, false⟩
  | 0x04 => some ⟨'A', 2, any, false, false, false, false, false, false⟩
  | 0x05 => some ⟨'A', 2, [0, 1], true, false, false, false, true, false⟩
  | 0x06 | 0x07 => some ⟨'M', 1, any, false, false, false, false, false, false⟩
  | 0x10 | 0x11 | 0x12 | 0x13 | 0x14 | 0x15 | 0x16 | 0x17 | 0x18 | 0x19 | 0x1A =>
    some ⟨'A', 2, [0, 1], false, false, false, false, false, false⟩
  | 0x1B => some ⟨'A', 3, any, false, false, false, false, false, false⟩
  | 0x20 | 0x21 | 0x22 => some conv
  | 0x23 => some { conv with nin := 3 }
  | 0x24 | 0x25 | 0x26 => some ⟨'A', 2, [2, 3, 4], false, false, false, false, false, false⟩
  | 0x27 => some ⟨'A', 1, any, false, true, true, true, true, false⟩
  | 0x28 => some ⟨'A', 1, [0, 1, 2], false, true, true, false, true, false⟩
  | 0x30 => some ⟨'M', 1, any, true, false, false, false, false, false⟩
  | 0x31 => some ⟨'M', 2, any, true, false, false, false, false, true⟩
  | 0x32 => some ⟨'M', 2, any, true, false, false, false, true, true⟩
  | 0x38 => some ⟨'S', 2, [2], false, true, true, false, true, false⟩
  | 0x39 | 0x3A | 0x3B => some ⟨'S', 1, [2], false, true, true, false, true, false⟩
  | 0x3C => some ⟨'S', 1, [2], false, false, false, false, false, false⟩
  | 0x3F => some ⟨'A', 2, [1], false, false, false, false, false, false⟩
  | 0x40 => some ⟨'M', 1, any, true, false, false, false, true, false⟩
  | 0x41 => some ⟨'A', 1, any, true, false, false, false, true, false⟩
  | 0x42 => some ⟨'A', 2, [2], false, true, false, false, false, false⟩
  | 0x43 => some ⟨'A', 1, [2], true, false, false, false, true, false⟩
  | 0x44 => some ⟨'A', 1, [2], false, true, false, false, false, false⟩
  | 0x45 => some ⟨'S', 1, [1, 2], true, false, false, false, false, false⟩
  | 0x46 => some ⟨'A', 2, [2], true, true, false, false, false, false⟩
  | 0x47 => some ⟨'M', 1, [2, 3], true, true, false, false, false, false⟩
  | 0x48 => some ⟨'S', 1, [2, 3], true, false, false, false, false, false⟩
  | _ => none

/-- The four queue sources, input 0 first (Table 02.12). -/
def ElemCfg.q (o : ElemCfg) (i : Nat) : BitVec 3 :=
  match i with | 0 => o.q0 | 1 => o.q1 | 2 => o.q2 | _ => o.q3

/-- Input i takes const instead of a queue. -/
def ElemCfg.cinBit (o : ElemCfg) (i : Nat) : Bool := o.cin.getLsbD i

/-- The opx and const values an entry allows (09 R176-R178, 22, 23, 03 R52, R53). -/
def ElemCfg.opxOk (op : BitVec 8) (o : ElemCfg) : Bool :=
  match op.toNat with
  | 0x1A | 0x26 => o.opx.toNat ≤ 5
  | 0x27 => o.opx.toNat ≤ 6
  | 0x31 => o.opx.toNat ≤ 6
  | 0x32 =>
    let f := o.opx.toNat / 16
    f ≤ 6 && o.opx.toNat / 8 % 2 == 0 && o.opx.toNat % 8 ≤ 6 &&
      (f > 2 || o.fmt.toNat ≤ 1) && (f < 4 || o.fmt == 2 || o.fmt == 3)
  | 0x45 => true
  | 0x47 => o.opx.toNat ≤ 1
  | 0x48 => o.opx.toNat < 8
  | _ => o.opx == 0

/-- The const field (09 R176). STEER and MERGE, whose entries say const 0, may have one with a cin bit, as the general rule for constants
allows: DEDUCED, unsafe (log 78). -/
def ElemCfg.constOk (op : BitVec 8) (info : OpInfo) (o : ElemCfg) : Bool :=
  match op.toNat with
  | 0x05 => 1 ≤ o.const.toNat && o.const.toNat ≤ 64
  | 0x43 => 1 ≤ o.const.toNat && o.const.toNat ≤ 32
  | _ => info.param || o.const == 0 || o.cin != 0

/-- R36 for one queue source: a source exactly where the input is below nin and not a constant, and no source twice. -/
def ElemCfg.qOk (o : ElemCfg) (nin i : Nat) : Bool :=
  (if i < nin && !o.cinBit i then o.q i != 0 else o.q i == 0) &&
    (List.range i).all fun j => o.q i == 0 || o.q j != o.q i

/-- The checks of R36 that need no position, in the order of the fields from the top of the operation word down and
then of the routing word (the order is DEDUCED, log 11): whether the check holds, the record kind of Table 19.7
(0 operation word, 1 routing word) and the field's lowest bit. -/
def ElemCfg.checks (op : BitVec 8) (o : ElemCfg) : List (Bool × Nat × Nat) :=
  match opInfo op with
  | none => [(false, 0, 56)]
  | some i =>
    let accInt := op == 0x28 && o.fmt != 2
    [ (i.fmts.contains o.fmt.toNat, 0, 53),
      ((i.rm && !accInt) || o.rm == 0, 0, 51),
      (!o.sat || (i.sat && (o.fmt == 5 || o.fmt == 6)), 0, 50),
      ((i.fin && !accInt) || !o.fin, 0, 49),
      (o.tagp.toNat < i.nin && !(o.tagp != 0 && (op == 0x04 || op == 0x3F)), 0, 47),
      (o.nin.toNat == i.nin, 0, 44),
      (o.cin.toNat < 2 ^ i.nin && ((List.range 4).countP fun k => o.cinBit k) ≤ 1 && (!i.param || o.cin == 0), 0, 40),
      (o.opxOk op, 0, 32),
      (o.constOk op i, 0, 0),
      (o.qOk i.nin 3, 1, 61), (o.qOk i.nin 2, 1, 58), (o.qOk i.nin 1, 1, 55), (o.qOk i.nin 0, 1, 52),
      ((i.noOut || o.out0 != 0) && (op != 0x40 || o.out0.toNat % 32 != 0), 1, 46),
      ((i.out1 && !accInt) || o.out1 == 0, 1, 40),
      (o.share.toNat ≤ 64, 1, 33) ]

/-- The first failing field of a configuration word, if any (R36). -/
def ElemCfg.fault (op : BitVec 8) (o : ElemCfg) : Option (Nat × Nat) :=
  ((o.checks op).find? fun c => !c.1).map fun c => c.2

/-- R36 as far as it needs no position. -/
def ElemCfg.ok (op : BitVec 8) (o : ElemCfg) : Bool := (o.checks op).all fun c => c.1

/-! ## The opcodes -/

/-- The major opcode of a core instruction (Table 02.9) or the operation code of an element operation
(Table 02.14); 0, which both maps leave unassigned, for an event. -/
def Instr.opcode : Instr → BitVec 8
  | .add _ => 0x10
  | .sub _ => 0x11
  | .mul _ => 0x12
  | .mulh _ => 0x13
  | .div _ => 0x14
  | .rem _ => 0x15
  | .and _ => 0x16
  | .or _ => 0x17
  | .xor _ => 0x18
  | .shl _ => 0x19
  | .shr _ => 0x1A
  | .sar _ => 0x1B
  | .min _ => 0x1C
  | .max _ => 0x1D
  | .cmp _ => 0x1E
  | .sel _ => 0x1F
  | .pcmp _ => 0x2A
  | .plog _ => 0x2B
  | .pmov _ => 0x2C
  | .lreg _ => 0x2D
  | .fadd _ => 0x30
  | .fsub _ => 0x31
  | .fmul _ => 0x32
  | .fdiv _ => 0x33
  | .fma _ => 0x34
  | .fmin _ => 0x35
  | .fmax _ => 0x36
  | .fcmp _ => 0x37
  | .fcvt _ => 0x38
  | .frsqs _ => 0x39
  | .frcps _ => 0x3A
  | .cpy _ => 0x6A
  | .cpy2 _ => 0x6B
  | .mfc _ => 0x80
  | .colqRd _ => 0x81
  | .colqOpen _ => 0x81
  | .colqClose _ => 0x81
  | .rpurge _ => 0x82
  | .rload _ => 0x83
  | .rarm _ => 0x84
  | .rcalm _ => 0x85
  | .rtear _ => 0x86
  | .rinj _ => 0x87
  | .vnset _ => 0xC4
  | .steerset _ => 0xC5
  | .vnrd _ => 0xC6
  | .msend _ => 0xC8
  | .mmask _ => 0xC9
  | .munmask _ => 0xCA
  | .mrecvPop _ => 0xCB
  | .mrecvCfg _ => 0xCB
  | .mrecvSt _ => 0xCB
  | .mrecvFree _ => 0xCB
  | .addi _ => 0x20
  | .andi _ => 0x21
  | .ori _ => 0x22
  | .xori _ => 0x23
  | .shli _ => 0x24
  | .shri _ => 0x25
  | .sari _ => 0x26
  | .movi _ => 0x27
  | .movhi _ => 0x28
  | .br _ => 0x02
  | .brr _ => 0x03
  | .call _ => 0x04
  | .callr _ => 0x05
  | .ret _ => 0x06
  | .loop _ => 0x07
  | .lea _ => 0x29
  | .vld _ => 0x40
  | .vst _ => 0x41
  | .vgath _ => 0x42
  | .vscat _ => 0x43
  | .ld _ => 0x60
  | .st _ => 0x61
  | .lda _ => 0x62
  | .stl _ => 0x63
  | .ldf _ => 0x64
  | .pf _ => 0x65
  | .cflush _ => 0x66
  | .cinv _ => 0x67
  | .invalCb _ => 0x68
  | .waita _ => 0x6C
  | .amo _ => 0x70
  | .amof _ => 0x71
  | .cas _ => 0x72
  | .red _ => 0x73
  | .redf _ => 0x74
  | .bupd _ => 0x75
  | .bfill _ => 0x76
  | .take _ => 0x77
  | .put _ => 0x78
  | .rdf _ => 0x79
  | .clrp _ => 0x7A
  | .pstat _ => 0x7B
  | .ldsc _ => 0x7C
  | .stsc _ => 0x7D
  | .amoSc _ => 0x7E
  | .casSc _ => 0x7F
  | .vadd _ => 0x44
  | .vsub _ => 0x45
  | .vmul _ => 0x46
  | .vmin _ => 0x47
  | .vmax _ => 0x48
  | .vand _ => 0x49
  | .vor _ => 0x4A
  | .vxor _ => 0x4B
  | .vshl _ => 0x4C
  | .vshr _ => 0x4D
  | .vsar _ => 0x4E
  | .vfadd _ => 0x4F
  | .vfsub _ => 0x50
  | .vfmul _ => 0x51
  | .vfma _ => 0x52
  | .vfmin _ => 0x53
  | .vfmax _ => 0x54
  | .vcmp _ => 0x55
  | .vsel _ => 0x56
  | .vred _ => 0x57
  | .vperm _ => 0x58
  | .vbcast _ => 0x59
  | .vext _ => 0x5A
  | .vins _ => 0x5B
  | .vcvt _ => 0x5C
  | .vrsqs _ => 0x5D
  | .vrcps _ => 0x5E
  | .wload _ => 0xA0
  | .mscl _ => 0xA1
  | .mma _ => 0xA2
  | .mmas _ => 0xA3
  | .aclr _ => 0xA4
  | .ard _ => 0xA5
  | .awr _ => 0xA6
  | .asave _ => 0xA7
  | .sbind _ => 0x90
  | .sstart _ => 0x91
  | .sclose _ => 0x92
  | .sbar _ => 0x93
  | .spos _ => 0x94
  | .sdone _ => 0x95
  | .nalloc _ => 0xB0
  | .nfree _ => 0xB1
  | .nld _ => 0xB2
  | .nst _ => 0xB3
  | .nlink _ => 0xB4
  | .npush _ => 0xB5
  | .npop _ => 0xB6
  | .nruleLook _ => 0xB7
  | .nruleSet _ => 0xB7
  | .nruleInv _ => 0xB7
  | .statrd _ => 0x3B
  | .fence _ => 0x69
  | .tlbi _ => 0xC0
  | .tlbw _ => 0xC1
  | .trap _ => 0xD0
  | .eret _ => 0xD1
  | .mfs _ => 0xD2
  | .mts _ => 0xD3
  | .sysc _ => 0xD4
  | .bkpt _ => 0xD5
  | .halt _ => 0xD6
  | .rsave _ => 0xD7
  | .rrest _ => 0xD8
  | .passE _ => 0x01
  | .constE _ => 0x02
  | .steerE _ => 0x03
  | .mergeE _ => 0x04
  | .loopE _ => 0x05
  | .callE _ => 0x06
  | .retE _ => 0x07
  | .addE _ => 0x10
  | .subE _ => 0x11
  | .mulE _ => 0x12
  | .minE _ => 0x13
  | .maxE _ => 0x14
  | .andE _ => 0x15
  | .orE _ => 0x16
  | .xorE _ => 0x17
  | .shlE _ => 0x18
  | .shrE _ => 0x19
  | .cmpE _ => 0x1A
  | .selE _ => 0x1B
  | .faddE _ => 0x20
  | .fsubE _ => 0x21
  | .fmulE _ => 0x22
  | .fmaE _ => 0x23
  | .fminE _ => 0x24
  | .fmaxE _ => 0x25
  | .fcmpE _ => 0x26
  | .cvtE _ => 0x27
  | .accE _ => 0x28
  | .mloadE _ => 0x30
  | .mstoreE _ => 0x31
  | .mrmwE _ => 0x32
  | .sdivE _ => 0x38
  | .sexp2E _ => 0x39
  | .slog2E _ => 0x3A
  | .ssinE _ => 0x3B
  | .stabE _ => 0x3C
  | .statE _ => 0x3F
  | .commitE _ => 0x40
  | .routeE _ => 0x41
  | .spaddE _ => 0x42
  | .topkE _ => 0x43
  | .cumsE _ => 0x44
  | .drawE _ => 0x45
  | .penalE _ => 0x46
  | .adptE _ => 0x47
  | .vaneE _ => 0x48
  | .islandCommandPerform _ => 0
  | .waitAnswer _ => 0
  | .waitCancel _ => 0
  | .bankReply _ => 0
  | .interruptTaken _ => 0
  | .remoteLoadTimeout _ => 0
  | .l1WriteBack _ _ => 0
  | .engineCommand _ => 0
  | .bankOperation _ => 0
  | .presenceArrive _ => 0
  | .presenceCancel _ => 0
  | .tradeTokenArrival => 0
  | .lineWrite _ _ => 0
  | .entryPortAdmit _ _ _ => 0
  | .heldTokenAdmit _ _ _ _ => 0
  | .linkTransfer _ _ _ _ => 0
  | .exitReorderEmit _ _ _ _ => 0
  | .countTokens _ => 0
  | .mElementReply _ _ => 0
  | .retire _ _ _ _ => 0
  | .treeStep _ _ _ _ => 0
  | .vaneCommandPerform _ => 0
  | .calmSweep _ _ => 0
  | .doldrums _ _ => 0
  | .purgeEnd _ _ => 0
  | .remoteTimeout _ _ => 0
  | .loadDelivery _ _ => 0
  | .elementWrite _ => 0
  | .oneShotFree _ _ => 0
  | .sectionStart _ _ => 0
  | .sectionRelease _ _ => 0
  | .sectionEarlyEnd _ _ => 0
  | .completionPutRetry _ _ => 0
  | .streamAccess _ _ => 0
  | .portWriteToken _ _ => 0
  | .portReadDelivery _ _ => 0
  | .doneAction _ _ => 0
  | .islandRow _ _ => 0
  | .islandEmit _ _ => 0
  | .ingressRecord _ _ _ _ => 0
  | .headRecordServed _ _ _ => 0
  | .orphan _ _ _ => 0
  | .timedSlotStart _ _ => 0
  | .admission _ => 0
  | .loaderImage _ => 0
  | .launchArm _ _ => 0
  | .launchPairPush _ _ => 0
  | .launchCompletion _ _ => 0
  | .ptpEventMessage _ _ _ => 0
  | .servoCorrection => 0
  | .dispatch _ => 0
  | .packetForward _ _ => 0
  | .packetArrival _ => 0
  | .shearedHeader _ => 0
  | .reRequest _ => 0
  | .acknowledgement _ => 0
  | .retransmitTimeout _ => 0
  | .remoteRead _ => 0
  | .remoteWrite _ => 0
  | .readReply _ => 0
  | .routeClassDelivery _ => 0
  | .readyFrame _ => 0
  | .readyResend _ _ => 0
  | .tokenFrame _ => 0
  | .creditFrame _ => 0
  | .closeFrame _ => 0
  | .channelTokenSend _ _ _ => 0
  | .authfail _ _ _ => 0
  | .linkTrained _ => 0
  | .lossOfSignal _ => 0
  | .getVersion _ => 0
  | .getCapabilities _ => 0
  | .negotiateAlgorithms _ => 0
  | .getDigests _ => 0
  | .getCertificate _ => 0
  | .challenge _ => 0
  | .getMeasurements _ => 0
  | .keyExchange _ => 0
  | .finish _ => 0
  | .heartbeat _ => 0
  | .keyUpdate _ => 0
  | .endSession _ => 0
  | .setCertificate _ => 0
  | .getCsr _ => 0
  | .chunkSend _ => 0
  | .chunkGet _ => 0
  | .vendorDefinedRequest _ => 0
  | .getTdispVersion _ => 0
  | .getTdispCapabilities _ => 0
  | .lockInterfaceRequest _ => 0
  | .getDeviceInterfaceReport _ => 0
  | .getDeviceInterfaceState _ => 0
  | .startInterfaceRequest _ _ => 0
  | .stopInterfaceRequest _ => 0
  | .frozenSetChange _ => 0
  | .partWrite _ _ => 0
  | .vfWrite _ _ => 0
  | .lpermWrite _ _ => 0
  | .colourTableWrite _ _ => 0
  | .ownerTagWrite _ _ => 0
  | .startCommand _ _ _ _ _ => 0
  | .coreReset _ => 0
  | .retireCommand _ => 0
  | .keyLoad _ _ _ _ => 0
  | .linkKeyLoad _ _ _ _ => 0
  | .lkstatWrite _ _ _ => 0
  | .sealRange _ _ _ => 0
  | .setPre _ => 0
  | .patrol _ _ => 0
  | .coldReset => 0
  | .throttle => 0
  | .throttleRestore => 0
  | .thermalTrip => 0
  | .lschedWrite _ _ => 0
  | .lcbaseWrite _ _ => 0
  | .lrootWrite _ _ => 0
  | .ttctlWrite _ _ => 0
  | .ttWrite _ _ _ _ => 0
  | .ingWrite _ _ _ => 0
  | .bkctlWrite _ _ _ => 0
  | .bagctlWrite _ _ => 0
  | .bagspillWrite _ _ => 0
  | .flbaseWrite _ _ => 0
  | .netctlWrite _ _ => 0
  | .channelEntryWrite _ _ _ _ => 0
  | .registerWrite _ _ => 0
  | .releaseScrub _ _ => 0
  | .hostEgressDelivery _ _ => 0

/-- The entry's field rules: a core instruction accepted at decode (R34), a configuration word accepted by the
checks of R36 that need no position. Events carry no encoding, and every operand value is accepted. WAITA without ord takes any scope
of Table 06.2 (log 67). -/
def Instr.wf : Instr → Bool
  | .add o => o.int true
  | .sub o => o.int true
  | .mul o => o.int true
  | .mulh o => o.int false
  | .div o => o.int false
  | .rem o => o.int false
  | .and o => o.int false
  | .or o => o.int false
  | .xor o => o.int false
  | .shl o => o.int false
  | .shr o => o.int false
  | .sar o => o.int false
  | .min o => o.int false
  | .max o => o.int false
  | .cmp o => o.ok .x .x .x .z (o.func.toNat ≤ 5) (isIntTy o.ty) false false
  | .sel o => o.ok .x .x .x .x (o.func == 0) (isIntTy o.ty) false false
  | .pcmp o => o.ok .p .x .x .z (o.func.toNat ≤ 5) (isMemTy o.ty) false false
  | .plog o => o.cmd .p .p (if o.func == 4 then .z else .p) .z (o.func.toNat ≤ 4)
  | .pmov o => if o.func == 0 then o.cmd .p .x .z .z true else o.cmd .x .p .z .z (o.func.toNat ≤ 3)
  | .lreg o => if o.func.toNat ≤ 3 then o.cmd .x .z .z .z true else o.cmd .z .x .z .z (o.func.toNat ≤ 7)
  | .fadd o => o.ok .x .x .x .z (o.func == 0) (isFloatTy o.ty) true false
  | .fsub o => o.ok .x .x .x .z (o.func == 0) (isFloatTy o.ty) true false
  | .fmul o => o.ok .x .x .x .z (o.func == 0) (isFloatTy o.ty) true false
  | .fdiv o => o.ok .x .x .x .z (o.func == 0) (isFloatTy o.ty) true false
  | .fma o => o.ok .x .x .x .x (o.func == 0) (isFloatTy o.ty) true false
  | .fmin o => o.ok .x .x .x .z (o.func == 0) (isFloatTy o.ty) false false
  | .fmax o => o.ok .x .x .x .z (o.func == 0) (isFloatTy o.ty) false false
  | .fcmp o => o.ok .x .x .x .z (o.func.toNat ≤ 5) (isFloatTy o.ty) false false
  | .fcvt o => o.ok .x .x .z .z true (cvtOk o.func.toNat o.ty.toNat o.rm o.sat) true true
  | .frsqs o => o.ok .x .x .z .z (o.func == 0) (o.ty == 8) false false
  | .frcps o => o.ok .x .x .z .z (o.func == 0) (o.ty == 8) false false
  | .cpy o => o.cmd .x .x .x .x (o.func.toNat < 16 && o.func.toNat % 8 ≤ 6)
  | .cpy2 o => o.cmd .z .x .z .x (o.func.toNat < 16 && o.func.toNat % 8 ≤ 6)
  | .mfc o => o.cmd .x (if o.func == 2 then .x else .z) .z .z (o.func.toNat ≤ 2)
  | .colqRd o => o.cmd .x .x .x .z (o.func == 0)
  | .colqOpen o => o.cmd .z .x .x .z (o.func == 1)
  | .colqClose o => o.cmd .z .x .x .z (o.func == 2)
  | .rpurge o => o.cmd .z .x .x .z (o.func == 0)
  | .rload o => o.cmd .x .x .x .z (o.func.toNat ≤ 1)
  | .rarm o => o.cmd .x .x .z .z (o.func == 0)
  | .rcalm o => o.cmd .x (if o.func == 2 then .z else .x) (if o.func == 1 || o.func == 2 then .x else .z) .z (o.func.toNat ≤ 3)
  | .rtear o => o.cmd .z .x .z .z (o.func.toNat ≤ 1)
  | .rinj o => o.cmd .z .x .x .x (o.func == 0)
  | .vnset o => o.cmd .z .x .x .z (o.func.toNat ≤ 2)
  | .steerset o => o.cmd .z (if o.func == 1 then .z else .x) .x .z (o.func.toNat ≤ 1)
  | .vnrd o => o.cmd .x .z .x .z (o.func.toNat ≤ 2)
  | .msend o => o.cmd .x .x .x .z (o.func.toNat < 16)
  | .mmask o => o.cmd .z .x .z .z (o.func == 0)
  | .munmask o => o.cmd .z .x .z .z (o.func == 0)
  | .mrecvPop o => o.cmd .x .z .z .z (o.func == 0)
  | .mrecvCfg o => o.cmd .z .x .z .z (o.func == 1)
  | .mrecvSt o => o.cmd .x .z .z .z (o.func == 2)
  | .mrecvFree o => o.cmd .z .z .z .z (o.func == 3)
  | .addi o => o.ok .x true
  | .andi o => o.ok .x true
  | .ori o => o.ok .x true
  | .xori o => o.ok .x true
  | .shli o => o.ok .x (o.imm.toNat ≤ 63)
  | .shri o => o.ok .x (o.imm.toNat ≤ 63)
  | .sari o => o.ok .x (o.imm.toNat ≤ 63)
  | .movi o => o.ok .z true
  | .movhi o => o.ok .x (o.imm.toNat < 2 ^ 24)
  | .br o => o.ok .z .z true
  | .brr o => o.ok .z .x true
  | .call o => o.ok .x .z true
  | .callr o => o.ok .x .x true
  | .ret o => o.ok .z .x (o.off == 0)
  | .loop o => o.ok .z .x true
  | .lea o => o.ok .x (o.scope == 0) (o.ord == 0) (o.ty == 0) (o.func == 0)
  | .vld o => o.ok .v (o.scope == 0) (o.ord == 0) (o.ty == 0) true
  | .vst o => o.ok .v (o.scope == 0) (o.ord == 0) (o.ty == 0) (o.func.toNat < 8)
  | .vgath o => guardOk o.g o.gs && Field.v.ok o.d && o.ix && o.addrOk .v && o.scope == 0 && o.ord == 0 && (o.ty == 4 || o.ty == 5)
  | .vscat o => guardOk o.g o.gs && Field.v.ok o.d && o.ix && o.addrOk .v && o.scope == 0 && o.ord == 0 && (o.ty == 4 || o.ty == 5) && o.func.toNat < 8
  | .ld o => o.ok .x (o.scope == 0) (o.ord == 0) (isMemTy o.ty) (o.func == 0)
  | .st o => o.ok .x (o.scope == 0) (o.ord == 0) (isMemTy o.ty) (o.func == 0 || (o.func == 1 && 32 ≤ tyWidth o.ty))
  | .lda o => o.ok .x (o.scope.toNat ≤ 6) (o.ord == 1) (isMemTy o.ty) (o.func == 0)
  | .stl o => o.ok .x (o.scope.toNat ≤ 6) (o.ord == 2) (isMemTy o.ty) (o.func == 0)
  | .ldf o => o.ok .x (o.scope == 0) (o.ord == 0) (4 ≤ o.ty.toNat && o.ty.toNat ≤ 8) (o.func.toNat ≤ 1)
  | .pf o => o.ok .z (o.scope == 0) (o.ord == 0) (o.ty == 0) (o.func.toNat ≤ 1)
  | .cflush o => o.maint
  | .cinv o => o.maint
  | .invalCb o => o.ok .z (o.scope == 0) (o.ord == 0) (o.ty == 0) (o.func == 0 || (o.func == 1 && o.noAddr))
  | .waita o => o.amo .x .x (o.ord.toNat ≤ 1 && o.scope.toNat ≤ 6) (o.ty == 4 || o.ty == 5) (o.func.toNat ≤ 5)
  | .amo o => o.amo .x .x (o.ord.toNat ≤ 2 && o.scopeOk) true (o.amoInt 6)
  | .amof o => o.amo .x .x (o.ord.toNat ≤ 2 && o.scopeOk) true o.amoFloat
  | .cas o => o.amo .x .x (o.ord.toNat ≤ 2 && o.scopeOk) true (o.amoInt 0)
  | .red o => o.amo .z .x ((o.ord == 0 || o.ord == 2) && o.scopeOk) true (o.amoInt 5)
  | .redf o => o.amo .z .x ((o.ord == 0 || o.ord == 2) && o.scopeOk) true o.amoFloat
  | .bupd o => o.amo .p .v ((o.ord == 0 || o.ord == 2) && o.scopeOk) (o.ty == 4 || o.ty == 5 || o.ty == 8 || o.ty == 0xD) (o.func.toNat ≤ 2)
  | .bfill o => o.amo .x .x ((o.ord == 0 || o.ord == 2) && o.scopeOk) (o.ty == 0) (o.func.toNat ≤ 2)
  | .take o => o.ok .x o.scopeOk (o.ord.toNat ≤ 1) true o.dword
  | .put o => o.ok .x o.scopeOk (o.ord == 0 || o.ord == 2) true o.dword
  | .rdf o => o.ok .x o.scopeOk (o.ord.toNat ≤ 1) true o.dword
  | .clrp o => o.ok .z o.scopeOk (o.ord == 0 || o.ord == 2) (o.ty == 0) (o.func == 0)
  | .pstat o => o.ok .x (o.scope == 0) (o.ord == 0) (o.ty == 0) (o.func == 0)
  | .ldsc o => o.ok .x (o.scope == 0) (o.ord == 3) (4 ≤ o.ty.toNat && o.ty.toNat ≤ 8) (o.func == 0)
  | .stsc o => o.ok .x (o.scope == 0) (o.ord == 3) (4 ≤ o.ty.toNat && o.ty.toNat ≤ 8) (o.func == 0)
  | .amoSc o => o.amo .x .x (o.ord == 3 && o.scope == 0) true (o.amoInt 6)
  | .casSc o => o.amo .x .x (o.ord == 3 && o.scope == 0) true (o.amoInt 0)
  | .vadd o => o.lanes .z (isVIntTy o.ty) false true
  | .vsub o => o.lanes .z (isVIntTy o.ty) false true
  | .vmul o => o.lanes .z (isVIntTy o.ty) false true
  | .vmin o => o.lanes .z (isVIntTy o.ty) false false
  | .vmax o => o.lanes .z (isVIntTy o.ty) false false
  | .vand o => o.lanes .z (o.ty == 0) false false
  | .vor o => o.lanes .z (o.ty == 0) false false
  | .vxor o => o.lanes .z (o.ty == 0) false false
  | .vshl o => o.shift
  | .vshr o => o.shift
  | .vsar o => o.shift
  | .vfadd o => o.lanes .z (isVFloatTy o.ty) true false
  | .vfsub o => o.lanes .z (isVFloatTy o.ty) true false
  | .vfmul o => o.lanes .z (isVFloatTy o.ty) true false
  | .vfma o => o.lanes .v (isVFloatTy o.ty) true false
  | .vfmin o => o.lanes .z (isVFloatTy o.ty) false false
  | .vfmax o => o.lanes .z (isVFloatTy o.ty) false false
  | .vcmp o => o.ok .p .v .v .z (o.func.toNat ≤ 5) (isLaneTy o.ty) false false true (o.imm == 0)
  | .vsel o => o.ok .v .v .v .p (o.func == 0) (o.ty == 0) false false false (o.imm == 0)
  | .vred o => o.ok .x .v .z .z (o.func.toNat ≤ 5 && (o.func.toNat ≤ 2 || o.ty != 8)) (isLaneTy o.ty) (o.func == 0 && o.ty == 8) (o.func == 0 && o.ty != 8) (!o.z) (o.imm == 0)
  | .vperm o => o.lanes .z (o.ty == 0) false false
  | .vbcast o => o.ok .v (if o.func == 1 then .v else .x) .z .z (o.func.toNat ≤ 1) (o.ty == 0) false false true (if o.func == 1 then o.imm.toNat < 32 else o.imm == 0)
  | .vext o => o.ok .x .v .z .z (o.func == 0) (isLaneTy o.ty) false false false (o.imm.toNat < 32)
  | .vins o => o.ok .v .x .z .z (o.func == 0) (o.ty == 0) false false false (o.imm.toNat < 32)
  | .vcvt o => (let ws := tyWidth (o.func.setWidth 5)
    let wd := tyWidth o.ty
    o.ok .v .v .z .z (ws < 64 && wd < 64) (cvtOk o.func.toNat o.ty.toNat o.rm o.sat) true true false
      (o.imm.toNat < Nat.max ws wd / Nat.min ws wd))
  | .vrsqs o => o.ok .v .v .z .z (o.func == 0) (o.ty == 8) false false true (o.imm == 0)
  | .vrcps o => o.ok .v .v .z .z (o.func == 0) (o.ty == 8) false false true (o.imm == 0)
  | .wload o => o.ok .z .x (if o.ty == 9 then .z else .x) (o.func == 0 || (o.func == 1 && o.sp)) o.opTy true false true (o.imm == 0)
  | .mscl o => o.ok .z .x .z (o.func == 0) (o.ty == 0) false true false o.sc
  | .mma o => o.ok .z .x (if o.ty == 9 then .z else .x) (o.func == 0) o.opTy true true false o.sc
  | .mmas o => o.ok .z .z .z (o.func.toNat < 128 && (o.func.getLsbD 6 || o.func.toNat < 16)) o.opTy true true false o.st
  | .aclr o => o.ok .z .z .z (o.func.toNat ≤ 1) (o.ty == 0) false (o.func == 0) false (if o.func == 0 then o.sc else o.imm == 0)
  | .ard o => o.ok (match o.func.toNat with | 0 => .v | 1 => .z | _ => .x) (if o.func == 1 then .x else .z) .z
      (o.func.toNat ≤ 3) (o.ty == 0) false (o.func != 3) false
      (match o.func.toNat with | 0 => o.rh | 1 => o.sc | 2 => o.imm.toNat ≤ 1 | _ => o.imm == 0)
  | .awr o => o.ok .z (if o.func == 0 then .v else .x) .z (o.func.toNat ≤ 1) (o.ty == 0) false true false (if o.func == 0 then o.rh else o.sc)
  | .asave o => o.ok .z .x .z (o.func.toNat ≤ 1) (o.ty == 0) false true false (o.imm == 0)
  | .sbind o => o.ok .z (if o.func == 1 then .z else .x) (if o.func == 1 then .z else .x) true false (o.func.toNat ≤ 1)
  | .sstart o => o.ok .z (if o.func == 1 then .z else .x) .z false true (o.func.toNat ≤ 1)
  | .sclose o => o.ok .z .z .z false true (o.func == 0)
  | .sbar o => o.ok .z .z .z false true o.scopeFunc
  | .spos o => o.ok (if o.func == 1 then .z else .x) (if o.func == 1 then .x else .z) .z true false (o.func.toNat ≤ 2)
  | .sdone o => o.ok .z .x .z true false o.scopeFunc
  | .nalloc o => o.ok .x .z .z true false true (o.func == 0)
  | .nfree o => o.ok .z .x .z false false false (o.func == 0)
  | .nld o => o.ok .x .x .z false false false (o.func.toNat < 8)
  | .nst o => o.ok .z .x .x false false false (o.func.toNat < 8)
  | .nlink o => o.ok .z .x .x true true false (o.func.toNat ≤ 3)
  | .npush o => o.ok .z (if o.func == 1 then .z else .x) (if o.func == 1 then .z else .x) false false false (o.func.toNat ≤ 1)
  | .npop o => o.ok .x .x .z false false false (o.func == 0) && o.d != o.a
  | .nruleLook o => o.ok .x .x .x false false false (o.func == 0)
  | .nruleSet o => o.ok .z .x .x false false false (o.func == 1)
  | .nruleInv o => o.ok .z .z .z false false false (o.func == 2)
  | .statrd o => o.ok .x .z .z (o.sreg == 0) (o.func.toNat ≤ 1) (o.imm.toNat ≤ 3)
  | .fence o => o.ok .z .z .z (o.sreg == 0) (o.func.toNat ≤ 3) (o.imm.toNat ≤ 6)
  | .tlbi o => o.ok (if o.func == 2 then .x else .z) (if o.func == 0 then .z else .x) .x (o.sreg == 0) (o.func.toNat ≤ 2) (o.imm == 0)
  | .tlbw o => o.ok .x .x .x (o.sreg == 0) (o.func == 0) (o.imm == 0)
  | .trap o => o.ok .z .x .z (o.sreg == 0) (o.func == 0) (o.imm == 0)
  | .eret o => o.ok .z .z .z (o.sreg == 0) (o.func == 0) (o.imm == 0)
  | .mfs o => o.ok .x .z .z (sregReadable o.sreg) (o.func == 0) (if o.sreg == 0x14 then o.imm.toNat < 64 else o.imm == 0)
  | .mts o => o.ok .z .x .z (sregWritable o.sreg) (o.func == 0) (o.imm == 0)
  | .sysc o => o.ok .z .z .z (o.sreg == 0) (o.func == 0) true
  | .bkpt o => o.ok .z .z .z (o.sreg == 0) (o.func == 0) true
  | .halt o => o.ok .z .z .z (o.sreg == 0) (o.func == 0) (o.imm == 0)
  | .rsave o => o.ok .z (if o.func == 1 then .z else .x) .x (o.sreg == 0) (o.func.toNat ≤ 1) (o.imm == 0)
  | .rrest o => o.ok .z .x .x (o.sreg == 0) (o.func == 0) (o.imm == 0)
  | .passE o => o.ok 0x01
  | .constE o => o.ok 0x02
  | .steerE o => o.ok 0x03
  | .mergeE o => o.ok 0x04
  | .loopE o => o.ok 0x05
  | .callE o => o.ok 0x06
  | .retE o => o.ok 0x07
  | .addE o => o.ok 0x10
  | .subE o => o.ok 0x11
  | .mulE o => o.ok 0x12
  | .minE o => o.ok 0x13
  | .maxE o => o.ok 0x14
  | .andE o => o.ok 0x15
  | .orE o => o.ok 0x16
  | .xorE o => o.ok 0x17
  | .shlE o => o.ok 0x18
  | .shrE o => o.ok 0x19
  | .cmpE o => o.ok 0x1A
  | .selE o => o.ok 0x1B
  | .faddE o => o.ok 0x20
  | .fsubE o => o.ok 0x21
  | .fmulE o => o.ok 0x22
  | .fmaE o => o.ok 0x23
  | .fminE o => o.ok 0x24
  | .fmaxE o => o.ok 0x25
  | .fcmpE o => o.ok 0x26
  | .cvtE o => o.ok 0x27
  | .accE o => o.ok 0x28
  | .mloadE o => o.ok 0x30
  | .mstoreE o => o.ok 0x31
  | .mrmwE o => o.ok 0x32
  | .sdivE o => o.ok 0x38
  | .sexp2E o => o.ok 0x39
  | .slog2E o => o.ok 0x3A
  | .ssinE o => o.ok 0x3B
  | .stabE o => o.ok 0x3C
  | .statE o => o.ok 0x3F
  | .commitE o => o.ok 0x40
  | .routeE o => o.ok 0x41
  | .spaddE o => o.ok 0x42
  | .topkE o => o.ok 0x43
  | .cumsE o => o.ok 0x44
  | .drawE o => o.ok 0x45
  | .penalE o => o.ok 0x46
  | .adptE o => o.ok 0x47
  | .vaneE o => o.ok 0x48
  | .islandCommandPerform _ => true
  | .waitAnswer _ => true
  | .waitCancel _ => true
  | .bankReply _ => true
  | .interruptTaken _ => true
  | .remoteLoadTimeout _ => true
  | .l1WriteBack _ _ => true
  | .engineCommand _ => true
  | .bankOperation _ => true
  | .presenceArrive _ => true
  | .presenceCancel _ => true
  | .tradeTokenArrival => true
  | .lineWrite _ _ => true
  | .entryPortAdmit _ _ _ => true
  | .heldTokenAdmit _ _ _ _ => true
  | .linkTransfer _ _ _ _ => true
  | .exitReorderEmit _ _ _ _ => true
  | .countTokens _ => true
  | .mElementReply _ _ => true
  | .retire _ _ _ _ => true
  | .treeStep _ _ _ _ => true
  | .vaneCommandPerform _ => true
  | .calmSweep _ _ => true
  | .doldrums _ _ => true
  | .purgeEnd _ _ => true
  | .remoteTimeout _ _ => true
  | .loadDelivery _ _ => true
  | .elementWrite _ => true
  | .oneShotFree _ _ => true
  | .sectionStart _ _ => true
  | .sectionRelease _ _ => true
  | .sectionEarlyEnd _ _ => true
  | .completionPutRetry _ _ => true
  | .streamAccess _ _ => true
  | .portWriteToken _ _ => true
  | .portReadDelivery _ _ => true
  | .doneAction _ _ => true
  | .islandRow _ _ => true
  | .islandEmit _ _ => true
  | .ingressRecord _ _ _ _ => true
  | .headRecordServed _ _ _ => true
  | .orphan _ _ _ => true
  | .timedSlotStart _ _ => true
  | .admission _ => true
  | .loaderImage _ => true
  | .launchArm _ _ => true
  | .launchPairPush _ _ => true
  | .launchCompletion _ _ => true
  | .ptpEventMessage _ _ _ => true
  | .servoCorrection => true
  | .dispatch _ => true
  | .packetForward _ _ => true
  | .packetArrival _ => true
  | .shearedHeader _ => true
  | .reRequest _ => true
  | .acknowledgement _ => true
  | .retransmitTimeout _ => true
  | .remoteRead _ => true
  | .remoteWrite _ => true
  | .readReply _ => true
  | .routeClassDelivery _ => true
  | .readyFrame _ => true
  | .readyResend _ _ => true
  | .tokenFrame _ => true
  | .creditFrame _ => true
  | .closeFrame _ => true
  | .channelTokenSend _ _ _ => true
  | .authfail _ _ _ => true
  | .linkTrained _ => true
  | .lossOfSignal _ => true
  | .getVersion _ => true
  | .getCapabilities _ => true
  | .negotiateAlgorithms _ => true
  | .getDigests _ => true
  | .getCertificate _ => true
  | .challenge _ => true
  | .getMeasurements _ => true
  | .keyExchange _ => true
  | .finish _ => true
  | .heartbeat _ => true
  | .keyUpdate _ => true
  | .endSession _ => true
  | .setCertificate _ => true
  | .getCsr _ => true
  | .chunkSend _ => true
  | .chunkGet _ => true
  | .vendorDefinedRequest _ => true
  | .getTdispVersion _ => true
  | .getTdispCapabilities _ => true
  | .lockInterfaceRequest _ => true
  | .getDeviceInterfaceReport _ => true
  | .getDeviceInterfaceState _ => true
  | .startInterfaceRequest _ _ => true
  | .stopInterfaceRequest _ => true
  | .frozenSetChange _ => true
  | .partWrite _ _ => true
  | .vfWrite _ _ => true
  | .lpermWrite _ _ => true
  | .colourTableWrite _ _ => true
  | .ownerTagWrite _ _ => true
  | .startCommand _ _ _ _ _ => true
  | .coreReset _ => true
  | .retireCommand _ => true
  | .keyLoad _ _ _ _ => true
  | .linkKeyLoad _ _ _ _ => true
  | .lkstatWrite _ _ _ => true
  | .sealRange _ _ _ => true
  | .setPre _ => true
  | .patrol _ _ => true
  | .coldReset => true
  | .throttle => true
  | .throttleRestore => true
  | .thermalTrip => true
  | .lschedWrite _ _ => true
  | .lcbaseWrite _ _ => true
  | .lrootWrite _ _ => true
  | .ttctlWrite _ _ => true
  | .ttWrite _ _ _ _ => true
  | .ingWrite _ _ _ => true
  | .bkctlWrite _ _ _ => true
  | .bagctlWrite _ _ => true
  | .bagspillWrite _ _ => true
  | .flbaseWrite _ _ => true
  | .netctlWrite _ _ => true
  | .channelEntryWrite _ _ _ _ => true
  | .registerWrite _ _ => true
  | .releaseScrub _ _ => true
  | .hostEgressDelivery _ _ => true

/-- The instruction requires level S (the Level column of its entry): at U it raises a privilege fault at decode
(R34). -/
def Instr.priv : Instr → Bool
  | .add _ => false
  | .sub _ => false
  | .mul _ => false
  | .mulh _ => false
  | .div _ => false
  | .rem _ => false
  | .and _ => false
  | .or _ => false
  | .xor _ => false
  | .shl _ => false
  | .shr _ => false
  | .sar _ => false
  | .min _ => false
  | .max _ => false
  | .cmp _ => false
  | .sel _ => false
  | .pcmp _ => false
  | .plog _ => false
  | .pmov _ => false
  | .lreg _ => false
  | .fadd _ => false
  | .fsub _ => false
  | .fmul _ => false
  | .fdiv _ => false
  | .fma _ => false
  | .fmin _ => false
  | .fmax _ => false
  | .fcmp _ => false
  | .fcvt _ => false
  | .frsqs _ => false
  | .frcps _ => false
  | .cpy _ => false
  | .cpy2 _ => false
  | .mfc _ => false
  | .colqRd _ => false
  | .colqOpen _ => true
  | .colqClose _ => true
  | .rpurge _ => true
  | .rload _ => true
  | .rarm _ => false
  | .rcalm o => o.func == 0 || o.func == 3
  | .rtear _ => true
  | .rinj _ => true
  | .vnset _ => true
  | .steerset _ => true
  | .vnrd _ => true
  | .msend _ => false
  | .mmask _ => false
  | .munmask _ => false
  | .mrecvPop _ => false
  | .mrecvCfg _ => true
  | .mrecvSt _ => false
  | .mrecvFree _ => false
  | .addi _ => false
  | .andi _ => false
  | .ori _ => false
  | .xori _ => false
  | .shli _ => false
  | .shri _ => false
  | .sari _ => false
  | .movi _ => false
  | .movhi _ => false
  | .br _ => false
  | .brr _ => false
  | .call _ => false
  | .callr _ => false
  | .ret _ => false
  | .loop _ => false
  | .lea _ => false
  | .vld _ => false
  | .vst _ => false
  | .vgath _ => false
  | .vscat _ => false
  | .ld _ => false
  | .st _ => false
  | .lda _ => false
  | .stl _ => false
  | .ldf _ => false
  | .pf _ => false
  | .cflush _ => false
  | .cinv _ => false
  | .invalCb _ => false
  | .waita _ => false
  | .amo _ => false
  | .amof _ => false
  | .cas _ => false
  | .red _ => false
  | .redf _ => false
  | .bupd _ => false
  | .bfill _ => false
  | .take _ => false
  | .put _ => false
  | .rdf _ => false
  | .clrp _ => false
  | .pstat _ => false
  | .ldsc _ => false
  | .stsc _ => false
  | .amoSc _ => false
  | .casSc _ => false
  | .vadd _ => false
  | .vsub _ => false
  | .vmul _ => false
  | .vmin _ => false
  | .vmax _ => false
  | .vand _ => false
  | .vor _ => false
  | .vxor _ => false
  | .vshl _ => false
  | .vshr _ => false
  | .vsar _ => false
  | .vfadd _ => false
  | .vfsub _ => false
  | .vfmul _ => false
  | .vfma _ => false
  | .vfmin _ => false
  | .vfmax _ => false
  | .vcmp _ => false
  | .vsel _ => false
  | .vred _ => false
  | .vperm _ => false
  | .vbcast _ => false
  | .vext _ => false
  | .vins _ => false
  | .vcvt _ => false
  | .vrsqs _ => false
  | .vrcps _ => false
  | .wload _ => false
  | .mscl _ => false
  | .mma _ => false
  | .mmas _ => false
  | .aclr _ => false
  | .ard _ => false
  | .awr _ => false
  | .asave _ => false
  | .sbind _ => false
  | .sstart _ => false
  | .sclose _ => false
  | .sbar _ => false
  | .spos _ => false
  | .sdone _ => false
  | .nalloc _ => false
  | .nfree _ => false
  | .nld _ => false
  | .nst _ => false
  | .nlink _ => false
  | .npush o => o.func == 1
  | .npop _ => true
  | .nruleLook _ => false
  | .nruleSet _ => true
  | .nruleInv _ => true
  | .statrd _ => false
  | .fence _ => false
  | .tlbi _ => true
  | .tlbw _ => true
  | .trap _ => false
  | .eret _ => true
  | .mfs o => o.sreg.toNat ≤ 8
  | .mts _ => true
  | .sysc _ => false
  | .bkpt _ => false
  | .halt _ => true
  | .rsave _ => true
  | .rrest _ => true
  | .passE _ => false
  | .constE _ => false
  | .steerE _ => false
  | .mergeE _ => false
  | .loopE _ => false
  | .callE _ => false
  | .retE _ => false
  | .addE _ => false
  | .subE _ => false
  | .mulE _ => false
  | .minE _ => false
  | .maxE _ => false
  | .andE _ => false
  | .orE _ => false
  | .xorE _ => false
  | .shlE _ => false
  | .shrE _ => false
  | .cmpE _ => false
  | .selE _ => false
  | .faddE _ => false
  | .fsubE _ => false
  | .fmulE _ => false
  | .fmaE _ => false
  | .fminE _ => false
  | .fmaxE _ => false
  | .fcmpE _ => false
  | .cvtE _ => false
  | .accE _ => false
  | .mloadE _ => false
  | .mstoreE _ => false
  | .mrmwE _ => false
  | .sdivE _ => false
  | .sexp2E _ => false
  | .slog2E _ => false
  | .ssinE _ => false
  | .stabE _ => false
  | .statE _ => false
  | .commitE _ => false
  | .routeE _ => false
  | .spaddE _ => false
  | .topkE _ => false
  | .cumsE _ => false
  | .drawE _ => false
  | .penalE _ => false
  | .adptE _ => false
  | .vaneE _ => false
  | .islandCommandPerform _ => false
  | .waitAnswer _ => false
  | .waitCancel _ => false
  | .bankReply _ => false
  | .interruptTaken _ => false
  | .remoteLoadTimeout _ => false
  | .l1WriteBack _ _ => false
  | .engineCommand _ => false
  | .bankOperation _ => false
  | .presenceArrive _ => false
  | .presenceCancel _ => false
  | .tradeTokenArrival => false
  | .lineWrite _ _ => false
  | .entryPortAdmit _ _ _ => false
  | .heldTokenAdmit _ _ _ _ => false
  | .linkTransfer _ _ _ _ => false
  | .exitReorderEmit _ _ _ _ => false
  | .countTokens _ => false
  | .mElementReply _ _ => false
  | .retire _ _ _ _ => false
  | .treeStep _ _ _ _ => false
  | .vaneCommandPerform _ => false
  | .calmSweep _ _ => false
  | .doldrums _ _ => false
  | .purgeEnd _ _ => false
  | .remoteTimeout _ _ => false
  | .loadDelivery _ _ => false
  | .elementWrite _ => false
  | .oneShotFree _ _ => false
  | .sectionStart _ _ => false
  | .sectionRelease _ _ => false
  | .sectionEarlyEnd _ _ => false
  | .completionPutRetry _ _ => false
  | .streamAccess _ _ => false
  | .portWriteToken _ _ => false
  | .portReadDelivery _ _ => false
  | .doneAction _ _ => false
  | .islandRow _ _ => false
  | .islandEmit _ _ => false
  | .ingressRecord _ _ _ _ => false
  | .headRecordServed _ _ _ => false
  | .orphan _ _ _ => false
  | .timedSlotStart _ _ => false
  | .admission _ => false
  | .loaderImage _ => false
  | .launchArm _ _ => false
  | .launchPairPush _ _ => false
  | .launchCompletion _ _ => false
  | .ptpEventMessage _ _ _ => false
  | .servoCorrection => false
  | .dispatch _ => false
  | .packetForward _ _ => false
  | .packetArrival _ => false
  | .shearedHeader _ => false
  | .reRequest _ => false
  | .acknowledgement _ => false
  | .retransmitTimeout _ => false
  | .remoteRead _ => false
  | .remoteWrite _ => false
  | .readReply _ => false
  | .routeClassDelivery _ => false
  | .readyFrame _ => false
  | .readyResend _ _ => false
  | .tokenFrame _ => false
  | .creditFrame _ => false
  | .closeFrame _ => false
  | .channelTokenSend _ _ _ => false
  | .authfail _ _ _ => false
  | .linkTrained _ => false
  | .lossOfSignal _ => false
  | .getVersion _ => false
  | .getCapabilities _ => false
  | .negotiateAlgorithms _ => false
  | .getDigests _ => false
  | .getCertificate _ => false
  | .challenge _ => false
  | .getMeasurements _ => false
  | .keyExchange _ => false
  | .finish _ => false
  | .heartbeat _ => false
  | .keyUpdate _ => false
  | .endSession _ => false
  | .setCertificate _ => false
  | .getCsr _ => false
  | .chunkSend _ => false
  | .chunkGet _ => false
  | .vendorDefinedRequest _ => false
  | .getTdispVersion _ => false
  | .getTdispCapabilities _ => false
  | .lockInterfaceRequest _ => false
  | .getDeviceInterfaceReport _ => false
  | .getDeviceInterfaceState _ => false
  | .startInterfaceRequest _ _ => false
  | .stopInterfaceRequest _ => false
  | .frozenSetChange _ => false
  | .partWrite _ _ => false
  | .vfWrite _ _ => false
  | .lpermWrite _ _ => false
  | .colourTableWrite _ _ => false
  | .ownerTagWrite _ _ => false
  | .startCommand _ _ _ _ _ => false
  | .coreReset _ => false
  | .retireCommand _ => false
  | .keyLoad _ _ _ _ => false
  | .linkKeyLoad _ _ _ _ => false
  | .lkstatWrite _ _ _ => false
  | .sealRange _ _ _ => false
  | .setPre _ => false
  | .patrol _ _ => false
  | .coldReset => false
  | .throttle => false
  | .throttleRestore => false
  | .thermalTrip => false
  | .lschedWrite _ _ => false
  | .lcbaseWrite _ _ => false
  | .lrootWrite _ _ => false
  | .ttctlWrite _ _ => false
  | .ttWrite _ _ _ _ => false
  | .ingWrite _ _ _ => false
  | .bkctlWrite _ _ _ => false
  | .bagctlWrite _ _ => false
  | .bagspillWrite _ _ => false
  | .flbaseWrite _ _ => false
  | .netctlWrite _ _ => false
  | .channelEntryWrite _ _ _ _ => false
  | .registerWrite _ _ => false
  | .releaseScrub _ _ => false
  | .hostEgressDelivery _ _ => false

end Sys2Proof
end

