-- ==== Sys2Proof/Decode.lean ====
section
/-!
DEFINITION. Reading an instruction from its word and writing the word of an instruction (02 R24, R27, Table 02.5,
R33 Table 02.9, R35, Tables 02.11 to 02.14). A core instruction is a 64-bit word; an element operation is a 128-bit
configuration word whose operation word is the lower half. Events have no encoding.
-/
namespace Sys2Proof

/-! ## Formats: fields from a word, and a word from fields (Table 02.5) -/

def RRR.dec (w : W64) : RRR :=
  { g := w.extractLsb' 53 3, gs := w.getLsbD 52, d := w.extractLsb' 46 6, a := w.extractLsb' 40 6,
    b := w.extractLsb' 34 6, c := w.extractLsb' 28 6, func := w.extractLsb' 20 8, ty := w.extractLsb' 15 5,
    rm := w.extractLsb' 13 2, sat := w.getLsbD 12 }
/-- RRR [11:0] is reserved. -/
def RRR.rsv (w : W64) : Bool := w.extractLsb' 0 12 == 0
def RRR.enc (op : BitVec 8) (o : RRR) : W64 :=
  op ++ o.g ++ BitVec.ofBool o.gs ++ o.d ++ o.a ++ o.b ++ o.c ++ o.func ++ o.ty ++ o.rm ++ BitVec.ofBool o.sat ++ 0#12

def RRI.dec (w : W64) : RRI :=
  { g := w.extractLsb' 53 3, gs := w.getLsbD 52, d := w.extractLsb' 46 6, a := w.extractLsb' 40 6,
    imm := w.extractLsb' 0 40 }
def RRI.enc (op : BitVec 8) (o : RRI) : W64 :=
  op ++ o.g ++ BitVec.ofBool o.gs ++ o.d ++ o.a ++ o.imm

def MEM.dec (w : W64) : MEM :=
  { g := w.extractLsb' 53 3, gs := w.getLsbD 52, d := w.extractLsb' 46 6, a := w.extractLsb' 40 6,
    b := w.extractLsb' 34 6, ix := w.getLsbD 33, scope := w.extractLsb' 30 3, ord := w.extractLsb' 28 2,
    ty := w.extractLsb' 23 5, sh := w.extractLsb' 20 3, func := w.extractLsb' 16 4, off := w.extractLsb' 0 16 }
def MEM.enc (op : BitVec 8) (o : MEM) : W64 :=
  op ++ o.g ++ BitVec.ofBool o.gs ++ o.d ++ o.a ++ o.b ++ BitVec.ofBool o.ix ++ o.scope ++ o.ord ++ o.ty ++ o.sh ++
    o.func ++ o.off

def BRX.dec (w : W64) : BRX :=
  { g := w.extractLsb' 53 3, gs := w.getLsbD 52, d := w.extractLsb' 46 6, a := w.extractLsb' 40 6,
    b := w.extractLsb' 34 6, off := w.extractLsb' 0 34 }
def BRX.enc (op : BitVec 8) (o : BRX) : W64 :=
  op ++ o.g ++ BitVec.ofBool o.gs ++ o.d ++ o.a ++ o.b ++ o.off

def VEC.dec (w : W64) : VEC :=
  { g := w.extractLsb' 53 3, gs := w.getLsbD 52, d := w.extractLsb' 46 6, a := w.extractLsb' 40 6,
    b := w.extractLsb' 34 6, c := w.extractLsb' 28 6, m := w.extractLsb' 25 3, z := w.getLsbD 24,
    func := w.extractLsb' 16 8, ty := w.extractLsb' 11 5, rm := w.extractLsb' 9 2, sat := w.getLsbD 8,
    imm := w.extractLsb' 0 8 }
def VEC.enc (op : BitVec 8) (o : VEC) : W64 :=
  op ++ o.g ++ BitVec.ofBool o.gs ++ o.d ++ o.a ++ o.b ++ o.c ++ o.m ++ BitVec.ofBool o.z ++ o.func ++ o.ty ++ o.rm ++
    BitVec.ofBool o.sat ++ o.imm

def MTX.dec (w : W64) : MTX :=
  { g := w.extractLsb' 53 3, gs := w.getLsbD 52, d := w.extractLsb' 46 6, a := w.extractLsb' 40 6,
    b := w.extractLsb' 34 6, func := w.extractLsb' 26 8, ty := w.extractLsb' 21 5, w := w.extractLsb' 18 3,
    acc := w.extractLsb' 16 2, sp := w.getLsbD 15, imm := w.extractLsb' 0 15 }
def MTX.enc (op : BitVec 8) (o : MTX) : W64 :=
  op ++ o.g ++ BitVec.ofBool o.gs ++ o.d ++ o.a ++ o.b ++ o.func ++ o.ty ++ o.w ++ o.acc ++ BitVec.ofBool o.sp ++ o.imm

def STR.dec (w : W64) : STR :=
  { g := w.extractLsb' 53 3, gs := w.getLsbD 52, d := w.extractLsb' 46 6, a := w.extractLsb' 40 6,
    b := w.extractLsb' 34 6, sid := w.extractLsb' 30 4, smask := w.extractLsb' 14 16, func := w.extractLsb' 6 8 }
/-- STR [5:0] is reserved. -/
def STR.rsv (w : W64) : Bool := w.extractLsb' 0 6 == 0
def STR.enc (op : BitVec 8) (o : STR) : W64 :=
  op ++ o.g ++ BitVec.ofBool o.gs ++ o.d ++ o.a ++ o.b ++ o.sid ++ o.smask ++ o.func ++ 0#6

def NET.dec (w : W64) : NET :=
  { g := w.extractLsb' 53 3, gs := w.getLsbD 52, d := w.extractLsb' 46 6, a := w.extractLsb' 40 6,
    b := w.extractLsb' 34 6, pa := w.extractLsb' 32 2, pb := w.extractLsb' 30 2, kind := w.extractLsb' 18 12,
    func := w.extractLsb' 10 8 }
/-- NET [9:0] is reserved. -/
def NET.rsv (w : W64) : Bool := w.extractLsb' 0 10 == 0
def NET.enc (op : BitVec 8) (o : NET) : W64 :=
  op ++ o.g ++ BitVec.ofBool o.gs ++ o.d ++ o.a ++ o.b ++ o.pa ++ o.pb ++ o.kind ++ o.func ++ 0#10

def SYS.dec (w : W64) : SYS :=
  { g := w.extractLsb' 53 3, gs := w.getLsbD 52, d := w.extractLsb' 46 6, a := w.extractLsb' 40 6,
    b := w.extractLsb' 34 6, sreg := w.extractLsb' 22 12, func := w.extractLsb' 14 8, imm := w.extractLsb' 0 14 }
def SYS.enc (op : BitVec 8) (o : SYS) : W64 :=
  op ++ o.g ++ BitVec.ofBool o.gs ++ o.d ++ o.a ++ o.b ++ o.sreg ++ o.func ++ o.imm

/-- The configuration word: operation word in [63:0] (Table 02.11), routing word in [127:64] (Table 02.12). -/
def ElemCfg.dec (w : BitVec 128) : ElemCfg :=
  { fmt := w.extractLsb' 53 3, rm := w.extractLsb' 51 2, sat := w.getLsbD 50, fin := w.getLsbD 49,
    tagp := w.extractLsb' 47 2, nin := w.extractLsb' 44 3, cin := w.extractLsb' 40 4, opx := w.extractLsb' 32 8,
    const := w.extractLsb' 0 32,
    q3 := w.extractLsb' 125 3, q2 := w.extractLsb' 122 3, q1 := w.extractLsb' 119 3, q0 := w.extractLsb' 116 3,
    out0 := w.extractLsb' 110 6, out1 := w.extractLsb' 104 6, share := w.extractLsb' 97 7, ordx := w.getLsbD 96,
    port := w.extractLsb' 92 4 }
/-- Routing word [27:0] is reserved. -/
def ElemCfg.rsv (w : BitVec 128) : Bool := w.extractLsb' 64 28 == 0
def ElemCfg.enc (op : BitVec 8) (o : ElemCfg) : BitVec 128 :=
  o.q3 ++ o.q2 ++ o.q1 ++ o.q0 ++ o.out0 ++ o.out1 ++ o.share ++ BitVec.ofBool o.ordx ++ o.port ++ 0#28 ++
    op ++ o.fmt ++ o.rm ++ BitVec.ofBool o.sat ++ BitVec.ofBool o.fin ++ o.tagp ++ o.nin ++ o.cin ++ o.opx ++ o.const

/-! ## The decoder -/

/-- Why a word is no instruction. -/
inductive DecodeError where
  /-- An unassigned major opcode or operation code (R33, R37). -/
  | unassigned
  /-- A BLOCK header, which is no instruction of a block (R31). -/
  | header
  /-- A nonzero reserved field (R34). -/
  | reserved
  /-- A field value that the entry does not list (R34, R36). -/
  | field
deriving DecidableEq, Repr

/-- Whether the reserved bits of a word of the given major opcode's format are zero (Table 02.5). -/
def coreRsv (op : Nat) (w : W64) : Bool :=
  if op / 16 == 9 then STR.rsv w
  else if op / 16 == 0xB then NET.rsv w
  else if op / 16 == 1 || (0x2A ≤ op && op ≤ 0x3A) || op == 0x6A || op == 0x6B || (0x80 ≤ op && op ≤ 0x87) ||
      (0xC4 ≤ op && op ≤ 0xCB) then RRR.rsv w
  else true

/-- The instruction of a word by its major opcode, whatever its fields hold (Table 02.9). -/
def coreInstr (op : Nat) (w : W64) : Option Instr :=
  match op with
  | 0x02 => some (.br (.dec w))
  | 0x03 => some (.brr (.dec w))
  | 0x04 => some (.call (.dec w))
  | 0x05 => some (.callr (.dec w))
  | 0x06 => some (.ret (.dec w))
  | 0x07 => some (.loop (.dec w))
  | 0x10 => some (.add (.dec w))
  | 0x11 => some (.sub (.dec w))
  | 0x12 => some (.mul (.dec w))
  | 0x13 => some (.mulh (.dec w))
  | 0x14 => some (.div (.dec w))
  | 0x15 => some (.rem (.dec w))
  | 0x16 => some (.and (.dec w))
  | 0x17 => some (.or (.dec w))
  | 0x18 => some (.xor (.dec w))
  | 0x19 => some (.shl (.dec w))
  | 0x1A => some (.shr (.dec w))
  | 0x1B => some (.sar (.dec w))
  | 0x1C => some (.min (.dec w))
  | 0x1D => some (.max (.dec w))
  | 0x1E => some (.cmp (.dec w))
  | 0x1F => some (.sel (.dec w))
  | 0x20 => some (.addi (.dec w))
  | 0x21 => some (.andi (.dec w))
  | 0x22 => some (.ori (.dec w))
  | 0x23 => some (.xori (.dec w))
  | 0x24 => some (.shli (.dec w))
  | 0x25 => some (.shri (.dec w))
  | 0x26 => some (.sari (.dec w))
  | 0x27 => some (.movi (.dec w))
  | 0x28 => some (.movhi (.dec w))
  | 0x29 => some (.lea (.dec w))
  | 0x2A => some (.pcmp (.dec w))
  | 0x2B => some (.plog (.dec w))
  | 0x2C => some (.pmov (.dec w))
  | 0x2D => some (.lreg (.dec w))
  | 0x30 => some (.fadd (.dec w))
  | 0x31 => some (.fsub (.dec w))
  | 0x32 => some (.fmul (.dec w))
  | 0x33 => some (.fdiv (.dec w))
  | 0x34 => some (.fma (.dec w))
  | 0x35 => some (.fmin (.dec w))
  | 0x36 => some (.fmax (.dec w))
  | 0x37 => some (.fcmp (.dec w))
  | 0x38 => some (.fcvt (.dec w))
  | 0x39 => some (.frsqs (.dec w))
  | 0x3A => some (.frcps (.dec w))
  | 0x3B => some (.statrd (.dec w))
  | 0x40 => some (.vld (.dec w))
  | 0x41 => some (.vst (.dec w))
  | 0x42 => some (.vgath (.dec w))
  | 0x43 => some (.vscat (.dec w))
  | 0x44 => some (.vadd (.dec w))
  | 0x45 => some (.vsub (.dec w))
  | 0x46 => some (.vmul (.dec w))
  | 0x47 => some (.vmin (.dec w))
  | 0x48 => some (.vmax (.dec w))
  | 0x49 => some (.vand (.dec w))
  | 0x4A => some (.vor (.dec w))
  | 0x4B => some (.vxor (.dec w))
  | 0x4C => some (.vshl (.dec w))
  | 0x4D => some (.vshr (.dec w))
  | 0x4E => some (.vsar (.dec w))
  | 0x4F => some (.vfadd (.dec w))
  | 0x50 => some (.vfsub (.dec w))
  | 0x51 => some (.vfmul (.dec w))
  | 0x52 => some (.vfma (.dec w))
  | 0x53 => some (.vfmin (.dec w))
  | 0x54 => some (.vfmax (.dec w))
  | 0x55 => some (.vcmp (.dec w))
  | 0x56 => some (.vsel (.dec w))
  | 0x57 => some (.vred (.dec w))
  | 0x58 => some (.vperm (.dec w))
  | 0x59 => some (.vbcast (.dec w))
  | 0x5A => some (.vext (.dec w))
  | 0x5B => some (.vins (.dec w))
  | 0x5C => some (.vcvt (.dec w))
  | 0x5D => some (.vrsqs (.dec w))
  | 0x5E => some (.vrcps (.dec w))
  | 0x60 => some (.ld (.dec w))
  | 0x61 => some (.st (.dec w))
  | 0x62 => some (.lda (.dec w))
  | 0x63 => some (.stl (.dec w))
  | 0x64 => some (.ldf (.dec w))
  | 0x65 => some (.pf (.dec w))
  | 0x66 => some (.cflush (.dec w))
  | 0x67 => some (.cinv (.dec w))
  | 0x68 => some (.invalCb (.dec w))
  | 0x69 => some (.fence (.dec w))
  | 0x6A => some (.cpy (.dec w))
  | 0x6B => some (.cpy2 (.dec w))
  | 0x6C => some (.waita (.dec w))
  | 0x70 => some (.amo (.dec w))
  | 0x71 => some (.amof (.dec w))
  | 0x72 => some (.cas (.dec w))
  | 0x73 => some (.red (.dec w))
  | 0x74 => some (.redf (.dec w))
  | 0x75 => some (.bupd (.dec w))
  | 0x76 => some (.bfill (.dec w))
  | 0x77 => some (.take (.dec w))
  | 0x78 => some (.put (.dec w))
  | 0x79 => some (.rdf (.dec w))
  | 0x7A => some (.clrp (.dec w))
  | 0x7B => some (.pstat (.dec w))
  | 0x7C => some (.ldsc (.dec w))
  | 0x7D => some (.stsc (.dec w))
  | 0x7E => some (.amoSc (.dec w))
  | 0x7F => some (.casSc (.dec w))
  | 0x80 => some (.mfc (.dec w))
  | 0x81 => match (RRR.dec w).func.toNat with
    | 0 => some (.colqRd (.dec w))
    | 1 => some (.colqOpen (.dec w))
    | 2 => some (.colqClose (.dec w))
    | _ => none
  | 0x82 => some (.rpurge (.dec w))
  | 0x83 => some (.rload (.dec w))
  | 0x84 => some (.rarm (.dec w))
  | 0x85 => some (.rcalm (.dec w))
  | 0x86 => some (.rtear (.dec w))
  | 0x87 => some (.rinj (.dec w))
  | 0x90 => some (.sbind (.dec w))
  | 0x91 => some (.sstart (.dec w))
  | 0x92 => some (.sclose (.dec w))
  | 0x93 => some (.sbar (.dec w))
  | 0x94 => some (.spos (.dec w))
  | 0x95 => some (.sdone (.dec w))
  | 0xA0 => some (.wload (.dec w))
  | 0xA1 => some (.mscl (.dec w))
  | 0xA2 => some (.mma (.dec w))
  | 0xA3 => some (.mmas (.dec w))
  | 0xA4 => some (.aclr (.dec w))
  | 0xA5 => some (.ard (.dec w))
  | 0xA6 => some (.awr (.dec w))
  | 0xA7 => some (.asave (.dec w))
  | 0xB0 => some (.nalloc (.dec w))
  | 0xB1 => some (.nfree (.dec w))
  | 0xB2 => some (.nld (.dec w))
  | 0xB3 => some (.nst (.dec w))
  | 0xB4 => some (.nlink (.dec w))
  | 0xB5 => some (.npush (.dec w))
  | 0xB6 => some (.npop (.dec w))
  | 0xB7 => match (NET.dec w).func.toNat with
    | 0 => some (.nruleLook (.dec w))
    | 1 => some (.nruleSet (.dec w))
    | 2 => some (.nruleInv (.dec w))
    | _ => none
  | 0xC0 => some (.tlbi (.dec w))
  | 0xC1 => some (.tlbw (.dec w))
  | 0xC4 => some (.vnset (.dec w))
  | 0xC5 => some (.steerset (.dec w))
  | 0xC6 => some (.vnrd (.dec w))
  | 0xC8 => some (.msend (.dec w))
  | 0xC9 => some (.mmask (.dec w))
  | 0xCA => some (.munmask (.dec w))
  | 0xCB => match (RRR.dec w).func.toNat with
    | 0 => some (.mrecvPop (.dec w))
    | 1 => some (.mrecvCfg (.dec w))
    | 2 => some (.mrecvSt (.dec w))
    | 3 => some (.mrecvFree (.dec w))
    | _ => none
  | 0xD0 => some (.trap (.dec w))
  | 0xD1 => some (.eret (.dec w))
  | 0xD2 => some (.mfs (.dec w))
  | 0xD3 => some (.mts (.dec w))
  | 0xD4 => some (.sysc (.dec w))
  | 0xD5 => some (.bkpt (.dec w))
  | 0xD6 => some (.halt (.dec w))
  | 0xD7 => some (.rsave (.dec w))
  | 0xD8 => some (.rrest (.dec w))
  | _ => none

/-- The instruction of a 64-bit word, or the name of the reason it is none (R31, R33, R34). -/
def decodeCore (w : W64) : Except DecodeError Instr :=
  let op := (w.extractLsb' 56 8).toNat
  if op == 1 then .error .header else
  if !coreRsv op w then .error .reserved else
  match coreInstr op w with
  | none => .error (if op == 0x81 || op == 0xB7 || op == 0xCB then .field else .unassigned)
  | some i => if i.wf then .ok i else .error .field

/-- The element operation of a code, whatever its fields hold (Table 02.14). -/
def elemInstr (op : Nat) (o : ElemCfg) : Option Instr :=
  match op with
  | 0x01 => some (.passE o)
  | 0x02 => some (.constE o)
  | 0x03 => some (.steerE o)
  | 0x04 => some (.mergeE o)
  | 0x05 => some (.loopE o)
  | 0x06 => some (.callE o)
  | 0x07 => some (.retE o)
  | 0x10 => some (.addE o)
  | 0x11 => some (.subE o)
  | 0x12 => some (.mulE o)
  | 0x13 => some (.minE o)
  | 0x14 => some (.maxE o)
  | 0x15 => some (.andE o)
  | 0x16 => some (.orE o)
  | 0x17 => some (.xorE o)
  | 0x18 => some (.shlE o)
  | 0x19 => some (.shrE o)
  | 0x1A => some (.cmpE o)
  | 0x1B => some (.selE o)
  | 0x20 => some (.faddE o)
  | 0x21 => some (.fsubE o)
  | 0x22 => some (.fmulE o)
  | 0x23 => some (.fmaE o)
  | 0x24 => some (.fminE o)
  | 0x25 => some (.fmaxE o)
  | 0x26 => some (.fcmpE o)
  | 0x27 => some (.cvtE o)
  | 0x28 => some (.accE o)
  | 0x30 => some (.mloadE o)
  | 0x31 => some (.mstoreE o)
  | 0x32 => some (.mrmwE o)
  | 0x38 => some (.sdivE o)
  | 0x39 => some (.sexp2E o)
  | 0x3A => some (.slog2E o)
  | 0x3B => some (.ssinE o)
  | 0x3C => some (.stabE o)
  | 0x3F => some (.statE o)
  | 0x40 => some (.commitE o)
  | 0x41 => some (.routeE o)
  | 0x42 => some (.spaddE o)
  | 0x43 => some (.topkE o)
  | 0x44 => some (.cumsE o)
  | 0x45 => some (.drawE o)
  | 0x46 => some (.penalE o)
  | 0x47 => some (.adptE o)
  | 0x48 => some (.vaneE o)
  | _ => none

/-- The element operation of a 128-bit configuration word, or the reason it is none (R35, R36). -/
def decodeElem (w : BitVec 128) : Except DecodeError Instr :=
  if !ElemCfg.rsv w then .error .reserved else
  match elemInstr (w.extractLsb' 56 8).toNat (.dec w) with
  | none => .error .unassigned
  | some i => if i.wf then .ok i else .error .field

/-- The words of an instruction: one 64-bit word, one 128-bit configuration word, or none (an event). -/
inductive Words where
  | core (w : W64)
  | elem (w : BitVec 128)
  | none
deriving DecidableEq, Repr

/-- The words of an instruction (Tables 02.5, 02.9, 02.11, 02.12, 02.14). -/
def encode (i : Instr) : Words :=
  match i with
  | .add o => .core (o.enc 0x10)
  | .sub o => .core (o.enc 0x11)
  | .mul o => .core (o.enc 0x12)
  | .mulh o => .core (o.enc 0x13)
  | .div o => .core (o.enc 0x14)
  | .rem o => .core (o.enc 0x15)
  | .and o => .core (o.enc 0x16)
  | .or o => .core (o.enc 0x17)
  | .xor o => .core (o.enc 0x18)
  | .shl o => .core (o.enc 0x19)
  | .shr o => .core (o.enc 0x1A)
  | .sar o => .core (o.enc 0x1B)
  | .min o => .core (o.enc 0x1C)
  | .max o => .core (o.enc 0x1D)
  | .cmp o => .core (o.enc 0x1E)
  | .sel o => .core (o.enc 0x1F)
  | .pcmp o => .core (o.enc 0x2A)
  | .plog o => .core (o.enc 0x2B)
  | .pmov o => .core (o.enc 0x2C)
  | .lreg o => .core (o.enc 0x2D)
  | .fadd o => .core (o.enc 0x30)
  | .fsub o => .core (o.enc 0x31)
  | .fmul o => .core (o.enc 0x32)
  | .fdiv o => .core (o.enc 0x33)
  | .fma o => .core (o.enc 0x34)
  | .fmin o => .core (o.enc 0x35)
  | .fmax o => .core (o.enc 0x36)
  | .fcmp o => .core (o.enc 0x37)
  | .fcvt o => .core (o.enc 0x38)
  | .frsqs o => .core (o.enc 0x39)
  | .frcps o => .core (o.enc 0x3A)
  | .cpy o => .core (o.enc 0x6A)
  | .cpy2 o => .core (o.enc 0x6B)
  | .mfc o => .core (o.enc 0x80)
  | .colqRd o => .core (o.enc 0x81)
  | .colqOpen o => .core (o.enc 0x81)
  | .colqClose o => .core (o.enc 0x81)
  | .rpurge o => .core (o.enc 0x82)
  | .rload o => .core (o.enc 0x83)
  | .rarm o => .core (o.enc 0x84)
  | .rcalm o => .core (o.enc 0x85)
  | .rtear o => .core (o.enc 0x86)
  | .rinj o => .core (o.enc 0x87)
  | .vnset o => .core (o.enc 0xC4)
  | .steerset o => .core (o.enc 0xC5)
  | .vnrd o => .core (o.enc 0xC6)
  | .msend o => .core (o.enc 0xC8)
  | .mmask o => .core (o.enc 0xC9)
  | .munmask o => .core (o.enc 0xCA)
  | .mrecvPop o => .core (o.enc 0xCB)
  | .mrecvCfg o => .core (o.enc 0xCB)
  | .mrecvSt o => .core (o.enc 0xCB)
  | .mrecvFree o => .core (o.enc 0xCB)
  | .addi o => .core (o.enc 0x20)
  | .andi o => .core (o.enc 0x21)
  | .ori o => .core (o.enc 0x22)
  | .xori o => .core (o.enc 0x23)
  | .shli o => .core (o.enc 0x24)
  | .shri o => .core (o.enc 0x25)
  | .sari o => .core (o.enc 0x26)
  | .movi o => .core (o.enc 0x27)
  | .movhi o => .core (o.enc 0x28)
  | .br o => .core (o.enc 0x02)
  | .brr o => .core (o.enc 0x03)
  | .call o => .core (o.enc 0x04)
  | .callr o => .core (o.enc 0x05)
  | .ret o => .core (o.enc 0x06)
  | .loop o => .core (o.enc 0x07)
  | .lea o => .core (o.enc 0x29)
  | .vld o => .core (o.enc 0x40)
  | .vst o => .core (o.enc 0x41)
  | .vgath o => .core (o.enc 0x42)
  | .vscat o => .core (o.enc 0x43)
  | .ld o => .core (o.enc 0x60)
  | .st o => .core (o.enc 0x61)
  | .lda o => .core (o.enc 0x62)
  | .stl o => .core (o.enc 0x63)
  | .ldf o => .core (o.enc 0x64)
  | .pf o => .core (o.enc 0x65)
  | .cflush o => .core (o.enc 0x66)
  | .cinv o => .core (o.enc 0x67)
  | .invalCb o => .core (o.enc 0x68)
  | .waita o => .core (o.enc 0x6C)
  | .amo o => .core (o.enc 0x70)
  | .amof o => .core (o.enc 0x71)
  | .cas o => .core (o.enc 0x72)
  | .red o => .core (o.enc 0x73)
  | .redf o => .core (o.enc 0x74)
  | .bupd o => .core (o.enc 0x75)
  | .bfill o => .core (o.enc 0x76)
  | .take o => .core (o.enc 0x77)
  | .put o => .core (o.enc 0x78)
  | .rdf o => .core (o.enc 0x79)
  | .clrp o => .core (o.enc 0x7A)
  | .pstat o => .core (o.enc 0x7B)
  | .ldsc o => .core (o.enc 0x7C)
  | .stsc o => .core (o.enc 0x7D)
  | .amoSc o => .core (o.enc 0x7E)
  | .casSc o => .core (o.enc 0x7F)
  | .vadd o => .core (o.enc 0x44)
  | .vsub o => .core (o.enc 0x45)
  | .vmul o => .core (o.enc 0x46)
  | .vmin o => .core (o.enc 0x47)
  | .vmax o => .core (o.enc 0x48)
  | .vand o => .core (o.enc 0x49)
  | .vor o => .core (o.enc 0x4A)
  | .vxor o => .core (o.enc 0x4B)
  | .vshl o => .core (o.enc 0x4C)
  | .vshr o => .core (o.enc 0x4D)
  | .vsar o => .core (o.enc 0x4E)
  | .vfadd o => .core (o.enc 0x4F)
  | .vfsub o => .core (o.enc 0x50)
  | .vfmul o => .core (o.enc 0x51)
  | .vfma o => .core (o.enc 0x52)
  | .vfmin o => .core (o.enc 0x53)
  | .vfmax o => .core (o.enc 0x54)
  | .vcmp o => .core (o.enc 0x55)
  | .vsel o => .core (o.enc 0x56)
  | .vred o => .core (o.enc 0x57)
  | .vperm o => .core (o.enc 0x58)
  | .vbcast o => .core (o.enc 0x59)
  | .vext o => .core (o.enc 0x5A)
  | .vins o => .core (o.enc 0x5B)
  | .vcvt o => .core (o.enc 0x5C)
  | .vrsqs o => .core (o.enc 0x5D)
  | .vrcps o => .core (o.enc 0x5E)
  | .wload o => .core (o.enc 0xA0)
  | .mscl o => .core (o.enc 0xA1)
  | .mma o => .core (o.enc 0xA2)
  | .mmas o => .core (o.enc 0xA3)
  | .aclr o => .core (o.enc 0xA4)
  | .ard o => .core (o.enc 0xA5)
  | .awr o => .core (o.enc 0xA6)
  | .asave o => .core (o.enc 0xA7)
  | .sbind o => .core (o.enc 0x90)
  | .sstart o => .core (o.enc 0x91)
  | .sclose o => .core (o.enc 0x92)
  | .sbar o => .core (o.enc 0x93)
  | .spos o => .core (o.enc 0x94)
  | .sdone o => .core (o.enc 0x95)
  | .nalloc o => .core (o.enc 0xB0)
  | .nfree o => .core (o.enc 0xB1)
  | .nld o => .core (o.enc 0xB2)
  | .nst o => .core (o.enc 0xB3)
  | .nlink o => .core (o.enc 0xB4)
  | .npush o => .core (o.enc 0xB5)
  | .npop o => .core (o.enc 0xB6)
  | .nruleLook o => .core (o.enc 0xB7)
  | .nruleSet o => .core (o.enc 0xB7)
  | .nruleInv o => .core (o.enc 0xB7)
  | .statrd o => .core (o.enc 0x3B)
  | .fence o => .core (o.enc 0x69)
  | .tlbi o => .core (o.enc 0xC0)
  | .tlbw o => .core (o.enc 0xC1)
  | .trap o => .core (o.enc 0xD0)
  | .eret o => .core (o.enc 0xD1)
  | .mfs o => .core (o.enc 0xD2)
  | .mts o => .core (o.enc 0xD3)
  | .sysc o => .core (o.enc 0xD4)
  | .bkpt o => .core (o.enc 0xD5)
  | .halt o => .core (o.enc 0xD6)
  | .rsave o => .core (o.enc 0xD7)
  | .rrest o => .core (o.enc 0xD8)
  | .passE o => .elem (o.enc 0x01)
  | .constE o => .elem (o.enc 0x02)
  | .steerE o => .elem (o.enc 0x03)
  | .mergeE o => .elem (o.enc 0x04)
  | .loopE o => .elem (o.enc 0x05)
  | .callE o => .elem (o.enc 0x06)
  | .retE o => .elem (o.enc 0x07)
  | .addE o => .elem (o.enc 0x10)
  | .subE o => .elem (o.enc 0x11)
  | .mulE o => .elem (o.enc 0x12)
  | .minE o => .elem (o.enc 0x13)
  | .maxE o => .elem (o.enc 0x14)
  | .andE o => .elem (o.enc 0x15)
  | .orE o => .elem (o.enc 0x16)
  | .xorE o => .elem (o.enc 0x17)
  | .shlE o => .elem (o.enc 0x18)
  | .shrE o => .elem (o.enc 0x19)
  | .cmpE o => .elem (o.enc 0x1A)
  | .selE o => .elem (o.enc 0x1B)
  | .faddE o => .elem (o.enc 0x20)
  | .fsubE o => .elem (o.enc 0x21)
  | .fmulE o => .elem (o.enc 0x22)
  | .fmaE o => .elem (o.enc 0x23)
  | .fminE o => .elem (o.enc 0x24)
  | .fmaxE o => .elem (o.enc 0x25)
  | .fcmpE o => .elem (o.enc 0x26)
  | .cvtE o => .elem (o.enc 0x27)
  | .accE o => .elem (o.enc 0x28)
  | .mloadE o => .elem (o.enc 0x30)
  | .mstoreE o => .elem (o.enc 0x31)
  | .mrmwE o => .elem (o.enc 0x32)
  | .sdivE o => .elem (o.enc 0x38)
  | .sexp2E o => .elem (o.enc 0x39)
  | .slog2E o => .elem (o.enc 0x3A)
  | .ssinE o => .elem (o.enc 0x3B)
  | .stabE o => .elem (o.enc 0x3C)
  | .statE o => .elem (o.enc 0x3F)
  | .commitE o => .elem (o.enc 0x40)
  | .routeE o => .elem (o.enc 0x41)
  | .spaddE o => .elem (o.enc 0x42)
  | .topkE o => .elem (o.enc 0x43)
  | .cumsE o => .elem (o.enc 0x44)
  | .drawE o => .elem (o.enc 0x45)
  | .penalE o => .elem (o.enc 0x46)
  | .adptE o => .elem (o.enc 0x47)
  | .vaneE o => .elem (o.enc 0x48)
  | .islandCommandPerform _ => .none
  | .waitAnswer _ => .none
  | .waitCancel _ => .none
  | .bankReply _ => .none
  | .interruptTaken _ => .none
  | .remoteLoadTimeout _ => .none
  | .l1WriteBack _ _ => .none
  | .engineCommand _ => .none
  | .bankOperation _ => .none
  | .presenceArrive _ => .none
  | .presenceCancel _ => .none
  | .tradeTokenArrival => .none
  | .lineWrite _ _ => .none
  | .entryPortAdmit _ _ _ => .none
  | .heldTokenAdmit _ _ _ _ => .none
  | .linkTransfer _ _ _ _ => .none
  | .exitReorderEmit _ _ _ _ => .none
  | .countTokens _ => .none
  | .mElementReply _ _ => .none
  | .retire _ _ _ _ => .none
  | .treeStep _ _ _ _ => .none
  | .vaneCommandPerform _ => .none
  | .calmSweep _ _ => .none
  | .doldrums _ _ => .none
  | .purgeEnd _ _ => .none
  | .remoteTimeout _ _ => .none
  | .loadDelivery _ _ => .none
  | .elementWrite _ => .none
  | .oneShotFree _ _ => .none
  | .sectionStart _ _ => .none
  | .sectionRelease _ _ => .none
  | .sectionEarlyEnd _ _ => .none
  | .completionPutRetry _ _ => .none
  | .streamAccess _ _ => .none
  | .portWriteToken _ _ => .none
  | .portReadDelivery _ _ => .none
  | .doneAction _ _ => .none
  | .islandRow _ _ => .none
  | .islandEmit _ _ => .none
  | .ingressRecord _ _ _ _ => .none
  | .headRecordServed _ _ _ => .none
  | .orphan _ _ _ => .none
  | .timedSlotStart _ _ => .none
  | .admission _ => .none
  | .loaderImage _ => .none
  | .launchArm _ _ => .none
  | .launchPairPush _ _ => .none
  | .launchCompletion _ _ => .none
  | .ptpEventMessage _ _ _ => .none
  | .servoCorrection => .none
  | .dispatch _ => .none
  | .packetForward _ _ => .none
  | .packetArrival _ => .none
  | .shearedHeader _ => .none
  | .reRequest _ => .none
  | .acknowledgement _ => .none
  | .retransmitTimeout _ => .none
  | .remoteRead _ => .none
  | .remoteWrite _ => .none
  | .readReply _ => .none
  | .routeClassDelivery _ => .none
  | .readyFrame _ => .none
  | .readyResend _ _ => .none
  | .tokenFrame _ => .none
  | .creditFrame _ => .none
  | .closeFrame _ => .none
  | .channelTokenSend _ _ _ => .none
  | .authfail _ _ _ => .none
  | .linkTrained _ => .none
  | .lossOfSignal _ => .none
  | .getVersion _ => .none
  | .getCapabilities _ => .none
  | .negotiateAlgorithms _ => .none
  | .getDigests _ => .none
  | .getCertificate _ => .none
  | .challenge _ => .none
  | .getMeasurements _ => .none
  | .keyExchange _ => .none
  | .finish _ => .none
  | .heartbeat _ => .none
  | .keyUpdate _ => .none
  | .endSession _ => .none
  | .setCertificate _ => .none
  | .getCsr _ => .none
  | .chunkSend _ => .none
  | .chunkGet _ => .none
  | .vendorDefinedRequest _ => .none
  | .getTdispVersion _ => .none
  | .getTdispCapabilities _ => .none
  | .lockInterfaceRequest _ => .none
  | .getDeviceInterfaceReport _ => .none
  | .getDeviceInterfaceState _ => .none
  | .startInterfaceRequest _ _ => .none
  | .stopInterfaceRequest _ => .none
  | .frozenSetChange _ => .none
  | .partWrite _ _ => .none
  | .vfWrite _ _ => .none
  | .lpermWrite _ _ => .none
  | .colourTableWrite _ _ => .none
  | .ownerTagWrite _ _ => .none
  | .startCommand _ _ _ _ _ => .none
  | .coreReset _ => .none
  | .retireCommand _ => .none
  | .keyLoad _ _ _ _ => .none
  | .linkKeyLoad _ _ _ _ => .none
  | .lkstatWrite _ _ _ => .none
  | .sealRange _ _ _ => .none
  | .setPre _ => .none
  | .patrol _ _ => .none
  | .coldReset => .none
  | .throttle => .none
  | .throttleRestore => .none
  | .thermalTrip => .none
  | .lschedWrite _ _ => .none
  | .lcbaseWrite _ _ => .none
  | .lrootWrite _ _ => .none
  | .ttctlWrite _ _ => .none
  | .ttWrite _ _ _ _ => .none
  | .ingWrite _ _ _ => .none
  | .bkctlWrite _ _ _ => .none
  | .bagctlWrite _ _ => .none
  | .bagspillWrite _ _ => .none
  | .flbaseWrite _ _ => .none
  | .netctlWrite _ _ => .none
  | .channelEntryWrite _ _ _ _ => .none
  | .registerWrite _ _ => .none
  | .releaseScrub _ _ => .none
  | .hostEgressDelivery _ _ => .none

/-- The instruction of its words. -/
def decodeWords (w : Words) : Except DecodeError Instr :=
  match w with
  | .core w => decodeCore w
  | .elem w => decodeElem w
  | .none => .error .unassigned

/-- The value of bytes in the machine's order, the first byte lowest (00 R2). -/
def bytesNat : List Byte → Nat
  | [] => 0
  | b :: t => b.toNat + 256 * bytesNat t

/-- The core instruction of eight bytes in memory order (R24); any other number of bytes is no instruction. -/
def decodeBytes (bs : List Byte) : Except DecodeError Instr :=
  if bs.length == 8 then decodeCore (BitVec.ofNat 64 (bytesNat bs)) else .error .unassigned

/-- The instruction whose bits are w: a core word of up to 64 bits, or a configuration word of up to 128 bits. -/
def decodeTableWord (nbits w : Nat) : Option Instr :=
  if nbits ≤ 64 then (decodeCore (BitVec.ofNat 64 w)).toOption
  else if nbits ≤ 128 then (decodeElem (BitVec.ofNat 128 w)).toOption
  else none

end Sys2Proof
end

