-- ==== Sys2Proof/Machine/Sparse.lean ====
section
/-!
DEFINITION. Finite maps as lists of (key, value) pairs in rising key order, the canonical memory, and the plainest
helpers on bytes and fields.
-/
namespace Sys2Proof.Machine

/-- A map from Nat: pairs in rising key order, no key twice. -/
abbrev Sparse (α : Type) := List (Nat × α)

namespace Sp

/-- The value listed for a key. -/
def find? {α : Type} (m : Sparse α) (k : Nat) : Option α :=
  match m with
  | [] => none
  | (i, a) :: t => if i = k then some a else find? t k

/-- The value of a key, `d` where none is listed. -/
def get {α : Type} (d : α) (m : Sparse α) (k : Nat) : α := (find? m k).getD d

def erase {α : Type} (m : Sparse α) (k : Nat) : Sparse α := m.filter fun c => c.1 != k

/-- Insert before the first larger key. -/
def ins {α : Type} (m : Sparse α) (k : Nat) (a : α) : Sparse α :=
  match m with
  | [] => [(k, a)]
  | (i, b) :: t => if k < i then (k, a) :: (i, b) :: t else (i, b) :: ins t k a

/-- List a value for a key, in place of any other. -/
def put {α : Type} (m : Sparse α) (k : Nat) (a : α) : Sparse α := ins (erase m k) k a

/-- Give a key a value, listing nothing where the value is what an unlisted key reads as. -/
def set {α : Type} [DecidableEq α] (d : α) (m : Sparse α) (k : Nat) (a : α) : Sparse α :=
  if a = d then erase m k else put m k a

/-- Keys rise strictly. -/
def sorted {α : Type} : Sparse α → Bool
  | [] => true
  | (i, _) :: t => sorted t && t.all fun c => i < c.1

end Sp

/-- Memory: (address, byte) pairs, addresses strictly rising, no byte equal to what an unlisted address reads as. -/
abbrev Memory := List Host.Cell

namespace Mem

/-- What an address that nothing has written reads as. Floor, crown and pad bytes are zero from cold reset (28 R385, 06
R97); for GDDR-7 the manual gives nothing and the model chooses zero (log 2, DESIGN CHOICE). -/
def blank : Byte := 0

/-- One byte of memory. -/
def read (m : Memory) (a : Nat) : Byte := Sp.get blank m a

/-- Write one byte, keeping the canonical form. -/
def write (m : Memory) (a : Nat) (b : Byte) : Memory := Sp.set blank m a b

/-- The canonical form of a memory. -/
def wf (m : Memory) : Bool := Sp.sorted m && m.all fun c => c.2 != blank

/-- n bytes from an address up. -/
def readN (m : Memory) (a : Nat) : Nat → List Byte
  | 0 => []
  | n + 1 => read m a :: readN m (a + 1) n

/-- Bytes from an address up. -/
def writeN (m : Memory) (a : Nat) : List Byte → Memory
  | [] => m
  | b :: t => writeN (write m a b) (a + 1) t

end Mem

/-- The n bytes of a value, the first byte lowest (00 R2). -/
def leBytes : Nat → Nat → List Byte
  | 0, _ => []
  | n + 1, v => BitVec.ofNat 8 v :: leBytes n (v / 256)

/-- Bits [hi:lo] of a value. -/
def fld (v hi lo : Nat) : Nat := v / 2 ^ lo % 2 ^ (hi + 1 - lo)
/-- Bit i of a value. -/
def bitAt (v i : Nat) : Bool := v / 2 ^ i % 2 == 1
/-- v with bits [hi:lo] replaced. -/
def setFld (v hi lo x : Nat) : Nat := v - fld v hi lo * 2 ^ lo + x % 2 ^ (hi + 1 - lo) * 2 ^ lo
/-- A count that stops at all ones of w bits. -/
def satAdd (w : Nat) (a b : Nat) : Nat := if a + b < 2 ^ w then a + b else 2 ^ w - 1
def b2n (b : Bool) : Nat := if b then 1 else 0
def w64 (n : Nat) : W64 := BitVec.ofNat 64 n
def w32 (n : Nat) : W32 := BitVec.ofNat 32 n

/-- A w-bit result written to a 64-bit register under R74 and R50: `.s` types (even codes) sign-extend, `.n` types and
floating-point types zero-extend. -/
def extTy (ty : Nat) (w : Nat) (raw : Nat) : W64 :=
  let r := raw % 2 ^ w
  if ty ≤ 7 && ty % 2 == 0 && r ≥ 2 ^ (w - 1) then w64 (r + 2 ^ 64 - 2 ^ w) else w64 r

/-- Replace the element at a position of a list. -/
def setAt {α : Type} (l : List α) (i : Nat) (a : α) : List α := l.set i a

/-- Remove the element at a position of a list. -/
def removeAt {α : Type} (l : List α) (i : Nat) : List α := l.eraseIdx i

end Sys2Proof.Machine
end

