-- ==== Sys2Proof/Machine/State.lean ====
section
/-!
DEFINITION. The state of the package, as plain data: every piece of state the manual names, grouped by the unit that
holds it, and `State.reset`. INVENTORY.md, under State, lists the fields with their rules.
-/
namespace Sys2Proof.Machine

/-! ## The control processor (04, 05, 19) -/

/-- Registers that a block's commit replaces: Table 04.1, Table 04.2, R75, Table 19.1 and the converter counts of R51.
x0 and p0 are never listed (R54). -/
structure Regs where
  x : Sparse W64
  p : Sparse W32
  v : Sparse Line
  lcnt : W64
  lbeg : W64
  lend : W64
  lact : Bool
  tcause : W64
  tval : W64
  tblock : W64
  tstat : BitVec 6
  tvec : W64
  tscr : W64
  tmask : BitVec 4
  colour : BitVec 8
  /-- Converter counts, kind 0 to 3 (R51). -/
  counts : Sparse W32
  /-- Registers marked by an uncorrectable error, file × 64 + number (27 R376). -/
  bad : Sparse Bool
  /-- Scalar registers that wait for the entry number of an RARM of the block, with its place among the held effects (09, RARM). -/
  arms : Sparse Nat
deriving DecidableEq, Repr

/-- A stream of a core (10 R180 to R188). The position is Table 10.7, the descriptor Table 10.2. -/
inductive StreamState where
  | unbound | bound | reserved | running | closed
deriving DecidableEq, Repr

/-- A done action (R187): a flag descriptor, or a token into a port's entry side, at a scope. -/
structure Done where
  tok : Bool
  scope : Nat
  /-- X[a] of SDONE: the flag descriptor (Table 06.3), or the port. -/
  arg : W64
deriving DecidableEq, Repr

/-- A done action that a tile's end has made due: the action, the tile, the number of tiles completed since the start, and the
colour, context and slot of its token. -/
structure DoneDue where
  act : Done
  tile : Nat
  k : Nat
  colour : BitVec 8
  context : BitVec 10
  slot : Nat
deriving DecidableEq, Repr

structure Stream where
  st : StreamState
  desc : BitVec 256
  bind : W64
  tile : Nat
  i3 : Nat
  i2 : Nat
  i1 : Nat
  i0 : Nat
  tiles : Nat
  context : BitVec 10
  colour : BitVec 8
  fault : Bool
  lost : Nat
  done : Option Done
  /-- Level of the accesses: S is true (R268). -/
  lvlS : Bool
  /-- The section that reserved it, if any. -/
  inSect : Option Nat
  /-- RSAVE `.gate`: close at the end of the tile (19 R298). -/
  gate : Bool
  /-- Tiles completed since the start (R187). -/
  ended : Nat
  /-- Done actions that are due, oldest first. -/
  due : List DoneDue
  /-- Held by SBAR `.hold`. -/
  hold : Bool
  /-- The reply of another device to its read: the home, the word and its poison (17 R262). -/
  got : Option (Nat × W32 × Bool)
  /-- A port read token not yet at its entry side (R388). -/
  out : Option Token
  /-- The port of that token; a new binding leaves it. -/
  outPort : Nat
  /-- Words gathered for an island row, with the poison of each. -/
  row : List (W32 × Bool)
deriving DecidableEq, Repr

/-- The state of a weight slot (Table 13.1). -/
inductive SlotState where
  | empty | loaded | poisoned | faulted
deriving DecidableEq, Repr

structure WSlot where
  ty : BitVec 5
  sp : Bool
  sb : W32
  st : SlotState
  /-- The lines as read from the crown, values then metadata, bytes in crown order. -/
  image : List Byte
deriving DecidableEq, Repr

/-- An attachment of a stream to the island (R220). -/
structure Attach where
  acc : Nat
  w : Nat
  ty : BitVec 5
  start : Nat
  slot : Nat
  emit : Bool
deriving DecidableEq, Repr

/-- A row of activations that has arrived at the island from an attached stream, with the attachment it arrived under and the number of
queued commands that entered before it and are not yet performed (13 R214, R220). -/
structure IslandRow where
  stream : Nat
  att : Attach
  after : Nat
  words : List (W32 × Bool)
  tile : Nat
  r : Nat
  last : Bool
  colour : BitVec 8
  context : BitVec 10
deriving DecidableEq, Repr

/-- A page of an area that a command checked at execute: its virtual page number, the home of the page, the GDDR-7 key and
whether it is presence-tagged. -/
structure Page where
  vpage : Nat
  home : Nat
  key : Nat
  pres : Bool
deriving DecidableEq, Repr

/-- A command of the island queue (R214, 19 R298). -/
inductive IslandCmd where
  | wload (w : Nat) (off : Nat) (sb : W32) (ty : BitVec 5) (sp mz : Bool)
  | mscl (acc start count off : Nat)
  | mma (acc w start count rows sa : Nat) (ty : BitVec 5)
  | attach (stream : Nat) (a : Attach)
  | aclr (acc start count : Nat)
  | clrStat
  | ardPad (acc start count off : Nat)
  | awrV (acc row half : Nat) (v : Line)
  | awrPad (acc start count off : Nat)
  /-- ASAVE `.save`: an accumulator to an area at a virtual address. -/
  | save (acc : Nat) (pages : List Page) (va : Nat)
  /-- ASAVE `.rest` and RREST: accumulators, each with the address of its area. -/
  | rest (accs : List (Nat × Nat)) (pages : List Page)
  /-- RSAVE `.save`: the masks, the stream records as captured at delivery, and then the accumulators. -/
  | saveRec (mask : Nat) (recs : List (Nat × List W64)) (pages : List Page) (va : Nat)
deriving DecidableEq, Repr

/-- An emission in progress (R221): the stream, the accumulator and its rows, the token fields, and for each of the eight
elements the row and column that it takes next. -/
structure Emission where
  stream : Nat
  acc : Nat
  start : Nat
  stop : Nat
  slot : Nat
  tile : Nat
  colour : BitVec 8
  context : BitVec 10
  places : List (Nat × Nat)
deriving DecidableEq, Repr

structure Island where
  /-- Accumulator values, key acc × 8192 + row × 64 + column; unlisted is +0. -/
  acc : Sparse W32
  /-- Row poison bits, key acc × 128 + row. -/
  pois : Sparse Bool
  slots : Sparse WSlot
  /-- The shadow of each slot's type and sparse flag; none is an empty slot. -/
  shadow : Sparse (BitVec 5 × Bool)
  queue : List IslandCmd
  attach : Sparse Attach
  mzgroups : Nat
  emits : List Emission
  /-- Bytes of another device that the oldest command has received, with their poison (17 R262). -/
  remote : Sparse (Byte × Bool)
  /-- Rows that have arrived, in order of arrival (R214). -/
  rows : List IslandRow
  /-- Crown lines the first queued WLOAD of a slot has read so far, slot × 2^16 + line, with their poison (R215). -/
  ahead : Sparse (List Byte × Bool)
deriving DecidableEq, Repr

/-- A command of the draught engine (06 R112): rows of (source, destination) with the page homes and keys it checked. -/
structure EngCmd where
  /-- Serial number given at delivery (18 R276: what a TLBI waits for). -/
  id : Nat
  src : W64
  dst : W64
  sstride : Int
  dstride : Int
  rowbytes : Nat
  rows : Nat
  fe : Bool
  scope : Nat
  flag : W64
  colour : BitVec 8
  lvlS : Bool
  /-- Translations checked at execute. -/
  pages : List Page
  /-- Payload bytes already moved, by their place in the payload. -/
  moved : List Nat
  /-- Source bytes received from another device, by home address, and whether a remote read is on its way. -/
  remote : Sparse Byte
  asked : Bool
  /-- Bytes of a remote read that was abandoned count as poisoned (24 R333). -/
  lost : List Nat
deriving DecidableEq, Repr

/-- A line copy of an L1 (06 R100, 17 R251, R252). -/
structure L1Line where
  data : Line
  dirty : BitVec 128
  /-- Poison markers of the line's 8-byte units. -/
  marks : BitVec 16
  /-- Cycle of the first store that made it dirty. -/
  since : Nat
  /-- GDDR-7 key of the access that filled it. -/
  key : Nat
  /-- A write-back of it is on its way to the home. -/
  sent : Bool
deriving DecidableEq, Repr

/-- A TLB entry (18 R274): colour, virtual base, size in bytes, the leaf, and its level. -/
structure TlbEntry where
  colour : BitVec 8
  base : Nat
  size : Nat
  pte : W64
deriving DecidableEq, Repr

/-- A walk-cache entry: the physical address of a table entry and its content. -/
abbrev WalkEntry := Nat × W64

/-- Where a store goes (17 R252): the pad, the pad with full-empty bits set full, the L1, the home, a register page, or
another device. -/
inductive StoreHow where
  | pad | padFull | cached | home | reg | remote
deriving DecidableEq, Repr

/-- Who waits for a presence answer. -/
inductive Requester where
  | core (n : Nat)
  /-- The completion action of a section (09 R174). -/
  | completion (n entry : Nat)
deriving DecidableEq, Repr

inductive PresKind where
  | take | put | rdf
deriving DecidableEq, Repr

/-- A presence request at a bank (07 R126). -/
structure PresReq where
  who : Requester
  kind : PresKind
  addr : Nat
  data : W64
deriving DecidableEq, Repr

/-- A bank operation (07 R133). -/
inductive BankKind where
  | amo (op : Nat) (ty : Nat) (b : W64)
  | amof (op : Nat) (ty : Nat) (b : W64)
  | cas (ty : Nat) (old new : W64)
  | bupd (op : Nat) (ty : Nat) (v : Line) (mask : W32)
  | bfill (len : Nat) (pat : W64) (tags : Nat)
  | clrp
  | stsc (ty : Nat) (v : W64)
  | ldsc (ty : Nat)
deriving DecidableEq, Repr

/-- An operation on its way to its bank: the core, the register its answer goes to, the home address, the virtual
address for a poisoned reply, and whether it needs the trade token. -/
structure BankOp where
  core : Nat
  reg : Option Nat
  addr : Nat
  va : W64
  sc : Bool
  /-- The operation is an acquire: the core's later accesses wait for it (17 R258). -/
  acq : Bool
  kind : BankKind
deriving DecidableEq, Repr

/-- An answer on its way back to X[d] (07 R133), or a poisoned one. -/
structure Reply where
  reg : Nat
  val : W64
  poison : Bool
  va : W64
deriving DecidableEq, Repr

/-- A command to the vane unit (23 R328): VNSET or STEERSET. -/
inductive VaneCmd where
  | cfg (v : Nat) (w : W64)
  | prb (v i : Nat) (w : W64)
  | vec (slot : Nat) (pages : List Page) (va : Nat)
  | steer (slot : Nat) (pages : List Page) (va : Nat)
  | steerClr (slot : Nat)
deriving DecidableEq, Repr

/-- A TLBI command (18 R276): `.all`, `.col` or `.range`; the colour, or none for every colour of the partition; the range;
and the flag. -/
structure TlbiCmd where
  kind : Nat
  colour : Option (BitVec 8)
  base : Nat
  len : Nat
  flag : W64
deriving DecidableEq, Repr

/-- A delivered TLBI whose flag is still to be written (18 R276), with what was issued before the delivery and uses a removed
translation: engine commands by core and serial number (06 R117), bank operations (all of them for the issuing core, whose flag
is a release), requests of M-elements by element and serial number, commands of islands and vane units, and remote reads by
tag. -/
structure TlbiWait where
  /-- The command as it was delivered. -/
  cmd : TlbiCmd
  /-- Blocks in progress that hold effects translated before the delivery: core and number. -/
  blks : List (Nat × Nat)
  /-- Presence requests on their way or deferred. -/
  pres : List PresReq
  cmds : List (Nat × Nat)
  ops : List BankOp
  reqs : List (Nat × Nat)
  isl : List (Nat × IslandCmd)
  vanes : List (Nat × VaneCmd)
  reads : List Nat
  /-- Dirty lines of other cores, which hold stores that are not performed yet (17 R252): core, line, and the cycle since which it is dirty. -/
  lines : List (Nat × Nat × Nat)
deriving DecidableEq, Repr

/-! ## The fabric (08, 09, 22, 23) -/

/-- A key of a tag directory or of a matching store: (colour, context, iteration), or HELD where `iter` is none (08 R143, 09
R153). -/
structure Key where
  colour : BitVec 8
  context : BitVec 10
  iter : Option (BitVec 14)
deriving DecidableEq, Repr

/-- A token in a store entry, with the stamp of its arrival (09 R153, R169). -/
structure Arrived where
  tok : Token
  stamp : Nat
deriving DecidableEq, Repr

/-- What a vane element works with for one row (23 R327): the state of its unit when the row's first token was buffered. -/
structure VaneView where
  cfg : W64
  prb : List W64
  probes : List (Sparse (BitVec 16) × Bool)
  steer : List (Sparse (BitVec 16) × Bool)
deriving DecidableEq, Repr

/-- A step of a draft tree in resolution (22 R308): its nodes and number; the path still to retire; the nodes retired; whether an eos
was among them; and the nodes refused. -/
structure TreeRun where
  nodes : Nat
  step : Nat
  todo : List Nat
  done : List Nat
  eos : Bool
  refused : Nat
deriving DecidableEq, Repr

/-- What an operation keeps for the row of a tag between firings. -/
inductive RowState where
  | none
  /-- ACC (09): the partial, the values so far, and the OR of eos and poison. -/
  | acc (sum : W32) (vals : List W32) (eos poison : Bool)
  /-- CUMS (22 R313): the running sum, and whether a value of it was poisoned (19 R293). -/
  | cums (sum : W32) (poison : Bool)
  /-- TOPK (22 R312): values with their positions, best first; the number of values seen. -/
  | topk (best : List (W32 × Nat)) (n : Nat) (eos poison : Bool)
  /-- ROUTE (22 R310): the row's policy. -/
  | route (policy : Nat)
  /-- SPADD (22 R311): the next position, the last index, whether the list's eor was seen, whether the row is poisoned. -/
  | spadd (k : Nat) (last : Option Nat) (ended bad : Bool)
  /-- SPADD after the row's eor: the rest of the list is dropped. -/
  | spDrain
  /-- ADPT (22 R316): the next value's place in the row. -/
  | adpt (k : Nat)
  /-- VANE (23 R323): the tokens held; once the row is whole, the number of the read that another device is to answer for it, and the
  bytes received, each with its poison (17 R262). -/
  | vane (toks : List Token) (view : VaneView) (ask : Option Nat) (far : Sparse (Byte × Bool))
  /-- VANE: a row whose first token passed with en = 0 passes to its end (23 R327). -/
  | vanePass
  /-- COMMIT (22 R306): the positions of the tokens that have arrived. -/
  | commit (ps : List Nat)
  /-- COMMIT: node 0 of a step that is being resolved (22 R308). -/
  | tree (r : TreeRun)
deriving DecidableEq, Repr

/-- An entry of the matching store (09 R153): for each of the four inputs the tokens in arrival order; the stamp at which
its oldest set became ready (R154); and the row state of the tag. -/
structure Entry where
  key : Key
  toks : List (List Arrived)
  ready : Option Nat
  row : RowState
deriving DecidableEq, Repr

/-- A token that an element still has to send: on out1, and whether it is a count token (03 R47). -/
structure Pend where
  out1 : Bool
  count : Bool
  /-- A key to be born when it leaves (08 R143). -/
  birth : Bool
  tok : Token
deriving DecidableEq, Repr

/-- An issue sequence of a LOOP (09, LOOP): the tag of the matched tokens, the count, the next k, and the tokens. -/
structure LoopRun where
  count : Token
  seed : Token
  k : Nat
deriving DecidableEq, Repr

/-- LOOP state of a (colour, context) (08 R141): the next tag, and the live tags. -/
structure LoopTags where
  colour : BitVec 8
  context : BitVec 10
  next : Nat
  live : List Nat
deriving DecidableEq, Repr

/-- An open group of a packing CVT (03 R52). -/
structure Group where
  first : Token
  lanes : List Nat
  /-- The count kind of each lane (03 R45): the lanes count where the group's token is emitted. -/
  kinds : List (Option Nat)
  poison : Bool
deriving DecidableEq, Repr

/-- The configuration slot of an element: the op and fields, the STAB table, the region, the generation (09 R159), the
matching store's entries, and what the operation keeps. -/
structure ElemSlot where
  op : BitVec 8
  cfg : ElemCfg
  table : List W32
  region : Nat
  gen : BitVec 6
  entries : List Entry
  pend : List Pend
  loops : List LoopRun
  loopTags : List LoopTags
  /-- By colour. -/
  groups : Sparse Group
  /-- Converter count sets (03 R47), colour × 4 + kind; the slot's own set is colour 256, for which the manual names nothing that
  counts and no moment at which it is emitted: DESIGN CHOICE, unsafe (log 78): nothing counts there. -/
  counts : Sparse W32
  /-- Fault holds (09 R168). -/
  holds : List Key
  /-- eos tokens of a one-shot region's section accepted by each input (09 R160). -/
  eosIn : List Nat
deriving DecidableEq, Repr

/-- What an M-element's request does at its home (09 R177, 22 R316). -/
inductive MKind where
  | load
  | store (data : W32)
  | rmw (f : Nat) (data : W32)
  | adpt (k : Nat)
deriving DecidableEq, Repr

/-- A request of an M-element, in firing order. -/
structure MReq where
  /-- Its serial number in the package. -/
  id : Nat
  slot : Nat
  region : Nat
  toks : List Token
  kind : MKind
  scope : Nat
  home : Nat
  key : Nat
  va : W64
  /-- Cycle of the issue; the timer runs where the home lies beyond the element's own core (09 R167). -/
  time : Nat
  timed : Bool
  /-- The reply of another device: its bytes, and whether they are poisoned. -/
  got : Option (List Byte × Bool)
  /-- The results once performed, still to be sent. -/
  res : Option (List (Bool × Token))
  /-- Its colour was purged: nothing is emitted (09 R166). -/
  dead : Bool
  /-- It timed out: it no longer counts as outstanding (09 R167). -/
  lost : Bool
deriving DecidableEq, Repr

/-- An element (09 R151, R152). -/
structure Elem where
  slots : Sparse ElemSlot
  queues : List (List Token)
  /-- Link registers toward this element, by source code (Table 02.13). -/
  links : Sparse Token
  /-- The slot that fired last. -/
  last : Nat
  reqs : List MReq
deriving DecidableEq, Repr

/-- The state of a region handle (Table 09.5). -/
inductive RegionState where
  | empty | loading | resident | torn | refused
deriving DecidableEq, Repr

/-- A colour's record in a region (08 R143, R145, Table 08.5, 09 R164). -/
structure RColour where
  quota : Nat
  closed : Bool
  purging : Bool
  /-- COLQ.open was delivered during the purge. -/
  reopen : Bool
  purged : Nat
  /-- The doldrums counter, and whether it stays at 0 until COLQ.open. -/
  stall : Nat
  stopped : Bool
  /-- Sweeps in a row that found nothing of the colour (09 R163). -/
  quiet : Nat
deriving DecidableEq, Repr

/-- An element of a region image: its number, op, configuration and STAB table. -/
structure ImageElem where
  elem : Nat
  op : BitVec 8
  cfg : ElemCfg
  table : List W32
deriving DecidableEq, Repr

/-- A region image as checked (09 R157, R158): its address, its header's fields, the quotas, and the elements in record order. -/
structure Image where
  at_ : W64
  oneShot : Bool
  dexp : Nat
  rexp : Nat
  quotas : List (Nat × Nat)
  elems : List ImageElem
deriving DecidableEq, Repr

/-- A load (09 R179, 11 R198): the issuing core, the target core, the handle, force, whether the partition's loader made it, and
the image. -/
structure LoadCmd where
  core : Nat
  target : Nat
  handle : Nat
  force : Bool
  loader : Bool
  /-- The loader loads it for a pinned launch (11 R199). -/
  pin : Bool
  img : Image
deriving DecidableEq, Repr

/-- A region (09 R157 to R166). -/
structure Region where
  st : RegionState
  part : Nat
  gen : BitVec 6
  oneShot : Bool
  dexp : Nat
  rexp : Nat
  colours : Sparse RColour
  elems : List ImageElem
  /-- Elements not yet written by the loader, and elements that have freed themselves. -/
  left : List Nat
  freed : List Nat
  /-- The tag directory: live keys, each with the sweeps in a row that found nothing of it. -/
  keys : List (Key × Nat)
  supp : Nat
  stale : Nat
  /-- Sweeps in a row that found nothing (09 R163), and sweeps since the load, two at most: a colour without quota is never
  inside, so two sweeps report it calm. -/
  quiet : Nat
  sweeps : Nat
  /-- A one-shot region has been armed; its section's colour, context and tile count; its section has ended. -/
  armed : Bool
  inSect : Option (Nat × Nat × Nat)
  ended : Bool
  /-- Loaded by the partition's loader (11 R198): the image's address and target; and whether a pinned launch loaded it. -/
  loader : Option (W64 × Nat)
  pin : Bool
  /-- Serial number of its last use by a launch. -/
  used : Nat
deriving DecidableEq, Repr

/-- A context number in use (08 R140): the caller's context and iteration, the opener's region and colour, whether it is
freeing, and the sweeps in a row that found nothing of it. -/
structure Ctx where
  callerCtx : BitVec 10
  callerIter : BitVec 14
  region : Nat
  colour : BitVec 8
  freeing : Bool
  quiet : Nat
deriving DecidableEq, Repr

/-- A command in the loader's queue of a grid (09 R179): a load, or an injection with X[b] and X[c] of RINJ. -/
inductive LoaderCmd where
  | load (c : LoadCmd)
  | inject (h : Nat) (b c : W64)
deriving DecidableEq, Repr

/-- A section descriptor's snapshot (Table 09.8), sixteen dwords at most. -/
abbrev SectDesc := List W64

/-- A pair of nodes with the colour of its push (15 R234). -/
structure Pair where
  a : W64
  b : W64
  colour : BitVec 8
  /-- A launch pair: b is zero. -/
  launch : Bool
  /-- The first poisoned byte of its ring entry, when it was refilled from one (19 R291, R292). -/
  mark : Option W64 := none
deriving DecidableEq, Repr

/-- A held effect of a block (04 R57), delivered in program order at commit. -/
inductive Held where
  /-- Bytes to a home address. `how` says through which path (17 R252); `key` is the GDDR-7 key. -/
  | store (home : Nat) (bytes : List Byte) (how : StoreHow) (key : Nat)
  /-- A release wider than `.core` (17 R258, R263): every dirty line is written back, and the delivery waits until every
  earlier write of the core is performed, with `.system` the acknowledgements included. -/
  | release (system : Bool)
  /-- A release or acquire at `.core`: the delivery waits until every earlier write of the core is performed (17 R258). -/
  | order
  /-- An acquire by a committed bank operation or SC form: the delivery waits until it is performed, then drops the
  copies (07 R129, R130, 17 R258). -/
  | acquire
  /-- CFLUSH or CINV of a range of addresses, at the colour and level of its block (06 R108). -/
  | flush (colour : BitVec 8) (lvlS : Bool) (start len : Nat) (all inv : Bool)
  | bank (op : BankOp)
  | engine (c : EngCmd)
  | stream (i : Nat) (bind : Option (BitVec 256 × W64))
  | sstart (mask : Nat) (resume : Bool) (word : W64) (lvlS : Bool)
  | sclose (mask : Nat)
  | spos (i : Nat) (w : W64)
  | sdone (i : Nat) (d : Option Done)
  | gate (mask : Nat)
  | restStream (i : Nat) (rec : List W64)
  | island (c : IslandCmd)
  | wbits (w1c : BitVec 4)
  | post (core : Nat) (bits : BitVec 4)
  | tlbi (c : TlbiCmd)
  | colq (h : Nat) (colour : BitVec 8) (isOpen : Bool)
  | purge (h : Nat) (colour : BitVec 8)
  | load (c : LoadCmd)
  /-- RARM: the register that takes the entry number, the effect's place, the descriptor and its address. -/
  | arm (d : BitVec 6) (k : Nat) (desc : SectDesc) (addr : W64) (lvlS : Bool)
  | tear (h : Nat) (force : Bool)
  | inject (h : Nat) (b c : W64)
  | vane (c : VaneCmd)
  /-- MSEND: the class, the destination word, the pad offset and length of the payload (24 R340, R343). -/
  | send (cls : Nat) (dst : W64) (off len : Nat) (colour : BitVec 8)
  | mask (set : Bool) (m : BitVec 16)
  | ringCfg (w : W64)
  /-- MRECV.pop: whether it took a slot, and whether its block had not configured the ring anew before it. -/
  | ringPop (got keep : Bool)
  | ringFree
  /-- NALLOC took a node of the pool: its address and home, and the header that its commit writes. -/
  | nalloc (node : W64) (home key : Nat) (hdr : W64)
  | nfree (node : W64) (colour : BitVec 8) (lvlS : Bool)
  | npush (p : Pair)
  /-- NLINK: two ports, each with whether it is in wire role (15 R241). -/
  | nlink (a b : Nat × Bool) (colour : BitVec 8) (lvlS : Bool)
  | nrel (lvlS : Bool)
  /-- NPOP took an entry of the bag. -/
  | npop (p : Pair)
  | nruleSet (base : W64) (size : Nat)
  | nruleInv
  /-- NST writes a node word at its home. -/
  | node (home : Nat) (v : W64) (key : Nat)
deriving DecidableEq, Repr

/-- A wait form in progress (04 R61, R63). -/
inductive Wait where
  | none
  | ldf (d : Nat) (home n ty : Nat) (clr : Bool)
  | waita (d : Nat) (home ty cond : Nat) (b : W32) (acq : Bool)
  | pres (kind : PresKind) (d : Nat) (addr : Nat) (va : W64) (ty : Nat) (acq : Bool)
  | rcalm (fn : Nat) (d : Nat) (h : Nat) (colour : BitVec 8) (entry : Nat)
  | sbar (mask : Nat) (hold : Bool) (sys : Bool)
  /-- LDSC waits for the trade token (not a wait form; it cannot be cancelled). -/
  | ldsc (d : Nat) (ty : Nat) (addr : Nat) (va : W64)
deriving DecidableEq, Repr

/-- The answer that reached a waiting block: a value, a poisoned answer, a refusal (presence overflow), or a granted
cancel. -/
inductive Answer where
  | none
  | val (v : W64)
  | poisoned
  | refused
  | cancelled
deriving DecidableEq, Repr

/-- The exit a block has taken (04 R60, R62). -/
inductive Exit where
  | none
  | goto (t : W64)
  | sysc (n : Nat)
  | eret
  | halt
deriving DecidableEq, Repr

/-- The block in progress (04 R56 to R64). -/
structure Blk where
  isOpen : Bool
  hdr : W64
  rule : Bool
  words : List W64
  idx : Nat
  exit : Exit
  w : Regs
  held : List Held
  wait : Wait
  ans : Answer
  /-- A cancel has been sent (R63). -/
  cancel : Bool
  /-- Room for its held effects has been granted before its wait form was issued (R64). -/
  granted : Bool
  /-- The block has committed and its held effects are being delivered; w then holds the registers as the block found them. -/
  closing : Bool
  /-- Where the core goes after the delivery. -/
  next : W64
  /-- Remote bytes received for the instruction that waits for them, or for a fetch, with their poison; and the place of that
  instruction (17 R251, R262). -/
  remote : Sparse (Byte × Bool)
  remoteAt : Nat
  /-- Lanes that the vector load at `idx` has read ahead of the others, by virtual address (05 R81). -/
  lanes : Sparse W32
deriving DecidableEq, Repr

inductive RunState where
  /-- Held in reset (26 R359). -/
  | reset
  | running
  | halted
  /-- In bag dispatch (15 R237). -/
  | dispatch
  /-- Stopped by a double fault (19 R284). -/
  | stopped
deriving DecidableEq, Repr

/-- The current pair of a core (15 R238, R240): the pair, n1 in front as dispatch placed it, and the word addresses of the
auxiliary ports that its claim holds. -/
structure Claim where
  pair : Pair
  ports : List Nat
  /-- Principal ports that a delivered join has written, or a delivered NFREE has cleared (R241). -/
  done : List Nat
deriving DecidableEq, Repr

/-- A receive ring (24 R343). -/
structure Ring where
  cfg : W64
  head : Nat
  count : Nat
  taken : Bool
deriving DecidableEq, Repr

/-- The vane unit of a core (23 R318). -/
structure VaneUnit where
  /-- Probe bank, key slot × 4096 + k. -/
  probe : Sparse (BitVec 16)
  probeBad : Sparse Bool
  steer : Sparse (BitVec 16)
  steerBad : Sparse Bool
  cfg : Sparse W64
  prb : Sparse W64
  cnt : Sparse W64
  queue : List VaneCmd
  /-- Bytes of another device that the oldest command has received, with their poison. -/
  remote : Sparse (Byte × Bool)
deriving DecidableEq, Repr

/-- An entry of a core's section table (09 R171 to R175). -/
structure Section where
  used : Bool
  /-- Status of the last section that held the entry; 4 where none has (RCALM `.sect`). -/
  status : Nat
  desc : SectDesc
  /-- Address of the descriptor. -/
  addr : W64
  started : Bool
  /-- eos still to be counted, per sink. -/
  sinks : List (Nat × Nat)
  lvlS : Bool
  /-- The status with which it has ended early (R175). -/
  ending : Option Nat
  /-- Its DONE node (15 R230). -/
  node : Option Nat
  /-- The status it completes with once its completion PUT is performed (R174); the PUT is on its way or at its bank; the
  cycle of its last sending. -/
  done : Option Nat
  /-- Home of the completion word. -/
  putHome : Nat
  putting : Bool
  sentAt : Nat
  /-- The launch that armed it (11 R200): partition and number; and the ingress port that feeds it. -/
  launch : Option (Nat × Nat)
  /-- Arming order. -/
  age : Nat
deriving DecidableEq, Repr

/-- A trap to be taken (19 R283). -/
structure Trap where
  code : Nat
  lvl : Nat
  async : Bool
  tval : W64
  tblock : W64
deriving DecidableEq, Repr

structure Core where
  run : RunState
  /-- Level S. -/
  lvlS : Bool
  pc : W64
  regs : Regs
  tpend : BitVec 4
  owner : BitVec 16
  blk : Blk
  /-- The number of the block in progress. -/
  blkNo : Nat
  /-- Addresses of poisoned replies whose traps are still to be taken, oldest first (19 R292). -/
  poisonTrap : List W64
  /-- A trap that waits for outstanding answers (07 R133, 19 R283). -/
  pendTrap : Option Trap
  /-- The core is in bag dispatch or runs a rule body (19 Table 19.4, pdisp). -/
  inDisp : Bool
  /-- A trap has been entered and its handler block is still to be read. -/
  inTrap : Bool
  /-- Remote bytes that a load of the block waits for (17 R262): the home, the length, and the virtual address. -/
  rreq : Option (Nat × Nat × W64)
  /-- A remote read that dispatch has given up, by its home (15 R238, 24 R333). -/
  gaveUp : Option Nat
  /-- An access of the block must walk, and waits until every write that an earlier block sent is performed (21 R301). -/
  walkWait : Bool
  replies : List Reply
  l1 : Sparse L1Line
  ifetch : Sparse Line
  tlb : List TlbEntry
  /-- Control-block cache (06 R109): address and snapshot. -/
  cbc : List (Nat × BitVec 256)
  /-- The colour under which each entry of the control-block cache was read, by its address (18 R276). -/
  cbcColour : Sparse (BitVec 8)
  eng : List EngCmd
  streams : Sparse Stream
  island : Island
  sections : Sparse Section
  vane : VaneUnit
  /-- Bag (15 R234): the hardware entries, and the entries in the spill ring as prod and cons counts. -/
  bag : List Pair
  /-- Pairs that the device pushes and that wait for room (15 R234). -/
  bagWait : List Pair
  bagctl : W64
  bagspill : W64
  spillProd : Nat
  spillCons : Nat
  nodehead : W64
  bagcnt : W64
  claim : Option Claim
  /-- Rule table of the core's context: base and n (15 R231). -/
  rtab : Option (W64 × Nat)
  /-- Cached rule entries: kinds, block and mask. -/
  rcache : List (Nat × W64 × W64)
  mask : BitVec 16
  ring : Ring
  tlbi : List TlbiWait
deriving DecidableEq, Repr

/-! ## Floor banks (07) -/

structure Bank where
  deferred : List PresReq
  trade : Bool
  joined : Bool
  /-- Joins at the token's next pass (R129). -/
  joining : Bool
  scq : List BankOp
  stall : Nat
  drop : Nat
  ovf : Nat
deriving DecidableEq, Repr

/-! ## Memory outside the cores (17, 27) -/

/-- A line an L2 slice holds (27 R375): plaintext, dirty or clean, with the markers of its 32-byte sectors. -/
structure L2Line where
  data : Line
  dirty : Bool
  marks : BitVec 4
  /-- GDDR-7 key of the access that brought it in or last wrote it. -/
  key : Nat
  /-- Its place: (slice × 32,768 + set) × 16 + way. -/
  place : Nat
deriving DecidableEq, Repr

/-- How a GDDR-7 line stands at its channel (10 R189): the key it was last written under, and the bytes that were
re-encrypted under a key they were not written with. -/
structure LineTag where
  key : Nat
  junk : BitVec 128
deriving DecidableEq, Repr

/-- CHSTATc (Table 27.2). -/
structure Chan where
  ce : Nat
  ue : Nat
  wbdrop : Nat
deriving DecidableEq, Repr

/-! ## The tree network (24) -/

/-- Who makes a remote access (17 R262). -/
inductive Who where
  | core (n : Nat)
  | engine (n : Nat)
  | stream (n i : Nat)
  | vane (n : Nat)
  | island (n : Nat)
  /-- An M-element's request, by its number in the element. -/
  | elem (e k : Nat)
  /-- The loader and scheduler of partition p, for a launch of core n (11 R198, R200). -/
  | loader (p id n : Nat)
  /-- A row of a vane element that is whole, by the number of its read (23 R323). -/
  | row (e sl k : Nat)
  /-- A bank unit or slice that answers a read. -/
  | bank (b : Nat)
deriving DecidableEq, Repr

/-- A packet: the dwords of its header (Table 24.2) and its payload; or a channel frame, with its header (Table 25.3), its token slots
and the priority of its end (25 R348). `hops` counts the bridges and ports it has passed; `again` marks a retransmission. -/
structure Packet where
  hdr : List W64
  payload : List Byte
  frame : Bool
  fprio : Nat := 0
  /-- A credit frame: its token was refused, not admitted (25 R350; log 55). -/
  fgone : Bool := false
  hops : Nat
  again : Bool
deriving DecidableEq, Repr

/-- A packet as it left through an Ethernet port (25 R353, R354): the port, the domain and the phase under which it is sealed, and its
packet delivery context: the peer device, the partition, and ordered delivery (ROD) or not (RUD). -/
structure Wire where
  port : Nat
  dom : Nat
  phase : Bool
  peer : Nat
  part : Nat
  rod : Bool
  pkt : Packet
deriving DecidableEq, Repr

/-- A packet in a retransmit buffer (R333): the cycle of its last transmission, how often it was sent (not yet, while it waits for one of
the 64 places or for its stream), and the destination word of an MSEND. -/
structure Sent where
  pkt : Packet
  who : Who
  time : Nat
  times : Nat
  word : W64 := 0
deriving DecidableEq, Repr

/-- The receive window of a stream (R334, R335): the oldest number not delivered, the numbers past it already delivered,
and the packets held behind a hole. -/
structure Window where
  oldest : Nat
  got : List Nat
  held : List (Nat × Packet)
deriving DecidableEq, Repr

/-- A hole (R335, R336): the sheared header, where it arrived, and whether its re-request has left. -/
structure ReReq where
  core : Nat
  hdr : List W64
  asked : Bool
deriving DecidableEq, Repr

/-- A remote read without its reply yet (R262, R333). -/
structure RRead where
  who : Who
  home : Nat
  len : Nat
  tag : Nat
  time : Nat
deriving DecidableEq, Repr

/-- The network's state. The maps are keyed by sender (core n is n, a bank unit or slice is 1024 and up) or by stream. -/
structure Net where
  /-- Packets and frames on their way, oldest first. -/
  flight : List Packet
  /-- Packets that left through an Ethernet port, oldest first. -/
  wire : List Wire
  /-- Packets delivered by their windows that are still to be performed, in order. -/
  due : List Packet
  sent : Sparse (List Sent)
  seqs : Sparse Nat
  windows : Sparse Window
  rereqs : List ReReq
  /-- Cycle of the last re-request, by destination core × 2^20 + source. -/
  paced : Sparse Nat
  reads : List RRead
  tag : Nat
deriving DecidableEq, Repr

/-! ## Channels and links (25) -/

inductive EndState where
  | closed | wait | opened | fault
deriving DecidableEq, Repr

/-- A channel end (Table 25.2). -/
structure ChanEnd where
  en : Bool
  st : EndState
  /-- A receive end (entry side). -/
  recv : Bool
  port : BitVec 4
  core : BitVec 10
  pcore : BitVec 10
  pdev : BitVec 10
  remote : Bool
  pchan : BitVec 6
  depth : BitVec 7
  prio : BitVec 2
  slot : BitVec 2
  tokens : Nat
  stale : Nat
  /-- The region that uses the side, with its generation, while the end is in WAIT or OPEN. -/
  region : Option (Nat × BitVec 6)
  /-- Cycle of the last ready frame, and whether one has left since WAIT was entered. -/
  readyAt : Nat
  readied : Bool
  /-- A send end that is OPEN: the receive end's depth, the colours with a quota there, the credits spent by colour, and the tokens
  sent and not yet admitted. -/
  window : Nat
  colours : BitVec 256
  spent : Sparse (List Token)
  /-- A receive end's places, by colour. -/
  places : Sparse (List Token)
deriving DecidableEq, Repr

/-- A secure domain of a port (Tables 25.5, 25.6), with its two keys. -/
structure Domain where
  key0 : Option (BitVec 256)
  key1 : Option (BitVec 256)
  tx : Bool
  rx0 : Bool
  rx1 : Bool
  stall : Bool
  txcount : Nat
  authfail : Nat
  /-- The accept bit of a phase was cleared while tx names it: its key goes once tx names the other (25 R354). -/
  drop0 : Bool
  drop1 : Bool
deriving DecidableEq, Repr

inductive LinkState where
  | untrained | trained | auth
deriving DecidableEq, Repr

/-! ## Partitions and trust (26) -/

/-- PARTn (Table 26.1). -/
structure Part where
  valid : Bool
  smask : BitVec 16
  chmask : BitVec 128
deriving DecidableEq, Repr

inductive VfState where
  | unlocked | locked | run | error
deriving DecidableEq, Repr

/-- VFn (Table 26.2). -/
structure Vf where
  waymask : BitVec 16
  ctxid : BitVec 16
  ingmask : BitVec 8
  part : BitVec 4
  st : VfState
  sess : Bool
  en : Bool
  /-- The start nonce of LOCK_INTERFACE_REQUEST (R367). -/
  nonce : BitVec 256
deriving DecidableEq, Repr

/-- A colour-table entry (Table 08.2). -/
structure Colour where
  valid : Bool
  part : BitVec 4
  vf : BitVec 6
  keyed : Bool
  root : BitVec 40
  epoch : BitVec 32
  key : Nat
deriving DecidableEq, Repr

/-- The SPDM requests of Table 26.4. -/
inductive SpdmReq where
  | getVersion | getCapabilities | negotiateAlgorithms | getDigests | getCertificate | challenge | getMeasurements | keyExchange
  | finish | heartbeat | keyUpdate | endSession | setCertificate | getCsr | chunkSend | chunkGet | vendorDefined
  /-- A message that Table 26.4 does not list. -/
  | other
deriving DecidableEq, Repr

/-- Who a response goes to: the port, the binding record's kind, and the function. -/
structure Peer where
  port : Nat
  kind : Nat
  vf : Nat
deriving DecidableEq, Repr

/-- What the security core sends: a response with its body, an error (busy, invalid request, unsupported request), the answer to a
management request, or a scrub receipt (26 R363 to R373). -/
inductive SpdmError where
  | busy | invalidRequest | unsupportedRequest
deriving DecidableEq, Repr
inductive TrustMsg where
  | response (dest : Peer) (req : SpdmReq) (body : List Byte)
  | error (dest : Peer) (req : SpdmReq) (e : SpdmError)
  | tdisp (vf : Nat) (ok : Bool) (body : List Byte)
  | answer (ok : Bool)
  /-- The value of a register that a management request reads. -/
  | value (v : W64)
  | receipt (session : Option Nat) (body : List Byte)
deriving DecidableEq, Repr

/-- An accepted request whose response is not sent yet: the certificate slot it names, if any, and the response (R371). -/
structure Pending where
  slot : Option Nat
  msg : TrustMsg
deriving DecidableEq, Repr

/-- A key exchange without its FINISH: the requester, whether its chain ends in the management trust anchor, and the shared secret
(26 R364). -/
structure Handshake where
  peer : Peer
  mgmt : Bool
  secret : BitVec 256
deriving DecidableEq, Repr

/-- The scrub of one colour, from its teardown until its receipt: the colour's table entry and the context measurement as they stood,
the device time of step 1, and what its TLBI waits for (26 R372, R373). -/
structure Scrub where
  colour : Nat
  was : Colour
  measure : BitVec 256
  t1 : W64
  wait : TlbiWait
deriving DecidableEq, Repr

/-- A function that is being stopped: who asked, and the colours whose scrub has not ended (26 R367). -/
structure Stop where
  vf : Nat
  managed : Bool
  scrubs : List Scrub
deriving DecidableEq, Repr

/-- The security core's attestation state (26 R363 to R373, 28 R386). -/
structure Trust where
  /-- Certificate chains and public keys by slot; they survive reset. -/
  chains : Sparse (List Byte)
  keys : Sparse (List Byte)
  /-- Slot writes accepted and deferred: the slot, the chain, or the key of a GET_CSR. -/
  deferred : List (Nat × Bool × List Byte)
  pending : List Pending
  /-- VENDOR_DEFINED_REQUESTs accepted in a session and not answered yet, oldest first: the requester (R367, 28 R386). -/
  calls : List Peer
  outbox : List TrustMsg
  hands : List Handshake
  /-- The link trust anchor that the package supervisor has installed (26 R366). -/
  anchor : Option (List Byte)
  /-- The port of the open management session. -/
  mgmt : Option Nat
  receiptSeq : Nat
  /-- Measurement of a context and its sealed ranges, in sealing order (R368). -/
  measure : Sparse (BitVec 256)
  ranges : Sparse (List (W64 × W64))
  /-- Sectors and channels on which a release scrub has completed since a core of the partition last had an owner (R356). -/
  cleanSectors : BitVec 16
  cleanChans : BitVec 128
  /-- GDDR-7 frames with a line that shows an uncorrectable error when it is overwritten (R372). -/
  failing : List Nat
  /-- Functions that are being stopped (R367, R372). -/
  stops : List Stop
deriving DecidableEq, Repr

/-- A partition's fault page and record counter (19 R287, R288). -/
structure FaultLog where
  base : W64
  prod : Nat
  cons : W32
  lost : Nat
  int : W64
  seq : Nat
deriving DecidableEq, Repr

/-- A partition's network page (24 Table 24.4): what is staged and what is installed. -/
structure NetPage where
  lull : Nat
  rehash : Bool
  smap : W64
  smapNew : W64
  hmask : Sparse W64
  hmaskNew : Sparse W64
  rcls : Sparse W64
  rhdl : Sparse W64
  shcnt : Sparse W64
deriving DecidableEq, Repr

/-! ## Launches (11) -/

/-- What became of a launch's entry body (11 R201, R202). -/
inductive Body where
  /-- None, or not pushed yet; waiting in a bag or running; committed; no rule body (15 R238). -/
  | none | pushed | done | invalid
deriving DecidableEq, Repr

/-- A launch of a partition, from its trigger to its completion. The fields of its record (Table 11.2), and how far it is. -/
structure Launch where
  id : Nat
  index : Nat
  colour : BitVec 8
  /-- 0 head record, 1 timed slot, 2 root write. -/
  trigger : Nat
  seq : Nat
  time : W64
  desc : List W64
  /-- The ingress port whose head record opened it. -/
  port : Option Nat
  running : Bool
  /-- Images handled so far, and the handles it uses. -/
  img : Nat
  uses : List Nat
  /-- The image entry it is at, once the loader has read it: image and target words (11 R198). -/
  entryAt : Option (W64 × W64)
  /-- The handle of a load it waits for, and the image's address and target (11 R198). -/
  waits : Option Nat
  want : W64 × Nat
  /-- Bytes that other devices have answered to the reads made for it, each with its poison (17 R262). -/
  far : Sparse (Byte × Bool)
  /-- It holds a section-table entry: the entry; then whether the section started; then its status. -/
  entry? : Option Nat
  started : Bool
  sect : Option Nat
  node : Option W64
  body : Body
  /-- The regions of the section that it armed (11 R193, R206). -/
  regs : List Nat
deriving DecidableEq, Repr

/-- A queued ingress record, with the binding of its port as it stood when the record arrived (11 R194, R207). -/
structure IngRec where
  w : W64
  core : BitVec 10
  eport : BitVec 4
deriving DecidableEq, Repr

/-- INGn (Table 11.5) without vf, which the VFn entries give (26 R357), and the port's queue of records (R194). -/
structure Ing where
  en : Bool
  core : BitVec 10
  eport : BitVec 4
  xport : BitVec 4
  xen : Bool
  queue : List IngRec
deriving DecidableEq, Repr

/-- A timed entry: TTn and TTSn (Table 11.5), the next slot's time once enabled, and its last launch. -/
structure Timed where
  d0 : W64
  d1 : W64
  /-- What a write has left to take effect at the next slot start. -/
  next0 : W64
  next1 : W64
  slot : Option W64
  skipped : Nat
  started : Nat
  last : Option Nat
deriving DecidableEq, Repr

/-- The scheduler of a partition (Table 11.5). -/
structure Sched where
  en : Bool
  maxrun : BitVec 4
  ltbase : W64
  lcbase : W64
  lcprod : Nat
  lccons : W32
  refused : Nat
  orphan : Nat
  lost : Nat
  ten : Bool
  ings : Sparse Ing
  timed : Sparse Timed
  launches : List Launch
  nextId : Nat
  seq : Nat
deriving DecidableEq, Repr

/-- The clock servo (11 R204, R205): the port and domain that the package supervisor selected; whether it has yet to lock for the
first time; whether an offset has been measured and not yet used; the last measured offset in ns; whether device time is locked. -/
structure Ptp where
  port : BitVec 4
  domain : BitVec 8
  first : Bool
  measured : Bool
  offset : Int
  locked : Bool
  /-- The rate's change in parts per million. -/
  rate : Int
  /-- Device time at the reception of the last Sync; its origin time, once known; device time at the last delay request; and the mean
  path delay, once measured (IEEE 1588, delay request-response). -/
  t2 : W64
  t1 : Option W64
  t3 : Option W64
  delay : Option Int
deriving DecidableEq, Repr

/-! ## Whose turn it is (model, log 4) -/

/-- One turn of the world's order of events. -/
inductive Turn where
  /-- Core n takes its next step. -/
  | core (n : CoreNum)
  /-- An element considers its configuration slot. -/
  | elem (e : ElemNum) (slot : BitVec 2)
  /-- An event of the opcode table. -/
  | event (i : Instr)
  /-- n cycles pass. -/
  | tick (n : Nat)
  /-- Payload bytes [k, k + len) of an engine's first command move (06 R112). -/
  | enginePart (n : CoreNum) (k len : Nat)
  /-- A vector load of core n at its next instruction reads lane l ahead of the others (05 R81). -/
  | lanePart (n : CoreNum) (l : Fin 32)
  /-- The first WLOAD of a weight slot in the queue of core n's island reads one crown line (13 R215). -/
  | wloadPart (n : CoreNum) (w line : Nat)
  /-- Requests of a bank spend cycles in conflict stalls (07 Table 07.6). -/
  | bankStall (bank : Nat) (k : Nat)
  /-- The oldest TLBI of a core completes, when it may (18 R276). -/
  | tlbiDone (n : CoreNum)
  /-- Copies that caches take: of the line of an address as a core translates it for a load or a fetch, of a line that an access
  of a colour reaches, of a leaf (as a 64 KiB range where `cont` asks for it), of the upper levels of a walk. -/
  | l1Fill (n : CoreNum) (va : W64)
  | l1Drop (n : CoreNum) (line : Nat)
  | l2Fill (n : CoreNum) (colour : BitVec 8) (va : W64) (way : BitVec 4)
  | l2Evict (line : Nat)
  /-- An L2 slice takes the line of a table entry that a walk reads, k entries after the root's (26 R358). -/
  | l2Table (n : CoreNum) (colour : BitVec 8) (va : W64) (k : Nat) (way : BitVec 4)
  | ifetchFill (n : CoreNum) (va : W64)
  | ifetchDrop (n : CoreNum) (line : Nat)
  | tlbFill (n : CoreNum) (colour : BitVec 8) (va : W64) (cont : Bool)
  | tlbEvict (n : CoreNum) (k : Nat)
  | walkFill (n : CoreNum) (colour : BitVec 8) (va : W64)
  | walkEvict (n : CoreNum) (k : Nat)
  | cbcEvict (n : CoreNum) (k : Nat)
  /-- A core gives up a rule entry it has cached (15 R233). -/
  | ruleEvict (n : CoreNum) (k : Nat)
  /-- An uncorrectable error in a register, file × 64 + number (27 R376). -/
  | regError (n : CoreNum) (r : Nat)
  /-- An uncorrectable error in a unit of memory (19 R291). -/
  | memError (home : Nat)
  /-- A correctable error in a GDDR-7 sector is corrected on a read (27 R376). -/
  | corrected (home : Nat)
  /-- An uncorrectable error in an 8-byte unit of an L1 line, and in the tag of one (27 R376). -/
  | l1Error (n : CoreNum) (line unit : Nat)
  | l1TagError (n : CoreNum) (line : Nat)
  /-- An uncorrectable error in a 32-byte sector of an L2 line (27 R376). -/
  | l2Error (line sector : Nat)
  /-- An error in the tag of an L2 line: it is dropped, a dirty one written home poisoned (27 R376). -/
  | l2TagError (line : Nat)
  /-- An uncorrectable error in a token in a link register toward an element, and in the oldest token of an input's queue
  (27 R376). -/
  | linkError (e : ElemNum) (src : BitVec 3)
  | queueError (e : ElemNum) (i : BitVec 2)
  /-- In a token of the matching store, by entry and input; in the k-th token that an entry or an exit side holds of a colour, that
  a receive end's places hold of a colour, or that has left at the host egress (27 R376). -/
  | storeError (e : ElemNum) (slot : BitVec 2) (k i : Nat)
  | sideError (exit : Bool) (key k : Nat)
  | placeError (channel colour k : Nat)
  | egressError (k : Nat)
  /-- The package supervisor stops a function (26 Table 26.6), writes LKCNTn (25 Table 25.6) or CHSTATc, or reads CHSTATc (27
  Table 27.2). -/
  | stopVf (v : BitVec 6)
  /-- The last step of a cold reset: the management function opens (28 R385). -/
  | booted
  /-- A cold reset whose boot ROM refuses the firmware, because its signature fails (28 R385). -/
  | coldRefused
  /-- Power and temperature fall below their limits again (28 R383). -/
  | belowLimits
  /-- The scrub of a colour goes on, for the k-th function that is being stopped (26 R372). -/
  | scrub (k : Nat)
  | lkcntWrite (port : BitVec 4) (dom : BitVec 6) (v : W64)
  | chstatWrite (c : BitVec 7) (v : W64)
  | chstatRead (c : BitVec 7)
  /-- An SPDM request that Table 26.4 does not list (26 R363). -/
  | otherRequest (m : Spdm)
  /-- A GDDR-7 frame's cells fail: a later overwrite shows an uncorrectable line (26 R372). -/
  | cellFail (frame : Nat)
  /-- The package supervisor selects the port and the domain of the clock (11 R204). -/
  | ptpSelect (port : BitVec 4) (domain : BitVec 8)
  /-- A general message of the clock: the origin time of a two-step Sync, or the response to a delay request; the selected port has no
  time-transmitter any more (11 R204, R205). -/
  | ptpFollowUp (port : BitVec 4) (domain : BitVec 8) (t1 : W64)
  | ptpDelayResp (port : BitVec 4) (domain : BitVec 8) (t4 : W64)
  | ptpLost
  /-- The oldest pending response of the security core is sent (26 R371). -/
  | respond
  /-- A packet or a frame arrives at an Ethernet port, sealed in a domain under a phase (25 R354): the dwords of its header and
  payload. -/
  | outside (port dom : Nat) (phase frame : Bool) (words : List W64)
  /-- The k-th packet that left was discarded by its receiver: UET sends it again, under the current phase (25 R354). -/
  | uetAgain (k : Nat)
  /-- The package supervisor installs the link trust anchor (26 R366). -/
  | installAnchor (anchor : List Byte)
  /-- The package supervisor selects a port's congestion control (25 R352). -/
  | ccSelect (port : BitVec 4) (rccc : Bool)
deriving DecidableEq, Repr

inductive Agent where
  | core | elem
deriving DecidableEq, Repr

/-- The reasons a step can stop with a fault. -/
inductive Fault where
  /-- Raised by the step of a package that a thermal trip has left without power (28 R384) when nothing is on its agenda:
  there is no rule for what happens next but a cold reset. Safe: the hardware does nothing either. -/
  | noPower
deriving DecidableEq, Repr

/-- The reasons an instruction has no meaning. -/
inductive Refusal where
  /-- The instruction of this mnemonic has no meaning in the model yet. Safe: nothing is claimed of it. -/
  | notModelled (mnemonic : String)
deriving DecidableEq, Repr

/-- The units that a degraded module lacks (01 R15, 27 R381): cores, GDDR-7 channels, Ethernet ports, bridges. -/
structure Lacks where
  cores : BitVec 1024
  chans : BitVec 128
  ports : BitVec 16
  bridges : BitVec 6
deriving DecidableEq, Repr

/-- The package. -/
structure State where
  lacks : Lacks
  cores : Sparse Core
  mem : Memory
  /-- Poison markers, by the home address of the unit (19 R291). -/
  marks : Sparse Bool
  /-- Full-empty bits of pad words, by home address (06 R99). -/
  fe : Sparse Bool
  /-- Presence tags of floor words, by home address (07 R125). -/
  tags : Sparse Bool
  banks : Sparse Bank
  bankOps : List BankOp
  presOps : List PresReq
  token : Option Nat
  /-- Walk caches by cluster (18 R274). -/
  walk : Sparse (List WalkEntry)
  l2 : Sparse L2Line
  ltags : Sparse LineTag
  chans : Sparse Chan
  /-- The retirement table (27 R378): frames by address / 4096. -/
  retired : List Nat
  /-- Frames held retired by their channel controllers until the next cold reset (27 R378). -/
  chanHeld : List Nat
  /-- Channels marked in the disable mask, and channels left untrained by it at the last cold reset (27 R378). -/
  disable : BitVec 128
  untrained : BitVec 128
  parts : Sparse Part
  vfs : Sparse Vf
  colours : Sparse Colour
  lperm : Sparse W64
  partKey : Sparse Nat
  /-- Sealed frames with the context that names them (26 R368). -/
  sealed : List (BitVec 16 × Nat)
  trust : Trust
  /-- Records sent to the package supervisor (19 R284). -/
  superLog : List (List W64)
  flog : Sparse FaultLog
  netp : Sparse NetPage
  net : Net
  /-- Channel ends, partition × 64 + channel. -/
  channels : Sparse ChanEnd
  /-- Link states by port, and secure domains, port × 64 + domain. -/
  links : Sparse LinkState
  /-- The congestion control of each Ethernet port (25 R352): RCCC receiver credits, or else NSCC. -/
  rccc : Sparse Bool
  domains : Sparse Domain
  elems : Sparse Elem
  /-- By handle without reserved bits (Table 08.4). -/
  regions : Sparse Region
  /-- By grid: handle bits [15:5]. -/
  loaders : Sparse (List LoaderCmd)
  /-- Generation counters, quad × 4 + slot (09 R159). -/
  gens : Sparse (BitVec 6)
  /-- Context pools, partition × 1024 + context (08 R140). -/
  ctxs : Sparse Ctx
  /-- Entry sides' colour queues, key `portKey` × 256 + colour: each token with whether it is admitted (08 R145). -/
  entryq : Sparse (List (Token × Bool))
  /-- Exit sides' buffers (09 R149, R170), same key. -/
  exitq : Sparse (List Token)
  /-- Expected iterations of ordered exits, the same key × 1024 + context. -/
  expect : Sparse Nat
  /-- The next arrival stamp. -/
  stamp : Nat
  /-- Tokens delivered to virtual functions at the host egress, oldest first: the function and the token (08 R146). -/
  egress : List (BitVec 6 × Token)
  /-- HOLE words that a join left in use, as relays or as pending ends, by their bank addresses (15 R230, R242). -/
  relays : List Nat
  scheds : Sparse Sched
  ptp : Ptp
  now : W64
  /-- Device time below one ns, in units of 1 / 9,000,000 ns. -/
  frac : Nat
  cycle : Nat
  /-- The clock's step (28 R383): 0 is 1.5 GHz, 1 is 1.125 GHz, 2 is 0.75 GHz; the device time of its last step. -/
  clock : Nat
  clockAt : W64
  /-- Device time at which the present excess of power or temperature began, and at which the last one ended. -/
  excess : Option W64
  clockEx : W64
  /-- The next serial number of an engine command. -/
  serial : Nat
  powered : Bool
  /-- A cold reset has not come to its last step: SPDM requests are answered Busy (28 R385). -/
  booting : Bool
  /-- The boot ROM has refused the firmware: the steps of the cold reset after the first do not come (28 R385). -/
  refused : Bool
  free : Nat
  agenda : List Turn
  agent : Agent
  curCore : CoreNum
  curElem : ElemNum
  curSlot : BitVec 2
deriving DecidableEq, Repr

/-! ## After reset -/

def Regs.reset : Regs :=
  { x := [], p := [], v := [], lcnt := 0, lbeg := 0, lend := 0, lact := false, tcause := 0, tval := 0, tblock := 0,
    tstat := 0, tvec := 0, tscr := 0, tmask := 0, colour := 0, counts := [], bad := [], arms := [] }

def Stream.reset : Stream :=
  { st := .unbound, desc := 0, bind := 0, tile := 0, i3 := 0, i2 := 0, i1 := 0, i0 := 0, tiles := 0, context := 0,
    colour := 0, fault := false, lost := 0, done := none, lvlS := false, inSect := none, gate := false, ended := 0,
    due := [], hold := false, got := none, out := none, outPort := 0, row := [] }

def Island.reset : Island :=
  { acc := [], pois := [], slots := [], shadow := [], queue := [], attach := [], mzgroups := 0, emits := [], rows := [], remote := [], ahead := [] }

def WSlot.reset : WSlot := { ty := 0, sp := false, sb := 0, st := .empty, image := [] }

def VaneUnit.reset : VaneUnit :=
  { probe := [], probeBad := [], steer := [], steerBad := [], cfg := [], prb := [], cnt := [], queue := [], remote := [] }

def Ring.reset : Ring := { cfg := 0, head := 0, count := 0, taken := false }

def Section.reset : Section :=
  { used := false, status := 4, desc := [], addr := 0, started := false, sinks := [], lvlS := false,
    ending := none, node := none, done := none, putHome := 0, putting := false, sentAt := 0, launch := none, age := 0 }

def Blk.reset : Blk :=
  { isOpen := false, hdr := 0, rule := false, words := [], idx := 0, exit := .none, w := Regs.reset, held := [],
    wait := .none, ans := .none, cancel := false, granted := false, closing := false, next := 0, remote := [],
    remoteAt := 0, lanes := [] }

/-- A core as a reset leaves it: held in reset, every register zero (04 R54, R55, 19 Table 19.1). Its level is S and its
pc 0 until a start command gives them (log 3, DESIGN CHOICE). -/
def Core.reset : Core :=
  { run := .reset, lvlS := true, pc := 0, regs := Regs.reset, tpend := 0, owner := 0, blk := Blk.reset, blkNo := 0,
    poisonTrap := [], pendTrap := none, inDisp := false, inTrap := false, rreq := none, gaveUp := none, walkWait := false, replies := [], l1 := [], ifetch := [],
    tlb := [], cbc := [], cbcColour := [], eng := [],
    streams := [], island := Island.reset, sections := [], vane := VaneUnit.reset, bag := [], bagWait := [], bagctl := 0, bagspill := 0,
    spillProd := 0, spillCons := 0, nodehead := 0, bagcnt := 0, claim := none, rtab := none, rcache := [], mask := 0,
    ring := Ring.reset, tlbi := [] }

def ElemSlot.zeroCfg : ElemCfg :=
  { fmt := 0, rm := 0, sat := false, fin := false, tagp := 0, nin := 0, cin := 0, opx := 0, const := 0, q3 := 0, q2 := 0,
    q1 := 0, q0 := 0, out0 := 0, out1 := 0, share := 0, ordx := false, port := 0 }
/-- A slot without configuration: op 0 (09 R151). -/
def ElemSlot.reset : ElemSlot :=
  { op := 0, cfg := ElemSlot.zeroCfg, table := [], region := 0, gen := 0, entries := [], pend := [], loops := [], loopTags := [],
    groups := [], counts := [], holds := [], eosIn := [0, 0, 0, 0] }
def Elem.reset : Elem := { slots := [], queues := [[], [], [], []], links := [], last := 0, reqs := [] }
def RColour.reset : RColour :=
  { quota := 0, closed := false, purging := false, reopen := false, purged := 0, stall := 0, stopped := false, quiet := 0 }
def Region.reset : Region :=
  { st := .empty, part := 0, gen := 0, oneShot := false, dexp := 0, rexp := 0, colours := [], elems := [], left := [], freed := [],
    keys := [], supp := 0, stale := 0, quiet := 0, sweeps := 0, armed := false, inSect := none, ended := false, loader := none, pin := false, used := 0 }

def Bank.reset : Bank :=
  { deferred := [], trade := false, joined := false, joining := false, scq := [], stall := 0, drop := 0, ovf := 0 }
def Part.reset : Part := { valid := false, smask := 0, chmask := 0 }
def Vf.reset : Vf :=
  { waymask := 0, ctxid := 0, ingmask := 0, part := 0, st := .unlocked, sess := false, en := false, nonce := 0 }
def Colour.reset : Colour := { valid := false, part := 0, vf := 0, keyed := false, root := 0, epoch := 0, key := 0 }
def FaultLog.reset : FaultLog := { base := 0, prod := 0, cons := 0, lost := 0, int := 0, seq := 0 }
def NetPage.reset : NetPage :=
  { lull := 64, rehash := false, smap := 0, smapNew := 0, hmask := [], hmaskNew := [], rcls := [], rhdl := [], shcnt := [] }
def Net.reset : Net :=
  { flight := [], wire := [], due := [], sent := [], seqs := [], windows := [], rereqs := [], paced := [], reads := [], tag := 0 }
def Trust.reset : Trust :=
  { chains := [], keys := [], deferred := [], pending := [], calls := [], outbox := [], hands := [], anchor := none, mgmt := none, receiptSeq := 0, measure := [],
    ranges := [], cleanSectors := 0, cleanChans := 0, failing := [], stops := [] }
def ChanEnd.reset : ChanEnd :=
  { en := false, st := .closed, recv := false, port := 0, core := 0, pcore := 0, pdev := 0, remote := false, pchan := 0, depth := 0,
    prio := 0, slot := 0, tokens := 0, stale := 0, region := none, readyAt := 0, readied := false, window := 0, colours := 0, spent := [], places := [] }
def Domain.reset : Domain :=
  { key0 := none, key1 := none, tx := false, rx0 := false, rx1 := false, stall := false, txcount := 0, authfail := 0, drop0 := false, drop1 := false }
def Chan.reset : Chan := { ce := 0, ue := 0, wbdrop := 0 }

def Ing.reset : Ing := { en := false, core := 0, eport := 0, xport := 0, xen := false, queue := [] }
def Timed.reset : Timed := { d0 := 0, d1 := 0, next0 := 0, next1 := 0, slot := none, skipped := 0, started := 0, last := none }
/-- maxrun is 0xF from reset (Table 11.5). -/
def Sched.reset : Sched :=
  { en := false, maxrun := 0xF, ltbase := 0, lcbase := 0, lcprod := 0, lccons := 0, refused := 0, orphan := 0, lost := 0,
    ten := false, ings := [], timed := [], launches := [], nextId := 0, seq := 0 }
def Ptp.reset : Ptp := { port := 0, domain := 0, first := true, measured := false, offset := 0, locked := false, rate := 0,
                          t2 := 0, t1 := none, t3 := none, delay := none }

/-- A full module (log 6). -/
def Lacks.none : Lacks := { cores := 0, chans := 0, ports := 0, bridges := 0 }

/-- The package right after cold reset (28 R385): memory zero, every core held in reset, every table empty. The fields
for which the manual gives no reset value stand at the values of logs 2, 3 and 4. -/
def State.reset : State :=
  { lacks := Lacks.none, cores := [], mem := [], marks := [], fe := [], tags := [], banks := [], bankOps := [], presOps := [], token := none,
    walk := [], l2 := [], ltags := [], chans := [], retired := [], chanHeld := [], disable := 0, untrained := 0, parts := [], vfs := [], colours := [], lperm := [],
    partKey := [], sealed := [], trust := Trust.reset, superLog := [], flog := [], netp := [], net := Net.reset, channels := [], links := [], rccc := [], domains := [],
    elems := [], regions := [], loaders := [], gens := [], ctxs := [], entryq := [], exitq := [], expect := [], stamp := 0, egress := [], relays := [], scheds := [], ptp := Ptp.reset, now := 0, frac := 0, cycle := 0, clock := 0, clockAt := 0, excess := none, clockEx := 0, serial := 0, powered := true, booting := false, refused := false, free := 0,
    agenda := [], agent := .core, curCore := 0, curElem := 0, curSlot := 0 }

end Sys2Proof.Machine
end

