-- ==== Sys2Proof/Machine/Home.lean ====
section
/-!
DEFINITION. Homes of memory: the physical map (18 Table 18.1, 07 Table 07.1, 27 R374, 06 R96), who owns what (26 R355,
24 R341), poison markers (19 R291), and reads and writes at a home (17 R250).
-/
namespace Sys2Proof.Machine

/-- The kinds of memory of Table 17.1, with register pages and other devices. -/
inductive Space where
  | floor | crown | reg | gddr | remote | pad | none
deriving DecidableEq, Repr

/-- Pads stand above the physical map: core n's pad offset o is at padBase + n · 2^19 + o (06 R97). -/
def padBase : Nat := 2 ^ 52
def padHome (n off : Nat) : Nat := padBase + n * 2 ^ 19 + off
def floorBase : Nat := 0x1000000000
def crownBase : Nat := 0x1800000000
def regBase : Nat := 0x1F00000000
def gddrBase : Nat := 0x10000000000
def crownHome (n off : Nat) : Nat := crownBase + n * 0x600000 + off

/-- Table 18.1. -/
def space (h : Nat) : Space :=
  if h ≥ padBase then .pad
  else if h ≥ 2 ^ 51 then .remote
  else if floorBase ≤ h && h < 0x1180000000 then .floor
  else if crownBase ≤ h && h < 0x1980000000 then .crown
  else if regBase ≤ h && h < 0x2000000000 then .reg
  else if gddrBase ≤ h && h < 0x13000000000 then .gddr
  else .none

/-- Die and offset of a floor address (07 R119). -/
def floorDie (h : Nat) : Nat := (h - floorBase) / 0x60000000
def floorOff (h : Nat) : Nat := (h - floorBase) % 0x60000000

/-- Bank index in the die of a floor offset (Table 07.1). -/
def bankIdx (o : Nat) : Nat :=
  if o < 0x20000000 then 0
  else if o < 0x30000000 then 1 + fld o 27 26
  else if o < 0x40000000 then 5 + fld o 27 24
  else 21 + fld o 28 23

/-- The bank of a floor address: die × 85 + index. -/
def bankOf (h : Nat) : Nat := floorDie h * 85 + bankIdx (floorOff h)

/-- The sector of the die that owns a floor offset (26 R355). -/
def floorSector (o : Nat) : Nat :=
  if o < 0x20000000 then o / 0x8000000
  else if o < 0x30000000 then fld o 27 26
  else if o < 0x40000000 then fld o 27 26
  else fld o 28 27

/-- GDDR-7 channel of an address (27 R374). -/
def chanOf (h : Nat) : Nat := (h - gddrBase) / 0x60000000

/-- Base and size of the poison unit of a home address (19 R291). -/
def unitSize (h : Nat) : Nat :=
  match space h with
  | .pad => 4 | .floor => 8 | .gddr => 32 | .crown => 16 | _ => 8
def unitBase (h : Nat) : Nat := h - h % unitSize h

/-! ## Cores, partitions, colours -/

/-- The units that are fitted (01 R15, 28 R387). -/
def State.corePresent (s : State) (n : Nat) : Bool := n < 1024 && !s.lacks.cores.getLsbD n
/-- An Ethernet port is present; where the boot ROM has refused the firmware none is brought up (28 R385). -/
def State.portPresent (s : State) (p : Nat) : Bool := p < 16 && !s.lacks.ports.getLsbD p && !s.refused
def State.bridgePresent (s : State) (b : Nat) : Bool := b < 6 && !s.lacks.bridges.getLsbD b
def State.core (s : State) (n : Nat) : Core := Sp.get Core.reset s.cores n
def State.setCore (s : State) (n : Nat) (c : Core) : State := { s with cores := Sp.put s.cores n c }
/-- The core whose turn it is. -/
def State.me (s : State) : Core := s.core s.curCore.toNat
def State.setMe (s : State) (c : Core) : State := s.setCore s.curCore.toNat c

def State.bank (s : State) (b : Nat) : Bank := Sp.get Bank.reset s.banks b
def State.setBank (s : State) (b : Nat) (k : Bank) : State := { s with banks := Sp.set Bank.reset s.banks b k }
def State.part (s : State) (p : Nat) : Part := Sp.get Part.reset s.parts p
def State.vf (s : State) (v : Nat) : Vf := Sp.get Vf.reset s.vfs v
def State.colour (s : State) (c : Nat) : Colour := Sp.get Colour.reset s.colours c
def State.netOf (s : State) (p : Nat) : NetPage := Sp.get NetPage.reset s.netp p
def State.setNet (s : State) (p : Nat) (q : NetPage) : State := { s with netp := Sp.set NetPage.reset s.netp p q }
def State.flogOf (s : State) (p : Nat) : FaultLog := Sp.get FaultLog.reset s.flog p
def State.chan (s : State) (c : Nat) : Chan := Sp.get Chan.reset s.chans c

/-- The partition of a sector (die × 4 + sector), if any (26 R355). -/
def State.partOfSector (s : State) (sec : Nat) : Option Nat :=
  (List.range 16).find? fun p => (s.part p).valid && (s.part p).smask.getLsbD sec

/-- The partition of a core. -/
def State.partOf (s : State) (n : Nat) : Option Nat := s.partOfSector (n / 64)
/-- partid (Table 19.1): zero where no partition owns the core (log 3). -/
def State.partid (s : State) (n : Nat) : Nat := (s.partOf n).getD 0

def State.ownsSector (s : State) (p sec : Nat) : Bool := (s.part p).valid && (s.part p).smask.getLsbD sec

/-- A colour is bound to a partition (08 R138). -/
def State.bound (s : State) (p c : Nat) : Bool := (s.colour c).valid && (s.colour c).part.toNat == p

/-- Core n is present, lies in partition p and carries an owner tag (06 R116, 19 R281). -/
def State.sameOwner (s : State) (n m : Nat) : Bool :=
  s.corePresent m && s.partOf m == s.partOf n && (s.core m).owner == (s.core n).owner

/-- Parity of a number's bits. -/
def parity (v : Nat) : Nat := (List.range 64).foldl (fun a i => (a + v / 2 ^ i) % 2) 0

/-- The L2 slice (die × 4 + sector) of a GDDR-7 line for a partition (24 R341). -/
def State.sliceOf (s : State) (p h : Nat) : Nat :=
  let q := s.netOf p
  let bit := fun i => parity (h &&& (Sp.get 0 q.hmask i).toNat)
  let idx := bit 0 + 2 * bit 1 + 4 * bit 2 + 8 * bit 3
  fld q.smap.toNat (4 * idx + 3) (4 * idx)

/-- A partition owns a floor address (26 R355). -/
def State.ownsFloor (s : State) (p h : Nat) : Bool := s.ownsSector p (floorDie h * 4 + floorSector (floorOff h))

/-- The sectors of a die that share a bank (07 Table 07.1): all four the die bank. Its register page is reached by the owner of any of its
quarters: DESIGN CHOICE, unsafe (log 77): the manual does not say who owns it. -/
def bankSectors (idx : Nat) : List Nat :=
  if idx == 0 then [0, 1, 2, 3] else if idx ≤ 4 then [idx - 1] else if idx ≤ 20 then [(idx - 5) / 4] else [(idx - 21) / 16]

/-- A partition owns the unit of a register page: a bank of its sectors (07 R134), its own scheduler, fault, network and channel
pages, and the bag pages of its cores (15 R246). A page of the window that has no unit counts as absent (log 46). -/
def State.ownsPage (s : State) (p h : Nat) : Bool :=
  let k := fun base => (h - base) / 4096
  if h < 0x1F00400000 then
    let idx := (h - regBase) % 0x100000 / 0x1000
    idx < 85 && (bankSectors idx).any fun q => s.ownsSector p ((h - regBase) / 0x100000 * 4 + q)
  else if 0x1F80000000 ≤ h && h < 0x1F80010000 then k 0x1F80000000 == p
  else if 0x1F90000000 ≤ h && h < 0x1F90400000 then s.corePresent (k 0x1F90000000) && s.partOf (k 0x1F90000000) == some p
  else if 0x1FA0000000 ≤ h && h < 0x1FA0010000 then k 0x1FA0000000 == p
  else if 0x1FB0000000 ≤ h && h < 0x1FB0010000 then k 0x1FB0000000 == p
  else 0x1FC0000000 ≤ h && h < 0x1FC0010000 && k 0x1FC0000000 == p

/-- A channel is fitted and trained (27 R378, R380, R381). -/
def State.chanPresent (s : State) (c : Nat) : Bool := c < 128 && !s.lacks.chans.getLsbD c && !s.untrained.getLsbD c

/-- A partition owns a GDDR-7 address: its channel and the slice of its line (24 R341, 27 R374). -/
def State.ownsGddr (s : State) (p h : Nat) : Bool :=
  s.chanPresent (chanOf h) && (s.part p).chmask.getLsbD (chanOf h) && s.ownsSector p (s.sliceOf p h)

/-- A frame is retired (27 R379). -/
def State.isRetired (s : State) (h : Nat) : Bool := s.retired.contains (h / 4096) || s.chanHeld.contains (h / 4096)

/-- A context (owner tag) is measured and serving: some VF of it is CONFIG_LOCKED or RUN (26 R368). -/
def State.ctxSealed (s : State) (ctx : BitVec 16) : Bool :=
  (List.range 64).any fun v => (s.vf v).ctxid == ctx && ((s.vf v).st == .locked || (s.vf v).st == .run)

/-- A write below M to this address is barred: its frame is sealed by a context that serves (26 R368). -/
def State.sealedFrame (s : State) (h : Nat) : Bool :=
  s.sealed.any fun e => e.2 == h / 4096 && s.ctxSealed e.1

/-- Memory that a partition's device-written rings may stand in: its own floor, or its own GDDR-7 under its key, in no sealed frame
(log 61). -/
def State.ringOk (s : State) (p h : Nat) : Bool :=
  !s.sealedFrame h && match space h with
  | .floor => s.ownsFloor p h
  | .gddr => s.ownsGddr p h && !s.isRetired h && Sp.get 0 s.partKey p != 0
  | _ => false

/-! ## Poison markers and reads and writes at a home -/

/-- Whether a read of this byte at its home meets a poison marker (19 R291). -/
def State.poisoned (s : State) (h : Nat) : Bool :=
  if space h == .gddr then
    match Sp.find? s.l2 (h / 128) with
    | some l => l.marks.getLsbD (h % 128 / 32)
    | none => Sp.get false s.marks (unitBase h)
  else Sp.get false s.marks (unitBase h)

/-- Set or clear the marker of the unit that holds a home address. -/
def State.mark (s : State) (h : Nat) (b : Bool) : State :=
  match (if space h == .gddr then Sp.find? s.l2 (h / 128) else none) with
  | some l =>
    let m := l.marks &&& ~~~(1#4 <<< (h % 128 / 32)) ||| (if b then 1#4 <<< (h % 128 / 32) else 0)
    { s with l2 := Sp.put s.l2 (h / 128) { l with marks := m } }
  | none => { s with marks := Sp.set false s.marks (unitBase h) b }

/-- Byte i of a line. -/
def lineByte (l : Line) (i : Nat) : Byte := l.extractLsb' (8 * i) 8
/-- A line with byte i replaced. -/
def setLineByte (l : Line) (i : Nat) (b : Byte) : Line :=
  l &&& ~~~(0xFF#1024 <<< (8 * i)) ||| (b.setWidth 1024 <<< (8 * i))

/-- A byte at its home at this instant, under the GDDR-7 key `key` (17 R250, 10 R189). -/
def State.readHome (s : State) (key h : Nat) : Byte :=
  if space h == .gddr then
    match Sp.find? s.l2 (h / 128) with
    | some l => lineByte l.data (h % 128)
    | none =>
      match Sp.find? s.ltags (h / 128) with
      | some t => if t.key == key && !t.junk.getLsbD (h % 128) then Mem.read s.mem h else Config.foreignByte key h
      | none => Mem.read s.mem h
  else Mem.read s.mem h

def State.readHomeN (s : State) (key h : Nat) : Nat → List Byte
  | 0 => []
  | n + 1 => s.readHome key h :: s.readHomeN key (h + 1) n

/-- A little-endian value at its home. -/
def State.readVal (s : State) (key h n : Nat) : Nat := bytesNat (s.readHomeN key h n)

/-- Some byte of a range at its home is poisoned. -/
def State.anyPoison (s : State) (h n : Nat) : Bool := (List.range n).any fun i => s.poisoned (h + i)

/-- Write one byte at its home (no marker changes). -/
def State.writeByte (s : State) (key h : Nat) (b : Byte) : State :=
  if space h == .gddr then
    match Sp.find? s.l2 (h / 128) with
    | some l => { s with l2 := Sp.put s.l2 (h / 128) { l with data := setLineByte l.data (h % 128) b, dirty := true, key := key } }
    | none =>
      let t := (Sp.find? s.ltags (h / 128)).getD { key := key, junk := 0 }
      let j : BitVec 128 := 1#128 <<< (h % 128)
      let t' : LineTag := if t.key == key then { t with junk := t.junk &&& ~~~j } else { key := key, junk := ~~~j }
      { s with mem := Mem.write s.mem h b, ltags := Sp.put s.ltags (h / 128) t' }
  else { s with mem := Mem.write s.mem h b }

def State.writeBytes (s : State) (key h : Nat) : List Byte → State
  | [] => s
  | b :: t => (s.writeByte key h b).writeBytes key (h + 1) t

/-- Clear the markers of the units that [h, h + n) covers whole (19 R291, 07 R124). -/
def State.clearMarks (s : State) (h n : Nat) : State :=
  (List.range n).foldl (fun s i =>
    let a := h + i
    if a == unitBase a && a + unitSize a ≤ h + n && s.poisoned a then s.mark a false else s) s

/-- 06 R106: after a write to the pad word a WAITA waits on, the first comparison that holds is its answer. -/
def condInt (c : Nat) (a b : Int) : Bool :=
  match c with
  | 0 => a == b | 1 => a != b | 2 => a < b | 3 => a ≤ b | 4 => a > b | _ => a ≥ b

/-- The comparison of a WAITA on the current word (06 R106). -/
def State.waitaHolds (s : State) (home ty cond : Nat) (b : W32) : Bool :=
  let v : W32 := w32 (s.readVal 0 home 4)
  if ty % 2 == 0 then condInt cond v.toInt b.toInt else condInt cond v.toNat b.toNat

/-- Let the waiting WAITA of a pad's own core compare its word, if it was written. -/
def State.padNotify (s : State) (h n : Nat) : State :=
  if space h != .pad then s else
  let k := (h - padBase) / 2 ^ 19
  let c := s.core k
  match c.blk.wait, c.blk.ans with
  | .waita _ home ty cond b _, .none =>
    if home + 4 > h && home < h + n && s.waitaHolds home ty cond b then
      s.setCore k { c with blk := { c.blk with
        ans := if s.anyPoison home 4 then .poisoned else .val (w64 (s.readVal 0 home 4)) } }
    else s
  | _, _ => s

/-- A write performed at the home: the bytes, the markers of the units it covers, and the waiting WAITA of a pad. -/
def State.write (s : State) (key h : Nat) (bs : List Byte) : State :=
  ((s.writeBytes key h bs).clearMarks h bs.length).padNotify h bs.length

/-- Mark the units of a range. -/
def State.markRange (s : State) (h n : Nat) : State := (List.range n).foldl (fun s i => s.mark (h + i) true) s

/-- As `write`; the units that poisoned data touches are marked before a waiting WAITA sees the word (19 R291 to R293). -/
def State.writeAs (s : State) (key h : Nat) (bs : List Byte) (bad : Bool) : State :=
  if bad then (((s.writeBytes key h bs).clearMarks h bs.length).markRange h bs.length).padNotify h bs.length else s.write key h bs

/-- A 4-byte write to a pad word (06 R98). -/
def State.padWrite32 (s : State) (n off : Nat) (v : Nat) : State := s.write 0 (padHome n off) (leBytes 4 v)

/-! ## L2 slices (27 R375) -/

/-- A slice gives a line up, written back under its key where it is dirty. -/
def State.l2Evict (s : State) (line : Nat) : State :=
  match Sp.find? s.l2 line with
  | none => s
  | some l =>
    let s := { s with l2 := Sp.erase s.l2 line }
    if !l.dirty then s else
    let s := s.writeBytes l.key (line * 128) ((List.range 128).map (lineByte l.data))
    (List.range 4).foldl (fun s k => s.mark (line * 128 + 32 * k) (l.marks.getLsbD k)) s

/-- A slice brings a GDDR-7 line in, in plaintext under a key, to a place. -/
def State.l2Install (s : State) (line key place : Nat) : State :=
  if space (line * 128) != .gddr || (Sp.find? s.l2 line).isSome then s else
  let data := (List.range 128).foldl (fun (d : Line) i => setLineByte d i (s.readHome key (line * 128 + i))) 0
  let marks := (List.range 4).foldl (fun (m : BitVec 4) k => if s.poisoned (line * 128 + 32 * k) then m ||| (1#4 <<< k) else m) 0
  { s with l2 := Sp.put s.l2 line { data := data, dirty := false, marks := marks, key := key, place := place } }

/-- A slice takes a line in a way of its set (27 R375); a line that stands there leaves first. -/
def State.l2Fill (s : State) (slice line key way : Nat) : State :=
  let place := (slice * 32768 + line % 32768) * 16 + way
  if (Sp.find? s.l2 line).isSome then s else
  let s := match s.l2.find? fun l => l.2.place == place with
    | some l => s.l2Evict l.1
    | none => s
  s.l2Install line key place

/-- Set the full-empty bits of the pad words of a range (06 R99). -/
def State.setFe (s : State) (h n : Nat) (b : Bool) : State :=
  (List.range ((n + 3) / 4)).foldl (fun s i => { s with fe := Sp.set false s.fe (h - h % 4 + 4 * i) b }) s
def State.isFull (s : State) (h n : Nat) : Bool :=
  (List.range ((n + 3) / 4)).all fun i => Sp.get false s.fe (h - h % 4 + 4 * i)

/-- Presence tag of the floor word that holds an address (07 R125). -/
def State.tag (s : State) (h : Nat) : Bool := Sp.get false s.tags (h - h % 8)
def State.setTag (s : State) (h : Nat) (b : Bool) : State := { s with tags := Sp.set false s.tags (h - h % 8) b }

end Sys2Proof.Machine
end

