-- ==== Sys2Proof/Machine/Translate.lean ====
section
/-!
DEFINITION. Address translation and access checks (18 R267 to R275, 06 R96, R101, 26 R368).
-/
namespace Sys2Proof.Machine

/-- Why an instruction did not complete: a fault with its code (19 Table 19.3), translation level and tval, or a wait
for bytes of another device (17 R262), named by their home addresses, or for the writes that a walk must follow (21 R301). -/
inductive XF where
  | fault (code lvl : Nat) (tval : W64)
  | remote (home len : Nat) (va : W64)
  | walk
deriving DecidableEq, Repr

/-- Kinds of access. -/
inductive Acc where
  | r | w | x
deriving DecidableEq, Repr

/-- A checked translation: the home address, the leaf, the GDDR-7 key and whether the page is presence-tagged. -/
structure Tr where
  home : Nat
  pte : W64
  key : Nat
  pres : Bool
deriving DecidableEq, Repr

def vaLimit : Nat := 2 ^ 57
/-- The pad windows of Table 06.1. -/
def padLocal : Nat := 0x01FFFFFFFFF80000
def padRemote : Nat := 0x01FFFFFFC0000000
def padRemoteEnd : Nat := 0x01FFFFFFE0000000

/-- Index bits of a level (Table 18.2). -/
def vaIndex (va lvl : Nat) : Nat := va / 2 ^ (3 + 9 * lvl) % 512

/-- Bytes a leaf of a level maps. -/
def leafSize (lvl : Nat) : Nat := 2 ^ (3 + 9 * lvl)

/-- R271, R272: reserved bits set in an entry of a level, or cont or pres misplaced. -/
def pteReserved (e lvl : Nat) : Bool :=
  let leaf := bitAt e 1
  let addr := fld e 51 12 * 4096
  fld e 62 52 != 0 || fld e 8 5 != 0 ||
    (if leaf then
      (lvl == 2 && fld e 20 12 != 0) || (lvl == 3 && fld e 29 12 != 0) ||
        (bitAt e 11 && lvl != 1) || (bitAt e 10 && space addr != .floor)
    else bitAt e 63 || fld e 11 2 != 0)

/-- R272: the table memory of this package that a partition owns. -/
def State.ownsTable (s : State) (p t : Nat) : Bool :=
  match space t with
  | .floor => s.ownsFloor p t
  | .gddr => s.ownsGddr p t
  | _ => false

/-- What a walk ends in: a leaf with its level, or a fault code with its level (R272). -/
inductive Walked where
  | leaf (e : W64) (lvl : Nat)
  | bad (code lvl : Nat)
deriving DecidableEq, Repr

/-- One level after another, `lvl` still to be read (R272); `cache` is the walk cache in front of levels 5 to 3. -/
def State.walkFrom (s : State) (p va : Nat) (cache : List WalkEntry) (t : Nat) : Nat → Walked
  | 0 => .bad 0x12 1
  | lvl + 1 =>
    let l := lvl + 1
    if !s.ownsTable p t then .bad 0x13 l else
    let key := Sp.get 0 s.partKey p
    if space t == .gddr && s.isRetired t then .bad 0x18 l else
    if space t == .gddr && key == 0 then .bad 0x1C l else
    let a := t + 8 * vaIndex va l
    let hit := if l ≥ 3 then (cache.find? fun c => c.1 == a).map (·.2) else none
    if hit.isNone && s.anyPoison a 8 then .bad 0x13 l else
    let e := (hit.getD (w64 (s.readVal key a 8))).toNat
    if !bitAt e 0 then .bad 0x11 l else
    if pteReserved e l then .bad 0x12 l else
    if (l ≥ 4 && bitAt e 1) || (l == 1 && !bitAt e 1) then .bad 0x12 l else
    if bitAt e 1 then .leaf (w64 e) l
    else s.walkFrom p va cache (fld e 51 12 * 4096) lvl

/-- Walk of R272: for a colour of a partition, with the walk cache given. -/
def State.walkVa (s : State) (p c va : Nat) (cache : List WalkEntry) : Walked :=
  if !s.bound p c then .bad 0x51 0
  else s.walkFrom p va cache ((s.colour c).root.toNat * 4096) 5

/-- A TLB entry that translates an address for a colour (R274). -/
def TlbEntry.hits (e : TlbEntry) (c va : Nat) : Bool :=
  e.colour.toNat == c && e.base ≤ va && va < e.base + e.size

/-- The leaf for an address: the TLB's, or the walk's (R274). Gives the leaf, the virtual base and the size; a failure's level
stands in tcause for codes 0x10 to 0x13 only (19 Table 19.2). -/
def State.leafFor (s : State) (n c va : Nat) : Except (Nat × Nat) (W64 × Nat × Nat) :=
  match (s.core n).tlb.find? (·.hits c va) with
  | some e => .ok (e.pte, e.base, e.size)
  | none =>
    match s.partOf n with
    | none => .error (0x51, 0)
    | some p =>
      match s.walkVa p c va (Sp.get [] s.walk (n / 16)) with
      | .bad code lvl => .error (code, if 0x10 ≤ code && code ≤ 0x13 then lvl else 0)
      | .leaf e lvl => .ok (e, va - va % leafSize lvl, leafSize lvl)

/-- Accesses of the colour must come from sealed frames (26 R368). -/
def State.mustBeSealed (s : State) (c : Nat) : Bool :=
  let v := s.vf (s.colour c).vf.toNat
  v.st == .locked || v.st == .run

/-- The memory checks after the leaf and its permissions (R269, R272, 27 R379, 10 R189): code of the fault, if any. -/
def State.memFault (s : State) (p c h : Nat) (pte : Nat) : Option Nat :=
  match space h with
  | .floor => if s.ownsFloor p h then none else some 0x1B
  | .gddr =>
    if !s.ownsGddr p h then some 0x1B
    else if s.isRetired h then some 0x18
    else if (if bitAt pte 9 then Sp.get 0 s.partKey p else (s.colour c).key) == 0 then some 0x1C
    else none
  | .reg => if s.ownsPage p h then none else some 0x1B
  | .remote => if fld h 50 41 == Config.deviceNumber.toNat then some 0x1B else none
  | _ => some 0x1B

/-- R272: permission of a leaf for an access at a level; `cp` is false for streams, elements and engines (R269). -/
def permFault (pte h : Nat) (lvlS cp : Bool) (acc : Acc) : Option Nat :=
  let ok := match acc with | .r => bitAt pte 2 | .w => bitAt pte 3 | .x => bitAt pte 63
  if !ok || (!lvlS && !bitAt pte 4) then some 0x09
  else if space h == .crown then some 0x0A
  else if space h == .reg && (!lvlS || !cp) then some 0x09
  else none

/-- Translation and checks of one access outside the pad windows for an agent of core n (R267 to R272). -/
def State.xlate (s : State) (n c va : Nat) (lvlS cp : Bool) (acc : Acc) : Except XF Tr :=
  if va ≥ vaLimit then .error (.fault 0x10 0 (w64 va)) else
  match s.leafFor n c va with
  | .error (code, lvl) => .error (.fault code lvl (w64 va))
  | .ok (pte, base, size) =>
    let e := pte.toNat
    let pa := fld e 51 12 * 4096
    -- the leaf's base: aligned to its size, as for a 64 KiB entry derived from one leaf (R273)
    let h := pa - pa % size + (va - base)
    -- "bank span" stands on every access through the leaf (R272)
    if space h == .floor && bankOf (pa - pa % size) != bankOf (pa - pa % size + size - 1) then .error (.fault 0x1D 0 (w64 va)) else
    match permFault e h lvlS cp acc with
    | some code => .error (.fault code 0 (w64 va))
    | none =>
      if acc == .w && s.sealedFrame h then .error (.fault 0x09 0 (w64 va)) else
      if acc == .x && !lvlS && s.mustBeSealed c && !s.sealedFrame h then .error (.fault 0x09 0 (w64 va)) else
      let p := s.partid n
      match s.memFault p c h e with
      | some code => .error (.fault code 0 (w64 va))
      | none =>
        .ok { home := h, pte := pte, key := if bitAt e 9 then Sp.get 0 s.partKey p else (s.colour c).key,
              pres := bitAt e 10 }

/-- As `xlate`, with the pad windows of Table 06.1 in front: the local window reaches core n's own pad, and the others
raise an access fault. -/
def State.resolve (s : State) (n c va : Nat) (lvlS cp : Bool) (acc : Acc) : Except XF Tr :=
  if padRemote ≤ va && va < vaLimit then
    if padLocal ≤ va then .ok { home := padHome n (va - padLocal), pte := 0, key := 0, pres := false }
    else .error (.fault 0x18 0 (w64 va))
  else s.xlate n c va lvlS cp acc

/-- R101: alignment first, then translation and permission. -/
def State.access (s : State) (n c va size : Nat) (lvlS cp : Bool) (acc : Acc) : Except XF Tr :=
  if va % size != 0 then .error (.fault 0x08 0 (w64 va)) else s.resolve n c va lvlS cp acc

/-- How an agent translates: the core pad windows of Table 06.1 in front, or, for an engine, the remote pads too. -/
def State.resolveEngine (s : State) (n c va : Nat) (lvlS : Bool) (acc : Acc) : Except XF Tr :=
  if padRemote ≤ va && va < padRemoteEnd then
    .ok { home := padHome ((va - padRemote) / 2 ^ 19) ((va - padRemote) % 2 ^ 19), pte := 0, key := 0, pres := false }
  else s.resolve n c va lvlS false acc

/-- The first byte an area touches in each of its 4 KiB pages, in ascending order. -/
def pageStarts (va len : Nat) : List Nat :=
  if len == 0 then [] else
  (List.range ((va + len - 1) / 4096 - va / 4096 + 1)).map fun i => if i == 0 then va else (va / 4096 + i) * 4096

/-- Addresses checked one after another: the page of each. The fault's tval is the first failing address. -/
def checkPages (tr : Nat → Except XF Tr) : List Nat → Except XF (List Page)
  | [] => .ok []
  | va :: rest =>
    match tr va with
    | .error e => .error e
    | .ok t =>
      match checkPages tr rest with
      | .error e => .error e
      | .ok l => .ok ({ vpage := va / 4096, home := t.home - va % 4096, key := t.key, pres := t.pres } :: l)

/-- The pages of an area checked for an access by core n, in ascending order. -/
def State.pages (s : State) (n c : Nat) (lvlS cp : Bool) (acc : Acc) (va len : Nat) : Except XF (List Page) :=
  checkPages (fun va => s.resolve n c va lvlS cp acc) (pageStarts va len)

/-- The pages of an area read for a colour, each from a sealed frame where the colour's function requires it (26 R368). -/
def State.sealedPages (s : State) (c va : Nat) (ps : Except XF (List Page)) : Except XF (List Page) :=
  match ps with
  | .error e => .error e
  | .ok l =>
    if !s.mustBeSealed c then .ok l else
    match l.find? fun q => !s.sealedFrame q.home with
    | some q => .error (.fault 0x09 0 (w64 (Nat.max va (q.vpage * 4096))))
    | none => .ok l

/-- The home of a virtual address through checked pages, with the page's key and whether it is presence-tagged. -/
def pageHome (pages : List Page) (va : Nat) : Tr :=
  match pages.find? fun q => q.vpage == va / 4096 with
  | some q => { home := q.home + va % 4096, pte := 0, key := q.key, pres := q.pres }
  | none => { home := 0, pte := 0, key := 0, pres := false }

end Sys2Proof.Machine
end

