-- ==== Sys2Proof/Machine/Access.lean ====
section
/-!
DEFINITION. What a core reads and writes: its registers as the block has left them (04 R54 to R57), its L1 copies (06
R100, 17 R251, R252), and the bytes a load reads (04 R58).
-/
namespace Sys2Proof.Machine

/-- What a step of this machine answers. -/
abbrev Out := Host.Outcome State Fault Refusal

/-! ## The block in progress of the core whose turn it is -/

def State.blk (s : State) : Blk := s.me.blk
def State.setBlk (s : State) (b : Blk) : State := s.setMe { s.me with blk := b }
/-- The registers as the earlier instructions of the block left them (04 R56). -/
def State.w (s : State) : Regs := s.me.blk.w
def State.setW (s : State) (r : Regs) : State := s.setBlk { s.blk with w := r }
/-- Hold an effect until commit (04 R57). -/
def State.hold (s : State) (h : Held) : State := s.setBlk { s.blk with held := s.blk.held ++ [h] }
def State.holdAll (s : State) (l : List Held) : State := s.setBlk { s.blk with held := s.blk.held ++ l }
/-- The number of the core whose turn it is. -/
def State.cur (s : State) : Nat := s.curCore.toNat

/-! ## Registers (04 R54, 05 R75, 27 R376) -/

/-- A scalar register; x0 reads as zero (04 R54). -/
def Regs.getX (r : Regs) (a : BitVec 6) : W64 := if a = 0 then 0 else Sp.get 0 r.x a.toNat
/-- Write a scalar register; x0 discards the value. A write ends the register's mark (27 R376). -/
def Regs.setX (r : Regs) (d : BitVec 6) (v : W64) : Regs :=
  if d = 0 then r else { r with x := Sp.set 0 r.x d.toNat v, bad := Sp.erase r.bad d.toNat, arms := Sp.erase r.arms d.toNat }
/-- A predicate; p0 reads as all ones (04 R54). -/
def Regs.getP (r : Regs) (a : BitVec 3) : W32 := if a = 0 then 0xFFFFFFFF else Sp.get 0 r.p a.toNat
/-- Write a predicate; a write to p0 is ignored. -/
def Regs.setP (r : Regs) (d : BitVec 3) (v : W32) : Regs :=
  if d = 0 then r else { r with p := Sp.set 0 r.p d.toNat v, bad := Sp.erase r.bad (128 + d.toNat) }
def Regs.getV (r : Regs) (a : BitVec 5) : Line := Sp.get 0 r.v a.toNat
def Regs.setV (r : Regs) (d : BitVec 5) (v : Line) : Regs :=
  { r with v := Sp.set 0 r.v d.toNat v, bad := Sp.erase r.bad (64 + d.toNat) }

def State.x (s : State) (a : BitVec 6) : W64 := s.w.getX a
def State.setX (s : State) (d : BitVec 6) (v : W64) : State := s.setW (s.w.setX d v)
/-- The predicate a 6-bit register field names (02 R26: its upper bits are zero). -/
def State.p (s : State) (a : BitVec 6) : W32 := s.w.getP (a.setWidth 3)
def State.setP (s : State) (d : BitVec 6) (v : W32) : State := s.setW (s.w.setP (d.setWidth 3) v)
/-- The vector register a 6-bit register field names (02 R26). -/
def State.v (s : State) (a : BitVec 6) : Line := s.w.getV (a.setWidth 5)
def State.setV (s : State) (d : BitVec 6) (v : Line) : State := s.setW (s.w.setV (d.setWidth 5) v)

/-- 02 R25: the guard is true when bit 0 of p[g], XOR gs, is 1. -/
def State.guard (s : State) (g : BitVec 3) (gs : Bool) : Bool := (s.w.getP g).getLsbD 0 ^^ gs

/-! ## What is on its way -/

/-- Dword i of a packet's header, and its type (24 Table 24.2). -/
def Packet.d (p : Packet) (i : Nat) : Nat := (p.hdr.getD i 0).toNat
def Packet.type (p : Packet) : Nat := fld (p.d 0) 63 60

/-- The core whose place in the network an agent sends from; a bank unit or slice counts from 1024. -/
def Who.sender : Who → Nat
  | .loader _ _ n => n
  | .core n => n | .engine n => n | .stream n _ => n | .vane n => n | .island n => n | .elem e _ | .row e _ _ => e / 256 * 4 + e / 16 % 16 / 8 * 2 + e % 16 / 8 | .bank b => 1024 + b

def State.sentBy (s : State) (k : Nat) : List Sent := Sp.get [] s.net.sent k

/-- Remote writes of an agent not yet acknowledged (17 R263). -/
def State.unacked (s : State) (who : Who) : Bool :=
  (s.sentBy who.sender).any fun e => e.who == who && e.pkt.type == 2

/-- Core n has bank operations or SC operations that are not performed yet. -/
def State.pending (s : State) (n : Nat) : Bool :=
  s.bankOps.any (fun o => o.core == n) || s.banks.any fun b => b.2.scq.any fun o => o.core == n

/-- A control processor's access that has to walk must wait: an earlier block of core n has sent a write to a home that is not
performed yet (21 R301). A translation that the TLB holds needs no walk, nor do the pad windows. -/
def State.walkHeld (s : State) (n c va : Nat) : Bool :=
  va < padRemote && !((s.core n).tlb.any (·.hits c va)) && (s.pending n || s.unacked (.core n))

/-! ## L1 copies -/

/-- Lines of a set of core n's L1: 1,024 sets of 12 ways (06 R100), the set being the line's number modulo 1,024 (log 60). -/
def State.l1Set (s : State) (n line : Nat) : List Nat :=
  ((s.core n).l1.map (·.1)).filter fun l => l % 1024 == line % 1024

def emptyLine (key : Nat) : L1Line := { data := 0, dirty := 0, marks := 0, since := 0, key := key, sent := false }

/-- The bytes and markers of a line as they stand at its home (17 R251.2). -/
def State.homeLine (s : State) (key line : Nat) : Line × BitVec 16 :=
  (BitVec.ofNat 1024 (s.readVal key (line * 128) 128),
   BitVec.ofNat 16 ((List.range 16).foldl (fun a i => a + (if s.poisoned (line * 128 + 8 * i) then 2 ^ i else 0)) 0))

/-- One byte for each dirty bit. -/
def expandMask (m : BitVec 128) : Line :=
  (List.range 128).foldl (fun (a : Line) i => if m.getLsbD i then a ||| (0xFF#1024 <<< (8 * i)) else a) 0

/-- Write the dirty bytes of a line of core n at their home at one instant, with the markers they carry (17 R252, 19
R291). A line of a retired frame is discarded and counted (27 R379). -/
def State.writeLine (s : State) (line : Nat) (l : L1Line) : State :=
  let h := line * 128
  if l.dirty = 0 then s
  else if space h == .gddr && s.isRetired h then
    { s with chans := Sp.set Chan.reset s.chans (chanOf h) { s.chan (chanOf h) with wbdrop := satAdd 8 (s.chan (chanOf h)).wbdrop 1 } }
  else
    let s := (List.range 128).foldl (fun s i =>
      if l.dirty.getLsbD i then s.writeByte l.key (h + i) (lineByte l.data i) else s) s
    let u := unitSize h
    (List.range (128 / u)).foldl (fun s k =>
      let bits := (List.range u).map fun i => l.dirty.getLsbD (k * u + i)
      let bad := (List.range u).any fun i => l.dirty.getLsbD (k * u + i) && l.marks.getLsbD ((k * u + i) / 8)
      if bad then s.mark (h + k * u) true
      else if bits.all (·) then s.mark (h + k * u) false else s) s

/-- Write back core n's copy of a line, if it is dirty, and leave it clean (17 R252). -/
def State.l1WriteBack (s : State) (n line : Nat) : State :=
  match Sp.find? (s.core n).l1 line with
  | none => s
  | some l =>
    let s := s.writeLine line l
    let c := s.core n
    if space (line * 128) == .gddr && s.isRetired (line * 128) then s.setCore n { c with l1 := Sp.erase c.l1 line }
    else s.setCore n { c with l1 := Sp.put c.l1 line { l with dirty := 0, since := 0, sent := false } }

/-- Drop core n's copy of a line, written back first. -/
def State.l1Drop (s : State) (n line : Nat) : State :=
  let s := s.l1WriteBack n line
  s.setCore n { s.core n with l1 := Sp.erase (s.core n).l1 line }

/-- A way for a line in its set: where 12 other lines stand there, one is written back and leaves (06 R100; log 60). -/
def State.l1Room (s : State) (n line : Nat) : State :=
  let set := s.l1Set n line
  if set.contains line || set.length < 12 then s else s.l1Drop n (set.headD 0)

/-- Fill core n's copy of a line from its home; the copy keeps the core's own dirty bytes (17 R251.2). -/
def State.l1Fill (s : State) (n line key : Nat) : State :=
  let s := s.l1Room n line
  let c := s.core n
  let old := (Sp.find? c.l1 line).getD (emptyLine key)
  let (d, m) := s.homeLine key line
  let em := expandMask old.dirty
  let keep := (List.range 16).foldl (fun (a : BitVec 16) i =>
    if old.dirty.extractLsb' (8 * i) 8 = 0xFF#8 then a ||| (1#16 <<< i) else a) 0
  let l := { old with data := (d &&& ~~~em) ||| (old.data &&& em), marks := (m &&& ~~~keep) ||| (old.marks &&& keep),
                      key := key }
  s.setCore n { c with l1 := Sp.put c.l1 line l }

/-- Write back every dirty line of core n: the release half of 17 R258. -/
def State.l1WriteBackAll (s : State) (n : Nat) : State :=
  ((s.core n).l1.map (·.1)).foldl (fun s line => s.l1WriteBack n line) s

/-- Write back and drop every copy of core n: the acquire half of 17 R258, and the owner-tag change of 06 R100. -/
def State.l1DropAll (s : State) (n : Nat) : State :=
  ((s.core n).l1.map (·.1)).foldl (fun s line => s.l1Drop n line) s

/-- Drop core n's copies of the lines of [h, h + len). -/
def State.l1DropRange (s : State) (n h len : Nat) : State :=
  (((s.core n).l1.map (·.1)).filter fun line => line * 128 + 128 > h && line * 128 < h + len).foldl
    (fun s line => s.l1Drop n line) s

/-- A committed write of core n reaches its home, past the core's own copies. At a frame retired since its check it is dropped
(27 R379, log 27). -/
def State.homeWrite (s : State) (n key h : Nat) (bs : List Byte) : State :=
  if space h == .gddr && s.isRetired h then s else (s.l1DropRange n h bs.length).write key h bs

/-- A plain store into core n's copy of its line, filled first if there is none (17 R252); the bytes lie in one line. -/
def State.l1Store (s : State) (n key h : Nat) (bs : List Byte) : State :=
  let line := h / 128
  let s := if (Sp.find? (s.core n).l1 line).isSome then s else s.l1Fill n line key
  let c := s.core n
  let l := (Sp.find? c.l1 line).getD (emptyLine key)
  let d := (bs.zip (List.range bs.length)).foldl (fun d b => setLineByte d (h % 128 + b.2) b.1) l.data
  let m := (List.range bs.length).foldl (fun (m : BitVec 128) i => m ||| (1#128 <<< (h % 128 + i))) l.dirty
  -- a store that covers a whole unit of the memory clears its markers (19 R291)
  let u := unitSize h
  let mk := (List.range 16).foldl (fun (a : BitVec 16) i =>
    let b := 8 * i - 8 * i % u
    if h % 128 ≤ b && b + u ≤ h % 128 + bs.length then a &&& ~~~(1#16 <<< i) else a) l.marks
  let l' := { l with data := d, dirty := m, marks := mk, since := if l.dirty = 0 then s.cycle else l.since }
  s.setCore n { c with l1 := Sp.put c.l1 line l' }

/-! ## Loads -/

/-- The bytes a held effect stores, from its home address up: those of ST, STL, VST, VSCAT, STSC and NST (04 R57, R58), and the
header and zero words of a node that NALLOC took (15 R245). -/
def Held.bytes : Held → Option (Nat × List Byte)
  | .store h bs _ _ => some (h, bs)
  | .bank op =>
    match op.kind with
    | .stsc ty v => some (op.addr, leBytes (if ty == 6 || ty == 7 then 8 else 4) v.toNat)
    | _ => none
  | .node h v _ => some (h, leBytes 8 v.toNat)
  | .nalloc _ h _ hdr => some (h, leBytes 8 hdr.toNat ++ List.replicate 56 0)
  | _ => none

/-- The byte the latest held store wrote to a home address (04 R58). -/
def heldByte (l : List Held) (h : Nat) : Option Byte :=
  match l with
  | [] => none
  | e :: t =>
    match heldByte t h with
    | some b => some b
    | none =>
      match e.bytes with
      | some (a, bs) => if a ≤ h && h < a + bs.length then bs[h - a]? else none
      | none => none

/-- A byte in memory as core n's control processor sees it with no store of its block in front (17 R251), and whether
its unit is marked. `pres`: the page is presence-tagged, so that no L1 copy stands in front (06 R100). -/
def State.coreByte (s : State) (n : Nat) (pres : Bool) (key h : Nat) : Byte × Bool :=
  match (if pres then none else Sp.find? (s.core n).l1 (h / 128)) with
  | some l => (lineByte l.data (h % 128), l.marks.getLsbD (h % 128 / 8))
  | none => (s.readHome key h, s.poisoned h)

/-- The bytes of a checked access, each from the latest store of the block or from memory (04 R58, 17 R251). A marked
byte ends the read with code 0x0B and its address (19 R292). `reg` reads a register page. -/
def State.loadFrom (s : State) (reg : Nat → W64) (t : Tr) (va : Nat) (i : Nat) : Nat → Except XF (List Byte)
  | 0 => .ok []
  | k + 1 =>
    let h := t.home + i
    let one : Except XF Byte :=
      match heldByte s.blk.held h with
      | some b => .ok b
      | none =>
        match space h with
        | .remote =>
          match Sp.find? s.blk.remote h with
          | some (b, bad) => if bad then .error (.fault 0x0B 0 (w64 (va + i))) else .ok b
          | none => .error (.remote h (k + 1) (w64 (va + i)))
        | .reg => .ok ((reg (h - h % 8)).extractLsb' (8 * (h % 8)) 8)
        | _ =>
          let (b, bad) := s.coreByte s.cur t.pres t.key h
          if bad then .error (.fault 0x0B 0 (w64 (va + i))) else .ok b
    match one with
    | .error e => .error e
    | .ok b =>
      match s.loadFrom reg t va (i + 1) k with
      | .error e => .error e
      | .ok l => .ok (b :: l)

/-- The level and colour of the core's own accesses: its level, and its colour register as the last committed block left
it (18 R268). -/
def State.myColour (s : State) : Nat := s.me.regs.colour.toNat

/-- Translation and checks of an access by the control processor, alignment first (06 R101); a walk waits for what earlier blocks
have sent (21 R301). -/
def State.coreAccess (s : State) (va size : Nat) (acc : Acc) : Except XF Tr :=
  if va % size != 0 then .error (.fault 0x08 0 (w64 va))
  else if s.walkHeld s.cur s.myColour va then .error .walk
  else s.access s.cur s.myColour va size s.me.lvlS true acc

/-- The address of a MEM form (02 R28). -/
def State.memAddr (s : State) (o : MEM) : W64 :=
  if o.ix then s.x o.a + (s.x o.b <<< o.sh.toNat) + o.off.signExtend 64 else s.x o.a + o.off.signExtend 64

/-- Width in bytes of a scalar type code (Table 02.3). -/
def tyBytes (ty : Nat) : Nat :=
  match ty with
  | 0 => 1 | 1 => 1 | 2 => 2 | 3 => 2 | 4 => 4 | 5 => 4 | 6 => 8 | 7 => 8
  | 8 => 4 | 9 => 2 | 10 => 2 | 11 => 1 | 12 => 1 | _ => 4

/-- A command whose writes a later release waits for (19 R298). -/
def IslandCmd.saves : IslandCmd → Bool
  | .saveRec .. => true
  | .rest .. => true
  | .save .. => true
  | _ => false
/-- Every earlier write of core n is performed (17 R258), and acknowledged where the scope asks for it (R263); those of its
RSAVE and ASAVE are at their homes, on another device too (19 R298). -/
def State.settled (s : State) (n : Nat) (sys : Bool) : Bool :=
  !s.pending n && !((s.core n).island.queue.any IslandCmd.saves) && !s.unacked (.island n) && !(sys && s.unacked (.core n))

end Sys2Proof.Machine
end

