-- ==== Sys2Proof/Machine/Caches.lean ====
section
/-!
DEFINITION. Copies that the caches take and give up of their own accord (06 R100, R109; 17 R251; 18 R273 to R275; 27 R375).
-/
namespace Sys2Proof.Machine

/-- An address as core n's control processor translates it for an access of a kind. -/
def State.coreSees (s : State) (n : Nat) (va : W64) (acc : Acc) : Except XF Tr :=
  let c := s.core n
  s.resolve n c.regs.colour.toNat va.toNat c.lvlS true acc

/-- The memory that an L1 or an instruction cache may hold lines of (17 Table 17.1, 06 R100). -/
def cacheable (t : Tr) : Bool := !t.pres && (space t.home == .floor || space t.home == .gddr)

/-- The L1 takes a copy of a line, at any time (17 R251). -/
def State.fillL1 (s : State) (n : Nat) (va : W64) : State :=
  match s.coreSees n va .r with
  | .ok t => if cacheable t then s.l1Fill n (t.home / 128) t.key else s
  | .error _ => s

/-- The fetch path takes a copy of a line of floor, GDDR-7 or the core's pad that has no marker (02 R32, 06 R108). -/
def State.fillFetch (s : State) (n : Nat) (va : W64) : State :=
  match s.coreSees n va .x with
  | .ok t =>
    let sp := space t.home
    if (sp == .floor || sp == .gddr || sp == .pad) && !s.anyPoison (t.home / 128 * 128) 128 then
      s.setCore n { s.core n with ifetch := Sp.put (s.core n).ifetch (t.home / 128) (s.homeLine t.key (t.home / 128)).1 }
    else s
  | .error _ => s

def State.dropFetch (s : State) (n line : Nat) : State := s.setCore n { s.core n with ifetch := Sp.erase (s.core n).ifetch line }

/-- The way mask of an access (26 R358): that of the function of its colour, or, through the partition key, that of function
63 − part, which must belong to the partition. -/
def State.wayMask (s : State) (p c : Nat) (shared : Bool) : BitVec 16 :=
  if !shared then (s.vf (s.colour c).vf.toNat).waymask
  else if (s.vf (63 - p)).part.toNat == p then (s.vf (63 - p)).waymask else 0

/-- Whether a table at an address is memory that a partition's walk may read (18 R272). -/
def State.tableServed (s : State) (p t : Nat) : Bool :=
  s.ownsTable p t && !(space t == .gddr && (s.isRetired t || Sp.get 0 s.partKey p == 0))

/-- An L2 slice takes a line that an access of a colour reaches, in a way that the access's mask allows (27 R375, 26 R358). -/
def State.fillL2 (s : State) (n : Nat) (c : BitVec 8) (va : W64) (way : BitVec 4) : State :=
  let p := s.partid n
  match s.resolve n c.toNat va.toNat true true .r with
  | .ok t =>
    if space t.home == .gddr && (s.wayMask p c.toNat (t.pte.getLsbD 9)).getLsbD way.toNat then
      s.l2Fill (s.sliceOf p t.home) (t.home / 128) t.key way.toNat
    else s
  | .error _ => s

/-- The addresses of the entries that a walk of an address reads, in order (18 R270): `k` levels still to be read. -/
def State.tablePath (s : State) (p va t : Nat) : Nat → List Nat
  | 0 => []
  | k + 1 =>
    let a := t + 8 * vaIndex va (k + 1)
    let e := s.readVal (Sp.get 0 s.partKey p) a 8
    if !s.tableServed p t then [] else
    a :: if !bitAt e 0 || bitAt e 1 then [] else s.tablePath p va (fld e 51 12 * 4096) k

/-- An L2 slice takes the line of the entry that a walk reads k entries after the root's, through the partition key, in a way of the
mask of function 63 − part (18 R272, 26 R358). -/
def State.fillTable (s : State) (n : Nat) (c : BitVec 8) (va : W64) (k : Nat) (way : BitVec 4) : State :=
  let p := s.partid n
  if !s.bound p c.toNat then s else
  match (s.tablePath p va.toNat ((s.colour c.toNat).root.toNat * 4096) 5)[k]? with
  | some a =>
    if space a == .gddr && (s.wayMask p c.toNat true).getLsbD way.toNat then
      s.l2Fill (s.sliceOf p a) (a / 128) (Sp.get 0 s.partKey p) way.toNat
    else s
  | none => s

/-- Some agent of core n may be making an access of a colour, for which it walks (21 R301): the control processor, once every
held effect of its earlier blocks has been delivered and every write they sent is performed; a running stream; or an element of a resident region. -/
def State.mayWalk (s : State) (n : Nat) (c : BitVec 8) : Bool :=
  let k := s.core n
  (k.regs.colour == c && (k.run == .running || k.run == .dispatch) && !k.blk.closing && !s.pending n && !s.unacked (.core n)) ||
    k.streams.any (fun t => t.2.st == .running && t.2.colour == c) ||
    s.regions.any fun r => r.2.st == .resident && r.1 / 256 == n / 4 && (Sp.find? r.2.colours c.toNat).isSome

/-- The set of a TLB entry: 128 sets of 8 ways (18 R274), the set being the page's number modulo 128 (log 60). -/
def TlbEntry.set (e : TlbEntry) : Nat := e.base / e.size % 128

/-- The TLB takes a leaf, as one 64 KiB entry where it has cont set and that is asked for (18 R273); the oldest entry of its set
leaves where all 8 ways are taken (R274). A walk that faults installs nothing. -/
def State.fillTlb (s : State) (n : Nat) (c : BitVec 8) (va : W64) (cont : Bool) : State :=
  if !s.mayWalk n c then s else
  match s.partOf n with
  | none => s
  | some p =>
    match s.walkVa p c.toNat va.toNat (Sp.get [] s.walk (n / 16)) with
    | .bad _ _ => s
    | .leaf e lvl =>
      let size := if cont && e.getLsbD 11 then 65536 else leafSize lvl
      let t : TlbEntry := { colour := c, base := va.toNat - va.toNat % size, size := size, pte := e }
      let old := (s.core n).tlb
      let mine := old.filter fun e => e.set == t.set
      s.setCore n { s.core n with tlb := (if mine.length < 8 then old else old.erase (mine.headD t)) ++ [t] }

def State.dropTlb (s : State) (n k : Nat) : State := s.setCore n { s.core n with tlb := (s.core n).tlb.eraseIdx k }

/-- The table entries at levels 5 to 3 on the way of a walk that reaches a leaf (18 Table 18.2). -/
def State.upperEntries (s : State) (p va t : Nat) : Nat → List WalkEntry
  | 0 => []
  | lvl + 1 =>
    let l := lvl + 1
    if l < 3 then [] else
    let a := t + 8 * vaIndex va l
    let e := w64 (s.readVal (Sp.get 0 s.partKey p) a 8)
    if e.getLsbD 1 then [] else (a, e) :: s.upperEntries p va (fld e.toNat 51 12 * 4096) lvl

/-- A cluster's walk cache of 512 entries takes what a walk has read (18 R274). -/
def State.fillWalk (s : State) (n : Nat) (c : BitVec 8) (va : W64) : State :=
  if !s.mayWalk n c then s else
  match s.partOf n with
  | none => s
  | some p =>
    match s.walkVa p c.toNat va.toNat [] with
    | .bad _ _ => s
    | .leaf _ _ =>
      let new := s.upperEntries p va.toNat ((s.colour c.toNat).root.toNat * 4096) 5
      let old := (Sp.get [] s.walk (n / 16)).filter fun e => !new.any fun x => x.1 == e.1
      { s with walk := Sp.put s.walk (n / 16) ((old ++ new).drop (old.length + new.length - 512)) }

def State.dropWalk (s : State) (n k : Nat) : State :=
  { s with walk := Sp.put s.walk (n / 16) ((Sp.get [] s.walk (n / 16)).eraseIdx k) }

/-- The control-block cache gives an entry up (06 R109). -/
def State.dropBlock (s : State) (n k : Nat) : State := s.setCore n { s.core n with cbc := (s.core n).cbc.eraseIdx k }

/-- A core gives up a rule entry it has cached; the next lookup of its pair reads the table (15 R233, 27 R376). -/
def State.dropRule (s : State) (n k : Nat) : State := s.setCore n { s.core n with rcache := (s.core n).rcache.eraseIdx k }

end Sys2Proof.Machine
end

