-- ==== Sys2Proof/Machine/Operands.lean ====
section
/-!
DEFINITION. Which registers an instruction's entry names as sources and as destinations (04 R56, 07 R133, 27 R376). A
register is numbered file × 64 + number, file 0 scalar, 1 vector, 2 predicate.
-/
namespace Sys2Proof.Machine

/-- A scalar register field. -/
def X (f : BitVec 6) : Nat := f.toNat
/-- A vector register field. -/
def V (f : BitVec 6) : Nat := 64 + f.toNat % 32
/-- A predicate field. -/
def P (f : BitVec 6) : Nat := 128 + f.toNat % 8

/-- The registers of an R28 address. -/
def addrRegs (o : MEM) : List Nat := if o.ix then [X o.a, X o.b] else [X o.a]
/-- The mask of VLD, and the old vector where lanes outside it keep their value (05 Table 05.1). -/
def vldOld (o : MEM) : List Nat :=
  P (o.func.setWidth 6 &&& 7) :: (if o.func.getLsbD 3 then [] else [V o.d])
/-- The mask of a lane form, and the old destination where lanes outside it keep their value. -/
def oldLanes (o : VEC) : List Nat := if o.m == 0 then [] else P (o.m.setWidth 6) :: (if o.z then [] else [V o.d])

/-- The registers an instruction reads, its guard apart. -/
def sources : Instr → List Nat
  | .add o => [X o.a, X o.b]
  | .sub o => [X o.a, X o.b]
  | .mul o => [X o.a, X o.b]
  | .mulh o => [X o.a, X o.b]
  | .div o => [X o.a, X o.b]
  | .rem o => [X o.a, X o.b]
  | .and o => [X o.a, X o.b]
  | .or o => [X o.a, X o.b]
  | .xor o => [X o.a, X o.b]
  | .shl o => [X o.a, X o.b]
  | .shr o => [X o.a, X o.b]
  | .sar o => [X o.a, X o.b]
  | .min o => [X o.a, X o.b]
  | .max o => [X o.a, X o.b]
  | .cmp o => [X o.a, X o.b]
  | .sel o => [X o.a, X o.b, X o.c]
  | .pcmp o => [X o.a, X o.b]
  | .plog o => if o.func == 4 then [P o.a] else [P o.a, P o.b]
  | .pmov o => if o.func == 0 then [X o.a] else [P o.a]
  | .lreg o => if o.func.toNat ≤ 3 then [] else [X o.a]
  | .fadd o => [X o.a, X o.b]
  | .fsub o => [X o.a, X o.b]
  | .fmul o => [X o.a, X o.b]
  | .fdiv o => [X o.a, X o.b]
  | .fma o => [X o.a, X o.b, X o.c]
  | .fmin o => [X o.a, X o.b]
  | .fmax o => [X o.a, X o.b]
  | .fcmp o => [X o.a, X o.b]
  | .fcvt o => [X o.a]
  | .frsqs o => [X o.a]
  | .frcps o => [X o.a]
  | .cpy o => [X o.d, X o.a, X o.b, X o.c]
  | .cpy2 o => [X o.a, X o.c]
  | .mfc o => if o.func == 2 then [X o.a] else []
  | .colqRd o => [X o.a, X o.b]
  | .colqOpen o => [X o.a, X o.b]
  | .colqClose o => [X o.a, X o.b]
  | .rpurge o => [X o.a, X o.b]
  | .rload o => [X o.a, X o.b]
  | .rarm o => [X o.a]
  | .rcalm o => (if o.func == 2 then [] else [X o.a]) ++ (if o.func == 1 || o.func == 2 then [X o.b] else [])
  | .rtear o => [X o.a]
  | .rinj o => [X o.a, X o.b, X o.c]
  | .vnset o => [X o.a, X o.b]
  | .steerset o => if o.func == 1 then [X o.b] else [X o.a, X o.b]
  | .vnrd o => [X o.b]
  | .msend o => [X o.d, X o.a, X o.b]
  | .mmask o => [X o.a]
  | .munmask o => [X o.a]
  | .mrecvPop _ => []
  | .mrecvCfg o => [X o.a]
  | .mrecvSt _ => []
  | .mrecvFree _ => []
  | .addi o => [X o.a]
  | .andi o => [X o.a]
  | .ori o => [X o.a]
  | .xori o => [X o.a]
  | .shli o => [X o.a]
  | .shri o => [X o.a]
  | .sari o => [X o.a]
  | .movi _ => []
  | .movhi o => [X o.a]
  | .br _ => []
  | .brr o => [X o.a]
  | .call _ => []
  | .callr o => [X o.a]
  | .ret o => [X o.a]
  | .loop o => [X o.a]
  | .lea o => addrRegs o
  | .vld o => addrRegs o ++ vldOld o
  | .vst o => [V o.d, P (o.func.setWidth 6 &&& 7)] ++ addrRegs o
  | .vgath o => [X o.a, V o.b, P (o.func.setWidth 6 &&& 7)] ++ vldOld o
  | .vscat o => [V o.d, X o.a, V o.b, P (o.func.setWidth 6 &&& 7)]
  | .ld o => addrRegs o
  | .st o => X o.d :: addrRegs o
  | .lda o => addrRegs o
  | .stl o => X o.d :: addrRegs o
  | .ldf o => addrRegs o
  | .pf o => addrRegs o
  | .cflush o => (if o.func == 1 then [X o.d] else []) ++ (if o.func == 2 then [] else addrRegs o)
  | .cinv o => (if o.func == 1 then [X o.d] else []) ++ (if o.func == 2 then [] else addrRegs o)
  | .invalCb o => if o.func == 1 then [] else addrRegs o
  | .waita o => [X o.a, X o.b]
  | .amo o => [X o.a, X o.b]
  | .amof o => [X o.a, X o.b]
  | .cas o => [X o.d, X o.a, X o.b]
  | .red o => [X o.a, X o.b]
  | .redf o => [X o.a, X o.b]
  | .bupd o => [P o.d, X o.a, V o.b]
  | .bfill o => [X o.d, X o.a, X o.b]
  | .take o => addrRegs o
  | .put o => X o.d :: addrRegs o
  | .rdf o => addrRegs o
  | .clrp o => addrRegs o
  | .pstat o => addrRegs o
  | .ldsc o => addrRegs o
  | .stsc o => X o.d :: addrRegs o
  | .amoSc o => [X o.a, X o.b]
  | .casSc o => [X o.d, X o.a, X o.b]
  | .vadd o => [V o.a, V o.b] ++ oldLanes o
  | .vsub o => [V o.a, V o.b] ++ oldLanes o
  | .vmul o => [V o.a, V o.b] ++ oldLanes o
  | .vmin o => [V o.a, V o.b] ++ oldLanes o
  | .vmax o => [V o.a, V o.b] ++ oldLanes o
  | .vand o => [V o.a, V o.b] ++ oldLanes o
  | .vor o => [V o.a, V o.b] ++ oldLanes o
  | .vxor o => [V o.a, V o.b] ++ oldLanes o
  | .vshl o => (if o.func == 1 then [V o.a] else [V o.a, V o.b]) ++ oldLanes o
  | .vshr o => (if o.func == 1 then [V o.a] else [V o.a, V o.b]) ++ oldLanes o
  | .vsar o => (if o.func == 1 then [V o.a] else [V o.a, V o.b]) ++ oldLanes o
  | .vfadd o => [V o.a, V o.b] ++ oldLanes o
  | .vfsub o => [V o.a, V o.b] ++ oldLanes o
  | .vfmul o => [V o.a, V o.b] ++ oldLanes o
  | .vfma o => [V o.a, V o.b, V o.c] ++ oldLanes o
  | .vfmin o => [V o.a, V o.b] ++ oldLanes o
  | .vfmax o => [V o.a, V o.b] ++ oldLanes o
  | .vcmp o => [V o.a, V o.b, P (o.m.setWidth 6)] ++ (if o.m != 0 && !o.z then [P o.d] else [])
  | .vsel o => [V o.a, V o.b, P o.c]
  | .vred o => [V o.a, P (o.m.setWidth 6)]
  | .vperm o => [V o.a, V o.b] ++ oldLanes o
  | .vbcast o => (if o.func == 1 then [V o.a] else [X o.a]) ++ oldLanes o
  | .vext o => [V o.a]
  | .vins o => [X o.a, V o.d]
  | .vcvt o => if tyWidth o.ty < tyWidth (o.func.setWidth 5) then [V o.a, V o.d] else [V o.a]
  | .vrsqs o => [V o.a] ++ oldLanes o
  | .vrcps o => [V o.a] ++ oldLanes o
  | .wload o => if o.ty == 9 then [X o.a] else [X o.a, X o.b]
  | .mscl o => [X o.a]
  | .mma o => if o.ty == 9 then [X o.a] else [X o.a, X o.b]
  | .mmas _ => []
  | .aclr _ => []
  | .ard o => if o.func == 1 then [X o.a] else []
  | .awr o => if o.func == 0 then [V o.a] else [X o.a]
  | .asave o => [X o.a]
  | .sbind o => if o.func == 1 then [] else [X o.a, X o.b]
  | .sstart o => if o.func == 1 then [] else [X o.a]
  | .sclose _ => []
  | .sbar _ => []
  | .spos o => if o.func == 1 then [X o.a] else []
  | .sdone o => [X o.a]
  | .nalloc _ => []
  | .nfree o => [X o.a]
  | .nld o => [X o.a]
  | .nst o => [X o.a, X o.b]
  | .nlink o => [X o.a, X o.b]
  | .npush o => if o.func == 1 then [] else [X o.a, X o.b]
  | .npop _ => []
  | .nruleLook o => [X o.a, X o.b]
  | .nruleSet o => [X o.a, X o.b]
  | .nruleInv _ => []
  | .statrd _ => []
  | .fence _ => []
  | .tlbi o => (if o.func == 2 then [X o.d] else []) ++ (if o.func == 0 then [] else [X o.a]) ++ [X o.b]
  | .tlbw o => [X o.a, X o.b]
  | .trap o => [X o.a]
  | .eret _ => []
  | .mfs _ => []
  | .mts o => [X o.a]
  | .sysc _ => []
  | .bkpt _ => []
  | .halt _ => []
  | .rsave o => if o.func == 1 then [X o.b] else [X o.a, X o.b]
  | .rrest o => [X o.a, X o.b]
  | .passE _ => []
  | .constE _ => []
  | .steerE _ => []
  | .mergeE _ => []
  | .loopE _ => []
  | .callE _ => []
  | .retE _ => []
  | .addE _ => []
  | .subE _ => []
  | .mulE _ => []
  | .minE _ => []
  | .maxE _ => []
  | .andE _ => []
  | .orE _ => []
  | .xorE _ => []
  | .shlE _ => []
  | .shrE _ => []
  | .cmpE _ => []
  | .selE _ => []
  | .faddE _ => []
  | .fsubE _ => []
  | .fmulE _ => []
  | .fmaE _ => []
  | .fminE _ => []
  | .fmaxE _ => []
  | .fcmpE _ => []
  | .cvtE _ => []
  | .accE _ => []
  | .mloadE _ => []
  | .mstoreE _ => []
  | .mrmwE _ => []
  | .sdivE _ => []
  | .sexp2E _ => []
  | .slog2E _ => []
  | .ssinE _ => []
  | .stabE _ => []
  | .statE _ => []
  | .commitE _ => []
  | .routeE _ => []
  | .spaddE _ => []
  | .topkE _ => []
  | .cumsE _ => []
  | .drawE _ => []
  | .penalE _ => []
  | .adptE _ => []
  | .vaneE _ => []
  | .islandCommandPerform _ => []
  | .waitAnswer _ => []
  | .waitCancel _ => []
  | .bankReply _ => []
  | .interruptTaken _ => []
  | .remoteLoadTimeout _ => []
  | .l1WriteBack _ _ => []
  | .engineCommand _ => []
  | .bankOperation _ => []
  | .presenceArrive _ => []
  | .presenceCancel _ => []
  | .tradeTokenArrival => []
  | .lineWrite _ _ => []
  | .entryPortAdmit _ _ _ => []
  | .heldTokenAdmit _ _ _ _ => []
  | .linkTransfer _ _ _ _ => []
  | .exitReorderEmit _ _ _ _ => []
  | .countTokens _ => []
  | .mElementReply _ _ => []
  | .retire _ _ _ _ => []
  | .treeStep _ _ _ _ => []
  | .vaneCommandPerform _ => []
  | .calmSweep _ _ => []
  | .doldrums _ _ => []
  | .purgeEnd _ _ => []
  | .remoteTimeout _ _ => []
  | .loadDelivery _ _ => []
  | .elementWrite _ => []
  | .oneShotFree _ _ => []
  | .sectionStart _ _ => []
  | .sectionRelease _ _ => []
  | .sectionEarlyEnd _ _ => []
  | .completionPutRetry _ _ => []
  | .streamAccess _ _ => []
  | .portWriteToken _ _ => []
  | .portReadDelivery _ _ => []
  | .doneAction _ _ => []
  | .islandRow _ _ => []
  | .islandEmit _ _ => []
  | .ingressRecord _ _ _ _ => []
  | .headRecordServed _ _ _ => []
  | .orphan _ _ _ => []
  | .timedSlotStart _ _ => []
  | .admission _ => []
  | .loaderImage _ => []
  | .launchArm _ _ => []
  | .launchPairPush _ _ => []
  | .launchCompletion _ _ => []
  | .ptpEventMessage _ _ _ => []
  | .servoCorrection => []
  | .dispatch _ => []
  | .packetForward _ _ => []
  | .packetArrival _ => []
  | .shearedHeader _ => []
  | .reRequest _ => []
  | .acknowledgement _ => []
  | .retransmitTimeout _ => []
  | .remoteRead _ => []
  | .remoteWrite _ => []
  | .readReply _ => []
  | .routeClassDelivery _ => []
  | .readyFrame _ => []
  | .readyResend _ _ => []
  | .tokenFrame _ => []
  | .creditFrame _ => []
  | .closeFrame _ => []
  | .channelTokenSend _ _ _ => []
  | .authfail _ _ _ => []
  | .linkTrained _ => []
  | .lossOfSignal _ => []
  | .getVersion _ => []
  | .getCapabilities _ => []
  | .negotiateAlgorithms _ => []
  | .getDigests _ => []
  | .getCertificate _ => []
  | .challenge _ => []
  | .getMeasurements _ => []
  | .keyExchange _ => []
  | .finish _ => []
  | .heartbeat _ => []
  | .keyUpdate _ => []
  | .endSession _ => []
  | .setCertificate _ => []
  | .getCsr _ => []
  | .chunkSend _ => []
  | .chunkGet _ => []
  | .vendorDefinedRequest _ => []
  | .getTdispVersion _ => []
  | .getTdispCapabilities _ => []
  | .lockInterfaceRequest _ => []
  | .getDeviceInterfaceReport _ => []
  | .getDeviceInterfaceState _ => []
  | .startInterfaceRequest _ _ => []
  | .stopInterfaceRequest _ => []
  | .frozenSetChange _ => []
  | .partWrite _ _ => []
  | .vfWrite _ _ => []
  | .lpermWrite _ _ => []
  | .colourTableWrite _ _ => []
  | .ownerTagWrite _ _ => []
  | .startCommand _ _ _ _ _ => []
  | .coreReset _ => []
  | .retireCommand _ => []
  | .keyLoad _ _ _ _ => []
  | .linkKeyLoad _ _ _ _ => []
  | .lkstatWrite _ _ _ => []
  | .sealRange _ _ _ => []
  | .setPre _ => []
  | .patrol _ _ => []
  | .coldReset => []
  | .throttle => []
  | .throttleRestore => []
  | .thermalTrip => []
  | .lschedWrite _ _ => []
  | .lcbaseWrite _ _ => []
  | .lrootWrite _ _ => []
  | .ttctlWrite _ _ => []
  | .ttWrite _ _ _ _ => []
  | .ingWrite _ _ _ => []
  | .bkctlWrite _ _ _ => []
  | .bagctlWrite _ _ => []
  | .bagspillWrite _ _ => []
  | .flbaseWrite _ _ => []
  | .netctlWrite _ _ => []
  | .channelEntryWrite _ _ _ _ => []
  | .registerWrite _ _ => []
  | .releaseScrub _ _ => []
  | .hostEgressDelivery _ _ => []

/-- The registers an instruction writes. -/
def dests : Instr → List Nat
  | .add o => [X o.d]
  | .sub o => [X o.d]
  | .mul o => [X o.d]
  | .mulh o => [X o.d]
  | .div o => [X o.d]
  | .rem o => [X o.d]
  | .and o => [X o.d]
  | .or o => [X o.d]
  | .xor o => [X o.d]
  | .shl o => [X o.d]
  | .shr o => [X o.d]
  | .sar o => [X o.d]
  | .min o => [X o.d]
  | .max o => [X o.d]
  | .cmp o => [X o.d]
  | .sel o => [X o.d]
  | .pcmp o => [P o.d]
  | .plog o => [P o.d]
  | .pmov o => if o.func == 0 then [P o.d] else [X o.d]
  | .lreg o => if o.func.toNat ≤ 3 then [X o.d] else []
  | .fadd o => [X o.d]
  | .fsub o => [X o.d]
  | .fmul o => [X o.d]
  | .fdiv o => [X o.d]
  | .fma o => [X o.d]
  | .fmin o => [X o.d]
  | .fmax o => [X o.d]
  | .fcmp o => [X o.d]
  | .fcvt o => [X o.d]
  | .frsqs o => [X o.d]
  | .frcps o => [X o.d]
  | .cpy _ => []
  | .cpy2 _ => []
  | .mfc o => [X o.d]
  | .colqRd o => [X o.d]
  | .colqOpen _ => []
  | .colqClose _ => []
  | .rpurge _ => []
  | .rload o => [X o.d]
  | .rarm o => [X o.d]
  | .rcalm o => [X o.d]
  | .rtear _ => []
  | .rinj _ => []
  | .vnset _ => []
  | .steerset _ => []
  | .vnrd o => [X o.d]
  | .msend _ => []
  | .mmask _ => []
  | .munmask _ => []
  | .mrecvPop o => [X o.d]
  | .mrecvCfg _ => []
  | .mrecvSt o => [X o.d]
  | .mrecvFree _ => []
  | .addi o => [X o.d]
  | .andi o => [X o.d]
  | .ori o => [X o.d]
  | .xori o => [X o.d]
  | .shli o => [X o.d]
  | .shri o => [X o.d]
  | .sari o => [X o.d]
  | .movi o => [X o.d]
  | .movhi o => [X o.d]
  | .br _ => []
  | .brr _ => []
  | .call o => [X o.d]
  | .callr o => [X o.d]
  | .ret _ => []
  | .loop _ => []
  | .lea o => [X o.d]
  | .vld o => [V o.d]
  | .vst _ => []
  | .vgath o => [V o.d]
  | .vscat _ => []
  | .ld o => [X o.d]
  | .st _ => []
  | .lda o => [X o.d]
  | .stl _ => []
  | .ldf o => [X o.d]
  | .pf _ => []
  | .cflush _ => []
  | .cinv _ => []
  | .invalCb _ => []
  | .waita o => [X o.d]
  | .amo o => [X o.d]
  | .amof o => [X o.d]
  | .cas o => [X o.d]
  | .red _ => []
  | .redf _ => []
  | .bupd _ => []
  | .bfill _ => []
  | .take o => [X o.d]
  | .put _ => []
  | .rdf o => [X o.d]
  | .clrp _ => []
  | .pstat o => [X o.d]
  | .ldsc o => [X o.d]
  | .stsc _ => []
  | .amoSc o => [X o.d]
  | .casSc o => [X o.d]
  | .vadd o => [V o.d]
  | .vsub o => [V o.d]
  | .vmul o => [V o.d]
  | .vmin o => [V o.d]
  | .vmax o => [V o.d]
  | .vand o => [V o.d]
  | .vor o => [V o.d]
  | .vxor o => [V o.d]
  | .vshl o => [V o.d]
  | .vshr o => [V o.d]
  | .vsar o => [V o.d]
  | .vfadd o => [V o.d]
  | .vfsub o => [V o.d]
  | .vfmul o => [V o.d]
  | .vfma o => [V o.d]
  | .vfmin o => [V o.d]
  | .vfmax o => [V o.d]
  | .vcmp o => [P o.d]
  | .vsel o => [V o.d]
  | .vred o => [X o.d]
  | .vperm o => [V o.d]
  | .vbcast o => [V o.d]
  | .vext o => [X o.d]
  | .vins o => [V o.d]
  | .vcvt o => [V o.d]
  | .vrsqs o => [V o.d]
  | .vrcps o => [V o.d]
  | .wload _ => []
  | .mscl _ => []
  | .mma _ => []
  | .mmas _ => []
  | .aclr _ => []
  | .ard o => if o.func == 0 then [V o.d] else if o.func == 1 then [] else [X o.d]
  | .awr _ => []
  | .asave _ => []
  | .sbind _ => []
  | .sstart _ => []
  | .sclose _ => []
  | .sbar _ => []
  | .spos o => if o.func == 1 then [] else [X o.d]
  | .sdone _ => []
  | .nalloc o => [X o.d]
  | .nfree _ => []
  | .nld o => [X o.d]
  | .nst _ => []
  | .nlink _ => []
  | .npush _ => []
  | .npop o => [X o.d, X o.a]
  | .nruleLook o => [X o.d]
  | .nruleSet _ => []
  | .nruleInv _ => []
  | .statrd o => [X o.d]
  | .fence _ => []
  | .tlbi _ => []
  | .tlbw o => [X o.d]
  | .trap _ => []
  | .eret _ => []
  | .mfs o => [X o.d]
  | .mts _ => []
  | .sysc _ => []
  | .bkpt _ => []
  | .halt _ => []
  | .rsave _ => []
  | .rrest _ => []
  | .passE _ => []
  | .constE _ => []
  | .steerE _ => []
  | .mergeE _ => []
  | .loopE _ => []
  | .callE _ => []
  | .retE _ => []
  | .addE _ => []
  | .subE _ => []
  | .mulE _ => []
  | .minE _ => []
  | .maxE _ => []
  | .andE _ => []
  | .orE _ => []
  | .xorE _ => []
  | .shlE _ => []
  | .shrE _ => []
  | .cmpE _ => []
  | .selE _ => []
  | .faddE _ => []
  | .fsubE _ => []
  | .fmulE _ => []
  | .fmaE _ => []
  | .fminE _ => []
  | .fmaxE _ => []
  | .fcmpE _ => []
  | .cvtE _ => []
  | .accE _ => []
  | .mloadE _ => []
  | .mstoreE _ => []
  | .mrmwE _ => []
  | .sdivE _ => []
  | .sexp2E _ => []
  | .slog2E _ => []
  | .ssinE _ => []
  | .stabE _ => []
  | .statE _ => []
  | .commitE _ => []
  | .routeE _ => []
  | .spaddE _ => []
  | .topkE _ => []
  | .cumsE _ => []
  | .drawE _ => []
  | .penalE _ => []
  | .adptE _ => []
  | .vaneE _ => []
  | .islandCommandPerform _ => []
  | .waitAnswer _ => []
  | .waitCancel _ => []
  | .bankReply _ => []
  | .interruptTaken _ => []
  | .remoteLoadTimeout _ => []
  | .l1WriteBack _ _ => []
  | .engineCommand _ => []
  | .bankOperation _ => []
  | .presenceArrive _ => []
  | .presenceCancel _ => []
  | .tradeTokenArrival => []
  | .lineWrite _ _ => []
  | .entryPortAdmit _ _ _ => []
  | .heldTokenAdmit _ _ _ _ => []
  | .linkTransfer _ _ _ _ => []
  | .exitReorderEmit _ _ _ _ => []
  | .countTokens _ => []
  | .mElementReply _ _ => []
  | .retire _ _ _ _ => []
  | .treeStep _ _ _ _ => []
  | .vaneCommandPerform _ => []
  | .calmSweep _ _ => []
  | .doldrums _ _ => []
  | .purgeEnd _ _ => []
  | .remoteTimeout _ _ => []
  | .loadDelivery _ _ => []
  | .elementWrite _ => []
  | .oneShotFree _ _ => []
  | .sectionStart _ _ => []
  | .sectionRelease _ _ => []
  | .sectionEarlyEnd _ _ => []
  | .completionPutRetry _ _ => []
  | .streamAccess _ _ => []
  | .portWriteToken _ _ => []
  | .portReadDelivery _ _ => []
  | .doneAction _ _ => []
  | .islandRow _ _ => []
  | .islandEmit _ _ => []
  | .ingressRecord _ _ _ _ => []
  | .headRecordServed _ _ _ => []
  | .orphan _ _ _ => []
  | .timedSlotStart _ _ => []
  | .admission _ => []
  | .loaderImage _ => []
  | .launchArm _ _ => []
  | .launchPairPush _ _ => []
  | .launchCompletion _ _ => []
  | .ptpEventMessage _ _ _ => []
  | .servoCorrection => []
  | .dispatch _ => []
  | .packetForward _ _ => []
  | .packetArrival _ => []
  | .shearedHeader _ => []
  | .reRequest _ => []
  | .acknowledgement _ => []
  | .retransmitTimeout _ => []
  | .remoteRead _ => []
  | .remoteWrite _ => []
  | .readReply _ => []
  | .routeClassDelivery _ => []
  | .readyFrame _ => []
  | .readyResend _ _ => []
  | .tokenFrame _ => []
  | .creditFrame _ => []
  | .closeFrame _ => []
  | .channelTokenSend _ _ _ => []
  | .authfail _ _ _ => []
  | .linkTrained _ => []
  | .lossOfSignal _ => []
  | .getVersion _ => []
  | .getCapabilities _ => []
  | .negotiateAlgorithms _ => []
  | .getDigests _ => []
  | .getCertificate _ => []
  | .challenge _ => []
  | .getMeasurements _ => []
  | .keyExchange _ => []
  | .finish _ => []
  | .heartbeat _ => []
  | .keyUpdate _ => []
  | .endSession _ => []
  | .setCertificate _ => []
  | .getCsr _ => []
  | .chunkSend _ => []
  | .chunkGet _ => []
  | .vendorDefinedRequest _ => []
  | .getTdispVersion _ => []
  | .getTdispCapabilities _ => []
  | .lockInterfaceRequest _ => []
  | .getDeviceInterfaceReport _ => []
  | .getDeviceInterfaceState _ => []
  | .startInterfaceRequest _ _ => []
  | .stopInterfaceRequest _ => []
  | .frozenSetChange _ => []
  | .partWrite _ _ => []
  | .vfWrite _ _ => []
  | .lpermWrite _ _ => []
  | .colourTableWrite _ _ => []
  | .ownerTagWrite _ _ => []
  | .startCommand _ _ _ _ _ => []
  | .coreReset _ => []
  | .retireCommand _ => []
  | .keyLoad _ _ _ _ => []
  | .linkKeyLoad _ _ _ _ => []
  | .lkstatWrite _ _ _ => []
  | .sealRange _ _ _ => []
  | .setPre _ => []
  | .patrol _ _ => []
  | .coldReset => []
  | .throttle => []
  | .throttleRestore => []
  | .thermalTrip => []
  | .lschedWrite _ _ => []
  | .lcbaseWrite _ _ => []
  | .lrootWrite _ _ => []
  | .ttctlWrite _ _ => []
  | .ttWrite _ _ _ _ => []
  | .ingWrite _ _ _ => []
  | .bkctlWrite _ _ _ => []
  | .bagctlWrite _ _ => []
  | .bagspillWrite _ _ => []
  | .flbaseWrite _ _ => []
  | .netctlWrite _ _ => []
  | .channelEntryWrite _ _ _ _ => []
  | .registerWrite _ _ => []
  | .releaseScrub _ _ => []
  | .hostEgressDelivery _ _ => []

end Sys2Proof.Machine
end

