-- ==== Sys2Proof/Machine/BlockCheck.lean ====
section
/-!
DEFINITION. The rules on an instruction's place and count in its block (02 R31, 04 R60, R61, R65, R67, 07 R133), and the
check of a whole block before any instruction of it executes.
-/
namespace Sys2Proof.Machine

/-- 04 R60. -/
def isExit : Instr → Bool
  | .br _ | .brr _ | .call _ | .callr _ | .ret _ | .loop _ | .trap _ | .sysc _ | .bkpt _ | .eret _ | .halt _ => true
  | _ => false

/-- 04 R61. -/
def isWait : Instr → Bool
  | .waita _ | .ldf _ | .take _ | .put _ | .rdf _ | .rcalm _ | .sbar _ => true
  | _ => false

/-- The kind of held effect that Table 04.8 limits, with its limit. -/
def limited : Instr → Option (Nat × Nat)
  | .cpy _ | .cpy2 _ => some (0, 16)
  | .wload _ | .mscl _ | .mma _ | .mmas _ | .aclr _ | .awr _ | .asave _ | .rsave _ | .rrest _ => some (1, 16)
  | .ard o => if o.func == 1 then some (1, 16) else none
  | .rarm _ => some (2, 16)
  | .rload _ => some (3, 16)
  | .nalloc _ => some (4, 16)
  | .vnset _ | .steerset _ => some (5, 16)
  | .msend _ => some (6, 64)
  | _ => none

/-- Forms whose X[d] is written by an answer after commit (07 R133). -/
def answerLate : Instr → Option Nat
  | .amo o | .amof o | .cas o | .amoSc o | .casSc o => if o.d == 0 then none else some o.d.toNat
  | _ => none

/-- Forms after which an LDSC is illegal in the same block (07 R133). -/
def scStore : Instr → Bool
  | .stsc _ | .amoSc _ | .casSc _ => true
  | _ => false

/-- 13 R214: the accumulator that an island command names. -/
def islandAcc : Instr → Option Nat
  | .mscl o => some o.acc.toNat
  | .mma o => some o.acc.toNat
  | .mmas o => some o.acc.toNat
  | .aclr o => if o.func == 0 then some o.acc.toNat else none
  | .ard o => if o.func == 1 then some o.acc.toNat else none
  | .awr o => some o.acc.toNat
  | .asave o => some o.acc.toNat
  | _ => none

/-- The accumulator that ARD `.v` or `.pois` reads. -/
def ardAcc : Instr → Option Nat
  | .ard o => if o.func == 0 || o.func == 2 then some o.acc.toNat else none
  | _ => none

def isLdsc : Instr → Bool
  | .ldsc _ => true
  | _ => false

/-- What the words of a block before a word leave to judge it by. -/
structure Seen where
  exits : Nat
  waits : Nat
  kinds : List Nat
  late : List Nat
  arms : List Nat
  accs : List Nat
  sc : Bool
deriving DecidableEq, Repr

def Seen.start : Seen := { exits := 0, waits := 0, kinds := [], late := [], arms := [], accs := [], sc := false }

/-- The place and count rules hold of a word (02 R31). -/
def Seen.allows (q : Seen) (rule : Bool) (i : Instr) : Bool :=
  let e := isExit i
  (e || q.exits == 0) && !(e && q.exits ≥ 2) && (e || q.waits == 0) && !(e && rule) &&
    (match limited i with | some (k, n) => q.kinds.count k < n | none => true) &&
    !(q.late.any fun r => (sources i).contains r || (dests i).contains r) && !(q.arms.any fun r => (sources i).contains r) && !(isLdsc i && q.sc) &&
    (match ardAcc i with | some a => !q.accs.contains a | none => true)

def Seen.next (q : Seen) (i : Instr) : Seen :=
  { exits := q.exits + b2n (isExit i), waits := q.waits + b2n (isWait i),
    kinds := (match limited i with | some (k, _) => k :: q.kinds | none => q.kinds),
    late := (match answerLate i with | some r => r :: q.late | none => q.late),
    arms := (match i with | .rarm o => (if o.d == 0 then q.arms else o.d.toNat :: q.arms) | _ => q.arms),
    accs := (match islandAcc i with | some a => a :: q.accs | none => q.accs), sc := q.sc || scStore i }

/-- 02 Table 02.7: a BLOCK header with its reserved bits zero. -/
def isHeader (w : W64) : Bool := w.extractLsb' 56 8 == 1 && w.extractLsb' 52 4 == 0 && w.extractLsb' 0 44 == 0
def headerRule (w : W64) : Bool := w.getLsbD 44
/-- Instructions of the block: len + 1 (02 R30). -/
def headerLen (w : W64) : Nat := (w.extractLsb' 45 7).toNat + 1

/-- Words of a block from an address up, each fetched and checked in the order of 02 R31: fetch, fields, place and
count, level. The first that fails ends the check with its cause and its address. -/
def checkWords (fetch : Nat → Except XF W64) (lvlS rule : Bool) (q : Seen) (va : Nat) : Nat → Except XF (List W64)
  | 0 => .ok []
  | n + 1 =>
    match fetch va with
    | .error e => .error e
    | .ok w =>
      match decodeCore w with
      | .error _ => .error (.fault 1 0 (w64 va))
      | .ok i =>
        if !q.allows rule i then .error (.fault 1 0 (w64 va))
        else if i.priv && !lvlS then .error (.fault 2 0 (w64 va))
        else
          match checkWords fetch lvlS rule (q.next i) (va + 8) n with
          | .error e => .error e
          | .ok l => .ok (w :: l)

end Sys2Proof.Machine
end

