-- ==== Sys2Proof/Machine/Pages.lean ====
section
/-!
DEFINITION. Reads of the register pages (18 Table 18.1): 07 Tables 07.5 and 07.6, 15 Table 15.9, 19 Table 19.8, 11 Table 11.5,
24 Table 24.4, 25 Table 25.2.
An offset that no table names reads as zero.
-/
namespace Sys2Proof.Machine

/-- Deferred requests a bank holds. -/
def Bank.dcount (b : Bank) : Nat := b.deferred.length

def Bank.read (b : Bank) (off : Nat) : W64 :=
  match off with
  | 0 => w64 (b.dcount * 2 ^ 32 + b2n b.joined * 2 + b2n b.trade)
  | 8 => w64 (b.stall * 2 ^ 32 + b.drop * 2 ^ 16 + b.ovf)
  | _ => 0

/-- Entries of a bag that stand in its spill ring (15 R234). -/
def Core.spilled (c : Core) : Nat := c.spillProd - c.spillCons

def Core.readBag (c : Core) (off : Nat) : W64 :=
  match off with
  | 0x000 => w64 ((if c.bagctl.getLsbD 63 then 2 ^ 63 else 0) + c.bag.length * 2 ^ 32 + c.spilled)
  | 0x008 => c.bagspill
  | 0x010 => c.nodehead
  | 0x018 => c.bagcnt
  | _ => 0

def FaultLog.read (f : FaultLog) (off : Nat) : W64 :=
  match off with
  | 0x000 => f.base
  | 0x008 => w64 f.prod
  | 0x010 => f.cons.setWidth 64
  | 0x018 => w64 (f.lost * 2 ^ 32)
  | 0x020 => f.int
  | _ => 0

/-! ## The scheduler page (11 Table 11.5) -/

def State.sched (s : State) (p : Nat) : Sched := Sp.get Sched.reset s.scheds p
def State.setSched (s : State) (p : Nat) (q : Sched) : State := { s with scheds := Sp.put s.scheds p q }
def Sched.ing (q : Sched) (n : Nat) : Ing := Sp.get Ing.reset q.ings n
def Sched.setIng (q : Sched) (n : Nat) (g : Ing) : Sched := { q with ings := Sp.put q.ings n g }
def Sched.entry (q : Sched) (n : Nat) : Timed := Sp.get Timed.reset q.timed n
def Sched.setEntry (q : Sched) (n : Nat) (t : Timed) : Sched := { q with timed := Sp.put q.timed n t }
/-- The function that owns an ingress port, if any (26 R357); the lowest-numbered where two name it. -/
def State.ingVf (s : State) (p n : Nat) : Option Nat :=
  (List.range 64).find? fun v => (s.vf v).part.toNat == p && (s.vf v).ingmask.getLsbD n
def Launch.d (l : Launch) (i : Nat) : Nat := (l.desc.getD i 0).toNat
def Launch.prio (l : Launch) : Nat := fld (l.d 0) 6 4
/-- Launches in the admission queue. -/
def Sched.queued (q : Sched) : List Launch := q.launches.filter fun l => !l.running
def Sched.runners (q : Sched) : List Launch := q.launches.filter fun l => l.running

def Ing.word (g : Ing) (vf : Nat) : W64 :=
  w64 (b2n g.en * 2 ^ 63 + vf * 2 ^ 50 + g.core.toNat * 2 ^ 16 + g.eport.toNat * 2 ^ 12 + g.xport.toNat * 2 ^ 8 + b2n g.xen * 2 ^ 7)

/-- LSTAT. -/
def Sched.stat (q : Sched) : W64 :=
  let prios := (List.range 8).foldl (fun a k => a + b2n (q.queued.any fun l => l.prio == k) * 2 ^ k) 0
  w64 (q.queued.length * 2 ^ 32 + q.runners.length * 2 ^ 16 + prios * 2 ^ 8)

/-- A register of a partition's scheduler page. A TTn reads as it was written, also while the write waits. -/
def State.readSched (s : State) (p off : Nat) : W64 :=
  let q := s.sched p
  if off == 0x000 then w64 (b2n q.en * 256 + q.maxrun.toNat)
  else if off == 0x008 then q.ltbase
  else if off == 0x010 then q.lcbase
  else if off == 0x018 then w64 q.lcprod
  else if off == 0x020 then q.lccons.setWidth 64
  else if off == 0x028 then q.stat
  else if off == 0x030 then w64 (q.refused * 2 ^ 48 + q.orphan * 2 ^ 32 + q.lost * 2 ^ 16)
  else if off == 0x040 then w64 (b2n s.ptp.locked * 2 + b2n q.ten)
  else if 0x080 ≤ off && off < 0x0C0 then
    let n := (off - 0x080) / 8
    (q.ing n).word ((s.ingVf p n).getD 0)
  else if 0x100 ≤ off && off < 0x200 then
    let t := q.entry ((off - 0x100) / 16)
    if off % 16 == 0 then t.next0 else t.next1
  else if 0x200 ≤ off && off < 0x280 then
    let t := q.entry ((off - 0x200) / 8)
    w64 (t.skipped * 2 ^ 32 + t.started)
  else 0

/-! ## The network and channel pages (24 Table 24.4, 25 Table 25.2) -/

/-- A register of a partition's network page; a staged SMAP or HMASK reads as it was written. -/
def NetPage.read (q : NetPage) (off : Nat) : W64 :=
  if off == 0x000 then w64 (b2n q.rehash * 2 ^ 32 + q.lull * 2 ^ 16)
  else if off == 0x008 then q.smapNew
  else if 0x010 ≤ off && off < 0x030 then Sp.get 0 q.hmaskNew ((off - 0x010) / 8)
  else if 0x100 ≤ off && off < 0x180 then Sp.get 0 q.rcls ((off - 0x100) / 8)
  else if 0x180 ≤ off && off < 0x200 then Sp.get 0 q.rhdl ((off - 0x180) / 8)
  else if 0x400 ≤ off && off < 0x400 + 8 * 16 * 22 then Sp.get 0 q.shcnt ((off - 0x400) / 8)
  else 0

/-- A channel entry's dword 0 (Table 25.2). -/
def endCode : EndState → Nat | .closed => 0 | .wait => 1 | .opened => 2 | .fault => 3
def ChanEnd.word (e : ChanEnd) : W64 :=
  w64 (b2n e.en * 2 ^ 63 + endCode e.st * 2 ^ 61 + b2n e.recv * 2 ^ 60 + e.port.toNat * 2 ^ 56 + e.core.toNat * 2 ^ 46 +
    e.pcore.toNat * 2 ^ 36 + e.pdev.toNat * 2 ^ 26 + b2n e.remote * 2 ^ 25 + e.pchan.toNat * 2 ^ 19 + e.depth.toNat * 2 ^ 12 +
    e.prio.toNat * 2 ^ 10 + e.slot.toNat * 2 ^ 8)

/-- Dword 1 of an entry. -/
def ChanEnd.word1 (e : ChanEnd) : W64 := w64 (e.tokens * 2 ^ 32 + e.stale)
def State.chanEnd (s : State) (k : Nat) : ChanEnd := Sp.get ChanEnd.reset s.channels k

/-- A dword of a partition's channel page. -/
def State.readChannels (s : State) (p off : Nat) : W64 :=
  if 0x100 ≤ off && off < 0x500 then
    let e := s.chanEnd (p * 64 + (off - 0x100) / 16)
    if off % 16 == 0 then e.word else e.word1
  else 0

/-- A register of the register pages, by its physical address, a multiple of 8. -/
def State.regRead (s : State) (pa : Nat) : W64 :=
  let off := pa % 4096
  if pa < 0x1F00400000 then
    let die := (pa - regBase) / 0x100000
    let idx := (pa - regBase) % 0x100000 / 0x1000
    if idx < 85 then (s.bank (die * 85 + idx)).read off else 0
  else if 0x1F90000000 ≤ pa && pa < 0x1F90400000 then (s.core ((pa - 0x1F90000000) / 4096)).readBag off
  else if 0x1FA0000000 ≤ pa && pa < 0x1FA0010000 then (s.flogOf ((pa - 0x1FA0000000) / 4096)).read off
  else if 0x1F80000000 ≤ pa && pa < 0x1F80010000 then s.readSched ((pa - 0x1F80000000) / 4096) off
  else if 0x1FB0000000 ≤ pa && pa < 0x1FB0010000 then (s.netOf ((pa - 0x1FB0000000) / 4096)).read off
  else if 0x1FC0000000 ≤ pa && pa < 0x1FC0010000 then s.readChannels ((pa - 0x1FC0000000) / 4096) off
  else 0

end Sys2Proof.Machine
end

