-- ==== Sys2Proof/Machine/Ops.lean ====
section
/-!
DEFINITION. The operations that the meanings share: the fault log (19 R285 to R289), fetching and checking a block
(02 R31, 04 R62), taking a trap (19 R279 to R284), and the ways an instruction of a block ends.
-/
namespace Sys2Proof.Machine

/-! ## The fault log -/

/-- A fault record without its sequence number and time (19 Table 19.6). Fields that a kind does not use are zero. -/
structure FaultRec where
  code : Nat
  kind : Nat
  lvl : Nat := 0
  hold : Bool := false
  colour : Nat := 0
  ctx : Nat := 0
  iter : Nat := 0
  core : Nat := 0
  slot : Nat := 0
  row : Nat := 0
  col : Nat := 0
  op : Nat := 0
  handle : Nat := 0
  addr : W64 := 0
  opnd0 : W64 := 0
  opnd1 : W64 := 0
  detail : W64 := 0
  flags : W64 := 0
deriving DecidableEq, Repr

/-- The eight dwords of a record (19 Table 19.6). -/
def FaultRec.dwords (r : FaultRec) (seq : Nat) (time : W64) : List W64 :=
  [ w64 (r.code * 2 ^ 56 + r.kind * 2 ^ 52 + r.lvl * 2 ^ 49 + b2n r.hold * 2 ^ 48 + r.colour * 2 ^ 40 + r.ctx * 2 ^ 30 +
      r.iter * 2 ^ 16 + r.core * 2 ^ 6 + r.slot * 2 ^ 4),
    w64 (seq * 2 ^ 32 + r.row * 2 ^ 28 + r.col * 2 ^ 24 + r.op * 2 ^ 16 + r.handle),
    time, r.addr, r.opnd0, r.opnd1, r.detail, r.flags ]

/-- Slots of the ring, and whether it exists (19 Table 19.8, R288). -/
def FaultLog.size (f : FaultLog) : Nat := 2 ^ (fld f.base.toNat 55 52 + 4)
def FaultLog.ring (f : FaultLog) : Nat := fld f.base.toNat 51 6 * 64

/-- Set pending bits of a core (19 R281). -/
def State.post (s : State) (n : Nat) (bits : BitVec 4) : State :=
  s.setCore n { s.core n with tpend := (s.core n).tpend ||| bits }

/-- The device makes a record for partition p (19 R288, R289). A slot outside the partition's own memory takes none: the record is
dropped and counted (log 61). -/
def State.record (s : State) (p : Nat) (r : FaultRec) : State :=
  let f := s.flogOf p
  let upd := fun (s : State) (f : FaultLog) => { s with flog := Sp.set FaultLog.reset s.flog p f }
  let seq := (f.seq + 1) % 2 ^ 32
  let slot := f.ring + f.prod % f.size * 64
  if f.ring == 0 || !s.ringOk p slot || (f.prod + 2 ^ 32 - f.cons.toNat) % 2 ^ 32 == f.size then
    upd s { f with seq := seq, lost := satAdd 32 f.lost 1 }
  else
    let bytes := (r.dwords f.seq s.now).flatMap fun w => leBytes 8 w.toNat
    let s := s.write (Sp.get 0 s.partKey p) slot bytes
    let s := upd s { f with seq := seq, prod := (f.prod + 1) % 2 ^ 32 }
    if f.int.getLsbD 63 then s.post (fld f.int.toNat 9 0) 2 else s

/-- A record for the partition of core n, if it has one. -/
def State.recordAt (s : State) (n : Nat) (r : FaultRec) : State :=
  match s.partOf n with
  | some p => s.record p r
  | none => s

/-! ## Fetching and checking a block -/

/-- Fetch of one word of core n's code, through its fetch-path copies where it holds one (02 R32). -/
def State.fetchWord (s : State) (n va : Nat) : Except XF W64 :=
  let c := s.core n
  if va % 8 == 0 && s.walkHeld n c.regs.colour.toNat va then .error .walk else
  match s.access n c.regs.colour.toNat va 8 c.lvlS true .x with
  | .error e => .error e
  | .ok t =>
    match Sp.find? c.ifetch (t.home / 128) with
    | some l => .ok (l.extractLsb' (8 * (t.home % 128)) 64)
    | none =>
      match space t.home with
      | .remote =>
        let bs := (List.range 8).map fun i => Sp.find? c.blk.remote (t.home + i)
        if !bs.all (·.isSome) then .error (.remote t.home 8 (w64 va))
        else if bs.any fun b => b.any (·.2) then .error (.fault 0x0B 0 (w64 va))
        else .ok (w64 (bytesNat (bs.map fun b => (b.getD (0, false)).1)))
      | .reg => .ok (s.regRead t.home)
      | _ =>
        if s.anyPoison t.home 8 then .error (.fault 0x0B 0 (w64 va)) else .ok (w64 (s.readVal t.key t.home 8))

/-- 04 R62: the check of a successor address; `ruleOk` lets the header of a rule body pass. The header word, or the
fault with tval the address. -/
def State.checkSuccessor (s : State) (n : Nat) (va : W64) (ruleOk : Bool) : Except XF W64 :=
  if va.toNat % 8 != 0 then .error (.fault 3 0 va) else
  match s.fetchWord n va.toNat with
  | .error (.fault code lvl _) => .error (.fault code lvl va)
  | .error e => .error e
  | .ok w => if isHeader w && (ruleOk || !headerRule w) then .ok w else .error (.fault 3 0 va)

/-- The block at an address, read and checked whole (02 R31): its header and words. -/
def State.readBlock (s : State) (n : Nat) (va : W64) (ruleOk : Bool) : Except XF (W64 × List W64) :=
  match s.checkSuccessor n va ruleOk with
  | .error e => .error e
  | .ok w =>
    match checkWords (s.fetchWord n) (s.core n).lvlS (headerRule w) Seen.start (va.toNat + 8) (headerLen w) with
    | .error e => .error e
    | .ok l => .ok (w, l)

/-- Begin a block that has been read: its registers are the committed ones (04 R56). -/
def Core.begin (c : Core) (va : W64) (h : W64) (words : List W64) : Core :=
  { c with pc := va, inTrap := false, rreq := none, walkWait := false, blkNo := c.blkNo + 1,
           blk := { Blk.reset with isOpen := true, hdr := va, rule := headerRule h, words := words, w := c.regs } }

/-! ## Outstanding answers and traps -/

/-- Core n waits for the answer of a committed bank operation (07 R133). -/
def State.outstanding (s : State) (n : Nat) : Bool :=
  !(s.core n).replies.isEmpty || s.bankOps.any (fun o => o.core == n && o.reg.isSome) ||
    s.banks.any fun b => b.2.scq.any fun o => o.core == n && o.reg.isSome

/-- The register's answer is outstanding. -/
def State.awaits (s : State) (n r : Nat) : Bool :=
  (s.core n).replies.any (·.reg == r) || s.bankOps.any (fun o => o.core == n && o.reg == some r) ||
    s.banks.any fun b => b.2.scq.any fun o => o.core == n && o.reg == some r

/-- tcause (19 Table 19.2). -/
def causeWord (t : Trap) : W64 := w64 (b2n t.async * 2 ^ 15 + t.lvl * 2 ^ 12 + t.code)

/-- tstat on trap entry (19 R283): pie := ie, ie := 0, ppl := level, pdisp and pair as the core stands. -/
def trapStat (old : BitVec 6) (lvlS inDisp pair : Bool) : BitVec 6 :=
  BitVec.ofNat 6 (b2n (old.getLsbD 5) * 32 + b2n pair * 16 + b2n inDisp * 8 + b2n lvlS * 4 + b2n (old.getLsbD 0) * 2)

/-- 19 R284: a double fault stops the core and is recorded. -/
def State.doubleFault (s : State) (n : Nat) (t : Trap) (code lvl : Nat) : State :=
  let c := s.core n
  let r : FaultRec :=
    { code := 0x60, kind := 6, core := n, addr := c.regs.tvec, opnd0 := causeWord t, opnd1 := t.tval,
      detail := causeWord { code := code, lvl := lvl, async := false, tval := 0, tblock := 0 }, flags := t.tblock }
  let s := s.setCore n { c with run := .stopped, blk := Blk.reset }
  let seq := match s.partOf n with | some p => (s.flogOf p).seq | none => 0
  let s := { s with superLog := s.superLog ++ [r.dwords seq s.now] }
  s.recordAt n r

/-- The trap registers, level and place of a trap (19 R283); the block of the core is discarded. -/
def Core.enter (c : Core) (t : Trap) : Core :=
  { c with run := .running, lvlS := true, pc := c.regs.tvec, inDisp := false, inTrap := true, pendTrap := none, rreq := none,
           walkWait := false,
           blk := Blk.reset,
           regs := { c.regs with tcause := causeWord t, tval := t.tval, tblock := t.tblock,
                                 tstat := trapStat c.regs.tstat c.lvlS c.inDisp (c.inDisp && c.claim.isSome) } }

/-- Read the handler block of a core that has entered a trap: it begins, or the core double-faults, or it waits for
remote bytes. -/
def State.openHandler (s : State) (n : Nat) (t : Trap) : State :=
  let c := s.core n
  match s.readBlock n c.pc false with
  | .ok (h, l) =>
    -- a poisoned reply's trap is taken before the handler's block begins (19 R292)
    if c.poisonTrap.isEmpty then s.setCore n (c.begin c.pc h l) else s.setCore n { c with inTrap := false, rreq := none }
  | .error (.fault code lvl _) => s.doubleFault n t code lvl
  | .error (.remote h k va) => s.setCore n { c with rreq := some (h, k, va) }
  | .error .walk => s.setCore n { c with walkWait := true }

/-- What a discarded block took at execute goes back: nodes to the head of the pool (15 R230), entries to the head of the bag
(15, NPOP). The control-block cache, which the block may have filled from its own held stores, is emptied (06 R109). -/
def State.undo (s : State) (n : Nat) : State :=
  let s := if (s.core n).blk.held.isEmpty then s else s.setCore n { s.core n with cbc := [], cbcColour := [] }
  (s.core n).blk.held.reverse.foldl (fun s h =>
    let c := s.core n
    match h with
    | .nalloc node home key _ =>
      (s.write key (home + 40) (leBytes 8 c.nodehead.toNat)).setCore n { c with nodehead := node }
    | .npop p =>
      -- its place has stayed free, for no push takes it before the commit
      s.setCore n { c with bag := p :: c.bag }
    | _ => s) s

/-- A core's outstanding remote reads are forgotten: replies to a discarded block reach nothing. -/
def State.dropReads (s : State) (n : Nat) : State :=
  { s with net := { s.net with reads := s.net.reads.filter fun r => r.who != .core n } }

/-- Take a trap on core n (19 R283): its block is discarded, the trap registers written, the level S, and the block at
tvec begun. An outstanding bank answer is awaited before (07 R133). -/
def State.takeTrap (s : State) (n : Nat) (t : Trap) : State :=
  let s := (s.undo n).dropReads n
  if s.outstanding n then s.setCore n { s.core n with blk := Blk.reset, pendTrap := some t, rreq := none, walkWait := false }
  else (s.setCore n ((s.core n).enter t)).openHandler n t

/-- The fault of an instruction, of a block's check or of its successor (04 R59): tblock is the block's header. -/
def State.faultAt (s : State) (n code lvl : Nat) (tval : W64) : State :=
  s.takeTrap n { code := code, lvl := lvl, async := false, tval := tval, tblock := (s.core n).pc }

/-- A block discarded without a fault (04 R63, R64): it runs again from its header when the core resumes. -/
def State.discard (s : State) (n : Nat) : State :=
  let s := (s.undo n).dropReads n
  s.setCore n { s.core n with blk := Blk.reset, rreq := none, walkWait := false }

/-- The outcome of an access that did not complete: its fault is taken, or the instruction waits for the bytes of another
device, or for the writes that its walk must follow, and runs again then (17 R262, 21 R301). -/
def State.stopFor (s : State) (e : XF) : State :=
  match e with
  | .fault code lvl tval => s.faultAt s.cur code lvl tval
  | .remote h k va =>
    s.setMe { s.me with rreq := some (h, k, va), blk := { s.blk with idx := s.blk.idx - 1, remoteAt := s.blk.idx } }
  | .walk => s.setMe { s.me with walkWait := true, blk := { s.blk with idx := s.blk.idx - 1 } }

/-- An instruction that cannot fault at execute: its effect on the block where the guard is true, nothing where it is
false (04 R68). -/
def plain (g : BitVec 3) (gs : Bool) (s : State) (f : State → State) : Out :=
  .next (if s.guard g gs then f s else s)

/-- An instruction that may fault at execute. -/
def checked (g : BitVec 3) (gs : Bool) (s : State) (f : State → Except XF State) : Out :=
  .next (if s.guard g gs then
    match f s with
    | .ok t => t
    | .error e => s.stopFor e
  else s)

/-- As `checked`, for entries whose fault's tval the manual leaves open: the free value is used up. -/
def checkedOpen (g : BitVec 3) (gs : Bool) (s : State) (f : State → Except XF State) : Out :=
  .next (if s.guard g gs then
    match f s with
    | .ok t => t
    | .error e => { s with free := s.free + 1 }.stopFor e
  else s)

/-- An exit form whose guard is true ends the block's instructions (04 R60, R62). -/
def State.exitTo (s : State) (e : Exit) : State :=
  s.setBlk { s.blk with exit := e, idx := s.blk.words.length }

/-- The fall-through address of the block in progress (04 R62). -/
def State.fallThrough (s : State) : W64 := s.blk.hdr + w64 (8 * (s.blk.words.length + 1))

/-! ## Loads and stores of the control processor -/

/-- A load of n bytes: alignment, translation and permission (06 R101), then the bytes (04 R58). -/
def State.load (s : State) (va : W64) (n : Nat) : Except XF (Tr × List Byte) :=
  match s.coreAccess va.toNat n .r with
  | .error e => .error e
  | .ok t =>
    match s.loadFrom s.regRead t va.toNat 0 n with
    | .error e => .error e
    | .ok bs => .ok (t, bs)

/-- A loaded value as its type's register content (04 R74, 03 R50). -/
def loadValue (ty : BitVec 5) (bs : List Byte) : W64 := extTy ty.toNat (8 * bs.length) (bytesNat bs)

/-- How a plain store to a checked address is delivered (17 R252). -/
def storeHow (t : Tr) (full : Bool) : StoreHow :=
  match space t.home with
  | .pad => if full then .padFull else .pad
  | .remote => .remote
  | .reg => .reg
  | _ => if t.pres then .home else .cached

/-- Hold a store of bytes at a checked address (04 R57). -/
def State.holdStore (s : State) (t : Tr) (full : Bool) (bs : List Byte) : State :=
  s.hold (.store t.home bs (storeHow t full) t.key)

/-- A plain store of n bytes of a value. -/
def State.store (s : State) (va : W64) (n : Nat) (v : Nat) : Except XF State :=
  match s.coreAccess va.toNat n .w with
  | .error e => .error e
  | .ok t => .ok (s.holdStore t false (leBytes n v))

/-- A scope wider than `.core` (17 Table 17.5). -/
def wider (scope : Nat) : Bool := scope != 0

end Sys2Proof.Machine
end

