-- ==== Sys2Proof/Machine/Packets.lean ====
section
/-!
DEFINITION. Packets of the tree network (24 R331, R333, R334): CRC-32C, headers, sequence numbers, the retransmit buffers, and the
remote reads and writes that the agents of a core send (17 R262).
-/
namespace Sys2Proof.Machine

/-! ## CRC-32C (24 R331, 25 R348; log 9) -/

/-- One bit of the CRC with the Castagnoli polynomial, least significant bit first. -/
def crcBit (c : Nat) : Nat := if c % 2 == 1 then Nat.xor (c / 2) 0x82F63B78 else c / 2
def crcByte (c : Nat) (b : Byte) : Nat := (List.range 8).foldl (fun c _ => crcBit c) (Nat.xor c b.toNat)
def crc32c (bs : List Byte) : Nat := Nat.xor (bs.foldl crcByte 0xFFFFFFFF) 0xFFFFFFFF
/-- The check word over dwords, each least significant byte first. -/
def headerCheck (l : List W64) : W64 := w64 (crc32c (l.flatMap fun w => leBytes 8 w.toNat))

/-- The dwords of a header (Table 24.2). -/
structure Header where
  type : Nat
  cls : Nat := 0
  ord : Bool := false
  poison : Bool := false
  prio : Nat := 0
  nack : Bool := false
  len8 : Nat := 0
  seq : Nat := 0
  tag : Nat := 0
  sdev : Nat := Config.deviceNumber.toNat
  score : Nat := 0
  ddev : Nat := Config.deviceNumber.toNat
  dcore : Nat := 0
  part : Nat := 0
  colour : Nat := 0
  addr : Nat := 0

def Header.dwords (h : Header) : List W64 :=
  let d0 := w64 (h.type * 2 ^ 60 + h.cls * 2 ^ 56 + b2n h.ord * 2 ^ 54 + b2n h.poison * 2 ^ 53 + h.prio * 2 ^ 51 +
    b2n h.nack * 2 ^ 50 + h.len8 * 2 ^ 44 + h.seq * 2 ^ 16 + h.tag)
  let d1 := w64 (h.sdev * 2 ^ 54 + h.score * 2 ^ 44 + h.ddev * 2 ^ 34 + h.dcore * 2 ^ 24 + h.part * 2 ^ 20 + h.colour * 2 ^ 12)
  let d2 := w64 (h.addr % 2 ^ 41)
  [d0, d1, d2, headerCheck [d0, d1, d2]]

/-- The check of a packet or of a frame holds: hcheck over dwords 0 to 2, fcheck over dword 0 and the token slots. -/
def Packet.checks (p : Packet) : Bool :=
  if p.frame then fld (p.d 1) 31 0 == crc32c (leBytes 8 (p.d 0) ++ p.payload)
  else fld (p.d 3) 31 0 == crc32c ((p.hdr.take 3).flatMap fun w => leBytes 8 w.toNat)

/-- The fields of a packet's header. -/
def Packet.cls (p : Packet) : Nat := fld (p.d 0) 59 56
def Packet.shear (p : Packet) : Bool := bitAt (p.d 0) 55
def Packet.ord (p : Packet) : Bool := bitAt (p.d 0) 54
def Packet.poison (p : Packet) : Bool := bitAt (p.d 0) 53
def Packet.prio (p : Packet) : Nat := fld (p.d 0) 52 51
def Packet.nack (p : Packet) : Bool := bitAt (p.d 0) 50
def Packet.len8 (p : Packet) : Nat := fld (p.d 0) 49 44
def Packet.seq (p : Packet) : Nat := fld (p.d 0) 31 16
def Packet.tag (p : Packet) : Nat := fld (p.d 0) 15 0
def Packet.sdev (p : Packet) : Nat := fld (p.d 1) 63 54
def Packet.score (p : Packet) : Nat := fld (p.d 1) 53 44
def Packet.ddev (p : Packet) : Nat := fld (p.d 1) 43 34
def Packet.dcore (p : Packet) : Nat := fld (p.d 1) 33 24
def Packet.part (p : Packet) : Nat := fld (p.d 1) 23 20
def Packet.colour (p : Packet) : Nat := fld (p.d 1) 19 12
def Packet.addr (p : Packet) : Nat := fld (p.d 2) 40 0

/-- The number of an agent among those that send from one core (log 44): its processor, engine, vane unit, island and loader, its
streams, and its elements, a vane's row as its element. -/
def Who.agent : Who → Nat
  | .core _ => 0
  | .engine _ => 1
  | .vane _ => 2
  | .island _ => 3
  | .loader .. => 4
  | .stream _ i => 8 + i
  | .elem e _ | .row e _ _ => 32 + e / 16 % 16 % 8 * 8 + e % 16 % 8
  | .bank _ => 0

/-- The stream's kind of a packet: 0 route class, 1 remote memory, 2 reply. -/
def Packet.kind (p : Packet) : Nat := match p.type with | 0 => 0 | 3 => 2 | _ => 1
/-- The agent that a packet of types 1 to 3 names in its tag (log 44). -/
def Packet.agent (p : Packet) : Nat := if p.kind == 0 then 0 else p.tag / 512

/-- The stream a packet's number counts in (R334): (source core, destination core, class) for a route class, (source
agent, destination device) for remote memory, (bank, requester) for replies. -/
def Packet.stream (p : Packet) : Nat :=
  let c := if p.kind == 0 then p.cls else 0
  let dc := if p.kind == 1 then 0 else p.dcore
  ((((((p.kind * 16 + c) * 128 + p.agent) * 1024 + p.sdev) * 1024 + p.score) * 1024 + p.ddev) * 1024) + dc

def State.setNet' (s : State) (n : Net) : State := { s with net := n }

/-- A kept packet of p's stream whose number lies 64 or more before p's (R334). -/
def Sent.farFrom (p : Packet) (e : Sent) : Bool :=
  let d := (p.seq + 65536 - e.pkt.seq) % 65536
  e.pkt.stream == p.stream && 64 ≤ d && d < 32768

/-- Send a packet of types 0 to 3 with the next number of its stream; types 0, 2 and 3 are kept until they are acknowledged, and leave
once they have one of the 64 places and stand within 64 numbers of their stream's oldest (R333, R334). `word` is the destination word of an MSEND. -/
def State.sendPacket (s : State) (who : Who) (h : Header) (payload : List Byte) (word : W64 := 0) : State :=
  let p0 : Packet := { hdr := h.dwords, payload := payload, frame := false, hops := 0, again := false }
  let q := Sp.get 0 s.net.seqs p0.stream
  let p : Packet := { p0 with hdr := ({ h with seq := q }).dwords }
  let keep := h.type != 1
  let l := s.sentBy who.sender
  let e : Sent := { pkt := p, who := who, time := s.cycle, times := if l.length < 64 && !l.any (Sent.farFrom p) then 1 else 0, word := word }
  { s with net := { s.net with
      flight := s.net.flight ++ [p],
      seqs := Sp.set 0 s.net.seqs p0.stream ((q + 1) % 65536),
      sent := if keep then Sp.put s.net.sent who.sender (l ++ [e]) else s.net.sent } }

/-- Packets leave a retransmit buffer; those that may leave their sender then are transmitted (R333, R334). -/
def State.freePlaces (s : State) (key : Nat) (gone : Sent → Bool) : State :=
  let l := (s.sentBy key).filter fun x => !gone x
  let up := (l.take 64).map fun (x : Sent) =>
    if x.times == 0 && !l.any (Sent.farFrom x.pkt) then { x with times := 1, time := s.cycle } else x
  { s with net := { s.net with sent := Sp.set [] s.net.sent key (up ++ l.drop 64) } }

/-- Send a remote write of bytes to a home on another device (17 R262). -/
def State.sendWrite (s : State) (who : Who) (colour : Nat) (home : Nat) (bytes : List Byte) (poison : Bool) : State :=
  s.sendPacket who { type := 2, ord := true, poison := poison, len8 := (bytes.length + 7) / 8, tag := who.agent * 512, score := who.sender,
                     ddev := fld home 50 41, part := s.partid who.sender, colour := colour, addr := home } bytes

/-- The reply's place for a read: a number that no read of its agent holds. -/
def State.readTag (s : State) (who : Who) : Nat :=
  let used := fun (k : Nat) => s.net.reads.any fun r => r.who.sender == who.sender && r.tag == who.agent * 512 + k
  who.agent * 512 + (((List.range 512).map fun i => (s.net.tag + i) % 512).find? fun k => !used k).getD 0

/-- Send a remote read (17 R262); its tag names the request to the reply. -/
def State.sendRead (s : State) (who : Who) (colour : Nat) (home len : Nat) : State :=
  let tag := s.readTag who
  let s := s.sendPacket who { type := 1, ord := true, len8 := (len + 7) / 8, tag := tag, score := who.sender,
                              ddev := fld home 50 41, part := s.partid who.sender, colour := colour, addr := home } []
  { s with net := { s.net with reads := s.net.reads ++ [{ who := who, home := home, len := len, tag := tag, time := s.cycle }],
                               tag := (tag + 1) % 512 } }

/-- The number of this device. -/
def here : Nat := Config.deviceNumber.toNat

/-! ## Frames of channels (25 Table 25.3) -/

def Packet.fKind (p : Packet) : Nat := fld (p.d 0) 63 60
def Packet.fChan (p : Packet) : Nat := fld (p.d 0) 59 54
def Packet.fNtok (p : Packet) : Nat := fld (p.d 0) 53 50
def Packet.fSdev (p : Packet) : Nat := fld (p.d 0) 49 40
def Packet.fScore (p : Packet) : Nat := fld (p.d 0) 39 30
def Packet.fDdev (p : Packet) : Nat := fld (p.d 0) 29 20
def Packet.fDcore (p : Packet) : Nat := fld (p.d 0) 19 10
def Packet.fColour (p : Packet) : Nat := fld (p.d 1) 63 56
def Packet.fCount (p : Packet) : Nat := fld (p.d 1) 55 48

/-! ## Tokens in frames (08 Table 08.1, 25 R348) -/

def tokenBits (t : Token) : Nat :=
  t.value.toNat * 2 ^ 41 + t.colour.toNat * 2 ^ 33 + t.context.toNat * 2 ^ 23 + t.iter.toNat * 2 ^ 9 + t.fmt.toNat * 2 ^ 6 +
    t.slot.toNat * 2 ^ 4 + b2n t.eor * 8 + b2n t.eos * 4 + b2n t.poison * 2 + b2n t.bubble
def tokenOf (v : Nat) : Token :=
  { value := w32 (fld v 72 41), colour := BitVec.ofNat 8 (fld v 40 33), context := BitVec.ofNat 10 (fld v 32 23),
    iter := BitVec.ofNat 14 (fld v 22 9), fmt := BitVec.ofNat 3 (fld v 8 6), slot := BitVec.ofNat 2 (fld v 5 4), eor := bitAt v 3,
    eos := bitAt v 2, poison := bitAt v 1, bubble := bitAt v 0, gen := 0 }
/-- The token slots of a frame. -/
def Packet.tokens (p : Packet) : List Token :=
  (List.range p.fNtok).map fun i => tokenOf (bytesNat ((p.payload.drop (16 * i)).take 16))

/-- A frame of an end to its peer (Table 25.3). -/
def ChanEnd.frame (e : ChanEnd) (kind colour count : Nat) (toks : List Token) : Packet :=
  let d0 := w64 (kind * 2 ^ 60 + e.pchan.toNat * 2 ^ 54 + toks.length * 2 ^ 50 + here * 2 ^ 40 + e.core.toNat * 2 ^ 30 +
    (if e.remote then e.pdev.toNat else here) * 2 ^ 20 + e.pcore.toNat * 2 ^ 10)
  let pay := toks.flatMap fun t => leBytes 16 (tokenBits t)
  let d1 := w64 (colour * 2 ^ 56 + count * 2 ^ 48 + crc32c (leBytes 8 d0.toNat ++ pay))
  { hdr := [d0, d1], payload := pay, frame := true, fprio := e.prio.toNat, hops := 0, again := false }
def State.putFrame (s : State) (p : Packet) : State := { s with net := { s.net with flight := s.net.flight ++ [p] } }
def State.sendFrame (s : State) (e : ChanEnd) (kind colour count : Nat) (toks : List Token) : State :=
  s.putFrame (e.frame kind colour count toks)

/-! ## Ethernet ports (01 R6, 26 R361, R366) -/

def State.link (s : State) (p : Nat) : LinkState := Sp.get .untrained s.links p
def State.lpermOf (s : State) (p : Nat) : W64 := Sp.get 0 s.lperm p
/-- A port that is present and whose physical layer has trained; and one in AUTH, which alone carries a tenant's traffic. -/
def State.portUp (s : State) (p : Nat) : Bool := s.portPresent p && s.link p != .untrained
def State.portAuth (s : State) (p : Nat) : Bool := s.portPresent p && s.link p == .auth
/-- Some port carries the traffic between a partition and its host, in or out: the host has no other path (01 R6). -/
def State.hostPath (s : State) (part : Nat) (ingress : Bool) : Bool :=
  (List.range 16).any fun e => s.portAuth e && (s.lpermOf part).getLsbD (12 + 2 * e + b2n ingress)

/-- A read of an agent that has been without its reply for 2^24 cycles (R333; log 41). -/
def State.overdue (s : State) (who : Who) : Option RRead :=
  s.net.reads.find? fun r => r.who == who && s.cycle - r.time ≥ 2 ^ 24
/-- The agent gives its read up. -/
def State.giveUp (s : State) (who : Who) : State :=
  { s with net := { s.net with reads := s.net.reads.filter fun r => r.who != who } }

/-- The agent has a remote read on its way. -/
def State.reading (s : State) (who : Who) : Bool := s.net.reads.any (·.who == who)

end Sys2Proof.Machine
end

