-- ==== Sys2Proof/Machine/Draught.lean ====
section
/-!
DEFINITION. The draught engine (06 R112 to R118): CPY and CPY2, and the performance of its commands.
-/
namespace Sys2Proof.Machine

/-! ## Checks at execute (06 R116) -/

/-- A flag descriptor of Table 06.3: reserved bits zero; with en = 0 every other field zero. -/
def flagForm (d : W64) : Bool :=
  fld d.toNat 30 29 == 0 && fld d.toNat 1 0 == 0 && (d.getLsbD 31 || d = 0)
def flagCore (d : W64) : Nat := fld d.toNat 28 19
def flagOff (d : W64) : Nat := fld d.toNat 18 2 * 4

/-- 06 R116 step 6 for the flag of a descriptor: its core is present, in core n's partition, with the same owner tag. -/
def State.flagTarget (s : State) (n : Nat) (d : W64) : Bool := !d.getLsbD 31 || s.sameOwner n (flagCore d)

/-- Steps 1 and 6 for a descriptor alone (10 SDONE, 18 TLBI). -/
def State.flagCheck (s : State) (n : Nat) (d : W64) : Except XF Unit :=
  if !flagForm d then .error (.fault 0x2C 0 d)
  else if !s.flagTarget n d then .error (.fault 0x30 0 d) else .ok ()

/-- Write the flag of a descriptor: one 4-byte pad write (06 R114). -/
def State.writeFlag (s : State) (d : W64) : State :=
  if d.getLsbD 31 then s.padWrite32 (flagCore d) (flagOff d) (fld d.toNat 63 32) else s

/-- The address i strides from a start, modulo 2^64. -/
def strided (start : W64) (stride : Int) (i : Nat) : Nat := (start + BitVec.ofInt 64 (stride * i)).toNat

/-- Row addresses of a command. -/
def EngCmd.srcRows (c : EngCmd) : List Nat := (List.range c.rows).map (strided c.src c.sstride)
def EngCmd.dstRows (c : EngCmd) : List Nat := (List.range c.rows).map (strided c.dst c.dstride)

/-- The first byte that rows touch in each page, in ascending order of pages. -/
def rowPages (starts : List Nat) (len : Nat) : List Nat :=
  (starts.foldl (fun (m : Sparse Nat) a => (pageStarts a len).foldl (fun m x =>
    Sp.put m (x / 4096) (Nat.min x (Sp.get x m (x / 4096)))) m) []).map (·.2)

/-- Some byte lies in both ranges of a length. -/
def overlaps (a b len : Nat) : Bool := a < b + len && b < a + len

/-- 06 R116 step 4: a source byte's address equals a destination byte's, or two destination bytes share one. -/
def EngCmd.overlap (c : EngCmd) : Bool :=
  let d := c.dstRows
  c.srcRows.any (fun x => d.any fun y => overlaps x y c.rowbytes) ||
    (List.range c.rows).any fun i => (List.range i).any fun j => overlaps (d.getD i 0) (d.getD j 0) c.rowbytes

/-- 06 R116 step 5: destination addresses that break the rules of `.fe`; of a row that ends inside a pad word, the part of that word
in the row (log 71). -/
def EngCmd.tagBreaks (c : EngCmd) : List Nat :=
  c.dstRows.flatMap fun a =>
    ((pageStarts a c.rowbytes).filter fun x => space (pageHome c.pages x).home == .gddr) ++
      (if space (pageHome c.pages a).home == .pad && a % 4 != 0 then [a] else []) ++
      (let e := a + c.rowbytes
       if space (pageHome c.pages (e - 1)).home == .pad && e % 4 != 0 then [Nat.max a (e - e % 4)] else [])

def minOf (l : List Nat) : Nat := l.foldl Nat.min (l.headD 0)

/-- The checks of 06 R116 after the length, for a command whose pages are still to be found; of step 6, the remote pads before
the flag's core (log 72). -/
def State.checkCopy (s : State) (c : EngCmd) : Except XF EngCmd :=
  let n := s.cur
  let tr := fun acc va => if s.walkHeld n c.colour.toNat va then .error .walk else s.resolveEngine n c.colour.toNat va c.lvlS acc
  let sp := rowPages c.srcRows c.rowbytes
  let dp := rowPages c.dstRows c.rowbytes
  match checkPages (tr .r) sp with
  | .error e => .error e
  | .ok l1 =>
    match checkPages (tr .w) dp with
    | .error e => .error e
    | .ok l2 =>
      let c := { c with pages := l1 ++ l2 }
      if c.overlap then .error (.fault 0x2E 0 c.dst)
      else if c.fe && !c.tagBreaks.isEmpty then .error (.fault 0x2F 0 (w64 (minOf c.tagBreaks)))
      else
        match (sp ++ dp).find? fun va =>
            padRemote ≤ va && va < padRemoteEnd && !s.sameOwner n ((va - padRemote) / 2 ^ 19) with
        | some va => .error (.fault 0x30 0 (w64 va))
        | none => if s.flagTarget n c.flag then .ok c else .error (.fault 0x30 0 c.flag)

def EngCmd.start (s : State) (o : RRR) (src dst : W64) : EngCmd :=
  { id := 0, src := src, dst := dst, sstride := 0, dstride := 0, rowbytes := 0, rows := 1, fe := o.func.getLsbD 3,
    scope := o.func.toNat % 8, flag := s.x o.c, colour := s.me.regs.colour, lvlS := s.me.lvlS, pages := [], moved := [],
    remote := [], asked := false, lost := [] }

/-- CPY (06): checked at execute, held until commit. -/
def execCpy (o : RRR) (s : State) : Out :=
  checked o.g o.gs s fun s =>
    let len := s.x o.b
    if !flagForm (s.x o.c) then .error (.fault 0x2C 0 (s.x o.c))
    else if len.toNat > 0x100000 then .error (.fault 0x2D 0 len)
    else
      match s.checkCopy { EngCmd.start s o (s.x o.a) (s.x o.d) with rowbytes := len.toNat } with
      | .error e => .error e
      | .ok c => .ok (s.hold (.engine c))

/-- A control block, from the core's cache where it holds one, else read and cached (06 R109). -/
def State.controlBlock (s : State) (va : W64) : Except XF (State × BitVec 256) :=
  if va.toNat % 32 != 0 then .error (.fault 8 0 va) else
  match s.me.cbc.find? fun e => e.1 == va.toNat with
  | some e => .ok (s, e.2)
  | none =>
    match s.load va 32 with
    | .error e => .error e
    | .ok (_, bs) =>
      let b := BitVec.ofNat 256 (bytesNat bs)
      .ok (s.setMe { s.me with cbc := ((va.toNat, b) :: s.me.cbc).take 8,
                               cbcColour := Sp.put s.me.cbcColour va.toNat s.me.regs.colour }, b)

/-- Field [hi:lo] of a control block. -/
def cbFld (b : BitVec 256) (hi lo : Nat) : Nat := fld b.toNat hi lo

/-- CPY2 (06, Table 06.4): rows named by a control block. -/
def execCpy2 (o : RRR) (s : State) : Out :=
  checked o.g o.gs s fun s =>
    let va := s.x o.a
    match s.controlBlock va with
    | .error e => .error e
    | .ok (s, b) =>
      let rows := cbFld b 159 128
      let rb := cbFld b 191 160
      if !flagForm (s.x o.c) then .error (.fault 0x2C 0 (s.x o.c))
      else if rows == 0 || rows > 65536 || rb == 0 || rb > 0x100000 || rows * rb > 2 ^ 24 then .error (.fault 0x2D 0 va)
      else
        match s.checkCopy { EngCmd.start s o (w64 (cbFld b 127 64)) (w64 (cbFld b 63 0)) with
            rowbytes := rb, rows := rows, sstride := (BitVec.ofNat 32 (cbFld b 255 224)).toInt,
            dstride := (BitVec.ofNat 32 (cbFld b 223 192)).toInt } with
        | .error e => .error e
        | .ok c => .ok (s.hold (.engine c))

/-! ## Performance of a command (06 R112 to R114, R118) -/

/-- Payload bytes of a command. -/
def EngCmd.total (c : EngCmd) : Nat := c.rowbytes * c.rows

/-- Source and destination of payload byte k. -/
def EngCmd.srcAt (c : EngCmd) (k : Nat) : Tr := pageHome c.pages (strided c.src c.sstride (k / c.rowbytes) + k % c.rowbytes)
def EngCmd.dstAt (c : EngCmd) (k : Nat) : Tr := pageHome c.pages (strided c.dst c.dstride (k / c.rowbytes) + k % c.rowbytes)

/-- Places of a payload with every place of the same row whose destination lies in the same pad word: the engine writes a pad word
at one instant (06 R98, R99). -/
def EngCmd.whole (c : EngCmd) (ks : List Nat) : List Nat :=
  (ks.flatMap fun k =>
    let t := c.dstAt k
    if space t.home != .pad then [k] else
    (((List.range 7).map fun i => k + i - 3).filter fun j =>
      k ≤ j + 3 && j / c.rowbytes == k / c.rowbytes && (c.dstAt j).home / 4 == t.home / 4)).eraseDups

/-- A byte as an agent of core n reads it, with its poison: the core's own dirty byte, or the byte at its home (06 R113). -/
def State.ownByte (s : State) (n key h : Nat) : Byte × Bool :=
  match Sp.find? (s.core n).l1 (h / 128) with
  | some l => if l.dirty.getLsbD (h % 128) then (lineByte l.data (h % 128), l.marks.getLsbD (h % 128 / 8)) else (s.readHome key h, s.poisoned h)
  | none => (s.readHome key h, s.poisoned h)

/-- A source byte as the engine of core n reads it: the issuing core's dirty byte, or the byte at its home (06 R113), with
its poison; none where a remote byte has not come. A byte of a retired frame counts as poisoned. -/
def State.engineByte (s : State) (n : Nat) (c : EngCmd) (t : Tr) : Option (Byte × Bool) :=
  let h := t.home
  match space h with
  | .remote =>
    if c.lost.contains h then some (0, true)
    else (Sp.find? c.remote h).map fun b => (b, false)
  | .gddr =>
    if s.isRetired h then some (0, true) else some (s.ownByte n t.key h)
  | _ => some (s.ownByte n t.key h)

/-- The payload bytes of a list of places, with their destinations; none where a remote byte has not come. -/
def State.enginePieces (s : State) (n : Nat) (c : EngCmd) : List Nat → Option (List (Tr × Byte × Bool))
  | [] => some []
  | k :: ks =>
    match s.engineByte n c (c.srcAt k), s.enginePieces n c ks with
    | some (b, bad), some l => some ((c.dstAt k, b, bad) :: l)
    | _, _ => none

/-- The first remote source byte among places that has not come. -/
def EngCmd.missing (c : EngCmd) (ks : List Nat) : Option Nat :=
  (ks.map fun k => (c.srcAt k).home).find? fun h =>
    space h == .remote && !c.lost.contains h && (Sp.find? c.remote h).isNone

/-- Consecutive destination bytes as runs of remote writes. -/
def remoteRuns : List (Tr × Byte × Bool) → List (Nat × List Byte × Bool)
  | [] => []
  | (t, b, bad) :: rest =>
    match remoteRuns rest with
    | (h, bs, bad') :: rs =>
      if h == t.home + 1 && bs.length < 256 && bad == bad' then (t.home, b :: bs, bad) :: rs
      else (t.home, [b], bad) :: (h, bs, bad') :: rs
    | [] => [(t.home, [b], bad)]

/-- Units of memory that pieces write, each once. -/
def unitsOf (ps : List (Tr × Byte × Bool)) : List Nat := (ps.map fun p => unitBase p.1.home).eraseDups

/-- Write pieces at their destinations: bytes, poison markers unit by unit, full bits and presence tags with `.fe`, the
issuing core's L1 copies dropped (06 R113, R118). -/
def State.engineWrite (s : State) (n : Nat) (c : EngCmd) (ps : List (Tr × Byte × Bool)) : State :=
  let away := ps.filter fun p => space p.1.home == .remote
  let here := ps.filter fun p => space p.1.home != .remote && !(space p.1.home == .gddr && s.isRetired p.1.home)
  let s := (here.map fun p => p.1.home / 128).eraseDups.foldl (fun s line => s.l1Drop n line) s
  let s := here.foldl (fun s p => s.writeByte p.1.key p.1.home p.2.1) s
  let s := (unitsOf here).foldl (fun s u =>
    let mine := here.filter fun p => unitBase p.1.home == u
    if mine.any (·.2.2) then s.mark u true
    else if mine.length ≥ unitSize u then s.mark u false else s) s
  let s := if c.fe then here.foldl (fun s p => if space p.1.home == .pad then s.setFe p.1.home 1 true else s) s else s
  let s := here.foldl (fun s p => s.padNotify p.1.home 1) s
  (remoteRuns away).foldl (fun s r => s.sendWrite (.engine n) c.colour.toNat r.1 r.2.1 r.2.2) s

/-- Presence words that the places moved so far cover whole, and the latest places complete (07 Table 07.3). -/
def EngCmd.fullWords (c : EngCmd) (moved latest : List Nat) : List Nat :=
  let home := fun k => c.dstAt k
  ((latest.filter fun k => (home k).pres && space (home k).home == .floor).map fun k => (home k).home / 8 * 8).eraseDups.filter
    fun w => (List.range 8).all fun i => moved.any fun k => (home k).home == w + i

/-- The presence tags that a command's bytes set, with Serve still to run for each word: the words. -/
def State.setTags (s : State) (ws : List Nat) : State := ws.foldl (fun s w => s.setTag w true) s

end Sys2Proof.Machine
end

