-- ==== Sys2Proof/Machine/Float.lean ====
section
/-!
DEFINITION. Floating-point values and their one rounding (03 R39 to R45), the scalar operations of Table 04.6, the
conversions of R44 and the seeds of R48. An operation forms its exact result and rounds it once.
-/
namespace Sys2Proof.Machine

/-- The five formats of Table 03.1. -/
inductive Fmt where
  | f32 | bf16 | f16 | e4m3 | e5m2
deriving DecidableEq, Repr

namespace Fp

/-- Bits of a value. -/
def width : Fmt → Nat | .f32 => 32 | .bf16 | .f16 => 16 | .e4m3 | .e5m2 => 8
/-- Mantissa bits. -/
def mant : Fmt → Nat | .f32 => 23 | .bf16 => 7 | .f16 => 10 | .e4m3 => 3 | .e5m2 => 2
/-- Exponent bits. -/
def expo : Fmt → Nat | .f32 | .bf16 => 8 | .f16 => 5 | .e4m3 => 4 | .e5m2 => 5
def bias : Fmt → Int | .f32 | .bf16 => 127 | .f16 => 15 | .e4m3 => 7 | .e5m2 => 15
/-- Magnitude bits of the largest finite value. -/
def maxRaw : Fmt → Nat | .f32 => 0x7F7FFFFF | .bf16 => 0x7F7F | .f16 => 0x7BFF | .e4m3 => 0x7E | .e5m2 => 0x7B
/-- The default NaN. -/
def nanRaw : Fmt → Nat | .f32 => 0x7FC00000 | .bf16 => 0x7FC0 | .f16 => 0x7E00 | .e4m3 => 0x7F | .e5m2 => 0x7E
/-- Magnitude bits of infinity (E4M3 has none; its NaN stands here and is never written for one). -/
def infRaw : Fmt → Nat | .f32 => 0x7F800000 | .bf16 => 0x7F80 | .f16 => 0x7C00 | .e4m3 => 0x7F | .e5m2 => 0x7C

/-- An exact value: NaN, an infinity, or the finite value (-1)^s · m · 2^e (a zero keeps its sign). -/
inductive Val where
  | nan
  | inf (s : Bool)
  | fin (s : Bool) (m : Nat) (e : Int)
deriving DecidableEq, Repr

/-- The value of a word of a format (R39, R40). -/
def unpack (f : Fmt) (raw : Nat) : Val :=
  let s := raw / 2 ^ (width f - 1) % 2 == 1
  let ef := raw / 2 ^ mant f % 2 ^ expo f
  let mf := raw % 2 ^ mant f
  if ef == 2 ^ expo f - 1 && (f != .e4m3 || mf == 7) then
    if f != .e4m3 && mf == 0 then .inf s else .nan
  else if ef == 0 then .fin s mf (1 - bias f - mant f)
  else .fin s (mf + 2 ^ mant f) (ef - bias f - mant f)

/-- The sign bit of a format. -/
def signRaw (f : Fmt) (s : Bool) : Nat := if s then 2 ^ (width f - 1) else 0

/-- Rounding of m / 2^sh to an integer under a mode of Table 03.2, for a value of sign s; `sticky` says that the exact
magnitude lies strictly above m and below m + 1. -/
def roundShift (rm : Nat) (s : Bool) (m sh : Nat) (sticky : Bool) : Nat :=
  if sh > Nat.log2 m + 2 then
    if (m == 0 && !sticky) then 0 else
    if (rm == 3 && !s) || (rm == 2 && s) then 1 else 0
  else
    let q := m / 2 ^ sh
    let r := m % 2 ^ sh
    let half := 2 ^ (sh - 1)
    let up := match rm with
      | 0 => sh != 0 && (r > half || (r == half && (sticky || q % 2 == 1)))
      | 1 => false
      | 2 => s && (r != 0 || sticky)
      | _ => !s && (r != 0 || sticky)
    if up then q + 1 else q

/-- A rounded result: its word, whether it overflowed under R43, and whether it is zero while the exact one was not. -/
structure Rounded where
  raw : Nat
  ovf : Bool := false
  under : Bool := false
deriving DecidableEq, Repr

/-- R42, R43: round (-1)^s · m · 2^e (a little more when `sticky`) to a format. -/
def roundMag (f : Fmt) (rm : Nat) (sat s : Bool) (m : Nat) (e : Int) (sticky : Bool) : Rounded :=
  if m == 0 && !sticky then ⟨signRaw f s, false, false⟩ else
  let qmin : Int := 1 - bias f - mant f
  let q : Int := max qmin ((Nat.log2 m : Int) + e - mant f)
  let (m, e) := if e > q - 2 then (m <<< (e - (q - 2)).toNat, q - 2) else (m, e)
  let n := roundShift rm s m (q - e).toNat sticky
  let raw := ((q - qmin).toNat <<< mant f) + n
  if raw > maxRaw f then
    let toward := rm == 0 || (rm == 3 && !s) || (rm == 2 && s)
    if sat || !toward then ⟨signRaw f s + maxRaw f, true, false⟩
    else if f == .e4m3 then ⟨nanRaw f, true, false⟩
    else ⟨signRaw f s + infRaw f, true, false⟩
  else ⟨signRaw f s + raw, false, raw == 0⟩

/-- The word of an exact value (R42 to R44). -/
def roundTo (f : Fmt) (rm : Nat) (sat : Bool) (v : Val) (sticky : Bool) : Rounded :=
  match v with
  | .nan => ⟨nanRaw f, false, false⟩
  | .inf s =>
    if sat && (f == .e4m3 || f == .e5m2) then ⟨signRaw f s + maxRaw f, true, false⟩
    else if f == .e4m3 then ⟨nanRaw f, false, false⟩
    else ⟨signRaw f s + infRaw f, false, false⟩
  | .fin s m e => roundMag f rm sat s m e sticky

def isNan : Val → Bool | .nan => true | _ => false
def isFin : Val → Bool | .fin .. => true | _ => false
def isZero : Val → Bool | .fin _ m _ => m == 0 | _ => false

/-- The kind of Table 03.5 that a result of a converter counts, if any. -/
def kind (f : Fmt) (sat : Bool) (ops : List Val) (r : Rounded) : Option Nat :=
  match unpack f r.raw with
  | .nan => if ops.any isNan then none else some 1
  | .inf _ => if ops.all isFin then some 2 else none
  | .fin .. => if sat && r.ovf then some 0 else if r.under then some 3 else none

/-- A finite value as an integer multiple of 2^e, e at most its own exponent. -/
def scaled (s : Bool) (m : Nat) (e0 e : Int) : Int :=
  let v : Int := (m <<< (e0 - e).toNat : Nat)
  if s then -v else v

/-- a + b exactly, with the signs of zero sums of Table 04.6. -/
def add (rm : Nat) (a b : Val) : Val :=
  match a, b with
  | .nan, _ | _, .nan => .nan
  | .inf s, .inf t => if s == t then .inf s else .nan
  | .inf s, _ | _, .inf s => .inf s
  | .fin s m e, .fin t n f =>
    if m == 0 && n == 0 then .fin (if s == t then s else rm == 2) 0 0 else
    if m == 0 then b else if n == 0 then a else
    let g := min e f
    let v := scaled s m e g + scaled t n f g
    if v == 0 then .fin (rm == 2) 0 0 else .fin (v < 0) v.natAbs g

def neg : Val → Val
  | .nan => .nan
  | .inf s => .inf !s
  | .fin s m e => .fin (!s) m e

def mul (a b : Val) : Val :=
  match a, b with
  | .nan, _ | _, .nan => .nan
  | .inf s, .inf t => .inf (s != t)
  | .inf s, .fin t n _ | .fin t n _, .inf s => if n == 0 then .nan else .inf (s != t)
  | .fin s m e, .fin t n f => .fin (s != t) (m * n) (e + f)

/-- num / den · 2^e truncated with at least 64 significant bits, and whether anything was cut off. -/
def quot (s : Bool) (num den : Nat) (e : Int) : Val × Bool :=
  let k := 66 + Nat.log2 den
  let q := (num <<< k) / den
  (.fin s q (e - k), (num <<< k) % den != 0)

/-- a ÷ b (Table 04.6): the exact result, truncated, and whether it was cut off. -/
def div (a b : Val) : Val × Bool :=
  match a, b with
  | .nan, _ | _, .nan => (.nan, false)
  | .inf _, .inf _ => (.nan, false)
  | .inf s, .fin t _ _ => (.inf (s != t), false)
  | .fin s _ _, .inf t => (.fin (s != t) 0 0, false)
  | .fin s m e, .fin t n f =>
    if n == 0 then (if m == 0 then .nan else .inf (s != t), false)
    else if m == 0 then (.fin (s != t) 0 0, false)
    else quot (s != t) m n (e - f)

def fma (rm : Nat) (a b c : Val) : Val := add rm (mul a b) c

/-- Order of two values that are not NaN, with -0 equal to +0. -/
def le (a b : Val) : Bool :=
  match a, b with
  | .nan, _ | _, .nan => false
  | .inf true, _ => true
  | _, .inf false => true
  | .inf false, _ => false
  | _, .inf true => false
  | .fin s m e, .fin t n f =>
    let g := min e f
    decide (scaled s m e g ≤ scaled t n f g)

/-- A condition of Table 02.3 on floating-point values: a NaN satisfies only `.ne` (R40, R74). -/
def cond (c : Nat) (a b : Val) : Bool :=
  if isNan a || isNan b then c == 1 else
  match c with
  | 0 => le a b && le b a
  | 1 => !(le a b && le b a)
  | 2 => !le b a
  | 3 => le a b
  | 4 => !le a b
  | _ => le b a

def signOf : Val → Bool | .nan => false | .inf s => s | .fin s _ _ => s

/-- FMIN: the lesser; -0 is less than +0; one NaN is ignored (Table 04.6). -/
def fmin (a b : Val) : Val :=
  if isNan a then b else if isNan b then a else
  if isZero a && isZero b then (if signOf a then a else b) else
  if le a b then a else b
def fmax (a b : Val) : Val :=
  if isNan a then b else if isNan b then a else
  if isZero a && isZero b then (if signOf a then b else a) else
  if le a b then b else a

/-- The float format of a type code 0x08-0x0C (R21). -/
def ofTy (t : Nat) : Fmt :=
  match t with | 8 => .f32 | 9 => .bf16 | 0xA => .f16 | 0xB => .e4m3 | _ => .e5m2

/-! ## Conversions (R44) -/

/-- Width of an integer or float type code 0x00-0x0C. -/
def tyBits (t : Nat) : Nat :=
  match t with
  | 0 | 1 => 8 | 2 | 3 => 16 | 4 | 5 => 32 | 6 | 7 => 64 | 8 => 32 | 9 | 0xA => 16 | _ => 8

/-- The integer that a word of an integer type holds: even codes are signed (R21). -/
def intOf (t : Nat) (raw : Nat) : Int :=
  let w := tyBits t
  let r := raw % 2 ^ w
  if t % 2 == 0 && r ≥ 2 ^ (w - 1) then (r : Int) - 2 ^ w else r

def tyMin (t : Nat) : Int := if t % 2 == 0 then -(2 ^ (tyBits t - 1) : Nat) else 0
def tyMax (t : Nat) : Int := if t % 2 == 0 then (2 ^ (tyBits t - 1) - 1 : Nat) else (2 ^ tyBits t - 1 : Nat)
/-- The low w bits of an integer. -/
def low (w : Nat) (v : Int) : Nat := (v % (2 ^ w : Nat)).toNat
def clamp (t : Nat) (v : Int) : Int := if v < tyMin t then tyMin t else if v > tyMax t then tyMax t else v

/-- A finite value rounded to an integer under a mode. -/
def toInt (rm : Nat) (s : Bool) (m : Nat) (e : Int) : Int :=
  let n : Nat := if e ≥ 0 then m <<< e.toNat else roundShift rm s m (-e).toNat false
  if s then -(n : Int) else n

/-- Convert a word of type `src` to type `dst` (codes 0x00-0x0C): the word, and the kind of Table 03.5 it counts. -/
def convert (src dst rm : Nat) (sat : Bool) (raw : Nat) : Nat × Option Nat :=
  if src ≤ 7 then
    let v := intOf src raw
    if dst ≤ 7 then
      if sat then
        let c := clamp dst v
        (low (tyBits dst) c, if c == v then none else some 0)
      else (low (tyBits dst) v, none)
    else
      let x : Val := .fin (v < 0) v.natAbs 0
      let r := roundTo (ofTy dst) rm sat x false
      (r.raw, kind (ofTy dst) sat [x] r)
  else
    let x := unpack (ofTy src) (raw % 2 ^ tyBits src)
    if dst ≤ 7 then
      match x with
      | .nan => (0, some 0)
      | .inf s => (low (tyBits dst) (if s then tyMin dst else tyMax dst), some 0)
      | .fin s m e =>
        let v := toInt rm s m e
        let c := clamp dst v
        (low (tyBits dst) c, if c == v then none else some 0)
    else
      let r := roundTo (ofTy dst) rm sat x false
      (r.raw, kind (ofTy dst) sat [x] r)

/-! ## Seeds (R48) -/

/-- Integer square root, one bit of the result at a time. -/
def isqrtAux (n : Nat) : Nat → Nat → Nat
  | 0, r => r
  | k + 1, r => let t := r + 2 ^ k; isqrtAux n k (if t * t ≤ n then t else r)
def isqrt (n : Nat) : Nat := isqrtAux n (Nat.log2 n / 2 + 1) 0

/-- RoundSig13: m · 2^e to 12 fraction bits, ties to even. -/
def roundSig13 (m : Nat) (e : Int) (sticky : Bool) : Nat × Int :=
  let sh := Nat.log2 m - 12
  (roundShift 0 false m sh sticky, e + sh)

/-- The reciprocal seed of an FP32 word: the word, and the kind it counts. -/
def rcpSeed (raw : Nat) : Nat × Option Nat :=
  let x := unpack .f32 raw
  let res : Rounded := match x with
    | .nan => ⟨nanRaw .f32, false, false⟩
    | .inf s => ⟨signRaw .f32 s, false, false⟩
    | .fin s m e =>
      if m == 0 then ⟨signRaw .f32 s + infRaw .f32, false, false⟩ else
      let l := Nat.log2 m
      let i := (m - 2 ^ l) * 128 / 2 ^ l
      let a := 257 + 2 * i
      match quot false ((2 * a * 2 ^ l - 256 * m) * 256) (2 ^ l * a * a) 0 with
      | (.fin _ q eq, st) =>
        let (z, ez) := roundSig13 q eq st
        roundMag .f32 0 false s z (ez - (e + l)) false
      | _ => ⟨0, false, false⟩
  (res.raw, kind .f32 false [x] res)

/-- The reciprocal square root seed of an FP32 word. -/
def rsqSeed (raw : Nat) : Nat × Option Nat :=
  let x := unpack .f32 raw
  let res : Rounded := match x with
    | .nan => ⟨nanRaw .f32, false, false⟩
    | .inf s => if s then ⟨nanRaw .f32, false, false⟩ else ⟨0, false, false⟩
    | .fin s m e =>
      if m == 0 then ⟨signRaw .f32 s + infRaw .f32, false, false⟩ else
      if s then ⟨nanRaw .f32, false, false⟩ else
      let l := Nat.log2 m
      let i := (m - 2 ^ l) * 128 / 2 ^ l
      let e := e + l
      let odd := e % 2 != 0
      -- mid = a / 256 and M = b / 2^l, both doubled for an odd exponent
      let a := (257 + 2 * i) * (if odd then 2 else 1)
      let b := m * (if odd then 2 else 1)
      let e := if odd then e - 1 else e
      -- y² = (3 mid - M)² / (4 mid³)
      let n := (3 * a * 2 ^ l - 256 * b) ^ 2 * 64
      let d := 2 ^ (2 * l) * a ^ 3
      let k := 100
      let t := (n <<< (2 * k)) / d
      let r := isqrt t
      let (z, ez) := roundSig13 r (-(k : Int)) (r * r * d != n <<< (2 * k))
      roundMag .f32 0 false false z (ez - e / 2) false
  (res.raw, kind .f32 false [x] res)

end Fp

/-- A value as it stands, but for a NaN, which is the default NaN of its format (03 R40). -/
def Fp.oneNan (f : Fmt) (raw : Nat) : Nat := if Fp.isNan (Fp.unpack f raw) then Fp.nanRaw f else raw

end Sys2Proof.Machine
end

