-- ==== Sys2Proof/Machine/Flags.lean ====
section
/-!
DEFINITION. Conditions (02 Table 02.3), predicates written by compares (04 R69, 05 R77), and the converter counts of a
core (03 R45, R51).
-/
namespace Sys2Proof.Machine

/-- A condition on two words of a type: signed or unsigned by an integer type (04 R74), floating-point by the others (03
R40: a NaN satisfies only `.ne`). -/
def condTy (ty c a b : Nat) : Bool :=
  if ty ≤ 7 then condInt c (Fp.intOf ty a) (Fp.intOf ty b)
  else Fp.cond c (Fp.unpack (Fp.ofTy ty) (a % 2 ^ Fp.tyBits ty)) (Fp.unpack (Fp.ofTy ty) (b % 2 ^ Fp.tyBits ty))

/-- A predicate as a scalar compare writes it: all ones or zero (04 R69). -/
def allLanes (b : Bool) : W32 := if b then 0xFFFFFFFF else 0

/-- A word with bit l as `f l` says, for 32 lanes. -/
def laneBits (f : Nat → Bool) : W32 :=
  w32 ((List.range 32).foldl (fun a l => a + (if f l then 2 ^ l else 0)) 0)

/-- Count one lane of a kind (Table 03.5), held with the block's registers until commit; a count stops at all ones (03
R45, R51). -/
def Regs.count (r : Regs) (k : Option Nat) : Regs :=
  match k with
  | none => r
  | some k => { r with counts := Sp.set 0 r.counts k (w32 (satAdd 32 (Sp.get 0 r.counts k).toNat 1)) }

def State.count (s : State) (k : Option Nat) : State := s.setW (s.w.count k)

/-- Set bits of a predicate (PMOV `.pop`). -/
def popCount (v : W32) : Nat := (List.range 32).foldl (fun n i => n + b2n (v.getLsbD i)) 0
/-- Index of the lowest set bit, 32 if none is set (PMOV `.low`). -/
def lowestBit (v : W32) : Nat := ((List.range 32).find? fun i => v.getLsbD i).getD 32

end Sys2Proof.Machine
end

