-- ==== Sys2Proof/Machine/Memory.lean ====
section
/-!
DEFINITION. Core memory forms (06): LD, ST, LDA, STL, LDF, PF, CFLUSH, CINV, INVAL.CB, FENCE and WAITA.
-/
namespace Sys2Proof.Machine

/-- LD, and LDA at `.core`: a plain load (06 R103). -/
def loadForm (o : MEM) (s : State) : Except XF State :=
  match s.load (s.memAddr o) (tyBytes o.ty.toNat) with
  | .error e => .error e
  | .ok (_, bs) => .ok (s.setX o.d (loadValue o.ty bs))

/-- LD (06 R103). -/
def execLd (o : MEM) (s : State) : Out := checked o.g o.gs s (loadForm o)

/-- ST (06 R103); `.full` only in the local pad (06 R99): an address elsewhere is translated and checked before the access fault
(log 70). -/
def execSt (o : MEM) (s : State) : Out :=
  checked o.g o.gs s fun s =>
    let va := s.memAddr o
    let n := tyBytes o.ty.toNat
    match s.coreAccess va.toNat n .w with
    | .error e => .error e
    | .ok t =>
      let full := o.func == 1
      if full && space t.home != .pad then .error (.fault 0x18 0 va)
      else .ok (s.holdStore t full (leBytes n (s.x o.d).toNat))

/-- LDA (06 R104): at a scope wider than `.core` the value is read at the home and no later load uses an older copy. -/
def execLda (o : MEM) (s : State) : Out :=
  checked o.g o.gs s fun s => loadForm o (if wider o.scope.toNat then s.l1DropAll s.cur else s)

/-- How a release store is delivered: a cached line's store is written through to its home (06 R104). -/
def throughHow (t : Tr) : StoreHow :=
  match storeHow t false with
  | .cached => .home
  | h => h

/-- STL (06 R104): at a scope wider than `.core`, a release, then the store written through; at `.core`, the core's own accesses in
order (17 R258). -/
def execStl (o : MEM) (s : State) : Out :=
  checked o.g o.gs s fun s =>
    let n := tyBytes o.ty.toNat
    match s.coreAccess (s.memAddr o).toNat n .w with
    | .error e => .error e
    | .ok t =>
      let bs := leBytes n (s.x o.d).toNat
      if wider o.scope.toNat then .ok ((s.hold (.release (o.scope == 6))).hold (.store t.home bs (throughHow t) t.key))
      else .ok ((s.hold .order).holdStore t false bs)

/-- A checked address of the local pad, or an access fault (06 R105, R106). -/
def State.padAccess (s : State) (va n : Nat) : Except XF Nat :=
  if va % n != 0 then .error (.fault 8 0 (w64 va))
  else if padLocal ≤ va && va < vaLimit then .ok (padHome s.cur (va - padLocal))
  else if va ≥ vaLimit then .error (.fault 0x10 0 (w64 va))
  else .error (.fault 0x18 0 (w64 va))

/-- The block waits (04 R61). -/
def State.waitOn (s : State) (w : Wait) (a : Answer) : State :=
  s.setBlk { s.blk with wait := w, ans := a, cancel := false }

/-- LDF (06 R105): wait until the words are full. -/
def execLdf (o : MEM) (s : State) : Out :=
  checked o.g o.gs s fun s =>
    let n := tyBytes o.ty.toNat
    match s.padAccess (s.memAddr o).toNat n with
    | .error e => .error e
    | .ok h => .ok (s.waitOn (.ldf o.d.toNat h n o.ty.toNat (o.func == 1)) .none)

/-- WAITA (06 R106): the word is compared at issue, and again after every write to it. -/
def execWaita (o : MEM) (s : State) : Out :=
  checked o.g o.gs s fun s =>
    match s.padAccess (s.memAddr o).toNat 4 with
    | .error e => .error e
    | .ok h =>
      let b : W32 := (s.x o.b).setWidth 32
      let a : Answer :=
        if s.waitaHolds h o.ty.toNat o.func.toNat b then
          if s.anyPoison h 4 then .poisoned else .val (w64 (s.readVal 0 h 4))
        else .none
      .ok (s.waitOn (.waita o.d.toNat h o.ty.toNat o.func.toNat b (o.ord == 1 && wider o.scope.toNat)) a)

/-- PF (06 R107): it changes no state that a program can read and never faults; a copy is brought in by a turn of the world. -/
def execPf (o : MEM) (s : State) : Out := plain o.g o.gs s fun s => s

/-- The range of CFLUSH and CINV: `.line`, `.range` rounded out to whole lines, `.all` (06 R108). -/
def State.maintRange (s : State) (o : MEM) : Nat × Nat :=
  let va := (s.memAddr o).toNat
  match o.func.toNat with
  | 0 => (va - va % 128, 128)
  | 1 =>
    let len := (s.x o.d).toNat
    if len == 0 then (va, 0) else (va - va % 128, (va + len + 127) / 128 * 128 - (va - va % 128))
  | _ => (0, 0)

/-- CFLUSH and CINV take effect at commit (06 R108). -/
def maintForm (o : MEM) (s : State) (inv : Bool) : Out :=
  plain o.g o.gs s fun s =>
    let r := s.maintRange o
    s.hold (.flush s.me.regs.colour s.me.lvlS r.1 r.2 (o.func == 2) inv)

/-- CFLUSH. -/
def execCflush (o : MEM) (s : State) : Out := maintForm o s false
/-- CINV. -/
def execCinv (o : MEM) (s : State) : Out := maintForm o s true

/-- A page of a range, at a colour and level, is readable or may be fetched: its home. -/
def State.maintPage (s : State) (n c va : Nat) (lvlS : Bool) : Option Nat :=
  match s.resolve n c va lvlS true .r with
  | .ok t => some t.home
  | .error _ =>
    match s.resolve n c va lvlS true .x with
    | .ok t => some t.home
    | .error _ => none

/-- Home lines of core n's copies that a range covers; pages without translation or permission are skipped. -/
def State.maintLines (s : State) (n c : Nat) (lvlS : Bool) (start len : Nat) (lines : List Nat) : List Nat :=
  lines.filter fun line => (pageStarts start len).any fun va =>
    match s.maintPage n c va lvlS with
    | none => false
    | some h =>
      let e := Nat.min ((va / 4096 + 1) * 4096) (start + len)
      h ≤ line * 128 && line * 128 < h + (e - va)

/-- The delivery of CFLUSH and CINV. -/
def State.flush (s : State) (n : Nat) (colour : Nat) (lvlS : Bool) (start len : Nat) (all inv : Bool) : State :=
  let pick := fun (lines : List Nat) => if all then lines else s.maintLines n colour lvlS start len lines
  let lines := pick ((s.core n).l1.map (·.1))
  let code := pick ((s.core n).ifetch.map (·.1))
  let s := lines.foldl (fun s line => if inv then s.l1Drop n line else s.l1WriteBack n line) s
  if inv then s.setCore n { s.core n with ifetch := (s.core n).ifetch.filter fun e => !code.contains e.1 } else s

/-- INVAL.CB (06 R110): the entry leaves the control-block cache for the later instructions of the block. -/
def execInvalCb (o : MEM) (s : State) : Out :=
  checked o.g o.gs s fun s =>
    if o.func == 1 then .ok (s.setMe { s.me with cbc := [], cbcColour := [] })
    else
      let va := (s.memAddr o).toNat
      if va % 32 != 0 then .error (.fault 8 0 (w64 va))
      else .ok (s.setMe { s.me with cbc := s.me.cbc.filter fun e => e.1 != va })

/-- FENCE (06 R111, 17 R258): the acquire half acts at once; the release half at delivery, and `.rw` drops there too what was filled
before the earlier stores were performed. At `.core` only the core's own accesses are ordered. -/
def execFence (o : SYS) (s : State) : Out :=
  plain o.g o.gs s fun s =>
    let scope := o.imm.toNat
    if !wider scope then (if o.func == 1 then s else s.hold .order) else
    let s := if o.func.toNat ≤ 1 then s.l1DropAll s.cur else s
    if o.func == 1 then s
    else if o.func == 0 then s.holdAll [.release (scope == 6), .acquire]
    else s.hold (.release (scope == 6))

/-! ## Answers of LDF and WAITA -/

/-- The register value of a wait form's answer. -/
def State.answerX (s : State) (d : Nat) (v : W64) : State :=
  let t := s.setX (BitVec.ofNat 6 d) v
  t.setBlk { t.blk with wait := .none, ans := .none }

/-- The LDF of the core whose turn it is takes its words when they are full, in one atomic action; a poisoned word leaves
bits and data unchanged and ends the block (06 R105). -/
def State.answerLdf (s : State) (d home n ty : Nat) (clr : Bool) : State :=
  if !s.isFull home n then s
  else
    match (List.range n).find? fun i => s.poisoned (home + i) with
    | some i => s.faultAt s.cur 0x0B 0 (w64 (padLocal + (home + i - padBase) % 2 ^ 19))
    | none =>
      let v := extTy ty (8 * n) (s.readVal 0 home n)
      let s := if clr then s.setFe home n false else s
      s.answerX d v

/-- The WAITA of the core whose turn it is commits with the value of the first comparison that held (06 R106). -/
def State.answerWaita (s : State) (d home ty : Nat) (acq : Bool) : State :=
  match s.blk.ans with
  | .val v =>
    let s := if acq then s.l1DropAll s.cur else s
    s.answerX d (extTy ty 32 v.toNat)
  | .poisoned => s.faultAt s.cur 0x0B 0 (w64 (padLocal + (home - padBase) % 2 ^ 19))
  | _ => s

end Sys2Proof.Machine
end

