-- ==== Sys2Proof/Machine/Banks.lean ====
section
/-!
DEFINITION. Floor banks (07): the bank unit, presence words, the trade ring, and the sixteen bank forms.
-/
namespace Sys2Proof.Machine

/-! ## The bank unit (07 R122 to R124) -/

/-- Width in bytes of a bank operation's word. -/
def bankBytes (ty : Nat) : Nat := if ty == 6 || ty == 7 then 8 else 4

/-- The new word of an integer operation: 0 add, 1 and, 2 or, 3 xor, 4 min, 5 max, 6 swap. -/
def amoInt (op ty old b : Nat) : Nat :=
  match op with
  | 0 => old + b
  | 1 => old &&& b
  | 2 => old ||| b
  | 3 => old ^^^ b
  | 4 => if Fp.intOf ty old ≤ Fp.intOf ty b then old else b
  | 5 => if Fp.intOf ty old ≥ Fp.intOf ty b then old else b
  | _ => b

/-- One floating-point update, always RNE: 0 fadd, 1 fmin, 2 fmax. -/
def amoFp (f : Fmt) (op old b : Nat) : Nat :=
  let x := Fp.unpack f old
  let y := Fp.unpack f b
  (Fp.roundTo f 0 false (match op with | 0 => Fp.add 0 x y | 1 => Fp.fmin x y | _ => Fp.fmax x y) false).raw

/-- The new word of a floating-point operation, per sub-lane for `.bf16x2` (07, AMOF). -/
def amoFloat (op ty old b : Nat) : Nat :=
  if ty == 0xD then amoFp .bf16 op (old % 2 ^ 16) (b % 2 ^ 16) + amoFp .bf16 op (old / 2 ^ 16) (b / 2 ^ 16) * 2 ^ 16
  else amoFp .f32 op old b

/-- The new word of one 4- or 8-byte update: integer types by `amoInt`, the others by `amoFloat`. -/
def amoWord (op ty old b : Nat) : Nat :=
  if ty ≤ 7 then amoInt op ty old b % 2 ^ (8 * bankBytes ty) else amoFloat op ty old b

/-- Count an operation dropped on a poisoned word (07 Table 07.6). -/
def State.bankDrop (s : State) (h : Nat) : State :=
  let b := s.bank (bankOf h)
  s.setBank (bankOf h) { b with drop := satAdd 16 b.drop 1 }

/-- Answer a waiting core (04 R63): the answer has left the target. -/
def State.answerCore (s : State) (n : Nat) (a : Answer) : State :=
  let c := s.core n
  s.setCore n { c with blk := { c.blk with ans := a } }

/-- The launch that armed a section is told that it has ended, and its status (11 R202). -/
def State.tellLaunch (s : State) (t : Section) (st : Nat) : State :=
  match t.launch with
  | some (p, id) =>
    let q := Sp.get Sched.reset s.scheds p
    { s with scheds := Sp.put s.scheds p { q with launches := q.launches.map fun l =>
        (if l.id == id && l.sect.isNone then { l with sect := some st, entry? := none } else l) } }
  | none => s

/-- A section-table entry is freed with a status (09 R173): a waiting RCALM `.sect` of its core and the launch that armed it are
told. -/
def State.freeSection (s : State) (n e st : Nat) : State :=
  let c := s.core n
  let t := Sp.get Section.reset c.sections e
  let ans := match c.blk.wait, c.blk.ans with
    | .rcalm 2 _ _ _ k, .none => if k == e then .val (w64 st) else Answer.none
    | _, a => a
  (s.setCore n { c with sections := Sp.put c.sections e { Section.reset with status := st },
                        blk := { c.blk with ans := ans } }).tellLaunch t st

/-- Answer a presence request: the waiting core, or the section whose completion PUT it is, which is freed when the PUT is
performed and sends it again when it is refused (09 R174). -/
def State.answerPres (s : State) (w : Requester) (a : Answer) : State :=
  match w with
  | .core n => s.answerCore n a
  | .completion n e =>
    let c := s.core n
    let t := Sp.get Section.reset c.sections e
    match a, t.done with
    | .val _, some st => s.freeSection n e st
    | _, _ => s.setCore n { c with sections := Sp.put c.sections e { t with putting := false } }

/-- 07 R126: TAKE and RDF need full, PUT needs empty. -/
def State.permits (s : State) (r : PresReq) : Bool :=
  match r.kind with
  | .put => !s.tag r.addr
  | _ => s.tag r.addr

/-- 07 R126, R124: perform a presence request that is permitted. -/
def State.presPerform (s : State) (r : PresReq) : State :=
  match r.kind with
  | .put => ((s.write 0 r.addr (leBytes 8 r.data.toNat)).setTag r.addr true).answerPres r.who (.val 0)
  | .take =>
    if s.anyPoison r.addr 8 then s.answerPres r.who .poisoned
    else (s.setTag r.addr false).answerPres r.who (.val (w64 (s.readVal 0 r.addr 8)))
  | .rdf =>
    if s.anyPoison r.addr 8 then s.answerPres r.who .poisoned
    else s.answerPres r.who (.val (w64 (s.readVal 0 r.addr 8)))

/-- 07 R126, Serve: perform the head of a word's queue as long as it is permitted. -/
def State.serve (s : State) (w : Nat) : Nat → State
  | 0 => s
  | k + 1 =>
    let b := s.bank (bankOf w)
    match b.deferred.find? fun r => r.addr == w with
    | none => s
    | some r =>
      if !s.permits r then s else
      let s := s.setBank (bankOf w) { b with deferred := b.deferred.erase r }
      (s.presPerform r).serve w k

/-- Serve, for as many requests as the word can hold. -/
def State.serveWord (s : State) (w : Nat) : State := s.serve w ((s.bank (bankOf w)).deferred.length + 1)

/-- 07 R126, PresenceArrive. -/
def State.presArrive (s : State) (r : PresReq) : State :=
  let b := s.bank (bankOf r.addr)
  if s.permits r then (s.presPerform r).serveWord r.addr
  else if b.deferred.length ≥ 512 then
    (s.setBank (bankOf r.addr) { b with ovf := satAdd 16 b.ovf 1 }).answerPres r.who .refused
  else s.setBank (bankOf r.addr) { b with deferred := b.deferred ++ [r] }

/-- Give a bank operation's answer to its core (07 R133). -/
def State.bankReply (s : State) (o : BankOp) (v : W64) (poison : Bool) : State :=
  match o.reg with
  | none => s
  | some r =>
    let c := s.core o.core
    s.setCore o.core { c with replies := c.replies ++ [{ reg := r, val := v, poison := poison, va := o.va }] }

/-- Update one word at its bank: the old value, or none where the word is poisoned (07 R122, R124). -/
def State.amoAt (s : State) (h n : Nat) (f : Nat → Nat) : State × Option Nat :=
  if s.anyPoison h n then (s, none)
  else
    let old := s.readVal 0 h n
    (s.write 0 h (leBytes n (f old)), some old)

/-- An update with an answer, or with none (07 R124). -/
def State.amoReply (s : State) (o : BankOp) (ty : Nat) (f : Nat → Nat) : State :=
  let n := bankBytes ty
  let r := s.amoAt o.addr n f
  match r.2 with
  | some old => r.1.bankReply o (extTy ty (8 * n) old) false
  | none => if o.reg.isSome then r.1.bankReply o 0 true else r.1.bankDrop o.addr

/-- Set the tags of the words of a range, with Serve for each (07 Table 07.3), after BFILL `.empty` too: DEDUCED, unsafe (log 77): 07 R126
runs Serve after BFILL, its entry only for words that became full. -/
def State.tagRange (s : State) (h len : Nat) (b : Bool) : State :=
  (List.range (len / 8)).foldl (fun s i => (s.setTag (h + 8 * i) b).serveWord (h + 8 * i)) s

/-- A bank performs an operation (07 R122). A page of a BFILL is filled, tagged and served in one step: DESIGN CHOICE, unsafe (log 77): the
manual leaves the order of its words open. -/
def State.bankPerform (s : State) (o : BankOp) : State :=
  match o.kind with
  | .amo op ty b => s.amoReply o ty fun old => amoWord op ty old (b.toNat % 2 ^ (8 * bankBytes ty))
  | .amof op ty b => s.amoReply o ty fun old => amoWord op ty old (b.toNat % 2 ^ 32)
  | .cas ty old new =>
    let m := 2 ^ (8 * bankBytes ty)
    s.amoReply o ty fun v => if v == old.toNat % m then new.toNat % m else v
  | .bupd op ty v mask =>
    (List.range 32).foldl (fun s l =>
      if mask.getLsbD l then
        let b := (v.extractLsb' (32 * l) 32).toNat
        let h := o.addr + 4 * l
        let fn := if ty ≤ 7 then (match op with | 0 => 0 | 1 => 4 | _ => 5) else op
        let r := s.amoAt h 4 fun old => amoWord fn ty old b
        if r.2.isNone then r.1.bankDrop h else r.1
      else s) s
  | .bfill len pat tags =>
    let s := (List.range (len / 8)).foldl (fun s i => s.write 0 (o.addr + 8 * i) (leBytes 8 pat.toNat)) s
    if tags == 0 then s else s.tagRange o.addr len (tags == 2)
  | .clrp => (s.setTag o.addr false).serveWord o.addr
  | .stsc ty v => s.write 0 o.addr (leBytes (bankBytes ty) v.toNat)
  | .ldsc ty =>
    if s.anyPoison o.addr (bankBytes ty) then s.answerCore o.core .poisoned
    else s.answerCore o.core (.val (w64 (s.readVal 0 o.addr (bankBytes ty))))

/-- Bytes an operation acts on. -/
def BankOp.span (o : BankOp) : Nat :=
  match o.kind with
  | .amo _ ty _ => bankBytes ty
  | .amof .. => 4
  | .cas ty _ _ => bankBytes ty
  | .bupd .. => 128
  | .bfill len _ _ => len
  | .clrp => 8
  | .stsc ty _ => bankBytes ty
  | .ldsc ty => bankBytes ty

/-- Send an operation to its bank (07 R123): the core's own copies of its lines are written back and dropped first. An
SC operation joins its bank's queue, and the bank joins the ring at the token's next pass (07 R128, R129). -/
def State.sendBank (s : State) (o : BankOp) : State :=
  let s := s.l1DropRange o.core o.addr o.span
  if o.sc then
    let b := s.bank (bankOf o.addr)
    s.setBank (bankOf o.addr) { b with scq := b.scq ++ [o], joining := b.joining || !b.joined }
  else { s with bankOps := s.bankOps ++ [o] }

/-- Core n has an acquiring operation or an SC operation that is not performed yet. -/
def State.acquiring (s : State) (n : Nat) : Bool :=
  s.bankOps.any (fun o => o.core == n && o.acq) || s.banks.any fun b => b.2.scq.any fun o => o.core == n

/-! ## The bank forms (07 R132, R133, Table 07.4) -/

/-- 07 R132: alignment, translation and permission (both read and write for an update), floor memory, and, where it is
asked for, a presence-tagged page. -/
def State.bankAccess (s : State) (va n : Nat) (rd wr pres : Bool) : Except XF Tr :=
  let chk := fun acc => s.coreAccess va n acc
  let t := if rd && wr then (match chk .r with | .error e => .error e | .ok _ => chk .w) else if wr then chk .w else chk .r
  match t with
  | .error e => .error e
  | .ok t =>
    if space t.home != .floor then .error (.fault 0x19 0 (w64 va))
    else if pres && !t.pres then .error (.fault 0x1A 0 (w64 va))
    else .ok t

/-- The release before an operation and the acquire after it, as its ord and scope ask (07 R133, R130); at `.core` they only order
the core's own accesses (17 R258). -/
def withOrder (o : MEM) (l : List Held) : List Held :=
  if o.ord == 3 then [.release false] ++ l ++ [.acquire]
  else if !wider o.scope.toNat then (if o.ord == 2 then .order :: l else if o.ord == 1 then l ++ [.order] else l)
  else if o.ord == 2 then .release (o.scope == 6) :: l
  else if o.ord == 1 then l ++ [.acquire]
  else l

/-- The fence before an SC form, as far as it acts at execute: no later load uses an older copy (07 R130). -/
def State.scFence (s : State) (o : MEM) : State := if o.ord == 3 then s.l1DropAll s.cur else s

/-- An operation of the AMO family: checked at execute, held until commit (07 R133). -/
def bankForm (o : MEM) (s : State) (reply : Bool) (kind : State → BankKind) : Out :=
  checked o.g o.gs s fun s =>
    let va := s.memAddr { o with ix := false }
    match s.bankAccess va.toNat (bankBytes o.ty.toNat) true true false with
    | .error e => .error e
    | .ok t =>
      let op : BankOp := { core := s.cur, reg := if reply then some o.d.toNat else none, addr := t.home, va := va,
                           sc := o.ord == 3, acq := o.ord == 1 && wider o.scope.toNat, kind := kind s }
      .ok ((s.scFence o).holdAll (withOrder o [.bank op]))

/-- AMO. -/
def execAmo (o : MEM) (s : State) : Out := bankForm o s true fun s => .amo o.func.toNat o.ty.toNat (s.x o.b)
/-- AMOF. -/
def execAmof (o : MEM) (s : State) : Out := bankForm o s true fun s => .amof o.func.toNat o.ty.toNat (s.x o.b)
/-- CAS. -/
def execCas (o : MEM) (s : State) : Out := bankForm o s true fun s => .cas o.ty.toNat (s.x o.d) (s.x o.b)
/-- RED. -/
def execRed (o : MEM) (s : State) : Out := bankForm o s false fun s => .amo o.func.toNat o.ty.toNat (s.x o.b)
/-- REDF. -/
def execRedf (o : MEM) (s : State) : Out := bankForm o s false fun s => .amof o.func.toNat o.ty.toNat (s.x o.b)
/-- AMO.SC. -/
def execAmoSc (o : MEM) (s : State) : Out := bankForm o s true fun s => .amo o.func.toNat o.ty.toNat (s.x o.b)
/-- CAS.SC. -/
def execCasSc (o : MEM) (s : State) : Out := bankForm o s true fun s => .cas o.ty.toNat (s.x o.d) (s.x o.b)

/-- BUPD: the active lanes of vb update a line. -/
def execBupd (o : MEM) (s : State) : Out :=
  checked o.g o.gs s fun s =>
    let va := s.memAddr { o with ix := false }
    match s.bankAccess va.toNat 128 true true false with
    | .error e => .error e
    | .ok t =>
      let op : BankOp := { core := s.cur, reg := none, addr := t.home, va := va, sc := false, acq := false,
                           kind := .bupd o.func.toNat o.ty.toNat (s.v o.b) (s.p o.d) }
      .ok (s.holdAll (withOrder o [.bank op]))

/-- The pages of a fill: each the home and the bytes in it, all in one bank. A page that fails R132's checks has its own address as
tval (log 73). -/
def State.fillSpans (s : State) (va len : Nat) (pres : Bool) (bank : Nat) : List Nat → Except XF (List (Nat × Nat))
  | [] => .ok []
  | a :: rest =>
    match s.bankAccess a 8 false true pres with
    | .error e => .error e
    | .ok t =>
      if bankOf t.home != bank then .error (.fault 0x32 0 (w64 va)) else
      match s.fillSpans va len pres bank rest with
      | .error e => .error e
      | .ok l => .ok ((t.home, Nat.min ((a / 4096 + 1) * 4096) (va + len) - a) :: l)

/-- BFILL: every aligned 8-byte word of the range, and with `.empty` or `.full` its tag. R132's checks of the first word stand before
the length, and those of the later pages after it (log 73). -/
def execBfill (o : MEM) (s : State) : Out :=
  checked o.g o.gs s fun s =>
    let va := (s.memAddr { o with ix := false }).toNat
    let len := (s.x o.d).toNat
    let pres := o.func != 0
    match s.bankAccess va 8 false true pres with
    | .error e => .error e
    | .ok t =>
      if len % 8 != 0 || len == 0 || len > 0x100000 then .error (.fault 0x32 0 (w64 va)) else
      match s.fillSpans va len pres (bankOf t.home) (pageStarts va len) with
      | .error e => .error e
      | .ok l =>
        .ok (s.holdAll (withOrder o (l.map fun p =>
          .bank { core := s.cur, reg := none, addr := p.1, va := w64 va, sc := false, acq := false,
                  kind := .bfill p.2 (s.x o.b) o.func.toNat })))

/-- CLRP: the tag of the word empty, then Serve. -/
def execClrp (o : MEM) (s : State) : Out :=
  checked o.g o.gs s fun s =>
    let va := s.memAddr o
    match s.bankAccess va.toNat 8 false true true with
    | .error e => .error e
    | .ok t =>
      .ok (s.holdAll (withOrder o [.bank { core := s.cur, reg := none, addr := t.home, va := va, sc := false, acq := false,
                                           kind := .clrp }]))

/-- STSC (07 R128 to R130). -/
def execStsc (o : MEM) (s : State) : Out :=
  checked o.g o.gs s fun s =>
    let va := s.memAddr o
    match s.bankAccess va.toNat (bankBytes o.ty.toNat) false true false with
    | .error e => .error e
    | .ok t =>
      .ok ((s.scFence o).holdAll (withOrder o [.bank { core := s.cur, reg := none, addr := t.home, va := va, sc := true,
                                                       acq := false, kind := .stsc o.ty.toNat (s.x o.d) }]))

/-- PSTAT: the word's state at its bank, at execute; the core's own copy of the line leaves first (07 R123). -/
def execPstat (o : MEM) (s : State) : Out :=
  checked o.g o.gs s fun s =>
    match s.bankAccess (s.memAddr o).toNat 8 true false true with
    | .error e => .error e
    | .ok t =>
      let s := s.l1DropRange s.cur t.home 8
      let count := ((s.bank (bankOf t.home)).deferred.filter fun r => r.addr == t.home).length
      .ok (s.setX o.d (w64 (count * 4 + b2n (s.anyPoison t.home 8) * 2 + b2n (s.tag t.home))))

/-- LDSC (07 R130, R133): the fences around it write back every dirty line and order the block's held effects; the read waits for
the trade token. -/
def execLdsc (o : MEM) (s : State) : Out :=
  checked o.g o.gs s fun s =>
    let va := s.memAddr o
    match s.bankAccess va.toNat (bankBytes o.ty.toNat) true false false with
    | .error e => .error e
    | .ok t =>
      let s := s.l1DropAll s.cur
      let s := s.sendBank { core := s.cur, reg := none, addr := t.home, va := va, sc := true, acq := false, kind := .ldsc o.ty.toNat }
      .ok ((s.holdAll [.release false, .acquire]).waitOn (.ldsc o.d.toNat o.ty.toNat t.home va) .none)

/-- A presence form: a wait form whose request goes to the bank at issue; a release before it covers the dirty lines of
the core (04 R63, 07 R133). -/
def presForm (o : MEM) (s : State) (kind : PresKind) (wr : Bool) : Out :=
  checked o.g o.gs s fun s =>
    let va := s.memAddr o
    match s.bankAccess va.toNat 8 (!wr) wr true with
    | .error e => .error e
    | .ok t =>
      let s := if o.ord == 2 && wider o.scope.toNat then s.l1WriteBackAll s.cur else s
      let s := s.l1DropRange s.cur t.home 8
      let r : PresReq := { who := .core s.cur, kind := kind, addr := t.home, data := s.x o.d }
      let s := { s with presOps := s.presOps ++ [r] }
      .ok (s.waitOn (.pres kind o.d.toNat t.home va o.ty.toNat (o.ord == 1 && wider o.scope.toNat)) .none)

/-- TAKE. -/
def execTake (o : MEM) (s : State) : Out := presForm o s .take false
/-- PUT. -/
def execPut (o : MEM) (s : State) : Out := presForm o s .put true
/-- RDF. -/
def execRdf (o : MEM) (s : State) : Out := presForm o s .rdf false

/-! ## Answers -/

/-- The answer of a presence form: TAKE and RDF write X[d]; PUT writes nothing (07, TAKE, PUT, RDF; 19 R292). -/
def State.answerPresence (s : State) (kind : PresKind) (d : Nat) (va : W64) (ty : Nat) (acq : Bool) : State :=
  match s.blk.ans with
  | .val v =>
    let s := if acq then s.l1DropAll s.cur else s
    if kind = .put then s.setBlk { s.blk with wait := .none, ans := .none } else s.answerX d (extTy ty 64 v.toNat)
  | .poisoned => s.faultAt s.cur 0x0B 0 va
  | .refused => s.faultAt s.cur 0x31 0 va
  | .cancelled => s.discard s.cur
  | .none => s

/-- The answer of LDSC: bytes that an earlier store of the block wrote come from it (04 R58); then the fence after. -/
def State.answerLdsc (s : State) (d ty addr : Nat) (va : W64) : State :=
  match s.blk.ans with
  | .val v =>
    let n := bankBytes ty
    let bs := (List.range n).map fun i => (heldByte s.blk.held (addr + i)).getD (BitVec.ofNat 8 (v.toNat / 256 ^ i))
    (s.l1DropAll s.cur).answerX d (extTy ty (8 * n) (bytesNat bs))
  | .poisoned => s.faultAt s.cur 0x0B 0 va
  | _ => s

/-! ## Events of the banks -/

/-- BANK_OPERATION: the bank performs the k-th operation on its way, unless an earlier one of the same core acts on bytes
in common (07 R122, R133). -/
def execBankOperation (k : Nat) (s : State) : Out :=
  .next (match s.bankOps[k]? with
    | none => s
    | some o =>
      if (s.bankOps.take k).any fun p => p.core == o.core && p.addr < o.addr + o.span && o.addr < p.addr + p.span then s
      else { s with bankOps := s.bankOps.eraseIdx k }.bankPerform o)

/-- BANK_REPLY: the oldest answer of a core writes X[d], or its poison asks for a trap (07 R133, 19 R292). It lands in the
committed registers, and in the block in progress, which does not name the register. -/
def execBankReply (n : CoreNum) (s : State) : Out :=
  let c := s.core n.toNat
  .next (match c.replies with
    | [] => s
    | r :: rest =>
      if r.poison then s.setCore n.toNat { c with replies := rest, poisonTrap := c.poisonTrap ++ [r.va] }
      else
        let f := BitVec.ofNat 6 r.reg
        s.setCore n.toNat { c with replies := rest, regs := c.regs.setX f r.val,
                                   blk := if c.blk.isOpen then { c.blk with w := c.blk.w.setX f r.val } else c.blk })

/-- PRESENCE_ARRIVE: the k-th presence request on its way reaches its bank (07 R126). -/
def execPresenceArrive (k : Nat) (s : State) : Out :=
  .next (match s.presOps[k]? with
    | none => s
    | some r => { s with presOps := s.presOps.eraseIdx k }.presArrive r)

/-- PRESENCE_CANCEL: the bank removes the deferred request of a core that has sent a cancel, and answers it (07 R127); a
request already performed keeps its answer. -/
def execPresenceCancel (n : CoreNum) (s : State) : Out :=
  let c := s.core n.toNat
  .next (match c.blk.wait with
    | .pres _ _ addr _ _ _ =>
      let b := s.bank (bankOf addr)
      if c.blk.cancel && b.deferred.any (fun r => r.who == .core n.toNat) then
        (s.setBank (bankOf addr) { b with deferred := b.deferred.filter fun r => r.who != .core n.toNat }).answerCore n.toNat .cancelled
      else s
    | _ => s)

/-- The token's visiting order from a bank on (07 R128): joined banks, and banks that join at this pass. -/
def State.nextTrade (s : State) : Option Nat :=
  let ring := (s.banks.filter fun b => b.2.joined || b.2.joining).map (·.1)
  match s.token with
  | none => ring.head?
  | some t => (ring.find? fun b => t < b).or ring.head?

/-- TRADE_TOKEN_ARRIVAL: the token reaches the next bank of the ring, which performs up to 8 of its queued SC operations in
arrival order (07 R128); a bank with none queued and trade = 0 leaves (07 R129). -/
def execTradeTokenArrival (s : State) : Out :=
  .next (match s.nextTrade with
    | none => s
    | some k =>
      let b := s.bank k
      let now := b.scq.take 8
      let s := { s with token := some k }
      let s := s.setBank k { b with joined := b.trade || !b.scq.isEmpty, joining := false, scq := b.scq.drop 8 }
      now.foldl (fun s o => s.bankPerform o) s)

end Sys2Proof.Machine
end

