-- ==== Sys2Proof/Machine/Grid.lean ====
section
/-!
DEFINITION. The fabric's shared operations (08, 09): places of elements, region handles, keys and their births (08 R143), room
and the sending of tokens (09 R154), the matching store (09 R152, R153), element faults (09 R168), and the removal of a
colour's tokens (09 R166).
-/
namespace Sys2Proof.Machine

/-! ## Places (09 R148) -/

/-- Core of an element of the package. -/
def elemCore (e : Nat) : Nat := e / 256 * 4 + e / 16 % 16 / 8 * 2 + e % 16 / 8
/-- Local row and column. -/
def elemRow (e : Nat) : Nat := e / 16 % 8
def elemCol (e : Nat) : Nat := e % 8
/-- Element at a local position of core n. -/
def elemAt (n row col : Nat) : Nat := n / 4 * 256 + (n % 4 / 2 * 8 + row) * 16 + n % 4 % 2 * 8 + col

/-- Class of an element (Table 09.1). -/
def elemClass (e : Nat) : Char :=
  if elemCol e == 0 then 'M'
  else if (elemRow e == 1 || elemRow e == 6) && (elemCol e == 3 || elemCol e == 4) then 'S' else 'A'
/-- Port elements: local columns 0 and 7 (09 R149). -/
def portElem (e : Nat) : Bool := elemCol e == 0 || elemCol e == 7

/-- The element that a link of a source code's direction leads to: 1 N, 2 E, 3 S, 4 W, 7 SELF. -/
def neighbour (e d : Nat) : Option Nat :=
  let row := e / 16 % 16
  let col := e % 16
  match d with
  | 1 => if row == 0 then none else some (e - 16)
  | 2 => if col == 15 then none else some (e + 1)
  | 3 => if row == 15 then none else some (e + 16)
  | 4 => if col == 0 then none else some (e - 1)
  | _ => some e
/-- The source code at which a token sent in a direction enters (09 R151). -/
def opposite (d : Nat) : Nat :=
  match d with | 1 => 3 | 2 => 4 | 3 => 1 | 4 => 2 | _ => 7

/-! ## Region handles (Table 08.4) -/

def hCore (h : Nat) : Nat := h / 64
def hQuad (h : Nat) : Bool := bitAt h 5
def hSlot (h : Nat) : Nat := h / 8 % 4
def mkHandle (core : Nat) (quad : Bool) (slot index : Nat) : Nat := core * 64 + b2n quad * 32 + slot * 8 + index
/-- The grid of a handle: what the loader's queues are keyed by. -/
def hGrid (h : Nat) : Nat := h / 32
/-- The element at a row and column of a handle's grid. -/
def gridElem (h row col : Nat) : Option Nat :=
  if hQuad h then if row < 16 && col < 16 then some (hCore h / 4 * 256 + row * 16 + col) else none
  else if row < 8 && col < 8 then some (elemAt (hCore h) row col) else none
/-- Row and column of an element in a handle's grid. -/
def gridPos (h e : Nat) : Nat × Nat := if hQuad h then (e / 16 % 16, e % 16) else (elemRow e, elemCol e)

/-! ## Accessors -/

def State.elem (s : State) (e : Nat) : Elem := Sp.get Elem.reset s.elems e
def State.setElem (s : State) (e : Nat) (x : Elem) : State := { s with elems := Sp.set Elem.reset s.elems e x }
def Elem.slot (x : Elem) (sl : Nat) : ElemSlot := Sp.get ElemSlot.reset x.slots sl
def Elem.setSlot (x : Elem) (sl : Nat) (v : ElemSlot) : Elem := { x with slots := Sp.set ElemSlot.reset x.slots sl v }
def State.slot (s : State) (e sl : Nat) : ElemSlot := (s.elem e).slot sl
def State.setSlot (s : State) (e sl : Nat) (v : ElemSlot) : State := s.setElem e ((s.elem e).setSlot sl v)
def State.region (s : State) (h : Nat) : Region := Sp.get Region.reset s.regions h
def State.setRegion (s : State) (h : Nat) (r : Region) : State := { s with regions := Sp.set Region.reset s.regions h r }
def Region.colour (r : Region) (c : Nat) : RColour := Sp.get RColour.reset r.colours c
def Region.setColour (r : Region) (c : Nat) (v : RColour) : Region := { r with colours := Sp.put r.colours c v }
/-- Q(c) (08 R143); 0 where the region gives the colour no quota. -/
def Region.quota (r : Region) (c : Nat) : Nat := (r.colour c).quota
/-- Live keys of a colour. -/
def Region.live (r : Region) (c : Nat) : Nat := (r.keys.filter fun k => k.1.colour.toNat == c).length
def Region.isLive (r : Region) (k : Key) : Bool := r.keys.any fun x => x.1 == k

/-- The slot is configured. -/
def ElemSlot.on (v : ElemSlot) : Bool := v.op != 0
/-- The input taken from a source code. -/
def ElemSlot.input (v : ElemSlot) (src : Nat) : Option Nat :=
  (List.range 4).find? fun i => src != 0 && (v.cfg.q i).toNat == src
/-- Input i is the held input (09 R156). -/
def ElemSlot.held (v : ElemSlot) (i : Nat) : Bool := i > 0 && v.cfg.tagp.toNat == i
/-- A token with every field zero. -/
def blankTok : Token :=
  { value := 0, colour := 0, context := 0, iter := 0, fmt := 0, slot := 0, eor := false, eos := false, poison := false,
    bubble := false, gen := 0 }
/-- The tag of a token without its slot. -/
def tagOf (t : Token) : Key := { colour := t.colour, context := t.context, iter := some t.iter }
def heldKey (k : Key) : Key := { k with iter := none }
def ElemSlot.entry? (v : ElemSlot) (k : Key) : Option Entry := v.entries.find? fun e => e.key == k
/-- Tokens an entry holds at an input. -/
def Entry.at (e : Entry) (i : Nat) : List Arrived := e.toks.getD i []

/-! ## Ports (09 R149) -/

/-- A port of a core in a slot. -/
def portKey (n port slot : Nat) : Nat := (n * 16 + port) * 4 + slot
def sideKey (n port slot colour : Nat) : Nat := portKey n port slot * 256 + colour
def expectKey (n port slot colour ctx : Nat) : Nat := sideKey n port slot colour * 1024 + ctx

/-- A configuration uses the entry side, or the exit side, of the port it selects. -/
def usesEntry (c : ElemCfg) : Bool := (List.range 4).any fun i => c.q i == 5
def usesExit (c : ElemCfg) : Bool := c.out0.getLsbD 4 || c.out1.getLsbD 4
/-- Port elements of core n. -/
def portElems (n : Nat) : List Nat := (List.range 8).flatMap fun r => [elemAt n r 0, elemAt n r 7]
/-- The element that uses a side of a port in a slot. -/
def State.sideUser (s : State) (n port sl : Nat) (entry : Bool) : Option Nat :=
  (portElems n).find? fun e =>
    let v := s.slot e sl
    v.on && v.cfg.port.toNat == port && (if entry then usesEntry v.cfg else usesExit v.cfg)
/-- A region that is LOADING uses the entry side (10 R388). -/
def State.loadingSide (s : State) (n port sl : Nat) (entry : Bool) : Bool :=
  s.regions.any fun r => r.2.st == .loading && hSlot r.1 == sl && r.2.elems.any fun i =>
    elemCore i.elem == n && i.cfg.port.toNat == port && (if entry then usesEntry i.cfg else usesExit i.cfg)
/-- The region of the element that uses a side. -/
def State.sideRegion (s : State) (n port sl : Nat) (entry : Bool) : Option Nat :=
  (s.sideUser n port sl entry).map fun e => (s.slot e sl).region

/-! ## Movement, keys and counts -/

/-- A token of the colour moved in the region: its doldrums counter is 0 (09 R164). -/
def State.moved (s : State) (h : Nat) (c : Nat) : State :=
  let r := s.region h
  if (r.colour c).quota == 0 then s else s.setRegion h (r.setColour c { r.colour c with stall := 0 })

/-- Tokens of a colour discarded in a region (08 R136, R145, Table 08.5). -/
def State.addPurged (s : State) (h c n : Nat) : State :=
  let r := s.region h
  s.setRegion h (r.setColour c { r.colour c with purged := satAdd 24 (r.colour c).purged n })
def State.addStale (s : State) (h n : Nat) : State :=
  s.setRegion h { s.region h with stale := satAdd 20 (s.region h).stale n }
def State.addSupp (s : State) (h n : Nat) : State :=
  s.setRegion h { s.region h with supp := satAdd 24 (s.region h).supp n }

/-- A key may be born, or is live (08 R143). -/
def State.mayBear (s : State) (h : Nat) (k : Key) : Bool :=
  let r := s.region h
  r.isLive k || r.live k.colour.toNat < r.quota k.colour.toNat
/-- One firing may bear its own key and, where `held`, the HELD key of its colour and context: both within the quota (08
R143). -/
def State.mayBearWith (s : State) (h : Nat) (k : Key) (held : Bool) : Bool :=
  let r := s.region h
  let n := b2n (!r.isLive k) + b2n (held && !r.isLive (heldKey k))
  n == 0 || r.live k.colour.toNat + n ≤ r.quota k.colour.toNat
/-- The birth of a key that may be born. -/
def State.bear (s : State) (h : Nat) (k : Key) : State :=
  let r := s.region h
  if r.isLive k then s else (s.setRegion h { r with keys := r.keys ++ [(k, 0)] }).moved h k.colour.toNat

/-! ## Room (09 R154) -/

/-- Directions of a destination mask other than PORT (Table 02.13). -/
def maskDirs (m : BitVec 6) : List Nat :=
  (if m.getLsbD 0 then [1] else []) ++ (if m.getLsbD 1 then [2] else []) ++ (if m.getLsbD 2 then [3] else []) ++
    (if m.getLsbD 3 then [4] else []) ++ (if m.getLsbD 5 then [7] else [])

/-- How often the outputs of a configuration name a destination. -/
def sends (c : ElemCfg) (hit : BitVec 6 → Bool) : Nat := b2n (hit c.out0) + b2n (hit c.out1)

/-- Results of a slot's memory requests that are still to leave: their firing took the room they will need (09 R154). -/
def Elem.waiting (x : Elem) (sl : Nat) (hit : Key → Bool) : Nat :=
  (x.reqs.filter fun r => r.slot == sl && !r.dead && !r.lost && hit (tagOf (r.toks.headD blankTok))).length

/-- Grants at input i of element e that such results hold: those of the element its source names. -/
def State.promised (s : State) (e sl i : Nat) (hit : Key → Bool) : Nat :=
  let src := ((s.slot e sl).cfg.q i).toNat
  if ([1, 2, 3, 4, 7] : List Nat).contains src = false then 0 else
  match neighbour e src with
  | none => 0
  | some m =>
    let x := s.elem m
    sends (x.slot sl).cfg (fun k => (maskDirs k).contains (opposite src)) * x.waiting sl hit

/-- Places of a queue that grants hold: tokens on link registers, and results still to come. -/
def State.grants (s : State) (e i : Nat) : Nat :=
  let x := s.elem e
  (x.links.filter fun l => (x.slot l.2.slot.toNat).input l.1 == some i).length +
    (List.range 4).foldl (fun a sl => a + s.promised e sl i fun _ => true) 0
/-- Tokens of a key at an input: in the entry, in the queue, on the link register toward it, and those granted. -/
def State.keyCount (s : State) (e sl i : Nat) (k : Key) : Nat :=
  let x := s.elem e
  let v := x.slot sl
  ((v.entry? k).map fun e => (e.at i).length).getD 0 +
    ((x.queues.getD i []).filter fun t => tagOf t == k && t.slot.toNat == sl).length +
    (x.links.filter fun l => tagOf l.2 == k && l.2.slot.toNat == sl && v.input l.1 == some i).length +
    s.promised e sl i fun q => q == k

/-- Room at an input for a token of a key. -/
def State.roomIn (s : State) (e sl i : Nat) (k : Key) : Bool :=
  let x := s.elem e
  let v := x.slot sl
  (x.queues.getD i []).length + s.grants e i < 4 &&
    (if v.held i then s.mayBear v.region (heldKey k) else s.keyCount e sl i k < 4)

/-- Room on the link of a direction out of element e. -/
def State.roomLink (s : State) (e sl d : Nat) (k : Key) : Bool :=
  match neighbour e d with
  | none => true
  | some m =>
    let src := opposite d
    (Sp.find? (s.elem m).links src).isNone &&
      (match (s.slot m sl).input src with | some i => s.roomIn m sl i k | none => true)

/-- Room in the exit side's buffer for a colour (09 R149, R170). -/
def State.roomExit (s : State) (e sl : Nat) (colour : Nat) : Bool :=
  let c := (s.slot e sl).cfg
  (Sp.get [] s.exitq (sideKey (elemCore e) c.port.toNat sl colour)).length +
    sends c (·.getLsbD 4) * (s.elem e).waiting sl (fun k => k.colour.toNat == colour) < (if c.ordx then 16 else 4)

/-- Every destination of a mask has room for a key. -/
def State.room (s : State) (e sl : Nat) (m : BitVec 6) (k : Key) : Bool :=
  ((maskDirs m).all fun d => s.roomLink e sl d k) && (!m.getLsbD 4 || s.roomExit e sl k.colour.toNat)

/-- Some destination of a mask is a held input. -/
def State.toHeld (s : State) (e sl : Nat) (m : BitVec 6) : Bool :=
  (maskDirs m).any fun d => match neighbour e d with
    | some n => let v := s.slot n sl; (v.input (opposite d)).any fun i => v.held i
    | none => false

/-- Room for a token whose key is born as it leaves. -/
def State.roomBorn (s : State) (e sl : Nat) (m : BitVec 6) (k : Key) : Bool :=
  s.mayBearWith (s.slot e sl).region k (s.toHeld e sl m) && s.room e sl m k

/-- A token leaves an element by a mask, with the slot and generation of the sender (08 R135, 09 R151); a key of a held input
is born at the grant (08 R143). -/
def State.send (s : State) (e sl : Nat) (m : BitVec 6) (t : Token) : State :=
  let v := s.slot e sl
  let t := { t with slot := BitVec.ofNat 2 sl, gen := v.gen }
  let s := (maskDirs m).foldl (fun s d =>
    match neighbour e d with
    | none => s
    | some k =>
      let src := opposite d
      let x := s.elem k
      let s := s.setElem k { x with links := Sp.put x.links src t }
      match (x.slot sl).input src with
      | some i =>
        if (x.slot sl).held i && (x.slot sl).gen == v.gen then s.bear (x.slot sl).region (heldKey (tagOf t)) else s
      | none => s) s
  let s := if m.getLsbD 4 then
    let k := sideKey (elemCore e) v.cfg.port.toNat sl t.colour.toNat
    { s with exitq := Sp.put s.exitq k (Sp.get [] s.exitq k ++ [t]) } else s
  s.moved v.region t.colour.toNat

/-! ## The matching store (09 R152 to R154) -/

/-- An operand set of an entry is ready, as every operation but MERGE and SPADD matches it. -/
def ElemSlot.matched (v : ElemSlot) (e : Entry) : Bool :=
  e.key.iter.isSome && (List.range v.cfg.nin.toNat).all fun i =>
    v.cfg.cinBit i || !(e.at i).isEmpty ||
      (v.held i && match v.entry? (heldKey e.key) with | some h => !(h.at i).isEmpty | none => false)

/-- SPADD fires a logit when the head pair is present or the list has ended; it drops the rest of a list by itself (22
R311). -/
def Entry.spaddReady (e : Entry) : Bool :=
  match e.row with
  | .spDrain => !(e.at 1).isEmpty
  | .spadd _ _ ended bad => !(e.at 0).isEmpty && (ended || bad || (e.at 1).length ≥ 2)
  | _ => !(e.at 0).isEmpty && ((e.at 1).length ≥ 2 || (e.at 1).any fun a => a.tok.bubble && a.tok.eor)

/-- A set of the entry is ready. MERGE never matches its inputs; COMMIT retires by itself (22 R306). -/
def ElemSlot.ready (v : ElemSlot) (e : Entry) : Bool :=
  match v.op.toNat with
  | 0x04 => !(e.at 0).isEmpty || !(e.at 1).isEmpty
  | 0x40 => false
  | 0x42 => e.spaddReady
  | _ => v.matched e

/-- The arrival of the older head of a MERGE's inputs. -/
def Entry.headStamp (e : Entry) : Option Nat :=
  match (e.at 0).head?, (e.at 1).head? with
  | some a, some b => some (Nat.min a.stamp b.stamp)
  | some a, none => some a.stamp
  | none, b => b.map (·.stamp)

/-- Stamp the sets that have become ready, and drop entries that hold nothing. A MERGE takes its tokens, of whatever key, in the
order in which they reached its queue heads (09 R169). -/
def ElemSlot.restamp (v : ElemSlot) (now : Nat) : ElemSlot :=
  let live := v.entries.filter fun e => e.toks.any (fun l => !l.isEmpty) || e.row != .none
  { v with entries := live.map fun e =>
      { e with ready := if v.op == 0x04 then e.headStamp
                        else if v.ready e then (match e.ready with | some n => some n | none => some now) else none } }

/-- Change the entry of a key, made where there is none. -/
def ElemSlot.updEntry (v : ElemSlot) (k : Key) (f : Entry → Entry) : ElemSlot :=
  if (v.entry? k).isSome then { v with entries := v.entries.map fun e => if e.key == k then f e else e }
  else { v with entries := v.entries ++ [f { key := k, toks := [[], [], [], []], ready := none, row := .none }] }

/-- The store accepts a token at an input (09 R153, R156). -/
def ElemSlot.accept (v : ElemSlot) (i : Nat) (t : Token) (now : Nat) : ElemSlot :=
  let a : Arrived := { tok := t, stamp := now }
  let v := if v.held i then v.updEntry (heldKey (tagOf t)) fun e => { e with toks := e.toks.set i [a] }
    else v.updEntry (tagOf t) fun e => { e with toks := e.toks.set i (e.at i ++ [a]) }
  v.restamp now

/-- eos tokens of a one-shot region's section count at the input that accepts them (09 R160). -/
def State.countEosIn (s : State) (v : ElemSlot) (i : Nat) (t : Token) : ElemSlot :=
  match (s.region v.region).inSect with
  | some (c, x, _) =>
    if t.eos && t.colour.toNat == c && t.context.toNat == x then { v with eosIn := v.eosIn.set i (v.eosIn.getD i 0 + 1) } else v
  | none => v

/-- The head of queue i enters the matching store. -/
def State.acceptHead (s : State) (e i : Nat) : State :=
  let x := s.elem e
  match x.queues.getD i [] with
  | [] => s
  | t :: rest =>
    let v := x.slot t.slot.toNat
    let s := { s with stamp := s.stamp + 1 }
    let x := { x with queues := x.queues.set i rest }
    if !v.on then s.setElem e x
    else ((s.setElem e (x.setSlot t.slot.toNat ((s.countEosIn v i t).accept i t s.stamp))).moved v.region t.colour.toNat)

/-- Each cycle every queue offers its head (09 R152). -/
def State.acceptAll (s : State) (e : Nat) : State := (List.range 4).foldl (fun s i => s.acceptHead e i) s

/-- The operand tokens of a ready set, input 0 first: the oldest token, the constant with every flag clear, or the kept
token (09 R154 to R156). -/
def ElemSlot.operands (v : ElemSlot) (e : Entry) : List Token :=
  (List.range v.cfg.nin.toNat).map fun i =>
    if v.cfg.cinBit i then
      { value := v.cfg.const, colour := e.key.colour, context := e.key.context, iter := e.key.iter.getD 0, fmt := v.cfg.fmt,
        slot := 0, eor := false, eos := false, poison := false, bubble := false, gen := v.gen }
    else
      let own := if v.held i then ((v.entry? (heldKey e.key)).map fun h => h.at i).getD [] else e.at i
      match own with
      | a :: _ => a.tok
      | [] => { value := 0, colour := e.key.colour, context := e.key.context, iter := e.key.iter.getD 0, fmt := v.cfg.fmt,
                slot := 0, eor := false, eos := false, poison := false, bubble := false, gen := v.gen }

/-- Input i of a firing is a queue operand: neither a constant nor the kept token (09 R155). -/
def ElemSlot.queued (v : ElemSlot) (i : Nat) : Bool := !v.cfg.cinBit i && !v.held i

/-- The queue operands among the operands. -/
def ElemSlot.queueOps (v : ElemSlot) (ops : List Token) : List Token :=
  ((List.range ops.length).filter fun i => v.queued i).filterMap fun i => ops[i]?

/-- A firing takes the oldest token of each queue operand, releases the kept token after an eos, and frees what is empty (09
R154, R156). -/
def State.consume (s : State) (e sl : Nat) (k : Key) : State :=
  let v := s.slot e sl
  match v.entry? k with
  | none => s
  | some ent =>
    let eos := (v.queueOps (v.operands ent)).any (·.eos)
    let s := { s with stamp := s.stamp + 1 }
    let v := v.updEntry k fun x =>
      { x with ready := none, toks := (List.range 4).map fun i => if i < v.cfg.nin.toNat && v.queued i then (x.at i).drop 1 else x.at i }
    let v := if eos && v.cfg.tagp != 0 then { v with entries := v.entries.filter fun x => x.key != heldKey k } else v
    (s.setSlot e sl (v.restamp s.stamp)).moved v.region k.colour.toNat

/-- A firing that takes the oldest token of one input only (MERGE, SPADD). -/
def State.consumeAt (s : State) (e sl : Nat) (k : Key) (i n : Nat) : State :=
  let v := s.slot e sl
  let s := { s with stamp := s.stamp + 1 }
  let v := v.updEntry k fun x => { x with ready := none, toks := x.toks.set i ((x.at i).drop n) }
  (s.setSlot e sl (v.restamp s.stamp)).moved v.region k.colour.toNat

/-- Set the row state of a tag. -/
def State.setRow (s : State) (e sl : Nat) (k : Key) (r : RowState) : State :=
  let v := s.slot e sl
  s.setSlot e sl ((v.updEntry k fun x => { x with row := r }).restamp s.stamp)
def ElemSlot.rowOf (v : ElemSlot) (k : Key) : RowState := ((v.entry? k).map (·.row)).getD .none

/-! ## Element faults (09 R168, 19 Table 19.6) -/

def opnds (l : List Token) (i : Nat) : Nat := match l[i]? with | some t => t.value.toNat | none => 0
def tokenFlags (t : Token) : Nat := b2n t.eor * 8 + b2n t.eos * 4 + b2n t.poison * 2 + b2n t.bubble

/-- The record of an element fault, and the fault hold it keeps. -/
def State.elemFault (s : State) (e sl code : Nat) (ops : List Token) (hold : Bool) (addr : W64) (lvl detail : Nat) : State :=
  let v := s.slot e sl
  let t := ops.headD blankTok
  let pos := gridPos v.region e
  let s := s.recordAt (elemCore e)
    { code := code, kind := 0, lvl := lvl, hold := hold, colour := t.colour.toNat, ctx := t.context.toNat, iter := t.iter.toNat,
      core := elemCore e, slot := sl, row := pos.1, col := pos.2, op := v.op.toNat, handle := v.region, addr := addr,
      opnd0 := w64 (opnds ops 1 * 2 ^ 32 + opnds ops 0), opnd1 := w64 (opnds ops 3 * 2 ^ 32 + opnds ops 2), detail := w64 detail,
      flags := w64 ((List.range 4).foldl (fun a i => a + (match ops[i]? with | some t => tokenFlags t | none => 0) * 16 ^ i) 0) }
  if hold then
    let v := s.slot e sl
    s.setSlot e sl { v with holds := v.holds ++ [tagOf t] }
  else s

/-- The fault code and level of an access that did not complete; a remote access does not come here. -/
def XF.code : XF → Nat × Nat
  | .fault c l _ => (c, l)
  | .remote .. => (0x18, 0)
  | .walk => (0x18, 0)

/-- Translation and checks of a 4-byte or wider access by an element of core n, at U, through the token's colour; the local
pad window reaches the core's own pad (09 R177, 18 R268). -/
def State.elemAccess (s : State) (e : Nat) (c va size : Nat) (acc : Acc) : Except XF Tr :=
  s.access (elemCore e) c va size false false acc

/-! ## Tokens of a colour in a region (09 R163, R166) -/

/-- The elements of a region, as they stand in its slot. -/
def State.regionElems (s : State) (h : Nat) : List Nat :=
  ((s.region h).elems.map (·.elem)).filter fun e => let v := s.slot e (hSlot h); v.on && v.region == h

/-- Port sides of a region: core and port, for the entry or the exit side. -/
def State.regionPorts (s : State) (h : Nat) (entry : Bool) : List (Nat × Nat) :=
  (s.regionElems h).filterMap fun e =>
    let c := (s.slot e (hSlot h)).cfg
    if (if entry then usesEntry c else usesExit c) then some (elemCore e, c.port.toNat) else none

/-- The keys of a token on its way to input i: a held input's token also stands for its HELD key (08 R143). -/
def ElemSlot.keysAt (v : ElemSlot) (i : Option Nat) (t : Token) : List Key :=
  if i.any v.held then [tagOf t, heldKey (tagOf t)] else [tagOf t]

/-- Keys of tokens, entries, holds, pending results and requests of an element's slot, with the HELD keys of kept tokens. -/
def Elem.keysOf (x : Elem) (sl h : Nat) : List Key :=
  let v := x.slot sl
  ((List.range x.queues.length).flatMap fun i =>
      ((x.queues.getD i []).filter fun t => t.slot.toNat == sl).flatMap (v.keysAt (some i))) ++
    ((x.links.filter fun l => l.2.slot.toNat == sl && l.2.gen == v.gen).flatMap fun l => v.keysAt (v.input l.1) l.2) ++
    v.entries.map (·.key) ++ v.holds ++ v.pend.map (fun p => tagOf p.tok) ++ v.loops.map (fun l => tagOf l.count) ++
    v.groups.map (fun g => tagOf g.2.first) ++
    ((x.reqs.filter fun r => r.slot == sl && r.region == h && !r.lost).flatMap fun r => (r.toks.take 1).map tagOf)

/-- HELD keys that the results of an element's requests bear at the inputs they go to. -/
def State.heldOwed (s : State) (e sl : Nat) : List Key :=
  let c := (s.slot e sl).cfg
  if s.toHeld e sl (c.out0 ||| c.out1) then
    ((s.elem e).reqs.filter fun r => r.slot == sl && !r.dead && !r.lost).map fun r => heldKey (tagOf (r.toks.headD blankTok))
  else []

/-- Every key present in a region (09 R163): in its elements, entry queues and exit buffers. -/
def State.keysIn (s : State) (h : Nat) : List Key :=
  let sl := hSlot h
  ((s.regionElems h).flatMap fun e => (s.elem e).keysOf sl h ++ s.heldOwed e sl) ++
    ((s.regionPorts h true).flatMap fun p =>
      (s.entryq.filter fun q => q.1 / 256 == portKey p.1 p.2 sl).flatMap fun q => q.2.map fun t => tagOf t.1) ++
    ((s.regionPorts h false).flatMap fun p =>
      (s.exitq.filter fun q => q.1 / 256 == portKey p.1 p.2 sl).flatMap fun q => q.2.map tagOf)

/-- The region holds something of a colour. -/
def State.holdsColour (s : State) (h c : Nat) : Bool := (s.keysIn h).any fun k => k.colour.toNat == c
/-- A request of the colour is outstanding. -/
def State.requesting (s : State) (h c : Nat) : Bool :=
  (s.regionElems h).any fun e => (s.elem e).reqs.any fun r =>
    r.region == h && !r.lost && (r.toks.headD blankTok).colour.toNat == c

/-- Tokens that the row state of a tag holds. -/
def RowState.count : RowState → Nat
  | .vane toks _ _ _ => toks.length
  | _ => 0

/-- Remove tokens that `hit` names from an element's slot, with what the operation keeps for their colours: the element and
the number of tokens removed. -/
def Elem.discard (x : Elem) (sl h : Nat) (hit : BitVec 8 → Bool) : Elem × Nat :=
  let v := x.slot sl
  let gone := fun (t : Token) => t.slot.toNat == sl && hit t.colour
  let n := (x.queues.foldl (fun a q => a + (q.filter gone).length) 0) +
    (x.links.filter fun l => gone l.2 && l.2.gen == v.gen).length +
    (v.entries.foldl (fun a e => if hit e.key.colour then e.toks.foldl (fun a l => a + l.length) (a + e.row.count) else a) 0) +
    (v.pend.filter fun p => hit p.tok.colour).length
  let v' : ElemSlot :=
    { v with entries := v.entries.filter (fun e => !hit e.key.colour), pend := v.pend.filter (fun p => !hit p.tok.colour),
             loops := v.loops.filter (fun l => !hit l.count.colour), loopTags := v.loopTags.filter (fun l => !hit l.colour),
             groups := v.groups.filter (fun g => !hit (BitVec.ofNat 8 g.1)), holds := v.holds.filter (fun k => !hit k.colour),
             counts := v.counts.filter fun c => !(c.1 < 1024 && hit (BitVec.ofNat 8 (c.1 / 4))) }
  let reqs := x.reqs.map fun r =>
    if r.slot == sl && r.region == h && r.toks.any (fun t => hit t.colour) then { r with dead := true } else r
  ({ (x.setSlot sl v') with queues := x.queues.map (fun q => q.filter fun t => !gone t),
                            links := x.links.filter fun l => !(gone l.2 && l.2.gen == v.gen), reqs := reqs }, n)

/-- Remove the tokens of the colours that `hit` names from a region: elements, entry queues and exit buffers. The number of
tokens removed. -/
def State.discardIn (s : State) (h : Nat) (hit : BitVec 8 → Bool) : State × Nat :=
  let sl := hSlot h
  let entry := (s.regionPorts h true).map fun p => portKey p.1 p.2 sl
  let exit := (s.regionPorts h false).map fun p => portKey p.1 p.2 sl
  let r := (s.regionElems h).foldl (fun (r : State × Nat) e =>
    let d := (r.1.elem e).discard sl h hit
    (r.1.setElem e d.1, r.2 + d.2)) (s, 0)
  let inSide := fun (l : List Nat) (k : Nat) => l.contains (k / 256) && hit (BitVec.ofNat 8 k)
  let n := (r.1.entryq.foldl (fun a q => if inSide entry q.1 then a + q.2.length else a) 0) +
    (r.1.exitq.foldl (fun a q => if inSide exit q.1 then a + q.2.length else a) 0)
  ({ r.1 with entryq := r.1.entryq.filter (fun q => !inSide entry q.1),
              exitq := r.1.exitq.filter (fun q => !inSide exit q.1),
              expect := r.1.expect.filter fun q => !inSide exit (q.1 / 1024) }, r.2 + n)

end Sys2Proof.Machine
end

