-- ==== Sys2Proof/Machine/System.lean ====
section
/-!
DEFINITION. System registers (19 R277, R281), MFC (08 R147), capability words (28 R387), and the translation forms TLBI and
TLBW (18 R276).
-/
namespace Sys2Proof.Machine

/-! ## Capability words -/

/-- A word with bit i as `f i` says. -/
def bits64 (n : Nat) (f : Nat → Bool) : Nat := (List.range n).foldl (fun a i => a + (if f i then 2 ^ i else 0)) 0
def countOf (n : Nat) (f : Nat → Bool) : Nat := (List.range n).foldl (fun a i => a + b2n (f i)) 0

/-- Capability word k (28 Tables 28.2, 28.3). -/
def State.capWord (s : State) (k : Nat) : W64 :=
  if k == 0 then
    w64 (0x0B4A * 2 ^ 48 + 0xA2 * 2 ^ 40 + countOf 1024 s.corePresent * 2 ^ 16 + countOf 128 s.chanPresent * 2 ^ 8 +
      countOf 16 s.portPresent * 8 + countOf 6 s.bridgePresent)
  else if k ≤ 16 then w64 (bits64 64 fun i => s.corePresent (64 * (k - 1) + i))
  else if k ≤ 18 then w64 (bits64 64 fun i => s.chanPresent (64 * (k - 17) + i))
  else if k == 19 then
    w64 (b2n (s.retired.length == 4096) * 2 ^ 45 + s.retired.length * 2 ^ 32 + bits64 6 s.bridgePresent * 2 ^ 16 +
      bits64 16 s.portPresent)
  else 0

/-! ## MFS, MTS, MFC -/

/-- tpend as the earlier instructions of the block left it: the pending bits without those the block clears. -/
def State.tpendSeen (s : State) : BitVec 4 :=
  s.blk.held.foldl (fun t h => match h with | .wbits m => t &&& ~~~m | _ => t) s.me.tpend

/-- A system register as MFS reads it (19 Table 19.1). -/
def State.sysReg (s : State) (r sel : Nat) : W64 :=
  match r with
  | 0x000 => s.w.tcause
  | 0x001 => s.w.tval
  | 0x002 => s.w.tblock
  | 0x003 => s.w.tstat.setWidth 64
  | 0x004 => s.w.tvec
  | 0x005 => s.w.tscr
  | 0x006 => s.tpendSeen.setWidth 64
  | 0x007 => s.w.tmask.setWidth 64
  | 0x010 => s.w.colour.setWidth 64
  | 0x011 => w64 (s.partid s.cur)
  | 0x012 => s.me.owner.setWidth 64
  | 0x013 => s.now
  | 0x014 => s.capWord sel
  | 0x015 => w64 s.cur
  | 0x016 => w64 (b2n s.me.lvlS)
  | _ => 0

/-- MFS (19). -/
def execMfs (o : SYS) (s : State) : Out :=
  plain o.g o.gs s fun s => s.setX o.d (s.sysReg o.sreg.toNat o.imm.toNat)

/-- MTS (19 R281): a nonzero reserved field, an unaligned or too large tvec, an unbound colour or a post to another owner's
core raises "system register value". Writes are held until commit. -/
def execMts (o : SYS) (s : State) : Out :=
  checked o.g o.gs s fun s =>
    let v := s.x o.a
    let n := v.toNat
    let bad : Except XF State := .error (.fault 0x42 0 v)
    let r := s.w
    match o.sreg.toNat with
    | 0x000 => if fld n 63 16 != 0 || fld n 11 8 != 0 then bad else .ok (s.setW { r with tcause := v })
    | 0x001 => .ok (s.setW { r with tval := v })
    | 0x002 => .ok (s.setW { r with tblock := v })
    | 0x003 => if n ≥ 64 then bad else .ok (s.setW { r with tstat := BitVec.ofNat 6 n })
    | 0x004 => if fld n 63 57 != 0 || fld n 2 0 != 0 then bad else .ok (s.setW { r with tvec := v })
    | 0x005 => .ok (s.setW { r with tscr := v })
    | 0x006 => if n ≥ 16 then bad else .ok (s.hold (.wbits (BitVec.ofNat 4 n)))
    | 0x007 => if n ≥ 16 then bad else .ok (s.setW { r with tmask := BitVec.ofNat 4 n })
    | 0x008 =>
      if fld n 63 26 != 0 || fld n 15 4 != 0 || !s.sameOwner s.cur (fld n 25 16) then bad
      else .ok (s.hold (.post (fld n 25 16) (BitVec.ofNat 4 n)))
    | 0x010 =>
      if n ≥ 256 || !s.bound (s.partid s.cur) n then bad else .ok (s.setW { r with colour := BitVec.ofNat 8 n })
    | _ => .ok s

/-- MFC (08 R147). -/
def execMfc (o : RRR) (s : State) : Out :=
  plain o.g o.gs s fun s =>
    match o.func.toNat with
    | 0 => s.setX o.d (s.w.colour.setWidth 64)
    | 1 => s.setX o.d (s.me.owner.setWidth 64)
    | _ =>
      let k := (s.x o.a).toNat % 256
      let e := s.colour k
      s.setX o.d (if e.valid && e.part.toNat == s.partid s.cur then w64 (2 ^ 63 + e.vf.toNat * 256 + k) else 0)

/-! ## TLBI and TLBW (18 R276) -/

/-- TLBI: operands checked at execute, the command held until commit. -/
def execTlbi (o : SYS) (s : State) : Out :=
  checked o.g o.gs s fun s =>
    let a := s.x o.a
    let n := a.toNat
    let flag := s.x o.b
    let p := s.partid s.cur
    let cmd : Except XF TlbiCmd :=
      match o.func.toNat with
      | 0 => .ok { kind := 0, colour := none, base := 0, len := 0, flag := flag }
      | 1 =>
        if n ≥ 256 || !s.bound p n then .error (.fault 0x41 0 a)
        else .ok { kind := 1, colour := some (BitVec.ofNat 8 n), base := 0, len := 0, flag := flag }
      | _ =>
        let len := (s.x o.d).toNat
        let every := a.getLsbD 8
        if fld n 63 57 != 0 || fld n 11 9 != 0 || (!every && !s.bound p (n % 256)) then .error (.fault 0x41 0 a)
        else if len == 0 || len % 4096 != 0 || len > 2 ^ 57 then .error (.fault 0x41 0 (s.x o.d))
        else .ok { kind := 2, colour := if every then none else some (BitVec.ofNat 8 n), base := fld n 56 12 * 4096,
                   len := len, flag := flag }
    match cmd with
    | .error e => .error e
    | .ok c =>
      match s.flagCheck s.cur flag with
      | .error e => .error e
      | .ok _ => .ok (s.hold (.tlbi c))

/-- A command names a colour's pages that overlap [base, base + size). -/
def TlbiCmd.matches (c : TlbiCmd) (colour : BitVec 8) (base size : Nat) : Bool :=
  (match c.colour with | none => true | some k => k == colour) &&
    (c.kind != 2 || (base < c.base + c.len && c.base < base + size))

/-- A command covers some address of [va, va + len), of whatever colour. -/
def TlbiCmd.inRange (c : TlbiCmd) (va len : Nat) : Bool :=
  c.kind != 2 || (va < c.base + c.len && c.base < va + len)

/-- A command covers some of the pages that another unit's command holds. -/
def TlbiCmd.usesPages (c : TlbiCmd) (l : List Page) : Bool := l.any fun q => c.inRange (q.vpage * 4096) 4096

/-- The pages that a command of the island or of the vane unit holds. -/
def IslandCmd.pages : IslandCmd → List Page
  | .save _ l _ => l
  | .rest _ l => l
  | .saveRec _ _ l _ => l
  | _ => []
def VaneCmd.pages : VaneCmd → List Page
  | .vec _ l _ => l
  | .steer _ l _ => l
  | _ => []

/-- Bank operations on their way or at the bank that holds the trade token's queue (07 R133). -/
def State.allBankOps (s : State) : List BankOp := s.bankOps ++ s.banks.flatMap fun b => b.2.scq

/-- Cores of partition p. -/
def State.coresOf (s : State) (p : Nat) : List Nat := (List.range 1024).filter fun n => s.partOf n == some p

/-- A held effect that acts through a translation made at execute. -/
def Held.translated : Held → Bool
  | .store _ _ how _ => match how with | .pad => false | .padFull => false | _ => true
  | .bank _ => true
  | .engine _ => true
  | .island q => !q.pages.isEmpty
  | .vane q => !q.pages.isEmpty
  | .nalloc .. => true
  | .node .. => true
  | _ => false

/-- A presence request of partition p, on its way or deferred, that a command's pages cover (07 R126). -/
def State.presUses (s : State) (p : Nat) (c : TlbiCmd) (r : PresReq) : Bool :=
  match r.who with
  | .core m =>
    s.partOf m == some p &&
      match (s.core m).blk.wait with | .pres _ _ _ va _ _ => c.matches (s.core m).regs.colour va.toNat 8 | _ => true
  | .completion m _ => s.partOf m == some p

/-- What core m has on its way that uses a translation which a command removes (18 R276). -/
def State.tlbiUses (s : State) (n m : Nat) (c : TlbiCmd) (w : TlbiWait) : TlbiWait :=
  let k := s.core m
  { w with
    cmds := w.cmds ++ (k.eng.filter fun e => e.pages.any fun q => c.matches e.colour (q.vpage * 4096) 4096).map fun e => (m, e.id)
    ops := w.ops ++ s.allBankOps.filter fun o => o.core == m && (m == n || c.inRange o.va.toNat 128)
    isl := w.isl ++ (k.island.queue.filter fun q => c.usesPages q.pages).map fun q => (m, q)
    vanes := w.vanes ++ (k.vane.queue.filter fun q => c.usesPages q.pages).map fun q => (m, q)
    -- the core's own lines are written back with its flag
    lines := w.lines ++ (if m == n then [] else (k.l1.filter fun l => l.2.dirty != 0).map fun l => (m, l.1, l.2.since)) }

/-- A TLBI of core n, where it waits for the open block of core m, waits for what the block has sent. -/
def State.tlbiSent (s : State) (n m : Nat) (w : TlbiWait) : TlbiWait :=
  if w.blks.contains (m, (s.core m).blkNo) then s.tlbiUses n m w.cmd w else w

/-- A block of core m has delivered its effects: the TLBIs that wait for it, and the scrubs' own, wait for what it has sent. -/
def State.tlbiBlock (s : State) (m : Nat) : State :=
  let stops := s.trust.stops.map fun q => { q with scrubs := q.scrubs.map fun c => { c with wait := s.tlbiSent 1024 m c.wait } }
  let s := s.cores.foldl (fun s k =>
    if k.2.tlbi.any fun w => w.blks.contains (m, (s.core m).blkNo) then
      s.setCore k.1 { s.core k.1 with tlbi := (s.core k.1).tlbi.map fun w => s.tlbiSent k.1 m w }
    else s) s
  { s with trust := { s.trust with stops := stops } }

/-- What a TLBI of core n removes from the TLBs, walk caches and control-block caches of partition p, and what it waits for then: the
accesses that use a removed translation (18 R276). A scrub's own TLBI has no core; its n is 1,024 (26 R372). -/
def State.tlbiRemove (s : State) (p n : Nat) (c : TlbiCmd) : State × TlbiWait :=
  let cores := (s.cores.map (·.1)).filter fun m => s.partOf m == some p
  let wait : TlbiWait :=
    { cmd := c
      blks := (cores.filter fun m => (s.core m).blk.isOpen && (s.core m).blk.held.any Held.translated).map fun m =>
        (m, (s.core m).blkNo)
      pres := (s.presOps ++ s.banks.flatMap fun b => b.2.deferred).filter (s.presUses p c)
      cmds := [], ops := [], isl := [], vanes := [], lines := []
      reqs := s.elems.flatMap fun e =>
        if s.partOf (elemCore e.1) == some p then
          (e.2.reqs.filter fun r => c.matches (r.toks.headD blankTok).colour r.va.toNat 16).map fun r => (e.1, r.id)
        else []
      reads := (s.net.reads.filter fun r => s.partOf r.who.sender == some p).map (·.tag) }
  let wait := cores.foldl (fun w m => s.tlbiUses n m c w) wait
  let s := cores.foldl (fun s m =>
    let k := s.core m
    s.setCore m { k with tlb := k.tlb.filter fun e => !c.matches e.colour e.base e.size,
                         cbc := k.cbc.filter fun e => !c.matches (Sp.get k.regs.colour k.cbcColour e.1) e.1 32 }) s
  ({ s with walk := s.walk.filter fun w => s.partOf (w.1 * 16) != some p }, wait)

/-- The delivery of a core's TLBI. -/
def State.tlbiDeliver (s : State) (n : Nat) (c : TlbiCmd) : State :=
  match s.partOf n with
  | none => s
  | some p =>
    let r := s.tlbiRemove p n c
    r.1.setCore n { r.1.core n with tlbi := (r.1.core n).tlbi ++ [r.2] }

/-- A TLBI in partition p may complete: nothing it waits for is left, and no remote write of the partition's cores is
unacknowledged. -/
def State.tlbiReady (s : State) (p : Option Nat) (t : TlbiWait) : Bool :=
  (t.blks.all fun q => (s.core q.1).blkNo != q.2 || !(s.core q.1).blk.isOpen) &&
    (t.pres.all fun r => !(s.presOps ++ s.banks.flatMap fun b => b.2.deferred).contains r) &&
    (t.cmds.all fun q => !(s.core q.1).eng.any fun e => e.id == q.2) &&
    (t.ops.all fun o => !s.allBankOps.contains o) &&
    (t.reqs.all fun q => !(s.elem q.1).reqs.any fun r => r.id == q.2 && r.res.isNone && !r.lost) &&
    (t.isl.all fun q => !(s.core q.1).island.queue.contains q.2) &&
    (t.vanes.all fun q => !(s.core q.1).vane.queue.contains q.2) &&
    (t.reads.all fun g => !s.net.reads.any (·.tag == g)) &&
    (t.lines.all fun q => match Sp.find? (s.core q.1).l1 q.2.1 with | some l => l.dirty == 0 || l.since != q.2.2 | none => true) &&
    s.net.sent.all fun e => e.2.all fun x => x.pkt.type != 2 || some x.pkt.part != p

/-- Complete the oldest TLBI of a core, when it may: its flag is written, a release at `.package`. -/
def State.tlbiDone (s : State) (n : Nat) : State :=
  match (s.core n).tlbi with
  | [] => s
  | t :: rest =>
    if s.tlbiReady (s.partOf n) t then
      let s := s.setCore n { s.core n with tlbi := rest }
      (if t.cmd.flag.getLsbD 31 then s.l1WriteBackAll n else s).writeFlag t.cmd.flag
    else s

/-- The cause of a walk's fault in TLBW's code (Table 18.5). -/
def tlbwCause (code : Nat) : Nat :=
  match code with | 0x10 => 1 | 0x11 => 2 | 0x12 => 3 | 0x1D => 5 | _ => 4

/-- TLBW's result for an address and a bound colour (Table 18.5). -/
def State.tlbwResult (s : State) (p c va : Nat) : W64 :=
  if va ≥ vaLimit then w64 (2 ^ 63 + 1 * 2 ^ 56)
  else if va ≥ padRemote then 0
  else
    match s.walkVa p c va [] with
    | .bad code lvl => w64 (2 ^ 63 + lvl * 2 ^ 60 + tlbwCause code * 2 ^ 56)
    | .leaf e lvl =>
      let base := fld e.toNat 51 12 * 4096
      let b := base - base % leafSize lvl
      if space b == .floor && bankOf b != bankOf (b + leafSize lvl - 1) then w64 (2 ^ 63 + lvl * 2 ^ 60 + 5 * 2 ^ 56)
      else
        let size := match lvl with | 3 => 3 | 2 => 2 | _ => if e.getLsbD 11 then 1 else 0
        let page := b + va % leafSize lvl / 4096 * 4096
        w64 (size * 2 ^ 54 + b2n (e.getLsbD 63) * 2 ^ 53 + page + e.toNat % 4096)

/-- TLBW (18 R276): a walk for inspection; it consults no cache, installs nothing and raises no translation fault. -/
def execTlbw (o : SYS) (s : State) : Out :=
  checked o.g o.gs s fun s =>
    let b := s.x o.b
    if b.toNat ≥ 256 || !s.bound (s.partid s.cur) b.toNat then .error (.fault 0x41 0 b)
    else .ok (s.setX o.d (s.tlbwResult (s.partid s.cur) b.toNat (s.x o.a).toNat))

end Sys2Proof.Machine
end

