-- ==== Sys2Proof/Machine/Nets.lean ====
section
/-!
DEFINITION. Nets (15): nodes and pools, bags, the rule table, the join protocol, dispatch, DONE nodes, and the net forms.
-/
namespace Sys2Proof.Machine

/-! ## Words (15 R225 to R228) -/

/-- Fields of a link word: its state, and the word address of its peer port (Table 15.3, R227). -/
def linkState (w : Nat) : Nat := fld w 63 62
def linkPeer (w : Nat) : Nat := fld w 56 6 * 64 + 8 * (w % 4 + 1)
/-- States of a link word. -/
def sNil : Nat := 0
def sBound : Nat := 1
def sHole : Nat := 2
def sRedir : Nat := 3
/-- A link word of a state and a peer port; NIL has no peer. -/
def linkWord (st p : Nat) : Nat := if st == sNil then 0 else st * 2 ^ 62 + p % 2 ^ 57 / 64 * 64 + (p % 64 / 8 - 1) % 4
/-- The node of a port, and its index. -/
def portNode (p : Nat) : Nat := p - p % 64
def portIndex (p : Nat) : Nat := p % 64 / 8 - 1
def nodePort (n i : Nat) : Nat := n + 8 * (i + 1)

/-- Header fields (Table 15.2). -/
def hdrKind (h : Nat) : Nat := fld h 63 52
def hdrColour (h : Nat) : Nat := fld h 51 44
def hdrArity (h : Nat) : Nat := fld h 43 42
def hdrFree (h : Nat) : Bool := bitAt h 33
def hdrFreeing (h : Nat) : Bool := bitAt h 32
def nodeHdr (kind colour arity : Nat) : Nat := kind * 2 ^ 52 + colour % 256 * 2 ^ 44 + arity % 4 * 2 ^ 42
def kindEra : Nat := 3
/-- A kind with its arity under R228. -/
def kindOk (kind arity : Nat) : Bool :=
  match kind with
  | 0 => false
  | 1 | 3 | 4 | 6 => arity == 0
  | 5 | 0x11 => arity == 1
  | 2 | 0x10 | 0x12 | 0x13 => arity == 2
  | k => 0x100 ≤ k

/-! ## Bags (15 R234 to R236) -/

/-- sexp and base of the spill ring. -/
def Core.sexp (c : Core) : Nat := fld c.bagspill.toNat 56 52
def Core.ringBase (c : Core) : Nat := fld c.bagspill.toNat 51 4 * 16
/-- A bag entry in the ring (Table 15.6). -/
def Pair.dwords (p : Pair) : List Nat :=
  [b2n p.launch * 2 ^ 59 + p.colour.toNat * 2 ^ 51 + fld p.a.toNat 56 6, fld p.b.toNat 56 6]
def pairOf (d0 d1 : Nat) : Pair :=
  { a := w64 (fld d0 50 0 * 64), b := w64 (fld d1 50 0 * 64), colour := BitVec.ofNat 8 (fld d0 58 51), launch := bitAt d0 59 }
/-- Ring accesses are made by the device under the partition's key. -/
def State.partKeyAt (s : State) (n : Nat) : Nat := Sp.get 0 s.partKey (s.partid n)

/-- Entries that NPOPs of the block in progress have taken: their places are free from its commit on (15 R234, NPOP). -/
def Core.popped (c : Core) : Nat := c.blk.held.countP fun h => match h with | .npop _ => true | _ => false
/-- The hardware entries that a push may take. -/
def Core.bagFree (c : Core) : Nat := 512 - c.bag.length - c.popped
/-- The address of the ring's next entry; the ring stands in floor memory of the partition (log 61). -/
def Core.spillAt (c : Core) : Nat := c.ringBase + c.spillProd % 2 ^ c.sexp * 16
def State.spillOk (s : State) (n : Nat) : Bool :=
  let c := s.core n
  c.sexp != 0 && space c.spillAt == .floor && s.ringOk (s.partid n) c.spillAt

/-- Places a push may take now. -/
def State.bagRoom (s : State) (n : Nat) : Nat :=
  let c := s.core n
  if !c.bagWait.isEmpty then 0
  else (if s.spillOk n then 2 ^ c.sexp - c.spilled else 0) + (if c.spilled == 0 then c.bagFree else 0)

/-- Append an entry where there is room. -/
def State.bagAppend (s : State) (n : Nat) (p : Pair) : State :=
  let c := s.core n
  if c.spilled == 0 && c.bagFree > 0 then s.setCore n { c with bag := c.bag ++ [p] }
  else if !s.spillOk n then s.setCore n { c with bagWait := c.bagWait ++ [p] }
  else
    (s.write (s.partKeyAt n) c.spillAt (p.dwords.flatMap (leBytes 8))).setCore n { c with spillProd := c.spillProd + 1 }

/-- A push at the tail; a push of the device waits while there is no room (15 R234). -/
def State.pushTail (s : State) (n : Nat) (p : Pair) : State :=
  if s.bagRoom n > 0 then s.bagAppend n p
  else s.setCore n { s.core n with bagWait := (s.core n).bagWait ++ [p] }

/-- Refill the hardware entries from the ring, and let one waiting push in. -/
def State.bagRefill (s : State) (n : Nat) : State :=
  let c := s.core n
  let s :=
    if c.bagFree > 0 && c.spilled > 0 then
      let a := c.ringBase + c.spillCons % 2 ^ c.sexp * 16
      let k := s.partKeyAt n
      let p := { pairOf (s.readVal k a 8) (s.readVal k (a + 8) 8) with
        mark := ((List.range 16).find? fun i => s.poisoned (a + i)).map fun i => w64 (a + i) }
      s.setCore n { c with bag := c.bag ++ [p], spillCons := c.spillCons + 1 }
    else s
  let c := s.core n
  match c.bagWait with
  | [] => s
  | p :: rest =>
    let t := s.setCore n { c with bagWait := [] }
    if t.bagRoom n > 0 then
      let t := t.bagAppend n p
      t.setCore n { t.core n with bagWait := rest }
    else s

/-- Take the head of a bag. -/
def State.popHead (s : State) (n : Nat) : Option (Pair × State) :=
  match (s.core n).bag with
  | [] => none
  | p :: rest => some (p, (s.setCore n { s.core n with bag := rest }).bagRefill n)

/-- Cores of the same block of 2^w cores, after a core's own number and wrapping (15 R236). -/
def victimsIn (n w : Nat) : List Nat :=
  let base := n / 2 ^ w * 2 ^ w
  (List.range (2 ^ w - 1)).map fun i => base + (n - base + 1 + i) % 2 ^ w

/-- The bag that a core steals from: quad, cluster, sector, die, package. -/
def State.victim (s : State) (n : Nat) : Option Nat :=
  ([2, 4, 6, 8, 10].flatMap (victimsIn n)).find? fun m => m != n && s.sameOwner n m && !(s.core m).bag.isEmpty

/-- A count of BAGCNT: 0 stale, 1 retry, 2 stolen, 3 recs. -/
def State.bagCount (s : State) (n k : Nat) : State :=
  let c := s.core n
  let lo := 48 - 16 * k
  s.setCore n { c with bagcnt := w64 (setFld c.bagcnt.toNat (lo + 15) lo (satAdd 16 (fld c.bagcnt.toNat (lo + 15) lo) 1)) }

/-! ## Access to node words (15 R229, 18 R268) -/

/-- Who works on a net: a core, through a colour, at a level. -/
structure NetCtx where
  n : Nat
  c : Nat
  lvlS : Bool

/-- A computation over the state that an access may end. -/
abbrev NetM := ExceptT XF (StateM State)

/-- The place of a node word in floor memory, for an access. -/
def State.nodeTr (s : State) (k : NetCtx) (va : Nat) (acc : Acc) : Except XF Tr :=
  match s.access k.n k.c va 8 k.lvlS true acc with
  | .error e => .error e
  | .ok t => if space t.home == .floor then .ok t else .error (.fault 0x19 0 (w64 va))

/-- Read a word at its bank, never in the core's L1, whose line is written back and dropped (15 R229, 07 R123); a poisoned word ends
the work with 0x0B. -/
def netRead (k : NetCtx) (va : Nat) : NetM Nat := do
  let s ← get
  match s.nodeTr k va .r with
  | .error e => throw e
  | .ok t =>
    let s := s.l1DropRange k.n t.home 8
    set s
    if s.anyPoison t.home 8 then throw (.fault 0x0B 0 (w64 va)) else return s.readVal t.key t.home 8

/-- Write a word at its bank, behind the core's own copy of its line: the bank place, which names the word in every context. -/
def netPut (k : NetCtx) (va v : Nat) : NetM Nat := do
  let s ← get
  match s.nodeTr k va .w with
  | .error e => throw e
  | .ok t =>
    set ((s.l1DropRange k.n t.home 8).write t.key t.home (leBytes 8 v))
    return t.home

def netWrite (k : NetCtx) (va v : Nat) : NetM Unit := do
  let _ ← netPut k va v

/-- A compare-and-swap at the bank: whether it changed the word. -/
def netCas (k : NetCtx) (va old new : Nat) : NetM Bool := do
  let v ← netRead k va
  if v == old then
    netWrite k va new
    return true
  else return false

/-- Run a computation: the state it leaves, and the fault that ended it. -/
def NetM.runOn {α : Type} (m : NetM α) (s : State) : Except XF α × State := (ExceptT.run m).run s

/-- The code and level of what ended the work. -/
def XF.netCode : XF → Nat × Nat
  | .fault c l _ => (c, l)
  | .remote .. => (0x19, 0)
  | .walk => (0x19, 0)

/-- A net record: kind 4, the two nodes in dwords 3 and 4 (Table 19.7); counted in BAGCNT. -/
def State.netRecord (s : State) (n c code lvl n1 n2 : Nat) : State :=
  (s.recordAt n { code := code, kind := 4, lvl := lvl, core := n, colour := c, addr := w64 n1, opnd0 := w64 n2 }).bagCount n 3

/-! ## Pools (15 R230) -/

/-- A node enters the head of a core's pool, with free set. -/
def poolPush (k : NetCtx) (node : Nat) : NetM Unit := do
  netWrite k node (2 ^ 33)
  netWrite k (node + 40) ((← get).core k.n).nodehead.toNat
  modify fun s => s.setCore k.n { s.core k.n with nodehead := w64 node }

/-- Take the head node of a core's pool, if there is one. -/
def poolPop (k : NetCtx) : NetM (Option Nat) := do
  let node := ((← get).core k.n).nodehead.toNat
  if node == 0 then return none
  else
    let next ← netRead k (node + 40)
    modify fun s => s.setCore k.n { s.core k.n with nodehead := w64 (fld next 56 6 * 64) }
    return some node

/-- A node whose freeing is set and whose link words are all NIL enters the pool. -/
def checkFree (k : NetCtx) (node : Nat) : NetM Unit := do
  let h ← netRead k node
  let ws ← [0, 1, 2, 3].mapM fun i => netRead k (nodePort node i)
  if hdrFreeing h && !hdrFree h && ws.all (· == 0) then poolPush k node

/-- The bank place of a word, which names it in every context (15 R229). -/
def wordPlace (k : NetCtx) (p : Nat) : NetM Nat := do
  match (← get).nodeTr k p .r with
  | .ok t => return t.home
  | .error e => throw e

/-- A join leaves the word at a place in use, as a relay or as a pending end; and no join uses it any more. -/
def relayBegin (h : Nat) : NetM Unit := modify fun s => { s with relays := h :: s.relays }
def relayEnd (h : Nat) : NetM Unit := modify fun s => { s with relays := s.relays.filter (· != h) }

/-- Nil(p) (15 R242). -/
def netNil (k : NetCtx) (p : Nat) : NetM Unit := do
  let h ← netPut k p 0
  relayEnd h
  checkFree k (portNode p)

/-- The freeing of a node: freeing is set, and link words that no join left in use become NIL. `later`: the ports that joins still to
be delivered of the same commit name; a HOLE among them is left to its join, and while there are any of the node it enters no pool (R230). -/
def freeNode (k : NetCtx) (node : Nat) (later : List Nat) : NetM Unit := do
  let h ← netRead k node
  netWrite k node (setFld h 32 32 1)
  let ports := [0, 1, 2, 3].map (nodePort node)
  ports.forM fun p => do
    let w ← netRead k p
    let place ← wordPlace k p
    if linkState w == sHole && !(← get).relays.contains place && !later.contains p then netWrite k p 0
  if ports.any later.contains then pure () else checkFree k node

/-! ## Joins (15 R242, R243) -/

/-- An end of a join: a port, or a wire whose other rule has not committed, with its anchor. -/
inductive NetEnd where
  | port (p : Nat)
  | opened (a o e : Nat)
deriving DecidableEq, Repr

/-- A join that has taken its 64 steps (15 R243). -/
def netChain : XF := .fault 0x5E 0 0

/-- Take(o), and Follow of what it finds; each reread and each step along a wire counts one of the steps left. The end, and
the steps left. -/
def take (k : NetCtx) : Nat → Nat → NetM (NetEnd × Nat)
  | 0, _ => throw netChain
  | f + 1, o => do
    let w ← netRead k o
    let e := linkPeer w
    let follow (p : Nat) : NetM (NetEnd × Nat) := do
      let v ← netRead k p
      if linkState v == sHole && linkPeer v == p then return (.port p, f)
      else take k f p
    if linkState w == sRedir then
      netNil k o
      follow e
    else if linkState w != sHole then take k f o
    else
      let v ← netRead k e
      let back := linkPeer v
      if linkState v == sBound && back == o then
        if ← netCas k e (linkWord sBound o) (linkWord sHole e) then
          netNil k o
          return (.port e, f + 1)
        else take k f o
      else if linkState v == sHole && back == o then return (.opened (Nat.min o e) o e, f + 1)
      else if linkState v == sRedir && e < o then
        netNil k e
        netNil k o
        follow back
      else take k f o

/-- Join(x, y) (15 R242); a pair whose ends are both principal is pushed. -/
def join (k : NetCtx) : Nat → NetEnd → NetEnd → NetM Unit
  | 0, _, _ => throw netChain
  | f + 1, x, y =>
    match x, y with
    | .port p, .port q => do
      let hp ← netPut k p (linkWord sBound q)
      let hq ← netPut k q (linkWord sBound p)
      relayEnd hp
      relayEnd hq
      if portIndex p == 0 && portIndex q == 0 then
        modify fun s => s.pushTail k.n
          { a := w64 (portNode p), b := w64 (portNode q), colour := BitVec.ofNat 8 k.c, launch := false }
    | .opened a o e, .port q => open' k f a o e (.port q)
    | .port q, .opened a o e => open' k f a o e (.port q)
    | .opened a o e, .opened a' o' e' =>
      if a == a' then do
        netNil k o
        netNil k e
      else open' k f a o e (.opened a' o' e')
where
  /-- The open end's anchor names the other end: the rule across completes the join. -/
  open' (k : NetCtx) (f a o e : Nat) (other : NetEnd) : NetM Unit := do
    let tgt := match other with | .port q => q | .opened _ o' _ => o'
    match other with
    | .port q => do
      let h ← netPut k q (linkWord sHole q)
      relayBegin h
    | .opened .. => pure ()
    if ← netCas k a (linkWord sHole (if a == o then e else o)) (linkWord sRedir tgt) then
      match other with
      | .port _ => pure ()
      | .opened .. => relayBegin (← wordPlace k tgt)
      if a != o then netNil k o
    else
      let r ← take k f o
      join k f r.1 other

/-- One operand of a join: the port, or what Take finds of its wire. -/
def joinEnd (k : NetCtx) (f : Nat) (q : Nat × Bool) : NetM (NetEnd × Nat) :=
  if q.2 then take k f q.1 else return (.port q.1, f)

/-- A held port whose far end still names it goes back to its own wire: whether it did (log 40). -/
def restorePort (k : NetCtx) (p : Nat) : NetM Bool := do
  let w ← netRead k p
  if linkState w == sHole && linkPeer w != p then
    let v ← netRead k (linkPeer w)
    if (linkState v == sBound || linkState v == sHole) && linkPeer v == p then
      netWrite k p (linkWord sBound (linkPeer w))
      return true
    else return false
  else return false

/-- The delivery of an NLINK. -/
def nlink (k : NetCtx) (a b : Nat × Bool) : NetM Unit := do
  if a.1 == b.1 && a.2 != b.2 then
    if ← restorePort k a.1 then return ()
  let x ← joinEnd k 65 a
  let y ← joinEnd k x.2 b
  join k y.2 x.1 y.1

/-- Release(p): a claimed port goes back to its own wire, as NLINK.pw p, p does (15 R238). -/
def releasePort (k : NetCtx) (p : Nat) : NetM Unit := nlink k (p, false) (p, true)

/-- Do one piece of work after another, each whether or not an earlier one could be done; the first fault stands. -/
def reachAll : List (NetM Unit) → NetM Unit
  | [] => pure ()
  | m :: rest => do
    let e ← tryCatch (do m; return none) fun e => return some e
    reachAll rest
    match e with
    | none => pure ()
    | some e => throw e

/-- Release of claims and of the two principals, which are bound to each other again, as far as they can be reached (15 R238,
R240). -/
def releasePair (k : NetCtx) (n1 n2 : Nat) (claims : List Nat) : NetM Unit :=
  reachAll (claims.map (releasePort k) ++
    [netWrite k (nodePort n1 0) (linkWord sBound (nodePort n2 0)), netWrite k (nodePort n2 0) (linkWord sBound (nodePort n1 0))])

/-! ## The rule table (15 R231 to R233) -/

/-- The table of a core: X[a] and n of the last NRULE.set for its owner tag. -/
def State.ruleTable (s : State) (n : Nat) : Option (Nat × Nat) := (s.core n).rtab.map fun t => (t.1.toNat, t.2)

/-- The hash of a pair of kinds in a table of 2^n entries. -/
def ruleHash (n kmin kmax : Nat) : Nat := (kmax * 4096 + kmin) * 0x9E3779B1 % 2 ^ 32 / 2 ^ (32 - n)

/-- A word of any memory as the core reads it at its home; of another device, as the bytes it has sent (17 R262), or a fault where dispatch
has given that read up. -/
def State.farWord (s : State) (n : Nat) (t : Tr) (va : Nat) : Except XF Nat :=
  if space t.home == .remote then
    let bs := (List.range 8).map fun i => Sp.find? (s.core n).blk.remote (t.home + i)
    if !bs.all (·.isSome) then .error (if (s.core n).gaveUp == some t.home then .fault 0x18 0 (w64 va) else .remote t.home 8 (w64 va))
    else if bs.any fun b => b.any (·.2) then .error (.fault 0x0B 0 (w64 va))
    else .ok (bytesNat (bs.map fun b => (b.getD (0, false)).1))
  else if s.anyPoison t.home 8 then .error (.fault 0x0B 0 (w64 va))
  else .ok (s.readVal t.key t.home 8)

/-- Probe from a step on; dispatch reads the table at U, NRULE.look at S (15 R238, 18 R268). The entry's block and mask. -/
def probe (k : NetCtx) (base n kmin kmax : Nat) (i : Nat) : Nat → NetM (Option (Nat × Nat))
  | 0 => return none
  | left + 1 => do
    let a := base + i % 2 ^ n * 16
    let d0 ← netRead' k a
    if !bitAt d0 63 then return none
    else if fld d0 11 0 == kmin && fld d0 23 12 == kmax then
      let d1 ← netRead' k (a + 8)
      if fld d0 62 56 != 0 || fld d0 47 24 != 0 || fld d1 63 57 != 0 then return none
      else return some (fld d1 56 0, fld d0 55 48)
    else probe k base n kmin kmax (i + 1) left
where
  /-- A word of the table, in any memory; a walk for it waits as a core's does (21 R301). -/
  netRead' (k : NetCtx) (va : Nat) : NetM Nat := do
    let s ← get
    if s.walkHeld k.n k.c va then throw .walk else
    match s.access k.n k.c va 8 k.lvlS true .r with
    | .error e => throw e
    | .ok t =>
      match s.farWord k.n t va with
      | .error e => throw e
      | .ok w => return w

/-- Lookup of a pair of kinds, through the core's cached entries (15 R232, R233). -/
def lookupRule (k : NetCtx) (ka kb : Nat) : NetM (Option (Nat × Nat)) := do
  let kmin := Nat.min ka kb
  let kmax := Nat.max ka kb
  let s ← get
  match (s.core k.n).rcache.find? fun e => e.1 == kmax * 4096 + kmin with
  | some e => return some (e.2.1.toNat, e.2.2.toNat)
  | none =>
    match s.ruleTable k.n with
    | none => return none
    | some (base, n) =>
      let r ← probe k base n kmin kmax (ruleHash n kmin kmax) (2 ^ n)
      match r with
      | some (b, m) =>
        modify fun s =>
          let c := s.core k.n
          s.setCore k.n { c with rcache := (kmax * 4096 + kmin, w64 b, w64 m) :: c.rcache }
      | none => pure ()
      return r

/-! ## Dispatch (15 R236 to R240) -/

/-- The header word of a rule body, if the block at an address is one. -/
def State.ruleBody (s : State) (n : Nat) (c : Nat) (b : Nat) : Except XF Bool :=
  if b % 8 != 0 then .ok false else
  match s.access n c b 8 false true .x with
  | .error e => .error e
  | .ok t =>
    match s.farWord n t b with
    | .error e => .error e
    | .ok w => .ok (isHeader (w64 w) && headerRule (w64 w))

/-- What dispatch does with an entry: the pair is dropped, goes to the tail of the bag (after a failed claim, or for want of a
pool node), runs at a block with claims, or no longer meets. -/
inductive Disp where
  | drop
  | retry (failed : Bool) (claims : List Nat)
  | run (b n1 n2 : Nat) (claims : List Nat)
  | stale

/-- What dispatch has claimed of a pair so far. -/
structure Claimed where
  pp : Bool
  ports : List Nat

/-- Claim an auxiliary port: whether it was bound and is now held. A peer that no port can be is a malformed net. -/
def claimPort (k : NetCtx) (p : Nat) : NetM Bool := do
  let w ← netRead k p
  if fld w 56 6 == 0 then throw (.fault 0x5D 0 0)
  else if linkState w != sBound then return false
  else
    let q := linkPeer w
    let h ← netRead k (portNode q)
    if portIndex q > hdrArity h then throw (.fault 0x5D 0 0)
    else netCas k p w (linkWord sHole q)

/-- Claim ports one after another: the claims, and whether every one succeeded. -/
def claimAll (k : NetCtx) (got : List Nat) : List Nat → NetM (List Nat × Bool)
  | [] => return (got, true)
  | p :: rest => do
    let ok ← tryCatch (claimPort k p) fun e => do
      -- what is held is released as far as it can be reached, and the cause stands
      tryCatch (reachAll (got.map (releasePort k))) fun _ => pure ()
      throw e
    if ok then claimAll k (got ++ [p]) rest else return (got, false)

/-- Ports 1 to arity of a node that a 3-bit mask names. -/
def maskedPorts (node arity m : Nat) : List Nat :=
  ([1, 2, 3].filter fun i => i ≤ arity && bitAt m (i - 1)).map (nodePort node)

/-- A join of dispatch; one that takes too many steps is abandoned and recorded, and the rest goes on (15 R243). -/
def eraseJoin (k : NetCtx) (a b : Nat × Bool) : NetM Unit :=
  tryCatch (nlink k a b) fun e =>
    if e == netChain then modify fun s => s.netRecord k.n k.c 0x5E 0 (portNode a.1) (portNode b.1) else throw e

/-- The rewriting of BuiltinErase, with the ports of `node` claimed: whether every node it needs was there. -/
def eraseClaimed (k : NetCtx) (era node h arity : Nat) (ports : List Nat) : NetM Bool := do
  let extra ← if arity == 3 then poolPop k else pure none
  if arity == 3 && extra.isNone then return false
  else
    match extra with
    | some x => do
      [1, 2, 3, 4, 5, 6, 7].forM fun i => netWrite k (x + 8 * i) 0
      netWrite k x (nodeHdr kindEra k.c 0)
    | none => pure ()
    netWrite k node (nodeHdr kindEra (hdrColour h) 0 + h % 2 ^ 32)
    netNil k (nodePort era 0)
    netNil k (nodePort node 0)
    (ports.zip ([era, node] ++ extra.toList)).forM fun q => eraseJoin k (nodePort q.2 0, false) (q.1, true)
    if arity == 0 then
      freeNode k era []
      freeNode k node []
    else if arity == 1 then freeNode k node []
    return true

/-- BuiltinErase (15 R239): `era` meets `node`. It is one atomic step: where an access faults, nothing is rewritten and the claims
are released. -/
def builtinErase (k : NetCtx) (era node : Nat) : NetM Disp := do
  let h ← netRead k node
  let arity := if hdrKind h == kindEra then 0 else hdrArity h
  let ports := maskedPorts node arity 7
  let r ← claimAll k [] ports
  if !r.2 then return .retry true r.1
  else
    let before ← get
    let done ← tryCatch (eraseClaimed k era node h arity ports) fun e => do
      set before
      tryCatch (reachAll (ports.map (releasePort k))) fun _ => pure ()
      throw e
    return if done then .drop else .retry false r.1

/-- Dispatch of a pair of nodes (15 R238). -/
def dispatchPair (k : NetCtx) (a b : Nat) : NetM Disp := do
  let ha ← netRead k a
  let hb ← netRead k b
  let swap := hdrKind ha > hdrKind hb
  let n1 := if swap then b else a
  let n2 := if swap then a else b
  let h1 := if swap then hb else ha
  let h2 := if swap then ha else hb
  let lo := nodePort (Nat.min n1 n2) 0
  let hi := nodePort (Nat.max n1 n2) 0
  if !(← netCas k lo (linkWord sBound hi) (linkWord sHole hi)) then return .stale
  else
    let back := fun (e : XF) => do
      tryCatch (releasePair k n1 n2 []) fun _ => pure ()
      throw e
    tryCatch (do
      netWrite k hi (linkWord sHole lo)
      if hdrColour h1 != k.c || hdrColour h2 != k.c then throw (XF.fault 0x5B 0 0)
      else
        let e ← lookupRule k (hdrKind h1) (hdrKind h2)
        match e with
        | none =>
          if hdrKind h1 == kindEra || hdrKind h2 == kindEra then
            let r ← if hdrKind h1 == kindEra then builtinErase k n1 n2 else builtinErase k n2 n1
            match r with
            | .retry failed cl => do
              releasePair k n1 n2 cl
              return .retry failed []
            | r => return r
          else throw (XF.fault 0x5C 0 0)
        | some (blk, mask) =>
          match (← get).ruleBody k.n k.c blk with
          | .error e => throw e
          | .ok false => throw (XF.fault 0x5C 0 0)
          | .ok true =>
            let r ← claimAll k [] (maskedPorts n1 (hdrArity h1) (mask / 2 % 8) ++ maskedPorts n2 (hdrArity h2) (mask / 32 % 8))
            if r.2 then return .run blk n1 n2 r.1
            else
              releasePair k n1 n2 r.1
              return .retry true []) back

/-- The context of dispatch on core n for a colour: at U (18 R268). -/
def dispCtx (n : Nat) (c : BitVec 8) : NetCtx := { n := n, c := c.toNat, lvlS := false }

/-- The launch of a node is told what became of its entry body: done, or 6 where it was no rule body (11 R202, 15 R238). -/
def State.launchBody (s : State) (n : Nat) (node : W64) (bad : Bool) : State :=
  match s.partOf n with
  | none => s
  | some p =>
    let q := Sp.get Sched.reset s.scheds p
    { s with scheds := Sp.put s.scheds p { q with launches := q.launches.map fun l =>
        if (l.node == some node) then { l with body := (if bad then Body.invalid else Body.done) } else l } }

/-- A core starts a rule body or an entry body: x1 and x2, the colour register, level U, and the claim (15 R238, 11 R201). -/
def State.runBody (s : State) (n : Nat) (p : Pair) (b x1 x2 : Nat) (ports : List Nat) : State :=
  let c := s.core n
  s.setCore n { c with run := .running, lvlS := false, pc := w64 b, inDisp := true, claim := some { pair := p, ports := ports, done := [] },
                       regs := { (c.regs.setX 1 (w64 x1)).setX 2 (w64 x2) with colour := p.colour } }

/-- Bytes of another device that dispatch has used are forgotten, and a read that it gave up. -/
def State.farDone (s : State) (n : Nat) : State :=
  let c := s.core n
  s.setCore n { c with blk := { c.blk with remote := [] }, gaveUp := none }

/-- What ends the work of dispatch on an entry: `fail` with its record; but where bytes of another device are to come (17 R262), or a walk
must wait (21 R301), nothing has happened yet and the entry is taken again then. -/
def State.dispatchStop (s : State) (n : Nat) (e : XF) (fail : State) : State :=
  match e with
  | .remote h k va => s.setCore n { s.core n with rreq := some (h, k, va) }
  | .walk => s.setCore n { s.core n with walkWait := true }
  | .fault .. => fail.farDone n

/-- Dispatch runs one entry on core n (15 R238); `s0` is the state before the entry was taken. -/
def State.dispatchEntry (s : State) (s0 : State) (n : Nat) (p : Pair) : State :=
  let k := dispCtx n p.colour
  let a := p.a.toNat
  let b := p.b.toNat
  if p.mark.isSome then
    let s := s.netRecord n k.c 0x0B 0 a b
    if p.launch then s.launchBody n p.a true else s
  else if p.launch then
    match (netRead k (a + 56)).runOn s with
    | (.error e, s) => (s.netRecord n k.c e.netCode.1 e.netCode.2 a 0).launchBody n p.a true
    | (.ok blk, s) =>
      match s.ruleBody n k.c blk with
      | .error e => s0.dispatchStop n e ((s.netRecord n k.c e.netCode.1 e.netCode.2 a 0).launchBody n p.a true)
      | .ok false => ((s.netRecord n k.c 0x5C 0 a 0).launchBody n p.a true).farDone n
      | .ok true => (s.runBody n p blk a 0 []).farDone n
  else
    match (dispatchPair k a b).runOn s with
    | (.error e, s) => s0.dispatchStop n e (s.netRecord n k.c e.netCode.1 e.netCode.2 a b)
    | (.ok .drop, s) => s.farDone n
    | (.ok .stale, s) => (s.bagCount n 0).farDone n
    | (.ok (.retry failed _), s) => (if failed then (s.pushTail n p).bagCount n 1 else s.pushTail n p).farDone n
    | (.ok (.run blk n1 n2 ports), s) =>
      (s.runBody n { p with a := w64 n1, b := w64 n2 } blk n1 n2 ports).farDone n

/-- A core in dispatch takes the next entry, of its own bag or of another (15 R236), as an acquire (R235). -/
def State.dispatchStep (s : State) (n : Nat) : State :=
  match s.popHead n with
  | some (p, t) => (t.l1DropAll n).dispatchEntry s n p
  | none =>
    match s.victim n with
    | none => s
    | some m =>
      match s.popHead m with
      | none => s
      | some (p, t) => ((t.bagCount m 2).l1DropAll n).dispatchEntry s n p

/-! ## The end of a rule body (15 R230, R240, R241) -/

/-- Principal ports of core n's pair that a join of its body has written, or an NFREE has cleared: nothing of them is left to do when the
body is complete, and another core may use them again meanwhile (15 R241). -/
def State.portsDone (s : State) (n : Nat) (ps : List Nat) : State :=
  let c := s.core n
  match c.claim with
  | some q =>
    let mine := ps.filter fun p => p == nodePort q.pair.a.toNat 0 || p == nodePort q.pair.b.toNat 0
    if mine.isEmpty then s else s.setCore n { c with claim := some { q with done := mine ++ q.done } }
  | none => s

/-- The commit of a rule body: principals that no join wrote become NIL. -/
def State.bodyDone (s : State) (n : Nat) : State :=
  let c := s.core n
  match c.claim with
  | none => s
  | some q =>
    let s := s.setCore n { c with claim := none }
    if q.pair.launch then s.launchBody n q.pair.a false
    else
      let k := dispCtx n q.pair.colour
      let p1 := nodePort q.pair.a.toNat 0
      let p2 := nodePort q.pair.b.toNat 0
      let one := fun (p o : Nat) => do
        let w ← netRead k p
        if w == linkWord sHole o && !q.done.contains p then netNil k p
      match (do one p1 p2; one p2 p1 : NetM Unit).runOn s with
      | (.ok _, s) => s
      | (.error e, s) => s.netRecord n k.c e.netCode.1 e.netCode.2 q.pair.a.toNat q.pair.b.toNat

/-- The delivery of NLINK. -/
def State.nlinkDeliver (s : State) (n : Nat) (a b : Nat × Bool) (c : BitVec 8) (lvlS : Bool) : State :=
  let k : NetCtx := { n := n, c := c.toNat, lvlS := lvlS }
  match (nlink k a b).runOn s with
  | (.ok _, s) => s.portsDone n (([a, b].filter fun q => !q.2).map (·.1))
  | (.error e, s) => s.netRecord n k.c e.netCode.1 e.netCode.2 (portNode a.1) (portNode b.1)

/-- The ports that the joins among held effects name. -/
def joinPorts (l : List Held) : List Nat :=
  l.flatMap fun h => match h with | .nlink a b _ _ => [a.1, b.1] | _ => []

/-- The delivery of NFREE, in its place; the joins of the block that are still to be delivered keep what they name (R230). -/
def State.nfreeDeliver (s : State) (n : Nat) (node : W64) (c : BitVec 8) (lvlS : Bool) : State :=
  let k : NetCtx := { n := n, c := c.toNat, lvlS := lvlS }
  let later := joinPorts (s.core n).blk.held
  match (freeNode k node.toNat later).runOn s with
  | (.ok _, s) => s.portsDone n ([nodePort node.toNat 0].filter fun p => !later.contains p)
  | (.error e, s) => s.netRecord n k.c e.netCode.1 e.netCode.2 node.toNat 0

/-- The delivery of NPUSH.rel: the claims are released and the entry goes to the tail of the bag (15 R240). -/
def State.nrelDeliver (s : State) (n : Nat) (lvlS : Bool) : State :=
  let c := s.core n
  match c.claim with
  | none => s
  | some q =>
    let s := s.setCore n { c with claim := none }
    if q.pair.launch then s.pushTail n q.pair
    else
      let k : NetCtx := { n := n, c := q.pair.colour.toNat, lvlS := lvlS }
      match (releasePair k q.pair.a.toNat q.pair.b.toNat q.ports).runOn s with
      | (.ok _, s) => s.pushTail n q.pair
      | (.error e, s) => s.netRecord n k.c e.netCode.1 e.netCode.2 q.pair.a.toNat q.pair.b.toNat

/-! ## DONE and launch nodes (15 R230, R244, 11 R201) -/

/-- Take a node of a core's pool for the device, through a colour; none where the pool is empty or cannot be read. -/
def State.takeNode (s : State) (n : Nat) (c : Nat) : State × Option Nat :=
  match (poolPop { n := n, c := c, lvlS := false }).runOn s with
  | (.ok r, s) => (s, r)
  | (.error _, s) => (s, none)

/-- Give a node back to the head of a core's pool. Where its words cannot be written through the colour, they are written where a
read finds them, unless the frame is sealed (26 R368); where that fails too, it becomes the head as it stands (15 R230, log 64). -/
def State.giveNode (s : State) (n c node : Nat) : State :=
  let k : NetCtx := { n := n, c := c, lvlS := false }
  match (poolPush k node).runOn s with
  | (.ok _, t) => t
  | (.error _, _) =>
    let t := match s.nodeTr k node .r with
      | .ok t => if s.sealedFrame t.home then s else (s.write t.key t.home (leBytes 8 (2 ^ 33))).write t.key (t.home + 40) (leBytes 8 (s.core n).nodehead.toNat)
      | .error _ => s
    t.setCore n { t.core n with nodehead := w64 node }

/-- A header and payload written over a node, every link word NIL. -/
def fillNode (k : NetCtx) (node hdr : Nat) (payload : List Nat) : NetM Unit := do
  netWrite k node hdr
  [1, 2, 3, 4].forM fun i => netWrite k (node + 8 * i) 0
  ([0, 1, 2].zip payload).forM fun q => netWrite k (node + 40 + 8 * q.1) q.2

/-- The delivery of a DONE node to port p of a target node: pushed when p is principal; false where the port was not pending. -/
def doneNode (k : NetCtx) (node target p tiles status entry : Nat) : NetM Bool := do
  fillNode k node (nodeHdr 4 k.c 0) [tiles * 2 ^ 48 + status, entry * 2 ^ 10 + k.n, 0]
  let wp := nodePort target p
  netWrite k (nodePort node 0) (linkWord sBound wp)
  if ← netCas k wp (linkWord sHole wp) (linkWord sBound (nodePort node 0)) then
    if p == 0 then
      modify fun s => s.pushTail k.n { a := w64 node, b := w64 target, colour := BitVec.ofNat 8 k.c, launch := false }
    return true
  else return false

/-! ## The forms (15 R245, Table 15.8) -/

/-- The 8-byte word at an offset of a checked node, as the block leaves it, from the bank. -/
def State.nodeWord (s : State) (t : Tr) (va off : Nat) : Except XF Nat :=
  let h := t.home + off
  let bs := (List.range 8).map fun i => heldByte s.blk.held (h + i)
  if (List.range 8).any fun i => (bs.getD i none).isNone && s.poisoned (h + i) then .error (.fault 0x0B 0 (w64 (va + off)))
  else .ok (bytesNat ((List.range 8).map fun i => (bs.getD i none).getD (s.readHome t.key (h + i))))

/-- The checks of a node operand in order: alignment, translation and permission, floor memory of this package. -/
def State.nodeOperand (s : State) (va : W64) (wr : Bool) : Except XF Tr :=
  if va.toNat % 64 != 0 then .error (.fault 8 0 va) else
  match s.coreAccess va.toNat 8 .r with
  | .error e => .error e
  | .ok t =>
    match (if wr then s.coreAccess va.toNat 8 .w else .ok t) with
    | .error e => .error e
    | .ok t => if space t.home == .floor then .ok t else .error (.fault 0x19 0 va)

/-- The core's own copies of a node's line are written back and dropped (07 R123). -/
def State.nodeHome (s : State) (t : Tr) : State := s.l1DropRange s.cur t.home 64

/-- A node operand that is not free: its place and header. -/
def State.liveNode (s : State) (va : W64) (wr : Bool) : Except XF (Tr × Nat) :=
  match s.nodeOperand va wr with
  | .error e => .error e
  | .ok t =>
    match (s.nodeHome t).nodeWord t va.toNat 0 with
    | .error e => .error e
    | .ok h => if hdrFree h then .error (.fault 0x39 0 va) else .ok (t, h)

/-- The held ports of the block: auxiliary ports of the current pair, in a rule body only (15 R241). -/
def State.heldPorts (s : State) : List Nat :=
  if s.blk.rule then (match s.me.claim with | some q => q.ports | none => []) else []
/-- Principal ports of the current pair. -/
def State.principals (s : State) : List Nat :=
  if s.blk.rule then
    match s.me.claim with
    | some q => if q.pair.launch then [] else [nodePort q.pair.a.toNat 0, nodePort q.pair.b.toNat 0]
    | none => []
  else []
/-- Ports that the block's NLINKs have used, in wire role or in port role. -/
def State.rolesUsed (s : State) (wire : Bool) : List Nat :=
  s.blk.held.flatMap fun h => match h with
    | .nlink a b _ _ => ([a, b].filter fun q => q.2 == wire).map (·.1)
    | _ => []

/-- The word address of a held port whose wire role is unused (15 R241). -/
def State.wireLeft (s : State) : Option Nat := s.heldPorts.find? fun p => !(s.rolesUsed true).contains p

/-- NALLOC. -/
def execNalloc (o : NET) (s : State) : Out :=
  checked o.g o.gs s fun s =>
    let kind := o.kind.toNat
    let c := s.me.regs.colour
    if !kindOk kind o.pa.toNat then .error (.fault 0x3B 0 (w64 kind))
    else if s.me.nodehead = 0 then .error (.fault 0x38 0 0)
    else
      let node := s.me.nodehead
      match s.nodeOperand node true with
      | .error e => .error e
      | .ok t =>
        let s := s.nodeHome t
        match s.nodeWord t node.toNat 40 with
        | .error e => .error e
        | .ok next =>
          let s := s.setMe { s.me with nodehead := w64 (fld next 56 6 * 64) }
          .ok ((s.hold (.nalloc node t.home t.key (w64 (nodeHdr kind c.toNat o.pa.toNat)))).setX o.d node)

/-- NFREE. -/
def execNfree (o : NET) (s : State) : Out :=
  checked o.g o.gs s fun s =>
    let va := s.x o.a
    match s.liveNode va true with
    | .error e => .error e
    | .ok (t, h) =>
      let s := s.nodeHome t
      let ports := (List.range (hdrArity h + 1)).map (nodePort va.toNat)
      let words := ports.map fun p => s.nodeWord t va.toNat (p - va.toNat)
      match words.findSome? fun w => match w with | .error e => some e | .ok _ => none with
      | some e => .error e
      | none =>
        let mine := s.heldPorts ++ s.principals
        let bound := fun (p : Nat) =>
          match s.nodeWord t va.toNat (p - va.toNat) with | .ok w => linkState w == sBound && !mine.contains p | .error _ => false
        let twice := s.blk.held.any fun q => match q with | .nfree n _ _ => n == va | _ => false
        if ports.any bound || ports.any (s.rolesUsed false).contains || twice then .error (.fault 0x3C 0 va)
        else .ok (s.hold (.nfree va s.me.regs.colour s.me.lvlS))

/-- NLD: word w of the node. -/
def execNld (o : NET) (s : State) : Out :=
  checked o.g o.gs s fun s =>
    let va := s.x o.a
    match s.nodeOperand va false with
    | .error e => .error e
    | .ok t =>
      let s := s.nodeHome t
      match s.nodeWord t va.toNat (8 * o.func.toNat) with
      | .error e => .error e
      | .ok v => .ok (s.setX o.d (w64 v))

/-- NST: a header, a link word or a payload dword. -/
def execNst (o : NET) (s : State) : Out :=
  checked o.g o.gs s fun s =>
    let va := s.x o.a
    let v := s.x o.b
    let w := o.func.toNat
    match s.liveNode va true with
    | .error e => .error e
    | .ok (t, h) =>
      let s := s.nodeHome t
      let ok : State := s.hold (.node (t.home + 8 * w) v t.key)
      if w == 0 then
        if fld v.toNat 41 32 != 0 || !kindOk (hdrKind v.toNat) (hdrArity v.toNat) then .error (.fault 0x3B 0 v) else .ok ok
      else if w ≤ 4 then
        let p := nodePort va.toNat (w - 1)
        if w - 1 > hdrArity h then .error (.fault 0x3A 0 (w64 p)) else
        match s.nodeWord t va.toNat (8 * w) with
        | .error e => .error e
        | .ok old =>
          if (s.heldPorts ++ s.principals).contains p || linkState old == sHole then .error (.fault 0x3E 0 (w64 p))
          else if fld v.toNat 61 57 != 0 || fld v.toNat 5 2 != 0 then .error (.fault 0x3B 0 v)
          else .ok ok
      else .ok ok

/-- The port of an NLINK operand: the node's checks, then its index against the arity. -/
def State.linkPort (s : State) (va : W64) (i : Nat) : Except XF (Tr × Nat) :=
  match s.liveNode va true with
  | .error e => .error e
  | .ok (t, h) =>
    let p := nodePort va.toNat i
    if i > hdrArity h then .error (.fault 0x3A 0 (w64 p)) else .ok (t, p)

/-- A port in port role is free for it: NIL, a principal of the pair, or a held port whose wire role is used (15 R241). -/
def State.portRole (s : State) (t : Tr) (p : Nat) (wires ports : List Nat) : Except XF Unit :=
  match (s.nodeHome t).nodeWord t (portNode p) (p % 64) with
  | .error e => .error e
  | .ok w =>
    let ok := linkState w == sNil || s.principals.contains p || (s.heldPorts.contains p && wires.contains p)
    if ports.contains p || !ok then .error (.fault 0x3E 0 (w64 p)) else .ok ()

/-- NLINK: func names the roles, `.pp`, `.wp`, `.pw`, `.ww`. -/
def execNlink (o : NET) (s : State) : Out :=
  checked o.g o.gs s fun s =>
    let wireA := o.func == 1 || o.func == 3
    let wireB := o.func == 2 || o.func == 3
    match s.linkPort (s.x o.a) o.pa.toNat, s.linkPort (s.x o.b) o.pb.toNat with
    | .error e, _ => .error e
    | _, .error e => .error e
    | .ok (ta, p), .ok (tb, q) =>
      let used := s.rolesUsed true
      let taken := s.rolesUsed false
      let lacks := fun (r : Nat) (before : List Nat) => !s.heldPorts.contains r || before.contains r
      if wireA && lacks p used then .error (.fault 0x3D 0 (w64 p))
      else if wireB && lacks q (if wireA then p :: used else used) then .error (.fault 0x3D 0 (w64 q))
      else
        let wires := (if wireA then [p] else []) ++ (if wireB then [q] else []) ++ used
        match (if wireA then .ok () else s.portRole ta p wires taken) with
        | .error e => .error e
        | .ok _ =>
          match (if wireB then .ok () else s.portRole tb q wires (if wireA then taken else p :: taken)) with
          | .error e => .error e
          | .ok _ =>
            .ok (((s.nodeHome ta).nodeHome tb).holdAll
              [.release false, .nlink (p, wireA) (q, wireB) s.me.regs.colour s.me.lvlS])

/-- An earlier instruction of the block has released the pair. -/
def State.released (s : State) : Bool := s.blk.held.any fun h => match h with | .nrel _ => true | _ => false

/-- NPUSH and NPUSH.rel; a push is a release at `.package` (15 R235). NPUSH.rel needs a pair that no earlier instruction of the block
has released; it clears tstat.pair (19 R280), as later instructions of the block see it. -/
def execNpush (o : NET) (s : State) : Out :=
  checked o.g o.gs s fun s =>
    if o.func == 1 then
      if s.me.claim.isNone || s.released then .error (.fault 0x3D 0 0)
      else .ok ((s.holdAll [.release false, .nrel s.me.lvlS]).setW { s.w with tstat := s.w.tstat &&& 0b101111 })
    else
      match s.liveNode (s.x o.a) false, s.liveNode (s.x o.b) false with
      | .error e, _ => .error e
      | _, .error e => .error e
      | .ok _, .ok _ =>
        .ok (s.holdAll [.release false,
          .npush { a := s.x o.a, b := s.x o.b, colour := s.me.regs.colour, launch := false }])

/-- NPOP: the head of the core's own bag, an acquire at `.package` (15 R235). The hardware entries are refilled once the block
commits, since a discard gives the entry back. An entry read from poisoned memory discards the block (19 R292). -/
def execNpop (o : NET) (s : State) : Out :=
  checked o.g o.gs s fun s =>
    match s.me.bag with
    | [] => .ok ((s.setX o.d 0).setX o.a 0)
    | p :: rest =>
      match p.mark with
      | some v => .error (.fault 0x0B 0 v)
      | none =>
        let s := s.setMe { s.me with bag := rest }
        .ok ((((s.l1DropAll s.cur).hold (.npop p)).setX o.d p.a).setX o.a (if p.launch then 0 else p.b))

/-- NRULE.look. -/
def execNruleLook (o : NET) (s : State) : Out :=
  checked o.g o.gs s fun s =>
    let k : NetCtx := { n := s.cur, c := s.myColour, lvlS := true }
    match (lookupRule k ((s.x o.a).toNat % 4096) ((s.x o.b).toNat % 4096)).runOn s with
    | (.error e, _) => .error e
    | (.ok r, s) => .ok (s.setX o.d (match r with | some q => w64 q.1 | none => 0))

/-- The table that NRULE.set installs lies in sealed frames where the colour's function requires it, read at S (26 R368, 18
R268). -/
def State.ruleTableSealed (s : State) (a n : Nat) : Except XF Unit :=
  if a == 0 || !s.mustBeSealed s.myColour then .ok () else
  match s.sealedPages s.myColour a (s.pages s.cur s.myColour true false .r a (16 * 2 ^ n)) with
  | .error e => .error e
  | .ok _ => .ok ()

/-- NRULE.set. -/
def execNruleSet (o : NET) (s : State) : Out :=
  checked o.g o.gs s fun s =>
    let a := s.x o.a
    let b := s.x o.b
    let n := b.toNat % 16
    if b.toNat ≥ 16 || n < 4 || n > 11 || a.toNat % (16 * 2 ^ n) != 0 then .error (.fault 0x40 0 b)
    else
      match s.ruleTableSealed a.toNat n with
      | .error e => .error e
      | .ok _ => .ok (s.hold (.nruleSet a n))

/-- NRULE.inv. -/
def execNruleInv (o : NET) (s : State) : Out := plain o.g o.gs s fun s => s.hold .nruleInv

/-- The cores that share a rule table: those of the partition with core n's owner tag. -/
def State.ruleCores (s : State) (n : Nat) : List Nat := (List.range 1024).filter fun m => s.sameOwner n m

/-- The delivery of NRULE.set: the table is installed for those cores, whose caches are emptied; X[a] = 0 removes it. -/
def State.nruleDeliver (s : State) (n : Nat) (base : W64) (size : Nat) : State :=
  (s.ruleCores n).foldl (fun s m =>
    s.setCore m { s.core m with rtab := if base = 0 then none else some (base, size), rcache := [] }) s

/-- The delivery of NRULE.inv. -/
def State.nruleInvDeliver (s : State) (n : Nat) : State :=
  (s.ruleCores n).foldl (fun s m =>
    if (s.core m).rcache.isEmpty then s else s.setCore m { s.core m with rcache := [] }) s

end Sys2Proof.Machine
end

