-- ==== Sys2Proof/Machine/Fire.lean ====
section
/-!
DEFINITION. How an element acts (09 R154, R155): the choice of a ready set, results and their flags, the tokens it still owes,
converter counts (03 R45 to R47), and contexts (08 R140).
-/
namespace Sys2Proof.Machine

/-! ## Values in lanes (03 R41) -/

/-- Type code of a token format's lanes. -/
def laneTy (fmt : Nat) : Nat :=
  match fmt with | 0 => 4 | 1 => 5 | 2 => 8 | 3 => 9 | 4 => 0xA | 5 => 0xB | _ => 0xC
/-- Lanes of a token format. -/
def lanes (fmt : Nat) : Nat := 32 / Fp.tyBits (laneTy fmt)
/-- Lane i of a value. -/
def laneOf (fmt i v : Nat) : Nat := v / 2 ^ (i * Fp.tyBits (laneTy fmt)) % 2 ^ Fp.tyBits (laneTy fmt)
/-- A value from its lanes, lane 0 first. -/
def joinLanes (fmt : Nat) : List Nat → Nat
  | [] => 0
  | x :: t => x % 2 ^ Fp.tyBits (laneTy fmt) + 2 ^ Fp.tyBits (laneTy fmt) * joinLanes fmt t
def isFloatFmt (fmt : Nat) : Bool := fmt ≥ 2

/-! ## Results (09 R155) -/

/-- A result with the tag of the set, and eor, eos and poison the OR over the queue operands. -/
def ElemSlot.result (v : ElemSlot) (ops : List Token) (fmt value : Nat) : Token :=
  let q := v.queueOps ops
  let t := ops.headD blankTok
  { t with value := w32 value, fmt := BitVec.ofNat 3 fmt, eor := q.any (·.eor), eos := q.any (·.eos), poison := q.any (·.poison),
           bubble := false, gen := v.gen }

/-- The value of a new bubble has no meaning: a free value (08 R136, log 7). -/
def State.freshBubble (s : State) (t : Token) : State × Token :=
  ({ s with free := s.free + 1 }, { t with value := Config.bubbleValue s.free, bubble := true })

/-- Some queue operand is a bubble. -/
def ElemSlot.anyBubble (v : ElemSlot) (ops : List Token) : Bool := (v.queueOps ops).any (·.bubble)

/-- The inputs whose token format an operation checks (09 R176 and the entries). -/
def checkedInputs (op : Nat) : List Nat :=
  match op with
  | 0x01 | 0x02 | 0x06 | 0x07 | 0x30 | 0x3C | 0x40 | 0x41 | 0x45 => []
  | 0x03 | 0x27 | 0x28 | 0x42 | 0x43 | 0x44 | 0x46 | 0x47 | 0x48 => [0]
  | 0x05 | 0x31 | 0x32 => [1]
  | 0x1B => [0, 1]
  | _ => [0, 1, 2, 3]

/-- The format a checked operand must have: CVT's source format is in opx. -/
def ElemSlot.wantFmt (v : ElemSlot) : Nat := if v.op.toNat == 0x27 then v.cfg.opx.toNat else v.cfg.fmt.toNat

/-- A checked operand that came through a queue has another format (09 R176). -/
def ElemSlot.formatBad (v : ElemSlot) (ops : List Token) : Bool :=
  !v.anyBubble ops && (checkedInputs v.op.toNat).any fun i =>
    match ops[i]? with
    | some t => !v.cfg.cinBit i && t.fmt.toNat != v.wantFmt
    | none => false

/-! ## What a set needs in order to fire (09 R154) -/

/-- The input MERGE takes next: the older head, input 0 on a tie (09 R169). -/
def Entry.mergeInput (e : Entry) : Nat :=
  match e.at 0, e.at 1 with
  | [], _ => 1
  | _, [] => 0
  | a :: _, b :: _ => if a.stamp ≤ b.stamp then 0 else 1

/-- The arms of a STEER: both for a bubble predicate, out1 for a poisoned one, else by the predicate's 32 bits. -/
def steerArms (p : Token) : Bool × Bool :=
  if p.bubble then (true, true)
  else if p.poison || p.value == 0 then (false, true) else (true, false)

/-- The policy of a ROUTE's row, and the outputs the selector bits name (22 R310). -/
def Entry.policy (e : Entry) : Nat :=
  match e.row with
  | .route p => p
  | _ => match e.at 0 with | a :: _ => a.tok.value.toNat % 16 | [] => 0
def routeArms (const : W32) (policy : Nat) : Bool × Bool :=
  match fld const.toNat (2 * policy + 1) (2 * policy) with
  | 0 => (true, false) | 1 => (false, true) | 2 => (true, true) | _ => (false, false)

/-- The mask of the outputs that are used. -/
def ElemSlot.masks (v : ElemSlot) (u : Bool × Bool) : BitVec 6 :=
  (if u.1 then v.cfg.out0 else 0) ||| (if u.2 then v.cfg.out1 else 0)

/-- Destinations of the outputs that a firing of a set uses. -/
def ElemSlot.usedMask (v : ElemSlot) (e : Entry) : BitVec 6 :=
  let ops := v.operands e
  let t := ops.headD blankTok
  if v.op.toNat != 0x04 && v.formatBad ops then 0 else
  match v.op.toNat with
  | 0x01 | 0x02 | 0x32 => v.masks (true, true)
  | 0x03 => v.masks (steerArms ((ops[1]?).getD blankTok))
  | 0x04 =>
    match (e.at e.mergeInput).head? with
    | some a => if a.tok.fmt == v.cfg.fmt then v.cfg.out0 else 0
    | none => 0
  | 0x27 =>
    if lanes v.cfg.opx.toNat ≥ lanes v.cfg.fmt.toNat || t.bubble || t.eor || t.eos then v.cfg.out0 else
    match Sp.find? v.groups t.colour.toNat with
    | some g => if g.lanes.length + lanes v.cfg.opx.toNat ≥ lanes v.cfg.fmt.toNat then v.cfg.out0 else 0
    | none => 0
  | 0x28 => if t.eor then v.cfg.out0 else 0
  | 0x41 => v.masks (routeArms v.cfg.const e.policy)
  | 0x42 => if e.row == .spDrain then 0 else v.cfg.out0
  | 0x43 => if t.eor then v.masks (true, true) else 0
  | 0x40 => 0
  | _ => v.cfg.out0

/-- The lowest free context number of a partition (08 R140). -/
def State.freeCtx (s : State) (p : Nat) : Option Nat :=
  (List.range 1023).map (· + 1) |>.find? fun n => (Sp.find? s.ctxs (p * 1024 + n)).isNone

def State.elemPart (s : State) (e : Nat) : Nat := s.partid (elemCore e)

/-- The vane unit of a core is at work on a write that waits for bytes of another device: its elements begin no row (23 R327). -/
def State.vaneWriting (s : State) (n : Nat) : Bool :=
  !(s.core n).vane.remote.isEmpty || s.net.reads.any (·.who == .vane n)

/-- The tokens of a row are all there: its eor has come. -/
def wholeRow (toks : List Token) : Bool := toks.getLast?.any (·.eor)

/-- The next tag of a LOOP for a (colour, context), and its live tags (08 R141). -/
def ElemSlot.tagsOf (v : ElemSlot) (c : BitVec 8) (x : BitVec 10) : LoopTags :=
  (v.loopTags.find? fun l => l.colour == c && l.context == x).getD { colour := c, context := x, next := 0, live := [] }

/-- Every destination that the firing uses has room for its result's key; a CALL also needs a context and a key. A LOOP takes
a matched set once the earlier sequences of the pair have closed: they run one after another (09, LOOP), so no set of the pair
waits but in the matching store (14 R224). It needs room for the closing token and, where it issues, for the first tag. -/
def State.canFire (s : State) (e sl : Nat) (ent : Entry) : Bool :=
  let v := s.slot e sl
  match v.op.toNat with
  | 0x05 =>
    let ops := v.operands ent
    if v.anyBubble ops then s.room e sl v.cfg.out0 ent.key else v.formatBad ops ||
      (!(v.loops.any fun r => r.count.colour == ent.key.colour && r.count.context == ent.key.context) &&
        s.room e sl v.cfg.out1 ent.key &&
        (opnds ops 0 == 0 ||
          s.roomBorn e sl v.cfg.out0 { ent.key with iter := some (BitVec.ofNat 14 (v.tagsOf ent.key.colour ent.key.context).next) }))
  | 0x06 =>
    if v.anyBubble (v.operands ent) then s.room e sl v.cfg.out0 ent.key else
    match s.freeCtx (s.elemPart e) with
    | none => false
    | some n =>
      let k : Key := { ent.key with context := BitVec.ofNat 10 n, iter := some 0 }
      s.roomBorn e sl v.cfg.out0 k
  | 0x07 =>
    if v.anyBubble (v.operands ent) then s.room e sl v.cfg.out0 ent.key else
    match Sp.find? s.ctxs (s.elemPart e * 1024 + ent.key.context.toNat) with
    | none => true
    | some c =>
      c.freeing || s.room e sl v.cfg.out0 { ent.key with context := c.callerCtx, iter := some c.callerIter }
  | 0x48 =>
    match ent.row with
    | .vane toks _ _ _ => !wholeRow toks
    | .vanePass => v.formatBad (v.operands ent) || s.room e sl v.cfg.out0 ent.key
    | _ =>
      let t := (v.operands ent).headD blankTok
      let on := (Sp.get 0 (s.core (elemCore e)).vane.cfg (v.cfg.opx.toNat % 4)).getLsbD 63
      !s.vaneWriting (elemCore e) && ((on && !(t.bubble && t.eor)) || v.formatBad [t] || s.room e sl v.cfg.out0 ent.key)
  | _ => s.room e sl (v.usedMask ent) ent.key

/-- A key whose tokens are still to leave keeps its next set waiting; count tokens keep every set waiting (03 R47). -/
def ElemSlot.blocked (v : ElemSlot) (k : Key) : Bool := v.pend.any fun p => p.count || tagOf p.tok == k

/-- Count tokens of a slot are still to leave: the element fires no set of any slot until they have (03 R47). -/
def Elem.counting (x : Elem) : Bool := x.slots.any fun v => v.2.pend.any (·.count)

/-- Sets that can fire, the one that became ready first in front. -/
def State.fireable (s : State) (e sl : Nat) : Option Entry :=
  let v := s.slot e sl
  (v.entries.filter fun x => x.ready.isSome && !v.blocked x.key && s.canFire e sl x).foldl (fun b x =>
    match b with
    | none => some x
    | some y => if x.ready.getD 0 < y.ready.getD 0 then some x else some y) none

/-- The slot whose turn it is: the first after the slot that fired last with a set that can fire (09 R154). -/
def State.turnSlot (s : State) (e : Nat) : Option Nat :=
  let last := (s.elem e).last
  ([last + 1, last + 2, last + 3, last + 4].map (· % 4)).find? fun sl =>
    (s.slot e sl).on && !(s.elem e).counting && (s.fireable e sl).isSome

/-! ## Sending results -/

/-- The converters among the elements (03 R45). -/
def ElemSlot.converter (v : ElemSlot) : Bool :=
  [0x20, 0x21, 0x22, 0x23, 0x27, 0x38, 0x39, 0x3A, 0x3B].contains v.op.toNat || (v.op == 0x28 && v.cfg.fmt == 2)

/-- The four count tokens of a colour (03 R47). -/
def ElemSlot.countToks (v : ElemSlot) (t : Token) : List Pend :=
  (List.range 4).map fun k =>
    { out1 := true, count := true, birth := false,
      tok := { value := Sp.get 0 v.counts (t.colour.toNat * 4 + k), colour := t.colour, context := t.context,
               iter := BitVec.ofNat 14 k, fmt := 1, slot := t.slot, eor := false, eos := k == 3, poison := false,
               bubble := false, gen := t.gen } }

/-- A token leaves by out0 or out1. A converter's result with eos that leaves by out0 releases its colour's count set (03
R47). -/
def State.output (s : State) (e sl : Nat) (out1 : Bool) (t : Token) : State :=
  let v := s.slot e sl
  let m := if out1 then v.cfg.out1 else v.cfg.out0
  let s := if m = 0 then s else s.send e sl m t
  if v.converter && !out1 && t.eos then
    let v := s.slot e sl
    let toks := if v.cfg.out1 = 0 then [] else v.countToks t
    s.setSlot e sl { v with pend := v.pend ++ toks, counts := v.counts.filter fun c => c.1 / 4 != t.colour.toNat }
  else s

/-- Tokens that an element owes, in order. -/
def State.owe (s : State) (e sl : Nat) (l : List (Bool × Token)) : State :=
  let v := s.slot e sl
  s.setSlot e sl { v with pend := v.pend ++ l.map fun p => { out1 := p.1, count := false, birth := false, tok := p.2 } }

/-- An owed token waits for earlier ones: of its key on its output; a count token for every earlier one of its colour. -/
def Pend.waits (p q : Pend) : Bool :=
  q.tok.colour == p.tok.colour && (p.count || q.count || (tagOf q.tok == tagOf p.tok && q.out1 == p.out1))

/-- The first owed token that may leave. -/
def State.nextOwed (s : State) (e sl : Nat) : Option Nat :=
  let v := s.slot e sl
  (List.range v.pend.length).find? fun i =>
    match v.pend[i]? with
    | none => false
    | some p =>
      let m := if p.out1 then v.cfg.out1 else v.cfg.out0
      !((v.pend.take i).any fun q => p.waits q) &&
        (if p.birth then s.roomBorn e sl m (tagOf p.tok) else s.room e sl m (tagOf p.tok))

/-- The i-th owed token leaves. -/
def State.leave (s : State) (e sl i : Nat) : State :=
  let v := s.slot e sl
  match v.pend[i]? with
  | none => s
  | some p =>
    let s := s.setSlot e sl { v with pend := v.pend.eraseIdx i }
    let s := if p.birth then s.bear v.region (tagOf p.tok) else s
    s.output e sl p.out1 p.tok

/-- Let the first owed token leave, where one may. -/
def State.leaveFirst (s : State) (e sl : Nat) : State :=
  match s.nextOwed e sl with
  | some i => s.leave e sl i
  | none => s

/-! ## A firing -/

/-- The results of a firing leave at once; where both outputs name one destination, its link moves one token a cycle and the
later result follows (09 R151). -/
def State.outputs (s : State) (e sl : Nat) : List (Bool × Token) → State
  | [] => s
  | [p] => s.output e sl p.1 p.2
  | p :: l =>
    let c := (s.slot e sl).cfg
    let s := s.output e sl p.1 p.2
    if c.out0 &&& c.out1 = 0 then l.foldl (fun s p => s.output e sl p.1 p.2) s else s.owe e sl l

/-- A firing consumes its set and sends its results. -/
def State.fireOut (s : State) (e sl : Nat) (ent : Entry) (l : List (Bool × Token)) : State :=
  (s.consume e sl ent.key).outputs e sl l

/-- A firing that ends in a fault keeping a hold (09 R168). -/
def State.fireFault (s : State) (e sl : Nat) (ent : Entry) (code : Nat) (addr : W64) (lvl : Nat) : State :=
  let ops := (s.slot e sl).operands ent
  (s.consume e sl ent.key).elemFault e sl code ops true addr lvl 0

/-- One firing with one result on out0: a bubble for a bubble operand, "operand format" for a wrong format, else `f` of the
operands gives the value and format (09 R155, R176). -/
def State.fireValue (s : State) (e sl : Nat) (ent : Entry) (f : ElemSlot → List Token → Nat × Nat) : State :=
  let v := s.slot e sl
  let ops := v.operands ent
  if v.anyBubble ops then
    let r := s.freshBubble (v.result ops v.cfg.fmt.toNat 0)
    r.1.fireOut e sl ent [(false, r.2)]
  else if v.formatBad ops then s.fireFault e sl ent 0x50 0 0
  else
    let r := f v ops
    s.fireOut e sl ent [(false, v.result ops r.2 r.1)]

/-- The turn of an element's slot: each queue's head enters the store; then a token it owes leaves, or a ready set fires (09
R152, R154). `extra` is what the operation may do besides, before a set fires. An element acts on the configuration it holds. -/
def elemTurn (op : BitVec 8) (o : ElemCfg) (s : State) (extra : State → Nat → Nat → Option State)
    (fire : State → Nat → Nat → Entry → State) : Out :=
  let e := s.curElem.toNat
  let sl := s.curSlot.toNat
  .next (if (s.slot e sl).op == op && (s.slot e sl).cfg == o then
    let s := s.acceptAll e
    match s.nextOwed e sl with
    | some i => s.leave e sl i
    | none =>
      match (if (s.elem e).counting then none else extra s e sl) with
      | some t => t
      | none =>
        match s.turnSlot e == some sl, s.fireable e sl with
        | true, some ent => fire (s.setElem e { s.elem e with last := sl }) e sl ent
        | _, _ => s
  else s)

def noExtra (_ : State) (_ _ : Nat) : Option State := none

/-! ## Converter counts (03 R45, R46) -/

/-- Count the lanes of a result of a colour. -/
def ElemSlot.countLanes (v : ElemSlot) (c : BitVec 8) (kinds : List (Option Nat)) : ElemSlot :=
  { v with counts := kinds.foldl (fun m k =>
      match k with
      | none => m
      | some k => Sp.set 0 m (c.toNat * 4 + k) (w32 (satAdd 32 (Sp.get 0 m (c.toNat * 4 + k)).toNat 1))) v.counts }

/-- Lanes of a result that are infinite or NaN. -/
def nonFinite (fmt : Nat) (raws : List Nat) : Nat :=
  ((List.range raws.length).filter fun i =>
    isFloatFmt fmt && !Fp.isFin (Fp.unpack (Fp.ofTy (laneTy fmt)) ((raws[i]?).getD 0))).foldl (fun a i => a + 2 ^ i) 0

/-- A converter's result: its lanes are counted unless it is poisoned, and with fin = 1 a lane that is not finite poisons it
and is recorded (03 R46). `raws` are the lanes that were filled. -/
def State.convResult (s : State) (e sl : Nat) (ops : List Token) (t : Token) (raws : List Nat) (kinds : List (Option Nat)) :
    State × Token :=
  let v := s.slot e sl
  if t.poison then (s, t) else
  let s := s.setSlot e sl (v.countLanes t.colour kinds)
  let bad := nonFinite t.fmt.toNat raws
  if v.cfg.fin && bad != 0 then (s.elemFault e sl 0x55 ops false 0 0 bad, { t with poison := true }) else (s, t)

/-- A firing of a converter with one result of the element's format: `f` of the operands' lane i gives the lane and its
kind. -/
def State.fireConv (s : State) (e sl : Nat) (ent : Entry) (f : ElemSlot → List Nat → Nat × Option Nat) : State :=
  let v := s.slot e sl
  let ops := v.operands ent
  let fmt := v.cfg.fmt.toNat
  if v.anyBubble ops then
    let r := s.freshBubble (v.result ops fmt 0)
    r.1.fireOut e sl ent [(false, r.2)]
  else if v.formatBad ops then s.fireFault e sl ent 0x50 0 0
  else
    let res := (List.range (lanes fmt)).map fun i => f v (ops.map fun t => laneOf fmt i t.value.toNat)
    let t := v.result ops fmt (joinLanes fmt (res.map (·.1)))
    let r := s.convResult e sl ops t (res.map (·.1)) (res.map (·.2))
    r.1.fireOut e sl ent [(false, r.2)]

/-- One lane of a floating-point converter: the exact result rounded once with the element's rm (03 R42), and its kind. -/
def fpLane (v : ElemSlot) (xs : List Nat) (f : List Fp.Val → Fp.Val × Bool) : Nat × Option Nat :=
  let F := Fp.ofTy (laneTy v.cfg.fmt.toNat)
  let ops := xs.map (Fp.unpack F)
  let r := f ops
  let q := Fp.roundTo F v.cfg.rm.toNat false r.1 r.2
  (q.raw, Fp.kind F false ops q)

def val (l : List Fp.Val) (i : Nat) : Fp.Val := (l[i]?).getD .nan

end Sys2Proof.Machine
end

