-- ==== Sys2Proof/Machine/Scalar.lean ====
section
/-!
DEFINITION. Scalar integer, immediate, address, predicate, loop-register and floating-point instructions (04), the
scalar converters and seeds and STATRD (03).
-/
namespace Sys2Proof.Machine

/-! ## Shared forms -/

/-- The operand of width w of a type, as an integer (04 R74). -/
def opInt (ty : BitVec 5) (v : W64) : Int := Fp.intOf ty.toNat v.toNat

/-- Write an exact integer result of a type: its low w bits, extended by the type (04 R74). -/
def intResult (ty : BitVec 5) (r : Int) : W64 :=
  extTy ty.toNat (Fp.tyBits ty.toNat) (Fp.low (Fp.tyBits ty.toNat) r)

/-- As `intResult`, clamped to the type's range where `.sat` is given (04 Table 04.4). -/
def satResult (ty : BitVec 5) (sat : Bool) (r : Int) : W64 :=
  intResult ty (if sat then Fp.clamp ty.toNat r else r)

/-- An integer form of two scalar operands (04 R74). -/
def intForm (o : RRR) (s : State) (f : Int → Int → W64) : Out :=
  plain o.g o.gs s fun s => s.setX o.d (f (opInt o.ty (s.x o.a)) (opInt o.ty (s.x o.b)))

/-- DIV (Table 04.4): toward zero; a zero divisor gives all ones. -/
def divInt (a b : Int) : Int := if b = 0 then -1 else a.tdiv b
/-- REM: A − B × DIV(A, B); a zero divisor gives A. -/
def remInt (a b : Int) : Int := a - b * divInt a b

/-- A shift of a type's w bits by B mod w (Table 04.4). -/
def shiftForm (o : RRR) (s : State) (f : (w a k : Nat) → Nat) : Out :=
  plain o.g o.gs s fun s =>
    let w := Fp.tyBits o.ty.toNat
    s.setX o.d (extTy o.ty.toNat w (f w ((s.x o.a).toNat % 2 ^ w) ((s.x o.b).toNat % w)))

/-- Arithmetic right shift of w bits by k. -/
def sarBits (w a k : Nat) : Nat :=
  if a ≥ 2 ^ (w - 1) then 2 ^ w - 1 - (2 ^ w - 1 - a) / 2 ^ k else a / 2 ^ k

/-- An immediate form: 64 bits, no type (04 R74). -/
def immForm (o : RRI) (s : State) (f : W64 → W64 → W64) : Out :=
  plain o.g o.gs s fun s => s.setX o.d (f (s.x o.a) (o.imm.signExtend 64))

/-- A floating-point operand of a type (03 R50). -/
def opFp (ty : BitVec 5) (v : W64) : Fp.Val :=
  Fp.unpack (Fp.ofTy ty.toNat) (v.toNat % 2 ^ Fp.tyBits ty.toNat)

/-- An exact result rounded once to a type (03 R42, R43), the bits above it zero (03 R50). -/
def fpResult (ty : BitVec 5) (rm : BitVec 2) (v : Fp.Val × Bool) : W64 :=
  w64 (Fp.roundTo (Fp.ofTy ty.toNat) rm.toNat false v.1 v.2).raw

/-- A floating-point form of two operands (04 Table 04.6). -/
def fpForm (o : RRR) (s : State) (f : Fp.Val → Fp.Val → Fp.Val × Bool) : Out :=
  plain o.g o.gs s fun s => s.setX o.d (fpResult o.ty o.rm (f (opFp o.ty (s.x o.a)) (opFp o.ty (s.x o.b))))

/-- A scalar converter: the result is written and its kind counted (03 R50, R51). -/
def cvtForm (o : RRR) (s : State) (f : Nat → W64 × Option Nat) : Out :=
  plain o.g o.gs s fun s =>
    let r := f (s.x o.a).toNat
    (s.setX o.d r.1).count r.2

/-! ## Integer operations (Table 04.4) -/

/-- ADD: A + B; with `.sat`, clamped. -/
def execAdd (o : RRR) (s : State) : Out :=
  intForm o s fun a b => satResult o.ty o.sat (a + b)

/-- SUB: A − B; with `.sat`, clamped. -/
def execSub (o : RRR) (s : State) : Out :=
  intForm o s fun a b => satResult o.ty o.sat (a - b)

/-- MUL: low w bits of A × B; with `.sat`, the exact product clamped. -/
def execMul (o : RRR) (s : State) : Out :=
  intForm o s fun a b => satResult o.ty o.sat (a * b)

/-- MULH: high w bits of the 2w-bit product. -/
def execMulh (o : RRR) (s : State) : Out :=
  intForm o s fun a b => intResult o.ty (a * b / (2 ^ Fp.tyBits o.ty.toNat : Nat))

/-- DIV: A ÷ B toward zero; B = 0 gives all ones; signed minimum ÷ −1 gives the signed minimum. -/
def execDiv (o : RRR) (s : State) : Out :=
  intForm o s fun a b => intResult o.ty (divInt a b)

/-- REM: A − B × DIV(A, B); B = 0 gives A. -/
def execRem (o : RRR) (s : State) : Out :=
  intForm o s fun a b => intResult o.ty (if b = 0 then a else remInt a b)

/-- AND: bitwise, on the type's w bits. -/
def execAnd (o : RRR) (s : State) : Out :=
  plain o.g o.gs s fun s =>
    s.setX o.d (extTy o.ty.toNat (Fp.tyBits o.ty.toNat) (s.x o.a &&& s.x o.b).toNat)

/-- OR: bitwise, on the type's w bits. -/
def execOr (o : RRR) (s : State) : Out :=
  plain o.g o.gs s fun s =>
    s.setX o.d (extTy o.ty.toNat (Fp.tyBits o.ty.toNat) (s.x o.a ||| s.x o.b).toNat)

/-- XOR: bitwise, on the type's w bits. -/
def execXor (o : RRR) (s : State) : Out :=
  plain o.g o.gs s fun s =>
    s.setX o.d (extTy o.ty.toNat (Fp.tyBits o.ty.toNat) (s.x o.a ^^^ s.x o.b).toNat)

/-- SHL: A << (B mod w). -/
def execShl (o : RRR) (s : State) : Out :=
  shiftForm o s fun _ a k => a * 2 ^ k

/-- SHR: logical right shift of the w bits. -/
def execShr (o : RRR) (s : State) : Out :=
  shiftForm o s fun _ a k => a / 2 ^ k

/-- SAR: arithmetic right shift of the w bits. -/
def execSar (o : RRR) (s : State) : Out :=
  shiftForm o s sarBits

/-- MIN: the smaller, signed or unsigned by type. -/
def execMin (o : RRR) (s : State) : Out :=
  intForm o s fun a b => intResult o.ty (if a ≤ b then a else b)

/-- MAX: the larger, signed or unsigned by type. -/
def execMax (o : RRR) (s : State) : Out :=
  intForm o s fun a b => intResult o.ty (if a ≤ b then b else a)

/-- CMP: X[d] := 1 if A cond B, else 0. -/
def execCmp (o : RRR) (s : State) : Out :=
  intForm o s fun a b => w64 (b2n (condInt o.func.toNat a b))

/-- SEL: bits of X[a] if X[c] ≠ 0 over all 64 bits, else of X[b]. -/
def execSel (o : RRR) (s : State) : Out :=
  plain o.g o.gs s fun s =>
    let v := if s.x o.c ≠ 0 then s.x o.a else s.x o.b
    s.setX o.d (extTy o.ty.toNat (Fp.tyBits o.ty.toNat) v.toNat)

/-! ## Immediate operations (Table 04.5), MOVI, MOVHI, LEA -/

/-- ADDI: X[a] + imm mod 2^64. -/
def execAddi (o : RRI) (s : State) : Out :=
  immForm o s fun a i => a + i

/-- ANDI. -/
def execAndi (o : RRI) (s : State) : Out :=
  immForm o s fun a i => a &&& i

/-- ORI. -/
def execOri (o : RRI) (s : State) : Out :=
  immForm o s fun a i => a ||| i

/-- XORI. -/
def execXori (o : RRI) (s : State) : Out :=
  immForm o s fun a i => a ^^^ i

/-- SHLI: X[a] << imm. -/
def execShli (o : RRI) (s : State) : Out :=
  immForm o s fun a i => a <<< i.toNat

/-- SHRI: logical right shift by imm. -/
def execShri (o : RRI) (s : State) : Out :=
  immForm o s fun a i => a >>> i.toNat

/-- SARI: arithmetic right shift by imm. -/
def execSari (o : RRI) (s : State) : Out :=
  immForm o s fun a i => a.sshiftRight i.toNat

/-- MOVI: X[d] := SignExtend(imm40). -/
def execMovi (o : RRI) (s : State) : Out :=
  immForm o s fun _ i => i

/-- MOVHI: (imm40[23:0] << 40) OR (X[a] AND 0xFF_FFFF_FFFF). -/
def execMovhi (o : RRI) (s : State) : Out :=
  plain o.g o.gs s fun s => s.setX o.d ((o.imm.extractLsb' 0 24).append ((s.x o.a).extractLsb' 0 40))

/-- LEA: X[d] := the address of R28, without translation or access. -/
def execLea (o : MEM) (s : State) : Out :=
  plain o.g o.gs s fun s => s.setX o.d (s.memAddr o)

/-! ## Predicates and loop registers -/

/-- PCMP: p[d] := all ones if the condition holds, else zero. -/
def execPcmp (o : RRR) (s : State) : Out :=
  plain o.g o.gs s fun s =>
    s.setP o.d (allLanes (condTy o.ty.toNat o.func.toNat (s.x o.a).toNat (s.x o.b).toNat))

/-- PLOG: the logical function of predicates on all 32 bits. -/
def execPlog (o : RRR) (s : State) : Out :=
  plain o.g o.gs s fun s =>
    s.setP o.d (match o.func.toNat with
      | 0 => s.p o.a &&& s.p o.b
      | 1 => s.p o.a ||| s.p o.b
      | 2 => s.p o.a ^^^ s.p o.b
      | 3 => s.p o.a &&& ~~~(s.p o.b)
      | _ => ~~~(s.p o.a))

/-- PMOV `.fromx`, `.tox`, `.pop`, `.low`. -/
def execPmov (o : RRR) (s : State) : Out :=
  plain o.g o.gs s fun s =>
    match o.func.toNat with
    | 0 => s.setP o.d ((s.x o.a).setWidth 32)
    | 1 => s.setX o.d ((s.p o.a).setWidth 64)
    | 2 => s.setX o.d (w64 (popCount (s.p o.a)))
    | _ => s.setX o.d (w64 (lowestBit (s.p o.a)))

/-- LREG: read or write a loop register, as the earlier instructions of the block left them. -/
def execLreg (o : RRR) (s : State) : Out :=
  checked o.g o.gs s fun s =>
    let r := s.w
    let a := s.x o.a
    match o.func.toNat with
    | 0 => .ok (s.setX o.d r.lcnt)
    | 1 => .ok (s.setX o.d r.lbeg)
    | 2 => .ok (s.setX o.d r.lend)
    | 3 => .ok (s.setX o.d (w64 (b2n r.lact)))
    | 4 => .ok (s.setW { r with lcnt := a })
    | 5 => if r.lact || a.toNat % 8 != 0 then .error (.fault 4 0 a) else .ok (s.setW { r with lbeg := a })
    | 6 => if r.lact || a.toNat % 8 != 0 then .error (.fault 4 0 a) else .ok (s.setW { r with lend := a })
    | _ => if a.getLsbD 0 && r.lbeg.toNat ≥ r.lend.toNat then .error (.fault 4 0 a)
           else .ok (s.setW { r with lact := a.getLsbD 0 })

/-! ## Scalar floating point (Table 04.6) -/

/-- FADD: a + b. -/
def execFadd (o : RRR) (s : State) : Out :=
  fpForm o s fun a b => (Fp.add o.rm.toNat a b, false)

/-- FSUB: a + (−b). -/
def execFsub (o : RRR) (s : State) : Out :=
  fpForm o s fun a b => (Fp.add o.rm.toNat a (Fp.neg b), false)

/-- FMUL: a × b. -/
def execFmul (o : RRR) (s : State) : Out :=
  fpForm o s fun a b => (Fp.mul a b, false)

/-- FDIV: a ÷ b. -/
def execFdiv (o : RRR) (s : State) : Out :=
  fpForm o s fun a b => Fp.div a b

/-- FMA: a × b + c, rounded once. -/
def execFma (o : RRR) (s : State) : Out :=
  fpForm o s fun a b => (Fp.fma o.rm.toNat a b (opFp o.ty (s.x o.c)), false)

/-- FMIN: the lesser; one NaN operand is ignored. -/
def execFmin (o : RRR) (s : State) : Out :=
  fpForm o s fun a b => (Fp.fmin a b, false)

/-- FMAX: the greater; one NaN operand is ignored. -/
def execFmax (o : RRR) (s : State) : Out :=
  fpForm o s fun a b => (Fp.fmax a b, false)

/-- FCMP: X[d] := 1 if a cond b, else 0; a NaN satisfies only `.ne`. -/
def execFcmp (o : RRR) (s : State) : Out :=
  plain o.g o.gs s fun s =>
    s.setX o.d (w64 (b2n (condTy o.ty.toNat o.func.toNat (s.x o.a).toNat (s.x o.b).toNat)))

/-! ## Scalar converters, seeds and counts (03) -/

/-- FCVT: from the type in func to the type in type (03 R42 to R44). -/
def execFcvt (o : RRR) (s : State) : Out :=
  cvtForm o s fun v =>
    let r := Fp.convert o.func.toNat o.ty.toNat o.rm.toNat o.sat v
    (extTy o.ty.toNat (Fp.tyBits o.ty.toNat) r.1, r.2)

/-- FRSQS: the reciprocal square root seed (03 R48). -/
def execFrsqs (o : RRR) (s : State) : Out :=
  cvtForm o s fun v => (w64 (Fp.rsqSeed (v % 2 ^ 32)).1, (Fp.rsqSeed (v % 2 ^ 32)).2)

/-- FRCPS: the reciprocal seed (03 R48). -/
def execFrcps (o : RRR) (s : State) : Out :=
  cvtForm o s fun v => (w64 (Fp.rcpSeed (v % 2 ^ 32)).1, (Fp.rcpSeed (v % 2 ^ 32)).2)

/-- STATRD: a converter count as it stands after every earlier committed block, with the conversions earlier in the same block
included; `.rc` also clears it at commit (03, STATRD). DESIGN CHOICE, unsafe (log 80): a later STATRD of the same block reads what `.rc`
has left, as it reads the earlier conversions. -/
def execStatrd (o : SYS) (s : State) : Out :=
  plain o.g o.gs s fun s =>
    let k := o.imm.toNat % 4
    let s' := s.setX o.d ((Sp.get 0 s.w.counts k).setWidth 64)
    if o.func == 1 then s'.setW { s'.w with counts := Sp.erase s'.w.counts k } else s'

end Sys2Proof.Machine
end

