-- ==== Sys2Proof/Machine/Transcend.lean ====
section
/-!
DEFINITION. 2^x, log₂ x and sin(π·x) for the S-elements (09 R178): the exact real result is approximated to far more
bits than a rounding needs and marked as cut off. That 400 bits after the point decide every rounding of an FP32
result is UNVERIFIED (log 12): these values are irrational except where the code names an exact one.
-/
namespace Sys2Proof.Machine.Fp

/-- Fraction bits of the approximations. -/
def prec : Nat := 440
def unit : Nat := 2 ^ prec

/-- Σ z^(2k+1) / (2k+1) in fixed point, by n terms (atanh; with alternating signs, atan). `t` is z^(2k+1). -/
def oddSeries (z2 : Nat) (alt : Bool) : Nat → Nat → Nat → Int → Int
  | 0, _, _, acc => acc
  | n + 1, k, t, acc =>
    let term : Int := (t / (2 * k + 1) : Nat)
    oddSeries z2 alt n (k + 1) (t * z2 / unit) (if alt && k % 2 == 1 then acc - term else acc + term)

/-- atanh z, z in fixed point, z ≤ 1/3. -/
def atanhFx (z : Nat) : Nat := (oddSeries (z * z / unit) false 150 0 z 0).toNat
/-- atan (1 / n). -/
def atanInv (n : Nat) : Int := oddSeries (unit / (n * n)) true 150 0 (unit / n) 0

def ln2Fx : Nat := 2 * atanhFx (unit / 3)
def piFx : Nat := (16 * atanInv 5 - 4 * atanInv 239).toNat

/-- Σ y^k / k!, by n terms; `t` is y^k / k!. -/
def expSeries (y : Nat) : Nat → Nat → Nat → Nat → Nat
  | 0, _, _, acc => acc
  | n + 1, k, t, acc => expSeries y n (k + 1) (t * y / unit / (k + 1)) (acc + t)

/-- Σ (-1)^k y^(2k+1) / (2k+1)!. -/
def sinSeries (y2 : Nat) : Nat → Nat → Nat → Int → Int
  | 0, _, _, acc => acc
  | n + 1, k, t, acc =>
    sinSeries y2 n (k + 1) (t * y2 / unit / ((2 * k + 2) * (2 * k + 3)))
      (if k % 2 == 1 then acc - (t : Int) else acc + t)

/-- 2^x: the exact value, truncated, and whether it was cut off (Table 09.10). -/
def exp2 (x : Val) : Val × Bool :=
  match x with
  | .nan => (.nan, false)
  | .inf s => (if s then .fin false 0 0 else .inf false, false)
  | .fin s m e =>
    if m == 0 then (.fin false 1 0, false) else
    if e ≥ 0 then
      let n : Int := (m <<< e.toNat : Nat)
      (.fin false 1 (if s then -n else n), false)
    else
      let d := (-e).toNat
      let fl := m / 2 ^ d
      let fr := m % 2 ^ d
      if fr == 0 then (.fin false 1 (if s then -(fl : Int) else fl), false) else
      -- x = n + f / 2^d with 0 < f < 2^d
      let n : Int := if s then -(fl : Int) - 1 else fl
      let f := if s then 2 ^ d - fr else fr
      let y := (f <<< prec) / 2 ^ d * ln2Fx / unit
      (.fin false (expSeries y 110 0 unit 0) (n - prec), true)

/-- log₂ x (Table 09.10). -/
def log2 (x : Val) : Val × Bool :=
  match x with
  | .nan => (.nan, false)
  | .inf s => (if s then .nan else .inf false, false)
  | .fin s m e =>
    if m == 0 then (.inf true, false) else
    if s then (.nan, false) else
    let l := Nat.log2 m
    let n : Int := e + l
    if m == 2 ^ l then (.fin (n < 0) n.natAbs 0, false) else
    let z := ((m - 2 ^ l) <<< prec) / (m + 2 ^ l)
    let v : Int := n * (unit : Int) + (2 * atanhFx z * unit / ln2Fx : Nat)
    (.fin (v < 0) v.natAbs (-(prec : Int)), true)

/-- sin (π·x) (Table 09.10): an exact zero takes the sign of x. -/
def sinPi (x : Val) : Val × Bool :=
  match x with
  | .nan | .inf _ => (.nan, false)
  | .fin s m e =>
    if m == 0 || e ≥ 0 then (.fin s 0 0, false) else
    let d := (-e).toNat
    let fl := m / 2 ^ d
    let fr := m % 2 ^ d
    if fr == 0 then (.fin s 0 0, false) else
    let neg := s != (fl % 2 == 1)
    -- sin (π·t) with t = fr / 2^d, folded about one half
    let t := if 2 * fr > 2 ^ d then 2 ^ d - fr else fr
    if 2 * t == 2 ^ d then (.fin neg 1 0, false) else
    let y := t * piFx / 2 ^ d
    let v := sinSeries (y * y / unit) 80 0 y 0
    (.fin neg v.toNat (-(prec : Int)), true)

end Sys2Proof.Machine.Fp
end

