-- ==== Sys2Proof/Machine/Elements.lean ====
section
/-!
DEFINITION. The operations of A- and S-elements (09 R176, R178; 03 R52, R53; 08 R140, R141; 22 R310 to R315).
-/
namespace Sys2Proof.Machine

/-! ## Copies, arms and merges -/

/-- The results of a firing whose token goes out on the outputs named. -/
def arms (u : Bool × Bool) (t : Token) : List (Bool × Token) :=
  (if u.1 then [(false, t)] else []) ++ (if u.2 then [(true, t)] else [])

/-- PASS: the operand unchanged on both outputs. -/
def execPassE (o : ElemCfg) (s : State) : Out :=
  elemTurn 0x01 o s noExtra fun s e sl ent =>
    let v := s.slot e sl
    let t := (v.operands ent).headD blankTok
    s.fireOut e sl ent (arms (true, true) { t with gen := v.gen })

/-- CONST: const with the trigger's tag and flags, in the element's format. -/
def execConstE (o : ElemCfg) (s : State) : Out :=
  elemTurn 0x02 o s noExtra fun s e sl ent =>
    let v := s.slot e sl
    let ops := v.operands ent
    if v.anyBubble ops then
      let r := s.freshBubble (v.result ops v.cfg.fmt.toNat 0)
      r.1.fireOut e sl ent (arms (true, true) r.2)
    else s.fireOut e sl ent (arms (true, true) (v.result ops v.cfg.fmt.toNat v.cfg.const.toNat))

/-- STEER: input 0 on out0 if input 1 is nonzero, else on out1; a bubble predicate sends one bubble to each arm. -/
def execSteerE (o : ElemCfg) (s : State) : Out :=
  elemTurn 0x03 o s noExtra fun s e sl ent =>
    let v := s.slot e sl
    let ops := v.operands ent
    let p := (ops[1]?).getD blankTok
    let t := ops.headD blankTok
    if v.anyBubble ops || p.bubble then
      let r := s.freshBubble (v.result ops v.cfg.fmt.toNat 0)
      r.1.fireOut e sl ent (arms (steerArms p) r.2)
    else if v.formatBad ops then s.fireFault e sl ent 0x50 0 0
    else
      let w := v.result ops v.cfg.fmt.toNat t.value.toNat
      s.fireOut e sl ent (arms (steerArms p) { w with poison := w.poison || p.poison })

/-- MERGE: the older head of either input; every token it fires must have its format (09 R169, R176). -/
def execMergeE (o : ElemCfg) (s : State) : Out :=
  elemTurn 0x04 o s noExtra fun s e sl ent =>
    let v := s.slot e sl
    let i := ent.mergeInput
    match (ent.at i).head? with
    | none => s
    | some a =>
      let s := s.consumeAt e sl ent.key i 1
      if a.tok.fmt != v.cfg.fmt then s.elemFault e sl 0x50 [a.tok] true 0 0 0
      else s.output e sl false { a.tok with gen := v.gen }

/-- SEL: input 0 if the raw bits of input 2 are nonzero, else input 1. -/
def execSelE (o : ElemCfg) (s : State) : Out :=
  elemTurn 0x1B o s noExtra fun s e sl ent =>
    s.fireValue e sl ent fun v ops => (if opnds ops 2 != 0 then opnds ops 0 else opnds ops 1, v.cfg.fmt.toNat)

/-! ## LOOP, CALL, RET (08 R140, R141) -/

def ElemSlot.setTags (v : ElemSlot) (l : LoopTags) : ElemSlot :=
  { v with loopTags := l :: v.loopTags.filter fun k => !(k.colour == l.colour && k.context == l.context) }

/-- MayIssue (08 R141): overlap depth D, no live use of the tag, quota. -/
def State.mayIssue (s : State) (e sl : Nat) (c : BitVec 8) (x : BitVec 10) : Bool :=
  let v := s.slot e sl
  let l := v.tagsOf c x
  l.live.length < v.cfg.const.toNat % 128 && !l.live.contains l.next && (s.region v.region).live c.toNat < (s.region v.region).quota c.toNat

/-- The token a run issues next, or its closing token on out1. -/
def ElemSlot.loopTok (v : ElemSlot) (r : LoopRun) : Token :=
  let n := r.count.value.toNat
  if r.k < n then
    { r.seed with value := w32 (r.seed.value.toNat + r.k), colour := r.count.colour, context := r.count.context,
                  iter := BitVec.ofNat 14 (v.tagsOf r.count.colour r.count.context).next, fmt := v.cfg.fmt, eor := true,
                  eos := r.k + 1 == n && r.seed.eos, poison := r.count.poison || r.seed.poison, bubble := false, gen := v.gen }
  else { r.count with fmt := v.cfg.fmt, gen := v.gen }

/-- A run is the first of its (colour, context) and may make its next step. -/
def State.loopMay (s : State) (e sl i : Nat) : Bool :=
  let v := s.slot e sl
  match v.loops[i]? with
  | none => false
  | some r =>
    let t := v.loopTok r
    !((v.loops.take i).any fun q => q.count.colour == r.count.colour && q.count.context == r.count.context) &&
      (if r.k < r.count.value.toNat then s.mayIssue e sl r.count.colour r.count.context && s.roomBorn e sl v.cfg.out0 (tagOf t)
       else s.room e sl v.cfg.out1 (tagOf t))

/-- One issue of a LOOP, or the token that closes a run. -/
def State.loopIssue (s : State) (e sl : Nat) : Option State :=
  let v := s.slot e sl
  match (List.range v.loops.length).find? fun i => s.loopMay e sl i with
  | none => none
  | some i =>
    match v.loops[i]? with
    | none => none
    | some r =>
      let t := v.loopTok r
      if r.k < r.count.value.toNat then
        let l := v.tagsOf r.count.colour r.count.context
        let v := v.setTags { l with next := (l.next + 1) % 16384, live := l.live ++ [l.next] }
        let s := s.setSlot e sl { v with loops := v.loops.set i { r with k := r.k + 1 } }
        some ((s.bear v.region (tagOf t)).output e sl false t)
      else some ((s.setSlot e sl { v with loops := v.loops.eraseIdx i }).output e sl true t)

/-- The seed of a run: a kept seed passes none of its flags on (09 R155). -/
def ElemSlot.loopSeed (v : ElemSlot) (ops : List Token) : Token :=
  let t := (ops[1]?).getD blankTok
  if v.queued 1 then t else { t with eor := false, eos := false, poison := false, bubble := false }

/-- LOOP: a matched (count, seed) starts an issue sequence. -/
def execLoopE (o : ElemCfg) (s : State) : Out :=
  elemTurn 0x05 o s State.loopIssue fun s e sl ent =>
    let v := s.slot e sl
    let ops := v.operands ent
    if v.anyBubble ops then
      let r := s.freshBubble (v.result ops v.cfg.fmt.toNat 0)
      r.1.fireOut e sl ent [(false, r.2)]
    else if v.formatBad ops then s.fireFault e sl ent 0x50 0 0
    else
      let s := s.consume e sl ent.key
      let v := s.slot e sl
      s.setSlot e sl { v with loops := v.loops ++ [{ count := ops.headD blankTok, seed := v.loopSeed ops, k := 0 }] }

/-- CALL: the lowest free context, with the caller's tag recorded; the key (c, n, 0) is born (08 R140, R143). -/
def execCallE (o : ElemCfg) (s : State) : Out :=
  elemTurn 0x06 o s noExtra fun s e sl ent =>
    let v := s.slot e sl
    let ops := v.operands ent
    let t := v.result ops v.cfg.fmt.toNat (opnds ops 0)
    if v.anyBubble ops then
      let r := s.freshBubble t
      r.1.fireOut e sl ent [(false, r.2)]
    else
      let p := s.elemPart e
      match s.freeCtx p with
      | none => s
      | some n =>
        let c : Ctx := { callerCtx := t.context, callerIter := t.iter, region := v.region, colour := t.colour, freeing := false, quiet := 0 }
        let s := s.consume e sl ent.key
        let s := { s with ctxs := Sp.put s.ctxs (p * 1024 + n) c,
                          expect := s.expect.filter fun x => !(x.1 % 1024 == n && s.partid (x.1 / 1024 / 256 / 64) == p) }
        let t := { t with context := BitVec.ofNat 10 n, iter := 0 }
        (s.bear v.region (tagOf t)).output e sl false t

/-- RET: the caller's tag; the context starts freeing. A context that is free or freeing is a fault (08 R140). -/
def execRetE (o : ElemCfg) (s : State) : Out :=
  elemTurn 0x07 o s noExtra fun s e sl ent =>
    let v := s.slot e sl
    let ops := v.operands ent
    let t := v.result ops v.cfg.fmt.toNat (opnds ops 0)
    if v.anyBubble ops then
      let r := s.freshBubble t
      r.1.fireOut e sl ent [(false, r.2)]
    else
      let k := s.elemPart e * 1024 + t.context.toNat
      match Sp.find? s.ctxs k with
      | none => s.fireFault e sl ent 0x53 0 0
      | some c =>
        if c.freeing then s.fireFault e sl ent 0x53 0 0
        else
          let s := s.consume e sl ent.key
          { s with ctxs := Sp.put s.ctxs k { c with freeing := true, quiet := 0 } }.output e sl false
            { t with context := c.callerCtx, iter := c.callerIter }

/-! ## Integer operations (Table 09.9) -/

/-- An integer operation of the element's format on the first two operands. -/
def intElem (op : BitVec 8) (o : ElemCfg) (s : State) (f : (ty a b : Nat) → Nat) : Out :=
  elemTurn op o s noExtra fun s e sl ent =>
    s.fireValue e sl ent fun v ops => (f (laneTy v.cfg.fmt.toNat) (opnds ops 0) (opnds ops 1) % 2 ^ 32, v.cfg.fmt.toNat)

/-- ADD. -/
def execAddE (o : ElemCfg) (s : State) : Out := intElem 0x10 o s fun _ a b => a + b
/-- SUB. -/
def execSubE (o : ElemCfg) (s : State) : Out := intElem 0x11 o s fun _ a b => a + 2 ^ 32 - b
/-- MUL: low 32 bits. -/
def execMulE (o : ElemCfg) (s : State) : Out := intElem 0x12 o s fun _ a b => a * b
/-- MIN. -/
def execMinE (o : ElemCfg) (s : State) : Out := intElem 0x13 o s fun ty a b => if Fp.intOf ty a ≤ Fp.intOf ty b then a else b
/-- MAX. -/
def execMaxE (o : ElemCfg) (s : State) : Out := intElem 0x14 o s fun ty a b => if Fp.intOf ty a ≤ Fp.intOf ty b then b else a
/-- AND. -/
def execAndE (o : ElemCfg) (s : State) : Out := intElem 0x15 o s fun _ a b => a &&& b
/-- OR. -/
def execOrE (o : ElemCfg) (s : State) : Out := intElem 0x16 o s fun _ a b => a ||| b
/-- XOR. -/
def execXorE (o : ElemCfg) (s : State) : Out := intElem 0x17 o s fun _ a b => a ^^^ b
/-- SHL by b mod 32. -/
def execShlE (o : ElemCfg) (s : State) : Out := intElem 0x18 o s fun _ a b => a * 2 ^ (b % 32)
/-- SHR by b mod 32: arithmetic with fmt 0, logical with fmt 1. -/
def execShrE (o : ElemCfg) (s : State) : Out :=
  intElem 0x19 o s fun ty a b => if ty == 4 then sarBits 32 a (b % 32) else a / 2 ^ (b % 32)
/-- CMP: 1 if a cond b, else 0. -/
def execCmpE (o : ElemCfg) (s : State) : Out := intElem 0x1A o s fun ty a b => b2n (condTy ty o.opx.toNat a b)

/-- STAT (03 R53): the sum stops at all ones; eor is clear. -/
def execStatE (o : ElemCfg) (s : State) : Out :=
  elemTurn 0x3F o s noExtra fun s e sl ent =>
    let v := s.slot e sl
    let ops := v.operands ent
    if v.anyBubble ops then
      let r := s.freshBubble (v.result ops 1 0)
      r.1.fireOut e sl ent [(false, r.2)]
    else if v.formatBad ops then s.fireFault e sl ent 0x50 0 0
    else s.fireOut e sl ent [(false, { v.result ops 1 (satAdd 32 (opnds ops 0) (opnds ops 1)) with eor := false })]

/-! ## Floating point (Table 04.6 lane by lane) -/

/-- FADD. -/
def execFaddE (o : ElemCfg) (s : State) : Out :=
  elemTurn 0x20 o s noExtra fun s e sl ent => s.fireConv e sl ent fun v x =>
    fpLane v x fun l => (Fp.add v.cfg.rm.toNat (val l 0) (val l 1), false)
/-- FSUB. -/
def execFsubE (o : ElemCfg) (s : State) : Out :=
  elemTurn 0x21 o s noExtra fun s e sl ent => s.fireConv e sl ent fun v x =>
    fpLane v x fun l => (Fp.add v.cfg.rm.toNat (val l 0) (Fp.neg (val l 1)), false)
/-- FMUL. -/
def execFmulE (o : ElemCfg) (s : State) : Out :=
  elemTurn 0x22 o s noExtra fun s e sl ent => s.fireConv e sl ent fun v x =>
    fpLane v x fun l => (Fp.mul (val l 0) (val l 1), false)
/-- FMA. -/
def execFmaE (o : ElemCfg) (s : State) : Out :=
  elemTurn 0x23 o s noExtra fun s e sl ent => s.fireConv e sl ent fun v x =>
    fpLane v x fun l => (Fp.fma v.cfg.rm.toNat (val l 0) (val l 1) (val l 2), false)

/-- FMIN and FMAX, which count nothing. -/
def minMaxElem (op : BitVec 8) (o : ElemCfg) (s : State) (f : Fp.Val → Fp.Val → Fp.Val) : Out :=
  elemTurn op o s noExtra fun s e sl ent =>
    s.fireValue e sl ent fun v ops =>
      let fmt := v.cfg.fmt.toNat
      let F := Fp.ofTy (laneTy fmt)
      (joinLanes fmt ((List.range (lanes fmt)).map fun i =>
        (Fp.roundTo F 0 false (f (Fp.unpack F (laneOf fmt i (opnds ops 0))) (Fp.unpack F (laneOf fmt i (opnds ops 1)))) false).raw), fmt)
/-- FMIN. -/
def execFminE (o : ElemCfg) (s : State) : Out := minMaxElem 0x24 o s Fp.fmin
/-- FMAX. -/
def execFmaxE (o : ElemCfg) (s : State) : Out := minMaxElem 0x25 o s Fp.fmax

/-- FCMP: bit j of a token of format 0 is 1 when lane j meets the condition. -/
def execFcmpE (o : ElemCfg) (s : State) : Out :=
  elemTurn 0x26 o s noExtra fun s e sl ent =>
    s.fireValue e sl ent fun v ops =>
      let fmt := v.cfg.fmt.toNat
      ((List.range (lanes fmt)).foldl (fun a i =>
        a + b2n (condTy (laneTy fmt) v.cfg.opx.toNat (laneOf fmt i (opnds ops 0)) (laneOf fmt i (opnds ops 1))) * 2 ^ i) 0, 0)

/-- SDIV (Table 09.10). -/
def execSdivE (o : ElemCfg) (s : State) : Out :=
  elemTurn 0x38 o s noExtra fun s e sl ent => s.fireConv e sl ent fun v x => fpLane v x fun l => Fp.div (val l 0) (val l 1)
/-- SEXP2. -/
def execSexp2E (o : ElemCfg) (s : State) : Out :=
  elemTurn 0x39 o s noExtra fun s e sl ent => s.fireConv e sl ent fun v x => fpLane v x fun l => Fp.exp2 (val l 0)
/-- SLOG2. -/
def execSlog2E (o : ElemCfg) (s : State) : Out :=
  elemTurn 0x3A o s noExtra fun s e sl ent => s.fireConv e sl ent fun v x => fpLane v x fun l => Fp.log2 (val l 0)
/-- SSIN. -/
def execSsinE (o : ElemCfg) (s : State) : Out :=
  elemTurn 0x3B o s noExtra fun s e sl ent => s.fireConv e sl ent fun v x => fpLane v x fun l => Fp.sinPi (val l 0)

/-- STAB: entry min(raw index, 255) of the element's table. -/
def execStabE (o : ElemCfg) (s : State) : Out :=
  elemTurn 0x3C o s noExtra fun s e sl ent =>
    s.fireValue e sl ent fun v ops => (((v.table[Nat.min (opnds ops 0) 255]?).getD 0).toNat, v.cfg.fmt.toNat)

/-! ## ACC and CVT -/

/-- The partial of an ACC after one more value: modulo 2^32, or the first value exactly and then one rounding an addition. -/
def accAdd (fmt rm : Nat) (vals : List W32) (sum v : W32) : W32 :=
  if vals.isEmpty then v
  else if fmt == 2 then w32 (Fp.roundTo .f32 rm false (Fp.add rm (Fp.unpack .f32 sum.toNat) (Fp.unpack .f32 v.toNat)) false).raw
  else sum + v

/-- The row result of an ACC with fmt 2: its word, and the kind of its one lane, with the exact sum of the row as the exact
result (03 R45). -/
def accResult (vals : List W32) (sum : W32) : Nat × Option Nat :=
  let xs := vals.map fun v => Fp.unpack .f32 v.toNat
  let exact := xs.foldl (fun a x => Fp.add 0 a x) (.fin true 0 0)
  let raw := Fp.oneNan .f32 sum.toNat
  (raw, Fp.kind .f32 false xs ⟨raw, false, Fp.isZero (Fp.unpack .f32 raw) && !Fp.isZero exact⟩)

/-- ACC: one result for each row, at its eor. -/
def execAccE (o : ElemCfg) (s : State) : Out :=
  elemTurn 0x28 o s noExtra fun s e sl ent =>
    let v := s.slot e sl
    let ops := v.operands ent
    let t := ops.headD blankTok
    if v.formatBad ops then s.fireFault e sl ent 0x50 0 0 else
    let (sum, vals, eos, poison) := match ent.row with
      | .acc a b c d => (a, b, c, d)
      | _ => (0, [], false, false)
    let (sum, vals) := if t.bubble then (sum, vals) else (accAdd v.cfg.fmt.toNat v.cfg.rm.toNat vals sum t.value, vals ++ [t.value])
    let eos := eos || t.eos
    let poison := poison || t.poison
    let k := ent.key
    let s := s.consume e sl k
    if !t.eor then s.setRow e sl k (.acc sum vals eos poison) else
    let s := s.setRow e sl k .none
    let r : Token := { t with fmt := v.cfg.fmt, eor := true, eos := eos, poison := poison, bubble := false, gen := v.gen }
    if vals.isEmpty then
      let r := s.freshBubble r
      r.1.output e sl false r.2
    else if v.cfg.fmt == 2 then
      let q := accResult vals sum
      let c := s.convResult e sl ops { r with value := w32 q.1 } [q.1] [q.2]
      c.1.output e sl false c.2
    else s.output e sl false { r with value := sum }

/-- A group of a packing CVT is emitted: its lanes are counted, but for those of poisoned tokens, and its empty lanes are +0 and
not counted (03 R45, R52). -/
def State.closeGroup (s : State) (e sl : Nat) (ops : List Token) (g : Group) (eor eos : Bool) : State × Token :=
  let v := s.slot e sl
  let s := s.setSlot e sl ({ v with groups := Sp.erase v.groups g.first.colour.toNat }.countLanes g.first.colour g.kinds)
  let t : Token := { g.first with value := w32 (joinLanes v.cfg.fmt.toNat g.lanes), fmt := v.cfg.fmt, eor := eor, eos := eos,
                                  poison := g.poison, bubble := false, gen := v.gen }
  let bad := nonFinite v.cfg.fmt.toNat g.lanes
  if v.cfg.fin && bad != 0 && !t.poison then (s.elemFault e sl 0x55 ops false 0 0 bad, { t with poison := true }) else (s, t)

/-- The tokens that one unpacked or equal token gives, in lane order, each with its counts and finite check. -/
def State.cvtTokens (s : State) (e sl : Nat) (ops : List Token) (t : Token) (n : Nat) (lanesOut : List (Nat × Option Nat)) :
    Nat → State × List Token
  | 0 => (s, [])
  | k + 1 =>
    let v := s.slot e sl
    let fmt := v.cfg.fmt.toNat
    let m := lanes fmt
    let r := s.cvtTokens e sl ops t n lanesOut k
    let mine := (lanesOut.drop (k * m)).take m
    let last := k + 1 == n
    let q : Token := { t with value := w32 (joinLanes fmt (mine.map (·.1))), fmt := v.cfg.fmt, eor := t.eor && last,
                              eos := t.eos && last, gen := v.gen }
    let c := r.1.convResult e sl ops q (mine.map (·.1)) (mine.map (·.2))
    (c.1, r.2 ++ [c.2])

/-- CVT (03 R52). A bubble of another tag than the open group's passes, and the group stays open (log 69). -/
def execCvtE (o : ElemCfg) (s : State) : Out :=
  elemTurn 0x27 o s noExtra fun s e sl ent =>
    let v := s.slot e sl
    let ops := v.operands ent
    let t := ops.headD blankTok
    let fmt := v.cfg.fmt.toNat
    let src := v.cfg.opx.toNat
    if v.formatBad ops then s.fireFault e sl ent 0x50 0 0 else
    let s := s.consume e sl ent.key
    let open' := (Sp.find? v.groups t.colour.toNat)
    let mine := match open' with | some g => tagOf g.first == tagOf t | none => false
    if t.bubble then
      let r : State × List (Bool × Token) := match open', mine with
        | some g, true => let c := s.closeGroup e sl ops g false false; (c.1, [(false, c.2)])
        | _, _ => (s, [])
      let b := r.1.freshBubble { t with fmt := v.cfg.fmt, gen := v.gen }
      (b.1.owe e sl (r.2 ++ [(false, b.2)])).leaveFirst e sl
    else
      let conv := (List.range (lanes src)).map fun i =>
        Fp.convert (laneTy src) (laneTy fmt) v.cfg.rm.toNat v.cfg.sat (laneOf src i t.value.toNat)
      if lanes src ≥ lanes fmt then
        let n := lanes src / lanes fmt
        let r := s.cvtTokens e sl ops t n conv n
        (r.1.owe e sl (r.2.map fun x => (false, x))).leaveFirst e sl
      else
        let s := if open'.isSome && !mine then s.elemFault e sl 0x54 ops false 0 0 0 else s
        let fresh : Group := { first := t, lanes := [], kinds := [], poison := false }
        let g : Group := if mine then open'.getD fresh else fresh
        let g : Group := { g with lanes := g.lanes ++ conv.map (·.1), poison := g.poison || t.poison,
                                  kinds := g.kinds ++ (if t.poison then [] else conv.map (·.2)) }
        if g.lanes.length < lanes fmt && !t.eor && !t.eos then
          let v := s.slot e sl
          s.setSlot e sl { v with groups := Sp.put v.groups t.colour.toNat g }
        else
          let c := s.closeGroup e sl ops g t.eor t.eos
          (c.1.owe e sl [(false, c.2)]).leaveFirst e sl

/-! ## Sampler elements (22 R310 to R315) -/

/-- ROUTE: each row as its header's policy says (22 R310). -/
def execRouteE (o : ElemCfg) (s : State) : Out :=
  elemTurn 0x41 o s noExtra fun s e sl ent =>
    let v := s.slot e sl
    let t := (v.operands ent).headD blankTok
    let p := ent.policy
    let s := s.consume e sl ent.key
    let s := s.setRow e sl ent.key (if t.eor then .none else .route p)
    s.outputs e sl (arms (routeArms v.cfg.const p) { t with gen := v.gen })

/-- The next pair of a bias list: the tokens of its index and its bias (22 R311). -/
def Entry.headPair (e : Entry) : Option (Token × Token) :=
  match e.at 1 with
  | i :: b :: _ => some (i.tok, b.tok)
  | _ => none

/-- SPADD drops the rest of a list, up to the token with eor. -/
def State.spaddDrain (s : State) (e sl : Nat) (ent : Entry) : State :=
  match (ent.at 1).head? with
  | none => s
  | some a =>
    let s := s.consumeAt e sl ent.key 1 1
    if a.tok.eor then s.setRow e sl ent.key .none else s

/-- SPADD (22 R311). -/
def execSpaddE (o : ElemCfg) (s : State) : Out :=
  elemTurn 0x42 o s noExtra fun s e sl ent =>
    let v := s.slot e sl
    let k := ent.key
    match ent.row, (ent.at 0).head? with
    | .spDrain, _ => s.spaddDrain e sl ent
    | _, none => s
    | row, some a =>
      let t := a.tok
      let empty := match (ent.at 1).head? with | some b => b.tok.bubble && b.tok.eor | none => false
      let (pos, last, ended, bad) := match row with
        | .spadd p l en bd => (p, l, en, bd)
        | _ => (0, none, false, false)
      -- an empty list is one bubble with eor
      let fresh := row == .none && empty
      let s := if fresh then s.consumeAt e sl k 1 1 else s
      let ended := ended || fresh
      if t.bubble then
        let s := s.consumeAt e sl k 0 1
        let s := s.setRow e sl k (if t.eor then (if ended then .none else .spDrain) else .spadd pos last ended bad)
        let s := if t.eor && !ended && !bad then s.elemFault e sl 0x50 [t] false 0 0 0 else s
        s.output e sl false { t with gen := v.gen, poison := t.poison || (bad || (t.eor && !ended)) }
      else
        let pair := if ended || bad then none else ent.headPair
        let misplaced := match pair with
          | some p => (match last with | some l => p.1.value.toNat ≤ l | none => false) || p.1.value.toNat < pos
          | none => false
        let hit := if misplaced then none else pair.filter fun p => p.1.value.toNat == pos
        let value := match hit with
          | some p => w32 (Fp.roundTo .f32 v.cfg.rm.toNat false
              (Fp.add v.cfg.rm.toNat (Fp.unpack .f32 t.value.toNat) (Fp.unpack .f32 p.2.value.toNat)) false).raw
          | none => t.value
        let tainted := match hit with | some p => p.1.poison || p.2.poison | none => false
        let s := if hit.isSome then s.consumeAt e sl k 1 2 else s
        let ended' := ended || (match hit with | some p => p.2.eor | none => false)
        let unused := t.eor && !ended'
        let bad' := bad || misplaced || unused
        let s := s.consumeAt e sl k 0 1
        let last' := match hit with | some p => some p.1.value.toNat | none => last
        let s := s.setRow e sl k (if t.eor then (if ended' then .none else .spDrain) else .spadd (pos + 1) last' ended' bad')
        let s := if bad' && !bad then s.elemFault e sl 0x50 [t] false 0 0 0 else s
        if t.fmt != v.cfg.fmt then s.elemFault e sl 0x50 [t] true 0 0 0
        else s.output e sl false { t with value := value, poison := t.poison || tainted || bad', gen := v.gen }

/-- The order of TOPK (22 R312): NaN below every value, −0 below +0. -/
def topkKey (v : W32) : Int :=
  let n := v.toNat
  if Fp.isNan (Fp.unpack .f32 n) then -(2 ^ 33 : Nat)
  else if n < 2 ^ 31 then n else -((n - 2 ^ 31 : Nat) : Int) - 1

/-- Insert a value behind every one that ranks at least as high. -/
def topkIns (x : W32 × Nat) : List (W32 × Nat) → List (W32 × Nat)
  | [] => [x]
  | y :: t => if topkKey y.1 < topkKey x.1 then x :: y :: t else y :: topkIns x t

/-- The tokens of a TOPK's row: values on out0, positions on out1, the last of each with eor. -/
def topkToks (v : ElemSlot) (t : Token) (best : List (W32 × Nat)) (eos poison : Bool) : List (Bool × Token) :=
  (List.range best.length).flatMap fun i =>
    match best[i]? with
    | none => []
    | some b =>
      let last := i + 1 == best.length
      let q : Token := { t with value := b.1, fmt := 2, eor := last, eos := eos, poison := poison, bubble := false, gen := v.gen }
      let q1 := { q with value := w32 b.2, fmt := 1 }
      (if v.cfg.out0 = 0 then [] else [(false, q)]) ++ (if v.cfg.out1 = 0 then [] else [(true, q1)])

/-- TOPK (22 R312); a bubble is no value of the row. -/
def execTopkE (o : ElemCfg) (s : State) : Out :=
  elemTurn 0x43 o s noExtra fun s e sl ent =>
    let v := s.slot e sl
    let ops := v.operands ent
    let t := ops.headD blankTok
    let k := ent.key
    if v.formatBad ops then s.fireFault e sl ent 0x50 0 0 else
    let (best, n, eos, poison) := match ent.row with
      | .topk b n eo po => (b, n, eo, po)
      | _ => ([], 0, false, false)
    let best := if t.bubble then best else (topkIns (t.value, n) best).take (v.cfg.const.toNat % 64)
    let n := if t.bubble then n else n + 1
    let eos := eos || t.eos
    let poison := poison || t.poison
    let s := s.consume e sl k
    if !t.eor then s.setRow e sl k (.topk best n eos poison) else
    let s := s.setRow e sl k .none
    if best.isEmpty then
      let b := s.freshBubble { t with eos := eos, poison := poison, gen := v.gen }
      let l := (if v.cfg.out0 = 0 then [] else [(false, { b.2 with fmt := 2 })]) ++
        (if v.cfg.out1 = 0 then [] else [(true, { b.2 with fmt := 1 })])
      ((b.1.owe e sl l).leaveFirst e sl).leaveFirst e sl
    else ((s.owe e sl (topkToks v t best eos poison)).leaveFirst e sl).leaveFirst e sl

/-- CUMS (22 R313); a sum that a poisoned value is part of is poisoned (19 R293). -/
def execCumsE (o : ElemCfg) (s : State) : Out :=
  elemTurn 0x44 o s noExtra fun s e sl ent =>
    let v := s.slot e sl
    let ops := v.operands ent
    let t := ops.headD blankTok
    let k := ent.key
    if t.bubble then
      let s := s.consume e sl k
      let s := if t.eor then s.setRow e sl k .none else s
      s.output e sl false { t with gen := v.gen }
    else if v.formatBad ops then s.fireFault e sl ent 0x50 0 0
    else
      let (sum, bad) := match ent.row with
        | .cums q bad => (w32 (Fp.roundTo .f32 v.cfg.rm.toNat false
            (Fp.add v.cfg.rm.toNat (Fp.unpack .f32 q.toNat) (Fp.unpack .f32 t.value.toNat)) false).raw, bad)
        | _ => (w32 (Fp.oneNan .f32 t.value.toNat), false)
      let r := v.result ops 2 sum.toNat
      let bad := bad || r.poison
      let s := s.consume e sl k
      let s := s.setRow e sl k (if t.eor then .none else .cums sum bad)
      s.output e sl false { r with poison := bad }

/-- PENAL: logit − f × n − q × [n > 0], formed exactly and rounded once (22 R314). -/
def penal (rm : Nat) (const logit count : Nat) : Nat :=
  let f := Fp.unpack .bf16 (const / 2 ^ 16)
  let q := Fp.unpack .bf16 (const % 2 ^ 16)
  let n : Fp.Val := .fin false count 0
  let one : Fp.Val := .fin false (if count > 0 then 1 else 0) 0
  let r := Fp.add rm (Fp.add rm (Fp.unpack .f32 logit) (Fp.neg (Fp.mul f n))) (Fp.neg (Fp.mul q one))
  (Fp.roundTo .f32 rm false r false).raw

/-- PENAL. -/
def execPenalE (o : ElemCfg) (s : State) : Out :=
  elemTurn 0x46 o s noExtra fun s e sl ent =>
    s.fireValue e sl ent fun v ops => (penal v.cfg.rm.toNat v.cfg.const.toNat (opnds ops 0) (opnds ops 1), 2)

/-- The rounds of Philox-4x32-10 (22 R315). -/
def philox : Nat → (Nat × Nat × Nat × Nat) → (Nat × Nat) → Nat × Nat × Nat × Nat
  | 0, c, _ => c
  | n + 1, (c0, c1, c2, c3), (k0, k1) =>
    let p := 0xD2511F53 * c0
    let q := 0xCD9E8D57 * c2
    philox n ((q / 2 ^ 32) ^^^ c1 ^^^ k0, q % 2 ^ 32, (p / 2 ^ 32) ^^^ c3 ^^^ k1, p % 2 ^ 32)
      ((k0 + 0x9E3779B9) % 2 ^ 32, (k1 + 0xBB67AE85) % 2 ^ 32)

/-- The word of a draw (22 R315). -/
def draw (opx const pos colour ctx : Nat) : Nat :=
  let r := philox 10 (pos, opx / 4, ctx, colour) (const, colour * 2 ^ 16 + ctx)
  match opx % 4 with | 0 => r.1 | 1 => r.2.1 | 2 => r.2.2.1 | _ => r.2.2.2

/-- DRAW: the word, or with fmt 2 the word shifted right by 8 as a fraction of 2^24, exactly. -/
def execDrawE (o : ElemCfg) (s : State) : Out :=
  elemTurn 0x45 o s noExtra fun s e sl ent =>
    s.fireValue e sl ent fun v ops =>
      let w := draw v.cfg.opx.toNat v.cfg.const.toNat (opnds ops 0) ent.key.colour.toNat ent.key.context.toNat
      if v.cfg.fmt == 2 then ((Fp.roundMag .f32 0 false false (w / 256) (-24) false).raw, 2) else (w, v.cfg.fmt.toNat)

end Sys2Proof.Machine
end

