-- ==== Sys2Proof/Machine/MemElements.lean ====
section
/-!
DEFINITION. Sinks of sections (09 R173), the memory elements MLOAD, MSTORE and MRMW (09 R177) and ADPT (22 R316), and the events of
their requests.
-/
namespace Sys2Proof.Machine

/-! ## Sinks (09 R173) -/

/-- A sink of a section: an exit side, or an M-element with its slot. -/
def exitSink (n port sl : Nat) : Nat := portKey n port sl
def elemSink (e sl : Nat) : Nat := 2 ^ 20 + e * 4 + sl

/-- Dword i of a section's descriptor (Table 09.8), and its fields. -/
def Section.d (t : Section) (i : Nat) : Nat := ((t.desc[i]?).getD 0).toNat
def Section.colour (t : Section) : Nat := fld (t.d 0) 47 40
def Section.context (t : Section) : Nat := fld (t.d 0) 39 30
def Section.tiles (t : Section) : Nat := fld (t.d 0) 63 48
def Section.kind (t : Section) : Nat := fld (t.d 0) 7 6
def Section.streams (t : Section) : Nat := fld (t.d 0) 23 8
def Section.regions (t : Section) : List Nat :=
  (List.range (fld (t.d 0) 27 24)).map fun i => fld (t.d (1 + i / 4)) (16 * (i % 4) + 15) (16 * (i % 4))

/-- A sink of the section counts one eos. -/
def Section.countSink (t : Section) (sink c x : Nat) : Section :=
  if t.used && t.started && t.colour == c && t.context == x then
    { t with sinks := t.sinks.map fun q => if q.1 == sink then (q.1, q.2 - 1) else q }
  else t

/-- A sink emits or stores an eos token of a colour and context. -/
def State.countSink (s : State) (sink c x : Nat) : State :=
  { s with cores := s.cores.map fun n =>
      (n.1, { n.2 with sections := n.2.sections.map fun t => (t.1, t.2.countSink sink c x) }) }

/-! ## Requests of M-elements (09 R177) -/

/-- The address of an M-element (09 R177). A sum past 57 bits keeps its carry and faults as out of range: DEDUCED, unsafe (log 78): the
manual does not say that it wraps. -/
def elemVa (const : W32) (a : Nat) : Nat := const.toNat * 2 ^ 25 + a

/-- A new request of an element. -/
def MReq.start (s : State) (sl h : Nat) (toks : List Token) (kind : MKind) (scope : Nat) : MReq :=
  { id := s.serial, slot := sl, region := h, toks := toks, kind := kind, scope := scope, home := 0, key := 0, va := 0, time := s.cycle,
    timed := false, got := none, res := none, dead := false, lost := false }

/-- A request is under way; a HELD key that its results will need is born with the grant (08 R143). -/
def State.pushReq (s : State) (e : Nat) (r : MReq) : State :=
  let c := (s.slot e r.slot).cfg
  let s := if s.toHeld e r.slot (c.out0 ||| c.out1) then s.bear r.region (heldKey (tagOf (r.toks.headD blankTok))) else s
  let x := s.elem e
  { s with serial := s.serial + 1 }.setElem e { x with reqs := x.reqs ++ [r] }

/-- A request of this tag is still to send its results, which leave in firing order. -/
def State.owesTag (s : State) (e : Nat) (k : Key) : Bool :=
  (s.elem e).reqs.any fun r => !r.dead && !r.lost && tagOf (r.toks.headD blankTok) == k

/-- MSTORE and MRMW are sinks. -/
def isSink (op : Nat) : Bool := op == 0x31 || op == 0x32

/-- The eos of a firing whose results leave counts at a sink element. -/
def State.sinkOf (s : State) (e sl : Nat) (ops : List Token) : State :=
  let v := s.slot e sl
  let q := v.queueOps ops
  let t := ops.headD blankTok
  if isSink v.op.toNat && q.any (·.eos) then s.countSink (elemSink e sl) t.colour.toNat t.context.toNat else s

/-- The results of an M-element on the outputs that have a mask. -/
def ElemSlot.mOuts (v : ElemSlot) (a b : Token) : List (Bool × Token) :=
  (if v.cfg.out0 = 0 then [] else [(false, a)]) ++ (if v.cfg.out1 = 0 then [] else [(true, b)])

/-- A firing that makes no access sends its results behind those of earlier requests of its tag. -/
def State.noAccess (s : State) (e sl : Nat) (ent : Entry) (l : List (Bool × Token)) : State :=
  let v := s.slot e sl
  let ops := v.operands ent
  let s := s.consume e sl ent.key
  if s.owesTag e ent.key then s.pushReq e { MReq.start s sl v.region ops .load 0 with res := some l }
  else (s.outputs e sl l).sinkOf e sl ops

/-- A checked access goes out: a request of this package waits for its home, one of another device travels (17 R262). -/
def State.issue (s : State) (e sl : Nat) (ent : Entry) (kind : MKind) (scope va len : Nat) (t : Tr) : State :=
  let v := s.slot e sl
  let ops := v.operands ent
  let s := s.consume e sl ent.key
  let r : MReq := { MReq.start s sl v.region ops kind scope with
    home := t.home, key := t.key, va := w64 va, timed := space t.home != .pad }
  let id := s.serial
  let s := s.pushReq e r
  if space t.home == .remote then
    match kind with
    | .store d => s.sendWrite (.elem e id) ent.key.colour.toNat t.home (leBytes 4 d.toNat) false
    | _ => s.sendRead (.elem e id) ent.key.colour.toNat t.home len
  else s

/-- Permission for an access of an M-element: a read, a write, or both (09 R177, 07 R132). -/
def State.mAccess (s : State) (e c va size : Nat) (rd wr : Bool) : Except XF Tr :=
  match (if rd then s.elemAccess e c va size .r else s.elemAccess e c va size .w) with
  | .error x => .error x
  | .ok t => if rd && wr then s.elemAccess e c va size .w else .ok t

/-- A value that the manual leaves open: the value of a token whose access was not made (log 7). -/
def State.openValue (s : State) (t : Token) : State × Token :=
  ({ s with free := s.free + 1 }, { t with value := Config.bubbleValue s.free })

/-- The common part of MLOAD, MSTORE and MRMW: bubbles and poisoned operands, the kept token among them, make no access. -/
def memElem (op : BitVec 8) (o : ElemCfg) (s : State) (rd wr : Bool) (kind : ElemSlot → W32 → MKind) (scope : Nat) : Out :=
  elemTurn op o s noExtra fun s e sl ent =>
    let v := s.slot e sl
    let ops := v.operands ent
    let data := opnds ops 1
    let base := v.result ops v.cfg.fmt.toNat (if op == 0x31 then data else 0)
    if v.anyBubble ops then
      let r := s.freshBubble base
      r.1.noAccess e sl ent (v.mOuts r.2 r.2)
    else if v.formatBad ops then s.fireFault e sl ent 0x50 0 0
    else if ops.any (·.poison) then
      let base := { base with poison := true }
      let s := if isSink op.toNat then s.addSupp v.region 1 else s
      let r := if op == 0x31 then (s, base) else s.openValue base
      r.1.noAccess e sl ent (v.mOuts r.2 r.2)
    else
      let va := elemVa v.cfg.const (opnds ops 0)
      match s.mAccess e ent.key.colour.toNat va 4 rd wr with
      | .error x => s.fireFault e sl ent x.code.1 (w64 va) x.code.2
      | .ok t =>
        if op == 0x32 && space t.home != .floor then s.fireFault e sl ent 0x19 (w64 va) 0
        else s.issue e sl ent (kind v (w32 data)) scope va 4 t

/-- MLOAD. -/
def execMloadE (o : ElemCfg) (s : State) : Out := memElem 0x30 o s true false (fun _ _ => .load) 0
/-- MSTORE. -/
def execMstoreE (o : ElemCfg) (s : State) : Out := memElem 0x31 o s false true (fun _ d => .store d) (o.opx.toNat % 8)
/-- MRMW. -/
def execMrmwE (o : ElemCfg) (s : State) : Out :=
  memElem 0x32 o s true true (fun v d => .rmw (v.cfg.opx.toNat / 16) d) (o.opx.toNat % 8)

/-- The address of an ADPT's pair k (22 R316). -/
def adptVa (v : ElemSlot) (ctx k : Nat) : Nat :=
  v.cfg.const.toNat * 2 ^ 25 + (if v.cfg.opx.getLsbD 0 then ctx * 2 ^ 20 else 0) + 8 * k

/-- ADPT: the k-th value of a row with the k-th pair (22 R316); a bubble is no value of the row. -/
def execAdptE (o : ElemCfg) (s : State) : Out :=
  elemTurn 0x47 o s noExtra fun s e sl ent =>
    let v := s.slot e sl
    let ops := v.operands ent
    let t := ops.headD blankTok
    let m := match ent.row with | .adpt k => k | _ => 0
    let n := lanes v.cfg.fmt.toNat
    let next := fun (s : State) (m : Nat) => s.setRow e sl ent.key (if t.eor then .none else .adpt m)
    if t.bubble then next (s.noAccess e sl ent (v.mOuts { t with gen := v.gen } t)) m
    else if v.formatBad ops || m * n ≥ 131072 then next (s.fireFault e sl ent 0x50 0 0) (m + 1)
    else
      let va := adptVa v ent.key.context.toNat (m * n)
      match s.mAccess e ent.key.colour.toNat va (8 * n) true false with
      | .error x => next (s.fireFault e sl ent x.code.1 (w64 va) x.code.2) (m + 1)
      | .ok tr => next (s.issue e sl ent (.adpt m) 0 va (8 * n) tr) (m + 1)

/-! ## Replies -/

/-- The new word of an MRMW (09, MRMW; 07 R122): fadd rounds RNE. -/
def rmwWord (fmt f old d : Nat) : Nat :=
  match f with
  | 0 => amoInt 0 (laneTy fmt) old d % 2 ^ 32
  | 1 => amoInt 4 (laneTy fmt) old d
  | 2 => amoInt 5 (laneTy fmt) old d
  | 3 => d
  | k => amoFloat (k - 4) (if fmt == 3 then 0xD else 8) old d

/-- The result of an ADPT firing from the bytes of its pairs, lane by lane (22 R316). -/
def adptValue (v : ElemSlot) (x : Nat) (bytes : List Byte) : Nat :=
  let fmt := v.cfg.fmt.toNat
  let F := Fp.ofTy (laneTy fmt)
  joinLanes fmt ((List.range (lanes fmt)).map fun j =>
    let a := bytesNat ((bytes.drop (8 * j)).take 4)
    let b := bytesNat ((bytes.drop (8 * j + 4)).take 4)
    (Fp.roundTo F v.cfg.rm.toNat false
      (Fp.fma v.cfg.rm.toNat (Fp.unpack F (laneOf fmt j x)) (Fp.unpack .f32 a) (Fp.unpack .f32 b)) false).raw)

/-- A request is performed at its home at one instant: the state, and its results; none where another device's reply or
acknowledgement has not come. -/
def State.reqPerform (s : State) (e : Nat) (r : MReq) : State × Option (List (Bool × Token)) :=
  let v := s.slot e r.slot
  let base := v.result r.toks v.cfg.fmt.toNat 0
  let far := space r.home == .remote
  let read := fun (n : Nat) =>
    if far then r.got else some (s.readHomeN r.key r.home n, s.anyPoison r.home n)
  match r.kind with
  | .load =>
    match read 4 with
    | none => (s, none)
    | some (bs, bad) => (s, some (v.mOuts { base with value := w32 (bytesNat bs), poison := base.poison || bad } base))
  | .adpt _ =>
    match read (8 * lanes v.cfg.fmt.toNat) with
    | none => (s, none)
    | some (bs, bad) =>
      (s, some (v.mOuts { base with value := w32 (adptValue v (opnds r.toks 0) bs), poison := base.poison || bad } base))
  | .store d =>
    let t := { base with value := d }
    if far then (s, if s.unacked (.elem e r.id) then none else some (v.mOuts t t))
    else (s.write r.key r.home (leBytes 4 d.toNat), some (v.mOuts t t))
  | .rmw f d =>
    let q := s.amoAt r.home 4 fun old => rmwWord v.cfg.fmt.toNat f old d.toNat
    match q.2 with
    | some old => (q.1, some (v.mOuts { base with value := w32 old } { base with value := d }))
    | none =>
      let s := if v.cfg.out0 = 0 && v.cfg.out1 = 0 then q.1.bankDrop r.home else q.1
      let o := s.openValue { base with poison := true }
      (o.1, some (v.mOuts o.2 { base with value := d, poison := true }))

/-- Bytes a request acts on. -/
def MReq.span (r : MReq) : Nat := match r.kind with | .adpt _ => 16 | _ => 4

/-- The results of a request leave when every output has room, behind those of earlier requests of its tag. -/
def State.reqEmit (s : State) (e k : Nat) (r : MReq) (l : List (Bool × Token)) : State :=
  let x := s.elem e
  let v := x.slot r.slot
  let drop := fun (s : State) => s.setElem e { s.elem e with reqs := (s.elem e).reqs.eraseIdx k }
  let mine := tagOf (r.toks.headD blankTok)
  if r.dead || r.lost || !v.on || v.region != r.region then drop s
  else if (x.reqs.take k).any fun q => !q.dead && !q.lost && tagOf (q.toks.headD blankTok) == mine then s
  else if l.all fun p => (drop s).room e r.slot (if p.1 then v.cfg.out1 else v.cfg.out0) (tagOf p.2) then
    ((drop s).outputs e r.slot l).sinkOf e r.slot r.toks
  else s

/-- M_ELEMENT_REPLY: the k-th request of an element is performed, after every earlier one on its words (09 R177), and its
results leave when they can. A frame retired since the check is an access fault (27 R379, 09 R168). -/
def execMElementReply (e : ElemNum) (k : Nat) (s : State) : Out :=
  let e := e.toNat
  .next (match (s.elem e).reqs[k]? with
    | none => s
    | some r =>
      match r.res with
      | some l => s.reqEmit e k r l
      | none =>
        if ((s.elem e).reqs.take k).any fun q => q.res.isNone && q.home < r.home + r.span && r.home < q.home + q.span then s
        else if space r.home == .gddr && s.isRetired r.home then
          let s := s.setElem e { s.elem e with reqs := (s.elem e).reqs.eraseIdx k }
          if r.dead || r.lost then s else s.elemFault e r.slot 0x18 r.toks true r.va 0 0
        else
          let p := s.reqPerform e r
          match p.2 with
          | none => p.1
          | some l =>
            let s := p.1.setElem e { p.1.elem e with reqs := (p.1.elem e).reqs.set k { r with res := some l } }
            s.reqEmit e k { r with res := some l } l)

/-- The reply of another device, or its acknowledgement of a store, has arrived (17 R262, R263). -/
def State.replied (s : State) (e : Nat) (r : MReq) : Bool :=
  space r.home == .remote && (match r.kind with | .store _ => !s.unacked (.elem e r.id) | _ => r.got.isSome)

/-- REMOTE_TIMEOUT: a request beyond the element's core without a reply 2^rexp cycles after its issue is a fault with hold,
and no longer outstanding (09 R167). A reply that has arrived is used, whether or not its results have left. -/
def execRemoteTimeout (e : ElemNum) (k : Nat) (s : State) : Out :=
  let e := e.toNat
  .next (match (s.elem e).reqs[k]? with
    | none => s
    | some r =>
      let rexp := (s.region r.region).rexp
      if r.timed && r.res.isNone && !s.replied e r && !r.dead && !r.lost && s.cycle - r.time ≥ 2 ^ (if rexp == 0 then 20 else rexp) then
        let s := s.setElem e { s.elem e with reqs := (s.elem e).reqs.set k { r with lost := true } }
        s.elemFault e r.slot 0x52 r.toks true r.va 0 0
      else s)

/-- COUNT_TOKENS: the next count token of an element leaves by out1, when it may (03 R47). -/
def execCountTokens (e : ElemNum) (s : State) : Out :=
  let e := e.toNat
  .next (match (List.range 4).find? fun sl =>
      match s.nextOwed e sl with
      | some i => ((s.slot e sl).pend[i]?).any (·.count)
      | none => false with
    | none => s
    | some sl =>
      match s.nextOwed e sl with
      | some i => s.leave e sl i
      | none => s)

end Sys2Proof.Machine
end

