-- ==== Sys2Proof/Machine/Ports.lean ====
section
/-!
DEFINITION. Entry and exit sides of ports (08 R145, R146, 09 R149, R170, 10 R388), links (09 R151), and their events.
-/
namespace Sys2Proof.Machine

/-! ## Entry sides (08 R145) -/

/-- A port record: kind 5 (19 Tables 19.6, 19.7). -/
def State.portRecord (s : State) (n port h code : Nat) (t : Token) : State :=
  s.recordAt n { code := code, kind := 5, colour := t.colour.toNat, ctx := t.context.toNat, iter := t.iter.toNat, core := n,
                 slot := hSlot h, handle := h, detail := w64 port }

/-- The colour is bound to the partition of core n (08 R137). -/
def State.boundAt (s : State) (n c : Nat) : Bool := match s.partOf n with | some p => s.bound p c | none => false

/-- The function that owns the colour is in ERROR: entry ports refuse the colour as an unbound one (26 R367). -/
def State.errorColour (s : State) (c : Nat) : Bool := (s.vf (s.colour c).vf.toNat).st == .error

/-- Entry ports of a region are closed to a colour (08 R145). -/
def State.closedTo (s : State) (h c : Nat) : Bool := (s.region h).st == .torn || ((s.region h).colour c).closed

/-- A token that a region does not take: format 7 or a refused colour is recorded (08 R136, R145); a closed colour's token is
only counted. Where both hold, the record is written: DESIGN CHOICE, unsafe (log 79): the manual gives no order. -/
def State.screen (s : State) (h n port : Nat) (t : Token) : Option State :=
  let c := t.colour.toNat
  if t.fmt == 7 then some ((s.addPurged h c 1).portRecord n port h 0x56 t)
  else if (s.region h).quota c == 0 || !s.boundAt n c || s.errorColour c then some ((s.addPurged h c 1).portRecord n port h 0x57 t)
  else if s.closedTo h c then some (s.addPurged h c 1)
  else none

/-- What becomes of a token that reaches an entry side: taken (queued, refused or discarded), told to wait, or without a region
that uses the side. -/
inductive Offer where
  | taken | wait | noUser
deriving DecidableEq, Repr

/-- A token reaches an entry side in a slot (08 R145, 10 R388). -/
def State.offer (s : State) (n port sl : Nat) (t : Token) : State × Offer :=
  match s.sideUser n port sl true with
  | none => (s, if s.loadingSide n port sl true then .wait else .noUser)
  | some e =>
    let v := s.slot e sl
    if (s.region v.region).st == .loading then (s, .wait) else
    match s.screen v.region n port t with
    | some s => (s, .taken)
    | none =>
      let k := sideKey n port sl t.colour.toNat
      let q := Sp.get [] s.entryq k
      if q.length ≥ 4 then (s, .wait)
      else ({ s with entryq := Sp.put s.entryq k (q ++ [({ t with slot := BitVec.ofNat 2 sl, gen := v.gen }, false)]) }, .taken)

/-- A token enters input i of element e, where there is room for its key. -/
def State.enter (s : State) (e sl i : Nat) (t : Token) : State :=
  let x := s.elem e
  let v := x.slot sl
  let t := { t with slot := BitVec.ofNat 2 sl, gen := v.gen }
  let s := s.setElem e { x with queues := x.queues.set i (x.queues.getD i [] ++ [t]) }
  let s := if v.held i then s.bear v.region (heldKey (tagOf t)) else s
  s.moved v.region t.colour.toNat

/-- Replace the queue of an entry side's colour, listing no empty queue. -/
def State.setEntryq (s : State) (k : Nat) (q : List (Token × Bool)) : State := { s with entryq := Sp.set [] s.entryq k q }

/-- The head of a colour's queue: discarded where its colour has closed, refused where it is no longer bound, admitted when its
key is live or may be born, and then let into the element when there is room (08 R143, R145, R139). -/
def State.admitHead (s : State) (n port sl c : Nat) : State :=
  let k := sideKey n port sl c
  match Sp.get [] s.entryq k, s.sideUser n port sl true with
  | (t, ok) :: rest, some e =>
    let v := s.slot e sl
    let into := fun (s : State) =>
      match v.input 5 with
      | some i => if s.roomIn e sl i (tagOf t) then (s.setEntryq k rest).enter e sl i t else s.setEntryq k ((t, true) :: rest)
      | none => s
    if ok then into s
    else match s.screen v.region n port t with
      | some s => s.setEntryq k rest
      | none => if s.mayBear v.region (tagOf t) then into ((s.bear v.region (tagOf t)).moved v.region c) else s
  | _, _ => s

/-- ENTRY_PORT_ADMIT: each colour's queue at an entry side (08 R145). -/
def execEntryPortAdmit (n : CoreNum) (port : BitVec 4) (sl : BitVec 2) (s : State) : Out :=
  let p := portKey n.toNat port.toNat sl.toNat
  .next (((s.entryq.filter fun q => q.1 / 256 == p).map fun q => q.1 % 256).foldl
    (fun s c => s.admitHead n.toNat port.toNat sl.toNat c) s)

/-- A result token reaches an input whose source is `ISL`, handled as by an entry side (13 R221): whether it was taken. -/
def State.offerIsl (s : State) (e sl : Nat) (t : Token) : State × Offer :=
  let v := s.slot e sl
  match (if v.on then v.input 6 else none) with
  | none => (s, .noUser)
  | some i =>
    if (s.region v.region).st == .loading then (s, .wait) else
    match s.screen v.region (elemCore e) 0 t with
    | some s => (s, .taken)
    | none =>
      let k := tagOf t
      if s.mayBear v.region k then
        let b := s.bear v.region k
        if b.roomIn e sl i k then (b.enter e sl i t, .taken) else (s, .wait)
      else (s, .wait)

/-! ## Links (09 R151) -/

/-- LINK_TRANSFER: the token of a colour and slot on a link enters the input of its source, or is stale. -/
def execLinkTransfer (e : ElemNum) (src : BitVec 3) (sl : BitVec 2) (c : BitVec 8) (s : State) : Out :=
  let e := e.toNat
  let x := s.elem e
  .next (match Sp.find? x.links src.toNat with
    | none => s
    | some t =>
      if t.slot != sl || t.colour != c then s else
      let v := x.slot sl.toNat
      let s := s.setElem e { x with links := Sp.erase x.links src.toNat }
      if !v.on then s
      else if v.gen != t.gen then s.addStale v.region 1
      else
        match v.input src.toNat with
        | none => s.addStale v.region 1
        | some i =>
          let y := s.elem e
          (s.setElem e { y with queues := y.queues.set i (y.queues.getD i [] ++ [t]) }).moved v.region c.toNat)

/-! ## Exit sides (09 R149, R170) -/

/-- The token that an exit side emits next for a colour, with its place in the buffer: the oldest, or, where ordx is set, the
oldest of the expected iteration of its context. -/
def State.exitPick (s : State) (n port sl c : Nat) : Option (Nat × Token) :=
  match s.sideUser n port sl false with
  | none => none
  | some e =>
    let q := Sp.get [] s.exitq (sideKey n port sl c)
    let ok := fun (t : Token) => !(s.slot e sl).cfg.ordx || t.iter.toNat == Sp.get 0 s.expect (expectKey n port sl c t.context.toNat)
    match (List.range q.length).find? fun i => (q[i]?).any ok with
    | some i => (q[i]?).map fun t => (i, t)
    | none => none

/-- The exit side emits that token: it leaves the buffer, and the expected iteration advances (09 R170). -/
def State.exitLeave (s : State) (n port sl c : Nat) : State :=
  match s.exitPick n port sl c, s.sideUser n port sl false with
  | some (i, t), some e =>
    let k := sideKey n port sl c
    let v := s.slot e sl
    let s := { s with exitq := Sp.set [] s.exitq k ((Sp.get [] s.exitq k).eraseIdx i) }
    let s := if v.cfg.ordx && (t.eor || t.eos) then
      let x := expectKey n port sl c t.context.toNat
      { s with expect := Sp.set 0 s.expect x ((Sp.get 0 s.expect x + 1) % 16384) } else s
    s.moved v.region c
  | _, _ => s

/-- The exit side emits that token, and an eos counts at the sink (09 R173). -/
def State.exitEmit (s : State) (n port sl c : Nat) : State :=
  match s.exitPick n port sl c with
  | some (_, t) =>
    let s := s.exitLeave n port sl c
    if t.eos then s.countSink (exitSink n port sl) c t.context.toNat else s
  | none => s

end Sys2Proof.Machine
end

