-- ==== Sys2Proof/Machine/Images.lean ====
section
/-!
DEFINITION. Region images (09 R157, R158; 02 R36; 08 R144; 23 R322) and RLOAD (09 R179).
-/
namespace Sys2Proof.Machine

/-- How the words of an image are read. -/
abbrev Reader := Nat → Except XF W64

/-- n dwords from an address up. -/
def readWords (rd : Reader) (a : Nat) : Nat → Except XF (List W64)
  | 0 => .ok []
  | n + 1 =>
    match rd a with
    | .error e => .error e
    | .ok w =>
      match readWords rd (a + 8) n with
      | .error e => .error e
      | .ok l => .ok (w :: l)

/-- A failed check of an image: the address of the failing word and of its record, the record's kind and the low bit of the field
(19 Table 19.7), and the row and column. -/
structure ImageFault where
  word : Nat
  at_ : Nat
  kind : Nat
  bit : Nat
  row : Nat := 0
  col : Nat := 0
deriving DecidableEq, Repr

/-- Why an image is not taken: an access, the target of a quad image, or a failed check with the handle it would have. -/
inductive ImageStop where
  | access (e : XF)
  | target
  | config (h : Nat) (f : ImageFault)
deriving DecidableEq, Repr

/-- An element record: its address, its four dwords. -/
structure ElemRecord where
  at_ : Nat
  opw : W64
  rtw : W64
  pos : W64
  rsv : W64
deriving DecidableEq, Repr

def ElemRecord.op (r : ElemRecord) : BitVec 8 := r.opw.extractLsb' 56 8
def ElemRecord.cfg (r : ElemRecord) : ElemCfg := ElemCfg.dec (r.rtw ++ r.opw)
def ElemRecord.row (r : ElemRecord) : Nat := fld r.pos.toNat 7 4
def ElemRecord.col (r : ElemRecord) : Nat := fld r.pos.toNat 3 0
def ElemRecord.mask (r : ElemRecord) : BitVec 6 := r.cfg.out0 ||| r.cfg.out1

/-- The header's fields (Table 09.4). -/
structure ImageHead where
  va : Nat
  target : Nat
  d0 : Nat
deriving DecidableEq, Repr

def ImageHead.nelem (i : ImageHead) : Nat := fld i.d0 47 39
def ImageHead.ncol (i : ImageHead) : Nat := fld i.d0 38 32
def ImageHead.ntab (i : ImageHead) : Nat := fld i.d0 31 27
def ImageHead.dexp (i : ImageHead) : Nat := fld i.d0 20 16
def ImageHead.rexp (i : ImageHead) : Nat := fld i.d0 15 11
def ImageHead.quad (i : ImageHead) : Bool := bitAt i.d0 5
def ImageHead.slot (i : ImageHead) : Nat := fld i.d0 4 3
def ImageHead.handle (i : ImageHead) : Nat := mkHandle i.target i.quad i.slot (fld i.d0 10 8)
/-- Rows and columns of the grid. -/
def ImageHead.side (i : ImageHead) : Nat := if i.quad then 16 else 8
def ImageHead.quotaWords (i : ImageHead) : Nat := (i.ncol + 3) / 4 * 2
def ImageHead.elemBase (i : ImageHead) : Nat := i.va + 32 + 8 * i.quotaWords
def ImageHead.tableBase (i : ImageHead) : Nat := i.elemBase + 32 * i.nelem

/-- A check of an image: whether it holds, and what it reports where it does not. -/
abbrev Check := Bool × ImageFault

/-- The checks of the header (Table 09.4), fields from the top of each dword down. -/
def ImageHead.checks (i : ImageHead) (w : List W64) : List Check :=
  let f := fun (ok : Bool) (b : Nat) => (ok, ({ word := i.va, at_ := i.va, kind := 2, bit := b } : ImageFault))
  [f (fld i.d0 63 48 == 0) 48, f (1 ≤ i.nelem && i.nelem ≤ i.side * i.side) 39, f (1 ≤ i.ncol && i.ncol ≤ 64) 32,
    f (i.ntab ≤ 16) 27, f (fld i.d0 26 21 == 0) 21, f (i.dexp == 0 || (10 ≤ i.dexp && i.dexp ≤ 30)) 16,
    f (i.rexp == 0 || (12 ≤ i.rexp && i.rexp ≤ 30)) 11, f (!bitAt i.d0 7) 7, f (fld i.d0 2 0 == 0) 0] ++
    [1, 2, 3].map fun k => (w.getD k 0 == 0, { word := i.va + 8 * k, at_ := i.va, kind := 2, bit := 0 })

/-- The quota records, with the padding after them. -/
def quotaRecords (n : Nat) (w : List W64) : List Nat :=
  (List.range n).map fun k => fld (w.getD (k / 2) 0).toNat (32 * (k % 2) + 31) (32 * (k % 2))
def quotaOf (r : Nat) : Nat := fld r 14 8

/-- The checks of the quota records: reserved bits; a colour twice or not bound; Q and the sum above 64 (08 R144). -/
def State.quotaChecks (s : State) (n : Nat) (i : ImageHead) (w : List W64) : List Check :=
  let rs := quotaRecords i.ncol w
  let f := fun (k : Nat) (ok : Bool) (b : Nat) =>
    (ok, ({ word := i.va + 32 + 4 * k, at_ := i.va + 32 + 4 * k, kind := 3, bit := b } : ImageFault))
  ((List.range i.ncol).flatMap fun k =>
    let r := rs.getD k 0
    let c := r % 256
    [f k (fld r 31 15 == 0) 15,
     f k (1 ≤ quotaOf r && quotaOf r ≤ 64 && (rs.take (k + 1)).foldl (fun a q => a + quotaOf q) 0 ≤ 64) 8,
     f k (s.boundAt n c && (rs.take k).all fun q => q % 256 != c) 0]) ++
    [f i.ncol ((quotaRecords (2 * i.quotaWords) w).drop i.ncol |>.all (· == 0)) 0]

/-- The position that a source code's direction leads to in a grid of a side. -/
def gridStep (side row col d : Nat) : Option (Nat × Nat) :=
  match d with
  | 1 => if row == 0 then none else some (row - 1, col)
  | 2 => if col + 1 ≥ side then none else some (row, col + 1)
  | 3 => if row + 1 ≥ side then none else some (row + 1, col)
  | 4 => if col == 0 then none else some (row, col - 1)
  | 7 => some (row, col)
  | _ => none

/-- The bit of a destination mask for a direction (Table 02.13). -/
def dirBit (d : Nat) : Nat := if d == 7 then 5 else d - 1

def findAt (rs : List ElemRecord) (p : Nat × Nat) : Option ElemRecord := rs.find? fun r => (r.row, r.col) == p

/-- An output in a direction reaches an input sourced from it; an input in a direction is sent something (09 R158). -/
def ElemRecord.feeds (r : ElemRecord) (rs : List ElemRecord) (side d : Nat) : Bool :=
  match (gridStep side r.row r.col d).bind (findAt rs) with
  | some m => (List.range 4).any fun i => (m.cfg.q i).toNat == opposite d
  | none => false
def ElemRecord.fed (r : ElemRecord) (rs : List ElemRecord) (side d : Nat) : Bool :=
  match (gridStep side r.row r.col d).bind (findAt rs) with
  | some m => m.mask.getLsbD (dirBit (opposite d))
  | none => false

/-- Links of a mask that lead out of the image or to no input. -/
def ElemRecord.outOk (r : ElemRecord) (rs : List ElemRecord) (side : Nat) (m : BitVec 6) : Bool :=
  (maskDirs m).all fun d => r.feeds rs side d

/-- Elements reached from those of a list through configured links, in at most `k` more steps. -/
def reach (rs : List ElemRecord) (side : Nat) : Nat → List (Nat × Nat) → List (Nat × Nat)
  | 0, l => l
  | k + 1, l =>
    let next := rs.filter fun r => [1, 2, 3, 4].any fun d =>
      (r.mask.getLsbD (dirBit d) || (List.range 4).any fun i => (r.cfg.q i).toNat == d) &&
        match gridStep side r.row r.col d with | some p => l.contains p | none => false
    reach rs side k ((l ++ next.map fun r => (r.row, r.col)).eraseDups)

/-- The core of a record's quarter. -/
def ImageHead.coreAt (i : ImageHead) (r : ElemRecord) : Nat := i.target + (if i.quad then r.row / 8 * 2 + r.col / 8 else 0)

/-- The port sides a configuration uses: (core, port, entry). -/
def ImageHead.sides (i : ImageHead) (r : ElemRecord) : List (Nat × Nat × Bool) :=
  (if usesEntry r.cfg then [(i.coreAt r, r.cfg.port.toNat, true)] else []) ++
    (if usesExit r.cfg then [(i.coreAt r, r.cfg.port.toNat, false)] else [])

/-- n × share of a VANE's configuration (23 R321, R322); 0 for another op. -/
def vaneLoad (op : BitVec 8) (c : ElemCfg) : Nat := if op == 0x48 then (fld c.const.toNat 31 20 + 1) * c.share.toNat else 0
/-- The sum over an element's other slots. -/
def State.vaneOther (s : State) (e sl : Nat) : Nat :=
  ((List.range 4).filter (· != sl)).foldl (fun a k => a + vaneLoad (s.slot e k).op (s.slot e k).cfg) 0

/-- The operation word's checks: class and op, the fields from the top, an input taken from a queue, VANE's row buffer. -/
def State.opChecks (s : State) (i : ImageHead) (r : ElemRecord) : List (Bool × Nat) :=
  let o := r.cfg
  let at_ := gridElem i.handle r.row r.col
  let cls := match opInfo r.op, at_ with | some k, some e => k.cls == elemClass e | _, _ => true
  (cls, 56) :: ((o.checks r.op).filter fun c => c.2.1 == 0).map (fun c => (c.1, c.2.2)) ++
    [(o.nin != 1 || o.cin == 0, 40),
     (match at_ with | some e => vaneLoad r.op o + s.vaneOther e i.slot ≤ 16384 | none => true, 0)]

/-- Port sides of a slot that a channel end with en = 1 names: they count as used (25 R346). -/
def State.channelSides (s : State) (sl : Nat) : List (Nat × Nat × Bool) :=
  (s.channels.filter fun q => q.2.en && q.2.slot.toNat == sl).map fun q => (q.2.core.toNat, q.2.port.toNat, q.2.recv)

/-- The routing word's checks, fields from the top down; `PORT` on an element without a port names the port field (log 68). -/
def ElemRecord.routeChecks (r : ElemRecord) (i : ImageHead) (rs : List ElemRecord) (quotas : Nat) (joined : Bool)
    (earlier : List ElemRecord) (used : List (Nat × Nat × Bool)) : List (Bool × Nat) :=
  let o := r.cfg
  let base := fun (b : Nat) => ((o.checks r.op).filter fun c => c.2.1 == 1 && c.2.2 == b).all (·.1)
  let at_ := gridElem i.handle r.row r.col
  let isl := match at_ with | some e => elemCol e == 7 && elemClass e == 'A' | none => true
  let port := match at_ with | some e => portElem e | none => true
  let src := fun (k : Nat) =>
    let d := (o.q k).toNat
    base (52 + 3 * k) && (!(d == 6) || isl) && (!([1, 2, 3, 4, 7].contains d) || r.fed rs i.side d)
  [(src 3, 61), (src 2, 58), (src 1, 55), (src 0, 52),
    (base 46 && r.outOk rs i.side o.out0 && joined, 46), (base 40 && r.outOk rs i.side o.out1, 40),
    (base 33 && quotas ≤ o.share.toNat, 33), (!o.ordx || usesExit o, 32),
    ((!(usesEntry o || usesExit o) || port) &&
      (i.sides r).all (fun k => !((earlier.flatMap fun q => i.sides q).contains k || used.contains k)), 28),
    (ElemCfg.rsv (r.rtw ++ r.opw), 0)]

/-- The checks of an element record, word by word. -/
def State.elemChecks (s : State) (n : Nat) (i : ImageHead) (rs : List ElemRecord) (quotas : Nat) (k : Nat) (r : ElemRecord) :
    List Check :=
  let f := fun (off kind : Nat) (c : Bool × Nat) =>
    (c.1, ({ word := r.at_ + off, at_ := r.at_, kind := kind, bit := c.2, row := r.row, col := r.col } : ImageFault))
  let joined := match rs.head? with
    | some q => (reach rs i.side rs.length [(q.row, q.col)]).contains (r.row, r.col)
    | none => true
  let inGrid := r.row < i.side && r.col < i.side
  let here := inGrid && s.corePresent (i.coreAt r) && s.partOf (i.coreAt r) == s.partOf n &&
    (rs.take k).all fun q => (q.row, q.col) != (r.row, r.col)
  (s.opChecks i r).map (f 0 0) ++ (r.routeChecks i rs quotas joined (rs.take k) (s.channelSides (hSlot i.handle))).map (f 8 1) ++
    [f 16 5 (fld r.pos.toNat 63 8 == 0, 8), f 16 5 (r.row < i.side, 4), f 16 5 (here, 0), f 24 6 (r.rsv == 0, 0)]

/-- Element k's record among the words after the quota records. -/
def ImageHead.record (i : ImageHead) (w : List W64) (k : Nat) : ElemRecord :=
  { at_ := i.elemBase + 32 * k, opw := w.getD (4 * k) 0, rtw := w.getD (4 * k + 1) 0, pos := w.getD (4 * k + 2) 0,
    rsv := w.getD (4 * k + 3) 0 }

/-- A table record: the position and the 256 entries; each names a STAB element of the image, and none is named twice. -/
def tablePos (w : List W64) (k : Nat) : W64 := w.getD (130 * k) 0
def tableOf (w : List W64) (k : Nat) : List W32 :=
  (List.range 256).map fun j => w32 (fld (w.getD (130 * k + 2 + j / 2) 0).toNat (32 * (j % 2) + 31) (32 * (j % 2)))

def ImageHead.tableChecks (i : ImageHead) (rs : List ElemRecord) (w : List W64) : List Check :=
  let pos := fun (k : Nat) => (tablePos w k).toNat
  let f := fun (a k : Nat) (ok : Bool) =>
    (ok, ({ word := a, at_ := i.tableBase + 1040 * k, kind := 4, bit := 0, row := fld (pos k) 7 4, col := fld (pos k) 3 0 } : ImageFault))
  ((List.range i.ntab).flatMap fun k =>
    let p := (fld (pos k) 7 4, fld (pos k) 3 0)
    [f (i.tableBase + 1040 * k) k (pos k < 256 && (match findAt rs p with | some r => r.op == 0x3C | none => false) &&
        (List.range k).all fun j => (fld (pos j) 7 4, fld (pos j) 3 0) != p),
     f (i.tableBase + 1040 * k + 8) k (w.getD (130 * k + 1) 0 == 0)]) ++
    [f i.tableBase 0 (rs.all fun r => r.op != 0x3C || (List.range i.ntab).any fun k =>
      (fld (pos k) 7 4, fld (pos k) 3 0) == (r.row, r.col))]

/-- The first failing check. -/
def firstFault (l : List Check) : Option ImageFault := (l.find? fun c => !c.1).map (·.2)

/-- Read and check an image for a load by core n onto a target core (09 R157, R158): its handle and content. -/
def State.readImage (s : State) (n : Nat) (rd : Reader) (va : W64) (target : Nat) : Except ImageStop (Nat × Image) :=
  match readWords rd va.toNat 4 with
  | .error e => .error (.access e)
  | .ok hw =>
    let i : ImageHead := { va := va.toNat, target := target, d0 := (hw.getD 0 0).toNat }
    if i.quad && target % 4 != 0 then .error .target else
    match firstFault (i.checks hw) with
    | some f => .error (.config i.handle f)
    | none =>
      match readWords rd (i.va + 32) i.quotaWords with
      | .error e => .error (.access e)
      | .ok qw =>
        match readWords rd i.elemBase (4 * i.nelem) with
        | .error e => .error (.access e)
        | .ok ew =>
          match readWords rd i.tableBase (130 * i.ntab) with
          | .error e => .error (.access e)
          | .ok tw =>
            let rs := (List.range i.nelem).map fun k => i.record ew k
            let qs := (quotaRecords i.ncol qw).map fun r => (r % 256, quotaOf r)
            let total := qs.foldl (fun a q => a + q.2) 0
            let elems := (List.range i.nelem).flatMap fun k => s.elemChecks n i rs total k (i.record ew k)
            match firstFault (s.quotaChecks n i qw ++ elems ++ i.tableChecks rs tw) with
            | some f => .error (.config i.handle f)
            | none =>
              let img : Image :=
                { at_ := va, oneShot := bitAt i.d0 6, dexp := i.dexp, rexp := i.rexp, quotas := qs,
                  elems := rs.map fun r =>
                    { elem := (gridElem i.handle r.row r.col).getD 0, op := r.op, cfg := r.cfg,
                      table := match (List.range i.ntab).find? (fun k =>
                          (fld (tablePos tw k).toNat 7 4, fld (tablePos tw k).toNat 3 0) == (r.row, r.col)) with
                        | some k => tableOf tw k
                        | none => [] } }
              .ok (i.handle, img)

/-- The configuration record of a load (19 Tables 19.6, 19.7). -/
def State.loadRecord (s : State) (n h code : Nat) (f : ImageFault) : State :=
  s.recordAt n { code := code, kind := 2, core := hCore h, slot := hSlot h, row := f.row, col := f.col, handle := h,
                 addr := w64 f.at_, detail := w64 (f.kind * 256 + f.bit) }

/-- The target of a load is a core of the partition of core n (09, RLOAD). -/
def State.targetOk (s : State) (n : Nat) (w : W64) : Bool :=
  w.toNat < 1024 && s.corePresent w.toNat && s.partOf w.toNat == s.partOf n

/-- RLOAD: the image is read and checked at execute; the load is held (09 R158, R179). An image word from a frame that is not
sealed, where it must be, is a configuration fault (26 R368). -/
def execRload (o : RRR) (s : State) : Out :=
  let va := s.x o.a
  let t := s.x o.b
  .next (if !s.guard o.g o.gs then s
    else if va.toNat % 32 != 0 then s.stopFor (.fault 0x08 0 va)
    else if !s.targetOk s.cur t then s.stopFor (.fault 0x21 0 t)
    else
      match s.readImage s.cur (fun a => match s.load (w64 a) 8 with
          | .error e => .error e
          | .ok (t, bs) =>
            if s.mustBeSealed s.myColour && !s.sealedFrame t.home then .error (.fault 0x22 0 (w64 a))
            else .ok (w64 (bytesNat bs))) va t.toNat with
      | .error (.access e) => s.stopFor e
      | .error .target => s.stopFor (.fault 0x21 0 t)
      | .error (.config h f) => (s.loadRecord s.cur h 0x22 f).stopFor (.fault 0x22 0 (w64 f.word))
      | .ok (h, img) =>
        (s.setX o.d (w64 h)).hold (.load
          { core := s.cur, target := t.toNat, handle := h, force := o.func == 1, loader := false, pin := false, img := img }))

end Sys2Proof.Machine
end

