-- ==== Sys2Proof/Machine/Regions.lean ====
section
/-!
DEFINITION. Regions: the loader and Table 09.5 (09 R159 to R162), the calm tree (R163), the doldrums watchdog and purges (R164 to
R166), the region commands (R179; 08 R147) and their events.
-/
namespace Sys2Proof.Machine

/-! ## Handles -/

/-- 09 R179: reserved bits, the low core bits of a quad grid, or a grid outside the issuing core's partition. -/
def State.badHandle (s : State) (n : Nat) (w : W64) : Bool :=
  w.toNat ≥ 65536 || (hQuad w.toNat && hCore w.toNat % 4 != 0) || s.partOf (hCore w.toNat) != s.partOf n

/-- LOADING, RESIDENT or TORN. -/
def Region.here (r : Region) : Bool := r.st == .loading || r.st == .resident || r.st == .torn
/-- RESIDENT or TORN. -/
def Region.inUse (r : Region) : Bool := r.st == .resident || r.st == .torn
def State.liveRegions (s : State) : List (Nat × Region) := s.regions.filter fun r => r.2.here

/-! ## Sections that end early (09 R175) -/

/-- Give sections that have not ended a status to end with. -/
def State.markSections (s : State) (f : Section → Option Nat) : State :=
  { s with cores := s.cores.map fun n =>
      (n.1, { n.2 with sections := n.2.sections.map fun t =>
        (t.1, if t.2.used && t.2.ending.isNone && t.2.done.isNone then { t.2 with ending := f t.2 } else t.2) }) }

/-- Sections armed on a region and not ended (Table 09.12). -/
def State.armedOn (s : State) (h : Nat) : Nat :=
  s.cores.foldl (fun a n => a + (n.2.sections.filter fun t =>
    t.2.used && t.2.ending.isNone && t.2.done.isNone && t.2.regions.contains h).length) 0

/-! ## The status word (Table 09.12) -/

def stateCode : RegionState → Nat
  | .empty => 0 | .loading => 1 | .resident => 2 | .torn => 3 | .refused => 4

/-- The calm tree reports a colour calm in a region: two sweeps in a row found nothing of it (09 R163). -/
def Region.calmColour (r : Region) (c : Nat) : Bool :=
  !r.inUse || r.quiet ≥ 2 || (if (r.colour c).quota == 0 then r.sweeps ≥ 2 else (r.colour c).quiet ≥ 2)

/-- `col` is the colour of `.col`, or none. -/
def State.regionWord (s : State) (h : Nat) (col : Option Nat) : W64 :=
  let r := s.region h
  let calm := !r.inUse || r.quiet ≥ 2
  let cc := match col with | some c => r.calmColour c | none => false
  w64 (r.supp * 2 ^ 40 + r.stale * 2 ^ 20 + Nat.min 15 (s.armedOn h) * 2 ^ 8 + stateCode r.st * 8 + b2n cc * 2 + b2n calm)

/-- A waiting RCALM `.reg` or `.col` of the region is answered where its condition holds (09, RCALM). -/
def State.answerCalm (s : State) (h : Nat) : State :=
  let r := s.region h
  { s with cores := s.cores.map fun n =>
      (match n.2.blk.wait, n.2.blk.ans with
        | .rcalm fn _ k c _, .none =>
          if k == h && fn ≤ 1 && (!r.inUse || r.quiet ≥ 2 || (fn == 1 && r.calmColour c.toNat)) then
            (n.1, { n.2 with blk := { n.2.blk with ans := .val (s.regionWord h (if fn == 1 then some c.toNat else none)) } })
          else n
        | _, _ => n) }

/-! ## Channel ends and their regions (25 R346, R347, R351) -/

def State.setEnd (s : State) (k : Nat) (e : ChanEnd) : State := { s with channels := Sp.put s.channels k e }

/-- The end no longer takes part in its channel's traffic: its places are discarded, its credits cleared (25 R351). -/
def ChanEnd.leave (e : ChanEnd) (st : EndState) : ChanEnd :=
  let n := e.places.foldl (fun a q => a + q.2.length) 0
  { e with st := st, region := none, readied := false, window := 0, colours := 0, spent := [], places := [], stale := satAdd 32 e.stale n }

/-- The end leaves its state; where it was OPEN its peer is told by a close frame, so that its credits are cleared (R347, R351; log
55). -/
def State.endLeaves (s : State) (k : Nat) (e : ChanEnd) (st : EndState) : State :=
  let s := s.setEnd k (e.leave st)
  if e.st == .opened then s.sendFrame e 3 0 0 [] else s

/-- A channel end goes into FAULT and leaves a record (25 R347; 26 R361). -/
def State.channelFault (s : State) (k : Nat) (e : ChanEnd) : State :=
  (s.endLeaves k e .fault).record (k / 64)
    { code := 0x1B, kind := 5, core := e.core.toNat, slot := e.slot.toNat, addr := e.word, detail := e.port.setWidth 64 }

/-- Port sides of an element of an image: (core, port, entry). -/
def imageSides (i : ImageElem) : List (Nat × Nat × Bool) :=
  (if usesEntry i.cfg then [(elemCore i.elem, i.cfg.port.toNat, true)] else []) ++
    (if usesExit i.cfg then [(elemCore i.elem, i.cfg.port.toNat, false)] else [])

/-- The RESIDENT region that uses an end's side, with its generation. -/
def State.endRegion (s : State) (e : ChanEnd) : Option (Nat × BitVec 6) :=
  (s.regions.find? fun r => r.2.st == .resident && hSlot r.1 == e.slot.toNat &&
    r.2.elems.any fun i => (imageSides i).contains (e.core.toNat, e.port.toNat, e.recv)).map fun r => (r.1, r.2.gen)

/-- An end follows its region (R347): CLOSED to WAIT once one is RESIDENT; OPEN to WAIT when it leaves. -/
def State.follow (s : State) (k : Nat) : State :=
  let e := s.chanEnd k
  let r := s.endRegion e
  if !e.en then s
  else match e.st with
    | .closed => if r.isSome then s.setEnd k { e with st := .wait, region := r, readied := false } else s
    | .wait => s.setEnd k { e with region := r }
    | .opened =>
      if e.region == r then s
      else if e.region.isNone then s.setEnd k { e with region := r }
      else let s := s.endLeaves k e .wait; s.setEnd k { s.chanEnd k with region := r }
    | .fault => s

/-- Every end follows its region. -/
def State.endsFollow (s : State) : State := (s.channels.map (·.1)).foldl (fun s k => s.follow k) s

/-! ## Emptying and tearing down (Table 09.5, R162) -/

/-- The element's slot is freed. -/
def State.freeSlot (s : State) (e sl : Nat) : State := s.setSlot e sl ElemSlot.reset

/-- The region reaches EMPTY: its elements, port sides and keys are freed. The counts of Table 09.12 stand until its next load. -/
def State.emptyRegion (s : State) (h : Nat) : State :=
  let sides := (s.regionPorts h true ++ s.regionPorts h false).map fun p => portKey p.1 p.2 (hSlot h)
  let s := (s.regionElems h).foldl (fun s e => s.freeSlot e (hSlot h)) s
  let s := { s with entryq := s.entryq.filter (fun q => !sides.contains (q.1 / 256)),
                    exitq := s.exitq.filter (fun q => !sides.contains (q.1 / 256)),
                    expect := s.expect.filter fun q => !sides.contains (q.1 / 1024 / 256) }
  let r := s.region h
  (s.setRegion h { Region.reset with part := r.part, gen := r.gen, supp := r.supp, stale := r.stale, used := r.used }).endsFollow

/-- A started section that names a torn region ends when that region reaches EMPTY (R175). -/
def State.tornEmpty (s : State) (h : Nat) : State :=
  (s.emptyRegion h).markSections fun t => if t.regions.contains h then some 3 else none

/-- Armed sections that have not started end as torn at once (R175). -/
def State.tornArmed (s : State) (h : Nat) : State :=
  s.markSections fun t => if t.regions.contains h && !t.started then some 3 else none

/-- RTEAR (Table 09.5). -/
def State.tear (s : State) (h : Nat) : State :=
  let r := s.region h
  match r.st with
  | .loading => (s.tornArmed h).tornEmpty h
  | .resident =>
    ((s.tornArmed h).setRegion h
      { r with st := .torn, quiet := 0, colours := r.colours.map fun c => (c.1, { c.2 with closed := true, reopen := false }) }).endsFollow
  | _ => s

/-- RTEAR.force, and the teardown of a forced load (R162): every token is discarded into the stale count. -/
def State.tearForce (s : State) (h : Nat) : State :=
  if (s.region h).here then
    let s := s.tornArmed h
    let d := s.discardIn h (fun _ => true)
    ((d.1.addStale h d.2).tornEmpty h).answerCalm h
  else s

/-! ## Loading (R159 to R162) -/

/-- The next generation that no live region of the slot in the quad holds (R159). -/
def State.nextGen (s : State) (quad sl : Nat) : BitVec 6 :=
  let used := (s.liveRegions.filter fun r => hSlot r.1 == sl && hCore r.1 / 4 == quad).map fun r => r.2.gen
  let cur := Sp.get 0 s.gens (quad * 4 + sl)
  ((List.range 64).map fun i => cur + BitVec.ofNat 6 (i + 1)).find? (fun g => !used.contains g) |>.getD (cur + 1)

/-- Shares that the other slots of an element hold, resident or reserved (R161, 08 R144); a region that leaves a slot and the one that
loads into it both count (log 74). -/
def State.otherShares (s : State) (e sl : Nat) : Nat :=
  s.liveRegions.foldl (fun a r =>
    if hSlot r.1 == sl then a
    else (r.2.elems.filter fun i => i.elem == e).foldl (fun a i => a + i.cfg.share.toNat) a) 0

/-- n × share of the VANEs that the other slots hold or have reserved (23 R322). -/
def State.otherVanes (s : State) (e sl : Nat) : Nat :=
  s.liveRegions.foldl (fun a r =>
    if hSlot r.1 == sl then a
    else (r.2.elems.filter fun i => i.elem == e).foldl (fun a i => a + vaneLoad i.op i.cfg) a) 0

/-- Regions of the slot that share an element with an image. -/
def State.sharers (s : State) (sl : Nat) (img : Image) : List (Nat × Region) :=
  s.liveRegions.filter fun r => hSlot r.1 == sl && r.2.elems.any fun i => img.elems.any fun j => j.elem == i.elem

/-- Address of element k's record, of quota record k. -/
def Image.elemAddr (g : Image) (k : Nat) : Nat := g.at_.toNat + 32 + 8 * ((g.quotas.length + 3) / 4 * 2) + 32 * k
def Image.quotaAddr (g : Image) (k : Nat) : Nat := g.at_.toNat + 32 + 4 * k

/-- The dynamic checks of a delivered load (R161): the code of the first that fails, and what its record names. -/
def State.loadFails (s : State) (c : LoadCmd) : Option (Nat × ImageFault) :=
  let sl := hSlot c.handle
  let head : ImageFault := { word := 0, at_ := c.img.at_.toNat, kind := 2, bit := 3 }
  let at_ := fun (k : Nat) (bit : Nat) =>
    match c.img.elems[k]? with
    | some i =>
      let p := gridPos c.handle i.elem
      ({ word := 0, at_ := c.img.elemAddr k, kind := 1, bit := bit, row := p.1, col := p.2 } : ImageFault)
    | none => head
  let taken := (s.liveRegions.filter fun r => hSlot r.1 == sl).flatMap (fun r => r.2.elems.flatMap imageSides) ++ s.channelSides sl
  if (s.region c.handle).here then some (0x62, head)
  else if (s.sharers sl c.img).any fun r => r.2.st == .loading || (r.2.st == .resident && !r.2.oneShot) then some (0x63, head)
  else
    match (List.range c.img.elems.length).find? fun k =>
      (c.img.elems[k]?).any fun i => i.cfg.share.toNat + s.otherShares i.elem sl > 64 ||
        vaneLoad i.op i.cfg + s.otherVanes i.elem sl > 16384 with
    | some k => some (0x64, at_ k 33)
    | none =>
      match (List.range c.img.elems.length).find? fun k =>
        (c.img.elems[k]?).any fun i => (imageSides i).any fun q => taken.contains q with
      | some k => some (0x65, at_ k 28)
      | none =>
        match (List.range c.img.quotas.length).find? fun k => (c.img.quotas[k]?).any fun q => !s.boundAt c.core q.1 with
        | some k => some (0x66, { word := 0, at_ := c.img.quotaAddr k, kind := 3, bit := 0 })
        | none => none

/-- A load is delivered (Table 09.5). -/
def State.deliverLoad (s : State) (c : LoadCmd) : State :=
  let sl := hSlot c.handle
  let s := if c.force then (s.sharers sl c.img).foldl (fun s r => s.tearForce r.1) s else s
  let r := s.region c.handle
  match s.loadFails c with
  | some (code, f) =>
    let s := s.loadRecord c.core c.handle code f
    if code == 0x62 then s
    else (s.setRegion c.handle { r with st := .refused, part := s.partid c.core }).markSections fun t =>
      if t.regions.contains c.handle && !t.started then some 2 else none
  | none =>
    let quad := hCore c.handle / 4
    let g := s.nextGen quad sl
    let s := { s with gens := Sp.put s.gens (quad * 4 + sl) g }
    s.setRegion c.handle
      { Region.reset with
        st := .loading, part := s.partid c.core, gen := g, oneShot := c.img.oneShot, dexp := c.img.dexp, rexp := c.img.rexp,
        colours := c.img.quotas.foldl (fun m q => Sp.put m q.1 { RColour.reset with quota := q.2 }) [],
        elems := c.img.elems, left := c.img.elems.map (·.elem),
        loader := if c.loader then some (c.img.at_, c.target) else none, pin := c.pin, used := r.used }

/-- The grid of a core, or of its quad (09 R148). -/
def gridKey (quad : Bool) (n : Nat) : Nat := (if quad then n - n % 4 else n) * 2 + b2n quad

/-- An injected token (Table 09.13). -/
def injected (b c : W64) : Token :=
  { value := b.extractLsb' 32 32, colour := b.extractLsb' 24 8, context := b.extractLsb' 14 10, iter := b.extractLsb' 0 14,
    fmt := c.extractLsb' 4 3, slot := 0, eor := c.getLsbD 3, eos := c.getLsbD 2, poison := c.getLsbD 1, bubble := c.getLsbD 0, gen := 0 }

/-- An injection at the head of its queue: discarded where its colour is closed or purging; it waits for its key and for room
(09, RINJ). None while it waits. Where the region is still LOADING or no longer holds the element, the token is dropped and counted
nowhere: DESIGN CHOICE, unsafe (log 79). -/
def State.deliverInject (s : State) (h : Nat) (b c : W64) : Option State :=
  let t := injected b c
  let r := s.region h
  let col := t.colour.toNat
  match gridElem h (fld c.toNat 15 12) (fld c.toNat 11 8) with
  | none => some s
  | some e =>
    let v := s.slot e (hSlot h)
    if !r.inUse || !v.on || v.region != h then some s
    else if (r.colour col).closed || (r.colour col).purging then some (s.addPurged h col 1)
    else
      let m := if c.getLsbD 7 then v.cfg.out1 else v.cfg.out0
      if s.roomBorn e (hSlot h) m (tagOf t) && !(s.elem e).counting && !v.blocked (tagOf t) then
        let s := s.bear h (tagOf t)
        let v := s.slot e (hSlot h)
        let s := s.setSlot e (hSlot h) { v with holds := v.holds.erase (tagOf t) }
        let s := s.output e (hSlot h) (c.getLsbD 7) t
        -- the element has emitted the token, as if it had fired (R173)
        some (if isSink v.op.toNat && t.eos then s.countSink (elemSink e (hSlot h)) col t.context.toNat else s)
      else none

/-- LOAD_DELIVERY: the head of a grid's loader queue (09 R161, R179). -/
def execLoadDelivery (quad : Bool) (n : CoreNum) (s : State) : Out :=
  let g := gridKey quad n.toNat
  let rest := fun (s : State) => { s with loaders := Sp.set [] s.loaders g ((Sp.get [] s.loaders g).drop 1) }
  .next (match (Sp.get [] s.loaders g).head? with
    | none => s
    | some (.load c) => (rest s).deliverLoad c
    | some (.inject h b c) =>
      match s.deliverInject h b c with
      | some t => rest t
      | none => s)

/-- ELEMENT_WRITE: the next element of a LOADING region whose slot is free is written; the last makes the region RESIDENT (09
R159, R161). -/
def execElementWrite (h : Handle) (s : State) : Out :=
  let h := h.toNat
  let r := s.region h
  let sl := hSlot h
  .next (if r.st != .loading then s else
    match r.elems.find? fun i => r.left.contains i.elem && !(s.slot i.elem sl).on with
    | none => s
    | some i =>
      let side := portKey (elemCore i.elem) i.cfg.port.toNat sl
      let s := if usesExit i.cfg then { s with expect := s.expect.filter fun q => q.1 / 1024 / 256 != side } else s
      let s := s.setSlot i.elem sl { ElemSlot.reset with op := i.op, cfg := i.cfg, table := i.table, region := h, gen := r.gen }
      let left := r.left.filter (· != i.elem)
      let s := s.setRegion h { r with left := left, st := if left.isEmpty then .resident else .loading }
      if left.isEmpty then s.endsFollow else s)

/-! ## Purges (R165, R166) -/

/-- The purge of a colour starts; one that runs absorbs another (R166). -/
def State.purge (s : State) (h c : Nat) : State :=
  let r := s.region h
  if (r.colour c).quota == 0 || !r.inUse || (r.colour c).purging then s else
  let s := s.setRegion h (r.setColour c { r.colour c with closed := true, purging := true, reopen := false, quiet := 0 })
  let d := s.discardIn h (fun k => k.toNat == c)
  let s := d.1.addPurged h c d.2
  let r := s.region h
  s.setRegion h { r with keys := r.keys.filter fun k => k.1.colour.toNat != c }

/-- PURGE_END: the calm tree reports the colour calm and no request of it is outstanding (R166); sections of the colour end as
purged (R175). -/
def execPurgeEnd (h : Handle) (c : BitVec 8) (s : State) : Out :=
  let h := h.toNat
  let r := s.region h
  let k := r.colour c.toNat
  .next (if k.purging && k.quiet ≥ 2 && !s.requesting h c.toNat then
    let s := { s with ctxs := s.ctxs.filter fun x => !(x.2.region == h && x.2.colour == c) }
    let s := s.setRegion h (r.setColour c.toNat
      { k with purging := false, reopen := false, closed := k.closed && !k.reopen, stopped := k.stopped && !k.reopen })
    s.markSections fun t => if t.regions.contains h && t.colour == c.toNat then some 1 else none
  else s)

/-- DOLDRUMS: the counter of a colour has reached 2^dexp: the region purges it and records its live keys (R165). -/
def execDoldrums (h : Handle) (c : BitVec 8) (s : State) : Out :=
  let h := h.toNat
  let r := s.region h
  let k := r.colour c.toNat
  .next (if r.inUse && k.quota != 0 && !k.stopped && k.stall ≥ 2 ^ (if r.dexp == 0 then 24 else r.dexp) then
    let live := r.live c.toNat
    let s := s.recordAt (hCore h)
      { code := 0x58, kind := 2, colour := c.toNat, core := hCore h, slot := hSlot h, handle := h, detail := w64 live }
    let r := s.region h
    (s.setRegion h (r.setColour c.toNat { r.colour c.toNat with stall := 0, stopped := true })).purge h c.toNat
  else s)

/-- n cycles pass for the doldrums counters (R164). -/
def State.tickDoldrums (s : State) (n : Nat) : State :=
  { s with regions := s.regions.map fun r =>
      if r.2.inUse then
        (r.1, { r.2 with colours := r.2.colours.map fun c =>
          (c.1, if c.2.stopped || !s.holdsColour r.1 c.1 then { c.2 with stall := 0 }
                else if s.requesting r.1 c.1 then c.2 else { c.2 with stall := c.2.stall + n }) })
      else r }

/-! ## The calm tree (R163) -/

/-- A LOOP's live tags of released keys are free again (08 R141). -/
def State.freeTags (s : State) (h : Nat) (gone : List Key) : State :=
  (s.regionElems h).foldl (fun s e =>
    let v := s.slot e (hSlot h)
    if v.loopTags.isEmpty then s else
    s.setSlot e (hSlot h) { v with loopTags := v.loopTags.map fun l =>
      { l with live := l.live.filter fun t => !gone.contains { colour := l.colour, context := l.context, iter := some (BitVec.ofNat 14 t) } } }) s

/-- One sweep over a region: keys released, colours and the region counted. -/
def State.sweepRegion (s : State) (h : Nat) : State :=
  let r := s.region h
  let found := s.keysIn h
  let keys := r.keys.map fun k => (k.1, if found.contains k.1 then 0 else k.2 + 1)
  let gone := (keys.filter fun k => k.2 ≥ 2).map (·.1)
  let cols := r.colours.map fun c =>
    (c.1, { c.2 with quiet := if found.any (fun k => k.colour.toNat == c.1) || s.requesting h c.1 then 0 else c.2.quiet + 1 })
  let s := s.freeTags h gone
  let r := s.region h
  s.setRegion h { r with keys := keys.filter (fun k => k.2 < 2), colours := cols, sweeps := Nat.min 2 (r.sweeps + 1),
                         quiet := if found.isEmpty then r.quiet + 1 else 0 }

/-- A freeing context that no region of its partition holds a token or entry of returns to the pool (08 R140). -/
def State.sweepContexts (s : State) (grid : Nat) : State :=
  let found := (s.regions.filter fun r => r.2.inUse).flatMap fun r => (s.keysIn r.1).map fun k => (r.2.part, k.context.toNat)
  { s with ctxs := s.ctxs.filterMap fun x =>
      if x.2.freeing && hGrid x.2.region == grid then
        let q := if found.contains (x.1 / 1024, x.1 % 1024) then 0 else x.2.quiet + 1
        if q ≥ 2 then none else some (x.1, { x.2 with quiet := q })
      else some x }

/-- CALM_SWEEP of a grid: every region in use is swept; a TORN region found calm twice reaches EMPTY; waiting RCALMs are
answered (R163, 09, RCALM). -/
def execCalmSweep (quad : Bool) (n : CoreNum) (s : State) : Out :=
  let g := gridKey quad n.toNat
  let hs := (s.regions.filter fun r => hGrid r.1 == g && r.2.inUse).map (·.1)
  let s := hs.foldl (fun s h => s.sweepRegion h) s
  let s := s.sweepContexts g
  .next (hs.foldl (fun s h =>
    let s := if (s.region h).st == .torn && (s.region h).quiet ≥ 2 then s.tornEmpty h else s
    s.answerCalm h) s)

/-! ## One-shot regions (R160) -/

/-- The element holds no token, entry or request of its slot's region, its port sides included. -/
def State.idleSlot (s : State) (e sl : Nat) : Bool :=
  let v := s.slot e sl
  let side := portKey (elemCore e) v.cfg.port.toNat sl
  ((s.elem e).keysOf sl v.region).isEmpty && v.holds.isEmpty &&
    !(usesEntry v.cfg && s.entryq.any fun q => q.1 / 256 == side && !q.2.isEmpty) &&
    !(usesExit v.cfg && s.exitq.any fun q => q.1 / 256 == side && !q.2.isEmpty)

/-- Every queue input has accepted the section's last eos (R160). -/
def State.lastEos (s : State) (e sl : Nat) : Bool :=
  let v := s.slot e sl
  match (s.region v.region).inSect with
  | none => false
  | some (_, _, tiles) => (List.range v.cfg.nin.toNat).all fun i => v.cfg.cinBit i || v.eosIn.getD i 0 ≥ tiles

/-- ONE_SHOT_FREE: an idle element of a one-shot region frees itself at its last eos, or is freed once the section has ended and two sweeps
after the end, with nothing entered since, found the region calm; the last makes the region EMPTY (R160). -/
def execOneShotFree (e : ElemNum) (sl : BitVec 2) (s : State) : Out :=
  let e := e.toNat
  let sl := sl.toNat
  let v := s.slot e sl
  let h := v.region
  let r := s.region h
  .next (if v.on && r.oneShot && r.st == .resident &&
      s.idleSlot e sl && (s.lastEos e sl || (r.ended && r.quiet ≥ 2 && (s.keysIn h).isEmpty)) then
    let s := s.freeSlot e sl
    let s := s.setRegion h { r with freed := r.freed ++ [e] }
    if r.elems.all fun i => i.elem == e || r.freed.contains i.elem then
      ((s.emptyRegion h).markSections fun t => if t.regions.contains h && !t.started then some 2 else none).answerCalm h
    else s
  else s)

/-! ## Colour and region commands -/

/-- COLQ and RPURGE name a region of the partition that is RESIDENT or TORN (08 R147). -/
def State.colourHandle (s : State) (w : W64) : Except XF Nat :=
  if s.badHandle s.cur w || !(s.region w.toNat).inUse then .error (.fault 0x20 0 w) else .ok w.toNat

/-- The word of Table 08.5. -/
def State.colqWord (s : State) (h c : Nat) : W64 :=
  let k := (s.region h).colour c
  if k.quota == 0 then 0
  else w64 (k.purged * 2 ^ 40 + b2n k.purging * 2 ^ 33 + b2n k.closed * 2 ^ 32 + k.quota * 2 ^ 16 + (s.region h).live c)

/-- COLQ.rd: at U only the core's own colour, any other reads as zero. -/
def execColqRd (o : RRR) (s : State) : Out :=
  checked o.g o.gs s fun s =>
    match s.colourHandle (s.x o.a) with
    | .error e => .error e
    | .ok h =>
      let c := (s.x o.b).toNat % 256
      .ok (s.setX o.d (if !s.me.lvlS && c != s.myColour then 0 else s.colqWord h c))

/-- COLQ.open and COLQ.close are held until commit. -/
def colqForm (o : RRR) (s : State) (isOpen : Bool) : Out :=
  checked o.g o.gs s fun s =>
    match s.colourHandle (s.x o.a) with
    | .error e => .error e
    | .ok h => .ok (s.hold (.colq h ((s.x o.b).setWidth 8) isOpen))
/-- COLQ.open. -/
def execColqOpen (o : RRR) (s : State) : Out := colqForm o s true
/-- COLQ.close. -/
def execColqClose (o : RRR) (s : State) : Out := colqForm o s false

/-- RPURGE. -/
def execRpurge (o : RRR) (s : State) : Out :=
  checked o.g o.gs s fun s =>
    match s.colourHandle (s.x o.a) with
    | .error e => .error e
    | .ok h => .ok (s.hold (.purge h ((s.x o.b).setWidth 8)))

/-- The delivery of COLQ.open or COLQ.close (08, COLQ). -/
def State.colqDeliver (s : State) (h c : Nat) (isOpen : Bool) : State :=
  let r := s.region h
  let k := r.colour c
  if k.quota == 0 || !r.inUse || (isOpen && r.st == .torn) then s
  else if isOpen then
    if k.purging then s.setRegion h (r.setColour c { k with reopen := true })
    else s.setRegion h (r.setColour c { k with closed := false, stopped := false })
  else s.setRegion h (r.setColour c { k with closed := true, reopen := false })

/-- RTEAR. -/
def execRtear (o : RRR) (s : State) : Out :=
  checked o.g o.gs s fun s =>
    let w := s.x o.a
    if s.badHandle s.cur w then .error (.fault 0x20 0 w) else .ok (s.hold (.tear w.toNat (o.func == 1)))

/-- The checks of RINJ: the position is an element of the region, the output has a mask, fmt, quota, reserved bits. -/
def State.injectOk (s : State) (h : Nat) (b c : W64) : Bool :=
  let row := fld c.toNat 15 12
  let col := fld c.toNat 11 8
  let r := s.region h
  c.toNat < 65536 && (injected b c).fmt != 7 && r.quota (injected b c).colour.toNat != 0 &&
    (match (gridElem h row col).bind fun e => r.elems.find? fun i => i.elem == e && !r.freed.contains e with
      | some i => (if c.getLsbD 7 then i.cfg.out1 else i.cfg.out0) != 0
      | none => false)

/-- RINJ. -/
def execRinj (o : RRR) (s : State) : Out :=
  checked o.g o.gs s fun s =>
    let w := s.x o.a
    if s.badHandle s.cur w then .error (.fault 0x20 0 w)
    else if !s.injectOk w.toNat (s.x o.b) (s.x o.c) then .error (.fault 0x26 0 (s.x o.c))
    else .ok (s.hold (.inject w.toNat (s.x o.b) (s.x o.c)))

/-- RCALM: a wait form. `.stat` answers at once, `.reg` and `.col` where the region is not in use, `.sect` where the entry is
free. -/
def execRcalm (o : RRR) (s : State) : Out :=
  checkedOpen o.g o.gs s fun s =>
    let w := s.x o.a
    let c : BitVec 8 := (s.x o.b).setWidth 8
    let k := (s.x o.b).toNat % 16
    let wait := fun (a : Answer) => Except.ok (s.waitOn (.rcalm o.func.toNat o.d.toNat w.toNat c k) a)
    if o.func == 2 then
      let t := Sp.get Section.reset s.me.sections k
      wait (if t.used then .none else .val (w64 t.status))
    else if s.badHandle s.cur w then .error (.fault 0x20 0 w)
    else if o.func == 1 && !s.me.lvlS && c.toNat != s.myColour then .error (.fault 0x25 0 (Config.openWord s.free))
    else if o.func == 3 || !(s.region w.toNat).inUse then
      wait (.val (s.regionWord w.toNat (if o.func == 1 then some c.toNat else none)))
    else wait .none

/-- The answer of RCALM: X[d] := the word; `.sect` acquires (17 R266). -/
def State.answerRcalm (s : State) (fn d : Nat) : State :=
  match s.blk.ans with
  | .val v => (if fn == 2 then s.l1DropAll s.cur else s).answerX d v
  | .cancelled => s.discard s.cur
  | _ => s

end Sys2Proof.Machine
end

