-- ==== Sys2Proof/Machine/Streams.lean ====
section
/-!
DEFINITION. Streams (10): descriptors and binding words, the pattern, the states of Table 10.1, the accesses of read streams, pad
writes and port writes, done actions, and the six stream forms with their events.
-/
namespace Sys2Proof.Machine

/-! ## Descriptor and binding word (Tables 10.2 to 10.4) -/

def Stream.d (q : Stream) (hi lo : Nat) : Nat := fld q.desc.toNat hi lo
def Stream.b (q : Stream) (hi lo : Nat) : Nat := fld q.bind.toNat hi lo
/-- Counts of the dimensions; n0 may be zero. -/
def Stream.n0 (q : Stream) : Nat := q.d 91 79
def Stream.n1 (q : Stream) : Nat := q.d 103 92 + 1
def Stream.n2 (q : Stream) : Nat := q.d 115 104 + 1
def Stream.n3 (q : Stream) : Nat := q.d 127 116 + 1
/-- Stride of dimension k in bytes. -/
def Stream.stride (q : Stream) (k : Nat) : Int := (BitVec.ofNat 32 (q.d (159 + 32 * k) (128 + 32 * k))).toInt
/-- 0 port, 1 pad, 2 island, 3 crown. -/
def Stream.target (q : Stream) : Nat := q.d 65 64
def Stream.base (q : Stream) : Nat := q.d 56 0
def Stream.tstride (q : Stream) : Int := (BitVec.ofNat 24 (q.b 63 40)).toInt
def Stream.toff (q : Stream) : Nat := q.b 39 19
def Stream.fmt (q : Stream) : Nat := q.b 18 16
def Stream.write (q : Stream) : Bool := q.bind.getLsbD 15
def Stream.slot (q : Stream) : Nat := q.b 14 13
def Stream.port (q : Stream) : Nat := q.toff % 16
/-- Rows of a tile, and words. -/
def Stream.tileRows (q : Stream) : Nat := q.n1 * q.n2 * q.n3
def Stream.tileWords (q : Stream) : Nat := q.n0 * q.tileRows

/-- Tables 10.2 to 10.4 and R182. -/
def Stream.patternOk (q : Stream) : Bool :=
  q.d 63 57 == 0 && q.d 78 66 == 0 && q.b 12 0 == 0 && q.n0 ≤ 4096 && q.base % 4 == 0 &&
    ((List.range 4).all fun k => q.d (129 + 32 * k) (128 + 32 * k) == 0) &&
    (match q.target with
      | 0 => q.toff < 16 && q.fmt != 7
      | 1 => q.fmt == 0 && q.slot == 0 && q.toff ≤ 0x1FFFF && q.toff + q.tileWords ≤ 0x20000
      | 2 => q.fmt == 0 && q.slot == 0 && q.toff == 0 && !q.write
      | _ => q.fmt == 0 && q.slot == 0 && q.toff ≤ 0x17FFFF && !q.write && q.toff + q.tileWords ≤ 0x180000)

/-! ## The pattern (R183) -/

/-- Row of the position in its tile; n1 · n2 · n3 is past the last. -/
def Stream.r (q : Stream) : Nat := q.i1 + q.n1 * (q.i2 + q.n2 * q.i3)
def Stream.past (q : Stream) : Bool := q.i3 ≥ q.n3
def Stream.lastRow (q : Stream) : Bool := q.r + 1 == q.tileRows
/-- Address of the access at the position, modulo 2^57. -/
def Stream.addr (q : Stream) : Nat :=
  ((q.base + q.tile * q.tstride * 128 + q.i3 * q.stride 3 + q.i2 * q.stride 2 + q.i1 * q.stride 1 + q.i0 * q.stride 0) %
    (2 ^ 57 : Int)).toNat
/-- The position word (Table 10.7). -/
def Stream.position (q : Stream) : W64 :=
  w64 (q.tile % 2 ^ 16 * 2 ^ 48 + q.i3 % 2 ^ 12 * 2 ^ 36 + q.i2 * 2 ^ 24 + q.i1 * 2 ^ 12 + q.i0)
def stateNum : StreamState → Nat
  | .unbound => 0 | .bound => 1 | .reserved => 2 | .running => 3 | .closed => 4
/-- The status word (Table 10.8). -/
def Stream.status (q : Stream) : W64 :=
  w64 (stateNum q.st * 2 ^ 61 + b2n q.fault * 2 ^ 60 + q.tiles * 2 ^ 36 + q.context.toNat * 2 ^ 26 + q.colour.toNat * 2 ^ 18 + q.lost)
/-- The position at an index word. -/
def Stream.setPosition (q : Stream) (w : W64) : Stream :=
  { q with tile := fld w.toNat 63 48, i3 := fld w.toNat 47 36, i2 := fld w.toNat 35 24, i1 := fld w.toNat 23 12,
           i0 := fld w.toNat 11 0, row := [] }
/-- No index of a position word is beyond its count (SPOS.wr). -/
def Stream.indexOk (q : Stream) (w : W64) : Bool :=
  fld w.toNat 11 0 < Nat.max q.n0 1 && fld w.toNat 23 12 < q.n1 && fld w.toNat 35 24 < q.n2 && fld w.toNat 47 36 < q.n3

/-- The start of the next row, or the place past the last. -/
def Stream.nextRow (q : Stream) : Stream :=
  if q.i1 + 1 < q.n1 then { q with i0 := 0, i1 := q.i1 + 1 }
  else if q.i2 + 1 < q.n2 then { q with i0 := 0, i1 := 0, i2 := q.i2 + 1 }
  else { q with i0 := 0, i1 := 0, i2 := 0, i3 := q.i3 + 1 }
/-- The next position in the tile. -/
def Stream.advance (q : Stream) : Stream := if q.i0 + 1 < q.n0 then { q with i0 := q.i0 + 1 } else q.nextRow
def Stream.lose (q : Stream) : Stream := { q with lost := satAdd 18 q.lost 1 }

/-- The end of a tile: its done action falls due (R187); the last tile of a start ends it (Table 10.1); a gated stream closes (19
R298). -/
def Stream.tileEnd (q : Stream) : Stream :=
  let due := match q.done with
    | some a => q.due ++ [{ act := a, tile := q.tile, k := q.ended + 1, colour := q.colour, context := q.context, slot := q.slot }]
    | none => q.due
  let q := { q with tile := q.tile + 1, i3 := 0, i2 := 0, i1 := 0, i0 := 0, ended := q.ended + 1, due := due }
  if q.st != .running then q
  else if q.tile ≥ q.tiles then { q with st := .bound, tile := 0, inSect := none, gate := false }
  else if q.gate then { q with st := .closed, inSect := none, gate := false }
  else q

/-- As `advance`; the last position of a tile ends it. -/
def Stream.step (q : Stream) : Stream := if q.advance.past then q.advance.tileEnd else q.advance

/-! ## Table 10.1 -/

def Core.stream (c : Core) (i : Nat) : Stream := Sp.get Stream.reset c.streams i
def Core.setStream (c : Core) (i : Nat) (q : Stream) : Core := { c with streams := Sp.set Stream.reset c.streams i q }
def State.setStream (s : State) (n i : Nat) (q : Stream) : State := s.setCore n ((s.core n).setStream i q)

/-- The streams of a mask. -/
def maskBits (mask : Nat) : List Nat := (List.range 16).filter fun i => bitAt mask i

def Stream.bindTo (q : Stream) (b : Option (BitVec 256 × W64)) : Stream :=
  match b with
  | none => if q.st == .unbound then q else { q with st := .unbound, desc := 0, bind := 0, done := none, fault := false, gate := false }
  | some (d, w) =>
    { q with st := .bound, desc := d, bind := w, tile := 0, i3 := 0, i2 := 0, i1 := 0, i0 := 0, fault := false, gate := false,
             row := [] }

/-- A start (R186): from position 0 with the colour, context and tile count of a start word. -/
def Stream.begin (q : Stream) (colour : BitVec 8) (context : BitVec 10) (tiles : Nat) (lvlS : Bool) (sect : Option Nat) : Stream :=
  { q with st := .running, tile := 0, i3 := 0, i2 := 0, i1 := 0, i0 := 0, colour := colour, context := context, tiles := tiles,
           fault := false, lvlS := lvlS, inSect := sect, gate := false, ended := 0, row := [] }

def Stream.startBy (q : Stream) (resume : Bool) (w : W64) (lvlS : Bool) : Stream :=
  if resume then if q.st == .closed then { q with st := .running, fault := false, lvlS := lvlS } else q
  else if q.st == .bound || q.st == .closed then q.begin (w.extractLsb' 0 8) (w.extractLsb' 8 10) (fld w.toNat 47 32) lvlS none
  else q

def Stream.close (q : Stream) : Stream :=
  if q.st == .running && !q.write then { q with st := .closed, inSect := none, gate := false } else q

/-- The position is the start of its tile. -/
def Stream.atTile (q : Stream) : Bool := q.i3 == 0 && q.i2 == 0 && q.i1 == 0 && q.i0 == 0
/-- RSAVE `.gate` (19 R298). `busy`: an access of the tile is on its way. -/
def Stream.gateBy (q : Stream) (busy : Bool) : Stream :=
  if q.st == .running && !q.write then if q.atTile && !busy then q.close else { q with gate := true } else q

/-- A RUNNING stream whose position is past its last tile has no access left: it ends as after its last access (R183). -/
def Stream.spent (q : Stream) : Bool := q.st == .running && q.tile ≥ q.tiles
def Stream.finish (q : Stream) : Stream :=
  { q with st := .bound, tile := 0, i3 := 0, i2 := 0, i1 := 0, i0 := 0, inSect := none, gate := false }

/-- The done action of a record, and the state a record holds (19 Table 19.10). -/
def recordDone (r : List W64) : Option Done :=
  let c := r.getD 8 0
  if c.getLsbD 63 then some { tok := c.getLsbD 3, scope := fld c.toNat 2 0, arg := r.getD 7 0 } else none
def recordDesc (r : List W64) : BitVec 256 :=
  BitVec.ofNat 256 ((List.range 4).foldl (fun a k => a + (r.getD k 0).toNat * 2 ^ (64 * k)) 0)
def Stream.restore (q : Stream) (r : List W64) : Stream :=
  let st := r.getD 6 0
  let q := { q with
    st := (match fld st.toNat 63 61 with | 0 => .unbound | 1 => .bound | _ => .closed), desc := recordDesc r, bind := r.getD 4 0,
    tiles := fld st.toNat 51 36, context := st.extractLsb' 26 10, colour := st.extractLsb' 18 8, fault := st.getLsbD 60,
    lost := fld st.toNat 17 0, done := recordDone r, inSect := none, gate := false, ended := fld (r.getD 5 0).toNat 63 48 }
  q.setPosition (r.getD 5 0)

/-- What a held effect does to the streams of its core. -/
def streamEffect (m : Sparse Stream) (h : Held) : Sparse Stream :=
  let upd := fun (m : Sparse Stream) (i : Nat) (f : Stream → Stream) => Sp.set Stream.reset m i (f (Sp.get Stream.reset m i))
  match h with
  | .stream i b => upd m i fun q => q.bindTo b
  | .sstart mask resume w lvlS => (maskBits mask).foldl (fun m i => upd m i fun q => q.startBy resume w lvlS) m
  | .sclose mask => (maskBits mask).foldl (fun m i => upd m i Stream.close) m
  | .spos i w => upd m i fun q => q.setPosition w
  | .sdone i d => upd m i fun q => { q with done := d }
  | .gate mask => (maskBits mask).foldl (fun m i => upd m i fun q => q.gateBy false) m
  | .restStream i r => upd m i fun q => q.restore r
  | .arm _ _ desc _ _ =>
    (maskBits (fld (desc.headD 0).toNat 23 8)).foldl (fun m i =>
      upd m i fun q => if q.st == .bound then { q with st := .reserved } else q) m
  | _ => m

/-- A stream as the earlier instructions of the block leave it (R191). -/
def State.streamsSeen (s : State) : Sparse Stream := s.blk.held.foldl streamEffect s.me.streams
def State.streamSeen (s : State) (i : Nat) : Stream := Sp.get Stream.reset s.streamsSeen i

/-- Another stream of the core is bound to the side of a port (SBIND). -/
def State.sideBound (s : State) (skip : Option Nat) (port : Nat) (write : Bool) : Bool :=
  s.streamsSeen.any fun q => some q.1 != skip && q.2.st != .unbound && q.2.target == 0 && q.2.write == write && q.2.port == port

/-! ## The forms (R191) -/

/-- "stream busy" of a stream. -/
def streamBusy (i : Nat) : XF := .fault 0x28 0 (w64 i)

/-- A channel end of the partition that takes part names the side of a port (25 R346). -/
def State.channelNames (s : State) (n port : Nat) (entry : Bool) : Bool :=
  s.channels.any fun q => some (q.1 / 64) == s.partOf n && q.2.en && q.2.core.toNat == n && q.2.port.toNat == port && q.2.recv == entry

/-- SBIND: the faults in the order in which its entry lists them, the descriptor's, the pattern's, then "stream busy" (log 39). -/
def execSbind (o : STR) (s : State) : Out :=
  checked o.g o.gs s fun s =>
    let i := o.sid.toNat
    let q := s.streamSeen i
    let busy := q.st == .reserved || q.st == .running
    if o.func == 1 then if busy then .error (streamBusy i) else .ok (s.hold (.stream i none))
    else
      match s.controlBlock (s.x o.a) with
      | .error e => .error e
      | .ok (s, d) =>
        let b := s.x o.b
        let p := q.bindTo (some (d, b))
        if !p.patternOk then .error (.fault 0x29 0 b)
        else if busy || p.target == 0 && (s.sideBound (some i) p.port p.write || s.channelNames s.cur p.port (!p.write)) then
          .error (streamBusy i)
        else .ok (s.hold (.stream i (some (d, b))))

/-- A start word of SSTART: its other bits are zero, tiles is not, the colour is bound, and at U the core's own. -/
def State.startOk (s : State) (w : W64) : Bool :=
  fld w.toNat 31 18 == 0 && fld w.toNat 63 48 == 0 && fld w.toNat 47 32 != 0 && s.boundAt s.cur (w.toNat % 256) &&
    (s.me.lvlS || w.toNat % 256 == s.myColour)

/-- SSTART: the start is ordered behind the core's earlier accesses as behind FENCE.rw.package (R186). -/
def execSstart (o : STR) (s : State) : Out :=
  checked o.g o.gs s fun s =>
    let resume := o.func == 1
    match (maskBits o.smask.toNat).find? fun i =>
        let q := s.streamSeen i
        !(q.st == .closed || (!resume && q.st == .bound)) with
    | some i => .error (streamBusy i)
    | none =>
      if !resume && !s.startOk (s.x o.a) then .error (.fault 0x2A 0 (s.x o.a))
      else .ok ((s.hold (.release false)).hold (.sstart o.smask.toNat resume (s.x o.a) s.me.lvlS))

/-- SCLOSE. -/
def execSclose (o : STR) (s : State) : Out := plain o.g o.gs s fun s => s.hold (.sclose o.smask.toNat)

/-- SBAR: a wait form; `.hold` stops the streams and writes back the dirty lines at once. -/
def execSbar (o : STR) (s : State) : Out :=
  plain o.g o.gs s fun s =>
    let hold := o.func.getLsbD 3
    let s := if hold then
      let s := s.l1WriteBackAll s.cur
      (maskBits o.smask.toNat).foldl (fun s i => s.setMe (s.me.setStream i { s.me.stream i with hold := true })) s
      else s
    s.waitOn (.sbar o.smask.toNat hold (o.func.toNat % 8 == 6)) .none

/-- The streams of a mask go on. -/
def State.releaseStreams (s : State) (n mask : Nat) : State :=
  (maskBits mask).foldl (fun s i => s.setStream n i { (s.core n).stream i with hold := false }) s

/-- A read that the stream has issued is not performed yet (17 R262). -/
def State.streamAway (s : State) (n i : Nat) : Bool := s.reading (.stream n i) || ((s.core n).stream i).got.isSome

/-- SBAR answers when the condition of its form holds: no access of the streams is on its way and, at `.system`, no remote
write unacknowledged; for `.hold` the core's committed stores. -/
def State.answerSbar (s : State) (mask : Nat) (hold sys : Bool) : State :=
  let n := s.cur
  let fin := fun (s : State) => s.setBlk { s.blk with wait := .none, ans := .none }
  if s.blk.ans == .cancelled then (if hold then s.releaseStreams n mask else s).discard n
  else if hold then
    if s.bankOps.any (fun o => o.core == n) || s.banks.any (fun b => b.2.scq.any fun o => o.core == n) ||
        (sys && s.unacked (.core n)) then s
    else fin (s.releaseStreams n mask)
  else if (maskBits mask).any fun i => s.streamAway n i || (sys && s.unacked (.stream n i)) then s
  else fin (s.l1DropAll n)

/-- SPOS. -/
def execSpos (o : STR) (s : State) : Out :=
  checked o.g o.gs s fun s =>
    let i := o.sid.toNat
    if o.func == 0 then .ok (s.setX o.d (s.me.stream i).position)
    else if o.func == 2 then .ok (s.setX o.d (s.me.stream i).status)
    else
      let q := s.streamSeen i
      let w := s.x o.a
      if !(q.st == .bound || q.st == .closed) then .error (streamBusy i)
      else if !q.indexOk w then .error (.fault 0x29 0 w)
      else .ok (s.hold (.spos i w))

/-- SDONE. -/
def execSdone (o : STR) (s : State) : Out :=
  checked o.g o.gs s fun s =>
    let i := o.sid.toNat
    let w := s.x o.a
    let act : Done := { tok := o.func.getLsbD 3, scope := o.func.toNat % 8, arg := w }
    if act.tok then
      let q := s.streamSeen i
      if q.st == .unbound || q.target != 0 || w.toNat ≥ 16 || s.sideBound none w.toNat false then .error (streamBusy i)
      else .ok (s.hold (.sdone i (some act)))
    else
      match s.flagCheck s.cur w with
      | .error e => .error e
      | .ok _ => .ok (s.hold (.sdone i (if w.getLsbD 31 then some act else none)))

/-! ## Accesses -/

/-- An access of a stream that fails closes it with a record (R188). -/
def State.streamFault (s : State) (n i : Nat) (q : Stream) (code lvl : Nat) : State :=
  (s.setStream n i { q with st := .closed, fault := true, inSect := none, gate := false }).recordAt n
    { code := code, kind := 1, lvl := lvl, colour := q.colour.toNat, ctx := q.context.toNat, iter := q.tile % 16384, core := n,
      slot := q.slot, op := i, addr := w64 q.addr, detail := q.position }

/-- Write a word, poisoned or clean, where a stream writes it (R185, 19 R293). -/
def State.streamWrite (s : State) (n i : Nat) (q : Stream) (t : Tr) (v : W32) (bad : Bool) : State :=
  if space t.home == .remote then s.sendWrite (.stream n i) q.colour.toNat t.home (leBytes 4 v.toNat) bad
  else s.writeAs t.key t.home (leBytes 4 v.toNat) bad

/-- The word a read stream reads; none where another device is to be asked. -/
def State.streamRead (s : State) (t : Tr) : Option (W32 × Bool) :=
  if space t.home == .remote then none
  else if space t.home == .reg then some ((s.regRead (t.home - t.home % 8)).extractLsb' (8 * (t.home % 8)) 32, false)
  else some (w32 (s.readVal t.key t.home 4), s.anyPoison t.home 4)

/-- The word of the target that the position names: a pad or crown address. -/
def Stream.targetHome (q : Stream) (n : Nat) : Nat :=
  let off := 4 * (q.toff + q.r * q.n0 + q.i0)
  if q.target == 1 then padHome n off else crownHome n off

/-- A row arrives at the island, behind those that have arrived before it (13 R214). -/
def State.rowArrives (s : State) (n : Nat) (r : IslandRow) : State :=
  let c := s.core n
  s.setCore n { c with island := { c.island with rows := c.island.rows ++ [r] } }

/-- What a read word becomes: a token for the port, a word of the pad or the crown, a word of an island row, which arrives under the
stream's attachment and is lost where there is none (R183, 13 R220). -/
def State.streamTake (s : State) (n i : Nat) (q : Stream) (v : W32) (bad : Bool) : State :=
  let eor := q.i0 + 1 == q.n0
  let p := { q with got := none }
  match q.target with
  | 0 =>
    let t : Token := { value := v, colour := q.colour, context := q.context, iter := BitVec.ofNat 14 q.tile, fmt := BitVec.ofNat 3 q.fmt,
                       slot := BitVec.ofNat 2 q.slot, eor := eor, eos := eor && q.lastRow, poison := bad, bubble := false, gen := 0 }
    s.setStream n i { p.step with out := some t, outPort := q.port }
  | 2 =>
    let row := q.row ++ [(v, bad)]
    if eor then
      match Sp.find? (s.core n).island.attach i with
      | none => s.setStream n i { p.step.lose with row := [] }
      | some a =>
        (s.setStream n i { p.step with row := [] }).rowArrives n
          { stream := i, att := a, after := (s.core n).island.queue.length, words := row, tile := q.tile, r := q.r, last := q.lastRow,
            colour := q.colour, context := q.context }
    else s.setStream n i { p.step with row := row }
  | _ =>
    (s.writeAs 0 (q.targetHome n) (leBytes 4 v.toNat) bad).setStream n i p.step

/-- A row without words: a bubble for a port read (R183), nothing for the other targets. -/
def State.emptyRow (s : State) (n i : Nat) (q : Stream) : State :=
  let p := if q.nextRow.past then q.nextRow.tileEnd else q.nextRow
  if q.target == 0 && !q.write then
    let r := s.freshBubble
      { value := 0, colour := q.colour, context := q.context, iter := BitVec.ofNat 14 q.tile, fmt := BitVec.ofNat 3 q.fmt,
        slot := BitVec.ofNat 2 q.slot, eor := true, eos := q.lastRow, poison := false, bubble := true, gen := 0 }
    r.1.setStream n i { p with out := some r.2, outPort := q.port }
  else s.setStream n i p

/-- A read that the stream has issued completes, whatever state the stream has entered meanwhile; a reply that stays out is a
fault (17 R262). Else the next access of a stream other than a port write is issued. -/
def State.streamAccess (s : State) (n i : Nat) : State :=
  let q := (s.core n).stream i
  if q.out.isSome || (q.target == 0 && q.write) then s
  else if s.reading (.stream n i) then
    if (s.overdue (.stream n i)).isSome then (s.giveUp (.stream n i)).streamFault n i q 0x52 0 else s
  else match q.got with
  | some g => s.streamTake n i q g.2.1 g.2.2
  | none =>
  if q.st != .running || q.hold then s
  else if q.spent then s.setStream n i q.finish
  else if q.n0 == 0 then s.emptyRow n i q
  else
    match s.access n q.colour.toNat q.addr 4 q.lvlS false (if q.write then .w else .r) with
    | .error e => s.streamFault n i q (match e with | .fault c _ _ => c | _ => 0x18) (match e with | .fault _ l _ => l | _ => 0)
    | .ok t =>
      if q.write then
        let h := q.targetHome n
        (s.streamWrite n i q t (w32 (s.readVal 0 h 4)) (s.anyPoison h 4)).setStream n i q.step
      else
        match s.streamRead t with
        | some (v, bad) => s.streamTake n i q v bad
        | none => s.sendRead (.stream n i) q.colour.toNat t.home 4

/-- STREAM_ACCESS. -/
def execStreamAccess (n : CoreNum) (i : BitVec 4) (s : State) : Out := .next (s.streamAccess n.toNat i.toNat)

/-- A port write stream handles the token that its exit side emits next (R184, 20 R299). -/
def State.portWrite (s : State) (n i : Nat) : State :=
  let q := (s.core n).stream i
  if q.st != .running || q.hold || q.target != 0 || !q.write then s
  else if q.spent then s.setStream n i q.finish else
  match s.exitPick n q.port q.slot q.colour.toNat with
  | none => s
  | some (_, t) =>
    let here := q.n0 > 0 && !q.past
    let fin := fun (s : State) (p : Stream) => (s.exitEmit n q.port q.slot q.colour.toNat).setStream n i (if t.eos then p.tileEnd else p)
    if t.bubble then
      fin s (if t.eor then (if q.past then q else q.nextRow) else if here then q.advance else q)
    else if !here then fin s q.lose
    else if t.poison then fin s q.lose.advance
    else
      match s.access n t.colour.toNat q.addr 4 q.lvlS false .w with
      | .error e => s.streamFault n i q (match e with | .fault c _ _ => c | _ => 0x18) (match e with | .fault _ l _ => l | _ => 0)
      | .ok tr => fin (s.streamWrite n i q tr t.value false) q.advance

/-- PORT_WRITE_TOKEN. -/
def execPortWriteToken (n : CoreNum) (i : BitVec 4) (s : State) : Out := .next (s.portWrite n.toNat i.toNat)

/-- PORT_READ_DELIVERY: a token reaches the entry side of its port; where no element uses it, it is lost (R388). -/
def execPortReadDelivery (n : CoreNum) (i : BitVec 4) (s : State) : Out :=
  let q := (s.core n.toNat).stream i.toNat
  .next (match q.out with
    | none => s
    | some t =>
      match s.offer n.toNat q.outPort t.slot.toNat t with
      | (s, .taken) => s.setStream n.toNat i.toNat { (s.core n.toNat).stream i.toNat with out := none }
      | (s, .noUser) => s.setStream n.toNat i.toNat { ((s.core n.toNat).stream i.toNat).lose with out := none }
      | (s, .wait) => s)

/-- DONE_ACTION: the oldest due action, once the writes of its tile are visible at its scope (R187). -/
def execDoneAction (n : CoreNum) (i : BitVec 4) (s : State) : Out :=
  let n := n.toNat
  let i := i.toNat
  let q := (s.core n).stream i
  let pop := fun (s : State) => s.setStream n i { (s.core n).stream i with due := ((s.core n).stream i).due.drop 1 }
  .next (match q.due with
    | [] => s
    | a :: _ =>
      if a.act.scope == 6 && s.unacked (.stream n i) then s
      else if !a.act.tok then
        let d := a.act.arg
        (pop s).padWrite32 (flagCore d) (flagOff d) ((fld d.toNat 63 32 + a.k) % 2 ^ 32)
      else
        let t : Token := { value := w32 a.tile, colour := a.colour, context := a.context, iter := BitVec.ofNat 14 a.tile, fmt := 1,
                           slot := BitVec.ofNat 2 a.slot, eor := true, eos := true, poison := false, bubble := false, gen := 0 }
        match s.offer n (a.act.arg.toNat % 16) a.slot t with
        | (s, .taken) => pop s
        | (s, .noUser) => pop (s.setStream n i ((s.core n).stream i).lose)
        | (s, .wait) => s)

/-- Streams of a section that ends: early, RESERVED goes back to BOUND and RUNNING closes (Table 10.1); a completed section
leaves them as they are. -/
def State.sectionStreams (s : State) (n e : Nat) (early : Bool) : State :=
  let c := s.core n
  s.setCore n { c with streams := c.streams.map fun q =>
    (q.1, if q.2.inSect == some e then
      if !early then { q.2 with inSect := none } else
      match q.2.st with
      | .reserved => { q.2 with st := .bound, inSect := none }
      | .running => { q.2 with st := .closed, inSect := none, gate := false }
      | _ => { q.2 with inSect := none }
    else q.2) }

end Sys2Proof.Machine
end

