-- ==== Sys2Proof/Machine/Sections.lean ====
section
/-!
DEFINITION. Sections (09 R171 to R175): RARM, starting, the barrier, completion actions and early ends, with their events.
-/
namespace Sys2Proof.Machine

def Core.sect (c : Core) (e : Nat) : Section := Sp.get Section.reset c.sections e
def State.setSect (s : State) (n e : Nat) (t : Section) : State :=
  s.setCore n { s.core n with sections := Sp.put (s.core n).sections e t }
def Section.target (t : Section) : Nat := fld (t.d 3) 56 0
def Section.port (t : Section) : Nat := fld (t.d 0) 29 28

/-! ## Arming -/

/-- The dwords of a descriptor's snapshot. -/
def sectDesc (b : BitVec 256) : SectDesc := (List.range 4).map fun k => w64 (cbFld b (64 * k + 63) (64 * k))

/-- The fields of Table 09.8 in their ranges: reserved bits, tiles, regions named, kind, unused handles. -/
def Section.formOk (t : Section) : Bool :=
  let nreg := fld (t.d 0) 27 24
  fld (t.d 3) 63 57 == 0 && fld (t.d 0) 5 0 == 0 && t.tiles != 0 && 1 ≤ nreg && nreg ≤ 8 && t.kind != 3 &&
    (List.range 8).all fun i => i < nreg || fld (t.d (1 + i / 4)) (16 * (i % 4) + 15) (16 * (i % 4)) == 0

/-- An RARM of the current core's block in progress already names the region. -/
def State.armedHere (s : State) (h : Nat) : Bool :=
  s.blk.held.any fun x => match x with
    | .arm _ _ d _ _ => { Section.reset with desc := d }.regions.contains h
    | _ => false

/-- The checks of RARM on a descriptor; `here` says which regions the issuing block has armed already; `lvlS` and `colour` are the
issuer's (09, RARM). Section descriptor faults name no tval: a free value (log 14). -/
def State.armCheck (s : State) (n : Nat) (t : Section) (here bound : Nat → Bool) (lvlS : Bool) (colour : Nat) : Except XF Unit :=
  let bad : XF := .fault 0x23 0 (Config.openWord s.free)
  if !t.formOk then .error bad else
  match t.regions.find? fun h => s.badHandle n (w64 h) with
  | some h => .error (.fault 0x20 0 (w64 h))
  | none =>
    let live := t.regions.filter fun h => (s.region h).here
    if live.any fun h => (s.region h).oneShot && ((s.region h).armed || here h) then .error bad
    else if (maskBits t.streams).any fun i => !bound i then .error bad
    else if live.any (fun h => (s.region h).quota t.colour == 0) || (!lvlS && t.colour != colour) then
      .error (.fault 0x24 0 (Config.openWord s.free))
    else .ok ()

/-- RARM: the section is armed at commit; X[d] is written then (09, RARM). Its streams' accesses are ordered behind the core's
earlier ones (10 R186). -/
def execRarm (o : RRR) (s : State) : Out :=
  checkedOpen o.g o.gs s fun s =>
    match s.controlBlock (s.x o.a) with
    | .error e => .error e
    | .ok (s, b) =>
      let t := { Section.reset with desc := sectDesc b }
      match s.armCheck s.cur t s.armedHere (fun i => (s.streamSeen i).st == .bound) s.me.lvlS s.myColour with
      | .error e => .error e
      | .ok _ =>
        let s := if t.streams == 0 then s else s.hold (.release false)
        let k := s.blk.held.length
        let s := s.hold (.arm o.d k t.desc (s.x o.a) s.me.lvlS)
        .ok (if o.d = 0 then s else s.setW { s.w with arms := Sp.put s.w.arms o.d.toNat k })

/-- The lowest free entry of a section table. -/
def Core.freeEntry (c : Core) : Option Nat := (List.range 16).find? fun e => !(c.sect e).used
/-- Free entries. -/
def Core.freeEntries (c : Core) : Nat := ((List.range 16).filter fun e => !(c.sect e).used).length

/-- The room of the block's held effects is reserved: its wait form has been granted it, or it has committed (04 R64). -/
def Blk.reserved (b : Blk) : Bool := b.granted || b.closing
/-- Section-table entries that the core's block has a place for. -/
def Core.armsDue (c : Core) : Nat :=
  if c.blk.reserved then (c.blk.held.filter fun h => match h with | .arm .. => true | _ => false).length else 0

/-- Region loads of a block into a grid's loader queue. -/
def loadsInto (l : List Held) (grid : Nat) : Nat :=
  l.foldl (fun k h => match h with | .load c => k + b2n (hGrid c.handle == grid) | _ => k) 0
/-- Loads in a loader's queue, and those that blocks of other cores have a place for. -/
def State.loadsDue (s : State) (n grid : Nat) : Nat :=
  ((Sp.get [] s.loaders grid).filter fun c => match c with | .load _ => true | _ => false).length +
    s.cores.foldl (fun k c => if c.1 != n && c.2.blk.reserved then k + loadsInto c.2.blk.held grid else k) 0

/-- A section enters the table (09, RARM, R175): its streams are reserved, one-shot regions armed; it ends at once where a named
region is EMPTY or REFUSED, or TORN. Where it names one of each, it ends as absent (2): DESIGN CHOICE, unsafe (log 79). -/
def State.enterSection (s : State) (n e : Nat) (desc : SectDesc) (addr : W64) (lvlS : Bool) (launch : Option (Nat × Nat)) : State :=
  let t := { Section.reset with
    used := true, status := (s.core n |>.sect e).status, desc := desc, addr := addr, lvlS := lvlS, launch := launch,
    age := s.serial }
  let ending := if t.regions.any fun h => !(s.region h).here then some 2
    else if t.regions.any fun h => (s.region h).st == .torn then some 3 else none
  let c := (s.core n)
  let c := (maskBits t.streams).foldl (fun (c : Core) i =>
    let q := c.stream i
    if q.st == .bound then c.setStream i { q with st := .reserved, inSect := some e } else c) c
  let s := ({ s with serial := s.serial + 1 }.setCore n c).setSect n e { t with ending := ending }
  t.regions.foldl (fun s h =>
    let r := s.region h
    if r.oneShot && r.here && !r.armed then
      s.setRegion h { r with armed := true, quiet := 0, inSect := some (t.colour, t.context, t.tiles) }
    else s) s

/-- The delivery of RARM: the entry, and X[d] unless a later instruction of the block wrote it. -/
def State.armDeliver (s : State) (n : Nat) (d : BitVec 6) (k : Nat) (desc : SectDesc) (addr : W64) (lvlS : Bool) : State :=
  match (s.core n).freeEntry with
  | none => s
  | some e =>
    let s := s.enterSection n e desc addr lvlS none
    let c := s.core n
    if Sp.find? c.regs.arms d.toNat == some k then s.setCore n { c with regs := c.regs.setX d (w64 e) } else s

/-! ## Starting (R172) -/

/-- The sinks of a region: exit sides, and MSTORE and MRMW elements (R173). -/
def State.sinksOf (s : State) (h : Nat) : List Nat :=
  (s.region h).elems.flatMap fun i =>
    (if usesExit i.cfg then [exitSink (elemCore i.elem) i.cfg.port.toNat (hSlot h)] else []) ++
      (if isSink i.op.toNat then [elemSink i.elem (hSlot h)] else [])

/-- An earlier armed section of the same colour and context that shares a region has not completed: its entry is still held
(R172, R174). -/
def State.behind (s : State) (t : Section) : Bool :=
  s.cores.any fun c => c.2.sections.any fun q =>
    q.2.used && q.2.age < t.age && q.2.colour == t.colour && q.2.context == t.context &&
      q.2.regions.any fun h => t.regions.contains h

/-- Every channel whose side a region uses is OPEN (25 R350). -/
def State.channelsOpen (s : State) (h : Nat) : Bool :=
  s.channels.all fun q =>
    !q.2.en || q.2.st == .opened ||
      s.sideRegion q.2.core.toNat q.2.port.toNat q.2.slot.toNat q.2.recv != some h

/-- A section may start. -/
def State.mayStart (s : State) (t : Section) : Bool :=
  t.used && !t.started && t.ending.isNone && t.done.isNone && !s.behind t &&
    t.regions.all fun h => (s.region h).st == .resident && s.channelsOpen h

/-- The launch that armed a section is told that it starts (11 R201). -/
def State.launchStarts (s : State) (t : Section) : State :=
  match t.launch with
  | none => s
  | some (p, id) =>
    let q := Sp.get Sched.reset s.scheds p
    { s with scheds := Sp.put s.scheds p { q with launches := q.launches.map fun l =>
        if l.id == id then { l with started := true } else l } }

/-- SECTION_START: a kind 2 section takes its DONE node first (15 R230). -/
def execSectionStart (n : CoreNum) (e : BitVec 4) (s : State) : Out :=
  let n := n.toNat
  let e := e.toNat
  let t := (s.core n).sect e
  .next (if !s.mayStart t then s else
    let r : State × Option Nat := if t.kind == 2 && t.node.isNone then s.takeNode n t.colour else (s, t.node)
    if t.kind == 2 && r.2.isNone then r.1 else
    let s := r.1
    let sinks := (t.regions.eraseDups.flatMap s.sinksOf).eraseDups.map fun k => (k, t.tiles)
    let c := (maskBits t.streams).foldl (fun (c : Core) i =>
      let q := c.stream i
      if q.st == .reserved && q.inSect == some e then
        c.setStream i (q.begin (BitVec.ofNat 8 t.colour) (BitVec.ofNat 10 t.context) t.tiles t.lvlS (some e))
      else c) (s.core n)
    ((s.setCore n c).setSect n e { t with started := true, sinks := sinks, node := r.2 }).launchStarts t)

/-! ## Completion (R173, R174; 15 R244) -/

/-- A completion that cannot be made: the record with the fault's code (R174). -/
def State.completionRecord (s : State) (n : Nat) (t : Section) (code lvl : Nat) : State :=
  s.recordAt n { code := code, kind := 2, lvl := lvl, colour := t.colour, ctx := t.context, core := n, addr := t.addr }

/-- The checks of a kind 1 completion word (R174; 07 R132). -/
def State.completionWord (s : State) (n : Nat) (t : Section) : Except XF Nat :=
  match s.access n t.colour t.target 8 false false .w with
  | .error e => .error e
  | .ok tr =>
    if space tr.home != .floor then .error (.fault 0x19 0 (w64 t.target))
    else if !tr.pres then .error (.fault 0x1A 0 (w64 t.target))
    else .ok tr.home

/-- Send the completion PUT. -/
def State.sendPut (s : State) (n e : Nat) (t : Section) (home st : Nat) : State :=
  let r : PresReq := { who := .completion n e, kind := .put, addr := home, data := w64 (st * 2 ^ 32 + t.tiles) }
  { s with presOps := s.presOps ++ [r] }.setSect n e { t with done := some st, putHome := home, putting := true, sentAt := s.cycle }

/-- The delivery of a DONE node: the entry is freed; a write that faults returns the node and leaves a record, and so does a port
that was not pending (15 R244). -/
def State.sendDone (s : State) (n e : Nat) (t : Section) (node st : Nat) : State :=
  let k : NetCtx := { n := n, c := t.colour, lvlS := false }
  if t.target % 64 != 0 then ((s.completionRecord n t 0x08 0).giveNode n t.colour node).freeSection n e st
  else
    match (doneNode k node t.target t.port t.tiles st e).runOn s with
    | (.ok true, s) => s.freeSection n e st
    | (.ok false, s) =>
      ((s.giveNode n t.colour node).recordAt n
        { code := 0x5F, kind := 4, colour := t.colour, core := n, addr := w64 node, opnd0 := w64 t.target }).freeSection n e st
    | (.error x, s) => ((s.completionRecord n t x.code.1 x.code.2).giveNode n t.colour node).freeSection n e st

/-- A section ends with a status: its launch is told at once, and its completion action is performed. A kind 2 section without a node takes one, and waits while
the pool is empty (15 R230). -/
def State.finishSection (s : State) (n e st : Nat) : State :=
  let t := (s.core n).sect e
  let s := s.tellLaunch t st
  let r : State × Option Nat := if t.kind == 2 && t.node.isNone then s.takeNode n t.colour else (s, t.node)
  if t.kind == 2 && r.2.isNone then r.1 else
  let s := r.1.sectionStreams n e (st != 0)
  let s := t.regions.foldl (fun s h =>
    let g := s.region h
    if g.oneShot && g.here then s.setRegion h { g with ended := true, quiet := 0 } else s) s
  match t.kind, r.2 with
  | 1, _ =>
    match s.completionWord n t with
    | .ok h => s.sendPut n e t h st
    | .error x => (s.completionRecord n t x.code.1 x.code.2).freeSection n e st
  | 2, some node => s.sendDone n e t node st
  | _, _ => s.freeSection n e st

/-- The barrier of a started section releases it: every sink has counted its tiles, the exit tokens are delivered and no access of
the section is outstanding (R173). -/
def State.mayRelease (s : State) (t : Section) : Bool :=
  t.used && t.started && t.ending.isNone && t.done.isNone && t.sinks.all (fun k => k.2 == 0) &&
    t.regions.all fun h => ((s.regionPorts h false).all fun p =>
      (Sp.get [] s.exitq (sideKey p.1 p.2 (hSlot h) t.colour)).all fun k => k.context.toNat != t.context) && (s.region h).elems.all fun i =>
      !isSink i.op.toNat || (s.elem i.elem).reqs.all fun r =>
        r.region != h || r.lost || (r.toks.headD blankTok).colour.toNat != t.colour ||
          (r.toks.headD blankTok).context.toNat != t.context

/-- SECTION_RELEASE. -/
def execSectionRelease (n : CoreNum) (e : BitVec 4) (s : State) : Out :=
  .next (if s.mayRelease ((s.core n.toNat).sect e.toNat) then s.finishSection n.toNat e.toNat 0 else s)

/-- SECTION_EARLY_END (R175). -/
def execSectionEarlyEnd (n : CoreNum) (e : BitVec 4) (s : State) : Out :=
  let t := (s.core n.toNat).sect e.toNat
  .next (match t.ending with
    | some st => if t.used && t.done.isNone then s.finishSection n.toNat e.toNat st else s
    | none => s)

/-- COMPLETION_PUT_RETRY: a refused completion PUT is sent again after 1,024 cycles (R174). -/
def execCompletionPutRetry (n : CoreNum) (e : BitVec 4) (s : State) : Out :=
  let t := (s.core n.toNat).sect e.toNat
  .next (match t.done with
    | some st => if t.used && !t.putting && s.cycle - t.sentAt ≥ 1024 then s.sendPut n.toNat e.toNat t t.putHome st else s
    | none => s)

end Sys2Proof.Machine
end

