-- ==== Sys2Proof/Machine/Islands.lean ====
section
/-!
DEFINITION. Systolic islands and the crown (13): half-tiles, the arithmetic of a row, the command queue, attachments and emission,
the eight island forms and their events; RSAVE and RREST (19 R297, R298).
-/
namespace Sys2Proof.Machine

def Core.setIsland (c : Core) (i : Island) : Core := { c with island := i }
def State.island (s : State) (n : Nat) : Island := (s.core n).island
def State.setIsland (s : State) (n : Nat) (i : Island) : State := s.setCore n ((s.core n).setIsland i)

def Island.get (i : Island) (acc row col : Nat) : W32 := Sp.get 0 i.acc (acc * 8192 + row * 64 + col)
def Island.set (i : Island) (acc row col : Nat) (v : W32) : Island := { i with acc := Sp.set 0 i.acc (acc * 8192 + row * 64 + col) v }
def Island.bad (i : Island) (acc row : Nat) : Bool := Sp.get false i.pois (acc * 128 + row)
def Island.setBad (i : Island) (acc row : Nat) (b : Bool) : Island := { i with pois := Sp.set false i.pois (acc * 128 + row) b }
/-- Set a row's poison bit where `b` holds. -/
def Island.addBad (i : Island) (acc row : Nat) (b : Bool) : Island := if b then i.setBad acc row true else i
def Island.wslot (i : Island) (k : Nat) : WSlot := Sp.get WSlot.reset i.slots k
/-- Replace the values of a row, column 0 first. -/
def Island.setRow (i : Island) (acc row : Nat) (l : List W32) : Island :=
  (List.range l.length).foldl (fun i j => i.set acc row j (l.getD j 0)) i
/-- A row at +0 with its poison bit clear. -/
def Island.clearRow (i : Island) (acc row : Nat) : Island :=
  let lo := acc * 8192 + row * 64
  { i with acc := i.acc.filter (fun c => c.1 < lo || c.1 ≥ lo + 64) }.setBad acc row false

/-! ## Half-tiles (R212, R213) -/

def isFp8 (ty : Nat) : Bool := ty == 0xB || ty == 0xC
def wBytes (ty : Nat) : Nat := if isFp8 ty then 1 else 2
/-- Value lines of a tile, and all its lines (Table 13.2). -/
def valueLines (ty : Nat) (sp : Bool) : Nat := (if sp then 4 else 8) * wBytes ty
def tileLines (ty : Nat) (sp : Bool) : Nat := valueLines ty sp + b2n sp

/-- Value q of column j among the value lines. -/
def imageValue (img : List Byte) (ty j q : Nat) : Nat :=
  let w := wBytes ty
  let o := q / (16 / w) * 1024 + 16 * j + w * (q % (16 / w))
  (img.getD o 0).toNat + if w == 2 then 256 * (img.getD (o + 1) 0).toNat else 0

/-- The metadata nibble of group g of column j. -/
def metaNibble (img : List Byte) (ty j g : Nat) : Nat :=
  (img.getD (valueLines ty true * 1024 + 16 * j + g / 2) 0).toNat / 16 ^ (g % 2) % 16
/-- A group is legal when p0 < p1. -/
def legalGroup (n : Nat) : Bool := n % 4 < n / 4

/-- The weight at depth k and column j; none at a depth that the tile does not keep (R213). -/
def WSlot.weight (w : WSlot) (k j : Nat) : Option Nat :=
  let ty := w.ty.toNat
  if !w.sp then some (imageValue w.image ty j k)
  else
    let n := metaNibble w.image ty j (k / 4)
    if !legalGroup n then none
    else if k % 4 == n % 4 then some (imageValue w.image ty j (2 * (k / 4)))
    else if k % 4 == n / 4 then some (imageValue w.image ty j (2 * (k / 4) + 1))
    else none

/-- The illegal groups of a sparse image, in column order and then group order. -/
def badGroups (img : List Byte) (ty : Nat) : List (Nat × Nat) :=
  (List.range 64).flatMap fun j => ((List.range 32).filter fun g => !legalGroup (metaNibble img ty j g)).map fun g => (j, g)

/-! ## Arithmetic (R216 to R218) -/

/-- Round to FP32, RNE. -/
def r32 (v : Fp.Val) : Fp.Val := Fp.unpack .f32 (Fp.roundTo .f32 0 false v false).raw
def raw32 (v : Fp.Val) : W32 := w32 (Fp.roundTo .f32 0 false v false).raw
def val32 (w : W32) : Fp.Val := Fp.unpack .f32 w.toNat

/-- The product of an activation and a weight, exact; +0 at a depth that is not kept. -/
def product (aty wty : Nat) (a : Nat) : Option Nat → Fp.Val
  | none => .fin false 0 0
  | some b => Fp.mul (Fp.unpack (Fp.ofTy aty) a) (Fp.unpack (Fp.ofTy wty) b)

/-- The exact sum of a list of products (R216). -/
def exactSum : List Fp.Val → Fp.Val
  | [] => .fin false 0 0
  | x :: t => t.foldl (Fp.add 0) x

/-- One level of the BF16 tree: neighbours added, each sum rounded (R217). -/
def pairSums : List Fp.Val → List Fp.Val
  | a :: b :: t => r32 (Fp.add 0 a b) :: pairSums t
  | l => l
def treeSum (l : List Fp.Val) : Fp.Val :=
  (List.range 7).foldl (fun l _ => pairSums l) l |>.headD (.fin false 0 0)

/-- The new value of a column: C + round(round(S) × round(sa × sb)) for FP8, C + the tree's root for BF16. -/
def columnValue (w : WSlot) (aty : Nat) (a : List Nat) (sa c : W32) (j : Nat) : W32 :=
  let ps := (List.range 128).map fun k => product aty w.ty.toNat (a.getD k 0) (w.weight k j)
  if isFp8 aty then
    let p := r32 (Fp.mul (val32 sa) (val32 w.sb))
    raw32 (Fp.add 0 (val32 c) (r32 (Fp.mul (r32 (exactSum ps)) p)))
  else raw32 (Fp.add 0 (val32 c) (treeSum ps))

/-- One row of 128 activations into an accumulator row (R216, R217, R219). -/
def Island.mulRow (i : Island) (acc row aty : Nat) (a : List Nat) (sa : W32) (k : Nat) (bad : Bool) : Island :=
  let w := i.wslot k
  let i := i.addBad acc row (bad || w.st == .poisoned || w.st == .faulted)
  if w.st == .loaded || w.st == .poisoned then
    i.setRow acc row ((List.range 64).map fun j => columnValue w aty a sa (i.get acc row j) j)
  else i

/-! ## What the island reads and writes -/

/-- Bytes of the core's pad, and whether one is poisoned. -/
def State.padBytes (s : State) (n off len : Nat) : List Byte × Bool :=
  (s.readHomeN 0 (padHome n off) len, s.anyPoison (padHome n off) len)
/-- A pad word. -/
def State.padWord (s : State) (n off : Nat) : W32 × Bool :=
  (w32 (s.readVal 0 (padHome n off) 4), s.anyPoison (padHome n off) 4)

/-- Activations from bytes: values of a type's width. -/
def activations (ty : Nat) (bs : List Byte) : List Nat :=
  (List.range 128).map fun k =>
    if isFp8 ty then (bs.getD k 0).toNat else (bs.getD (2 * k) 0).toNat + 256 * (bs.getD (2 * k + 1) 0).toNat

/-- Write bytes through checked pages, the core's L1 copies dropped (17 R255). -/
def State.areaWrite (s : State) (n : Nat) (pages : List Page) (va : Nat) (bs : List Byte) : State :=
  (pageStarts va bs.length).foldl (fun s a =>
    let t := pageHome pages a
    let len := Nat.min ((a / 4096 + 1) * 4096) (va + bs.length) - a
    let part := (bs.drop (a - va)).take len
    if space t.home == .remote then
      (List.range ((len + 255) / 256)).foldl (fun s k =>
        s.sendWrite (.island n) (s.core n).regs.colour.toNat (t.home + 256 * k) ((part.drop (256 * k)).take 256) false) s
    else s.homeWrite n t.key t.home part) s

/-- A byte of an area; none where another device has not sent it. A byte of a retired frame counts as poisoned. -/
def State.areaByte (s : State) (n : Nat) (pages : List Page) (va : Nat) : Option (Byte × Bool) :=
  let t := pageHome pages va
  if space t.home == .remote then Sp.find? (s.island n).remote t.home
  else if space t.home == .gddr && s.isRetired t.home then some (0, true)
  else some (s.readHome t.key t.home, s.poisoned t.home)

/-- The first byte of the areas of a command that has not come. -/
def State.areaMissing (s : State) (n : Nat) (pages : List Page) (accs : List (Nat × Nat)) : Option Nat :=
  accs.findSome? fun p => (List.range 32784).findSome? fun k => if (s.areaByte n pages (p.2 + k)).isNone then some (p.2 + k) else none

/-- An accumulator as an area lays it out (13, ASAVE): the rows, the poison bits, zeros. -/
def Island.areaBytes (i : Island) (acc : Nat) : List Byte :=
  ((List.range 128).flatMap fun r => (List.range 64).flatMap fun j => leBytes 4 (i.get acc r j).toNat) ++
    leBytes 16 ((List.range 128).foldl (fun a r => a + b2n (i.bad acc r) * 2 ^ r) 0) ++ List.replicate 112 0

/-- Load an accumulator from an area. -/
def State.areaLoad (s : State) (n : Nat) (pages : List Page) (acc va : Nat) : State :=
  let get := fun (k : Nat) => (s.areaByte n pages (va + k)).getD (0, false)
  let i := (List.range 128).foldl (fun (i : Island) r =>
    let i := (List.range 64).foldl (fun (i : Island) j =>
      i.set acc r j (w32 (bytesNat ((List.range 4).map fun b => (get (256 * r + 4 * j + b)).1)))) i
    i.setBad acc r (bitAt (get (32768 + r / 8)).1.toNat (r % 8) || (List.range 256).any fun b => (get (256 * r + b)).2)) (s.island n)
  s.setIsland n i

/-! ## Commands (R214) -/

/-- The accumulators a command names. -/
def IslandCmd.accs : IslandCmd → List Nat
  | .mscl a .. => [a]
  | .mma a .. => [a]
  | .attach _ t => [t.acc]
  | .aclr a .. => [a]
  | .ardPad a .. => [a]
  | .awrV a .. => [a]
  | .awrPad a .. => [a]
  | .save a .. => [a]
  | .rest l _ => l.map (·.1)
  | .saveRec m .. => (List.range 4).filter fun k => bitAt m (16 + k)
  | _ => []

/-- A command that writes memory (17 R256). -/
def IslandCmd.writesMem : IslandCmd → Bool
  | .ardPad .. | .save .. | .saveRec .. => true
  | _ => false

/-- An accumulator whose emission is in progress: rows and commands that name it wait (R221). -/
def Island.emitting (i : Island) (acc : Nat) : Bool := i.emits.any fun e => e.acc == acc

/-- A crown line of a WLOAD's tile, whole (R211), and whether any of it is poisoned. -/
def State.crownLine (s : State) (n off line : Nat) : List Byte × Bool :=
  let h := crownHome n off + 1024 * line
  (s.readHomeN 0 h 1024, s.anyPoison h 1024)

/-- A queued WLOAD reads a line of its tile: each line at an instant of its own after the command has entered the queue (R215). -/
def State.wloadPart (s : State) (n w line : Nat) : State :=
  let i := s.island n
  match i.queue.findSome? fun c => match c with
    | .wload k off _ ty sp _ => if k == w then some (off, ty, sp) else none
    | _ => none with
  | some (off, ty, sp) =>
    if line < tileLines ty.toNat sp && (Sp.find? i.ahead (w * 2 ^ 16 + line)).isNone then
      s.setIsland n { i with ahead := Sp.put i.ahead (w * 2 ^ 16 + line) (s.crownLine n off line) }
    else s
  | none => s

/-- WLOAD in the island: the tile's lines that are not read yet are read, and the slot takes its state (R213, R215, R219). -/
def State.wload (s : State) (n w off : Nat) (sb : W32) (ty : BitVec 5) (sp mz : Bool) : State :=
  let got := (List.range (tileLines ty.toNat sp)).map fun k =>
    (Sp.find? (s.island n).ahead (w * 2 ^ 16 + k)).getD (s.crownLine n off k)
  let img := got.flatMap (·.1)
  let bad := got.any (·.2)
  let gs := if sp then badGroups img ty.toNat else []
  let i := s.island n
  let st : SlotState := if !mz && !gs.isEmpty then .faulted else if bad then .poisoned else .loaded
  let slot : WSlot := { ty := ty, sp := sp, sb := sb, st := st, image := img }
  let s := s.setIsland n { i with slots := Sp.put i.slots w slot, ahead := i.ahead.filter fun q => q.1 / 2 ^ 16 != w,
                                  mzgroups := if mz then satAdd 32 i.mzgroups gs.length else i.mzgroups }
  match (if mz then none else gs.head?) with
  | some (j, g) => s.recordAt n { code := 0x5A, kind := 3, core := n, addr := w64 off, detail := w64 (w * 2 ^ 16 + j * 2 ^ 8 + g) }
  | none => s

/-- Rows start to start + count − 1 of an accumulator, in ascending order. -/
def State.overRows (s : State) (n start count : Nat) (f : State → Island → Nat → Island) : State :=
  (List.range count).foldl (fun s k => s.setIsland n (f s (s.island n) (start + k))) s

/-- The island performs a command; none while it waits for bytes of another device. -/
def State.islandDo (s : State) (n : Nat) : IslandCmd → Option State
  | .wload w off sb ty sp mz => some (s.wload n w off sb ty sp mz)
  | .mscl acc start count off =>
    some (s.overRows n start count fun s i r =>
      let q := s.padWord n (off + 4 * (r - start))
      (i.setRow acc r ((List.range 64).map fun j => raw32 (Fp.mul (val32 (i.get acc r j)) (val32 q.1)))).addBad acc r q.2)
  | .mma acc w start count rows sa ty =>
    some (s.overRows n start count fun s i r =>
      let wid := if isFp8 ty.toNat then 128 else 256
      let a := s.padBytes n (rows + wid * (r - start)) wid
      let q := if isFp8 ty.toNat then s.padWord n (sa + 4 * (r - start)) else (0, false)
      i.mulRow acc r ty.toNat (activations ty.toNat a.1) q.1 w (a.2 || q.2))
  | .attach _ _ => some s
  | .aclr acc start count => some (s.overRows n start count fun _ i r => i.clearRow acc r)
  | .clrStat => some (s.setIsland n { s.island n with mzgroups := 0 })
  | .ardPad acc start count off =>
    some ((List.range count).foldl (fun s k =>
      s.write 0 (padHome n (off + 256 * k)) ((List.range 64).flatMap fun j => leBytes 4 ((s.island n).get acc (start + k) j).toNat)) s)
  | .awrV acc row half v =>
    some (s.setIsland n ((List.range 32).foldl (fun (i : Island) l => i.set acc row (32 * half + l) (v.extractLsb' (32 * l) 32)) (s.island n)))
  | .awrPad acc start count off =>
    some (s.overRows n start count fun s i r =>
      let a := s.padBytes n (off + 256 * (r - start)) 256
      (i.setRow acc r ((List.range 64).map fun j => w32 (bytesNat ((a.1.drop (4 * j)).take 4)))).addBad acc r a.2)
  | .save acc pages va => some (s.areaWrite n pages va ((s.island n).areaBytes acc))
  | .rest accs pages =>
    match s.areaMissing n pages accs with
    | some _ => none
    | none => some (accs.foldl (fun s p => s.areaLoad n pages p.1 p.2) s)
  | .saveRec mask recs pages va =>
    let s := s.areaWrite n pages va (leBytes 8 (mask % 2 ^ 20) ++ List.replicate 120 0)
    let s := recs.foldl (fun s q => s.areaWrite n pages (va + 128 + 128 * q.1) (q.2.flatMap fun w => leBytes 8 w.toNat)) s
    some (((List.range 4).filter fun k => bitAt mask (16 + k)).foldl (fun s k =>
      s.areaWrite n pages (va + 2176 + 32896 * k) ((s.island n).areaBytes k)) s)

/-- ISLAND_COMMAND_PERFORM: the oldest command of a core's island, or the request for the bytes it needs from another device
(R214). -/
def execIslandCommandPerform (n : CoreNum) (s : State) : Out :=
  let n := n.toNat
  let i := s.island n
  .next (match i.queue with
    | [] => s
    | c :: rest =>
      if c.accs.any i.emitting then s else
      match s.islandDo n c with
      | some s =>
        let i := s.island n
        s.setIsland n { i with queue := rest, remote := [], rows := i.rows.map fun r => { r with after := r.after - 1 } }
      | none =>
        match c with
        | .rest accs pages =>
          match s.overdue (.island n) with
          | some r =>
            let s := s.giveUp (.island n)
            let i := s.island n
            s.setIsland n { i with remote := (List.range r.len).foldl (fun m k => Sp.put m (r.home + k) (0, true)) i.remote }
          | none =>
          if s.reading (.island n) then s else
          match s.areaMissing n pages accs with
          | some va => s.sendRead (.island n) (s.core n).regs.colour.toNat (pageHome pages va).home (Nat.min 128 (4096 - va % 4096))
          | none => s
        | _ => s)

/-! ## Rows and emission (R214, R220, R221) -/

/-- Start the emission of a tile's rows. -/
def Island.emitTile (i : Island) (stream : Nat) (a : Attach) (r : IslandRow) : Island :=
  let first := fun (e : Nat) => a.start + (e + 8 - a.start % 8) % 8
  { i with emits := i.emits ++
      [{ stream := stream, acc := a.acc, start := a.start, stop := a.start + r.r + 1, slot := a.slot, tile := r.tile, colour := r.colour,
         context := r.context, places := (List.range 8).map fun e => (first e, 0) }] }

/-- The oldest row of a stream that may be performed now, and the others: behind the commands that entered before it arrived and the
earlier rows of its accumulator, which must not be emitting. Rows of other accumulators share nothing with it (R214). -/
def Island.rowDue (i : Island) (k : Nat) : Option (IslandRow × List IslandRow) :=
  let ahead := i.rows.takeWhile fun r => r.stream != k
  match i.rows.drop ahead.length with
  | [] => none
  | r :: rest =>
    if r.after > 0 || i.emitting r.att.acc || ahead.any (fun x => x.att.acc == r.att.acc) then none else some (r, ahead ++ rest)

/-- ISLAND_ROW: the island performs a stream's oldest row under the attachment it arrived with (R214, R220). -/
def execIslandRow (n : CoreNum) (k : BitVec 4) (s : State) : Out :=
  let n := n.toNat
  let i := s.island n
  .next (match i.rowDue k.toNat with
    | none => s
    | some (r, rows) =>
      let a := r.att
      let ty := a.ty.toNat
      let words := if isFp8 ty then r.words.drop 1 else r.words
      let sa := if isFp8 ty then (r.words.headD (0, false)).1 else 0
      let i := ({ i with rows := rows } : Island).mulRow a.acc (a.start + r.r) ty (activations ty (words.flatMap fun w => leBytes 4 w.1.toNat)) sa a.w
        (r.words.any (·.2))
      s.setIsland n (if r.last && a.emit then i.emitTile k.toNat a r else i))

/-- The token of an accumulator value (R221). -/
def Island.token (i : Island) (e : Emission) (row col : Nat) : Token :=
  { value := i.get e.acc row col, colour := e.colour, context := e.context, iter := BitVec.ofNat 14 e.tile, fmt := 2,
    slot := BitVec.ofNat 2 e.slot, eor := col == 63, eos := col == 63 && row + 1 == e.stop, poison := i.bad e.acc row,
    bubble := false, gen := 0 }

/-- One token for element x of the emission, where it is taken; without an input from `ISL` it is lost to the stream. -/
def State.emitOne (s : State) (n : Nat) (e : Emission) (x : Nat) : State × Emission :=
  let p := e.places.getD x (e.stop, 0)
  if p.1 ≥ e.stop then (s, e) else
  let next := { e with places := e.places.set x (if p.2 == 63 then (p.1 + 8, 0) else (p.1, p.2 + 1)) }
  match s.offerIsl (elemAt n x 7) e.slot ((s.island n).token e p.1 p.2) with
  | (s, .taken) => (s, next)
  | (s, .noUser) => (s.setStream n e.stream ((s.core n).stream e.stream).lose, next)
  | (s, .wait) => (s, e)

/-- ISLAND_EMIT: each of the eight elements takes a token of the stream's oldest emission; the rows are cleared after the last
(R221). -/
def execIslandEmit (n : CoreNum) (k : BitVec 4) (s : State) : Out :=
  let n := n.toNat
  .next (match (s.island n).emits.find? fun e => e.stream == k.toNat with
    | none => s
    | some e =>
      let r := (List.range 8).foldl (fun (r : State × Emission) x => r.1.emitOne n r.2 x) (s, e)
      let i := r.1.island n
      if r.2.places.all fun p => p.1 ≥ e.stop then
        r.1.setIsland n ((List.range (e.stop - e.start)).foldl (fun (i : Island) j => i.clearRow e.acc (e.start + j))
          { i with emits := i.emits.filter fun x => x != e })
      else r.1.setIsland n { i with emits := i.emits.map fun x => if x == e then r.2 else x })

/-! ## Checks at execute (R222, R223) -/

/-- Attachments as the earlier instructions of the block leave them. -/
def attachEffect (m : Sparse Attach) : Held → Sparse Attach
  | .island (.attach i a) => Sp.put m i a
  | .stream i (some _) => Sp.erase m i
  | .restStream i r =>
    let w := (r.getD 9 0).toNat
    if bitAt w 63 then
      Sp.put m i { acc := w % 4, w := fld w 10 8, ty := BitVec.ofNat 5 (fld w 28 24), start := fld w 22 16, slot := fld w 5 4, emit := bitAt w 6 }
    else Sp.erase m i
  | _ => m
def State.attachSeen (s : State) : Sparse Attach := s.blk.held.foldl attachEffect s.me.island.attach

/-- An attachment that `f` picks belongs to a stream that is RESERVED or RUNNING (R222). -/
def State.attached (s : State) (f : Attach → Bool) : Bool :=
  s.attachSeen.any fun a => f a.2 && let q := s.streamSeen a.1; q.st == .reserved || q.st == .running
def State.accBusy (s : State) (acc : Nat) : Bool := s.attached fun a => a.acc == acc

/-- "island operand" and "island busy". -/
def islandOperand (v : W64) : XF := .fault 0x34 0 v
def islandBusy (v : Nat) : XF := .fault 0x35 0 (w64 v)

/-- R223: a pad offset and a range from it. -/
def padRangeOk (off : W64) (align len : Nat) : Bool := off.toNat < 2 ^ 19 && off.toNat % align == 0 && off.toNat + len ≤ 0x80000

/-- The shadow of a weight slot as the earlier instructions of the block leave it (R210). -/
def State.shadowSeen (s : State) (k : Nat) : Option (BitVec 5 × Bool) :=
  s.blk.held.foldl (fun r h => match h with
    | .island (.wload w _ _ ty sp _) => if w == k then some (ty, sp) else r
    | _ => r) (Sp.find? s.me.island.shadow k)
/-- The shadow matches a product's type (13, MMA). -/
def State.shadowOk (s : State) (k : Nat) (ty : BitVec 5) : Bool :=
  match s.shadowSeen k with
  | some (t, _) => (t == 9) == (ty == 9)
  | none => false

def MTX.start (o : MTX) : Nat := o.imm.toNat / 256
def MTX.count (o : MTX) : Nat := o.imm.toNat % 256

/-! ## The forms (R223) -/

/-- WLOAD. -/
def execWload (o : MTX) (s : State) : Out :=
  checked o.g o.gs s fun s =>
    let off := s.x o.a
    let k := o.w.toNat
    if off.toNat % 1024 != 0 || off.toNat + 1024 * tileLines o.ty.toNat o.sp > 0x600000 then .error (islandOperand off)
    else if s.attached fun a => a.w == k then .error (islandBusy (8 + k))
    else .ok (s.hold (.island (.wload k off.toNat ((s.x o.b).setWidth 32) o.ty o.sp (o.func == 1))))

/-- MMA. -/
def execMma (o : MTX) (s : State) : Out :=
  checked o.g o.gs s fun s =>
    let fp8 := isFp8 o.ty.toNat
    let n := MTX.count o
    let a := s.x o.a
    let b := s.x o.b
    if !s.shadowOk o.w.toNat o.ty then .error (islandOperand (w64 o.w.toNat))
    else if !padRangeOk a 128 (n * (if fp8 then 128 else 256)) then .error (islandOperand a)
    else if fp8 && !padRangeOk b 4 (4 * n) then .error (islandOperand b)
    else if s.accBusy o.acc.toNat then .error (islandBusy o.acc.toNat)
    else .ok (s.hold (.island (.mma o.acc.toNat o.w.toNat (MTX.start o) n a.toNat (if fp8 then b.toNat else 0) o.ty)))

/-- MMAS: the attachment is installed at commit. -/
def execMmas (o : MTX) (s : State) : Out :=
  checked o.g o.gs s fun s =>
    let i := o.func.toNat % 16
    let q := s.streamSeen i
    let start := o.imm.toNat / 256
    if !s.shadowOk o.w.toNat o.ty then .error (islandOperand (w64 o.w.toNat))
    else if !(q.st == .bound || q.st == .closed) || q.target != 2 || q.n0 != (if isFp8 o.ty.toNat then 33 else 64) ||
        start + q.tileRows > 128 then .error (islandOperand (w64 i))
    else if s.accBusy o.acc.toNat then .error (islandBusy o.acc.toNat)
    else .ok (s.hold (.island (.attach i
      { acc := o.acc.toNat, w := o.w.toNat, ty := o.ty, start := start, slot := o.func.toNat / 16 % 4, emit := o.func.getLsbD 6 })))

/-- MSCL. -/
def execMscl (o : MTX) (s : State) : Out :=
  checked o.g o.gs s fun s =>
    let a := s.x o.a
    if !padRangeOk a 4 (4 * MTX.count o) then .error (islandOperand a)
    else if s.accBusy o.acc.toNat then .error (islandBusy o.acc.toNat)
    else .ok (s.hold (.island (.mscl o.acc.toNat (MTX.start o) (MTX.count o) a.toNat)))

/-- ACLR. -/
def execAclr (o : MTX) (s : State) : Out :=
  checked o.g o.gs s fun s =>
    if o.func == 1 then .ok (s.hold (.island .clrStat))
    else if s.accBusy o.acc.toNat then .error (islandBusy o.acc.toNat)
    else .ok (s.hold (.island (.aclr o.acc.toNat (MTX.start o) (MTX.count o))))

/-- The island status word (Table 13.5). -/
def Island.status (i : Island) : W64 :=
  let bits := fun (f : SlotState → Bool) => (List.range 8).foldl (fun a k => a + b2n (f (i.wslot k).st) * 2 ^ k) 0
  w64 (i.mzgroups * 2 ^ 16 + bits (fun t => t == .poisoned || t == .faulted) * 2 ^ 8 + bits (fun t => t == .loaded || t == .poisoned))

/-- The 32 values of half a row as a vector. -/
def Island.halfRow (i : Island) (acc row half : Nat) : Line :=
  (List.range 32).foldl (fun (a : Line) l => a ||| ((i.get acc row (32 * half + l)).setWidth 1024 <<< (32 * l))) 0

/-- ARD: `.v`, `.pois` and `.stat` at execute, `.pad` as a command. -/
def execArd (o : MTX) (s : State) : Out :=
  checked o.g o.gs s fun s =>
    let i := s.me.island
    let acc := o.acc.toNat
    let half := o.imm.toNat % 2
    match o.func.toNat with
    | 0 =>
      if s.accBusy acc then .error (islandBusy acc) else .ok (s.setV o.d (i.halfRow acc (o.imm.toNat / 256) half))
    | 1 =>
      let a := s.x o.a
      if !padRangeOk a 4 (256 * MTX.count o) then .error (islandOperand a)
      else if s.accBusy acc then .error (islandBusy acc)
      else .ok (s.hold (.island (.ardPad acc (MTX.start o) (MTX.count o) a.toNat)))
    | 2 =>
      if s.accBusy acc then .error (islandBusy acc)
      else .ok (s.setX o.d (w64 ((List.range 64).foldl (fun a k => a + b2n (i.bad acc (64 * half + k)) * 2 ^ k) 0)))
    | _ => .ok (s.setX o.d i.status)

/-- AWR. -/
def execAwr (o : MTX) (s : State) : Out :=
  checked o.g o.gs s fun s =>
    let acc := o.acc.toNat
    if o.func == 0 then
      if s.accBusy acc then .error (islandBusy acc)
      else .ok (s.hold (.island (.awrV acc (o.imm.toNat / 256) (o.imm.toNat % 2) (s.v o.a))))
    else
      let a := s.x o.a
      if !padRangeOk a 4 (256 * MTX.count o) then .error (islandOperand a)
      else if s.accBusy acc then .error (islandBusy acc)
      else .ok (s.hold (.island (.awrPad acc (MTX.start o) (MTX.count o) a.toNat)))

/-- An area's pages, checked in ascending order after its alignment. -/
def State.areaPages (s : State) (va : W64) (len : Nat) (acc : Acc) : Except XF (List Page) :=
  if va.toNat % 128 != 0 then .error (.fault 0x08 0 va)
  else s.pages s.cur s.myColour s.me.lvlS false acc va.toNat len

/-- ASAVE. -/
def execAsave (o : MTX) (s : State) : Out :=
  checked o.g o.gs s fun s =>
    let va := s.x o.a
    let rest := o.func == 1
    match s.areaPages va 32896 (if rest then .r else .w) with
    | .error e => .error e
    | .ok ps =>
      if s.accBusy o.acc.toNat then .error (islandBusy o.acc.toNat)
      else .ok (s.hold (.island (if rest then .rest [(o.acc.toNat, va.toNat)] ps else .save o.acc.toNat ps va.toNat)))

/-! ## RSAVE and RREST (19 R297, R298) -/

/-- The record of a stream (19 Table 19.10). -/
def streamRecord (q : Stream) (a : Option Attach) : List W64 :=
  (List.range 4).map (fun k => w64 (q.d (64 * k + 63) (64 * k))) ++
    [q.bind, q.position, q.status,
     (match q.done with | some d => d.arg | none => 0),
     (match q.done with | some d => w64 (2 ^ 63 + b2n d.tok * 8 + d.scope) | none => 0),
     (match a with
       | some a => w64 (2 ^ 63 + a.ty.toNat * 2 ^ 24 + a.start * 2 ^ 16 + a.w * 2 ^ 8 + b2n a.emit * 2 ^ 6 + a.slot * 2 ^ 4 + a.acc)
       | none => 0)] ++ List.replicate 6 0

/-- A named stream that is RESERVED or RUNNING, or a named accumulator that is attached. -/
def State.saveBusy (s : State) (m : Nat) : Except XF Unit :=
  match (maskBits m).find? fun i => (s.streamSeen i).st == .reserved || (s.streamSeen i).st == .running with
  | some i => .error (streamBusy i)
  | none =>
    match (List.range 4).find? fun k => bitAt m (16 + k) && s.accBusy k with
    | some k => .error (islandBusy k)
    | none => .ok ()

/-- RSAVE. Mask bits above those the form uses are not read (log 15). -/
def execRsave (o : SYS) (s : State) : Out :=
  checked o.g o.gs s fun s =>
    let m := (s.x o.b).toNat
    if o.func == 1 then .ok (s.hold (.gate (m % 2 ^ 16)))
    else
      match s.areaPages (s.x o.a) 133760 .w with
      | .error e => .error e
      | .ok ps =>
        match s.saveBusy m with
        | .error e => .error e
        | .ok _ => .ok (s.hold (.island (.saveRec (m % 2 ^ 20) [] ps (s.x o.a).toNat)))

/-- Ten dwords of a stream's record, read under 04 R58. -/
def State.readRecord (s : State) (va : W64) : Nat → Except XF (List W64)
  | 0 => .ok []
  | k + 1 =>
    match s.load va 8 with
    | .error e => .error e
    | .ok (_, bs) =>
      match s.readRecord (va + 8) k with
      | .error e => .error e
      | .ok l => .ok (w64 (bytesNat bs) :: l)

/-- The checks of RREST on a record: as SBIND's, the position as SPOS `.wr`'s (log 15), the colour, the attachment. -/
def State.recordCheck (s : State) (i : Nat) (r : List W64) : Except XF Unit :=
  let st := fld (r.getD 6 0).toNat 63 61
  let a := (r.getD 9 0).toNat
  let q := Stream.reset.restore r
  if !(st == 0 || st == 1 || st == 4) || !q.patternOk || (st != 0 && !q.indexOk (r.getD 5 0)) then .error (.fault 0x29 0 (w64 i))
  else if !s.boundAt s.cur (fld (r.getD 6 0).toNat 25 18) then .error (.fault 0x2A 0 (w64 i))
  else if bitAt a 63 && !([9, 11, 12].contains (fld a 28 24) && s.shadowOk (fld a 10 8) (BitVec.ofNat 5 (fld a 28 24))) then .error (islandOperand (w64 i))
  else .ok ()

/-- The records of the named streams, read and checked. -/
def State.restRecords (s : State) (va : W64) : List Nat → Except XF (List Held)
  | [] => .ok []
  | i :: rest =>
    match s.readRecord (va + w64 (128 + 128 * i)) 10 with
    | .error e => .error e
    | .ok r =>
      match s.recordCheck i r with
      | .error e => .error e
      | .ok _ =>
        match s.restRecords va rest with
        | .error e => .error e
        | .ok l => .ok (.restStream i r :: l)

/-- RREST. -/
def execRrest (o : SYS) (s : State) : Out :=
  checked o.g o.gs s fun s =>
    let m := (s.x o.b).toNat
    let va := s.x o.a
    match s.areaPages va 133760 .r with
    | .error e => .error e
    | .ok ps =>
      match s.saveBusy m with
      | .error e => .error e
      | .ok _ =>
        match s.restRecords va (maskBits m) with
        | .error e => .error e
        | .ok l =>
          let accs := ((List.range 4).filter fun k => bitAt m (16 + k)).map fun k => (k, va.toNat + 2176 + 32896 * k)
          .ok (s.holdAll (l ++ [.island (.rest accs ps)]))

/-! ## Delivery (R214, 19 R298) -/

/-- A held stream command takes effect (Table 10.1); SBIND ends an attachment of the stream, RREST takes the record's (R220). -/
def State.streamDeliver (s : State) (n : Nat) (h : Held) : State :=
  let c := s.core n
  let gate := fun (m : Sparse Stream) => match h with
    | .gate mask => (maskBits mask).foldl (fun m i =>
        Sp.set Stream.reset m i ((Sp.get Stream.reset m i).gateBy (s.streamAway n i))) m
    | h => streamEffect m h
  s.setCore n { c with streams := gate c.streams, island := { c.island with attach := attachEffect c.island.attach h } }

/-- An island command enters the queue; an attachment is installed; WLOAD sets the shadow; RSAVE captures its records. -/
def State.islandDeliver (s : State) (n : Nat) (c : IslandCmd) : State :=
  let i := s.island n
  match c with
  | .attach k a => s.setIsland n { i with attach := Sp.put i.attach k a }
  | .wload w _ _ ty sp _ => s.setIsland n { i with shadow := Sp.put i.shadow w (ty, sp), queue := i.queue ++ [c] }
  | .saveRec m _ ps va =>
    let recs := (maskBits (m % 2 ^ 16)).map fun k => (k, streamRecord ((s.core n).stream k) (Sp.find? i.attach k))
    s.setIsland n { i with queue := i.queue ++ [.saveRec m recs ps va] }
  | c => s.setIsland n { i with queue := i.queue ++ [c] }

end Sys2Proof.Machine
end

