-- ==== Sys2Proof/Machine/Launch.lean ====
section
/-!
DEFINITION. Launches, the loader and the partition scheduler (11 R192 to R207), with their events.
-/
namespace Sys2Proof.Machine

/-! ## Launch records (Table 11.2) -/

def Launch.core (l : Launch) : Nat := fld (l.d 0) 25 16
def Launch.valid (l : Launch) : Bool := bitAt (l.d 0) 7
def Launch.kind (l : Launch) : Nat := fld (l.d 0) 3 2
def Launch.pin (l : Launch) : Bool := bitAt (l.d 0) 1
def Launch.nimg (l : Launch) : Nat := fld (l.d 1) 63 60
def Launch.ilist (l : Launch) : Nat := fld (l.d 1) 56 0
def Launch.sectAt (l : Launch) : Nat := fld (l.d 2) 56 0
def Launch.entry (l : Launch) : Nat := fld (l.d 3) 56 0
/-- Every reserved bit of the record is zero. -/
def Launch.rsvOk (l : Launch) : Bool :=
  fld (l.d 0) 63 26 == 0 && fld (l.d 0) 15 8 == 0 && !bitAt (l.d 0) 0 && fld (l.d 1) 59 57 == 0 && fld (l.d 2) 63 57 == 0 &&
    fld (l.d 3) 63 57 == 0
/-- Its ingress port feeds a section (R194). -/
def Launch.feeds (l : Launch) : Bool := l.kind == 0 && l.sectAt != 0
/-- Every image is resident. -/
def Launch.ready (l : Launch) : Bool := l.running && l.img ≥ l.nimg && l.waits.isNone

/-- The record of an index, read as a physical access (R196); none where it cannot be read. -/
def State.launchRecord (s : State) (p index : Nat) : Option (List W64) :=
  let a := (s.sched p).ltbase.toNat + 32 * index
  if (s.sched p).ltbase == 0 || space a != .floor || !s.ownsFloor p a || s.anyPoison a 32 then none
  else some ((List.range 4).map fun k => w64 (s.readVal 0 (a + 8 * k) 8))

/-- The checks of a trigger (R196). A record in a frame that is not sealed is not read for a colour that must be (26 R368). -/
def State.triggerOk (s : State) (p : Nat) (l : Launch) : Bool :=
  (if l.trigger == 0 then l.kind == 0 || l.kind == 2 else if l.trigger == 1 then l.kind == 1 else l.kind == 2) &&
    l.valid && l.rsvOk && s.corePresent l.core && s.partOf l.core == some p && s.bound p l.colour.toNat &&
    !(l.kind == 2 && (l.nimg != 0 || l.entry != 0)) &&
    !(s.mustBeSealed l.colour.toNat && !s.sealedFrame ((s.sched p).ltbase.toNat + 32 * l.index))

/-! ## Completion (R203) -/

/-- The launch's completion record, where the ring has room in the partition's own memory (log 61). -/
def State.launchDone (s : State) (p : Nat) (l : Launch) (st : Nat) : State :=
  let q := s.sched p
  let q := { q with launches := q.launches.filter fun k => k.id != l.id }
  let size := 2 ^ (fld q.lcbase.toNat 55 52 + 4)
  let base := fld q.lcbase.toNat 51 4 * 16
  if base == 0 || !s.ringOk p (base + q.lcprod % size * 16) || (q.lcprod + 2 ^ 32 - q.lccons.toNat) % 2 ^ 32 == size then s.setSched p { q with lost := satAdd 16 q.lost 1 }
  else
    let d0 := l.index * 2 ^ 56 + l.colour.toNat * 2 ^ 48 + l.trigger * 2 ^ 40 + st * 2 ^ 32 + l.seq
    (s.setSched p { q with lcprod := (q.lcprod + 1) % 2 ^ 32 }).write (Sp.get 0 s.partKey p) (base + q.lcprod % size * 16)
      (leBytes 8 d0 ++ leBytes 8 s.now.toNat)

/-- Replace a launch of a partition. -/
def State.setLaunch (s : State) (p : Nat) (l : Launch) : State :=
  let q := s.sched p
  s.setSched p { q with launches := q.launches.map fun k => if k.id == l.id then l else k }
def State.launch? (s : State) (p id : Nat) : Option Launch := (s.sched p).launches.find? fun l => l.id == id

/-! ## Triggers and admission (R196, R197) -/

/-- A trigger: the launch enters the admission queue, or ends at once (R196, R197). -/
def State.trigger (s : State) (p index : Nat) (colour : BitVec 8) (trig : Nat) (port : Option Nat) : State :=
  let q := s.sched p
  let l : Launch :=
    { id := q.nextId, index := index, colour := colour, trigger := trig, seq := q.seq, time := s.now,
      desc := (s.launchRecord p index).getD [], port := port, running := false, img := 0, uses := [], waits := none,
      entryAt := none, want := (0, 0), far := [], entry? := none, started := false, sect := none, node := none, body := .none, regs := [] }
  let s := s.setSched p { q with nextId := q.nextId + 1, seq := (q.seq + 1) % 2 ^ 32 }
  if !s.triggerOk p l then s.launchDone p l 6
  else if q.queued.length ≥ 64 then s.launchDone p l 7
  else s.setSched p { s.sched p with launches := q.launches ++ [l] }

/-- The launch that admission takes: the oldest of the lowest-numbered priority. -/
def Sched.next (q : Sched) : Option Launch :=
  (List.range 8).findSome? fun k => q.queued.find? fun l => l.prio == k

/-- ADMISSION (R197). Running launches stand in admission order. -/
def execAdmission (p : PartNum) (s : State) : Out :=
  let q := s.sched p.toNat
  .next (match q.next with
    | some l =>
      if q.en && q.runners.length < q.maxrun.toNat + 1 then
        s.setSched p.toNat { q with launches := (q.launches.filter fun k => k.id != l.id) ++ [{ l with running := true }] }
      else s
    | none => s)

/-! ## Ingress (R192 to R194) -/

def recColour (w : W64) : BitVec 8 := w.extractLsb' 24 8
def recHead (w : W64) : Bool := w.getLsbD 6
/-- The fields of a record that R194 requires. -/
def recOk (w : W64) : Bool :=
  let v := w.toNat
  fld v 2 0 == 0 && fld v 9 7 != 7 &&
    (!recHead w || (fld v 23 10 == 0 && fld v 5 3 == 0 && fld v 63 40 == 0 && fld v 9 7 == 1))

/-- INGRESS_RECORD: a record from a function arrives at a port (R194; 26 R367). -/
def execIngressRecord (p : PartNum) (port : BitVec 3) (vf : BitVec 6) (w : W64) (s : State) : Out :=
  let p := p.toNat
  let q := s.sched p
  let g := q.ing port.toNat
  let c := s.colour (recColour w).toNat
  let ok := g.en && s.ingVf p port.toNat == some vf.toNat && (s.vf vf.toNat).st == .run && c.valid && c.part.toNat == p && c.vf == vf &&
    recOk w && g.queue.length < 256 && (g.queue.filter fun r => recColour r.w == recColour w).length < 64
  .next (if !s.hostPath p true then s else s.setSched p (if ok then q.setIng port.toNat { g with queue := g.queue ++ [{ w := w, core := g.core, eport := g.eport }] }
                       else { q with refused := satAdd 16 q.refused 1 }))

/-- The launch open on a port for a colour. -/
def Sched.openOn (q : Sched) (port : Nat) (c : BitVec 8) : Option Launch :=
  q.launches.find? fun l => l.port == some port && l.colour == c

/-- The first record of a colour in a port's queue. -/
def Ing.first (g : Ing) (c : BitVec 8) : Option IngRec := g.queue.find? fun r => recColour r.w == c
/-- The queue without it. -/
def Ing.pop (g : Ing) (c : BitVec 8) : Ing := { g with queue := g.queue.eraseP fun r => recColour r.w == c }

/-- The token of a data record (R193). -/
def recToken (w : W64) (sl : Nat) : Token :=
  { value := w.extractLsb' 32 32, colour := recColour w, context := 0, iter := w.extractLsb' 10 14, fmt := w.extractLsb' 7 3,
    slot := BitVec.ofNat 2 sl, eor := w.getLsbD 5, eos := w.getLsbD 4, poison := false, bubble := w.getLsbD 3, gen := 0 }

/-- One record of the colour becomes an orphan. -/
def State.orphan (s : State) (p port : Nat) (c : BitVec 8) : State :=
  let q := s.sched p
  s.setSched p { q.setIng port ((q.ing port).pop c) with orphan := satAdd 16 q.orphan 1 }

/-- The slot of the section that a launch's record feeds (R193): where one of its regions uses the entry side that was bound. -/
def State.feedSlot (s : State) (l : Launch) (r : IngRec) : Nat :=
  ((List.range 4).find? fun k => (s.sideRegion r.core.toNat r.eport.toNat k true).any l.regs.contains).getD (hSlot (l.regs.headD 0))

/-- HEAD_RECORD_SERVED: the first record of a colour at a port is served: a head triggers its launch where none is open; a data
record enters the entry side once its launch's section has started (R194, R196). -/
def execHeadRecordServed (p : PartNum) (port : BitVec 3) (c : BitVec 8) (s : State) : Out :=
  let p := p.toNat
  let q := s.sched p
  let g := q.ing port.toNat
  .next (match g.first c, q.openOn port.toNat c with
    | none, _ => s
    | some r, none =>
      if recHead r.w then (s.setSched p (q.setIng port.toNat (g.pop c))).trigger p (fld r.w.toNat 39 32) c 0 (some port.toNat) else s
    | some r, some l =>
      if recHead r.w || !l.feeds || !l.started then s
      else if s.partOf r.core.toNat != some p then s.orphan p port.toNat c
      else
        let sl := s.feedSlot l r
        match s.offer r.core.toNat r.eport.toNat sl (recToken r.w sl) with
        | (s, .taken) => s.setSched p ((s.sched p).setIng port.toNat (g.pop c))
        | (s, .noUser) => s.orphan p port.toNat c
        | (s, .wait) => s)

/-- ORPHAN: a data record at the front of its colour's queue that no launch takes (R194). -/
def execOrphan (p : PartNum) (port : BitVec 3) (c : BitVec 8) (s : State) : Out :=
  let q := s.sched p.toNat
  .next (match (q.ing port.toNat).first c with
    | some r => if recHead r.w || (q.openOn port.toNat c).any (·.feeds) then s else s.orphan p.toNat port.toNat c
    | none => s)

/-! ## The loader (R198, R199) -/

/-- A dword of this package's memory, or of another device as its reply gave it. -/
def State.launchDword (s : State) (l : Launch) (t : Tr) (a : Nat) : Except XF W64 :=
  if space t.home == .remote then
    let bs := (List.range 8).map fun i => Sp.find? l.far (t.home + i)
    if !bs.all (·.isSome) then .error (.remote t.home 8 (w64 a))
    else if bs.any fun b => b.any (·.2) then .error (.fault 0x0B 0 (w64 a))
    else .ok (w64 (bytesNat (bs.map fun b => (b.map (·.1)).getD 0)))
  else if s.anyPoison t.home 8 then .error (.fault 0x0B 0 (w64 a))
  else .ok (w64 (s.readVal t.key t.home 8))

/-- How the loader reads for a launch: at S, through the launch's colour (18 R268), from sealed frames where it must; `code` is
the fault of an unsealed frame (26 R368). -/
def State.launchRead (s : State) (l : Launch) (lvlS : Bool) (code : Nat) : Reader := fun a =>
  match s.access l.core l.colour.toNat a 8 lvlS false .r with
  | .error e => .error e
  | .ok t =>
    if s.mustBeSealed l.colour.toNat && !s.sealedFrame t.home then .error (.fault code 0 (w64 a))
    else s.launchDword l t a

/-- How the scheduler reads a section descriptor for a launch: as RARM does, at U (R200). -/
def State.armRead (s : State) (l : Launch) : Reader := fun a =>
  match s.access l.core l.colour.toNat a 8 false false .r with
  | .error x => .error x
  | .ok t => s.launchDword l t a

/-- A read for a launch found memory of another device: the line is asked for, and the work goes on once it is here (17 R262). None
where the reply stays out. -/
def State.launchAsk (s : State) (p : Nat) (l : Launch) (h : Nat) : Option State :=
  let who : Who := .loader p l.id l.core
  if (s.overdue who).isSome then none
  else if s.reading who then some s
  else some (s.sendRead who l.colour.toNat (h / 128 * 128) 128)

/-- A fault of the loader for a launch: a record of kind 2, and status 4. -/
def State.loaderFault (s : State) (p : Nat) (l : Launch) (e : XF) (addr : Option Nat) : State :=
  let r : Nat × Nat × W64 := match e with
    | .fault c lvl v => (c, lvl, v)
    | _ => (0x18, 0, 0)
  (s.record p { code := r.1, kind := 2, lvl := r.2.1, colour := l.colour.toNat, core := l.core,
                addr := (addr.map w64).getD r.2.2 }).launchDone p l 4

/-- What the loader found ends the launch, or is memory of another device to be asked for (17 R262). -/
def State.loaderStop (s : State) (p : Nat) (l : Launch) (e : XF) : State :=
  match e with
  | .remote h _ va =>
    match s.launchAsk p l h with
    | some t => t
    | none => (s.giveUp (.loader p l.id l.core)).loaderFault p l (.fault 0x52 0 va) none
  | e => s.loaderFault p l e none

/-- A running launch uses a region. -/
def State.inLaunch (s : State) (p h : Nat) : Bool := (s.sched p).runners.any fun l => l.uses.contains h
/-- A region the loader may tear: it loaded it, for no pinned launch (R199). -/
def Region.evictable (r : Region) : Bool := r.loader.isSome && !r.pin

/-- The launch uses region h, and its next image is handled (R198). -/
def State.useRegion (s : State) (p : Nat) (l : Launch) (h : Nat) : State :=
  ({ s with serial := s.serial + 1 }.setRegion h { s.region h with used := s.serial }).setLaunch p
    { l with img := l.img + 1, uses := l.uses ++ [h], entryAt := none, waits := none, far := [] }

/-- A RESIDENT region that the loader loaded from an image for a target. -/
def State.residentFrom (s : State) (p : Nat) (img : W64) (target : Nat) : Option Nat :=
  (s.regions.find? fun r => r.2.st == .resident && r.2.part == p && r.2.loader == some (img, target)).map (·.1)

/-- Deliver the load of an image, once no region that the loader may tear holds a slot it needs (R199). -/
def State.loaderDeliver (s : State) (p : Nat) (l : Launch) (target h : Nat) (img : Image) : State :=
  let block := (s.sharers (hSlot h) img).filter fun r => r.2.evictable
  if block.isEmpty then
    let g := gridKey (hQuad h) (hCore h)
    let q := Sp.get [] s.loaders g
    if s.loadsDue 1024 g ≥ 16 then s
    else
      { s with loaders := Sp.put s.loaders g (q ++ [LoaderCmd.load
          { core := l.core, target := target, handle := h, force := false, loader := true, pin := l.pin, img := img }]) }.setLaunch p
        { l with waits := some h, want := (img.at_, target), far := [] }
  else
    let free := block.filter fun r => r.2.st == .resident && !s.inLaunch p r.1
    match free.find? fun r => free.all fun k => r.2.used ≤ k.2.used with
    | some r => s.tear r.1
    | none => s

/-- The image of an entry for a target, the entry's address being `at_`: a region in use already, or a load to be delivered (R198). -/
def State.loaderImage (s : State) (p : Nat) (l : Launch) (at_ : Nat) (img tgt : W64) : State :=
  if img.toNat % 32 != 0 then s.loaderFault p l (.fault 0x08 0 img) none
  else if !s.targetOk l.core tgt then s.loaderFault p l (.fault 0x21 0 tgt) (some at_)
  else
    match s.residentFrom p img tgt.toNat with
    | some h => s.useRegion p l h
    | none =>
      match s.readImage l.core (s.launchRead l true 0x22) img tgt.toNat with
      | .error (.access e) => s.loaderStop p l e
      | .error .target => s.loaderFault p l (.fault 0x21 0 tgt) (some at_)
      | .error (.config h f) => (s.loadRecord l.core h 0x22 f).launchDone p l 4
      | .ok (h, g) => s.loaderDeliver p l tgt.toNat h g

/-- The image entry that a launch is at, which is read once (R198). -/
def State.loaderEntry (s : State) (p : Nat) (l : Launch) : State :=
  let at_ := l.ilist + 16 * l.img
  match l.entryAt with
  | some q => s.loaderImage p l at_ q.1 q.2
  | none =>
    match readWords (s.launchRead l true 0x09) at_ 2 with
    | .error e => s.loaderStop p l e
    | .ok w =>
      let l := { l with entryAt := some (w.getD 0 0, w.getD 1 0) }
      (s.setLaunch p l).loaderImage p l at_ (w.getD 0 0) (w.getD 1 0)

/-- A load that a launch waits for (R198, R199): still queued or LOADING; RESIDENT; refused; or refused for "handle busy", and then
delivered again once a region that the loader may tear is gone. -/
def State.loaderWait (s : State) (p : Nat) (l : Launch) (h : Nat) : State :=
  let r := s.region h
  let queued := (Sp.get [] s.loaders (gridKey (hQuad h) (hCore h))).any fun x => match x with
    | .load c => c.loader && c.handle == h && c.core == l.core
    | _ => false
  if queued then s
  else
    let mine := r.loader == some l.want
    match r.st with
    | .refused => s.launchDone p l 4
    | .loading => if mine then s else s.launchDone p l 4
    | .resident =>
      if mine then s.useRegion p l h
      else if r.evictable && !s.inLaunch p h then s.tear h
      else s.launchDone p l 4
    | .torn => if r.evictable && !s.inLaunch p h then s else s.launchDone p l 4
    | .empty => s.setLaunch p { l with waits := none }

/-- LOADER_IMAGE: the first running launch, in admission order, that has an image left (R198). -/
def execLoaderImage (p : PartNum) (s : State) : Out :=
  let p := p.toNat
  .next (match (s.sched p).runners.find? fun l => l.img < l.nimg with
    | none => s
    | some l =>
      match l.waits with
      | some h => s.loaderWait p l h
      | none => s.loaderEntry p l)

/-! ## Arming and pushes (R200 to R202) -/

/-- The descriptor with the launch's colour and context 0. -/
def launchDesc (w : List W64) (c : BitVec 8) : SectDesc :=
  w.set 0 (w64 (setFld (setFld (w.getD 0 0).toNat 47 40 c.toNat) 39 30 0))

/-- LAUNCH_ARM: a launch's section is armed once its images are resident (R200). -/
def execLaunchArm (p : PartNum) (id : Nat) (s : State) : Out :=
  let p := p.toNat
  .next (match s.launch? p id with
    | none => s
    | some l =>
      if !l.ready || l.kind == 2 || l.sectAt == 0 || l.entry?.isSome || l.sect.isSome then s else
      -- entries that a block has a place for are not free for it (04 R64)
      match (if (s.core l.core).freeEntries ≤ (s.core l.core).armsDue then none else (s.core l.core).freeEntry) with
      | none => s
      | some e =>
        if l.sectAt % 32 != 0 then s.launchDone p l 6 else
        match readWords (s.armRead l) l.sectAt 4 with
        | .error (.remote h _ _) =>
          match s.launchAsk p l h with
          | some t => t
          | none => (s.giveUp (.loader p l.id l.core)).launchDone p l 6
        | .error _ => s.launchDone p l 6
        | .ok w =>
          let d := launchDesc w l.colour
          match s.armCheck l.core { Section.reset with desc := d } (fun _ => false)
              (fun i => ((s.core l.core).stream i).st == .bound) false l.colour.toNat with
          | .error _ => s.launchDone p l 6
          | .ok _ => (s.setLaunch p { l with entry? := some e, regs := { Section.reset with desc := d }.regions, far := [] }).enterSection l.core e d (w64 l.sectAt) false (some (p, id)))

/-- The pair that a root node's principal link names: the peer node, where the link is BOUND to a principal port (R202). -/
def rootPeer (k : NetCtx) (root : Nat) : NetM (Option Nat) := do
  let w ← netRead k (nodePort root 0)
  return if linkState w == sBound && portIndex (linkPeer w) == 0 then some (portNode (linkPeer w)) else none

/-- A root launch pushes its pair and completes when the push is made; it waits where the bag has no place (R202, 15 R234). -/
def State.rootPush (s : State) (p : Nat) (l : Launch) : State :=
  let k : NetCtx := { n := l.core, c := l.colour.toNat, lvlS := false }
  if l.sectAt % 64 != 0 then s.launchDone p l 6
  else if s.bagRoom l.core == 0 then s else
  match (rootPeer k l.sectAt).runOn s with
  | (.ok (some q), s) =>
    (s.pushTail l.core { a := w64 l.sectAt, b := w64 q, colour := l.colour, launch := false }).launchDone p l 0
  | (_, s) => s.launchDone p l 6

/-- The launch pair: a launch node of the core's pool; it waits while the pool is empty (R201, 15 R230). -/
def State.launchPair (s : State) (p : Nat) (l : Launch) : State :=
  let k : NetCtx := { n := l.core, c := l.colour.toNat, lvlS := false }
  match s.takeNode l.core l.colour.toNat with
  | (s, none) => s
  | (s, some node) =>
    let pay := [l.seq * 2 ^ 32 + l.trigger * 2 ^ 16 + l.colour.toNat * 2 ^ 8 + l.index, l.time.toNat, l.entry]
    match (fillNode k node (nodeHdr 6 k.c 0) pay).runOn s with
    | (.ok _, s) =>
      (s.pushTail l.core { a := w64 node, b := 0, colour := l.colour, launch := true }).setLaunch p
        { l with node := some (w64 node), body := .pushed }
    | (.error e, s) =>
      ((s.netRecord l.core k.c e.netCode.1 e.netCode.2 node 0).giveNode l.core k.c node).launchDone p l 6

/-- LAUNCH_PAIR_PUSH: when the section starts, or when the last image is resident where there is none (R201); a root launch
pushes its pair (R202). -/
def execLaunchPairPush (p : PartNum) (id : Nat) (s : State) : Out :=
  let p := p.toNat
  .next (match s.launch? p id with
    | none => s
    | some l =>
      if !l.ready then s
      else if l.kind == 2 then s.rootPush p l
      else if l.entry == 0 || l.body != .none || !(l.sectAt == 0 || l.started) then s
      else s.launchPair p l)

/-- Whether a launch has completed, and its status (R202). -/
def Launch.outcome (l : Launch) : Option Nat :=
  if l.body == .invalid then some 6
  else if !l.ready || l.kind == 2 then none
  else
    let bodyOk := l.entry == 0 || l.body == .done || (l.sectAt != 0 && !l.started)
    if l.sectAt == 0 then (if bodyOk then some 0 else none)
    else match l.sect with
      | some st => if bodyOk then some st else none
      | none => none

/-- LAUNCH_COMPLETION (R202, R203). -/
def execLaunchCompletion (p : PartNum) (id : Nat) (s : State) : Out :=
  .next (match s.launch? p.toNat id with
    | none => s
    | some l => match l.outcome with
      | some st => s.launchDone p.toNat l st
      | none => s)

/-! ## Device time (R204, R205) -/

def Ptp.near (o : Int) : Bool := o.natAbs ≤ 100

/-- An offset is measured: PTP time at the reception of the last Sync, less device time then (R205, log 65). -/
def Ptp.measure (q : Ptp) : Ptp :=
  match q.t1, q.delay with
  | some t1, some d =>
    let o : Int := t1.toNat + d - q.t2.toNat
    { q with measured := true, offset := o, locked := !q.first && Ptp.near o }
  | _, _ => q

/-- The clock takes a message of the selected port and domain only, and of a port that is up (R204; 01 R6). -/
def State.ptpHear (s : State) (port : BitVec 4) (domain : BitVec 8) (f : Ptp → Ptp) : State :=
  if s.ptp.port != port || s.ptp.domain != domain || !s.portUp port.toNat then s else { s with ptp := f s.ptp }

/-- PTP_EVENT_MESSAGE: a port timestamps a Sync at its reception, or the delay request at its sending (R204). -/
def execPtpEventMessage (port : BitVec 4) (domain : BitVec 8) (msg : PtpMsg) (s : State) : Out :=
  .next (s.ptpHear port domain fun q =>
    match msg with
    | .sync t1 => { q with t2 := s.now, t1 := some t1 }.measure
    | .syncTwoStep => { q with t2 := s.now, t1 := none }
    | .delayReq => { q with t3 := some s.now })

/-- The origin time of a two-step Sync. -/
def State.ptpFollowUp (s : State) (port : BitVec 4) (domain : BitVec 8) (t1 : W64) : State :=
  s.ptpHear port domain fun q => { q with t1 := some t1 }.measure

/-- The response to the delay request: the mean path delay is half of the two times under way. -/
def State.ptpDelayResp (s : State) (port : BitVec 4) (domain : BitVec 8) (t4 : W64) : State :=
  s.ptpHear port domain fun q =>
    match q.t1, q.t3 with
    | some t1, some t3 =>
      { q with t3 := none, delay := some (((q.t2.toNat - t1.toNat : Int) + (t4.toNat - t3.toNat : Int)) / 2) }.measure
    | _, _ => q

/-- The selected port has no time-transmitter: device time is not locked, and runs free at its last rate (R205). -/
def Ptp.lose (q : Ptp) : Ptp := { q with measured := false, locked := false, t1 := none, t3 := none, delay := none }

/-- SERVO_CORRECTION: the first lock steps device time forward; every other correction slews it, by a free amount of at most
1,000 parts per million (R205). -/
def execServoCorrection (s : State) : Out :=
  let q := s.ptp
  .next (if !q.measured then s
    else if q.first && q.offset ≥ 0 then
      { s with now := w64 (s.now.toNat + q.offset.toNat),
               ptp := { q with first := false, measured := false, locked := Ptp.near q.offset, rate := 0, t1 := none, t3 := none } }
    else
      let r : Int := min 1000 (Config.slewRate q.offset s.free)
      { s with free := s.free + 1,
               ptp := { q with first := false, measured := false, locked := Ptp.near q.offset, rate := if q.offset < 0 then -r else r } })

/-- Device time advances by a number of cycles (R205, 28 R383): frac counts 1 / 9,000,000 ns. -/
def State.advance (s : State) (n : Nat) : State :=
  let ninths := match s.clock with | 0 => 6 | 1 => 8 | _ => 12
  let f := s.frac + n * ninths * (1000000 + s.ptp.rate).toNat
  { s with cycle := s.cycle + n, now := s.now + w64 (f / 9000000), frac := f % 9000000 }

/-! ## The timed table (R206) -/

def Timed.en (t : Timed) : Bool := t.d0.getLsbD 63
def Timed.abort (t : Timed) : Bool := t.d0.getLsbD 62
def Timed.colour (t : Timed) : BitVec 8 := t.d0.extractLsb' 54 8
def Timed.index (t : Timed) : Nat := fld t.d0.toNat 53 46
def Timed.period (t : Timed) : Nat := fld t.d0.toNat 39 0
/-- The first of the entry's times that is not earlier than `from`. -/
def Timed.firstSlot (t : Timed) (from' : Nat) : Nat :=
  let a := t.d1.toNat
  if from' ≤ a then a else a + (from' - a + t.period - 1) / t.period * t.period

/-- Abort of a launch (R206): it completes with status 5. A running launch's pending load is stopped, its colour purged in its
section's regions, and its section ends as purged. -/
def State.abortLaunch (s : State) (p : Nat) (l : Launch) : State :=
  let s : State := match l.waits with
    | some h =>
      let g := gridKey (hQuad h) (hCore h)
      let s := { s with loaders := Sp.set [] s.loaders g ((Sp.get [] s.loaders g).filter fun x => match x with
        | .load c => !(c.loader && c.handle == h && c.core == l.core)
        | _ => true) }
      if (s.region h).st == .loading && (s.region h).loader == some l.want then s.tear h else s
    | none => s
  let s := l.regs.foldl (fun s h => s.purge h l.colour.toNat) s
  let s : State := match l.entry?, l.sect with
    | some e, none =>
      -- a purge that runs ends the section when it ends (09 R175)
      if l.regs.any fun h => ((s.region h).colour l.colour.toNat).purging then s else
      let t := (s.core l.core).sect e
      s.setSect l.core e { t with ending := if t.ending.isNone then some 1 else t.ending }
    | _, _ => s
  s.launchDone p l 5

/-- A due slot of another entry that acts before entry n's: earlier, or at the same time with a lower number. -/
def Sched.before (q : Sched) (n : Nat) (at_ : W64) : Bool :=
  (List.range 16).any fun m => match (q.entry m).slot with
    | some t => t.toNat < at_.toNat || (t == at_ && m < n)
    | none => false

/-- A slot of entry n starts (R206). -/
def State.slotStart (s : State) (p n : Nat) : State :=
  let q := s.sched p
  let t := q.entry n
  let skip := fun (s : State) =>
    let q := s.sched p
    let t := q.entry n
    s.setSched p (q.setEntry n { t with skipped := satAdd 32 t.skipped 1 })
  if !q.ten || !t.en then s
  else if !s.ptp.locked then skip s
  else
    let go := fun (s : State) =>
      let id := (s.sched p).nextId
      let s := s.trigger p t.index t.colour 1 none
      let q := s.sched p
      let t := q.entry n
      s.setSched p (q.setEntry n { t with last := some id, started := satAdd 32 t.started 1 })
    match t.last.bind (s.launch? p) with
    | some l => if t.abort then go (s.abortLaunch p l) else skip s
    | none => go s

/-- TIMED_SLOT_START: the entry's slot time has come; a write that waited takes effect now (R206, R207). -/
def execTimedSlotStart (p : PartNum) (n : BitVec 4) (s : State) : Out :=
  let p := p.toNat
  let n := n.toNat
  let q := s.sched p
  let t := q.entry n
  .next (match t.slot with
    | none => s
    | some at_ =>
      if s.now.toNat < at_.toNat || q.before n at_ then s else
      let t := { t with d0 := t.next0, d1 := t.next1 }
      let t := { t with slot := if t.en then some (w64 (t.firstSlot (at_.toNat + 1))) else none }
      (s.setSched p (q.setEntry n t)).slotStart p n)

/-! ## Writes of the scheduler page (R207) -/

/-- LSCHED_WRITE. -/
def execLschedWrite (p : PartNum) (v : W64) (s : State) : Out :=
  .next (s.setSched p.toNat { s.sched p.toNat with en := v.getLsbD 8, maxrun := v.extractLsb' 0 4 })

/-- LCBASE_WRITE: ignored where csize is above 11. -/
def execLcbaseWrite (p : PartNum) (v : W64) (s : State) : Out :=
  .next (if fld v.toNat 55 52 > 11 then s
    else s.setSched p.toNat { s.sched p.toNat with lcbase := v &&& 0x00FFFFFFFFFFFFF0 })

/-- LROOT_WRITE: a root trigger. -/
def execLrootWrite (p : PartNum) (v : W64) (s : State) : Out :=
  .next (s.trigger p.toNat (fld v.toNat 7 0) (v.extractLsb' 8 8) 2 none)

/-- TTCTL_WRITE: enabling fixes every enabled entry's first slot (R206). Without timed launches no slot is kept, and a waiting
write takes effect at once. -/
def execTtctlWrite (p : PartNum) (v : W64) (s : State) : Out :=
  let q := s.sched p.toNat
  let on := v.getLsbD 0
  let upd := fun (t : Timed) =>
    if on && !q.ten then { t with slot := if t.en then some (w64 (t.firstSlot s.now.toNat)) else none }
    else if on then t
    else { t with slot := none, d0 := t.next0, d1 := t.next1 }
  .next (s.setSched p.toNat { q with ten := on, timed := q.timed.map fun t => (t.1, upd t.2) })

/-- TT_WRITE: dword 0 or 1 of an entry (R207). It waits for the next slot start where the entry has one; else it takes effect at
once, and enabling the entry fixes its first slot. A period below 1,000 is ignored. -/
def execTtWrite (p : PartNum) (n : BitVec 4) (hi : Bool) (v : W64) (s : State) : Out :=
  let q := s.sched p.toNat
  let t := q.entry n.toNat
  .next (if !hi && fld v.toNat 39 0 < 1000 then s else
    let t := if hi then { t with next1 := v } else { t with next0 := v &&& 0xFFFFC0FFFFFFFFFF }
    let t := if t.slot.isSome then t
      else
        let t := { t with d0 := t.next0, d1 := t.next1 }
        { t with slot := if q.ten && t.en then some (w64 (t.firstSlot s.now.toNat)) else none }
    s.setSched p.toNat (q.setEntry n.toNat t))

/-- ING_WRITE: clearing en discards the queue as orphans and ends the port's launches that are not yet admitted (R207). -/
def execIngWrite (p : PartNum) (n : BitVec 3) (v : W64) (s : State) : Out :=
  let p := p.toNat
  let q := s.sched p
  let g := q.ing n.toNat
  let g' := { g with en := v.getLsbD 63, core := v.extractLsb' 16 10, eport := v.extractLsb' 12 4, xport := v.extractLsb' 8 4,
                     xen := v.getLsbD 7 }
  .next (if g.en && !v.getLsbD 63 then
    let s := s.setSched p { q.setIng n.toNat { g' with queue := [] } with orphan := satAdd 16 q.orphan g.queue.length }
    (q.queued.filter fun l => l.port == some n.toNat).foldl (fun s l => s.launchDone p l 6) s
  else s.setSched p (q.setIng n.toNat g'))

/-! ## Egress (08 R146, R192) -/

/-- The slot and colour whose token an exit side of a port emits next: the lowest that has one. -/
def State.exitReady (s : State) (n port : Nat) : Option (Nat × Nat) :=
  (List.range 4).findSome? fun sl =>
    match s.sideUser n port sl false with
    | none => none
    | some e => ((s.region (s.slot e sl).region).colours.find? fun c => (s.exitPick n port sl c.1).isSome).map fun c => (sl, c.1)

/-- A token leaves an exit side for the function that owns its colour, by an Ethernet port (01 R6); it waits while none carries it.
Of a colour that has been unbound meanwhile, the entry's vf field as it stands (log 75). -/
def State.egressTake (s : State) (n port sl c : Nat) : State :=
  if !s.hostPath (s.partid n) false then s else
  match s.exitPick n port sl c with
  | some (_, t) => let s := s.exitEmit n port sl c; { s with egress := s.egress ++ [((s.colour c).vf, t)] }
  | none => s

/-- HOST_EGRESS_DELIVERY: a token of the exit side bound as the port's egress. -/
def execHostEgressDelivery (p : PartNum) (port : BitVec 3) (s : State) : Out :=
  let g := (s.sched p.toNat).ing port.toNat
  .next (if !g.xen || s.partOf g.core.toNat != some p.toNat then s else
    match s.exitReady g.core.toNat g.xport.toNat with
    | some (sl, c) => s.egressTake g.core.toNat g.xport.toNat sl c
    | none => s)

end Sys2Proof.Machine
end

