-- ==== Sys2Proof/Machine/Network.lean ====
section
/-!
DEFINITION. The tree network (24 R330 to R343): routes, shearing, windows, re-requests, acknowledgements, remote accesses at their
homes, and route classes with their forms and events.
-/
namespace Sys2Proof.Machine

/-- Source and destination device and core of a packet or frame. -/
def Packet.from' (p : Packet) : Nat × Nat := if p.frame then (p.fSdev, p.fScore) else (p.sdev, p.score)
def Packet.to' (p : Packet) : Nat × Nat := if p.frame then (p.fDdev, p.fDcore) else (p.ddev, p.dcore)

/-! ## Routes (R330, R338; 01 R15) -/

/-- A place where a packet leaves its die: a bridge, from its lower to its higher die or back, or an Ethernet port. -/
inductive Hop where
  | bridge (b : Nat) (back : Bool)
  | port (p : Nat)
deriving DecidableEq, Repr

/-- The bridge of a die pair (Table 25.1). -/
def bridgeOf (lo hi : Nat) : Nat := if lo == 0 then hi - 1 else if lo == 1 then hi + 1 else 5
def oneBridge (a b : Nat) : Hop := if a < b then .bridge (bridgeOf a b) false else .bridge (bridgeOf b a) true
def State.bridged (s : State) (a b : Nat) : Bool := a != b && s.bridgePresent (bridgeOf (Nat.min a b) (Nat.max a b))

/-- The bridges from one die to another: the direct one, or those of the lower-numbered die bridged to both (01 R15). Where
no die is bridged to both the manual names no path: DESIGN CHOICE, unsafe (log 76): the packet crosses no bridge. -/
def State.legs (s : State) (a b : Nat) : List Hop :=
  if a == b then []
  else if s.bridged a b then [oneBridge a b]
  else match [0, 1, 2, 3].find? fun c => s.bridged a c && s.bridged c b with
    | some c => [oneBridge a c, oneBridge c b]
    | none => []

def State.rcls (s : State) (p c : Nat) : W64 := Sp.get 0 (s.netOf p).rcls c

/-- The partition of a packet: its field, or of a frame that of its core in this package. -/
def State.partOfPacket (s : State) (p : Packet) : Nat :=
  if p.frame then s.partid (if p.fSdev == here then p.fScore else p.fDcore) else p.part

/-- Ethernet ports that a packet may leave by: its class's, or for other traffic those that the partition's permits name (log 43). -/
def State.exitPorts (s : State) (p : Packet) : List Nat :=
  let part := s.partOfPacket p
  (List.range 16).filter fun e =>
    s.portPresent e && if !p.frame && p.type == 0 then (s.rcls part p.cls).getLsbD e else (s.lpermOf part).getLsbD (12 + 2 * e)

/-- Where a packet leaves dies on its way, or none where it can leave the device by no port. -/
def State.route (s : State) (p : Packet) : Option (List Hop) :=
  let a := p.from'
  let b := p.to'
  if b.1 != here then
    let l := s.exitPorts p
    if l.isEmpty then none else (l[(a.2 ^^^ b.2) % l.length]?).map fun e => [.port e]
  else if a.1 != here then some []
  else
    let r := s.rcls (s.partOfPacket p) p.cls
    let via := fld r.toNat 17 16
    let x := a.2 / 256
    let y := b.2 / 256
    if !p.frame && p.type == 0 && r.getLsbD 18 && x != y && via != x && via != y then some (s.legs x via ++ s.legs via y)
    else some (s.legs x y)

/-- The packet has reached its destination in this package. -/
def State.arrived (s : State) (p : Packet) : Bool :=
  p.to'.1 == here && match s.route p with | some l => p.hops ≥ l.length | none => false

/-- The permit of a direction (26 Table 26.3). -/
def State.permitted (s : State) (part : Nat) (h : Hop) : Bool :=
  match h with
  | .bridge b back => (s.lpermOf part).getLsbD (2 * b + b2n back)
  | .port e => (s.lpermOf part).getLsbD (12 + 2 * e)

def State.domain (s : State) (p d : Nat) : Domain := Sp.get Domain.reset s.domains (p * 64 + d)
def State.setDomain (s : State) (p d : Nat) (q : Domain) : State := { s with domains := Sp.set Domain.reset s.domains (p * 64 + d) q }
def Domain.key (d : Domain) (phase : Bool) : Option (BitVec 256) := if phase then d.key1 else d.key0

/-! ## Packets on their way -/

def State.setFlight (s : State) (l : List Packet) : State := { s with net := { s.net with flight := l } }
def State.dropFlight (s : State) (k : Nat) : State := s.setFlight (s.net.flight.eraseIdx k)

/-- A type 4 or 5 packet about a packet, from its destination to its source: its stream is named by the tag, agent × 64 + kind × 16 +
class, with kind 3 for a read, and by the two ends; a nack names the fault code in its address dword (log 44). -/
def control (type : Nat) (nack : Bool) (p : Packet) (code : Nat := 0x1B) : Packet :=
  let kind := if p.type == 1 then 3 else p.kind
  let h : Header := { type := type, nack := nack, seq := p.seq, tag := p.agent * 64 + kind * 16 + p.cls, sdev := p.ddev, score := p.dcore,
                      ddev := p.sdev, dcore := p.score, part := p.part, colour := p.colour, addr := if nack then code else 0 }
  { hdr := h.dwords, payload := [], frame := false, hops := 0, again := false }

/-- Acknowledge a packet of types 0, 2 and 3, or refuse it with a nack. -/
def State.ack (s : State) (p : Packet) (nack : Bool) (code : Nat := 0x1B) : State :=
  if p.type == 1 then s else s.setFlight (s.net.flight ++ [control 5 nack p code])

/-- A packet has left its sender: its place in the retransmit buffer lies among the 64, and fewer than 64 numbers lie between it and the
oldest of its stream that is not acknowledged (R333, R334). -/
def State.placed (s : State) (p : Packet) : Bool :=
  let l := s.sentBy (if p.type == 3 then 1024 + p.score else p.score)
  p.frame || p.type > 3 || p.sdev != here ||
    !((l.drop 64).any (fun e => e.pkt.stream == p.stream && e.pkt.seq == p.seq) || l.any (Sent.farFrom p))

/-- The lane a packet travels on (R330): 0 for sheared headers, re-requests and acknowledgements, else its priority's; a frame that of
its end (25 R348). -/
def Packet.lane (p : Packet) : Nat :=
  if p.frame then p.fprio + 1 else if p.shear || p.type == 4 || p.type == 5 then 0 else p.prio + 1

/-- An earlier packet stands on the way of another: on the links up to the next bridge or port, or up to the destination of both. -/
def State.ahead (s : State) (q p : Packet) : Bool :=
  let a := (s.route q).getD []
  let b := (s.route p).getD []
  q.hops ≤ p.hops && (if p.hops < b.length then a.take (p.hops + 1) == b.take (p.hops + 1) else q.to' == p.to' && a == b)

/-- Packets of one lane on one link keep their order, a lane never passes one that has precedence over it (R330), and the frames of one
channel keep their order (25 R349): no packet of the k-th's source that left before it stands in its way. Packets of other sources
meet it at times that the manual leaves open. -/
def State.inOrder (s : State) (k : Nat) (p : Packet) : Bool :=
  (s.net.flight.take k).all fun q =>
    !s.placed q || q.from' != p.from' ||
      !(q.lane ≤ p.lane && s.ahead q p || q.frame && p.frame && q.to' == p.to' && q.fChan == p.fChan)

/-- Count at a port of the network page: shears in the high half, retransmissions in the low one (Table 24.4). -/
def State.countShear (s : State) (p : Packet) (port : Nat) (shear again : Bool) : State :=
  let q := s.netOf p.part
  let k := 16 * port + p.cls
  let v := (Sp.get 0 q.shcnt k).toNat
  let v := satAdd 32 (v / 2 ^ 32) (b2n shear) * 2 ^ 32 + satAdd 32 (v % 2 ^ 32) (b2n again)
  s.setNet p.part { q with shcnt := Sp.set 0 q.shcnt k (w64 v) }

/-- The packet without its payload, sheared (R332). -/
def Packet.sheared (p : Packet) : Packet :=
  let d0 := p.hdr.getD 0 0 ||| (1#64 <<< 55)
  let d1 := p.hdr.getD 1 0
  let d2 := p.hdr.getD 2 0
  { p with hdr := [d0, d1, d2, headerCheck [d0, d1, d2]], payload := [] }

/-- A packet passes an output whose lane's queue holds `queued` places (R332, R342). -/
def State.pass (s : State) (p : Packet) (port queued : Nat) : State × Packet :=
  if p.frame then (s, { p with hops := p.hops + 1 })
  else
    let cut := !p.shear && !p.payload.isEmpty && queued ≥ 48
    (if cut || p.again then s.countShear p port cut p.again else s,
     { (if cut then p.sheared else p) with hops := p.hops + 1 })

/-- The send end of a frame. -/
def State.endOfFrame (s : State) (p : Packet) : Option (Nat × ChanEnd) :=
  s.channels.find? fun q => q.2.en && q.2.core.toNat == p.fScore && q.2.pcore.toNat == p.fDcore && q.2.pchan.toNat == p.fChan

/-- A packet that may not pass is refused (26 R361): a nack to its sender, at once where that is in this package, or the channel end of
this package goes into FAULT. -/
def State.refuse (s : State) (p : Packet) : State :=
  if p.frame then
    let k := s.partid p.fDcore * 64 + p.fChan
    match if p.fSdev == here then s.endOfFrame p else if (s.chanEnd k).en then some (k, s.chanEnd k) else none with
    | some (k, e) => s.channelFault k e
    | none => s
  else if p.type ≤ 3 then s.setFlight (s.net.flight ++ [{ control 5 true p with hops := if p.sdev == here then 1000 else 0 }])
  else s

/-- A packet or frame as it leaves by a port (25 R353, R354): unordered classes use RUD, everything else ROD. -/
def State.onWire (s : State) (e dn : Nat) (p : Packet) : Wire :=
  { port := e, dom := dn, phase := (s.domain e dn).tx, peer := p.to'.1, part := s.partOfPacket p,
    rod := p.frame || p.type != 0 || p.ord, pkt := p }

/-- A packet is sealed under the domain's tx key and counted (25 Table 25.5). -/
def Domain.sealed (d : Domain) : Domain := { d with txcount := d.txcount + 1, stall := d.txcount + 1 ≥ 2 ^ 47 }
/-- The domain sends: it has the key of its tx phase and is not stalled. -/
def Domain.sends (d : Domain) : Bool := (d.key d.tx).isSome && !d.stall

/-- UET sends the k-th packet that left again, under the current phase (25 R354). -/
def State.uetAgain (s : State) (k : Nat) : State :=
  match s.net.wire[k]? with
  | none => s
  | some w =>
    let d := s.domain w.port w.dom
    if s.link w.port == .auth && d.sends then
      { s.setDomain w.port w.dom d.sealed with net := { s.net with wire := s.net.wire ++ [{ w with phase := d.tx }] } }
    else s

/-- The congestion control of a port (25 R352). -/
def State.ccSelect (s : State) (port : BitVec 4) (rccc : Bool) : State :=
  { s with rccc := Sp.set false s.rccc port.toNat rccc }

/-- PACKET_FORWARD: packet k passes the next bridge or port of its way, whose queue for its lane holds `queued` places. It waits
while its sender has no place for it, and at a port that is not in AUTH, has no key, or is stalled (R330, R332, R361, R366). -/
def execPacketForward (k : Nat) (queued : BitVec 7) (s : State) : Out :=
  .next (match s.net.flight[k]? with
    | none => s
    | some p =>
      if !s.placed p || !s.inOrder k p then s else
      match s.route p with
      | none => (s.dropFlight k).refuse p
      | some l =>
        match l[p.hops]? with
        | none => s
        | some h =>
          let part := s.partOfPacket p
          match h with
          | .bridge b _ =>
            if !s.permitted part h then (s.dropFlight k).refuse p
            else
              let r := s.pass p b queued.toNat
              r.1.setFlight (r.1.net.flight.set k r.2)
          | .port e =>
            if s.link e != .auth then s
            else if !s.permitted part h then (s.dropFlight k).refuse p
            else
              let dn := (Config.domainOf part p.to'.1).toNat
              let d := s.domain e dn
              if !d.sends then s else
              let r := s.pass p (6 + e) queued.toNat
              let s' := (r.1.dropFlight k).setDomain e dn d.sealed
              { s' with net := { s'.net with wire := s'.net.wire ++ [s.onWire e dn r.2] } })

/-- The receiver of a domain opens packets of a phase: its rx bit is set and it holds the key (25 R354). -/
def Domain.opens (d : Domain) (phase : Bool) : Bool := (if phase then d.rx1 else d.rx0) && (d.key phase).isSome

/-- A packet or frame from another device at a port: the port must be in AUTH, the domain must open the packet's phase, and the
ingress must be permitted (25 R354, 26 R361, R366). A header whose check fails is discarded and counted (R332); so is, uncounted, a
frame whose check fails or whose kind is reserved (25 R348). -/
def State.fromOutside (s : State) (port dom : Nat) (phase frame : Bool) (words : List W64) : State :=
  let h := if frame then 2 else 4
  let p0 : Packet := { hdr := words.take h, payload := (words.drop h).flatMap fun w => leBytes 8 w.toNat, frame := frame,
                       hops := 1000, again := false }
  let p := if frame then { p0 with fprio := (s.chanEnd (s.partid p0.fDcore * 64 + p0.fChan)).prio.toNat } else p0
  let d := s.domain port dom
  if s.link port != .auth then s
  else if !d.opens phase then s.setDomain port dom { d with authfail := satAdd 32 d.authfail 1 }
  else if !p.checks then (if frame then s else s.countShear p (6 + port) true false)
  else if p.from'.1 == here || p.to'.1 != here || (frame && p.fKind > 3) then s
  else if !(s.lpermOf (s.partOfPacket p)).getLsbD (13 + 2 * port) then s.refuse p
  else s.setFlight (s.net.flight ++ [p])

/-! ## Windows (R334 to R336) -/

def State.window (s : State) (p : Packet) : Window := Sp.get { oldest := 0, got := [], held := [] } s.net.windows p.stream
def State.setWindow (s : State) (p : Packet) (w : Window) : State :=
  { s with net := { s.net with windows := Sp.put s.net.windows p.stream w } }
def Window.dist (w : Window) (q : Nat) : Nat := (q + 65536 - w.oldest) % 65536
/-- A number that lies before the window or is marked delivered. -/
def Window.seen (w : Window) (q : Nat) : Bool := w.dist q ≥ 64 || w.got.contains q
/-- The window past its delivered numbers. -/
def Window.slide (w : Window) : Nat → Window
  | 0 => w
  | n + 1 => if w.got.contains w.oldest then
      Window.slide { w with got := w.got.filter (· != w.oldest), oldest := (w.oldest + 1) % 65536 } n else w
/-- Mark a number delivered. -/
def Window.take (w : Window) (q : Nat) : Window := { w with got := q :: w.got }.slide 65

/-- Remote memory packets and replies are ordered; a route class as the receiving partition says (R335, R338). -/
def State.ordered (s : State) (p : Packet) : Bool := p.type != 0 || (s.rcls p.part p.cls).getLsbD 62

/-- Slots of a core's ring, and packets delivered to it that still fill one. -/
def Ring.slots (r : Ring) : Nat := 2 ^ fld r.cfg.toNat 62 59
def State.ringDue (s : State) (n : Nat) : Nat := (s.net.due.filter fun p => p.type == 0 && p.dcore == n).length

def sameHole (a b : List W64) : Bool :=
  let p : Packet := { hdr := a, payload := [], frame := false, hops := 0, again := false }
  let q : Packet := { hdr := b, payload := [], frame := false, hops := 0, again := false }
  p.stream == q.stream && p.seq == q.seq

/-- The hole of a packet is open: a re-request is to leave for it (R336). -/
def State.addHole (s : State) (p : Packet) : State :=
  { s with net := { s.net with rereqs := (s.net.rereqs.filter fun r => !sameHole r.hdr p.hdr) ++
      [{ core := p.dcore, hdr := p.hdr, asked := false }] } }
/-- It is filled. -/
def State.fillHole (s : State) (p : Packet) : State :=
  { s with net := { s.net with rereqs := s.net.rereqs.filter fun r => !sameHole r.hdr p.hdr } }

/-- A route-class packet is refused: its core is absent or outside its partition, or the class is disabled there (R339). -/
def State.classRefused (s : State) (p : Packet) : Bool :=
  p.type == 0 && (!s.corePresent p.dcore || s.partOf p.dcore != some p.part || !(s.rcls p.part p.cls).getLsbD 63)
/-- A route-class packet is treated as sheared: its class is masked, or the ring is full or not enabled (R339). -/
def State.classSheared (s : State) (p : Packet) : Bool :=
  let c := s.core p.dcore
  p.type == 0 && (c.mask.getLsbD p.cls || !c.ring.cfg.getLsbD 63 || c.ring.count + s.ringDue p.dcore ≥ c.ring.slots)

/-- A packet whose turn it is: delivered or refused (true), or treated as sheared (R339). -/
def State.accept (s : State) (p : Packet) : State × Bool :=
  if s.classRefused p then (s.ack p true, true)
  else if s.classSheared p then (s.addHole p, false)
  else ({ s with net := { s.net with due := s.net.due ++ [p] } }, true)

/-- A packet that its window has delivered is still to be performed: its acknowledgement is still to come (R334, R337). -/
def State.isDue (s : State) (p : Packet) : Bool := s.net.due.any fun q => q.stream == p.stream && q.seq == p.seq

/-- A packet whose number is delivered already is discarded and acknowledged again, once it is performed (R334). -/
def State.ackAgain (s : State) (p : Packet) : State := if s.isDue p then s else s.ack p false

/-- Deliver the held packets of a stream whose numbers have come. -/
def State.drainWindow (s : State) (p : Packet) : Nat → State
  | 0 => s
  | n + 1 =>
    let w := s.window p
    match w.held.find? fun h => h.1 == w.oldest with
    | none => s
    | some (q, x) =>
      let s := s.setWindow p { w with held := w.held.filter fun h => h.1 != q }
      match s.accept x with
      | (s, true) => (s.setWindow p ((s.window p).take q)).drainWindow p n
      | (s, false) => s

/-- The packets in retransmit buffers that a control packet names: its sender's key, and the entry. -/
def Packet.named (c : Packet) : Nat × (Sent → Bool) :=
  let kind := c.tag / 16 % 4
  (if kind == 2 then 1024 + c.dcore else c.dcore,
   fun e => e.pkt.kind == kind && e.pkt.agent == c.tag / 64 && e.pkt.seq == c.seq && e.pkt.cls == c.tag % 16 && e.pkt.ddev == c.sdev &&
     (kind == 1 || e.pkt.dcore == c.score))

/-- Transmit a kept packet again, the sixteenth time at most (R333, R336). -/
def State.resend (s : State) (key : Nat) (f : Sent → Bool) : State :=
  let l := s.sentBy key
  match l.find? f with
  | none => s
  | some e =>
    if e.times == 0 || e.times ≥ 16 then s else
    let l' := l.map fun (x : Sent) => if f x then { x with time := s.cycle, times := x.times + 1 } else x
    let s := { s with net := { s.net with sent := Sp.put s.net.sent key l' } }
    s.setFlight (s.net.flight ++ [{ e.pkt with hops := 0, again := true }])

/-- PACKET_ARRIVAL: packet k at its destination (R334, R335). A re-request makes its sender transmit again (R336). -/
def execPacketArrival (k : Nat) (s : State) : Out :=
  .next (match s.net.flight[k]? with
    | none => s
    | some p =>
      if p.frame || !s.arrived p || !s.placed p || !s.inOrder k p || p.shear || p.type == 5 then s else
      let s := s.dropFlight k
      if p.type == 4 then s.resend p.named.1 p.named.2
      else if p.type > 5 then s
      else
        let w := s.window p
        if w.seen p.seq then s.ackAgain p
        else
          let s := s.fillHole p
          if s.classRefused p then (s.ack p true).setWindow p (w.take p.seq) |>.drainWindow p 64
          else if s.classSheared p then s.addHole p
          else if s.ordered p && w.dist p.seq > 0 then
            if w.held.any fun h => h.1 == p.seq then s else s.setWindow p { w with held := w.held ++ [(p.seq, p)] }
          else
            match s.accept p with
            | (s, true) => (s.setWindow p ((s.window p).take p.seq)).drainWindow p 64
            | (s, false) => s)

/-- SHEARED_HEADER: a sheared header at its destination opens a hole (R336). -/
def execShearedHeader (k : Nat) (s : State) : Out :=
  .next (match s.net.flight[k]? with
    | none => s
    | some p =>
      if p.frame || !s.arrived p || !s.inOrder k p || !p.shear then s else
      let s := s.dropFlight k
      if (s.window p).seen p.seq then s.ackAgain p
      else if (s.window p).held.any (fun h => h.1 == p.seq) then s
      else s.addHole p)

/-- RE_REQUEST: the oldest waiting re-request of a destination core that its pace and its class's mask let leave (R336). -/
def execReRequest (n : CoreNum) (s : State) : Out :=
  let n := n.toNat
  let pkt := fun (r : ReReq) => ({ hdr := r.hdr, payload := [], frame := false, hops := 0, again := false } : Packet)
  let key := fun (p : Packet) => ((n * 2 + b2n (p.kind == 2)) * 1024 + p.sdev) * 1024 + p.score
  .next (match s.net.rereqs.find? fun r =>
      let p := pkt r
      r.core == n && !r.asked && !(p.type == 0 && (s.core n).mask.getLsbD p.cls) &&
        (match Sp.find? s.net.paced (key p) with
         | some t => s.cycle - t ≥ (s.netOf p.part).lull
         | none => true) with
    | none => s
    | some r =>
      let p := pkt r
      let s := { s with net := { s.net with
        rereqs := s.net.rereqs.map (fun (x : ReReq) => if sameHole x.hdr r.hdr then { x with asked := true } else x),
        paced := Sp.put s.net.paced (key p) s.cycle } }
      s.setFlight (s.net.flight ++ [control 4 false p]))

/-! ## Acknowledgements and timeouts (R333) -/

/-- The destination word that MSEND gave a packet (R343), or dword 1 of another packet's header. -/
def refusedWord (e : Sent) : W64 := if e.pkt.type == 0 then e.word else e.pkt.hdr.getD 1 0

/-- Dword 1 of the header of a read that a nack refuses: the ends of the nack, the other way round. -/
def refusedRead (p : Packet) : W64 :=
  ({ type := 1, sdev := p.ddev, score := p.dcore, ddev := p.sdev, dcore := p.score, part := p.part, colour := p.colour } : Header).dwords.getD 1 0

/-- ACKNOWLEDGEMENT: an acknowledgement frees the place of its packet; a nack refuses the packet, with a record (R333, R339, 26
R361). -/
def execAcknowledgement (k : Nat) (s : State) : Out :=
  .next (match s.net.flight[k]? with
    | none => s
    | some p =>
      if p.frame || !s.arrived p || !s.inOrder k p || p.type != 5 then s else
      let s := s.dropFlight k
      let key := p.named.1
      let f := p.named.2
      let code := fld (p.d 2) 7 0
      match (s.sentBy key).find? f with
      | none =>
        if p.nack && p.tag / 16 % 4 == 3 then
          s.record p.part { code := code, kind := 5, colour := p.colour, core := p.dcore, addr := refusedRead p }
        else s
      | some e =>
        let s := s.freePlaces key f
        if p.nack then
          s.record e.pkt.part { code := code, kind := 5, colour := e.pkt.colour, core := e.pkt.score, addr := refusedWord e }
        else s)

/-- RETRANSMIT_TIMEOUT: the k-th kept packet, without an acknowledgement for 2^20 cycles, is sent again, or abandoned after 16
transmissions with a record (R333). -/
def execRetransmitTimeout (k : Nat) (s : State) : Out :=
  let all := s.net.sent.flatMap fun q => q.2.map fun e => (q.1, e)
  .next (match all[k]? with
    | none => s
    | some (key, e) =>
      let f := fun (x : Sent) => x.pkt.stream == e.pkt.stream && x.pkt.seq == e.pkt.seq
      if e.times == 0 || s.cycle - e.time < 2 ^ 20 then s
      else if e.times < 16 then s.resend key f
      else
        (s.freePlaces key f).record e.pkt.part
          { code := 0x52, kind := 5, colour := e.pkt.colour, core := e.pkt.score, addr := e.pkt.hdr.getD 1 0 })

/-! ## Remote accesses at their homes (R337; 17 R262) -/

/-- Packet k of those delivered is the oldest of its stream, so that it may be performed. -/
def State.dueNow (s : State) (k : Nat) : Option Packet :=
  match s.net.due[k]? with
  | some p => if (s.net.due.take k).any fun q => q.stream == p.stream then none else some p
  | none => none
def State.dropDue (s : State) (k : Nat) : State := { s with net := { s.net with due := s.net.due.eraseIdx k } }

/-- The key under which a home address is accessed for another device, where the packet's partition owns it and no rule of memory
bars the access; else the code of the fault, a permission fault for a write to a sealed frame (18 R269; 26 R368; log 45). -/
def State.remoteKey (s : State) (p : Packet) (n : Nat) (wr : Bool) : Except Nat Nat :=
  let bad := fun (h : Nat) =>
    if !(space h == .floor || space h == .gddr) || !s.bound p.part p.colour then some 0x1B
    else match s.memFault p.part p.colour h 0 with
    | some c => some c
    | none => if wr && s.sealedFrame h then some 0x09 else none
  match bad p.addr, bad (p.addr + n - 1) with
  | some c, _ | none, some c => .error c
  | none, none => .ok (if space p.addr == .gddr then (s.colour p.colour).key else 0)

/-- The number of the unit that answers for a home: a floor bank, or a slice (R334). -/
def State.unitOf (s : State) (p : Packet) : Nat := if space p.addr == .floor then bankOf p.addr else 340 + s.sliceOf p.part p.addr

/-- REMOTE_READ: the read is performed at its home and a reply sent (R337). -/
def execRemoteRead (k : Nat) (s : State) : Out :=
  .next (match s.dueNow k with
    | none => s
    | some p =>
      if p.type != 1 then s else
      let s := s.dropDue k
      match s.remoteKey p (8 * p.len8) false with
      | .error _ => s
      | .ok key =>
        let u := s.unitOf p
        s.sendPacket (.bank u)
          { type := 3, ord := true, poison := s.anyPoison p.addr (8 * p.len8), len8 := p.len8, tag := p.tag, score := u, ddev := p.sdev,
            dcore := p.score, part := p.part, colour := p.colour, addr := p.addr } (s.readHomeN key p.addr (8 * p.len8)))

/-- REMOTE_WRITE: the write is performed once at its home and acknowledged (R337). -/
def execRemoteWrite (k : Nat) (s : State) : Out :=
  .next (match s.dueNow k with
    | none => s
    | some p =>
      if p.type != 2 then s else
      let s := s.dropDue k
      match s.remoteKey p (Nat.max 1 p.payload.length) true with
      | .error code => s.ack p true code
      | .ok key =>
        (s.writeAs key p.addr p.payload p.poison).ack p false)

/-- The bytes of a reply, by home address, each with its poison. -/
def replyBytes (m : Sparse (Byte × Bool)) (r : RRead) (p : Packet) : Sparse (Byte × Bool) :=
  (List.range r.len).foldl (fun m i => Sp.put m (r.home + i) (p.payload.getD i 0, p.poison)) m

/-- A reply reaches the agent that asked (17 R262). -/
def State.giveReply (s : State) (r : RRead) (p : Packet) : State :=
  match r.who with
  | .core n =>
    let c := s.core n
    s.setCore n { c with rreq := none, blk := { c.blk with remote := replyBytes c.blk.remote r p } }
  | .engine n =>
    let c := s.core n
    match c.eng with
    | [] => s
    | q :: rest =>
      let m := (List.range r.len).foldl (fun m i => Sp.put m (r.home + i) (p.payload.getD i 0)) q.remote
      s.setCore n { c with eng := { q with remote := m, lost := (if p.poison then (List.range r.len).map (r.home + ·) else []) ++ q.lost } :: rest }
  | .stream n i => s.setStream n i { (s.core n).stream i with got := some (r.home, w32 (bytesNat (p.payload.take 4)), p.poison) }
  | .vane n =>
    let c := s.core n
    s.setCore n { c with vane := { c.vane with remote := replyBytes c.vane.remote r p } }
  | .island n => s.setIsland n { s.island n with remote := replyBytes (s.island n).remote r p }
  | .elem e id =>
    let x := s.elem e
    s.setElem e { x with reqs := x.reqs.map fun q => if q.id == id then { q with got := some (p.payload.take r.len, p.poison) } else q }
  | .row e sl a =>
    let v := s.slot e sl
    s.setSlot e sl { v with entries := v.entries.map fun x =>
      match x.row with
      | .vane toks w (some b) far => if a == b then { x with row := .vane toks w (some b) (replyBytes far r p) } else x
      | _ => x }
  | .bank _ => s
  | .loader q id _ =>
    let c := Sp.get Sched.reset s.scheds q
    { s with scheds := Sp.put s.scheds q { c with launches := c.launches.map fun l =>
        if l.id == id then { l with far := replyBytes l.far r p } else l } }

/-- READ_REPLY: a reply reaches its requester and is acknowledged (17 R262). -/
def execReadReply (k : Nat) (s : State) : Out :=
  .next (match s.dueNow k with
    | none => s
    | some p =>
      if p.type != 3 then s else
      let s := (s.dropDue k).ack p false
      let mine := fun (r : RRead) => r.tag == p.tag && r.who.sender == p.dcore
      match s.net.reads.find? mine with
      | none => s
      | some r =>
        ({ s with net := { s.net with reads := s.net.reads.filter fun x => !mine x } }).giveReply r p)

/-! ## Receive rings (R339, R343) -/

def Ring.base (r : Ring) : Nat := fld r.cfg.toNat 18 9 * 512
def Ring.countOff (r : Ring) : Nat := fld r.cfg.toNat 40 24 * 4

/-- ROUTE_CLASS_DELIVERY: a delivered packet fills the next slot, the count word is bumped, and the packet is acknowledged (R339). -/
def execRouteClassDelivery (k : Nat) (s : State) : Out :=
  .next (match s.dueNow k with
    | none => s
    | some p =>
      if p.type != 0 then s else
      let n := p.dcore
      let r := (s.core n).ring
      let h := padHome n (r.base + (r.head + r.count) % r.slots * 512)
      let words := Sp.get 0 (s.netOf p.part).rhdl p.cls :: p.hdr
      let s := ((s.dropDue k).write 0 h (words.flatMap fun w => leBytes 8 w.toNat)).writeAs 0 (h + 40) p.payload p.poison
      let s := s.setCore n { s.core n with ring := { r with count := r.count + 1 } }
      (s.padWrite32 n r.countOff ((s.readVal 0 (padHome n r.countOff) 4 + 1) % 2 ^ 32)).ack p false)

/-- `.pop`: the slot taken before is freed, and the oldest delivered slot taken: its address, or 0. -/
def Ring.pop (r : Ring) : Ring × Nat :=
  let r := if r.taken then { r with head := (r.head + 1) % r.slots, count := r.count - 1, taken := false } else r
  if r.count == 0 then (r, 0) else ({ r with taken := true }, padLocal + r.base + r.head * 512)
/-- `.free`. -/
def Ring.free (r : Ring) : Ring :=
  if r.taken then { r with head := (r.head + 1) % r.slots, count := r.count - 1, taken := false } else r

/-- The commit of a `.pop`: the slot it freed, and the slot it took, if it took one; nothing of a ring that was configured anew in
its block. -/
def Ring.popped (r : Ring) (got keep : Bool) : Ring :=
  if !keep then r else { r.free with taken := got }

/-- The ring as the earlier instructions of the block leave it. -/
def State.ringSeen (s : State) : Ring :=
  s.blk.held.foldl (fun r h => match h with | .ringPop got _ => r.popped got true | .ringFree => r.free | _ => r) s.me.ring

/-- MRECV.pop acts at execute: what it took then is taken at the commit, and no packet that arrived since. -/
def execMrecvPop (o : RRR) (s : State) : Out :=
  plain o.g o.gs s fun s =>
    let a := s.ringSeen.pop.2
    (s.setX o.d (w64 a)).hold (.ringPop (a != 0) (s.blk.held.all fun h => match h with | .ringCfg _ => false | _ => true))

/-- MRECV.free. -/
def execMrecvFree (o : RRR) (s : State) : Out := plain o.g o.gs s fun s => s.hold .ringFree

/-- The configuration word of a ring is one that `.cfg` takes. -/
def ringOk (w : W64) : Bool :=
  let v := w.toNat
  let r : Ring := { Ring.reset with cfg := w }
  fld v 62 59 ≤ 8 && fld v 58 41 == 0 && fld v 23 19 == 0 && fld v 8 0 == 0 && r.base + 512 * r.slots ≤ 0x80000 &&
    !(r.base ≤ r.countOff && r.countOff < r.base + 512 * r.slots)

/-- MRECV.cfg. -/
def execMrecvCfg (o : RRR) (s : State) : Out :=
  checked o.g o.gs s fun s =>
    let w := s.x o.a
    if ringOk w then .ok (s.hold (.ringCfg w)) else .error (.fault 0x42 0 w)

/-- The delivery of `.cfg`: packets delivered into the ring are acknowledged and lost. -/
def State.ringDeliver (s : State) (n : Nat) (w : W64) : State :=
  let mine := fun (p : Packet) => p.type == 0 && p.dcore == n
  let lost := s.net.due.filter mine
  let s := { s with net := { s.net with due := s.net.due.filter fun p => !mine p } }
  lost.foldl (fun s p => s.ack p false) (s.setCore n { s.core n with ring := { Ring.reset with cfg := w } })

/-- Holes of route-class streams toward a core that await their resend. -/
def State.holes (s : State) (n : Nat) : Nat := (s.net.rereqs.filter fun r => r.core == n && fld (r.hdr.getD 0 0).toNat 63 60 == 0).length

/-- MRECV.st. -/
def execMrecvSt (o : RRR) (s : State) : Out :=
  plain o.g o.gs s fun s =>
    let r := s.ringSeen
    s.setX o.d (w64 (r.count * 2 ^ 48 + b2n r.taken * 2 ^ 47 + Nat.min 65535 (s.holes s.cur) * 2 ^ 16 + s.me.mask.toNat))

/-- MMASK and MUNMASK. -/
def execMmask (o : RRR) (s : State) : Out := plain o.g o.gs s fun s => s.hold (.mask true ((s.x o.a).setWidth 16))
def execMunmask (o : RRR) (s : State) : Out := plain o.g o.gs s fun s => s.hold (.mask false ((s.x o.a).setWidth 16))

/-! ## MSEND (R340, R343) -/

/-- The checks of MSEND. -/
def State.msendCheck (s : State) (len dst at_ : W64) (cls : Nat) : Except XF Unit :=
  let d := dst.toNat
  if len.toNat % 8 != 0 || len.toNat > 256 then .error (.fault 0x2D 0 len)
  else if at_.toNat % 8 != 0 || at_.toNat < padLocal || at_.toNat + len.toNat > vaLimit then .error (.fault 0x18 0 at_)
  else if fld d 63 52 != 0 || fld d 40 32 != 0 || fld d 15 10 != 0 then .error (.fault 0x1B 0 dst)
  else if !(s.rcls (s.partid s.cur) cls).getLsbD 63 then .error (.fault 0x1B 0 (w64 cls))
  else if !bitAt d 51 && (!s.corePresent (fld d 9 0) || s.partOf (fld d 9 0) != s.partOf s.cur) then .error (.fault 0x1B 0 dst)
  else .ok ()

/-- MSEND: the packet is sent at commit, with the payload that the pad then holds. -/
def execMsend (o : RRR) (s : State) : Out :=
  checked o.g o.gs s fun s =>
    let len := s.x o.d
    let dst := s.x o.a
    let at_ := s.x o.b
    let cls := o.func.toNat % 16
    match s.msendCheck len dst at_ cls with
    | .error e => .error e
    | .ok _ => .ok (s.hold (.send cls dst (at_.toNat - padLocal) len.toNat s.me.regs.colour))

/-- The delivery of MSEND. -/
def State.msendDeliver (s : State) (n cls : Nat) (dst : W64) (off len : Nat) (colour : BitVec 8) : State :=
  let d := dst.toNat
  let part := s.partid n
  let r := s.rcls part cls
  s.sendPacket (.core n)
    { type := 0, cls := cls, ord := r.getLsbD 62, poison := s.anyPoison (padHome n off) len, prio := fld r.toNat 61 60, len8 := len / 8,
      tag := fld d 31 16, score := n, ddev := if bitAt d 51 then fld d 50 41 else here, dcore := fld d 9 0, part := part,
      colour := colour.toNat } (s.readHomeN 0 (padHome n off) len) dst

end Sys2Proof.Machine
end

