-- ==== Sys2Proof/Machine/Channels.lean ====
section
/-!
DEFINITION. Channels (25 R345 to R351), with their frames' events, and what drains an exit side.
-/
namespace Sys2Proof.Machine

/-! ## Ends -/

/-- The ready frame of an end in WAIT; a receive end's carries its depth. -/
def State.sendReady (s : State) (k : Nat) : State :=
  let e := s.chanEnd k
  (s.setEnd k { e with readied := true, readyAt := s.cycle }).sendFrame e 2 0 (if e.recv then e.depth.toNat else 0) []

/-- READY_RESEND: an end in WAIT sends its ready frame, and again every 2^16 cycles (R347). -/
def execReadyResend (p : PartNum) (c : BitVec 6) (s : State) : Out :=
  let k := p.toNat * 64 + c.toNat
  let s := s.follow k
  let e := s.chanEnd k
  .next (if e.st == .wait && (!e.readied || s.cycle - e.readyAt ≥ 2 ^ 16) then s.sendReady k else s)

/-! ## Frames -/

/-- Frame k, arrived, of a kind, with the key of the end it names; frames whose check fails are discarded (R348). -/
def State.frameAt (s : State) (k kind : Nat) : Option (Packet × Nat) :=
  match s.net.flight[k]? with
  | some p =>
    if p.frame && s.arrived p && s.inOrder k p && p.fKind == kind then some (p, s.partid p.fDcore * 64 + p.fChan) else none
  | none => none

/-- The colours with a quota in the region of the end's peer: that end's, in this package; else an open value (R349; log 55). -/
def State.peerColours (s : State) (k : Nat) (e : ChanEnd) : State × BitVec 256 :=
  if e.remote then ({ s with free := s.free + 1 }, Config.peerColours s.free)
  else
    (s, match s.endRegion (s.chanEnd (k / 64 * 64 + e.pchan.toNat)) with
      | some (h, _) => (s.region h).colours.foldl (fun a c => if c.2.quota == 0 then a else a ||| (1#256 <<< c.1)) 0
      | none => 0)

/-- A frame comes from the end's own peer. -/
def ChanEnd.peerOf (e : ChanEnd) (p : Packet) : Bool :=
  p.fDcore == e.core.toNat && p.fScore == e.pcore.toNat && p.fSdev == (if e.remote then e.pdev.toNat else here)

/-- READY_FRAME: one that names another peer puts the end in FAULT; one of its own peer opens an end in WAIT, which has sent its own
(R347, R349). -/
def execReadyFrame (k : Nat) (s : State) : Out :=
  .next (match s.frameAt k 2 with
    | none => s
    | some (p, i) =>
      let s := (s.dropFlight k).follow i
      let e := s.chanEnd i
      if !e.en || e.st == .fault then s
      else if !e.peerOf p then s.channelFault i e
      else if e.st != .wait then s
      else
        let s := if e.readied then s else s.sendReady i
        let q := if e.recv then (s, 0) else s.peerColours i e
        q.1.setEnd i { q.1.chanEnd i with
          st := .opened, window := if e.recv then 0 else p.fCount, colours := q.2, spent := [], places := [] })

/-- CLOSE_FRAME: an open end returns to WAIT on a close frame from its peer (R347). -/
def execCloseFrame (k : Nat) (s : State) : Out :=
  .next (match s.frameAt k 3 with
    | none => s
    | some (p, i) =>
      let s := (s.dropFlight k).follow i
      let e := s.chanEnd i
      if e.st == .opened && e.peerOf p then s.setEnd i { e.leave .wait with region := e.region } else s)

/-- Add to the count of tokens sent or admitted. -/
def ChanEnd.count (e : ChanEnd) (n : Nat) : ChanEnd := { e with tokens := satAdd 32 e.tokens n }

/-- The oldest token in a receive end's places of a colour is admitted, or discarded and counted, and its credit returned; false while
it waits (R349, Table 25.2; 08 R145). -/
def State.admitPlace (s : State) (k c : Nat) : State × Bool :=
  let e := s.chanEnd k
  let n := e.core.toNat
  let port := e.port.toNat
  let sl := e.slot.toNat
  match Sp.get [] e.places c, s.sideUser n port sl true with
  | t :: rest, some u =>
    let h := (s.slot u sl).region
    let gone := fun (s : State) (e : ChanEnd) (refused : Bool) =>
      (s.setEnd k { e with places := Sp.set [] e.places c rest }).putFrame { e.frame 1 c 1 [] with fgone := refused }
    match s.screen h n port t with
    | some s => (gone s { s.chanEnd k with stale := satAdd 32 (s.chanEnd k).stale 1 } true, true)
    | none =>
      if (Sp.get [] s.entryq (sideKey n port sl c)).isEmpty && s.mayBear h (tagOf t) then
        match s.offer n port sl t with
        | (s, .taken) => (gone (s.admitHead n port sl c) (e.count 1) false, true)
        | (s, _) => (s, false)
      else (s, false)
  | _, _ => (s, false)

/-- Tokens of a colour's places, while they are admitted. -/
def State.admitPlaces (s : State) (k c : Nat) : Nat → State
  | 0 => s
  | n + 1 => match s.admitPlace k c with
    | (s, true) => s.admitPlaces k c n
    | (s, false) => s

/-- A token takes a place of its colour; past the depth, which no credit allows, it is discarded (R349; log 55). -/
def ChanEnd.place (e : ChanEnd) (t : Token) : ChanEnd :=
  let l := Sp.get [] e.places t.colour.toNat
  if l.length < e.depth.toNat then { e with places := Sp.put e.places t.colour.toNat (l ++ [t]) } else { e with stale := satAdd 32 e.stale 1 }

/-- TOKEN_FRAME: the tokens take places by colour and are admitted as R145 lets them; an end that is not OPEN discards them
(R349, R351). -/
def execTokenFrame (k : Nat) (s : State) : Out :=
  .next (match s.frameAt k 0 with
    | none => s
    | some (p, i) =>
      let s := (s.dropFlight k).follow i
      let e := s.chanEnd i
      if e.st != .opened || !e.recv then s.setEnd i { e with stale := satAdd 32 e.stale p.fNtok }
      else
        let s := s.setEnd i (p.tokens.foldl ChanEnd.place e)
        (p.tokens.map fun t => t.colour.toNat).eraseDups.foldl (fun s c => s.admitPlaces i c 64) s)

/-- CREDIT_FRAME: credits of a colour return to the send end, whose eos tokens count as delivered where the peer has admitted them
(R349, R350). -/
def execCreditFrame (k : Nat) (s : State) : Out :=
  .next (match s.frameAt k 1 with
    | none => s
    | some (p, i) =>
      let s := s.dropFlight k
      let e := s.chanEnd i
      if e.st != .opened || e.recv then s else
      let l := Sp.get [] e.spent p.fColour
      let s := s.setEnd i { e with spent := Sp.set [] e.spent p.fColour (l.drop p.fCount) }
      (l.take p.fCount).foldl (fun s t =>
        if t.eos && !p.fgone then s.countSink (exitSink e.core.toNat e.port.toNat e.slot.toNat) p.fColour t.context.toNat else s) s)

/-- The exit side of a send end releases a colour's token on a credit (R349). -/
def State.channelSend (s : State) (k c : Nat) : State :=
  let s := s.follow k
  let e := s.chanEnd k
  if e.st != .opened || e.recv || !e.colours.getLsbD c || (Sp.get [] e.spent c).length ≥ e.window then s else
  match s.exitPick e.core.toNat e.port.toNat e.slot.toNat c with
  | none => s
  | some (_, t) =>
    let s := s.exitLeave e.core.toNat e.port.toNat e.slot.toNat c
    let e := (s.chanEnd k).count 1
    (s.setEnd k { e with spent := Sp.put e.spent c (Sp.get [] e.spent c ++ [t]) }).sendFrame e 0 0 0 [t]

/-- CHANNEL_TOKEN_SEND. -/
def execChannelTokenSend (p : PartNum) (ch : BitVec 6) (c : BitVec 8) (s : State) : Out :=
  .next (s.channelSend (p.toNat * 64 + ch.toNat) c.toNat)

/-! ## Register writes (R345 to R347) -/

/-- Another stream or channel is bound to the side. -/
def State.sideTaken (s : State) (k n port : Nat) (entry : Bool) : Bool :=
  ((s.core n).streams.any fun q => q.2.st != .unbound && q.2.target == 0 && q.2.write != entry && q.2.port == port) ||
    s.channels.any fun q => q.1 != k && q.2.en && q.2.core.toNat == n && q.2.port.toNat == port && q.2.recv == entry

/-- CHANNEL_ENTRY_WRITE. -/
def execChannelEntryWrite (p : PartNum) (ch : BitVec 6) (hi : Bool) (v : W64) (s : State) : Out :=
  let k := p.toNat * 64 + ch.toNat
  let e := s.chanEnd k
  .next (if hi then s.setEnd k { e with tokens := fld v.toNat 63 32, stale := fld v.toNat 31 0 }
    else if e.st != .closed then
      if v.getLsbD 63 then s else (s.setEnd k { e.leave .closed with en := false }).sendFrame e 3 0 0 []
    else
      let e' : ChanEnd :=
        { e with en := v.getLsbD 63, recv := v.getLsbD 60, port := v.extractLsb' 56 4, core := v.extractLsb' 46 10,
                 pcore := v.extractLsb' 36 10, pdev := v.extractLsb' 26 10, remote := v.getLsbD 25, pchan := v.extractLsb' 19 6,
                 depth := v.extractLsb' 12 7, prio := v.extractLsb' 10 2, slot := v.extractLsb' 8 2 }
      let n := e'.core.toNat
      if e'.en && (s.sideTaken k n e'.port.toNat e'.recv || !s.corePresent n || s.partOf n != some p.toNat ||
          (e'.recv && (e'.depth < 4 || e'.depth > 64))) then s
      else (s.setEnd k e').follow k)

/-! ## Entry and exit sides -/

/-- HELD_TOKEN_ADMIT: a colour's queue at an entry side, and the places of a receive end bound to it (08 R143, 25 R349). -/
def execHeldTokenAdmit (n : CoreNum) (port : BitVec 4) (sl : BitVec 2) (c : BitVec 8) (s : State) : Out :=
  let s := s.admitHead n.toNat port.toNat sl.toNat c.toNat
  let ends := s.channels.filter fun q =>
    q.2.en && q.2.recv && q.2.st == .opened && q.2.core == n && q.2.port == port && q.2.slot == sl
  .next (ends.foldl (fun s q => s.admitPlaces q.1 c.toNat 64) s)

/-- What drains an exit side takes its next token of a colour: a write stream, a send end, or an egress (10 R184, 25 R349, 08 R146);
a side that nothing drains keeps its tokens. -/
def State.drainExit (s : State) (n port sl c : Nat) : State :=
  let stream := (s.core n).streams.find? fun q =>
    q.2.st == .running && q.2.target == 0 && q.2.write && q.2.port == port && q.2.slot == sl && q.2.colour.toNat == c
  let chan := s.channels.find? fun q =>
    q.2.en && !q.2.recv && q.2.core.toNat == n && q.2.port.toNat == port && q.2.slot.toNat == sl
  let egress := match s.partOf n with
    | some p => (s.sched p).ings.any fun g => g.2.xen && g.2.core.toNat == n && g.2.xport.toNat == port
    | none => false
  match stream, chan with
  | some q, _ => s.portWrite n q.1
  | none, some q => s.channelSend q.1 c
  | none, none => if egress then s.egressTake n port sl c else s

/-- EXIT_REORDER_EMIT: an ordered exit side emits the next token of the expected iteration (09 R170). -/
def execExitReorderEmit (n : CoreNum) (port : BitVec 4) (sl : BitVec 2) (c : BitVec 8) (s : State) : Out :=
  .next (match s.sideUser n.toNat port.toNat sl.toNat false with
    | some e => if (s.slot e sl.toNat).cfg.ordx then s.drainExit n.toNat port.toNat sl.toNat c.toNat else s
    | none => s)

end Sys2Proof.Machine
end

