-- ==== Sys2Proof/Machine/Registers.lean ====
section
/-!
DEFINITION. Writes of the register pages: 07 Tables 07.5 and 07.6, 11 Table 11.5, 15 Table 15.9, 19 Table 19.8, 24 Table 24.4,
25 Table 25.2. Writes of other offsets are ignored.
-/
namespace Sys2Proof.Machine

/-- BKCTL_WRITE: 1 asks the bank to join the trade ring, 0 lets it leave when idle (07 R129). -/
def execBkctlWrite (die : BitVec 2) (bank : BitVec 7) (v : W64) (s : State) : Out :=
  let k := die.toNat * 85 + bank.toNat
  let b := s.bank k
  .next (if bank.toNat ≥ 85 then s
    else s.setBank k { b with trade := v.getLsbD 0, joining := b.joining || (v.getLsbD 0 && !b.joined) })

/-- BAGCTL_WRITE (15 R237). -/
def execBagctlWrite (n : CoreNum) (v : W64) (s : State) : Out :=
  .next (s.setCore n.toNat { s.core n.toNat with bagctl := v &&& 0x8000000000000000 })

/-- BAGSPILL_WRITE: ignored while the ring holds entries, and for a size outside 8 to 24 (15 R246). Pushes that waited for room
enter a new ring. -/
def execBagspillWrite (n : CoreNum) (v : W64) (s : State) : Out :=
  let c := s.core n.toNat
  let sexp := fld v.toNat 56 52
  .next (if c.spilled != 0 || (sexp != 0 && (sexp < 8 || sexp > 24)) then s
    else c.bagWait.foldl (fun s _ => s.bagRefill n.toNat)
      (s.setCore n.toNat { c with bagspill := v &&& 0x01FFFFFFFFFFFFF0, spillProd := 0, spillCons := 0 }))

/-- FLBASE_WRITE: ignored where fsize is above 11 (19 R287). -/
def execFlbaseWrite (p : PartNum) (v : W64) (s : State) : Out :=
  .next (if fld v.toNat 55 52 > 11 then s
    else { s with flog := Sp.set FaultLog.reset s.flog p.toNat { s.flogOf p.toNat with base := v &&& 0x00FFFFFFFFFFFFC0 } })

/-- A rehash: the partition's L2 lines are written back and dropped, and the staged hash is installed (24 R341). -/
def State.rehash (s : State) (p : Nat) : State :=
  let mine := (s.l2.filter fun l => (s.part p).chmask.getLsbD (chanOf (l.1 * 128))).map (·.1)
  let s := mine.foldl (fun s l => s.l2Evict l) s
  s.setNet p { s.netOf p with smap := (s.netOf p).smapNew, hmask := (s.netOf p).hmaskNew, rehash := false }

/-- NETCTL_WRITE: ignored where lull is below 16; rehash = 1 starts a rehash, which runs to its end (24 R341, R342). -/
def execNetctlWrite (p : PartNum) (v : W64) (s : State) : Out :=
  .next (if fld v.toNat 31 16 < 16 then s
    else
      let s := s.setNet p.toNat { s.netOf p.toNat with lull := fld v.toNat 31 16 }
      if v.getLsbD 32 then s.rehash p.toNat else s)

/-- SMAP: ignored where it names a slice that the partition does not own (24 R341). -/
def State.writeSmap (s : State) (p : Nat) (v : W64) : State :=
  if (List.range 16).all fun i => s.ownsSector p (fld v.toNat (4 * i + 3) (4 * i)) then
    s.setNet p { s.netOf p with smapNew := v } else s

/-- The fields of the network page that have no behaviour of their own. -/
def State.writeNet (s : State) (p off : Nat) (v : W64) : State :=
  let q := s.netOf p
  if off == 0x008 then s.writeSmap p v
  else if 0x010 ≤ off && off < 0x030 then
    s.setNet p { q with hmaskNew := Sp.set 0 q.hmaskNew ((off - 0x010) / 8) (v &&& 0x000FFFFFFFFFFF80) }
  else if 0x100 ≤ off && off < 0x180 then
    s.setNet p { q with rcls := Sp.set 0 q.rcls ((off - 0x100) / 8) (v &&& 0xF00000000007FFFF) }
  else if 0x180 ≤ off && off < 0x200 then
    s.setNet p { q with rhdl := Sp.set 0 q.rhdl ((off - 0x180) / 8) (v &&& 0x01FFFFFFFFFFFFF8) }
  else if 0x400 ≤ off && off < 0x400 + 8 * 16 * 22 then
    s.setNet p { q with shcnt := Sp.set 0 q.shcnt ((off - 0x400) / 8) v }
  else s

def State.writeSchedField (s : State) (p off : Nat) (v : W64) : State :=
  let q := s.sched p
  if off == 0x008 then s.setSched p { q with ltbase := v &&& 0x000FFFFFFFFFE000 }
  else if off == 0x020 then s.setSched p { q with lccons := v.setWidth 32 }
  else if off == 0x030 then
    s.setSched p { q with refused := fld v.toNat 63 48, orphan := fld v.toNat 47 32, lost := fld v.toNat 31 16 }
  else if 0x200 ≤ off && off < 0x280 then
    let n := (off - 0x200) / 8
    s.setSched p (q.setEntry n { q.entry n with skipped := fld v.toNat 63 32, started := fld v.toNat 31 0 })
  else s

def State.writeFault (s : State) (p off : Nat) (v : W64) : State :=
  let f := s.flogOf p
  let upd := fun (f : FaultLog) => { s with flog := Sp.set FaultLog.reset s.flog p f }
  match off with
  | 0x010 => upd { f with cons := v.setWidth 32 }
  | 0x018 => upd { f with lost := fld v.toNat 63 32 }
  | 0x020 => upd { f with int := v &&& 0x80000000000003FF }
  | _ => s

def State.writeBag (s : State) (n off : Nat) (v : W64) : State :=
  match off with
  | 0x010 => s.setCore n { s.core n with nodehead := v &&& 0x01FFFFFFFFFFFFC0 }
  | 0x018 => s.setCore n { s.core n with bagcnt := v }
  | _ => s

/-- REGISTER_WRITE: a register field that has no behaviour of its own (11 R207). -/
def State.fieldWrite (s : State) (pa : Nat) (v : W64) : State :=
  let off := pa % 4096
  if regBase ≤ pa && pa < 0x1F00400000 then
    let die := (pa - regBase) / 0x100000
    let idx := (pa - regBase) % 0x100000 / 0x1000
    let b := s.bank (die * 85 + idx)
    if idx < 85 && off == 8 then
      s.setBank (die * 85 + idx) { b with stall := fld v.toNat 63 32, drop := fld v.toNat 31 16, ovf := fld v.toNat 15 0 }
    else s
  else if 0x1F80000000 ≤ pa && pa < 0x1F80010000 then s.writeSchedField ((pa - 0x1F80000000) / 4096) off v
  else if 0x1F90000000 ≤ pa && pa < 0x1F90400000 then s.writeBag ((pa - 0x1F90000000) / 4096) off v
  else if 0x1FA0000000 ≤ pa && pa < 0x1FA0010000 then s.writeFault ((pa - 0x1FA0000000) / 4096) off v
  else if 0x1FB0000000 ≤ pa && pa < 0x1FB0010000 then s.writeNet ((pa - 0x1FB0000000) / 4096) off v
  else s

/-- REGISTER_WRITE. -/
def execRegisterWrite (pa : BitVec 52) (v : W64) (s : State) : Out := .next (s.fieldWrite pa.toNat v)

/-- The write of a register of the register pages, by the address of its dword: the event of a register with a behaviour of its
own, or the write of a field. -/
def State.regWrite (s : State) (pa : Nat) (v : W64) : State :=
  let off := pa % 4096
  let get := fun (o : Out) => match o with | .next t => t | _ => s
  let part := fun (base : Nat) => BitVec.ofNat 4 ((pa - base) / 4096)
  if regBase ≤ pa && pa < 0x1F00400000 && off == 0 && (pa - regBase) % 0x100000 / 0x1000 < 85 then
    get (execBkctlWrite (BitVec.ofNat 2 ((pa - regBase) / 0x100000)) (BitVec.ofNat 7 ((pa - regBase) % 0x100000 / 0x1000)) v s)
  else if 0x1F80000000 ≤ pa && pa < 0x1F80010000 then
    let p := part 0x1F80000000
    if off == 0x000 then get (execLschedWrite p v s)
    else if off == 0x010 then get (execLcbaseWrite p v s)
    else if off == 0x038 then get (execLrootWrite p v s)
    else if off == 0x040 then get (execTtctlWrite p v s)
    else if 0x080 ≤ off && off < 0x0C0 then get (execIngWrite p (BitVec.ofNat 3 ((off - 0x080) / 8)) v s)
    else if 0x100 ≤ off && off < 0x200 then get (execTtWrite p (BitVec.ofNat 4 ((off - 0x100) / 16)) (off % 16 != 0) v s)
    else s.fieldWrite pa v
  else if 0x1F90000000 ≤ pa && pa < 0x1F90400000 && (off == 0 || off == 8) then
    let n := BitVec.ofNat 10 ((pa - 0x1F90000000) / 4096)
    get (if off == 0 then execBagctlWrite n v s else execBagspillWrite n v s)
  else if 0x1FA0000000 ≤ pa && pa < 0x1FA0010000 && off == 0 then get (execFlbaseWrite (part 0x1FA0000000) v s)
  else if 0x1FB0000000 ≤ pa && pa < 0x1FB0010000 && off == 0 then get (execNetctlWrite (part 0x1FB0000000) v s)
  else if 0x1FC0000000 ≤ pa && pa < 0x1FC0010000 && 0x100 ≤ off && off < 0x500 then
    get (execChannelEntryWrite (part 0x1FC0000000) (BitVec.ofNat 6 ((off - 0x100) / 16)) (off % 16 != 0) v s)
  else s.fieldWrite pa v

/-- A plain store into a register page: the dwords that the bytes touch, the rest of each as it reads (log 46). -/
def State.regStore (s : State) (h : Nat) (bs : List Byte) : State :=
  let words := (List.range ((h % 8 + bs.length + 7) / 8)).map fun k => h - h % 8 + 8 * k
  words.foldl (fun s pa =>
    let old := leBytes 8 (s.regRead pa).toNat
    let new := (List.range 8).map fun i => if h ≤ pa + i && pa + i < h + bs.length then bs.getD (pa + i - h) 0 else old.getD i 0
    s.regWrite pa (w64 (bytesNat new))) s

end Sys2Proof.Machine
end

