-- ==== Sys2Proof/Machine/Trust.lean ====
section
/-!
DEFINITION. Partitions, contexts and trust (26): the tables that the package supervisor writes, owner tags and start commands,
sealing, scrubs and receipts, TDISP states; keys and links (25 R354, 26 R366); retirement (27 R378, R379).
-/
namespace Sys2Proof.Machine

/-- A request of the management session, and one of a function's own. -/
def Peer.manages (p : Peer) : Bool := p.kind == 2
def Peer.tenant (p : Peer) (v : Nat) : Bool := p.kind == 1 && p.vf == v
/-- The oldest request that `f` names is answered. -/
def Trust.answered (t : Trust) (f : Peer → Bool) (m : TrustMsg) : Trust :=
  { t with calls := t.calls.eraseP f, outbox := t.outbox ++ [m] }

/-- The management function is reached: its session is open, at an Ethernet port that is up (01 R6), a VENDOR_DEFINED_REQUEST of it
waits, and no earlier one is still being performed, as a stop is until its last receipt (28 R386). What a waiting request asks for is
named by the event that performs it: the manual gives its message no layout (log 54). -/
def State.reached (s : State) : Bool :=
  s.trust.mgmt.any s.portUp && s.trust.calls.any Peer.manages && !s.trust.stops.any (·.managed)
/-- A management request: nothing reaches the function but through its session. -/
def State.managed (s : State) (f : State → State) : State := if s.reached then f s else s

/-- A function is being stopped, or a colour scrubbed: a request that names it is not taken until that has ended (log 54). -/
def State.stopping (s : State) (v : Nat) : Bool := s.trust.stops.any fun q => q.vf == v
def State.scrubbing (s : State) (c : Nat) : Bool := s.trust.stops.any fun q => q.scrubs.any fun r => r.colour == c

/-- The management request is answered, after its effect: performed, or refused with nothing changed (28 R386). -/
def State.answer (s : State) (ok : Bool) : State := { s with trust := s.trust.answered Peer.manages (.answer ok) }
/-- A management request that reads a register. -/
def State.reads (s : State) (v : W64) : State := { s with trust := s.trust.answered Peer.manages (.value v) }
/-- A request of a function's session is answered (26 R367). -/
def State.tell (s : State) (v : Nat) (ok : Bool) (body : List Byte) : State :=
  { s with trust := s.trust.answered (·.tenant v) (.tdisp v ok body) }
def State.say (s : State) (m : TrustMsg) : State := { s with trust := { s.trust with outbox := s.trust.outbox ++ [m] } }

/-! ## The frozen set (R367, R369) -/

def State.setVf (s : State) (v : Nat) (q : Vf) : State := { s with vfs := Sp.set Vf.reset s.vfs v q }
def Vf.serving (q : Vf) : Bool := q.st == .locked || q.st == .run

/-- Serving functions whose frozen set has changed go to ERROR. -/
def State.thaw (s : State) (f : Nat → Vf → Bool) : State :=
  { s with vfs := s.vfs.map fun q => (q.1, if q.2.serving && f q.1 q.2 then { q.2 with st := .error } else q.2) }

/-- A sealed frame of the context shows an uncorrectable error. -/
def State.sealedError (s : State) (ctx : BitVec 16) : Bool :=
  s.sealed.any fun e => e.1 == ctx &&
    (s.marks.any (fun m => m.2 && m.1 / 4096 == e.2) || s.l2.any fun l => l.1 / 32 == e.2 && l.2.marks != 0)

/-- FROZEN_SET_CHANGE: an uncorrectable error in a sealed frame (R367). Every other change of a frozen set acts in the step that
makes it. -/
def execFrozenSetChange (v : BitVec 6) (s : State) : Out :=
  let q := s.vf v.toNat
  .next (if q.serving && s.sealedError q.ctxid then s.setVf v.toNat { q with st := .error } else s)

/-! ## PARTn, VFn, LPERMn and the colour table (R356, R357, R361, 08 R139) -/

/-- A core of partition p has an owner. -/
def State.ownedCore (s : State) (p : Nat) : Bool := s.cores.any fun c => c.2.owner != 0 && s.partOf c.1 == some p

/-- A write of PARTn is refused (R356); an absent channel cannot be owned (27 R381). -/
def State.partRefused (s : State) (n : Nat) (q : Part) : Bool :=
  let old := s.part n
  let outS := if old.valid then old.smask &&& ~~~q.smask ||| (if q.valid then 0 else old.smask) else 0
  let outC := if old.valid then old.chmask &&& ~~~q.chmask ||| (if q.valid then 0 else old.chmask) else 0
  (s.parts.any fun p => p.1 != n && p.2.valid && (p.2.smask &&& q.smask != 0 || p.2.chmask &&& q.chmask != 0)) ||
    (q.valid && q.smask == 0) || (List.range 128).any (fun c => q.chmask.getLsbD c && !s.chanPresent c) || ((outS != 0 || outC != 0) && s.ownedCore n) ||
    outS &&& ~~~s.trust.cleanSectors != 0 || outC &&& ~~~s.trust.cleanChans != 0

/-- Sectors and channels that join an entry leave it only after a release scrub of their own (R356). -/
def State.joined (s : State) (n : Nat) (q : Part) : State :=
  let old := s.part n
  let had := if old.valid then old else Part.reset
  if !q.valid then s else
  { s with trust := { s.trust with cleanSectors := s.trust.cleanSectors &&& ~~~(q.smask &&& ~~~had.smask),
                                   cleanChans := s.trust.cleanChans &&& ~~~(q.chmask &&& ~~~had.chmask) } }

/-- PART_WRITE. -/
def execPartWrite (n : PartNum) (v : BitVec 256) (s : State) : Out :=
  let q : Part := { valid := v.getLsbD 63, smask := v.extractLsb' 64 16, chmask := v.extractLsb' 128 128 }
  .next (s.managed fun s => if s.partRefused n.toNat q then s.answer false
    else
      let s := (if q == s.part n.toNat then s else s.thaw fun _ f => f.part == n).joined n.toNat q
      { s with parts := Sp.set Part.reset s.parts n.toNat q }.answer true)

/-- VF_WRITE: state and sess are read-only. -/
def execVfWrite (n : BitVec 6) (v : W64) (s : State) : Out :=
  let q := s.vf n.toNat
  let q' := { q with waymask := v.extractLsb' 48 16, ctxid := v.extractLsb' 32 16, ingmask := v.extractLsb' 24 8, part := v.extractLsb' 20 4,
                     en := v.getLsbD 16 }
  .next (s.managed fun s =>
    let s := if q == q' then s else s.thaw fun k _ => k == n.toNat
    (s.setVf n.toNat { q' with st := (s.vf n.toNat).st }).answer true)

/-- LPERM_WRITE. -/
def execLpermWrite (n : PartNum) (v : W64) (s : State) : Out :=
  let v := v &&& 0x00000FFFFFFFFFFF
  .next (s.managed fun s =>
    let s := if Sp.get 0 s.lperm n.toNat == v then s else s.thaw fun _ f => f.part == n
    { s with lperm := Sp.set 0 s.lperm n.toNat v }.answer true)

/-- COLOUR_TABLE_WRITE: ignored where valid is set with a partition that does not own the function; a write that sets valid
advances the epoch (08 R138, R139). A write that would give a function a fifth colour is accepted: R137 bounds the colours of a function
and states no refusal (log 66, DESIGN CHOICE). It waits while the colour is scrubbed. -/
def execColourTableWrite (c : BitVec 8) (v : BitVec 128) (s : State) : Out :=
  let q := s.colour c.toNat
  let valid := v.getLsbD 127
  let part := v.extractLsb' 123 4
  let vf := v.extractLsb' 117 6
  .next (s.managed fun s => if s.scrubbing c.toNat then s else if valid && (s.vf vf.toNat).part != part then s.answer true
    else
      let q' := { q with valid := valid, part := part, vf := vf, root := v.extractLsb' 64 40, epoch := if valid then q.epoch + 1 else q.epoch }
      let s := if q == q' then s else s.thaw fun k _ => (q.valid && k == q.vf.toNat) || (valid && k == vf.toNat)
      { s with colours := Sp.set Colour.reset s.colours c.toNat q' }.answer true)

/-! ## Owner tags and start commands (R359, R360; 19 R284) -/

/-- The core is held in reset, stopped by a double fault, or halted with BAGCTL.en = 0. -/
def Core.stopped (c : Core) : Bool :=
  match c.run with
  | .reset => true
  | .stopped => true
  | .halted => !c.bagctl.getLsbD 63
  | _ => false

/-- Clear a core's pad and its full-empty bits. -/
def State.clearPad (s : State) (n : Nat) : State :=
  let a := padHome n 0
  let out := fun (h : Nat) => h < a || a + 2 ^ 19 ≤ h
  { s with mem := s.mem.filter (fun c => out c.1), marks := s.marks.filter (fun c => out c.1), fe := s.fe.filter fun c => out c.1 }

/-- Reads of another device's memory for a core's block, streams, vane unit and island. -/
def Who.ofCore (n : Nat) : Who → Bool
  | .core m => m == n
  | .stream m _ => m == n
  | .vane m => m == n
  | .island m => m == n
  | _ => false

/-- The replies of such reads find nobody: what asked for them is cleared (10 R180, 13 R210). -/
def State.dropAgentReads (s : State) (n : Nat) : State :=
  { s with net := { s.net with reads := s.net.reads.filter fun r => !r.who.ofCore n } }

/-- The change of a core's owner tag, in the order of R359. Sectors and channels of its partition are no longer scrubbed. -/
def State.retag (s : State) (n : Nat) (tag : BitVec 16) : State :=
  let s := ((s.l1DropAll n).clearPad n).dropAgentReads n
  let c := s.core n
  let old := c.owner
  let s := s.setCore n { c with
    owner := tag, bag := [], bagWait := [], spillProd := 0, spillCons := 0, claim := none, tlb := [], cbc := [], cbcColour := [], rcache := [], rtab := none,
    mask := 0, regs := { c.regs with counts := [] }, streams := [], island := Island.reset, vane := VaneUnit.reset }
  let s := if tag = 0 then s else match s.partOf n with
    | some p => { s with trust := { s.trust with cleanSectors := s.trust.cleanSectors &&& ~~~(s.part p).smask,
                                                 cleanChans := s.trust.cleanChans &&& ~~~(s.part p).chmask } }
    | none => s
  if old == tag then s else s.thaw fun _ f => f.ctxid == old || f.ctxid == tag

/-- A core goes into reset: its registers, streams, island, vane unit, class mask and ring, bag registers and caches stand as a reset
leaves them, and its pad is clear (04 R54, 06 R97, 10 R180, 13 R210, 15 Table 15.9, 19 R284, 24 R343). It keeps its tag, the pairs of its
bag (01 R13) with the ring that holds some of them, the commands of its engine, its sections and the flags it owes; an answer still on
its way reaches no register (log 62). -/
def State.resetCore (s : State) (n : Nat) : State :=
  let s := (((s.l1DropAll n).clearPad n).dropAgentReads n).ringDeliver n 0
  let c := s.core n
  let deaf := fun (o : BankOp) => if o.core == n then { o with reg := none } else o
  let s := { s with bankOps := s.bankOps.map deaf, banks := s.banks.map fun (b : Nat × Bank) => (b.1, { b.2 with scq := b.2.scq.map deaf }) }
  s.setCore n { Core.reset with owner := c.owner, blkNo := c.blkNo + 1, eng := c.eng, tlbi := c.tlbi, sections := c.sections,
                                ifetch := c.ifetch, bag := c.bag, bagWait := c.bagWait, spillProd := c.spillProd, spillCons := c.spillCons,
                                bagspill := if c.spillProd == c.spillCons then 0 else c.bagspill }

/-- OWNER_TAG_WRITE: refused to a core that runs; tag 0 holds the core in reset (R359). -/
def execOwnerTagWrite (n : CoreNum) (tag : BitVec 16) (s : State) : Out :=
  .next (s.managed fun s => if !s.corePresent n.toNat || !(s.core n.toNat).stopped then s.answer false
    else
      let s := s.retag n.toNat tag
      (if tag = 0 then s.resetCore n.toNat else s).answer true)

/-- START_COMMAND (R360). -/
def execStartCommand (n : CoreNum) (tag : BitVec 16) (colour : BitVec 8) (block arg : W64) (s : State) : Out :=
  let ok := s.corePresent n.toNat && (s.core n.toNat).run == .reset && tag != 0 && s.boundAt n.toNat colour.toNat && block.toNat % 8 == 0
  .next (s.managed fun s => if !ok then s.answer false
    else
      let s := s.retag n.toNat tag
      let c := s.core n.toNat
      let x : Sparse W64 := [(2, w64 n.toNat), (3, arg)]
      (s.setCore n.toNat { c with
        run := .running, lvlS := true, pc := block, regs := { Regs.reset with x := x, colour := colour }, tpend := 0, blk := Blk.reset,
        inDisp := false, inTrap := false, pendTrap := none, poisonTrap := [], rreq := none, gaveUp := none, walkWait := false, bagctl := c.bagctl &&& 0x7FFFFFFFFFFFFFFF }).answer true)

/-- CORE_RESET: the package supervisor resets a core that a double fault has stopped (19 R284). -/
def execCoreReset (n : CoreNum) (s : State) : Out :=
  .next (s.managed fun s => if (s.core n.toNat).run == .stopped then (s.resetCore n.toNat).answer true else s.answer false)

/-- SET_PRE: the pre-emption request of a core (19 R281). -/
def execSetPre (n : CoreNum) (s : State) : Out :=
  .next (s.managed fun s => if s.corePresent n.toNat then (s.post n.toNat 1).answer true else s.answer false)

/-! ## Keys (R362, 25 R354) -/

/-- A colour takes its key, in place of an older one. -/
def State.takeKey (s : State) (n : Nat) (key : BitVec 512) : State :=
  let q := s.colour n
  let s := if q.valid then s.thaw fun k _ => k == q.vf.toNat else s
  { s with colours := Sp.set Colour.reset s.colours n { q with keyed := true, key := key.toNat } }

/-- The function in whose session a waiting request asks for the key of a colour: the colour's own, else another one's. -/
def State.keyCaller (s : State) (q : Colour) : Option Nat :=
  if q.valid && s.trust.calls.any (·.tenant q.vf.toNat) then some q.vf.toNat
  else (s.trust.calls.find? fun p => p.kind == 1 && !s.stopping p.vf).map (·.vf)

/-- KEY_LOAD: a partition's key, or a colour's, which waits while the colour is scrubbed; the halves must differ, and a tenant gives
keys to its own colours, inside its own session (R362, R365). -/
def execKeyLoad (shared : Bool) (n : BitVec 8) (key : BitVec 512) (session : Bool) (s : State) : Out :=
  let q := s.colour n.toNat
  let twin := key.extractLsb' 0 256 == key.extractLsb' 256 256
  .next (if session && !shared then
    match s.keyCaller q with
    | none => s
    | some v =>
      if s.scrubbing n.toNat then s
      else if twin || !q.valid || q.vf.toNat != v || !(s.vf v).sess || !(s.vf v).en then s.tell v false []
      else (s.takeKey n.toNat key).tell v true []
  else s.managed fun s =>
    if !shared && s.scrubbing n.toNat then s else if twin then s.answer false
    else if shared then
      if n.toNat < 16 then { s with partKey := Sp.put s.partKey n.toNat key.toNat }.answer true else s.answer false
    else if q.valid && (s.vf q.vf.toNat).st != .unlocked then s.answer false
    else (s.takeKey n.toNat key).answer true)

/-- LINK_KEY_LOAD: refused into the tx phase, and into a phase whose rx bit is set (25 R354). -/
def execLinkKeyLoad (port : BitVec 4) (dom : BitVec 6) (phase : Bool) (key : BitVec 256) (s : State) : Out :=
  let d := s.domain port.toNat dom.toNat
  .next (s.managed fun s => if d.tx == phase || (if phase then d.rx1 else d.rx0) then s.answer false
    else (s.setDomain port.toNat dom.toNat (if phase then { d with key1 := some key, drop1 := false }
                                            else { d with key0 := some key, drop0 := false })).answer true)

/-- The domain after a write of LKSTATn: tx and the accept bits, and the keys that a cleared bit erases (25 R354). -/
def Domain.write (d : Domain) (v : W64) : Domain :=
  let tx := v.getLsbD 59
  let rx1 := v.getLsbD 58
  let rx0 := v.getLsbD 57
  if tx != d.tx && (d.key tx).isNone then d
  else
    let drop0 := (d.drop0 || (d.rx0 && !rx0)) && !rx0
    let drop1 := (d.drop1 || (d.rx1 && !rx1)) && !rx1
    let e := if tx != d.tx then { d with tx := tx, txcount := 0, stall := false } else d
    { e with rx0 := rx0, rx1 := rx1, key0 := if drop0 && tx then none else d.key0, key1 := if drop1 && !tx then none else d.key1,
             drop0 := drop0 && !tx, drop1 := drop1 && tx }

/-- LKSTAT_WRITE. -/
def execLkstatWrite (port : BitVec 4) (dom : BitVec 6) (v : W64) (s : State) : Out :=
  .next (s.managed fun s => (s.setDomain port.toNat dom.toNat ((s.domain port.toNat dom.toNat).write v)).answer true)

/-- The package supervisor writes LKCNTn: authfail (25 Table 25.6). -/
def State.lkcntWrite (s : State) (port : BitVec 4) (dom : BitVec 6) (v : W64) : State :=
  (s.setDomain port.toNat dom.toNat { s.domain port.toNat dom.toNat with authfail := fld v.toNat 63 32 }).answer true

/-- It writes CHSTATc: its counts (27 R380). -/
def State.chstatWrite (s : State) (c : BitVec 7) (v : W64) : State :=
  { s with chans := Sp.set Chan.reset s.chans c.toNat { s.chan c.toNat with
      wbdrop := fld v.toNat 55 48, ue := fld v.toNat 47 32, ce := fld v.toNat 31 0 } }.answer true

/-- CHSTATc (27 Table 27.2). -/
def State.chstat (s : State) (c : Nat) : W64 :=
  let k := s.chan c
  let own := (List.range 16).find? fun p => (s.part p).valid && (s.part p).chmask.getLsbD c
  w64 (b2n (s.chanPresent c) * 2 ^ 63 + b2n own.isSome * 2 ^ 62 + own.getD 0 * 2 ^ 56 + k.wbdrop * 2 ^ 48 + k.ue * 2 ^ 32 + k.ce)

/-- AUTHFAIL: a packet that reaches a port which is up under a phase that the receiver does not open is discarded and counted (25 R354;
01 R6). -/
def execAuthfail (port : BitVec 4) (dom : BitVec 6) (phase : Bool) (s : State) : Out :=
  let d := s.domain port.toNat dom.toNat
  .next (if d.opens phase || !s.portUp port.toNat then s
    else s.setDomain port.toNat dom.toNat { d with authfail := satAdd 32 d.authfail 1 })

/-! ## Links (R366) -/

def State.setLink (s : State) (p : Nat) (l : LinkState) : State := { s with links := Sp.set .untrained s.links p l }

/-- LINK_TRAINED: a port trains, or trains again. -/
def execLinkTrained (port : BitVec 4) (s : State) : Out :=
  .next (if s.portPresent port.toNat then s.setLink port.toNat .trained else s)

/-- LOSS_OF_SIGNAL: the selected port of the clock has no time-transmitter then (11 R205). -/
def execLossOfSignal (port : BitVec 4) (s : State) : Out :=
  let s := s.setLink port.toNat .untrained
  .next (if s.ptp.port == port then { s with ptp := s.ptp.lose } else s)

/-! ## Retirement (27 R378, R379) -/

/-- The frame's retirement takes effect at its channel: the slice discards its lines. -/
def State.dropFrameLines (s : State) (frame : Nat) : State := { s with l2 := s.l2.filter fun l => l.1 / 32 != frame }

/-- RETIRE_COMMAND: refused for another memory's frame, and once the table holds 4,032. -/
def execRetireCommand (frame : BitVec 40) (s : State) : Out :=
  let f := frame.toNat
  .next (s.managed fun s => if space (f * 4096) != .gddr || !s.chanPresent (chanOf (f * 4096)) || s.retired.length ≥ 4032 then s.answer false
    else if s.retired.contains f then s.answer true
    else ({ s with retired := s.retired ++ [f] }.dropFrameLines f).answer true)

/-- A scrub retires a frame on the spot; with the table full its controller holds it, and the channel is marked. -/
def State.retireNow (s : State) (f : Nat) : State :=
  (if s.retired.length < 4096 then { s with retired := s.retired ++ [f] }
   else { s with chanHeld := s.chanHeld ++ [f], disable := s.disable ||| (1#128 <<< chanOf (f * 4096)) }).dropFrameLines f

/-! ## Sealing (R368) -/

/-- The homes and keys of the pages of a range of a colour, as its tables map them; none where a page is not mapped: past
the 57 bits of an address, in the pad windows, which are never translated (18 R267), or in a retired frame (27 R379). -/
def State.sealPages (s : State) (c va : Nat) : Nat → Option (List (Nat × Nat))
  | 0 => some []
  | n + 1 =>
    if va ≥ padRemote then none else
    match s.walkVa (s.colour c).part.toNat c va [] with
    | .bad .. => none
    | .leaf e lvl =>
      let b := fld e.toNat 51 12 * 4096
      let h := b - b % leafSize lvl + va % leafSize lvl
      if space h == .gddr && s.isRetired h then none else
      let key := if e.getLsbD 9 then Sp.get 0 s.partKey (s.colour c).part.toNat else (s.colour c).key
      (s.sealPages c (va + 4096) n).map fun l => (h, key) :: l

/-- SEAL: the frames of a range are recorded and its bytes folded into the context's measurement (log 47). -/
def execSealRange (colour : BitVec 8) (va len : W64) (s : State) : Out :=
  let q := s.colour colour.toNat
  let ctx := (s.vf q.vf.toNat).ctxid
  let off := va.toNat % 4096
  .next (s.managed fun s => if !q.valid || ctx = 0 then s.answer false
    else match s.sealPages colour.toNat (va.toNat - off) ((off + len.toNat + 4095) / 4096) with
      | none => s.answer false
      | some ps =>
        let bytes := ((ps.flatMap fun (p : Nat × Nat) => s.readHomeN p.2 p.1 4096).drop off).take len.toNat
        let le := fun (n v : Nat) => leBytes n v
        let m := Config.sha3 (le 32 (Sp.get 0 s.trust.measure ctx.toNat).toNat ++ le 8 va.toNat ++ le 8 len.toNat ++
          le 32 (Config.sha3 bytes).toNat)
        let t := s.trust
        { s with
          sealed := s.sealed ++ ps.map (fun (p : Nat × Nat) => (ctx, p.1 / 4096)),
          trust := { t with measure := Sp.put t.measure ctx.toNat m,
                            ranges := Sp.put t.ranges ctx.toNat (Sp.get [] t.ranges ctx.toNat ++ [(va, len)]) } }.answer true)

/-! ## Scrubs (R372, R373) -/

/-- The frames of a colour's tables: leaves as (base frame, frames, shared), and table frames; a walk over every entry. -/
def State.tableFrames (s : State) (p t : Nat) : Nat → List (Nat × Nat × Bool) × List Nat
  | 0 => ([], [])
  | lvl + 1 =>
    if !s.ownsTable p t then ([], []) else
    let sub := (List.range 512).map fun i =>
      let e := s.readVal (Sp.get 0 s.partKey p) (t + 8 * i) 8
      if !bitAt e 0 || pteReserved e (lvl + 1) then ([], [])
      else
        let a := fld e 51 12 * 4096
        if bitAt e 1 then if lvl ≥ 3 then ([], []) else ([(a / 4096, leafSize (lvl + 1) / 4096, bitAt e 9)], [])
        else s.tableFrames p a lvl
    (sub.flatMap (·.1), t / 4096 :: sub.flatMap (·.2))

/-- Insert into a list of frames in rising order, once. -/
def insFrame (f : Nat × Nat) : List (Nat × Nat) → List (Nat × Nat)
  | [] => [f]
  | g :: t => if f.1 < g.1 then f :: g :: t else if f.1 == g.1 then g :: t else g :: insFrame f t

/-- Zero a frame, with fresh check bits, under a key; its presence words read empty from then on (18 R272). -/
def State.zeroFrame (s : State) (f key : Nat) : State :=
  let out := fun (h : Nat) => h / 4096 != f
  let s := { s with mem := s.mem.filter (fun c => out c.1), marks := s.marks.filter (fun c => out c.1),
                    tags := s.tags.filter fun c => out c.1 }
  if space (f * 4096) == .gddr then
    let s := s.dropFrameLines f
    { s with ltags := (List.range 32).foldl (fun m i => Sp.put m (32 * f + i) { key := key, junk := 0 }) s.ltags }
  else s

/-- Overwrite one frame of the scrub: what its receipt entry says (Table 26.7). -/
def State.scrubFrame (s : State) (f key : Nat) : State × Nat :=
  if s.isRetired (f * 4096) && space (f * 4096) == .gddr then (s.zeroFrame f key, 1)
  else if s.trust.failing.contains f && space (f * 4096) == .gddr then ((s.zeroFrame f key).retireNow f, 2)
  else (s.zeroFrame f key, 0)

/-- Frames with their receipt status gathered into runs. -/
def receiptRuns : List (Nat × Nat) → List (Nat × Nat × Nat)
  | [] => []
  | (f, st) :: t =>
    match receiptRuns t with
    | (g, n, st') :: r => if f + 1 == g && st == st' then (f, n + 1, st) :: r else (f, 1, st) :: (g, n, st') :: r
    | [] => [(f, 1, st)]

/-- Steps 1 and 2 of a scrub: the colour is unbound and purged, and its TLBI delivered in every core of the partition. -/
def State.scrubBegin (s : State) (c : Nat) : State × Scrub :=
  let q := s.colour c
  let p := q.part.toNat
  let s' := { s with colours := Sp.put s.colours c { q with valid := false } }
  let s' := (s'.regions.map (·.1)).foldl (fun s h => if (s.region h).part == p then s.purge h c else s) s'
  let r := s'.tlbiRemove p 1024 { kind := 1, colour := some (BitVec.ofNat 8 c), base := 0, len := 0, flag := 0 }
  (r.1, { colour := c, was := q, measure := Sp.get 0 s.trust.measure (s.vf q.vf.toNat).ctxid.toNat, t1 := s.now, wait := r.2 })

/-- Steps 3 to 6 of a scrub, once its TLBI has completed: the frames are listed and overwritten, the key is erased, and the receipt
is signed. -/
def State.scrubEnd (s : State) (x : Scrub) : State :=
  let c := x.colour
  let q := x.was
  let p := q.part.toNat
  let tf := s.tableFrames p (q.root.toNat * 4096) 5
  -- frames of the partition's own floor and GDDR-7 memory: no other is mapped, since each access through its leaf faults (log 54)
  let frames := fun (l : Nat × Nat × Bool) => ((List.range l.2.1).map fun i => l.1 + i).filter fun f =>
    (space (f * 4096) == .floor || space (f * 4096) == .gddr) && s.memFault p c (f * 4096) 0 != some 0x1B
  let shared := (tf.1.filter fun (l : Nat × Nat × Bool) => l.2.2).flatMap fun l => (frames l).map fun f => (f, 3)
  let own := (tf.1.filter fun (l : Nat × Nat × Bool) => !l.2.2).flatMap frames
  let leaves := (own.map (fun f => (f, 0)) ++ shared).foldl (fun l f => insFrame f l) []
  let tables := tf.2.foldl (fun l f => insFrame (f, 0) l) []
  let step := fun (r : State × List (Nat × Nat)) (f : Nat × Nat) (key : Nat) =>
    if f.2 == 3 then (r.1, r.2 ++ [f]) else
    let x := r.1.scrubFrame f.1 key
    (x.1, r.2 ++ [(f.1, x.2)])
  let r := leaves.foldl (fun r f => step r f q.key) (s, [])
  let r' := tables.foldl (fun r f => step r f (Sp.get 0 s.partKey p)) (r.1, [])
  let s := r'.1
  let s := { s with colours := Sp.put s.colours c { s.colour c with key := 0, keyed := false } }
  let runs := receiptRuns r.2 ++ receiptRuns r'.2
  let st := b2n ((r.2 ++ r'.2).any fun f => f.2 == 1 || f.2 == 2)
  let body :=
    leBytes 8 (2 ^ 56 + st * 2 ^ 48 + c * 2 ^ 40 + q.vf.toNat * 2 ^ 34 + p * 2 ^ 30 + runs.length % 65536) ++ leBytes 8 x.t1.toNat ++
      leBytes 8 s.now.toNat ++ leBytes 32 x.measure.toNat ++
      leBytes 8 (q.epoch.toNat * 2 ^ 32 + s.trust.receiptSeq) ++
      runs.flatMap fun r => leBytes 8 (r.1 * 4096) ++ leBytes 8 (r.2.1 * 2 ^ 8 + r.2.2)
  let s := s.say (.receipt (if (s.vf q.vf.toNat).sess then some q.vf.toNat else none)
    (body ++ leBytes 2420 (Config.sign (Sp.get [] s.trust.keys 0) body).toNat))
  { s with trust := { s.trust with receiptSeq := (s.trust.receiptSeq + 1) % 2 ^ 32 } }

/-- RELEASE_SCRUB: a sector's floor banks, die-bank quarter and slice, or a channel's range, are overwritten (R356). -/
def execReleaseScrub (channel : Bool) (n : BitVec 7) (s : State) : Out :=
  let k := n.toNat
  .next (s.managed fun s => if channel then
    let out := fun (h : Nat) => space h != .gddr || chanOf h != k
    -- a frame that fails is retired on the spot (R372)
    let s := (s.trust.failing.filter fun f => space (f * 4096) == .gddr && chanOf (f * 4096) == k && !s.isRetired (f * 4096)).foldl
      (fun s f => s.retireNow f) s
    { s with mem := s.mem.filter (fun c => out c.1), marks := s.marks.filter (fun c => out c.1), l2 := s.l2.filter (fun l => out (l.1 * 128)),
             ltags := s.ltags.filter (fun l => out (l.1 * 128)), trust := { s.trust with cleanChans := s.trust.cleanChans ||| (1#128 <<< k) } }.answer true
  else if k ≥ 16 then s.answer false
  else
    let out := fun (h : Nat) => space h != .floor || floorDie h * 4 + floorSector (floorOff h) != k
    let slice := fun (l : Nat) => (List.range 16).any fun p => (s.part p).chmask.getLsbD (chanOf (l * 128)) && s.sliceOf p (l * 128) == k
    { s with mem := s.mem.filter (fun c => out c.1), marks := s.marks.filter (fun c => out c.1), tags := s.tags.filter (fun c => out c.1),
             l2 := s.l2.filter (fun l => !slice l.1),
             trust := { s.trust with cleanSectors := s.trust.cleanSectors ||| (1#16 <<< k) } }.answer true)

/-! ## TDISP (R367, R369) -/

/-- The bytes of a function's frozen set, without the keys (R369). -/
def State.frozenSet (s : State) (v : Nat) : List Byte :=
  let q := s.vf v
  let p := q.part.toNat
  let vfw := q.waymask.toNat * 2 ^ 48 + q.ctxid.toNat * 2 ^ 32 + q.ingmask.toNat * 2 ^ 24 + p * 2 ^ 20 + b2n q.en * 2 ^ 16
  let cols := s.colours.filter fun c => c.2.valid && c.2.vf.toNat == v
  leBytes 8 vfw ++
    (cols.flatMap fun c => [BitVec.ofNat 8 c.1] ++
      leBytes 16 (2 ^ 127 + c.2.part.toNat * 2 ^ 123 + v * 2 ^ 117 + b2n c.2.keyed * 2 ^ 116 + c.2.root.toNat * 2 ^ 64 + c.2.epoch.toNat * 2 ^ 32)) ++
    leBytes 32 ((s.part p).chmask.toNat * 2 ^ 128 + (s.part p).smask.toNat * 2 ^ 64 + b2n (s.part p).valid * 2 ^ 63) ++
    leBytes 8 (s.lpermOf p).toNat ++
    (s.cores.filter fun c => c.2.owner == q.ctxid).flatMap fun c => leBytes 2 c.1

/-- A TDISP message is a VENDOR_DEFINED_REQUEST that waits, of the own session of a function that is enabled (R365, R367), otherwise
an error; while the function is being stopped it waits on. -/
def State.tdispDo (s : State) (v : BitVec 6) (f : State → Vf → State) : Out :=
  let q := s.vf v.toNat
  .next (if !(s.trust.calls.any (·.tenant v.toNat)) || s.stopping v.toNat then s
    else if !q.sess || !q.en then s.tell v.toNat false [] else f s q)

/-- A TDISP message that is answered at once. -/
def State.tdisp (s : State) (v : BitVec 6) (f : State → Vf → Option (State × List Byte)) : Out :=
  s.tdispDo v fun s q =>
    match f s q with
    | some (s, body) => s.tell v.toNat true body
    | none => s.tell v.toNat false []

def execGetTdispVersion (v : BitVec 6) (s : State) : Out := s.tdisp v fun s _ => some (s, [])
def execGetTdispCapabilities (v : BitVec 6) (s : State) : Out := s.tdisp v fun s _ => some (s, [])

/-- LOCK_INTERFACE_REQUEST: the checks of Table 26.6; the start nonce is returned. -/
def execLockInterfaceRequest (v : BitVec 6) (s : State) : Out :=
  s.tdisp v fun s q =>
    let keyed := s.colours.all fun c => !(c.2.valid && c.2.vf == v) || c.2.keyed
    if q.st == .unlocked && q.en && q.ctxid != 0 && keyed && (Sp.find? s.trust.measure q.ctxid.toNat).isSome then
      let n := Config.nonce s.free
      some ({ s with free := s.free + 1 }.setVf v.toNat { q with st := .locked, nonce := n }, leBytes 32 n.toNat)
    else none

/-- GET_DEVICE_INTERFACE_REPORT: the frozen set, the measurement and the sealed ranges. -/
def execGetDeviceInterfaceReport (v : BitVec 6) (s : State) : Out :=
  s.tdisp v fun s q =>
    let rs := Sp.get [] s.trust.ranges q.ctxid.toNat
    some (s, s.frozenSet v.toNat ++ leBytes 32 (Sp.get 0 s.trust.measure q.ctxid.toNat).toNat ++
      rs.flatMap fun r => leBytes 8 r.1.toNat ++ leBytes 8 r.2.toNat)

def vfCode : VfState → Nat | .unlocked => 0 | .locked => 1 | .run => 2 | .error => 3
def execGetDeviceInterfaceState (v : BitVec 6) (s : State) : Out :=
  s.tdisp v fun s q => some (s, [BitVec.ofNat 8 (vfCode q.st)])

/-- START_INTERFACE_REQUEST with the start nonce. -/
def execStartInterfaceRequest (v : BitVec 6) (nonce : BitVec 256) (s : State) : Out :=
  s.tdisp v fun s q =>
    if q.st == .locked && q.nonce == nonce then some (s.setVf v.toNat { q with st := .run }, []) else none

/-- Every colour of a stopped function has been scrubbed: sealing ends, the function is unlocked, and the stop is answered (R367). -/
def State.stopEnd (s : State) (x : Stop) : State :=
  let q := s.vf x.vf
  let s := s.setVf x.vf { q with st := .unlocked, nonce := 0 }
  let s := if s.ctxSealed q.ctxid then s
    else { s with sealed := s.sealed.filter (fun e => e.1 != q.ctxid),
                  trust := { s.trust with measure := Sp.erase s.trust.measure q.ctxid.toNat,
                                          ranges := Sp.erase s.trust.ranges q.ctxid.toNat } }
  if x.managed then s.answer true else s.tell x.vf true []

/-- A function is stopped: the scrub of each of its colours begins; one without colours is unlocked at once (R367). -/
def State.stop (s : State) (v : Nat) (byManagement : Bool) : State :=
  let cols := (s.colours.filter fun c => c.2.vf.toNat == v && (c.2.valid || c.2.keyed)).map (·.1)
  let r := cols.foldl (fun (r : State × List Scrub) c => let x := r.1.scrubBegin c; (x.1, r.2 ++ [x.2])) (s, [])
  let x : Stop := { vf := v, managed := byManagement, scrubs := r.2 }
  if r.2.isEmpty then s.stopEnd x else { r.1 with trust := { r.1.trust with stops := r.1.trust.stops ++ [x] } }

/-- Steps 1 and 2 of a scrub have ended: the colour's purges, and its TLBI (R372). -/
def State.scrubReady (s : State) (c : Scrub) : Bool :=
  s.tlbiReady (some c.was.part.toNat) c.wait &&
    !s.regions.any fun r => r.2.part == c.was.part.toNat && (r.2.colour c.colour).purging

/-- The k-th function that is being stopped: its next colour is scrubbed, once the colour's purges and its TLBI have ended (R372). -/
def State.scrub (s : State) (k : Nat) : State :=
  match s.trust.stops[k]? with
  | none => s
  | some x =>
    match x.scrubs with
    | [] => s
    | c :: rest =>
      if s.scrubReady c then
        let s := s.scrubEnd c
        let stops := fun (l : List Stop) => { s with trust := { s.trust with stops := l } }
        if rest.isEmpty then (stops (s.trust.stops.eraseIdx k)).stopEnd x
        else stops (s.trust.stops.set k { x with scrubs := rest })
      else s

/-- STOP_INTERFACE_REQUEST: answered when the function's colours have been scrubbed. -/
def execStopInterfaceRequest (v : BitVec 6) (s : State) : Out :=
  s.tdispDo v fun s q => if q.st == .unlocked then s.tell v.toNat false [] else s.stop v.toNat false

/-- The package supervisor installs the link trust anchor (R366). -/
def State.installAnchor (s : State) (a : List Byte) : State := { s with trust := { s.trust with anchor := some a } }.answer true

/-- A stop by the package supervisor (Table 26.6). -/
def State.stopVf (s : State) (v : BitVec 6) : State :=
  if s.stopping v.toNat then s else if (s.vf v.toNat).st == .unlocked then s.answer false else s.stop v.toNat true

end Sys2Proof.Machine
end

