-- ==== Sys2Proof/Machine/Attest.lean ====
section
/-!
DEFINITION. SPDM (26 R363 to R366, R370, R371): the seventeen requests, sessions, measurements and certificate slots. What the
manual takes from the SPDM standard without stating it (the bytes of most responses) is left empty here (log 48).
-/
namespace Sys2Proof.Machine

def peerOf (m : Spdm) : Peer := { port := m.port.toNat, kind := m.kind.toNat, vf := m.vf.toNat }

/-- The binding record is one that the device does not discard (R365). -/
def bindingTaken (m : Spdm) : Bool := m.ver == 1 && m.kind ≤ 2 && m.rsvZero && m.lenOk && (m.kind != 2 || m.vf == 0)

/-- Accept a request: its response waits to be sent. -/
def State.accept' (s : State) (slot : Option Nat) (m : TrustMsg) : State :=
  { s with trust := { s.trust with pending := s.trust.pending ++ [{ slot := slot, msg := m }] } }

/-- The port carries the message: link sessions once it has trained, a tenant's traffic in AUTH (R366). -/
def State.carries (s : State) (m : Spdm) : Bool := if m.kind ≤ 1 then s.portAuth m.port.toNat else s.portUp m.port.toNat

/-- A request: discarded, answered Busy during a cold reset (28 R385), refused for a function that is not enabled, or handled
(R365). -/
def State.spdm (s : State) (m : Spdm) (req : SpdmReq) (f : State → State) : Out :=
  .next (if !bindingTaken m || !s.carries m then s
    else if s.booting then s.accept' none (.error (peerOf m) req .busy)
    else if m.kind ≤ 1 && !(s.vf m.vf.toNat).en then s.accept' none (.error (peerOf m) req .invalidRequest)
    else f s)

/-- A response with a body. -/
def State.reply' (s : State) (m : Spdm) (req : SpdmReq) (slot : Option Nat) (body : List Byte) : State :=
  s.accept' slot (.response (peerOf m) req body)
def State.refuse' (s : State) (m : Spdm) (req : SpdmReq) (e : SpdmError) : State := s.accept' none (.error (peerOf m) req e)

def State.chain (s : State) (k : Nat) : List Byte := Sp.get [] s.trust.chains k

/-- A message that Table 26.4 does not list (R363). -/
def State.otherRequest (s : State) (m : Spdm) : Out := s.spdm m .other fun s => s.refuse' m .other .unsupportedRequest

def execGetVersion (m : Spdm) (s : State) : Out := s.spdm m .getVersion fun s => s.reply' m .getVersion none []
def execGetCapabilities (m : Spdm) (s : State) : Out := s.spdm m .getCapabilities fun s => s.reply' m .getCapabilities none []

/-- The two extended entries of Table 26.8. -/
def extSign : List Byte := [0x00, 0x00, 0x44, 0xD0]
def extKem : List Byte := [0x00, 0x00, 0x68, 0xC7]
/-- n extended entries of four bytes. -/
def extEntries (l : List Byte) (n : Nat) : List (List Byte) := (List.range n).map fun i => (l.drop (4 * i)).take 4
/-- Among the algorithm structures of a message the DHE one (AlgType 2) has the extended entry of ML-KEM-768. -/
def dheOffers : Nat → List Byte → Bool
  | 0, _ => false
  | k + 1, ty :: cnt :: rest =>
    let fixed := cnt.toNat / 16
    let n := cnt.toNat % 16
    (ty == 2 && (extEntries (rest.drop fixed) n).contains extKem) || dheOffers k (rest.drop (fixed + 4 * n))
  | _, _ => false
/-- A NEGOTIATE_ALGORITHMS, from its Length field on, offers both extended entries; the places of its fields are those of SPDM 1.3
(log 48). -/
def offersBoth (m : List Byte) : Bool :=
  let a := (m.getD 24 0).toNat
  let e := (m.getD 25 0).toNat
  (extEntries (m.drop 28) a).contains extSign && dheOffers 16 (m.drop (28 + 4 * a + 4 * e))
/-- The ALGORITHMS response, from its Length field on: no base bit but those of SHA3-256, of AES-256-GCM and of the key schedule, and
the two extended entries (R364; log 48). -/
def algorithms : List Byte :=
  leBytes 2 56 ++ [1, 0] ++ leBytes 4 0x10 ++ leBytes 4 0 ++ leBytes 4 0x08 ++ List.replicate 12 0 ++ [1, 0, 0, 0] ++ extSign ++
    [2, 0x21, 0, 0] ++ extKem ++ [3, 0x20, 2, 0] ++ [5, 0x20, 1, 0]

/-- NEGOTIATE_ALGORITHMS: both extended entries must be offered (R364). -/
def execNegotiateAlgorithms (m : Spdm) (s : State) : Out :=
  s.spdm m .negotiateAlgorithms fun s =>
    if offersBoth m.body then s.reply' m .negotiateAlgorithms none algorithms
    else s.refuse' m .negotiateAlgorithms .unsupportedRequest

/-- A signature under a slot's key as it stands (R371). -/
def State.signAs (s : State) (slot : Nat) (b : List Byte) : List Byte :=
  leBytes 2420 (Config.sign (Sp.get [] s.trust.keys slot) b).toNat

/-- GET_DIGESTS and GET_CERTIFICATE: the slot as it stands at acceptance (R371). -/
def execGetDigests (m : Spdm) (s : State) : Out :=
  s.spdm m .getDigests fun s => s.reply' m .getDigests (some m.slot.toNat) (leBytes 32 (Config.sha3 (s.chain m.slot.toNat)).toNat)
def execGetCertificate (m : Spdm) (s : State) : Out :=
  s.spdm m .getCertificate fun s => s.reply' m .getCertificate (some m.slot.toNat) (s.chain m.slot.toNat)

/-- CHALLENGE: signed over the slot's contents at acceptance (R371). -/
def execChallenge (m : Spdm) (s : State) : Out :=
  s.spdm m .challenge fun s =>
    let d := leBytes 32 (Config.sha3 (s.chain m.slot.toNat)).toNat
    s.reply' m .challenge (some m.slot.toNat) (d ++ s.signAs m.slot.toNat (d ++ m.body))

/-- The measurement blocks of a session (R370): an index and a digest each. -/
def State.measurements (s : State) (m : Spdm) : List Byte :=
  let v := m.vf.toNat
  let p := (s.vf v).part.toNat
  let blk := fun (i : Nat) (d : BitVec 256) => BitVec.ofNat 8 i :: leBytes 32 d.toNat
  let config := leBytes 32 ((s.part p).chmask.toNat * 2 ^ 128 + (s.part p).smask.toNat * 2 ^ 64 + b2n (s.part p).valid * 2 ^ 63) ++
    leBytes 8 (s.lpermOf p).toNat ++ (List.range 20).flatMap fun k => leBytes 8 (s.capWord k).toNat
  blk 1 (Config.bootMeasurement 0) ++ blk 2 (Config.bootMeasurement 1) ++ blk 3 (Config.sha3 config) ++
    (if m.kind == 2 then [] else
      blk 0x40 (Sp.get 0 s.trust.measure (s.vf v).ctxid.toNat) ++ blk 0x41 (Config.sha3 (s.frozenSet v)))

def execGetMeasurements (m : Spdm) (s : State) : Out :=
  s.spdm m .getMeasurements fun s => s.reply' m .getMeasurements (some m.slot.toNat) (s.measurements m)

/-- The requester of a session; a tenant's handshake may begin unsecured and end in a secured record. -/
def sessionOf (m : Spdm) : Peer := { peerOf m with kind := if m.kind == 2 then 2 else 0 }

/-- KEY_EXCHANGE: the ciphertext of the requester's ML-KEM-768 key; the shared secret is kept for the key schedule (R364). A second one
under the management trust anchor is told to wait (28 R386). A key of another size is refused (log 48). -/
def execKeyExchange (m : Spdm) (s : State) : Out :=
  s.spdm m .keyExchange fun s =>
    let mg := m.kind == 2 && Config.verifies Config.managementAnchor m.body
    if m.body.length != 1184 then s.refuse' m .keyExchange .invalidRequest
    else if mg && (s.trust.mgmt.isSome || s.trust.hands.any (·.mgmt)) then s.refuse' m .keyExchange .busy
    else
      let c := leBytes 1088 (Config.ciphertext m.body s.free).toNat
      let h : Handshake := { peer := sessionOf m, mgmt := mg, secret := Config.sharedSecret m.body s.free }
      let s := { s with free := s.free + 1, trust := { s.trust with hands := (s.trust.hands.filter fun (h : Handshake) => h.peer != sessionOf m) ++ [h] } }
      s.reply' m .keyExchange (some m.slot.toNat) (c ++ s.signAs m.slot.toNat c)

/-- The keys of a link session seed those of the port's domains, in the phase in which each transmits (R366). -/
def State.seedKeys (s : State) (port : Nat) (secret : BitVec 256) : State :=
  (List.range 64).foldl (fun s d =>
    let q := s.domain port d
    let k := some (Config.linkKey secret d)
    s.setDomain port d (if q.tx then { q with key1 := k } else { q with key0 := k })) s

/-- FINISH: the session is open. A link session is mutually authenticated under its trust anchor: the port enters AUTH, or the management
session opens (R363, R366, 28 R386). -/
def execFinish (m : Spdm) (s : State) : Out :=
  s.spdm m .finish fun s =>
    match s.trust.hands.find? fun (h : Handshake) => h.peer == sessionOf m with
    | none => s.refuse' m .finish .invalidRequest
    | some h =>
      let s := { s with trust := { s.trust with hands := s.trust.hands.filter fun (h : Handshake) => h.peer != sessionOf m } }
      if m.kind == 2 then
        if !((if h.mgmt then some Config.managementAnchor else s.trust.anchor).any fun a => Config.verifies a m.body) then
          s.refuse' m .finish .invalidRequest
        else if h.mgmt then ({ s with trust := { s.trust with mgmt := some m.port.toNat } }).reply' m .finish none []
        else
          if s.link m.port.toNat == .trained then ((s.setLink m.port.toNat .auth).seedKeys m.port.toNat h.secret).reply' m .finish none []
          else s.reply' m .finish none []
      else (s.setVf m.vf.toNat { s.vf m.vf.toNat with sess := true }).reply' m .finish none []

/-- The record belongs to a session: a secured record of a function's own, or one of a link session (R365, R367). -/
def inSession (m : Spdm) : Bool := m.kind != 0
/-- A message that only a session carries. -/
def State.within (s : State) (m : Spdm) (req : SpdmReq) (f : State → State) : State :=
  if inSession m then f s else s.refuse' m req .invalidRequest

def execHeartbeat (m : Spdm) (s : State) : Out := s.spdm m .heartbeat fun s => s.within m .heartbeat fun s => s.reply' m .heartbeat none []
def execKeyUpdate (m : Spdm) (s : State) : Out := s.spdm m .keyUpdate fun s => s.within m .keyUpdate fun s => s.reply' m .keyUpdate none []

/-- END_SESSION: a link returns to TRAINED; a serving function goes to ERROR (R366, R367). Requests of the session that wait are
not performed. -/
def execEndSession (m : Spdm) (s : State) : Out :=
  s.spdm m .endSession fun s => s.within m .endSession fun s =>
    let hang := fun (f : Peer → Bool) (s : State) => { s with trust := { s.trust with calls := s.trust.calls.filter fun p => !f p } }
    if m.kind == 2 then
      if s.trust.mgmt == some m.port.toNat then (hang Peer.manages { s with trust := { s.trust with mgmt := none } }).reply' m .endSession none []
      else
        let s := if s.link m.port.toNat == .auth then s.setLink m.port.toNat .trained else s
        s.reply' m .endSession none []
    else
      let q := s.vf m.vf.toNat
      (hang (·.tenant m.vf.toNat) (s.setVf m.vf.toNat { q with sess := false, st := if q.serving then .error else q.st })).reply' m .endSession none []

/-- Write a slot's chain, or the key of a GET_CSR. -/
def State.writeSlot (s : State) (w : Nat × Bool × List Byte) : State :=
  { s with trust := if w.2.1 then { s.trust with keys := Sp.put s.trust.keys w.1 w.2.2 } else { s.trust with chains := Sp.put s.trust.chains w.1 w.2.2 } }

/-- A slot write that is accepted: made at once, or after every pending response that names the slot (R371). -/
def State.slotWrite (s : State) (w : Nat × Bool × List Byte) : State :=
  if s.trust.pending.any (fun p => p.slot == some w.1) || s.trust.deferred.any (fun d => d.1 == w.1) then
    { s with trust := { s.trust with deferred := s.trust.deferred ++ [w] } }
  else s.writeSlot w

/-- SET_CERTIFICATE: refused for slot 0 (R371). -/
def execSetCertificate (m : Spdm) (s : State) : Out :=
  s.spdm m .setCertificate fun s =>
    if m.slot = 0 then s.refuse' m .setCertificate .invalidRequest
    else (s.slotWrite (m.slot.toNat, false, m.body)).reply' m .setCertificate none []

/-- GET_CSR: a signing request for the slot's key; a request with a body asks for a new key (log 48). -/
def execGetCsr (m : Spdm) (s : State) : Out :=
  s.spdm m .getCsr fun s =>
    if m.body.isEmpty then s.reply' m .getCsr (some m.slot.toNat) (Sp.get [] s.trust.keys m.slot.toNat)
    else if m.slot = 0 then s.refuse' m .getCsr .invalidRequest
    else
      let k := leBytes 1312 (Config.newKey s.free).toNat
      (({ s with free := s.free + 1 }).slotWrite (m.slot.toNat, true, k)).reply' m .getCsr none k

def execChunkSend (m : Spdm) (s : State) : Out := s.spdm m .chunkSend fun s => s.reply' m .chunkSend none []
def execChunkGet (m : Spdm) (s : State) : Out := s.spdm m .chunkGet fun s => s.reply' m .chunkGet none []

/-- VENDOR_DEFINED_REQUEST: it carries a TDISP or management request, which waits, acts in its own step and is answered after that;
outside a session it is refused (R367, 28 R386). -/
def execVendorDefinedRequest (m : Spdm) (s : State) : Out :=
  s.spdm m .vendorDefined fun s =>
    let inside := if m.kind == 2 then s.trust.mgmt == some m.port.toNat else inSession m && (s.vf m.vf.toNat).sess
    if inside then { s with trust := { s.trust with calls := s.trust.calls ++ [peerOf m] } } else s.refuse' m .vendorDefined .invalidRequest

/-- The oldest pending response is sent, and the slot writes that no response now holds back are made (R371). -/
def State.respond (s : State) : State :=
  match s.trust.pending with
  | [] => s
  | p :: rest =>
    let s := ({ s with trust := { s.trust with pending := rest } }).say p.msg
    let free := fun (d : Nat × Bool × List Byte) => !rest.any fun q => q.slot == some d.1
    let go := s.trust.deferred.filter free
    go.foldl (fun s d => s.writeSlot d) { s with trust := { s.trust with deferred := s.trust.deferred.filter fun d => !free d } }

end Sys2Proof.Machine
end

