-- ==== Sys2Proof/Machine/Commit.lean ====
section
/-!
DEFINITION. COMMIT (22 R302 to R309): the sequence descriptor, retiring in order, and draft trees; with the events RETIRE and
TREE_STEP.
-/
namespace Sys2Proof.Machine

/-! ## The sequence descriptor (22 R304, R305) -/

/-- A descriptor as read at its home: sixteen dwords (Table 22.1), with its translation. -/
structure SeqDesc where
  tr : Tr
  va : Nat
  w : List Nat
  poison : Bool

def SeqDesc.d (q : SeqDesc) (i : Nat) : Nat := q.w.getD i 0
def SeqDesc.halt (q : SeqDesc) : Nat := fld (q.d 0) 31 0
def SeqDesc.pos (q : SeqDesc) : Nat := fld (q.d 0) 63 32
def SeqDesc.refused (q : SeqDesc) : Nat := fld (q.d 1) 31 0
def SeqDesc.step (q : SeqDesc) : Nat := fld (q.d 1) 49 42
def SeqDesc.nm1 (q : SeqDesc) : Nat := fld (q.d 1) 55 50
def SeqDesc.tree (q : SeqDesc) : Bool := bitAt (q.d 1) 62
def SeqDesc.isOpen (q : SeqDesc) : Bool := bitAt (q.d 1) 63
def SeqDesc.ctab (q : SeqDesc) : Nat := fld (q.d 2) 56 0
/-- The parent of node n (bits [256 + 6n + 5 : 256 + 6n]). -/
def SeqDesc.parent (q : SeqDesc) (n : Nat) : Nat :=
  let all := (List.range 6).foldl (fun a i => a + q.d (4 + i) * 2 ^ (64 * i)) 0
  fld all (6 * n + 5) (6 * n)
/-- Reserved bits of Table 22.1. -/
def SeqDesc.reserved (q : SeqDesc) : Bool :=
  fld (q.d 1) 41 32 != 0 || fld (q.d 1) 61 56 != 0 || fld (q.d 2) 63 57 != 0 || (q.w.drop 10).any (· != 0)

def descVa (base : Nat) (ctx : Nat) : Nat := base * 2 ^ 25 + 128 * ctx

/-- A descriptor from the bytes read for it. -/
def SeqDesc.of (t : Tr) (va : Nat) (bs : List Byte) (bad : Bool) : SeqDesc :=
  { tr := t, va := va, w := (List.range 16).map fun i => bytesNat ((bs.drop (8 * i)).take 8), poison := bad }

/-- Read a descriptor at its home, at U through the token's colour; `wr` asks for write permission too. Memory of another
device has no bank of this package: an access fault (log 20). -/
def State.readDesc (s : State) (e base c ctx : Nat) (wr : Bool) : Except XF SeqDesc :=
  let va := descVa base ctx
  match s.mAccess e c va 128 true wr with
  | .error x => .error x
  | .ok t =>
    if space t.home == .remote then .error (.fault 0x18 0 (w64 va)) else
    .ok (SeqDesc.of t va (s.readHomeN t.key t.home 128) (s.anyPoison t.home 128))

/-- Write bytes of a descriptor at its home. -/
def State.writeDesc (s : State) (q : SeqDesc) (off n v : Nat) : State := s.write q.tr.key (q.tr.home + off) (leBytes n v)
/-- The writes of COMMIT. -/
def State.setPos (s : State) (q : SeqDesc) (v : Nat) : State := s.writeDesc q 4 4 v
/-- step and open share the dword half at bytes 12 to 15 with tree and nm1. -/
def State.setHalf (s : State) (q : SeqDesc) (step : Nat) (isOpen : Bool) : State :=
  s.writeDesc q 12 4 (fld (setFld (setFld (q.d 1) 49 42 step) 63 63 (b2n isOpen)) 63 32)
def State.addRefused (s : State) (q : SeqDesc) (n : Nat) : State := s.writeDesc q 8 4 (satAdd 32 q.refused n)

/-! ## Arrival (22 R306, R308) -/

/-- Position of a plain token (22 R306). -/
def plainPos (pos iter : Nat) : Nat := (pos + (iter + 2 ^ 32 * 16384 - pos) % 16384) % 2 ^ 32

/-- Take token j out of a COMMIT's entry, with its position where it had one. -/
def State.dropCommit (s : State) (e sl : Nat) (k : Key) (j : Nat) : State :=
  let v := s.slot e sl
  let v := v.updEntry k fun x =>
    { x with toks := x.toks.set 0 ((x.at 0).eraseIdx j),
             row := match x.row with
               | .commit ps => if (ps.eraseIdx j).isEmpty then .none else .commit (ps.eraseIdx j)
               | r => r }
  (s.setSlot e sl (v.restamp s.stamp)).moved v.region k.colour.toNat

def Entry.positions (x : Entry) : List Nat :=
  match x.row with | .commit ps => ps | .tree _ => List.replicate (x.at 0).length 0 | _ => []

/-- Some token of an entry has not been handled as an arrival yet. -/
def Entry.arriving (x : Entry) : Option (Nat × Token) :=
  let j := x.positions.length
  ((x.at 0)[j]?).map fun a => (j, a.tok)

/-- The arrival of a token: discarded where the sequence is closed or the step or node is wrong, else held (22 R305, R306,
R308). -/
def State.commitArrive (s : State) (e sl : Nat) (x : Entry) (j : Nat) (t : Token) : State :=
  let v := s.slot e sl
  let drop := fun (s : State) => s.dropCommit e sl x.key j
  let keep := fun (p : Nat) => (s.setRow e sl x.key (.commit (x.positions ++ [p]))).moved v.region t.colour.toNat
  match s.readDesc e v.cfg.const.toNat t.colour.toNat t.context.toNat true with
  | .error err => (drop s).elemFault e sl err.code.1 [t] true (w64 (descVa v.cfg.const.toNat t.context.toNat)) err.code.2 0
  | .ok q =>
    if q.poison || q.reserved then ((drop s).elemFault e sl 0x50 [t] false (w64 q.va) 0 0).addRefused q 1
    else if !q.isOpen then (drop s).addRefused q 1
    else if q.tree then
      if t.iter.toNat / 64 % 256 != q.step || t.iter.toNat % 64 > q.nm1 || t.iter.toNat ≥ 16384 then (drop s).addRefused q 1
      else keep 0
    else keep (plainPos q.pos t.iter.toNat)

/-- The step that is being resolved of a sequence, with node 0's key. -/
def ElemSlot.treeRun (v : ElemSlot) (c : BitVec 8) (x : BitVec 10) : Option (Key × TreeRun) :=
  v.entries.findSome? fun ent => if ent.key.colour == c && ent.key.context == x then
    match ent.row with | .tree r => some (ent.key, r) | _ => none else none

/-- The first token of a COMMIT's store still to be handled; those of a sequence whose step is being resolved wait. -/
def State.nextArrival (s : State) (e sl : Nat) : Option (Entry × Nat × Token) :=
  let v := s.slot e sl
  v.entries.findSome? fun x =>
    if (v.treeRun x.key.colour x.key.context).isSome then none else (x.arriving).map fun p => (x, p.1, p.2)

/-! ## Retiring (22 R306, R309) -/

/-- The count of a retired id: one bank addition that stops at all ones; a failed one is dropped and recorded (22 R309). -/
def State.countId (s : State) (e sl : Nat) (q : SeqDesc) (t : Token) (id : Nat) : State :=
  if q.ctab == 0 || t.fmt.toNat > 1 || t.poison || t.bubble then s else
  let va := (q.ctab + 4 * id) % 2 ^ 64
  match s.mAccess e t.colour.toNat va 4 true true with
  | .error err => s.elemFault e sl err.code.1 [t] false (w64 va) err.code.2 0
  | .ok tr =>
    if space tr.home != .floor then s.elemFault e sl 0x19 [t] false (w64 va) 0 0
    else
      let r := s.amoAt tr.home 4 fun old => satAdd 32 old 1
      match r.2 with
      | some _ => r.1
      | none => r.1.bankDrop tr.home

/-- The held plain token of a sequence whose position is pos. -/
def State.retirable (s : State) (e sl : Nat) (c : BitVec 8) (x : BitVec 10) (pos : Nat) : Option (Key × Nat × Token) :=
  (s.slot e sl).entries.findSome? fun ent =>
    if ent.key.colour == c && ent.key.context == x then
      match (List.range ent.positions.length).find? fun j => ent.positions[j]? == some pos with
      | some j => ((ent.at 0)[j]?).map fun a => (ent.key, j, a.tok)
      | none => none
    else none

/-- A token of a sequence that waits for its position or its step: the first of the store. -/
def State.waiting (s : State) (e sl : Nat) (c : BitVec 8) (x : BitVec 10) : Option (Key × Token) :=
  (s.slot e sl).entries.findSome? fun ent =>
    if ent.key.colour == c && ent.key.context == x && !ent.positions.isEmpty then (ent.at 0).head?.map fun a => (ent.key, a.tok)
    else none

/-- Retire the token of a sequence whose position has come (22 R306): the count, the emission, then pos and open. Nothing
happens while out0 has no room. The descriptor is read afresh: where it faults or is malformed, a waiting token takes what an
arriving one would (R305). -/
def State.retirePlain (s : State) (e sl : Nat) (c : BitVec 8) (x : BitVec 10) : Option State :=
  let v := s.slot e sl
  match s.readDesc e v.cfg.const.toNat c.toNat x.toNat true with
  | .error err => (s.waiting e sl c x).map fun p =>
      (s.dropCommit e sl p.1 0).elemFault e sl err.code.1 [p.2] true (w64 (descVa v.cfg.const.toNat x.toNat)) err.code.2 0
  | .ok q =>
    if q.poison || q.reserved then
      (s.waiting e sl c x).map fun p =>
        ((s.dropCommit e sl p.1 0).elemFault e sl 0x50 [p.2] false (w64 q.va) 0 0).addRefused q 1
    else if q.tree then none else
    match s.retirable e sl c x q.pos with
    | none => none
    | some (k, j, t) =>
      if !q.isOpen || q.pos ≥ q.halt then some ((s.dropCommit e sl k j).addRefused q 1)
      else if s.room e sl v.cfg.out0 k then
        let s := s.dropCommit e sl k j
        let s := s.countId e sl q t t.value.toNat
        let s := s.output e sl false { t with gen := v.gen }
        let s := s.setPos q ((q.pos + 1) % 2 ^ 32)
        some (if t.eos then s.setHalf q q.step false else s)
      else none

/-! ## Draft trees (22 R308) -/

/-- The key of node n of a step. -/
def nodeKey (c : BitVec 8) (x : BitVec 10) (step n : Nat) : Key :=
  { colour := c, context := x, iter := some (BitVec.ofNat 14 (64 * step + n)) }

/-- The held token of node n of the current step. -/
def State.nodeTok (s : State) (e sl : Nat) (c : BitVec 8) (x : BitVec 10) (step n : Nat) : Option Token :=
  ((s.slot e sl).entry? (nodeKey c x step n)).bind fun ent => if ent.positions.isEmpty then none else (ent.at 0).head?.map (·.tok)

/-- A node is an accepted child of another. -/
def acceptedChild (q : SeqDesc) (toks : List Token) (n m : Nat) : Bool :=
  match toks[m]? with
  | some t => m > n && q.parent m == n && t.value.getLsbD 31 && !t.bubble && t.fmt == 1
  | none => false

/-- The accepted path from a node on, by at most `k` more nodes. -/
def acceptedPath (q : SeqDesc) (toks : List Token) : Nat → Nat → List Nat
  | 0, n => [n]
  | k + 1, n =>
    match (List.range toks.length).find? fun m => acceptedChild q toks n m with
    | some m => n :: acceptedPath q toks k m
    | none => [n]

/-- A step whose node tokens are all here: its path is to be retired (22 R308). -/
def State.treeBegin (s : State) (e sl : Nat) (c : BitVec 8) (x : BitVec 10) (q : SeqDesc) : Option State :=
  if !q.tree || !q.isOpen || q.poison || q.reserved then none else
  let toks := (List.range (q.nm1 + 1)).filterMap fun n => s.nodeTok e sl c x q.step n
  if toks.length != q.nm1 + 1 then none else
  let path := if toks.head?.any (·.fmt == 1) then acceptedPath q toks q.nm1 0 else []
  some (s.setRow e sl (nodeKey c x q.step 0)
    (.tree { nodes := q.nm1 + 1, step := q.step, todo := path, done := [], eos := false, refused := 0 }))

/-- The next node of the path retires, in depth order: its count, its emission, then pos; at halt the path ends. None while out0
has no room (22 R306, R308). -/
def State.treeRetire (s : State) (e sl : Nat) (c : BitVec 8) (x : BitVec 10) (q : SeqDesc) (k : Key) (r : TreeRun) (n : Nat)
    (rest : List Nat) : Option State :=
  let v := s.slot e sl
  match s.nodeTok e sl c x r.step n with
  | none => some (s.setRow e sl k (.tree { r with todo := [] }))
  | some t =>
    if !q.isOpen || q.pos ≥ q.halt then some (s.setRow e sl k (.tree { r with todo := [] }))
    else if !s.room e sl v.cfg.out0 (tagOf t) then none
    else
      let pos := (q.pos + 1) % 2 ^ 32
      let s := s.dropCommit e sl (nodeKey c x r.step n) 0
      let s := s.countId e sl q t (t.value.toNat % 2 ^ 31)
      let s := s.output e sl false
        { t with value := t.value &&& 0x7FFFFFFF, eor := t.eor || rest.isEmpty || pos ≥ q.halt, gen := v.gen }
      some ((s.setPos q pos).setRow e sl k (.tree { r with todo := rest, done := r.done ++ [n], eos := r.eos || t.eos }))

/-- The lowest node that was not retired is refused; after the last, step, verdict, refused and open are written, in that order (22
R305, R308). None while out1 has no room. -/
def State.treeRefuse (s : State) (e sl : Nat) (c : BitVec 8) (x : BitVec 10) (q : SeqDesc) (k : Key) (r : TreeRun) : Option State :=
  let v := s.slot e sl
  let held := (List.range r.nodes).filterMap fun n => (s.nodeTok e sl c x r.step n).map fun t => (n, t)
  match held with
  | (n, t) :: more =>
    if !s.room e sl v.cfg.out1 (tagOf t) then none else
    let s := s.dropCommit e sl (nodeKey c x r.step n) 0
    let s := s.output e sl true { t with value := w32 n, fmt := 1, eor := more.isEmpty, eos := false, bubble := false, gen := v.gen }
    some (s.setRow e sl k (.tree { r with refused := r.refused + 1 }))
  | [] =>
    let s := s.setHalf q ((r.step + 1) % 256) q.isOpen
    let s := s.writeDesc q 24 8 (r.done.foldl (fun a n => a + 2 ^ n) 0)
    let s := s.addRefused q r.refused
    let s := if r.eos then s.setHalf q ((r.step + 1) % 256) false else s
    some (s.setRow e sl k .none)

/-- The next act of a sequence's step: to begin it, to retire a node, to refuse one, or to end it. A descriptor that faults or is
malformed ends it once its tokens are gone (R305). -/
def State.treeStep (s : State) (e sl : Nat) (c : BitVec 8) (x : BitVec 10) : Option State :=
  let v := s.slot e sl
  match s.readDesc e v.cfg.const.toNat c.toNat x.toNat true, v.treeRun c x with
  | .error _, none => none
  | .ok q, none => s.treeBegin e sl c x q
  | .error _, some (k, _) => if (s.waiting e sl c x).isNone then some (s.setRow e sl k .none) else none
  | .ok q, some (k, r) =>
    if q.poison || q.reserved then if (s.waiting e sl c x).isNone then some (s.setRow e sl k .none) else none
    else match r.todo with
    | n :: rest => s.treeRetire e sl c x q k r n rest
    | [] => s.treeRefuse e sl c x q k r

/-- The sequences that a COMMIT's store holds tokens of. -/
def ElemSlot.sequences (v : ElemSlot) : List (BitVec 8 × BitVec 10) := (v.entries.map fun x => (x.key.colour, x.key.context)).eraseDups

/-- What COMMIT does by itself: the next arrival; else the retirement of a position that has come; else a complete step. -/
def State.commitTurn (s : State) (e sl : Nat) : Option State :=
  match s.nextArrival e sl with
  | some (x, j, t) => some (s.commitArrive e sl x j t)
  | none =>
    (s.slot e sl).sequences.findSome? fun q =>
      match s.retirePlain e sl q.1 q.2 with
      | some t => some t
      | none => s.treeStep e sl q.1 q.2

/-- COMMIT (22 R304 to R309). -/
def execCommitE (o : ElemCfg) (s : State) : Out := elemTurn 0x40 o s State.commitTurn fun s _ _ _ => s

/-- RETIRE: the token of a sequence whose position has come retires (22 R306). -/
def execRetire (e : ElemNum) (sl : BitVec 2) (c : BitVec 8) (x : BitVec 10) (s : State) : Out :=
  .next (if (s.slot e.toNat sl.toNat).op == 0x40 then (s.retirePlain e.toNat sl.toNat c x).getD s else s)

/-- TREE_STEP: the next act in the resolution of a sequence's step (22 R308). -/
def execTreeStep (e : ElemNum) (sl : BitVec 2) (c : BitVec 8) (x : BitVec 10) (s : State) : Out :=
  .next (if (s.slot e.toNat sl.toNat).op == 0x40 then (s.treeStep e.toNat sl.toNat c x).getD s else s)

end Sys2Proof.Machine
end

