-- ==== Sys2Proof/Machine/Control.lean ====
section
/-!
DEFINITION. Exit forms (04 R60, R62, Table 04.7, R70; 19 R298): branches, calls, LOOP, TRAP, SYSC, BKPT, ERET and HALT. An
exit form whose guard is true records the block's exit; the block's end acts on it.
-/
namespace Sys2Proof.Machine

/-- The target at a word offset from an address (02 R29). -/
def offTarget (base : W64) (off : BitVec 34) : W64 := base + (off.signExtend 64 <<< 3)

/-- A transfer of control: the link, if the form writes one, and the successor. -/
def transfer (o : BRX) (s : State) (link : Bool) (target : W64) : State :=
  (if link then s.setX o.d s.fallThrough else s).exitTo (.goto target)

/-- BR: h + off34 × 8. -/
def execBr (o : BRX) (s : State) : Out :=
  plain o.g o.gs s fun s => transfer o s false (offTarget s.blk.hdr o.off)

/-- BRR: X[a] + off34 × 8. -/
def execBrr (o : BRX) (s : State) : Out :=
  plain o.g o.gs s fun s => transfer o s false (offTarget (s.x o.a) o.off)

/-- CALL: h + off34 × 8, with the fall-through address as link. -/
def execCall (o : BRX) (s : State) : Out :=
  plain o.g o.gs s fun s => transfer o s true (offTarget s.blk.hdr o.off)

/-- CALLR: X[a] + off34 × 8, with the fall-through address as link. -/
def execCallr (o : BRX) (s : State) : Out :=
  plain o.g o.gs s fun s => transfer o s true (offTarget (s.x o.a) o.off)

/-- RET: X[a]. -/
def execRet (o : BRX) (s : State) : Out :=
  plain o.g o.gs s fun s => transfer o s false (s.x o.a)

/-- LOOP (04 R70). -/
def execLoop (o : BRX) (s : State) : Out :=
  checked o.g o.gs s fun s =>
    let c := s.x o.a
    let h := s.blk.hdr
    let t := offTarget h o.off
    let ft := s.fallThrough
    if s.w.lact then .error (.fault 4 0 h)
    else if c = 0 then .ok (s.exitTo (.goto t))
    else if t.toNat ≤ ft.toNat then .error (.fault 4 0 t)
    else .ok ((s.setW { s.w with lcnt := c, lbeg := ft, lend := t, lact := true }).exitTo (.goto ft))

/-- TRAP: the block is discarded with code 0x05 and tval X[a]. -/
def execTrap (o : SYS) (s : State) : Out :=
  checked o.g o.gs s fun s => .error (.fault 5 0 (s.x o.a))

/-- SYSC: the block commits and then traps with code 0x06. -/
def execSysc (o : SYS) (s : State) : Out :=
  plain o.g o.gs s fun s => s.exitTo (.sysc o.imm.toNat)

/-- BKPT: with tstat.bke = 1 the block is discarded with code 0x07 and tval the address of the BKPT word; with bke = 0
it acts as an exit form whose guard is false. -/
def execBkpt (o : SYS) (s : State) : Out :=
  checked o.g o.gs s fun s =>
    if s.w.tstat.getLsbD 5 then .error (.fault 7 0 (s.blk.hdr + w64 (8 * s.blk.idx))) else .ok s

/-- ERET: the return is made at the block's commit (19 R298). -/
def execEret (o : SYS) (s : State) : Out :=
  plain o.g o.gs s fun s => s.exitTo .eret

/-- HALT: the stop, or the entry to dispatch, is made at the block's commit (19 R298, 15 R237). -/
def execHalt (o : SYS) (s : State) : Out :=
  plain o.g o.gs s fun s => s.exitTo .halt

end Sys2Proof.Machine
end

