-- ==== Sys2Proof/Machine/EngineRun.lean ====
section
/-!
DEFINITION. The draught engine performs its commands (06 R112 to R114): a part of a payload, and the rest of it with the flag.
-/
namespace Sys2Proof.Machine

/-- Move payload bytes of core n's first command that are not moved yet; where a remote source byte has not come, ask for
it instead (17 R262). -/
def State.engineMove (s : State) (n : Nat) (c : EngCmd) (ks : List Nat) : State × EngCmd × Bool :=
  let ks := ks.filter fun k => k < c.total && !c.moved.contains k
  match s.enginePieces n c ks with
  | some ps =>
    let s := s.engineWrite n c ps
    let moved := ks ++ c.moved
    let ws := if c.fe then c.fullWords moved ks else []
    let s := (s.setTags ws)
    (ws.foldl (fun s w => s.serveWord w) s, { c with moved := moved }, true)
  | none =>
    match c.missing ks with
    | some h =>
      match s.overdue (.engine n) with
      | some r => (s.giveUp (.engine n), { c with lost := (List.range r.len).map (r.home + ·) ++ c.lost }, false)
      | none =>
      -- the read sees every store that the core has committed, on another device too (R113)
      if s.reading (.engine n) || s.unacked (.core n) then (s, c, false)
      else
        let run := ((List.range 256).takeWhile fun i => ks.any fun k => (c.srcAt k).home == h + i).length
        (s.sendRead (.engine n) c.colour.toNat h run, c, false)
    | none => (s, c, false)

/-- Some payload bytes of the first command, in any order (06 R112). -/
def State.enginePart (s : State) (n from' len : Nat) : State :=
  match (s.core n).eng with
  | [] => s
  | c :: rest =>
    let r := s.engineMove n c (c.whole ((List.range len).map (from' + ·)))
    r.1.setCore n { r.1.core n with eng := r.2.1 :: rest }

/-- ENGINE_COMMAND: the engine of a core moves what is left of its first command and then writes its flag (06 R114); the
flag, which the payload must be visible to, waits for the acknowledgements of remote writes, as does the end of a command at
`.system`. -/
def execEngineCommand (n : CoreNum) (s : State) : Out :=
  let n := n.toNat
  .next (match (s.core n).eng with
    | [] => s
    | c :: rest =>
      let r := s.engineMove n c (List.range c.total)
      let s := r.1
      if !r.2.2 || ((c.scope == 6 || c.flag.getLsbD 31) && s.unacked (.engine n)) then s.setCore n { s.core n with eng := r.2.1 :: rest }
      else (s.setCore n { s.core n with eng := rest }).writeFlag c.flag)

end Sys2Proof.Machine
end

