-- ==== Sys2Proof/Machine/Events.lean ====
section
/-!
DEFINITION. Events of a core (04 R63, R64; 17 R252; 19 R282; 24 R333; 15 R238) and of the module (27 R376, R377; 28 R383 to
R385): answers and cancels of waits, interrupts, write-backs, dispatch, patrol, the clock, power and cold reset.
-/
namespace Sys2Proof.Machine

/-- A step of core n made on its behalf: the core whose turn it is stays as it was. -/
def State.asCore (s : State) (n : CoreNum) (f : State → State) : State :=
  { f { s with curCore := n } with curCore := s.curCore }

/-! ## Waits (04 R61, R63) -/

/-- The wait form of the core whose turn it is looks for its answer. -/
def State.tryAnswer (s : State) : State :=
  match s.blk.wait with
  | .none => s
  | .ldf d home n ty clr => if s.blk.ans == .cancelled then s.discard s.cur else s.answerLdf d home n ty clr
  | .waita d home ty _ _ acq => if s.blk.ans == .cancelled then s.discard s.cur else s.answerWaita d home ty acq
  | .pres kind d _ va ty acq => s.answerPresence kind d va ty acq
  | .rcalm fn d _ _ _ => s.answerRcalm fn d
  | .sbar mask hold sys => s.answerSbar mask hold sys
  | .ldsc d ty addr va => s.answerLdsc d ty addr va

/-- WAIT_ANSWER: the answer of a core's wait form arrives, if its target gives one; the exit group, the successor check and the
commit follow (04 R62, R63). -/
def execWaitAnswer (n : CoreNum) (s : State) : Out := .next (s.asCore n State.tryAnswer)

/-- The interrupt that a core takes: the lowest that is pending and unmasked, at U or with ie = 1 (19 R282). -/
def Core.irq (c : Core) : Option Nat :=
  if c.lvlS && !c.regs.tstat.getLsbD 0 then none
  else (List.range 4).find? fun i => c.tpend.getLsbD i && c.regs.tmask.getLsbD i

/-- The block waits for an answer that a cancel may still stop. -/
def Blk.cancellable (b : Blk) : Bool :=
  (match b.wait with | .none => false | .ldsc .. => false | _ => true) && b.ans == .none && !b.cancel

/-- WAIT_CANCEL: a core with an interrupt to take sends a cancel to the target of its wait (04 R63). A target inside the core
removes the request at once; a floor bank answers by PRESENCE_CANCEL. -/
def execWaitCancel (n : CoreNum) (s : State) : Out :=
  let c := s.core n.toNat
  .next (if c.irq.isSome && c.blk.cancellable then
    let local' := match c.blk.wait with | .pres .. => false | _ => true
    s.setCore n.toNat { c with blk := { c.blk with cancel := true, ans := if local' then .cancelled else .none } }
  else s)

/-! ## Reservations (04 R64, Table 04.8) -/

/-- Held effects that need a place in each bounded unit: engine, island, section table, vane unit, retransmit buffer, bag. -/
def needs (l : List Held) : Nat × Nat × Nat × Nat × Nat × Nat :=
  l.foldl (fun k h => match h with
    | .engine _ => (k.1 + 1, k.2)
    | .island _ => (k.1, k.2.1 + 1, k.2.2)
    | .arm .. => (k.1, k.2.1, k.2.2.1 + 1, k.2.2.2)
    | .vane _ => (k.1, k.2.1, k.2.2.1, k.2.2.2.1 + 1, k.2.2.2.2)
    | .send .. => (k.1, k.2.1, k.2.2.1, k.2.2.2.1, k.2.2.2.2.1 + 1, k.2.2.2.2.2)
    | .npush _ | .nrel _ => (k.1, k.2.1, k.2.2.1, k.2.2.2.1, k.2.2.2.2.1, k.2.2.2.2.2 + 1)
    | _ => k) (0, 0, 0, 0, 0, 0)

/-- The grids that a block's region loads go to. -/
def loadGrids (l : List Held) : List Nat := l.filterMap fun h => match h with | .load c => some (hGrid c.handle) | _ => none

/-- Room for every held effect of core n's block. -/
def State.heldRoom (s : State) (n : Nat) : Bool :=
  let c := s.core n
  let l := c.blk.held
  let k := needs l
  c.eng.length + k.1 ≤ 16 && c.island.queue.length + k.2.1 ≤ 16 &&
    (c.sections.filter fun t => t.2.used).length + k.2.2.1 ≤ 16 && c.vane.queue.length + k.2.2.2.1 ≤ 16 &&
    (k.2.2.2.2.1 == 0 || (s.sentBy n).length + k.2.2.2.2.1 ≤ 64) && (k.2.2.2.2.2 == 0 || k.2.2.2.2.2 ≤ s.bagRoom n) &&
    (loadGrids l).all fun g => s.loadsDue n g + loadsInto l g ≤ 16

/-- The block of core n stands at a wait form whose guard is true. -/
def Blk.atWait (b : Blk) : Bool :=
  match b.words[b.idx]? with
  | none => false
  | some w => (match decodeCore w with | .ok i => isWait i | .error _ => false) &&
      ((b.w.getP (w.extractLsb' 53 3)).getLsbD 0 ^^ w.getLsbD 52)

/-- The block of core n waits for room: behind its instructions, or before its wait form. -/
def State.reserving (s : State) (n : Nat) : Bool :=
  let b := (s.core n).blk
  b.isOpen && (b.idx ≥ b.words.length || b.atWait) && b.wait == .none && !b.closing && !b.granted && !s.heldRoom n

/-! ## Interrupts (19 R279, R282) -/

/-- The core stands between two blocks. -/
def Core.between (c : Core) : Bool :=
  !c.blk.isOpen && !c.inTrap && c.pendTrap.isNone && (c.run == .running || c.run == .halted || c.run == .dispatch)

/-- The block that would have run next: 0 in dispatch with no pair claimed. -/
def Core.resume (c : Core) : W64 := if c.run == .dispatch then 0 else c.pc

/-- Core n takes the interrupt it has to take, between blocks or while its block waits for room. With an answer outstanding it takes
none yet, and only gives the block up (07 R133, 19 R282). -/
def State.takeInterrupt (s : State) (n : Nat) : State :=
  let c := s.core n
  match c.irq with
  | none => s
  | some i =>
    if s.outstanding n && c.between then s
    else if s.outstanding n && s.reserving n then s.discard n
    else if (c.between && c.poisonTrap.isEmpty) || s.reserving n then
      s.takeTrap n { code := 0x80 + i, lvl := 0, async := true, tval := c.tpend.setWidth 64, tblock := c.resume }
    else s

/-- INTERRUPT_TAKEN. -/
def execInterruptTaken (n : CoreNum) (s : State) : Out := .next (s.takeInterrupt n.toNat)

/-! ## Remote loads (24 R333) -/

/-- REMOTE_LOAD_TIMEOUT: a remote load, or a fetch, without its reply for 2^24 cycles discards the block with code 0x18. -/
def execRemoteLoadTimeout (n : CoreNum) (s : State) : Out :=
  let n := n.toNat
  let c := s.core n
  .next (match c.rreq, s.overdue (.core n) with
    | some (_, _, va), some _ =>
      if c.inTrap then
        (s.dropReads n).doubleFault n
          { code := fld c.regs.tcause.toNat 7 0, lvl := fld c.regs.tcause.toNat 14 12, async := c.regs.tcause.getLsbD 15,
            tval := c.regs.tval, tblock := c.regs.tblock } 0x18 0
      else s.faultAt n 0x18 0 va
    | _, _ => s)

/-! ## Write-backs (07 R122, 17 R252) -/

/-- L1_WRITE_BACK: a dirty line of a core sets out for its home. -/
def execL1WriteBack (n : CoreNum) (line : BitVec 45) (s : State) : Out :=
  let c := s.core n.toNat
  .next (match Sp.find? c.l1 line.toNat with
    | some l => if l.dirty = 0 then s else s.setCore n.toNat { c with l1 := Sp.put c.l1 line.toNat { l with sent := true } }
    | none => s)

/-- LINE_WRITE: a write-back that is on its way reaches its home and is performed at one instant. -/
def execLineWrite (n : CoreNum) (line : BitVec 45) (s : State) : Out :=
  .next (match Sp.find? (s.core n.toNat).l1 line.toNat with
    | some l => if l.sent then s.l1WriteBack n.toNat line.toNat else s
    | none => s)

/-! ## Dispatch (15 R237, R238) -/

/-- BAGCTL.en of a core. -/
def Core.bagEn (c : Core) : Bool := c.bagctl.getLsbD 63

/-- A core in dispatch with nothing to take first takes an entry; it waits where an answer to x1 or x2 is outstanding (07 R133),
and, as a release that a push of it may be and for the walks it makes, for the core's earlier writes (15 R235, 21 R301). -/
def State.dispatch (s : State) (n : Nat) : State :=
  let c := s.core n
  if c.run == .dispatch && c.between && c.bagEn && c.irq.isNone && c.poisonTrap.isEmpty && !s.awaits n 1 && !s.awaits n 2 &&
      s.settled n false && !s.unacked (.core n) && c.rreq.isNone && !c.walkWait then
    s.dispatchStep n
  else s

/-- DISPATCH. -/
def execDispatch (n : CoreNum) (s : State) : Out := .next (s.dispatch n.toNat)

/-! ## Errors (27 R376, R377) -/

/-- Count an uncorrectable sector of a channel. -/
def State.countUe (s : State) (h : Nat) : State :=
  { s with chans := Sp.set Chan.reset s.chans (chanOf h) { s.chan (chanOf h) with ue := satAdd 16 (s.chan (chanOf h)).ue 1 } }

/-- A unit of memory shows an uncorrectable error: its marker is set (19 R291), and a GDDR-7 sector is counted. -/
def State.memError (s : State) (h : Nat) : State :=
  let fitted := match space h with
    | .floor => true
    | .gddr => s.chanPresent (chanOf h)
    | .crown => s.corePresent ((h - crownBase) / 0x600000)
    | .pad => s.corePresent ((h - padBase) / 2 ^ 19)
    | _ => false
  if !fitted then s else
  let s := { s with marks := Sp.set false s.marks (unitBase h) true }
  if space h == .gddr then s.countUe h else s

/-- A correctable error of a GDDR-7 sector is corrected and counted. -/
def State.corrected (s : State) (h : Nat) : State :=
  if space h == .gddr then
    { s with chans := Sp.set Chan.reset s.chans (chanOf h) { s.chan (chanOf h) with ce := satAdd 32 (s.chan (chanOf h)).ce 1 } }
  else s

/-- PATROL: the controller of a channel reads a sector; one that it cannot correct is marked and counted. Data of a clean sector
does not change. -/
def execPatrol (sector : BitVec 47) (bad : Bool) (s : State) : Out :=
  let h := sector.toNat * 32
  .next (if space h == .gddr && s.chanPresent (chanOf h) && bad then s.memError h else s)

/-- An error in a register (27 Table 27.1): it stays marked until it is written. x0 and p0 have no store. -/
def State.regError (s : State) (n r : Nat) : State :=
  let c := s.core n
  if r == 0 || r == 128 || r ≥ 136 || (96 ≤ r && r < 128) then s else
  let f := fun (q : Regs) => { q with bad := Sp.put q.bad r true }
  s.setCore n { c with regs := f c.regs, blk := if c.blk.isOpen then { c.blk with w := f c.blk.w } else c.blk }

/-- An error in an L1 line's data: dirty bytes carry the marker home, a clean line is fetched again. -/
def State.l1Error (s : State) (n line unit : Nat) : State :=
  let c := s.core n
  match Sp.find? c.l1 line with
  | none => s
  | some l =>
    if l.dirty.extractLsb' (8 * (unit % 16)) 8 = 0 then
      if l.dirty = 0 then s.setCore n { c with l1 := Sp.erase c.l1 line } else s.l1Fill n line l.key
    else s.setCore n { c with l1 := Sp.put c.l1 line { l with marks := l.marks ||| (1#16 <<< (unit % 16)) } }

/-- An error in an L1 line's tag: the line is dropped, its dirty bytes written home poisoned. -/
def State.l1TagError (s : State) (n line : Nat) : State :=
  let c := s.core n
  match Sp.find? c.l1 line with
  | none => s
  | some l => (s.setCore n { c with l1 := Sp.put c.l1 line { l with marks := 0xFFFF } }).l1Drop n line

/-- An error in an L2 line: a clean line is fetched again, a dirty one carries the sector's marker. -/
def State.l2Error (s : State) (line sector : Nat) : State :=
  match Sp.find? s.l2 line with
  | none => s
  | some l =>
    if l.dirty then { s with l2 := Sp.put s.l2 line { l with marks := l.marks ||| (1#4 <<< (sector % 4)) } }
    else { s with l2 := Sp.erase s.l2 line }

/-- An error in an L2 line's tag: the line is dropped, a dirty one written home poisoned. -/
def State.l2TagError (s : State) (line : Nat) : State :=
  match Sp.find? s.l2 line with
  | none => s
  | some l => { s with l2 := Sp.put s.l2 line { l with marks := 0xF } }.l2Evict line

/-- An error in a token on a link, or at the head of a queue: the token is poisoned (09 R155). -/
def State.linkError (s : State) (e src : Nat) : State :=
  let x := s.elem e
  match Sp.find? x.links src with
  | some t => s.setElem e { x with links := Sp.put x.links src { t with poison := true } }
  | none => s
def State.queueError (s : State) (e i : Nat) : State :=
  let x := s.elem e
  match x.queues.getD i [] with
  | t :: rest => s.setElem e { x with queues := x.queues.set i ({ t with poison := true } :: rest) }
  | [] => s

/-- An error in a token of a slot's matching store. -/
def State.storeError (s : State) (e sl k i : Nat) : State :=
  let v := s.slot e sl
  match v.entries[k]? with
  | none => s
  | some q =>
    let hit := fun (l : List Arrived) => match l with
      | a :: t => { a with tok := { a.tok with poison := true } } :: t
      | [] => []
    s.setSlot e sl { v with entries := v.entries.set k { q with toks := q.toks.set i (hit (q.toks.getD i [])) } }
/-- An error in the k-th token of a list. -/
def poisonAt (l : List Token) (k : Nat) : List Token := l.modify k fun t => { t with poison := true }
/-- An error in a token that an entry or an exit side holds of a colour, that a receive end holds (25 R349), or at the host egress. -/
def State.sideError (s : State) (exit : Bool) (key k : Nat) : State :=
  if exit then
    if (Sp.get [] s.exitq key).isEmpty then s else { s with exitq := Sp.put s.exitq key (poisonAt (Sp.get [] s.exitq key) k) }
  else
    let l := Sp.get [] s.entryq key
    if l.isEmpty then s else { s with entryq := Sp.put s.entryq key (l.modify k fun t => ({ t.1 with poison := true }, t.2)) }
def State.placeError (s : State) (i c k : Nat) : State :=
  let e := s.chanEnd i
  let l := Sp.get [] e.places c
  if l.isEmpty then s else s.setEnd i { e with places := Sp.put e.places c (poisonAt l k) }
def State.egressError (s : State) (k : Nat) : State :=
  { s with egress := s.egress.modify k fun p => (p.1, { p.2 with poison := true }) }

/-! ## Clock and power (28 R383, R384) -/

/-- THROTTLE: there is an excess, which lowers the clock, and lowers it again once it has lasted for 10 ms. -/
def execThrottle (s : State) : Out :=
  let t0 := s.excess.getD s.now
  let s := { s with excess := some t0 }
  .next (match s.clock with
    | 0 => { s with clock := 1, clockAt := s.now }
    | 1 => if (s.now - t0).toNat ≥ 10000000 then { s with clock := 2, clockAt := s.now } else s
    | _ => s)

/-- The excess ends. -/
def State.belowLimits (s : State) : State := if s.excess.isSome then { s with excess := none, clockEx := s.now } else s

/-- THROTTLE_RESTORE: one step up after 100 ms below both limits. -/
def execThrottleRestore (s : State) : Out :=
  .next (if s.clock != 0 && s.excess.isNone && (s.now - s.clockEx).toNat ≥ 100000000 && (s.now - s.clockAt).toNat ≥ 100000000 then
    { s with clock := s.clock - 1, clockAt := s.now } else s)

/-- What outlives the loss of every rail: the retirement table, the disable mask and the certificate slots (R384). The world's
agenda and the free values are the model's own (log 4). -/
def State.kept (s : State) (t : State) : State :=
  { t with retired := s.retired, disable := s.disable, trust := { t.trust with chains := s.trust.chains, keys := s.trust.keys },
           agenda := s.agenda, free := s.free, lacks := s.lacks }

/-- THERMAL_TRIP: every rail is removed. -/
def execThermalTrip (s : State) : Out := .next (s.kept { State.reset with powered := false })

/-- COLD_RESET (R385): marked channels are not trained, on-package memory is zero, every core is held in reset; until
its last step SPDM requests are answered Busy. -/
def execColdReset (s : State) : Out := .next (s.kept { State.reset with untrained := s.disable, booting := true })

/-- A cold reset that ends in its first step: the firmware does not start, so that no channel and no port comes up and every SPDM
request is answered Busy (R385). -/
def State.coldRefused (s : State) : State :=
  s.kept { State.reset with untrained := BitVec.allOnes 128, booting := true, refused := true }

/-! ## Time -/

/-- Dirty lines are home at the latest 65,536 cycles after the first store that made them dirty (17 R252). -/
def State.writeBackOld (s : State) : State :=
  s.cores.foldl (fun s c => c.2.l1.foldl (fun s l =>
    if l.2.dirty != 0 && s.cycle - l.2.since ≥ 65536 then s.l1WriteBack c.1 l.1 else s) s) s

/-- n cycles pass. -/
def State.tick (s : State) (n : Nat) : State := ((s.advance n).tickDoldrums n).writeBackOld

end Sys2Proof.Machine
end

