-- ==== Sys2Proof/Machine/Vanes.lean ====
section
/-!
DEFINITION. The vane unit and the VANE element (23): scoring, steering, halting a sequence, the forms VNSET, STEERSET and VNRD, and
the event VANE_COMMAND_PERFORM.
-/
namespace Sys2Proof.Machine

/-! ## The unit as a row sees it (23 R318, R327) -/

/-- One slot of a bank of vectors. -/
def slotVector (m : Sparse (BitVec 16)) (k : Nat) : Sparse (BitVec 16) :=
  (m.filter fun c => c.1 / 4096 == k).map fun c => (c.1 % 4096, c.2)

/-- The state that a row of vane v works with. -/
def VaneUnit.view (u : VaneUnit) (v : Nat) : VaneView :=
  { cfg := Sp.get 0 u.cfg v,
    prb := (List.range 8).map fun i => Sp.get 0 u.prb (v * 8 + i),
    probes := (List.range 8).map fun k => (slotVector u.probe k, Sp.get false u.probeBad k),
    steer := (List.range 8).map fun k => (slotVector u.steer k, Sp.get false u.steerBad k) }

def VaneView.en (w : VaneView) : Bool := w.cfg.getLsbD 63
def VaneView.nprobe (w : VaneView) : Nat := fld w.cfg.toNat 62 59
def VaneView.layer (w : VaneView) : Nat := fld w.cfg.toNat 51 44
def VaneView.core (w : VaneView) : Nat := fld w.cfg.toNat 43 34
def VaneView.eps (w : VaneView) : Nat := fld w.cfg.toNat 31 0
def VaneView.thr (w : VaneView) (j : Nat) : Nat := fld (w.prb.getD j 0).toNat 63 32
def VaneView.sense (w : VaneView) (j : Nat) : Bool := (w.prb.getD j 0).getLsbD 31
def VaneView.slot (w : VaneView) (j : Nat) : Nat := fld (w.prb.getD j 0).toNat 2 0
/-- The vector and poison mark of the slot of probe j. -/
def VaneView.probe (w : VaneView) (j : Nat) : Sparse (BitVec 16) × Bool := w.probes.getD (w.slot j) ([], false)

/-- n, v and tap of a VANE element (23 R321). -/
def vaneN (c : ElemCfg) : Nat := fld c.const.toNat 31 20 + 1
def vaneBase (c : ElemCfg) : Nat := fld c.const.toNat 19 0
def vaneNum (c : ElemCfg) : Nat := c.opx.toNat % 4
def vaneTap (c : ElemCfg) : Bool := c.opx.getLsbD 2

/-! ## Scores (23 R324) -/

/-- The values of a row, as words of its lanes; a bubble is no value. -/
def rowValues (fmt : Nat) (toks : List Token) : List Nat :=
  (toks.filter fun t => !t.bubble).flatMap fun t => (List.range (lanes fmt)).map fun i => laneOf fmt i t.value.toNat

/-- A finite value as a multiple of 2^-149, which every finite FP32 and BF16 value is. -/
def fixed (x : Fp.Val) : Int := match x with | .fin s m e => Fp.scaled s m e (-149) | _ => 0

/-- Σ z[k] × P[k] as a multiple of 2^-298, and Σ z[k]² likewise, from place k on. -/
def dotFrom (p : Sparse (BitVec 16)) : Nat → List Fp.Val → Int
  | _, [] => 0
  | k, z :: rest => fixed z * fixed (Fp.unpack .bf16 (Sp.get 0 p k).toNat) + dotFrom p (k + 1) rest
def sumSquares (zs : List Fp.Val) : Int := zs.foldl (fun a z => a + fixed z * fixed z) 0

/-- A value of the probe vector that is infinite or NaN meets the row: the score by R40. -/
def dotSpecial (p : Sparse (BitVec 16)) : Nat → List Fp.Val → Fp.Val
  | _, [] => .fin false 0 0
  | k, z :: rest => Fp.add 0 (Fp.mul z (Fp.unpack .bf16 (Sp.get 0 p k).toNat)) (dotSpecial p (k + 1) rest)

/-- The FP32 word of a score: tap 0, or tap 1 with a row length n and the word of ε. -/
def vaneScore (tap : Bool) (n eps : Nat) (p : Sparse (BitVec 16)) (zs : List Fp.Val) : Nat :=
  if zs.any fun z => !Fp.isFin z then Fp.nanRaw .f32 else
  let special := p.any fun c => c.1 < n && !Fp.isFin (Fp.unpack .bf16 c.2.toNat)
  let a := dotFrom p 0 zs
  if !tap then
    if special then (Fp.roundTo .f32 0 false (dotSpecial p 0 (zs ++ List.replicate (n - zs.length) (.fin false 0 0))) false).raw
    else (Fp.roundMag .f32 0 false (a < 0) a.natAbs (-298) false).raw
  else
    -- s² = a² · 2^-596 · n · 2^298 / d, with d = Σ z² + n ε as a multiple of 2^-298
    let d := (sumSquares zs + (n : Int) * fixed (Fp.unpack .f32 eps) * 2 ^ 149).natAbs
    if d == 0 then Fp.nanRaw .f32
    else if special then (Fp.roundTo .f32 0 false (dotSpecial p 0 (zs ++ List.replicate (n - zs.length) (.fin false 0 0))) false).raw
    else
      let k := 160 + Nat.log2 d
      let num := (a.natAbs * a.natAbs * n) <<< (2 * k)
      let r := Fp.isqrt (num / d)
      (Fp.roundMag .f32 0 false (a < 0) r (-149 - k) (r * r * d != num)).raw

/-- A score crosses a threshold (23 Table 23.3). -/
def crosses (sense : Bool) (score thr : Nat) : Bool :=
  Fp.cond (if sense then 2 else 4) (Fp.unpack .f32 score) (Fp.unpack .f32 thr)

/-! ## Steering (23 R325) -/

/-- A value with α × S added, rounded once. -/
def steerLane (fmt alpha : Nat) (s z : Nat) : Nat :=
  let F := Fp.ofTy (laneTy fmt)
  (Fp.roundTo F 0 false (Fp.fma 0 (Fp.unpack .f32 alpha) (Fp.unpack .bf16 s) (Fp.unpack F z)) false).raw

/-- The tokens of a row steered by a vector; k is the place of the next value. -/
def steerRow (fmt alpha : Nat) (vec : Sparse (BitVec 16)) : Nat → List Token → List Token
  | _, [] => []
  | k, t :: rest =>
    if t.bubble then t :: steerRow fmt alpha vec k rest
    else
      let v := joinLanes fmt ((List.range (lanes fmt)).map fun i =>
        steerLane fmt alpha (Sp.get 0 vec (k + i)).toNat (laneOf fmt i t.value.toNat))
      { t with value := w32 v } :: steerRow fmt alpha vec (k + lanes fmt) rest

/-- The row as a steering word leaves it: steered when en = 1 and its reserved bits are zero; poisoned as well when the slot
is (23 Table 23.4). -/
def VaneView.steered (w : VaneView) (fmt word : Nat) (toks : List Token) : List Token :=
  if bitAt word 3 && fld word 31 4 == 0 then
    let q := w.steer.getD (fld word 2 0) ([], false)
    (steerRow fmt (fld word 63 32) q.1 0 toks).map fun t => { t with poison := t.poison || q.2 }
  else toks

/-! ## The end of a row (23 R323, R326) -/

/-- Depth of a node below the root: the parents, each below its own node. -/
def nodeDepth (q : SeqDesc) : Nat → Nat → Option Nat
  | 0, _ => none
  | k + 1, n =>
    if n == 0 then some 0
    else if q.parent n < n then (nodeDepth q k (q.parent n)).map (· + 1)
    else none

/-- Position(D, i): none for a closed or malformed descriptor, or a token that no step of it has. -/
def SeqDesc.position (q : SeqDesc) (iter : Nat) : Option Nat :=
  if !q.isOpen || q.poison || q.reserved then none
  else if q.tree then
    if iter / 64 % 256 != q.step || iter % 64 > q.nm1 then none
    else (nodeDepth q 64 (iter % 64)).map fun d => (q.pos + d) % 2 ^ 32
  else some (plainPos q.pos iter)

/-- What a row's end found to report. -/
structure Crossing where
  code : Nat
  pos : Nat
  score : Nat
  thr : Nat
  idx : Nat
  mask : Nat
  unscored : Bool

/-- The record of a sequence trap and tpend.seq of the vane's core (23 R326, Table 23.6). -/
def State.vaneReport (s : State) (e sl : Nat) (t : Token) (w : VaneView) (x : Crossing) : State :=
  let v := s.slot e sl
  let pos := gridPos v.region e
  let s := s.recordAt (elemCore e)
    { code := x.code, kind := 7, colour := t.colour.toNat, ctx := t.context.toNat, iter := t.iter.toNat, core := elemCore e,
      slot := sl, row := pos.1, col := pos.2, op := v.op.toNat, handle := v.region,
      addr := w64 (descVa (vaneBase v.cfg) t.context.toNat), opnd0 := w64 (x.score * 2 ^ 32 + x.pos),
      opnd1 := w64 (x.thr * 2 ^ 32 + w.layer * 2 ^ 8 + vaneNum v.cfg * 2 ^ 4 + x.idx),
      detail := w64 (b2n x.unscored * 2 ^ 8 + x.mask) }
  s.post w.core 4

/-- Add to VCNTv (23 Table 23.5). -/
def State.vaneCount (s : State) (n v : Nat) (scored crossed unscored : Bool) : State :=
  let c := s.core n
  let k := (Sp.get 0 c.vane.cnt v).toNat
  let k' := satAdd 32 (fld k 63 32) (b2n scored) * 2 ^ 32 + satAdd 16 (fld k 31 16) (b2n crossed) * 2 ^ 16 +
    satAdd 16 (fld k 15 0) (b2n unscored)
  s.setCore n { c with vane := { c.vane with cnt := Sp.set 0 c.vane.cnt v (w64 k') } }

/-- The row leaves, in arrival order. -/
def State.emitRow (s : State) (e sl : Nat) (k : Key) (poison : Bool) (toks : List Token) : State :=
  let v := s.slot e sl
  let s := s.setRow e sl k .none
  s.owe e sl (toks.map fun t => (false, { t with poison := t.poison || poison, gen := v.gen }))

/-- Halt: the bank minimum of the position, then the report (23 R326). -/
def State.vaneHalt (s : State) (e sl : Nat) (t : Token) (w : VaneView) (q : SeqDesc) (x : Crossing) : State :=
  ((s.amoAt q.tr.home 4 fun old => if x.pos < old then x.pos else old).1.vaneReport e sl t w x).vaneCount (elemCore e)
    (vaneNum (s.slot e sl).cfg) false (!x.unscored) x.unscored

/-- Bytes that a row's end reads: at their home, as an M-element does (R177), or as another device has answered; while they are still
to come, what to ask for. -/
def State.rowBytes (s : State) (far : Sparse (Byte × Bool)) (t : Tr) (va n : Nat) : Except XF (List Byte × Bool) :=
  if space t.home == .remote then
    let l := (List.range n).map fun i => Sp.find? far (t.home + i)
    if l.all (·.isSome) then .ok (l.map fun b => (b.getD (0, false)).1, l.any fun b => (b.getD (0, false)).2)
    else .error (.remote t.home n (w64 va))
  else .ok (s.readHomeN t.key t.home n, s.anyPoison t.home n)

/-- A sequence descriptor as a vane reads it. -/
def State.vaneDesc (s : State) (far : Sparse (Byte × Bool)) (e base c ctx : Nat) (wr : Bool) : Except XF SeqDesc :=
  let va := descVa base ctx
  match s.mAccess e c va 128 true wr with
  | .error x => .error x
  | .ok t =>
    match s.rowBytes far t va 128 with
    | .error x => .error x
    | .ok r => .ok (SeqDesc.of t va r.1 r.2)

/-- The steering word of a context, read through the colour at U; a poisoned word is a fault of the access. -/
def State.readSteer (s : State) (far : Sparse (Byte × Bool)) (e base c ctx : Nat) : Except XF Nat :=
  let va := base * 2 ^ 25 + 0x20000 + 8 * ctx
  match s.mAccess e c va 8 true false with
  | .error x => .error x
  | .ok t =>
    match s.rowBytes far t va 8 with
    | .error x => .error x
    | .ok (bs, bad) => if bad then .error (.fault 0x0B 0 (w64 va)) else .ok (bytesNat bs)

/-- RowEnd of the tokens of one tag (23 R323). Where another device is still to answer, the row waits; `late`: its answer is overdue, a
fault of the access (09 R167). -/
def State.rowEnd (s : State) (e sl : Nat) (k : Key) (w : VaneView) (toks : List Token) (far : Sparse (Byte × Bool)) (late : Bool) : State :=
  let v := s.slot e sl
  let t := toks.headD blankTok
  let c := t.colour.toNat
  let x := t.context.toNat
  let n := vaneN v.cfg
  let num := vaneNum v.cfg
  let fmt := v.cfg.fmt.toNat
  let none' : Crossing := { code := 0x67, pos := 0, score := 0, thr := 0, idx := 0, mask := 0, unscored := true }
  let lost := fun (code p : Nat) =>
    ((s.vaneReport e sl t w { none' with code := code, pos := p }).vaneCount (elemCore e) num false false true).emitRow e sl k true toks
  -- an access that did not complete: the row is unscored without a halt, or waits for another device
  let stopped := fun (err : XF) (p : Nat) =>
    match err with
    | .remote h len _ =>
      if late then lost 0x52 p
      else { s with serial := s.serial + 1 }.setRow e sl k (.vane toks w (some s.serial) far) |>.sendRead (.row e sl s.serial) c h len
    | _ => lost err.code.1 p
  -- the halt word needs permission to write and a home at a floor bank (07 R132); without them there is no halt
  let halted := fun (s0 : State) (q : SeqDesc) (h : Crossing) =>
    match s.vaneDesc far e (vaneBase v.cfg) c x true with
    | .error err => lost err.code.1 h.pos
    | .ok _ => if space q.tr.home != .floor then lost 0x19 h.pos else (s0.vaneHalt e sl t w q h).emitRow e sl k true toks
  match s.vaneDesc far e (vaneBase v.cfg) c x false with
  | .error err => stopped err 0
  | .ok q =>
    if q.poison then lost 0x0B 0 else
    match q.position t.iter.toNat with
    | none => s.emitRow e sl k true toks
    | some p =>
      if p ≥ q.halt then s.emitRow e sl k true toks else
      match s.readSteer far e (vaneBase v.cfg) c x with
      | .error err => stopped err p
      | .ok word =>
        let raws := rowValues fmt toks
        let zs := raws.map (Fp.unpack (Fp.ofTy (laneTy fmt)))
        let probes := List.range w.nprobe
        let scores := probes.map fun j => vaneScore (vaneTap v.cfg) n w.eps (w.probe j).1 zs
        let unscored := toks.any (·.poison) || raws.length > n || probes.any (fun j => (w.probe j).2) ||
          scores.any fun r => Fp.isNan (Fp.unpack .f32 r)
        if unscored then halted s q { none' with pos := p }
        else
          let s := s.vaneCount (elemCore e) num true false false
          let hits := probes.filter fun j => crosses (w.sense j) (scores.getD j 0) (w.thr j)
          match hits with
          | [] => s.emitRow e sl k false (w.steered fmt word toks)
          | j :: _ =>
            halted s q
              { code := 0x67, pos := p, score := scores.getD j 0, thr := w.thr j, idx := j,
                mask := hits.foldl (fun a i => a + 2 ^ i) 0, unscored := false }

/-- A read made for a row has been answered, or is overdue (09 R167). -/
def State.rowRead (s : State) (e sl : Nat) (v : ElemSlot) (a : Nat) : Option Bool :=
  match s.net.reads.find? fun r => r.who == .row e sl a with
  | none => some false
  | some r =>
    let rexp := (s.region v.region).rexp
    if s.cycle - r.time ≥ 2 ^ (if rexp == 0 then 20 else rexp) then some true else none

/-- A whole row that waited for another device goes on. -/
def State.vaneTurn (s : State) (e sl : Nat) : Option State :=
  let v := s.slot e sl
  v.entries.findSome? fun ent =>
    match ent.row with
    | .vane toks w (some a) far =>
      (s.rowRead e sl v a).map fun late => (s.giveUp (.row e sl a)).rowEnd e sl ent.key w toks far late
    | _ => none

/-- VANE: a row is held until its eor, then scored, halted or steered (23 R323 to R327). -/
def execVaneE (o : ElemCfg) (s : State) : Out :=
  elemTurn 0x48 o s State.vaneTurn fun s e sl ent =>
    let v := s.slot e sl
    let t := (v.operands ent).headD blankTok
    let held := match ent.row with
      | .vane toks w _ _ => some (toks, w)
      | .vanePass => none
      | _ =>
        let w := (s.core (elemCore e)).vane.view (vaneNum v.cfg)
        if w.en && !(t.bubble && t.eor) then some ([], w) else none
    if v.formatBad [t] then s.fireFault e sl ent 0x50 0 0 else
    match held with
    | none => (s.fireOut e sl ent [(false, { t with gen := v.gen })]).setRow e sl ent.key (if t.eor then .none else .vanePass)
    | some (toks, w) =>
      let s := s.consume e sl ent.key
      let toks := toks ++ [t]
      if t.eor then s.rowEnd e sl ent.key w toks [] false else s.setRow e sl ent.key (.vane toks w none [])

/-! ## The forms (23 R328, R329) -/

/-- A core that a VCFG word may name: present, of the partition, of the same owner tag. -/
def State.cfgBad (s : State) (w : W64) : Bool :=
  let n := w.toNat
  fld n 58 52 != 0 || fld n 33 32 != 0 || fld n 62 59 > 8 || bitAt n 31 ||
    !Fp.isFin (Fp.unpack .f32 (fld n 31 0)) || !s.sameOwner s.cur (fld n 43 34)
def prbBad (w : W64) : Bool := fld w.toNat 30 3 != 0 || Fp.isNan (Fp.unpack .f32 (fld w.toNat 63 32))

/-- The 8 KiB that a `.vec` form copies: alignment, then its pages, at S (18 R268). -/
def State.vaneSource (s : State) (va : W64) : Except XF (List Page) :=
  if va.toNat % 128 != 0 then .error (.fault 8 0 va)
  else s.sealedPages s.myColour va.toNat (s.pages s.cur s.myColour true false .r va.toNat 8192)

/-- A form's selector has no bit set at or above w (23 R329). -/
def selOk (b : W64) (w : Nat) : Bool := b.toNat < 2 ^ w

/-- VNSET. -/
def execVnset (o : RRR) (s : State) : Out :=
  checked o.g o.gs s fun s =>
    let a := s.x o.a
    let b := s.x o.b
    let bad := fun (v : W64) => (.error (.fault 0x42 0 v) : Except XF State)
    match o.func.toNat with
    | 0 =>
      if !selOk b 2 then bad b else if s.cfgBad a then bad a else .ok (s.hold (.vane (.cfg b.toNat a)))
    | 1 =>
      if !selOk b 5 then bad b else if prbBad a then bad a else .ok (s.hold (.vane (.prb (b.toNat % 4) (b.toNat / 4) a)))
    | _ =>
      if !selOk b 3 then bad b else
      match s.vaneSource a with
      | .error e => .error e
      | .ok ps => .ok (s.hold (.vane (.vec b.toNat ps a.toNat)))

/-- STEERSET. -/
def execSteerset (o : RRR) (s : State) : Out :=
  checked o.g o.gs s fun s =>
    let b := s.x o.b
    if !selOk b 3 then .error (.fault 0x42 0 b)
    else if o.func == 1 then .ok (s.hold (.vane (.steerClr b.toNat)))
    else
      match s.vaneSource (s.x o.a) with
      | .error e => .error e
      | .ok ps => .ok (s.hold (.vane (.steer b.toNat ps (s.x o.a).toNat)))

/-- VNRD. -/
def execVnrd (o : RRR) (s : State) : Out :=
  checked o.g o.gs s fun s =>
    let b := s.x o.b
    let u := s.me.vane
    if !selOk b (if o.func == 1 then 5 else 2) then .error (.fault 0x42 0 b)
    else .ok (s.setX o.d (match o.func.toNat with
      | 0 => Sp.get 0 u.cfg b.toNat
      | 1 => Sp.get 0 u.prb (b.toNat % 4 * 8 + b.toNat / 4)
      | _ => Sp.get 0 u.cnt b.toNat))

/-! ## Performing a command -/

/-- The byte at place k of an area as the unit sees it, the core's own stores included (06 R113), with its poison; none where it is still to come from another device. -/
def State.vaneByte (s : State) (n : Nat) (ps : List Page) (va k : Nat) : Option (Byte × Bool) :=
  let t := pageHome ps (va + k)
  if space t.home == .remote then Sp.find? (s.core n).vane.remote t.home
  else if space t.home == .gddr && s.isRetired t.home then some (0, true)
  else some (s.ownByte n t.key t.home)

/-- The vector of an area, and whether a byte was poisoned; none where bytes are still to come. -/
def State.vaneArea (s : State) (n : Nat) (ps : List Page) (va : Nat) : Option (List (BitVec 16) × Bool) :=
  let bs := (List.range 8192).map fun k => s.vaneByte n ps va k
  if bs.all (·.isSome) then
    let get := fun k => ((bs.getD k none).getD (0, false))
    some ((List.range 4096).map fun i => (get (2 * i + 1)).1 ++ (get (2 * i)).1, bs.any fun b => (b.getD (0, false)).2)
  else none

/-- A slot's vector in a bank of vectors. -/
def putVector (m : Sparse (BitVec 16)) (k : Nat) (l : List (BitVec 16)) : Sparse (BitVec 16) :=
  m.filter (fun c => c.1 / 4096 < k) ++
    ((List.range l.length).filterMap fun i =>
      match l[i]? with | some v => if v = 0 then none else some (k * 4096 + i, v) | none => none) ++
    m.filter (fun c => c.1 / 4096 > k)

/-- Ask for the first bytes of an area that another device holds and that have not come (17 R262). -/
def State.vaneAsk (s : State) (n : Nat) (ps : List Page) (va : Nat) : State :=
  match s.overdue (.vane n) with
  | some r =>
    let s := s.giveUp (.vane n)
    let c := s.core n
    s.setCore n { c with vane := { c.vane with
      remote := (List.range r.len).foldl (fun m k => Sp.put m (r.home + k) (0, true)) c.vane.remote } }
  | none =>
  if s.reading (.vane n) then s else
  match (List.range 8192).find? fun k => (s.vaneByte n ps va k).isNone with
  | none => s
  | some k => s.sendRead (.vane n) (s.core n).regs.colour.toNat (pageHome ps (va + k)).home (Nat.min 128 (4096 - (va + k) % 4096))

/-- The state of the unit after a command, where it can be performed. -/
def State.vaneApply (s : State) (n : Nat) (u : VaneUnit) : VaneCmd → Option VaneUnit
  | .cfg v w => some { u with cfg := Sp.set 0 u.cfg v w, cnt := Sp.erase u.cnt v }
  | .prb v i w => some { u with prb := Sp.set 0 u.prb (v * 8 + i) w }
  | .vec k ps va =>
    (s.vaneArea n ps va).map fun q => { u with probe := putVector u.probe k q.1, probeBad := Sp.set false u.probeBad k q.2, remote := [] }
  | .steer k ps va =>
    (s.vaneArea n ps va).map fun q => { u with steer := putVector u.steer k q.1, steerBad := Sp.set false u.steerBad k q.2, remote := [] }
  | .steerClr k => some { u with steer := putVector u.steer k [], steerBad := Sp.erase u.steerBad k }

/-- VANE_COMMAND_PERFORM: the unit performs its oldest command, or asks for what it needs from another device (23 R327,
R328). -/
def execVaneCommandPerform (n : CoreNum) (s : State) : Out :=
  let n := n.toNat
  let c := s.core n
  .next (match c.vane.queue with
    | [] => s
    | q :: rest =>
      match s.vaneApply n c.vane q with
      | some u => s.setCore n { c with vane := { u with queue := rest } }
      | none =>
        match q with
        | .vec _ ps va => s.vaneAsk n ps va
        | .steer _ ps va => s.vaneAsk n ps va
        | _ => s)

end Sys2Proof.Machine
end

