-- ==== Sys2Proof/Machine/Vector.lean ====
section
/-!
DEFINITION. Vector registers and lanes (05), vector converters and seeds (03).
-/
namespace Sys2Proof.Machine

/-! ## Lanes -/

/-- Lane l of a vector register (Table 05.1). -/
def lane (v : Line) (l : Nat) : W32 := v.extractLsb' (32 * l) 32
/-- The register with lane l as `f l` says. -/
def ofLanes (f : Nat → W32) : Line :=
  BitVec.ofNat 1024 ((List.range 32).foldl (fun a l => a + (f l).toNat * 2 ^ (32 * l)) 0)

/-- The scalar type code of one sub-lane of a lane type (Table 05.2). -/
def subTy (ty : Nat) : Nat :=
  match ty with
  | 0x11 => 0 | 0x12 => 1 | 0x13 => 2 | 0x14 => 3 | 0xD => 9 | 0xE => 0xA | t => t

/-- A lane whose sub-lane j of w bits is `f j` (modulo 2^w). -/
def ofSubs (w : Nat) (f : Nat → Nat) : W32 :=
  w32 ((List.range (32 / w)).foldl (fun a j => a + f j % 2 ^ w * 2 ^ (w * j)) 0)
def sub (w : Nat) (v : W32) (j : Nat) : Nat := v.toNat / 2 ^ (w * j) % 2 ^ w

/-- 05 R77: active lanes take `f`; the others 0 when z, else their old value. -/
def masked (m : W32) (z : Bool) (old : Line) (f : Nat → W32) : Line :=
  ofLanes fun l => if m.getLsbD l then f l else if z then 0 else lane old l

/-- The mask predicate of a VEC form (05 R77). -/
def State.mask (s : State) (o : VEC) : W32 := s.w.getP o.m

/-- A lane form: each active lane from the lane's index (05 R77, R79). -/
def laneForm (o : VEC) (s : State) (f : State → Nat → W32) : Out :=
  plain o.g o.gs s fun s => s.setV o.d (masked (s.mask o) o.z (s.v o.d) (f s))

/-- An integer lane form, sub-lane by sub-lane (05 R86). -/
def vintForm (o : VEC) (s : State) (f : Int → Int → Int) : Out :=
  let t := subTy o.ty.toNat
  let w := Fp.tyBits t
  laneForm o s fun s l => ofSubs w fun j =>
    let r := f (Fp.intOf t (sub w (lane (s.v o.a) l) j)) (Fp.intOf t (sub w (lane (s.v o.b) l) j))
    Fp.low w (if o.sat then Fp.clamp t r else r)

/-- A shift form: `.v` takes the count from vb, mod w; `.i` from imm8 (05 R86). -/
def vshiftForm (o : VEC) (s : State) (f : (w a k : Nat) → Nat) : Out :=
  let w := Fp.tyBits (subTy o.ty.toNat)
  laneForm o s fun s l => ofSubs w fun j =>
    f w (sub w (lane (s.v o.a) l) j) (if o.func == 1 then o.imm.toNat else sub w (lane (s.v o.b) l) j % w)

/-- A floating-point lane form, sub-lane by sub-lane, each rounded once (05 R87). -/
def vfpForm (o : VEC) (s : State) (f : Fp.Val → Fp.Val → Fp.Val → Fp.Val) : Out :=
  let fm := Fp.ofTy (subTy o.ty.toNat)
  let w := Fp.width fm
  laneForm o s fun s l => ofSubs w fun j =>
    let at' := fun (r : BitVec 6) => Fp.unpack fm (sub w (lane (s.v r) l) j)
    (Fp.roundTo fm o.rm.toNat false (f (at' o.a) (at' o.b) (at' o.c)) false).raw

/-! ## Integer lanes (05 R86) -/

def execVadd (o : VEC) (s : State) : Out := vintForm o s fun a b => a + b
def execVsub (o : VEC) (s : State) : Out := vintForm o s fun a b => a - b
def execVmul (o : VEC) (s : State) : Out := vintForm o s fun a b => a * b
def execVmin (o : VEC) (s : State) : Out := vintForm o s fun a b => if a ≤ b then a else b
def execVmax (o : VEC) (s : State) : Out := vintForm o s fun a b => if a ≤ b then b else a
/-- VAND, VOR and VXOR act on all 32 bits of each lane. -/
def execVand (o : VEC) (s : State) : Out := laneForm o s fun s l => lane (s.v o.a) l &&& lane (s.v o.b) l
def execVor (o : VEC) (s : State) : Out := laneForm o s fun s l => lane (s.v o.a) l ||| lane (s.v o.b) l
def execVxor (o : VEC) (s : State) : Out := laneForm o s fun s l => lane (s.v o.a) l ^^^ lane (s.v o.b) l
def execVshl (o : VEC) (s : State) : Out := vshiftForm o s fun _ a k => a * 2 ^ k
/-- VSHR is logical whatever the type's sign. -/
def execVshr (o : VEC) (s : State) : Out := vshiftForm o s fun _ a k => a / 2 ^ k
/-- VSAR is arithmetic whatever the type's sign. -/
def execVsar (o : VEC) (s : State) : Out := vshiftForm o s fun w a k =>
  if a ≥ 2 ^ (w - 1) then 2 ^ w - 1 - (2 ^ w - 1 - a) / 2 ^ k else a / 2 ^ k

/-! ## Floating-point lanes (05 R87) -/

def execVfadd (o : VEC) (s : State) : Out := vfpForm o s fun a b _ => Fp.add o.rm.toNat a b
def execVfsub (o : VEC) (s : State) : Out := vfpForm o s fun a b _ => Fp.add o.rm.toNat a (Fp.neg b)
def execVfmul (o : VEC) (s : State) : Out := vfpForm o s fun a b _ => Fp.mul a b
def execVfma (o : VEC) (s : State) : Out := vfpForm o s fun a b c => Fp.fma o.rm.toNat a b c
def execVfmin (o : VEC) (s : State) : Out := vfpForm o s fun a b _ => Fp.fmin a b
def execVfmax (o : VEC) (s : State) : Out := vfpForm o s fun a b _ => Fp.fmax a b

/-! ## Compares, selection, reductions, moves -/

/-- VCMP (05 R88): one predicate bit per lane; inactive lanes follow R77. -/
def execVcmp (o : VEC) (s : State) : Out :=
  plain o.g o.gs s fun s =>
    s.setP o.d (laneBits fun l =>
      if (s.mask o).getLsbD l then condTy o.ty.toNat o.func.toNat (lane (s.v o.a) l).toNat (lane (s.v o.b) l).toNat
      else !o.z && (s.p o.d).getLsbD l)

/-- VSEL (05 R89). -/
def execVsel (o : VEC) (s : State) : Out :=
  plain o.g o.gs s fun s =>
    s.setV o.d (ofLanes fun l => if (s.p o.c).getLsbD l then lane (s.v o.a) l else lane (s.v o.b) l)

/-- One level of the reduction tree (05 R90): an absent input passes the other on. -/
def reduceLevel {α : Type} (op : α → α → α) : List (Option α) → List (Option α)
  | x :: y :: t =>
    (match x, y with
      | none, y => y
      | x, none => x
      | some a, some b => some (op a b)) :: reduceLevel op t
  | l => l

/-- The five levels of pairs (05 R90). -/
def treeReduce {α : Type} (op : α → α → α) (l : List (Option α)) : Option α :=
  ((reduceLevel op (reduceLevel op (reduceLevel op (reduceLevel op (reduceLevel op l))))).headD none)

/-- VRED's operation on two FP32 words (Table 05.4). -/
def redFloat (fn rm : Nat) (a b : W32) : W32 :=
  let x := Fp.unpack .f32 a.toNat
  let y := Fp.unpack .f32 b.toNat
  let v := match fn with | 0 => Fp.add rm x y | 1 => Fp.fmin x y | _ => Fp.fmax x y
  w32 (Fp.roundTo .f32 (if fn == 0 then rm else 0) false v false).raw

/-- VRED's operation on two integers (Table 05.4); the sum is formed exactly. -/
def redInt (fn : Nat) (a b : Int) : Int :=
  match fn with
  | 0 => a + b
  | 1 => if a ≤ b then a else b
  | 2 => if a ≤ b then b else a
  | 3 => (Fp.low 32 a &&& Fp.low 32 b : Nat)
  | 4 => (Fp.low 32 a ||| Fp.low 32 b : Nat)
  | _ => (Fp.low 32 a ^^^ Fp.low 32 b : Nat)

/-- The result of VRED over the active lanes (05 R91, Table 05.4). -/
def redResult (fn ty rm : Nat) (sat : Bool) (m : W32) (v : Line) : W64 :=
  let lanes := (List.range 32).map fun l => if m.getLsbD l then some (lane v l) else none
  if ty == 8 then
    let empty : W32 := match fn with | 0 => 0 | 1 => 0x7F800000 | _ => 0xFF800000
    ((treeReduce (redFloat fn rm) lanes).getD empty).setWidth 64
  else
    let empty : Int := match fn with | 1 => Fp.tyMax ty | 2 => Fp.tyMin ty | 3 => 0xFFFFFFFF | _ => 0
    let r := (treeReduce (redInt fn) (lanes.map fun x => x.map fun v => Fp.intOf ty v.toNat)).getD empty
    extTy ty 32 (Fp.low 32 (if sat then Fp.clamp ty r else r))

/-- VRED (05 R90, R91). -/
def execVred (o : VEC) (s : State) : Out :=
  plain o.g o.gs s fun s =>
    s.setX o.d (redResult o.func.toNat o.ty.toNat o.rm.toNat o.sat (s.mask o) (s.v o.a))

/-- VPERM (05 R92). -/
def execVperm (o : VEC) (s : State) : Out := laneForm o s fun s l => lane (s.v o.a) ((lane (s.v o.b) l).toNat % 32)

/-- VBCAST `.x`, `.lane` (05 R93). -/
def execVbcast (o : VEC) (s : State) : Out :=
  laneForm o s fun s _ => if o.func == 1 then lane (s.v o.a) o.imm.toNat else (s.x o.a).setWidth 32

/-- VEXT (05 R94). -/
def execVext (o : VEC) (s : State) : Out :=
  plain o.g o.gs s fun s => s.setX o.d (extTy o.ty.toNat 32 (lane (s.v o.a) o.imm.toNat).toNat)

/-- VINS (05 R95). -/
def execVins (o : VEC) (s : State) : Out :=
  plain o.g o.gs s fun s =>
    s.setV o.d (ofLanes fun l => if l == o.imm.toNat then (s.x o.a).setWidth 32 else lane (s.v o.d) l)

/-! ## Converters and seeds (03) -/

/-- One element of VCVT: the vector so far with the element's count, and the next. -/
def vcvtStep (o : VEC) (src : Nat) (ws wd k : Nat) (acc : Nat × Regs) (j : Nat) : Nat × Regs :=
  let si := if wd ≥ ws then o.imm.toNat * k + j else j
  let di := if wd ≥ ws then j else o.imm.toNat * k + j
  let r := Fp.convert o.func.toNat o.ty.toNat o.rm.toNat o.sat (src / 2 ^ (ws * si) % 2 ^ ws)
  (setFld acc.1 (wd * di + wd - 1) (wd * di) r.1, acc.2.count r.2)

/-- VCVT: widening takes part `part` of va, narrowing writes part `part` of vd; counted per element (03 R51). -/
def execVcvt (o : VEC) (s : State) : Out :=
  plain o.g o.gs s fun s =>
    let ws := Fp.tyBits o.func.toNat
    let wd := Fp.tyBits o.ty.toNat
    let k := 1024 / Nat.max ws wd
    let start := if wd ≥ ws then 0 else (s.v o.d).toNat
    let r := (List.range k).foldl (vcvtStep o (s.v o.a).toNat ws wd k) (start, s.w)
    (s.setW r.2).setV o.d (BitVec.ofNat 1024 r.1)

/-- A vector seed form: active lanes take the seed and are counted (03 R48, R51). -/
def vseedForm (o : VEC) (s : State) (f : Nat → Nat × Option Nat) : Out :=
  plain o.g o.gs s fun s =>
    let m := s.mask o
    let r := (List.range 32).foldl (fun r l => if m.getLsbD l then r.count (f (lane (s.v o.a) l).toNat).2 else r) s.w
    let v := masked m o.z (s.v o.d) fun l => w32 (f (lane (s.v o.a) l).toNat).1
    (s.setW r).setV o.d v

def execVrsqs (o : VEC) (s : State) : Out := vseedForm o s Fp.rsqSeed
def execVrcps (o : VEC) (s : State) : Out := vseedForm o s Fp.rcpSeed

/-! ## Vector memory (05 R80 to R84) -/

/-- The mask of a vector memory form: func [18:16] (05 R80). -/
def State.memMask (s : State) (o : MEM) : W32 := s.w.getP (o.func.setWidth 3)
/-- z of a vector memory form: func [19]. -/
def memZ (o : MEM) : Bool := o.func.getLsbD 3

/-- Lane addresses of VLD and VST. -/
def State.lineAddr (s : State) (o : MEM) (l : Nat) : W64 := s.memAddr o + w64 (4 * l)

/-- Lane addresses of VGATH and VSCAT (05 R84). -/
def State.gatherAddr (s : State) (o : MEM) (l : Nat) : W64 :=
  let i : W32 := lane (s.v o.b) l
  let e : W64 := if o.ty == 4 then i.signExtend 64 else i.setWidth 64
  s.x o.a + (e <<< o.sh.toNat) + o.off.signExtend 64

/-- One lane of a vector load: the value that the lane, or another at its address, has read ahead, or a load (05 R80, R81, R82). -/
def State.loadLane (s : State) (va : W64) : Except XF W32 :=
  match Sp.find? s.blk.lanes va.toNat with
  | some v => .ok v
  | none =>
    match s.load va 4 with
    | .error e => .error e
    | .ok (_, bs) => .ok (w32 (bytesNat bs))

/-- Load the active lanes in ascending order: the lanes read so far, lowest lane last (05 R80, R83). -/
def State.loadLanes (s : State) (addr : Nat → W64) (m : W32) : List Nat → Except XF (List (Nat × W32))
  | [] => .ok []
  | l :: t =>
    if !m.getLsbD l then s.loadLanes addr m t else
    match s.loadLane (addr l) with
    | .error e => .error e
    | .ok v =>
      match s.loadLanes addr m t with
      | .error e => .error e
      | .ok r => .ok ((l, v) :: r)

/-- What has been read ahead ends with the instruction. -/
def State.lanesDone (s : State) : State := s.setBlk { s.blk with lanes := [] }

/-- A vector load: the active lanes from memory, the others by R77. -/
def vloadForm (o : MEM) (s : State) (addr : State → Nat → W64) : Out :=
  checked o.g o.gs s fun s =>
    match s.loadLanes (addr s) (s.memMask o) (List.range 32) with
    | .error e => .error e
    | .ok r => .ok (s.lanesDone.setV o.d (masked (s.memMask o) (memZ o) (s.v o.d) fun l => Sp.get 0 r l))

/-- A vector load of a lane ahead of the others: an access of its own, at its own instant (05 R81). A lane that does not complete
is read again with the instruction. -/
def State.loadAhead (s : State) (o : MEM) (addr : State → Nat → W64) (l : Nat) : State :=
  if !(s.memMask o).getLsbD l then s else
  match s.loadLane (addr s l) with
  | .error _ => s
  | .ok v => s.setBlk { s.blk with lanes := Sp.put s.blk.lanes (addr s l).toNat v }

/-- The stores of the active lanes in ascending order: where two lanes store to one word, the highest alone does (05 R82). -/
def State.storeLanes (s : State) (addr : Nat → W64) (v : Line) (m : W32) : List Nat → Except XF (List (Tr × W32))
  | [] => .ok []
  | l :: t =>
    if !m.getLsbD l then s.storeLanes addr v m t else
    match s.coreAccess (addr l).toNat 4 .w with
    | .error e => .error e
    | .ok tr =>
      match s.storeLanes addr v m t with
      | .error e => .error e
      | .ok r => .ok (if r.any fun q => q.1.home == tr.home then r else (tr, lane v l) :: r)

def vstoreForm (o : MEM) (s : State) (addr : State → Nat → W64) : Out :=
  checked o.g o.gs s fun s =>
    match s.storeLanes (addr s) (s.v o.d) (s.memMask o) (List.range 32) with
    | .error e => .error e
    | .ok r => .ok (s.holdAll (r.map fun q => .store q.1.home (leBytes 4 q.2.toNat) (storeHow q.1 false) q.1.key))

/-- VLD (05 R83). -/
def execVld (o : MEM) (s : State) : Out := vloadForm o s fun s => s.lineAddr o
/-- VST (05 R83). -/
def execVst (o : MEM) (s : State) : Out := vstoreForm o s fun s => s.lineAddr o
/-- VGATH (05 R84). -/
def execVgath (o : MEM) (s : State) : Out := vloadForm o s fun s => s.gatherAddr o
/-- VSCAT (05 R84). -/
def execVscat (o : MEM) (s : State) : Out := vstoreForm o s fun s => s.gatherAddr o

end Sys2Proof.Machine
end

