-- ==== Sys2Proof/Machine/Dispatch.lean ====
section
/-!
DEFINITION. One arm for each instruction: the call of its meaning.
-/
namespace Sys2Proof.Machine

/-- What an instruction does in a state. -/
def exec (i : Instr) (s : State) : Host.Outcome State Fault Refusal :=
  match i with
  | .add o => Sys2Proof.Machine.execAdd o s
  | .sub o => Sys2Proof.Machine.execSub o s
  | .mul o => Sys2Proof.Machine.execMul o s
  | .mulh o => Sys2Proof.Machine.execMulh o s
  | .div o => Sys2Proof.Machine.execDiv o s
  | .rem o => Sys2Proof.Machine.execRem o s
  | .and o => Sys2Proof.Machine.execAnd o s
  | .or o => Sys2Proof.Machine.execOr o s
  | .xor o => Sys2Proof.Machine.execXor o s
  | .shl o => Sys2Proof.Machine.execShl o s
  | .shr o => Sys2Proof.Machine.execShr o s
  | .sar o => Sys2Proof.Machine.execSar o s
  | .min o => Sys2Proof.Machine.execMin o s
  | .max o => Sys2Proof.Machine.execMax o s
  | .cmp o => Sys2Proof.Machine.execCmp o s
  | .sel o => Sys2Proof.Machine.execSel o s
  | .pcmp o => Sys2Proof.Machine.execPcmp o s
  | .plog o => Sys2Proof.Machine.execPlog o s
  | .pmov o => Sys2Proof.Machine.execPmov o s
  | .lreg o => Sys2Proof.Machine.execLreg o s
  | .fadd o => Sys2Proof.Machine.execFadd o s
  | .fsub o => Sys2Proof.Machine.execFsub o s
  | .fmul o => Sys2Proof.Machine.execFmul o s
  | .fdiv o => Sys2Proof.Machine.execFdiv o s
  | .fma o => Sys2Proof.Machine.execFma o s
  | .fmin o => Sys2Proof.Machine.execFmin o s
  | .fmax o => Sys2Proof.Machine.execFmax o s
  | .fcmp o => Sys2Proof.Machine.execFcmp o s
  | .fcvt o => Sys2Proof.Machine.execFcvt o s
  | .frsqs o => Sys2Proof.Machine.execFrsqs o s
  | .frcps o => Sys2Proof.Machine.execFrcps o s
  | .cpy o => Sys2Proof.Machine.execCpy o s
  | .cpy2 o => Sys2Proof.Machine.execCpy2 o s
  | .mfc o => Sys2Proof.Machine.execMfc o s
  | .colqRd o => Sys2Proof.Machine.execColqRd o s
  | .colqOpen o => Sys2Proof.Machine.execColqOpen o s
  | .colqClose o => Sys2Proof.Machine.execColqClose o s
  | .rpurge o => Sys2Proof.Machine.execRpurge o s
  | .rload o => Sys2Proof.Machine.execRload o s
  | .rarm o => Sys2Proof.Machine.execRarm o s
  | .rcalm o => Sys2Proof.Machine.execRcalm o s
  | .rtear o => Sys2Proof.Machine.execRtear o s
  | .rinj o => Sys2Proof.Machine.execRinj o s
  | .vnset o => Sys2Proof.Machine.execVnset o s
  | .steerset o => Sys2Proof.Machine.execSteerset o s
  | .vnrd o => Sys2Proof.Machine.execVnrd o s
  | .msend o => Sys2Proof.Machine.execMsend o s
  | .mmask o => Sys2Proof.Machine.execMmask o s
  | .munmask o => Sys2Proof.Machine.execMunmask o s
  | .mrecvPop o => Sys2Proof.Machine.execMrecvPop o s
  | .mrecvCfg o => Sys2Proof.Machine.execMrecvCfg o s
  | .mrecvSt o => Sys2Proof.Machine.execMrecvSt o s
  | .mrecvFree o => Sys2Proof.Machine.execMrecvFree o s
  | .addi o => Sys2Proof.Machine.execAddi o s
  | .andi o => Sys2Proof.Machine.execAndi o s
  | .ori o => Sys2Proof.Machine.execOri o s
  | .xori o => Sys2Proof.Machine.execXori o s
  | .shli o => Sys2Proof.Machine.execShli o s
  | .shri o => Sys2Proof.Machine.execShri o s
  | .sari o => Sys2Proof.Machine.execSari o s
  | .movi o => Sys2Proof.Machine.execMovi o s
  | .movhi o => Sys2Proof.Machine.execMovhi o s
  | .br o => Sys2Proof.Machine.execBr o s
  | .brr o => Sys2Proof.Machine.execBrr o s
  | .call o => Sys2Proof.Machine.execCall o s
  | .callr o => Sys2Proof.Machine.execCallr o s
  | .ret o => Sys2Proof.Machine.execRet o s
  | .loop o => Sys2Proof.Machine.execLoop o s
  | .lea o => Sys2Proof.Machine.execLea o s
  | .vld o => Sys2Proof.Machine.execVld o s
  | .vst o => Sys2Proof.Machine.execVst o s
  | .vgath o => Sys2Proof.Machine.execVgath o s
  | .vscat o => Sys2Proof.Machine.execVscat o s
  | .ld o => Sys2Proof.Machine.execLd o s
  | .st o => Sys2Proof.Machine.execSt o s
  | .lda o => Sys2Proof.Machine.execLda o s
  | .stl o => Sys2Proof.Machine.execStl o s
  | .ldf o => Sys2Proof.Machine.execLdf o s
  | .pf o => Sys2Proof.Machine.execPf o s
  | .cflush o => Sys2Proof.Machine.execCflush o s
  | .cinv o => Sys2Proof.Machine.execCinv o s
  | .invalCb o => Sys2Proof.Machine.execInvalCb o s
  | .waita o => Sys2Proof.Machine.execWaita o s
  | .amo o => Sys2Proof.Machine.execAmo o s
  | .amof o => Sys2Proof.Machine.execAmof o s
  | .cas o => Sys2Proof.Machine.execCas o s
  | .red o => Sys2Proof.Machine.execRed o s
  | .redf o => Sys2Proof.Machine.execRedf o s
  | .bupd o => Sys2Proof.Machine.execBupd o s
  | .bfill o => Sys2Proof.Machine.execBfill o s
  | .take o => Sys2Proof.Machine.execTake o s
  | .put o => Sys2Proof.Machine.execPut o s
  | .rdf o => Sys2Proof.Machine.execRdf o s
  | .clrp o => Sys2Proof.Machine.execClrp o s
  | .pstat o => Sys2Proof.Machine.execPstat o s
  | .ldsc o => Sys2Proof.Machine.execLdsc o s
  | .stsc o => Sys2Proof.Machine.execStsc o s
  | .amoSc o => Sys2Proof.Machine.execAmoSc o s
  | .casSc o => Sys2Proof.Machine.execCasSc o s
  | .vadd o => Sys2Proof.Machine.execVadd o s
  | .vsub o => Sys2Proof.Machine.execVsub o s
  | .vmul o => Sys2Proof.Machine.execVmul o s
  | .vmin o => Sys2Proof.Machine.execVmin o s
  | .vmax o => Sys2Proof.Machine.execVmax o s
  | .vand o => Sys2Proof.Machine.execVand o s
  | .vor o => Sys2Proof.Machine.execVor o s
  | .vxor o => Sys2Proof.Machine.execVxor o s
  | .vshl o => Sys2Proof.Machine.execVshl o s
  | .vshr o => Sys2Proof.Machine.execVshr o s
  | .vsar o => Sys2Proof.Machine.execVsar o s
  | .vfadd o => Sys2Proof.Machine.execVfadd o s
  | .vfsub o => Sys2Proof.Machine.execVfsub o s
  | .vfmul o => Sys2Proof.Machine.execVfmul o s
  | .vfma o => Sys2Proof.Machine.execVfma o s
  | .vfmin o => Sys2Proof.Machine.execVfmin o s
  | .vfmax o => Sys2Proof.Machine.execVfmax o s
  | .vcmp o => Sys2Proof.Machine.execVcmp o s
  | .vsel o => Sys2Proof.Machine.execVsel o s
  | .vred o => Sys2Proof.Machine.execVred o s
  | .vperm o => Sys2Proof.Machine.execVperm o s
  | .vbcast o => Sys2Proof.Machine.execVbcast o s
  | .vext o => Sys2Proof.Machine.execVext o s
  | .vins o => Sys2Proof.Machine.execVins o s
  | .vcvt o => Sys2Proof.Machine.execVcvt o s
  | .vrsqs o => Sys2Proof.Machine.execVrsqs o s
  | .vrcps o => Sys2Proof.Machine.execVrcps o s
  | .wload o => Sys2Proof.Machine.execWload o s
  | .mscl o => Sys2Proof.Machine.execMscl o s
  | .mma o => Sys2Proof.Machine.execMma o s
  | .mmas o => Sys2Proof.Machine.execMmas o s
  | .aclr o => Sys2Proof.Machine.execAclr o s
  | .ard o => Sys2Proof.Machine.execArd o s
  | .awr o => Sys2Proof.Machine.execAwr o s
  | .asave o => Sys2Proof.Machine.execAsave o s
  | .sbind o => Sys2Proof.Machine.execSbind o s
  | .sstart o => Sys2Proof.Machine.execSstart o s
  | .sclose o => Sys2Proof.Machine.execSclose o s
  | .sbar o => Sys2Proof.Machine.execSbar o s
  | .spos o => Sys2Proof.Machine.execSpos o s
  | .sdone o => Sys2Proof.Machine.execSdone o s
  | .nalloc o => Sys2Proof.Machine.execNalloc o s
  | .nfree o => Sys2Proof.Machine.execNfree o s
  | .nld o => Sys2Proof.Machine.execNld o s
  | .nst o => Sys2Proof.Machine.execNst o s
  | .nlink o => Sys2Proof.Machine.execNlink o s
  | .npush o => Sys2Proof.Machine.execNpush o s
  | .npop o => Sys2Proof.Machine.execNpop o s
  | .nruleLook o => Sys2Proof.Machine.execNruleLook o s
  | .nruleSet o => Sys2Proof.Machine.execNruleSet o s
  | .nruleInv o => Sys2Proof.Machine.execNruleInv o s
  | .statrd o => Sys2Proof.Machine.execStatrd o s
  | .fence o => Sys2Proof.Machine.execFence o s
  | .tlbi o => Sys2Proof.Machine.execTlbi o s
  | .tlbw o => Sys2Proof.Machine.execTlbw o s
  | .trap o => Sys2Proof.Machine.execTrap o s
  | .eret o => Sys2Proof.Machine.execEret o s
  | .mfs o => Sys2Proof.Machine.execMfs o s
  | .mts o => Sys2Proof.Machine.execMts o s
  | .sysc o => Sys2Proof.Machine.execSysc o s
  | .bkpt o => Sys2Proof.Machine.execBkpt o s
  | .halt o => Sys2Proof.Machine.execHalt o s
  | .rsave o => Sys2Proof.Machine.execRsave o s
  | .rrest o => Sys2Proof.Machine.execRrest o s
  | .passE o => Sys2Proof.Machine.execPassE o s
  | .constE o => Sys2Proof.Machine.execConstE o s
  | .steerE o => Sys2Proof.Machine.execSteerE o s
  | .mergeE o => Sys2Proof.Machine.execMergeE o s
  | .loopE o => Sys2Proof.Machine.execLoopE o s
  | .callE o => Sys2Proof.Machine.execCallE o s
  | .retE o => Sys2Proof.Machine.execRetE o s
  | .addE o => Sys2Proof.Machine.execAddE o s
  | .subE o => Sys2Proof.Machine.execSubE o s
  | .mulE o => Sys2Proof.Machine.execMulE o s
  | .minE o => Sys2Proof.Machine.execMinE o s
  | .maxE o => Sys2Proof.Machine.execMaxE o s
  | .andE o => Sys2Proof.Machine.execAndE o s
  | .orE o => Sys2Proof.Machine.execOrE o s
  | .xorE o => Sys2Proof.Machine.execXorE o s
  | .shlE o => Sys2Proof.Machine.execShlE o s
  | .shrE o => Sys2Proof.Machine.execShrE o s
  | .cmpE o => Sys2Proof.Machine.execCmpE o s
  | .selE o => Sys2Proof.Machine.execSelE o s
  | .faddE o => Sys2Proof.Machine.execFaddE o s
  | .fsubE o => Sys2Proof.Machine.execFsubE o s
  | .fmulE o => Sys2Proof.Machine.execFmulE o s
  | .fmaE o => Sys2Proof.Machine.execFmaE o s
  | .fminE o => Sys2Proof.Machine.execFminE o s
  | .fmaxE o => Sys2Proof.Machine.execFmaxE o s
  | .fcmpE o => Sys2Proof.Machine.execFcmpE o s
  | .cvtE o => Sys2Proof.Machine.execCvtE o s
  | .accE o => Sys2Proof.Machine.execAccE o s
  | .mloadE o => Sys2Proof.Machine.execMloadE o s
  | .mstoreE o => Sys2Proof.Machine.execMstoreE o s
  | .mrmwE o => Sys2Proof.Machine.execMrmwE o s
  | .sdivE o => Sys2Proof.Machine.execSdivE o s
  | .sexp2E o => Sys2Proof.Machine.execSexp2E o s
  | .slog2E o => Sys2Proof.Machine.execSlog2E o s
  | .ssinE o => Sys2Proof.Machine.execSsinE o s
  | .stabE o => Sys2Proof.Machine.execStabE o s
  | .statE o => Sys2Proof.Machine.execStatE o s
  | .commitE o => Sys2Proof.Machine.execCommitE o s
  | .routeE o => Sys2Proof.Machine.execRouteE o s
  | .spaddE o => Sys2Proof.Machine.execSpaddE o s
  | .topkE o => Sys2Proof.Machine.execTopkE o s
  | .cumsE o => Sys2Proof.Machine.execCumsE o s
  | .drawE o => Sys2Proof.Machine.execDrawE o s
  | .penalE o => Sys2Proof.Machine.execPenalE o s
  | .adptE o => Sys2Proof.Machine.execAdptE o s
  | .vaneE o => Sys2Proof.Machine.execVaneE o s
  | .islandCommandPerform n => Sys2Proof.Machine.execIslandCommandPerform n s
  | .waitAnswer n => Sys2Proof.Machine.execWaitAnswer n s
  | .waitCancel n => Sys2Proof.Machine.execWaitCancel n s
  | .bankReply n => Sys2Proof.Machine.execBankReply n s
  | .interruptTaken n => Sys2Proof.Machine.execInterruptTaken n s
  | .remoteLoadTimeout n => Sys2Proof.Machine.execRemoteLoadTimeout n s
  | .l1WriteBack n line => Sys2Proof.Machine.execL1WriteBack n line s
  | .engineCommand n => Sys2Proof.Machine.execEngineCommand n s
  | .bankOperation k => Sys2Proof.Machine.execBankOperation k s
  | .presenceArrive k => Sys2Proof.Machine.execPresenceArrive k s
  | .presenceCancel n => Sys2Proof.Machine.execPresenceCancel n s
  | .tradeTokenArrival => Sys2Proof.Machine.execTradeTokenArrival s
  | .lineWrite n line => Sys2Proof.Machine.execLineWrite n line s
  | .entryPortAdmit n port slot => Sys2Proof.Machine.execEntryPortAdmit n port slot s
  | .heldTokenAdmit n port slot colour => Sys2Proof.Machine.execHeldTokenAdmit n port slot colour s
  | .linkTransfer e src slot colour => Sys2Proof.Machine.execLinkTransfer e src slot colour s
  | .exitReorderEmit n port slot colour => Sys2Proof.Machine.execExitReorderEmit n port slot colour s
  | .countTokens e => Sys2Proof.Machine.execCountTokens e s
  | .mElementReply e k => Sys2Proof.Machine.execMElementReply e k s
  | .retire e slot colour context => Sys2Proof.Machine.execRetire e slot colour context s
  | .treeStep e slot colour context => Sys2Proof.Machine.execTreeStep e slot colour context s
  | .vaneCommandPerform n => Sys2Proof.Machine.execVaneCommandPerform n s
  | .calmSweep quad n => Sys2Proof.Machine.execCalmSweep quad n s
  | .doldrums h colour => Sys2Proof.Machine.execDoldrums h colour s
  | .purgeEnd h colour => Sys2Proof.Machine.execPurgeEnd h colour s
  | .remoteTimeout e k => Sys2Proof.Machine.execRemoteTimeout e k s
  | .loadDelivery quad n => Sys2Proof.Machine.execLoadDelivery quad n s
  | .elementWrite h => Sys2Proof.Machine.execElementWrite h s
  | .oneShotFree e slot => Sys2Proof.Machine.execOneShotFree e slot s
  | .sectionStart n entry => Sys2Proof.Machine.execSectionStart n entry s
  | .sectionRelease n entry => Sys2Proof.Machine.execSectionRelease n entry s
  | .sectionEarlyEnd n entry => Sys2Proof.Machine.execSectionEarlyEnd n entry s
  | .completionPutRetry n entry => Sys2Proof.Machine.execCompletionPutRetry n entry s
  | .streamAccess n j => Sys2Proof.Machine.execStreamAccess n j s
  | .portWriteToken n j => Sys2Proof.Machine.execPortWriteToken n j s
  | .portReadDelivery n j => Sys2Proof.Machine.execPortReadDelivery n j s
  | .doneAction n j => Sys2Proof.Machine.execDoneAction n j s
  | .islandRow n j => Sys2Proof.Machine.execIslandRow n j s
  | .islandEmit n j => Sys2Proof.Machine.execIslandEmit n j s
  | .ingressRecord part port vf rec => Sys2Proof.Machine.execIngressRecord part port vf rec s
  | .headRecordServed part port colour => Sys2Proof.Machine.execHeadRecordServed part port colour s
  | .orphan part port colour => Sys2Proof.Machine.execOrphan part port colour s
  | .timedSlotStart part n => Sys2Proof.Machine.execTimedSlotStart part n s
  | .admission part => Sys2Proof.Machine.execAdmission part s
  | .loaderImage part => Sys2Proof.Machine.execLoaderImage part s
  | .launchArm part id => Sys2Proof.Machine.execLaunchArm part id s
  | .launchPairPush part id => Sys2Proof.Machine.execLaunchPairPush part id s
  | .launchCompletion part id => Sys2Proof.Machine.execLaunchCompletion part id s
  | .ptpEventMessage port domain msg => Sys2Proof.Machine.execPtpEventMessage port domain msg s
  | .servoCorrection => Sys2Proof.Machine.execServoCorrection s
  | .dispatch n => Sys2Proof.Machine.execDispatch n s
  | .packetForward k queued => Sys2Proof.Machine.execPacketForward k queued s
  | .packetArrival k => Sys2Proof.Machine.execPacketArrival k s
  | .shearedHeader k => Sys2Proof.Machine.execShearedHeader k s
  | .reRequest n => Sys2Proof.Machine.execReRequest n s
  | .acknowledgement k => Sys2Proof.Machine.execAcknowledgement k s
  | .retransmitTimeout k => Sys2Proof.Machine.execRetransmitTimeout k s
  | .remoteRead k => Sys2Proof.Machine.execRemoteRead k s
  | .remoteWrite k => Sys2Proof.Machine.execRemoteWrite k s
  | .readReply k => Sys2Proof.Machine.execReadReply k s
  | .routeClassDelivery k => Sys2Proof.Machine.execRouteClassDelivery k s
  | .readyFrame k => Sys2Proof.Machine.execReadyFrame k s
  | .readyResend part chan => Sys2Proof.Machine.execReadyResend part chan s
  | .tokenFrame k => Sys2Proof.Machine.execTokenFrame k s
  | .creditFrame k => Sys2Proof.Machine.execCreditFrame k s
  | .closeFrame k => Sys2Proof.Machine.execCloseFrame k s
  | .channelTokenSend part chan colour => Sys2Proof.Machine.execChannelTokenSend part chan colour s
  | .authfail port dom phase => Sys2Proof.Machine.execAuthfail port dom phase s
  | .linkTrained port => Sys2Proof.Machine.execLinkTrained port s
  | .lossOfSignal port => Sys2Proof.Machine.execLossOfSignal port s
  | .getVersion m => Sys2Proof.Machine.execGetVersion m s
  | .getCapabilities m => Sys2Proof.Machine.execGetCapabilities m s
  | .negotiateAlgorithms m => Sys2Proof.Machine.execNegotiateAlgorithms m s
  | .getDigests m => Sys2Proof.Machine.execGetDigests m s
  | .getCertificate m => Sys2Proof.Machine.execGetCertificate m s
  | .challenge m => Sys2Proof.Machine.execChallenge m s
  | .getMeasurements m => Sys2Proof.Machine.execGetMeasurements m s
  | .keyExchange m => Sys2Proof.Machine.execKeyExchange m s
  | .finish m => Sys2Proof.Machine.execFinish m s
  | .heartbeat m => Sys2Proof.Machine.execHeartbeat m s
  | .keyUpdate m => Sys2Proof.Machine.execKeyUpdate m s
  | .endSession m => Sys2Proof.Machine.execEndSession m s
  | .setCertificate m => Sys2Proof.Machine.execSetCertificate m s
  | .getCsr m => Sys2Proof.Machine.execGetCsr m s
  | .chunkSend m => Sys2Proof.Machine.execChunkSend m s
  | .chunkGet m => Sys2Proof.Machine.execChunkGet m s
  | .vendorDefinedRequest m => Sys2Proof.Machine.execVendorDefinedRequest m s
  | .getTdispVersion vf => Sys2Proof.Machine.execGetTdispVersion vf s
  | .getTdispCapabilities vf => Sys2Proof.Machine.execGetTdispCapabilities vf s
  | .lockInterfaceRequest vf => Sys2Proof.Machine.execLockInterfaceRequest vf s
  | .getDeviceInterfaceReport vf => Sys2Proof.Machine.execGetDeviceInterfaceReport vf s
  | .getDeviceInterfaceState vf => Sys2Proof.Machine.execGetDeviceInterfaceState vf s
  | .startInterfaceRequest vf nonce => Sys2Proof.Machine.execStartInterfaceRequest vf nonce s
  | .stopInterfaceRequest vf => Sys2Proof.Machine.execStopInterfaceRequest vf s
  | .frozenSetChange vf => Sys2Proof.Machine.execFrozenSetChange vf s
  | .partWrite n v => Sys2Proof.Machine.execPartWrite n v s
  | .vfWrite n v => Sys2Proof.Machine.execVfWrite n v s
  | .lpermWrite n v => Sys2Proof.Machine.execLpermWrite n v s
  | .colourTableWrite c v => Sys2Proof.Machine.execColourTableWrite c v s
  | .ownerTagWrite n tag => Sys2Proof.Machine.execOwnerTagWrite n tag s
  | .startCommand n tag colour block arg => Sys2Proof.Machine.execStartCommand n tag colour block arg s
  | .coreReset n => Sys2Proof.Machine.execCoreReset n s
  | .retireCommand frame => Sys2Proof.Machine.execRetireCommand frame s
  | .keyLoad shared n key session => Sys2Proof.Machine.execKeyLoad shared n key session s
  | .linkKeyLoad port dom phase key => Sys2Proof.Machine.execLinkKeyLoad port dom phase key s
  | .lkstatWrite port dom v => Sys2Proof.Machine.execLkstatWrite port dom v s
  | .sealRange colour va len => Sys2Proof.Machine.execSealRange colour va len s
  | .setPre n => Sys2Proof.Machine.execSetPre n s
  | .patrol sector bad => Sys2Proof.Machine.execPatrol sector bad s
  | .coldReset => Sys2Proof.Machine.execColdReset s
  | .throttle => Sys2Proof.Machine.execThrottle s
  | .throttleRestore => Sys2Proof.Machine.execThrottleRestore s
  | .thermalTrip => Sys2Proof.Machine.execThermalTrip s
  | .lschedWrite part v => Sys2Proof.Machine.execLschedWrite part v s
  | .lcbaseWrite part v => Sys2Proof.Machine.execLcbaseWrite part v s
  | .lrootWrite part v => Sys2Proof.Machine.execLrootWrite part v s
  | .ttctlWrite part v => Sys2Proof.Machine.execTtctlWrite part v s
  | .ttWrite part n hi v => Sys2Proof.Machine.execTtWrite part n hi v s
  | .ingWrite part n v => Sys2Proof.Machine.execIngWrite part n v s
  | .bkctlWrite die bank v => Sys2Proof.Machine.execBkctlWrite die bank v s
  | .bagctlWrite n v => Sys2Proof.Machine.execBagctlWrite n v s
  | .bagspillWrite n v => Sys2Proof.Machine.execBagspillWrite n v s
  | .flbaseWrite part v => Sys2Proof.Machine.execFlbaseWrite part v s
  | .netctlWrite part v => Sys2Proof.Machine.execNetctlWrite part v s
  | .channelEntryWrite part chan hi v => Sys2Proof.Machine.execChannelEntryWrite part chan hi v s
  | .registerWrite pa v => Sys2Proof.Machine.execRegisterWrite pa v s
  | .releaseScrub channel n => Sys2Proof.Machine.execReleaseScrub channel n s
  | .hostEgressDelivery part port => Sys2Proof.Machine.execHostEgressDelivery part port s

end Sys2Proof.Machine
end

