-- ==== Sys2Proof/Machine/Run.lean ====
section
/-!
DEFINITION. How a core runs a block (04 R56 to R67): what delays an instruction, the delivery of held effects, the end of a
block, traps between blocks; how an element takes its turn; and the turns of the world.
-/
namespace Sys2Proof.Machine

/-! ## What delays an instruction -/

/-- A command of the island that writes memory (17 R256). -/
def IslandCmd.writes : IslandCmd → Bool
  | .ardPad .. => true
  | .save .. => true
  | .saveRec .. => true
  | _ => false
/-- A command names an accumulator (13 R214). -/
def IslandCmd.names (k : Nat) : IslandCmd → Bool
  | .mscl a .. => a == k
  | .mma a .. => a == k
  | .aclr a .. => a == k
  | .ardPad a .. => a == k
  | .awrV a .. => a == k
  | .awrPad a .. => a == k
  | .save a .. => a == k
  | .rest l _ => l.any fun q => q.1 == k
  | .saveRec m .. => bitAt m (16 + k)
  | _ => false

/-- The loads that wait for the island's memory writes (17 R256). -/
def isLoad : Instr → Bool
  | .ld _ => true
  | .lda _ => true
  | .vld _ => true
  | .vgath _ => true
  | .ldf _ => true
  | .waita _ => true
  | .ldsc _ => true
  | .pstat _ => true
  | .nld _ => true
  | _ => false

/-- A release that a presence form makes before its access. -/
def relOk (s : State) (o : MEM) : Bool := !(o.ord == 2) || s.settled s.cur (o.scope == 6)

/-- An instruction whose guard is true may be executed now: no register it names waits for an answer (07 R133), the island and the
vane unit have performed what it must see (13 R214, 17 R256, 23 R328), and a wait form has room for its block (04 R64). -/
def State.ready (s : State) (i : Instr) : Bool :=
  (sources i ++ dests i).all (fun r => r == 0 || r ≥ 64 || !s.awaits s.cur r) &&
    !(isLoad i && (s.me.island.queue.any IslandCmd.writes || s.unacked (.island s.cur))) && (!isWait i || s.blk.granted || s.heldRoom s.cur) &&
    match i with
    | .ard o =>
      match o.func.toNat with
      | 1 => true
      | 3 => s.me.island.queue.isEmpty
      | _ => !s.me.island.queue.any (IslandCmd.names o.acc.toNat) && !s.me.island.emitting o.acc.toNat
    | .vnrd _ => s.me.vane.queue.isEmpty
    | .take o => relOk s o
    | .put o => relOk s o
    | .rdf o => relOk s o
    -- a full fence, and the fence before an SC form: earlier stores before later loads (06 R111, 07 R130)
    | .ldsc _ => s.settled s.cur false
    | .stsc _ => s.settled s.cur false
    | .amoSc _ => s.settled s.cur false
    | .casSc _ => s.settled s.cur false
    | .fence o => o.func != 0 || s.settled s.cur (o.imm == 6)
    | _ => true

/-- A marked register that the instruction reads, or its guard (27 R376). -/
def State.badSource (s : State) (g : BitVec 3) (i : Instr) : Option Nat :=
  ((128 + g.toNat) :: sources i).find? fun r => Sp.get false s.w.bad r

/-! ## The default order of a core's own business (log 4) -/

def nextOr (s : State) (o : Out) : State := match o with | .next t => t | _ => s

/-- Where nothing else is on the agenda, a core that cannot go on lets its own requests reach their targets, oldest first. -/
def State.ownWork (s : State) (n : Nat) : State :=
  let c := s.core n
  let m := BitVec.ofNat 10 n
  if !c.replies.isEmpty then nextOr s (execBankReply m s)
  else match s.bankOps.findIdx? (fun o => o.core == n) with
  | some k => nextOr s (execBankOperation k s)
  | none =>
    match s.presOps.findIdx? (fun r => r.who == .core n) with
    | some k => nextOr s (execPresenceArrive k s)
    | none =>
      if s.banks.any fun b => b.2.scq.any fun o => o.core == n then nextOr s (execTradeTokenArrival s)
      else if c.blk.cancel then nextOr s (execPresenceCancel m s)
      else s

/-! ## The delivery of held effects (04 R57, R64; 17 R252) -/

/-- A store reaches its memory. -/
def State.deliverStore (s : State) (n : Nat) (h : Nat) (bs : List Byte) (how : StoreHow) (key : Nat) : State :=
  match how with
  | .pad => s.write 0 h bs
  | .padFull => (s.write 0 h bs).setFe h bs.length true
  | .cached => s.l1Store n key h bs
  | .home => s.homeWrite n key h bs
  | .reg => s.regStore h bs
  | .remote => s.sendWrite (.core n) (s.core n).blk.w.colour.toNat h bs false

/-- Streams that a held effect binds, starts afresh, moves or restores: a read that such a stream has issued completes first
(10 R191, log 63). -/
def Held.moves : Held → List Nat
  | .stream i _ => [i]
  | .sstart m false .. => maskBits m
  | .spos i _ => [i]
  | .restStream i _ => [i]
  | _ => []

/-- Held effects for which the core translates when they are delivered. A walk for one waits for every write that has been sent to a home
(21 R301): at a net's words, whatever they are. -/
def Held.walks (s : State) (n : Nat) : Held → Bool
  | .flush col _ start len false _ => (pageStarts start len).any fun va => s.walkHeld n col.toNat va
  | .nlink .. => s.pending n || s.unacked (.core n)
  | .nfree .. => s.pending n || s.unacked (.core n)
  | .nrel _ => s.pending n || s.unacked (.core n)
  | _ => false

/-- One held effect of core n takes effect; none while it must wait. -/
def State.deliver (s : State) (n : Nat) (h : Held) : Option State :=
  let c := s.core n
  if h.walks s n then none else
  match h with
  | .store a bs how key => some (s.deliverStore n a bs how key)
  | .release sys => if s.settled n sys then some (s.l1WriteBackAll n) else none
  | .order => if s.settled n false then some s else none
  | .acquire => if s.acquiring n then none else some (s.l1DropAll n)
  | .flush col lvlS start len all inv => some (s.flush n col.toNat lvlS start len all inv)
  | .bank op => some (s.sendBank op)
  | .engine q => some ({ s with serial := s.serial + 1 }.setCore n { c with eng := c.eng ++ [{ q with id := s.serial }] })
  | .island q => some (s.islandDeliver n q)
  | .wbits m => some (s.setCore n { c with tpend := c.tpend &&& ~~~m })
  | .post k bits => some (s.post k bits)
  | .tlbi q => some (s.tlbiDeliver n q)
  | .colq g col o => some (s.colqDeliver g col.toNat o)
  | .purge g col => some (s.purge g col.toNat)
  | .load q => some { s with loaders := Sp.put s.loaders (hGrid q.handle) (Sp.get [] s.loaders (hGrid q.handle) ++ [.load q]) }
  | .arm d k desc addr lvlS => some (s.armDeliver n d k desc addr lvlS)
  | .tear g force => some (if force then s.tearForce g else s.tear g)
  | .inject g b q => some { s with loaders := Sp.put s.loaders (hGrid g) (Sp.get [] s.loaders (hGrid g) ++ [.inject g b q]) }
  | .vane q => some (s.setCore n { c with vane := { c.vane with queue := c.vane.queue ++ [q] } })
  | .send cls dst off len col => some (s.msendDeliver n cls dst off len col)
  | .mask set m => some (s.setCore n { c with mask := if set then c.mask ||| m else c.mask &&& ~~~m })
  | .ringCfg w => some (s.ringDeliver n w)
  | .ringPop got keep => some (s.setCore n { c with ring := c.ring.popped got keep })
  | .ringFree => some (s.setCore n { c with ring := c.ring.free })
  | .nalloc _ home key hdr => some (s.homeWrite n key home (leBytes 8 hdr.toNat ++ List.replicate 56 0))
  | .nfree node col lvlS => some (s.nfreeDeliver n node col lvlS)
  | .npush p => some (s.pushTail n p)
  | .nlink a b col lvlS => some (s.nlinkDeliver n a b col lvlS)
  | .nrel lvlS => some (s.nrelDeliver n lvlS)
  | .npop _ => some (s.bagRefill n)
  | .nruleSet base size => some (s.nruleDeliver n base size)
  | .nruleInv => some (s.nruleInvDeliver n)
  | .node home v key => some (s.homeWrite n key home (leBytes 8 v.toNat))
  | h => if h.moves.any fun i => s.streamAway n i then none else some (s.streamDeliver n h)

/-- The delivery is complete: the next block, dispatch, or SYSC's trap (19 R279). -/
def State.finish (s : State) (n : Nat) : State :=
  let c := s.core n
  let s := s.tlbiBlock n
  let s := s.setCore n { s.core n with blk := Blk.reset, regs := { c.regs with arms := [] } }
  if c.blk.rule then s.bodyDone n
  else match c.blk.exit with
  | .sysc k => s.takeTrap n { code := 6, lvl := 0, async := false, tval := w64 k, tblock := c.blk.next }
  | _ => s

/-- The oldest held effect that is left. -/
def State.deliverNext (s : State) (n : Nat) : State :=
  let c := s.core n
  match c.blk.held with
  | [] => s.finish n
  | h :: rest =>
    match (s.setCore n { c with blk := { c.blk with held := rest } }).deliver n h with
    | some t => t
    | none => s.ownWork n

/-! ## The end of a block (04 R62, R67, R72; 19 R298) -/

/-- The end-of-body decrement: the loop registers and the successor. -/
def endOfBody (r : Regs) (ft : W64) : Regs × W64 :=
  if !r.lact || ft != r.lend then (r, ft)
  else if r.lcnt.toNat ≤ 1 then ({ r with lcnt := 0, lact := false }, r.lend)
  else ({ r with lcnt := r.lcnt - 1 }, r.lbeg)

/-- The core as the commit of its block leaves it, with the held effects still to be delivered, or why the block is discarded. -/
def State.committed (s : State) : Except XF Core :=
  let c := s.me
  let b := c.blk
  let ft := s.fallThrough
  let shut := fun (r : Regs) => { c with regs := r, blk := { b with closing := true, w := c.regs, next := ft } }
  let go := fun (r : Regs) (t : W64) =>
    match s.checkSuccessor s.cur t false with
    | .error e => Except.error e
    | .ok _ => .ok { shut r with pc := t }
  if b.rule then
    match s.wireLeft with
    | some p => .error (.fault 0x3F 0 (w64 p))
    | none => .ok { shut (endOfBody b.w ft).1 with run := .dispatch }
  else match b.exit with
  | .none => let e := endOfBody b.w ft; go e.1 e.2
  | .goto t => go b.w t
  | .sysc _ => .ok { shut b.w with pc := ft }
  | .halt =>
    .ok (if c.bagEn then { shut b.w with run := .dispatch, inDisp := true } else { shut b.w with run := .halted, pc := ft })
  | .eret =>
    let st := b.w.tstat
    let r := { b.w with tstat := st &&& 0b111110 ||| (st.extractLsb' 1 1).setWidth 6 }
    let lvlS := st.getLsbD 2
    if st.getLsbD 3 && !st.getLsbD 4 then .ok { shut r with run := .dispatch, inDisp := true, lvlS := lvlS }
    else
      match (s.setMe { c with lvlS := lvlS }).checkSuccessor s.cur b.w.tblock (st.getLsbD 4) with
      | .error e => .error e
      | .ok h => .ok { shut r with pc := b.w.tblock, inDisp := headerRule h, lvlS := lvlS }

/-- The successor's check, the reservations, and the commit. -/
def State.close (s : State) : State :=
  match s.committed with
  | .error (.fault code lvl v) => s.faultAt s.cur code lvl v
  | .error (.remote h k va) => s.setMe { s.me with rreq := some (h, k, va) }
  | .error .walk => s.setMe { s.me with walkWait := true }
  | .ok c => if s.blk.granted || s.heldRoom s.cur then s.setMe c else s

/-! ## A step of a core -/

/-- The guard field of a core word (02 R25). -/
def wordGuard (w : W64) : BitVec 3 × Bool := (w.extractLsb' 53 3, w.getLsbD 52)

/-- The state in which an instruction of the block is executed: the block stands behind it, the room of a wait form is granted, and
of bytes received from other devices only its own are left (17 R251, R262). -/
def State.begun (s : State) (i : Instr) (on : Bool) : State :=
  s.setBlk { s.blk with idx := s.blk.idx + 1, granted := s.blk.granted || (on && isWait i),
                        remote := if s.blk.remoteAt == s.blk.idx + 1 then s.blk.remote else [] }

/-- The next instruction of the block. -/
def State.runWord (s : State) (w : W64) : Out :=
  match decodeCore w with
  | .error _ => .next (s.faultAt s.cur 1 0 (s.blk.hdr + w64 (8 * (s.blk.idx + 1))))
  | .ok i =>
    let g := wordGuard w
    let on := s.guard g.1 g.2
    match (if on then s.badSource g.1 i else if Sp.get false s.w.bad (128 + g.1.toNat) then some (128 + g.1.toNat) else none) with
    | some r => .next (s.faultAt s.cur 0x0B 0 (w64 r))
    | none => if on && !s.ready i then .next (s.ownWork s.cur) else exec i (s.begun i on)

/-- The trap whose handler block could not be read yet. -/
def Core.trapOf (c : Core) : Trap :=
  { code := fld c.regs.tcause.toNat 7 0, lvl := fld c.regs.tcause.toNat 14 12, async := c.regs.tcause.getLsbD 15, tval := c.regs.tval,
    tblock := c.regs.tblock }

/-- Between two blocks: a poisoned reply's trap (19 R292), an interrupt (R282), the next block, or dispatch. -/
def State.between (s : State) (n : Nat) : State :=
  let c := s.core n
  match c.poisonTrap with
  | va :: rest =>
    (s.setCore n { c with poisonTrap := rest }).takeTrap n { code := 0x0C, lvl := 0, async := true, tval := va, tblock := c.resume }
  | [] =>
    if c.irq.isSome then (if s.outstanding n then s.ownWork n else s.takeInterrupt n)
    else match c.run with
    | .running =>
      match s.readBlock n c.pc c.inDisp with
      | .ok (h, l) => s.setCore n (c.begin c.pc h l)
      | .error (.fault code lvl v) => s.faultAt n code lvl v
      | .error (.remote h k va) => s.setCore n { c with rreq := some (h, k, va) }
      | .error .walk => s.setCore n { c with walkWait := true }
    | .dispatch => if c.bagEn && s.settled n false && !s.unacked (.core n) && (!c.bag.isEmpty || (s.popHead n).isSome || (s.victim n).isSome) then s.dispatch n
      else if c.gaveUp.isSome || !c.blk.remote.isEmpty then s.farDone n else s.ownWork n
    | _ => s.ownWork n

/-- A core that waits for bytes of another device asks for them, or gives up (17 R262, 24 R333). -/
def State.fetchRemote (s : State) (n h k : Nat) : State :=
  let c := s.core n
  if (List.range k).all fun i => (Sp.find? c.blk.remote (h + i)).isSome then s.setCore n { c with rreq := none }
  else if c.run == .dispatch && !c.blk.isOpen && (s.overdue (.core n)).isSome then
    -- dispatch takes no trap: it takes its entry again and records the fault (15 R238)
    (s.giveUp (.core n)).setCore n { c with rreq := none, gaveUp := some h }
  else if (s.overdue (.core n)).isSome then nextOr s (execRemoteLoadTimeout (BitVec.ofNat 10 n) s)
  else if s.reading (.core n) then s.ownWork n
  else s.sendRead (.core n) c.regs.colour.toNat h k

/-- A block that waits: its answer, or a cancel for an interrupt (04 R63). -/
def State.waitStep (s : State) : State :=
  let c := s.me
  if c.irq.isSome && c.blk.cancellable then nextOr s (execWaitCancel s.curCore s)
  else
    let t := s.tryAnswer
    if t.blk.wait == c.blk.wait then t.ownWork s.cur else t

/-- A step of the core whose turn it is. -/
def State.coreStep (s : State) : Out :=
  let n := s.cur
  let c := s.me
  if c.run == .reset || c.run == .stopped then .next (s.ownWork n) else
  match c.pendTrap with
  | some t => .next (if s.outstanding n then s.ownWork n else (s.setCore n (c.enter t)).openHandler n t)
  | none =>
  match c.rreq with
  | some (h, k, _) => .next (if c.between && c.irq.isSome then s.takeInterrupt n else s.fetchRemote n h k)
  | none =>
    if c.walkWait then .next (if s.pending n || s.unacked (.core n) then s.ownWork n else s.setCore n { c with walkWait := false })
    else if c.inTrap then .next (s.openHandler n c.trapOf)
    else if !c.blk.isOpen then .next (s.between n)
    else if c.blk.closing then .next (s.deliverNext n)
    else if c.blk.wait != .none then .next s.waitStep
    else match c.blk.words[c.blk.idx]? with
    | some w => if s.reserving n && c.irq.isSome then .next (s.takeInterrupt n) else s.runWord w
    | none =>
      .next (if s.reserving n && s.committed.toOption.isSome then (if c.irq.isSome then s.takeInterrupt n else s.ownWork n) else s.close)

/-- A lane of the vector load at which the block of core n stands is read ahead of the others, when the load may be executed
(05 R81). -/
def State.lanePart (s : State) (n : CoreNum) (l : Fin 32) : State :=
  s.asCore n fun s =>
    let b := s.blk
    if !b.isOpen || b.closing || b.wait != .none || s.me.rreq.isSome || s.me.walkWait || s.me.pendTrap.isSome then s else
    match b.words[b.idx]? with
    | none => s
    | some w =>
      let g := wordGuard w
      match decodeCore w with
      | .ok (.vld o) => if s.guard g.1 g.2 && s.ready (.vld o) then s.loadAhead o (fun s => s.lineAddr o) l.val else s
      | .ok (.vgath o) => if s.guard g.1 g.2 && s.ready (.vgath o) then s.loadAhead o (fun s => s.gatherAddr o) l.val else s
      | _ => s

/-! ## A turn of an element, and the turns of the world -/

/-- The element whose turn it is considers its slot. -/
def State.elemStep (s : State) : Out :=
  let v := s.slot s.curElem.toNat s.curSlot.toNat
  match elemInstr v.op.toNat v.cfg with
  | some i => exec i s
  | none => .next s

/-- One turn of the world's order. -/
def State.turn (s : State) (t : Turn) : Out :=
  match t with
  | .core n => { s with curCore := n }.coreStep
  | .elem e sl => { s with curElem := e, curSlot := sl }.elemStep
  | .event i => if i.opcode = 0 then exec i s else .next s
  | .tick n => .next (s.tick n)
  | .enginePart n k len => .next (s.enginePart n.toNat k len)
  | .lanePart n l => .next (s.lanePart n l)
  | .wloadPart n w line => .next (s.wloadPart n.toNat w line)
  | .bankStall b k => .next (if b < 340 then s.setBank b { s.bank b with stall := satAdd 32 (s.bank b).stall k } else s)
  | .tlbiDone n => .next (s.tlbiDone n.toNat)
  | .l1Fill n va => .next (s.fillL1 n.toNat va)
  | .l1Drop n line => .next (s.l1Drop n.toNat line)
  | .l2Fill n c va way => .next (s.fillL2 n.toNat c va way)
  | .l2Table n c va k way => .next (s.fillTable n.toNat c va k way)
  | .l2Evict line => .next (s.l2Evict line)
  | .ifetchFill n va => .next (s.fillFetch n.toNat va)
  | .ifetchDrop n line => .next (s.dropFetch n.toNat line)
  | .tlbFill n c va cont => .next (s.fillTlb n.toNat c va cont)
  | .tlbEvict n k => .next (s.dropTlb n.toNat k)
  | .walkFill n c va => .next (s.fillWalk n.toNat c va)
  | .walkEvict n k => .next (s.dropWalk n.toNat k)
  | .cbcEvict n k => .next (s.dropBlock n.toNat k)
  | .ruleEvict n k => .next (s.dropRule n.toNat k)
  | .regError n r => .next (s.regError n.toNat r)
  | .memError h => .next (s.memError h)
  | .corrected h => .next (s.corrected h)
  | .l1Error n line unit => .next (s.l1Error n.toNat line unit)
  | .l1TagError n line => .next (s.l1TagError n.toNat line)
  | .l2Error line sector => .next (s.l2Error line sector)
  | .l2TagError line => .next (s.l2TagError line)
  | .linkError e src => .next (s.linkError e.toNat src.toNat)
  | .queueError e i => .next (s.queueError e.toNat i.toNat)
  | .storeError e sl k i => .next (s.storeError e.toNat sl.toNat k i)
  | .sideError exit key k => .next (s.sideError exit key k)
  | .placeError i c k => .next (s.placeError i c k)
  | .egressError k => .next (s.egressError k)
  | .stopVf v => .next (s.managed (·.stopVf v))
  | .scrub k => .next (s.scrub k)
  | .booted => .next (if s.refused then s else { s with booting := false })
  | .coldRefused => .next s.coldRefused
  | .belowLimits => .next s.belowLimits
  | .lkcntWrite port dom v => .next (s.managed (·.lkcntWrite port dom v))
  | .chstatWrite c v => .next (s.managed (·.chstatWrite c v))
  | .chstatRead c => .next (s.managed fun s => s.reads (s.chstat c.toNat))
  | .installAnchor a => .next (s.managed (·.installAnchor a))
  | .otherRequest m => s.otherRequest m
  | .ptpSelect port domain =>
    .next (s.managed fun s => { s with ptp := { s.ptp.lose with port := port, domain := domain } }.answer true)
  | .ptpFollowUp port domain t1 => .next (s.ptpFollowUp port domain t1)
  | .ptpDelayResp port domain t4 => .next (s.ptpDelayResp port domain t4)
  | .ptpLost => .next { s with ptp := s.ptp.lose }
  | .cellFail f => .next { s with trust := { s.trust with failing := f :: s.trust.failing } }
  | .respond => .next s.respond
  | .outside port dom phase frame words => .next (s.fromOutside port dom phase frame words)
  | .uetAgain k => .next (s.uetAgain k)
  | .ccSelect port rccc => .next (s.managed fun s => (s.ccSelect port rccc).answer true)

/-- A turn that a package without power can take: the cold reset (28 R384). -/
def Turn.wakes : Turn → Bool
  | .event .coldReset => true
  | .coldRefused => true
  | _ => false

/-- The next turn of the world, or, where nothing is on the agenda, a step of the agent whose turn it is. -/
def State.advanceWorld (s : State) : Out :=
  match s.agenda with
  | t :: rest =>
    let s := { s with agenda := rest }
    if s.powered || t.wakes then s.turn t else .next s
  | [] =>
    if !s.powered then .fault .noPower
    else match s.agent with
    | .core => s.coreStep
    | .elem => s.elemStep

/-- The state with a core word as the block that the core whose turn it is has open, at its first instruction. -/
def State.withCoreWord (s : State) (w : W64) : State :=
  let c := s.me
  { s.setMe { c with run := .running, poisonTrap := [], pendTrap := none, inTrap := false, rreq := none, walkWait := false,
                     blk := { Blk.reset with isOpen := true, hdr := c.pc, words := [w], w := c.regs } }
    with agenda := [], agent := .core, powered := true }

/-- The state with a configuration word in the slot of the element whose turn it is. -/
def State.withElemWord (s : State) (w : BitVec 128) : State :=
  { s.setSlot s.curElem.toNat s.curSlot.toNat
      { ElemSlot.reset with op := w.extractLsb' 56 8, cfg := ElemCfg.dec w }
    with agenda := [], agent := .elem, powered := true }

end Sys2Proof.Machine
end

