-- ==== Sys2Proof/Machine/Step.lean ====
section
/-!
DEFINITION. The step of the machine, and the state in which a given instruction is the next to run.
-/
namespace Sys2Proof.Machine

/-- One step: the next turn on the agenda, or a step of the agent whose turn it is. -/
def step (s : State) : Host.Outcome State Fault Refusal := s.advanceWorld

/-- The state in which the next step runs the instruction whose bits are w: a core word as the only word of the open block of the
core whose turn it is, a configuration word in the slot of the element whose turn it is (log 1). -/
def State.withFetchWord (s : State) (nbits w : Nat) : State :=
  if nbits ≤ 64 then s.withCoreWord (BitVec.ofNat 64 w) else s.withElemWord (BitVec.ofNat 128 w)

end Sys2Proof.Machine
end

