-- ==== Sys2Proof/Certificates/Slice0/Obligations.lean ====
section
/-!
DEFINITION. The obligations: what the numbered rules of the manual say of the model, one `def Obligations.<Name> : Prop` each, and
the few words they are said in (`Sys2Proof.Says`). A statement about an instruction says that `exec` answers a next state, what that
state holds, and what it leaves as it was.
-/
namespace Sys2Proof.Says
open Sys2Proof.Machine

/-! ## Values (04 R74, 02 Table 02.3) -/

/-- Width of an integer type code: `.s8` and `.n8` are 0 and 1, up to `.s64` and `.n64`, 6 and 7. -/
def width (ty : BitVec 5) : Nat := 2 ^ (ty.toNat / 2 + 3)
/-- The even codes are signed. -/
def signed (ty : BitVec 5) : Bool := ty.toNat % 2 == 0
/-- Bits [w−1:0] of an operand, as the type reads them. -/
def operand (ty : BitVec 5) (v : W64) : Int :=
  if signed ty then (v.setWidth (width ty)).toInt else ((v.setWidth (width ty)).toNat : Int)
/-- A w-bit result in its register: sign-extended for `.s`, zero-extended for `.n`. -/
def extend (ty : BitVec 5) (v : W64) : W64 :=
  if signed ty then (v.setWidth (width ty)).signExtend 64 else (v.setWidth (width ty)).setWidth 64
/-- The low w bits of an exact integer in their register. -/
def result (ty : BitVec 5) (n : Int) : W64 := extend ty (BitVec.ofInt 64 n)
/-- `.sat`: clamped to the range of the type. -/
def clampTo (ty : BitVec 5) (n : Int) : Int :=
  if signed ty then max (-(2 ^ (width ty - 1) : Int)) (min (2 ^ (width ty - 1) - 1) n) else max 0 (min (2 ^ width ty - 1) n)
def satIf (sat : Bool) (ty : BitVec 5) (n : Int) : Int := if sat then clampTo ty n else n
/-- Conditions 0 to 5: eq, ne, lt, le, gt, ge. -/
def holds (c : Nat) (a b : Int) : Bool :=
  match c with
  | 0 => a = b | 1 => a ≠ b | 2 => a < b | 3 => a ≤ b | 4 => b < a | _ => b ≤ a

/-! ## What an instruction of a block writes, and its frame -/

/-- Nothing but the working registers of the core whose turn it is differs: every byte of memory reads as before, no effect is held,
and every other field of the state is the same. -/
def SameOutside (s t : State) : Prop :=
  (∃ r, t = s.setW r) ∧ t.blk.held = s.blk.held ∧ (∀ key h, t.readHome key h = s.readHome key h) ∧
    ∀ n, n ≠ s.cur → t.core n = s.core n

/-- The registers but the three files and their marks: loop registers, trap registers, colour, counts. -/
def SameSpecial (r q : Regs) : Prop :=
  q.lcnt = r.lcnt ∧ q.lbeg = r.lbeg ∧ q.lend = r.lend ∧ q.lact = r.lact ∧ q.tcause = r.tcause ∧ q.tval = r.tval ∧
    q.tblock = r.tblock ∧ q.tstat = r.tstat ∧ q.tvec = r.tvec ∧ q.tscr = r.tscr ∧ q.tmask = r.tmask ∧ q.colour = r.colour

/-- X[d] := v, and nothing else: x0 discards the value. -/
def WroteX (s t : State) (d : BitVec 6) (v : W64) : Prop :=
  t.x d = (if d = 0 then 0 else v) ∧ (∀ a, a ≠ d → t.x a = s.x a) ∧ (∀ q, t.w.getP q = s.w.getP q) ∧
    (∀ q, t.w.getV q = s.w.getV q) ∧ SameSpecial s.w t.w ∧ t.w.counts = s.w.counts ∧ SameOutside s t

/-- p[d] := v, and nothing else: a write to p0 is ignored. -/
def WroteP (s t : State) (d : BitVec 3) (v : W32) : Prop :=
  t.w.getP d = (if d = 0 then 0xFFFFFFFF else v) ∧ (∀ q, q ≠ d → t.w.getP q = s.w.getP q) ∧ (∀ a, t.x a = s.x a) ∧
    (∀ q, t.w.getV q = s.w.getV q) ∧ SameSpecial s.w t.w ∧ t.w.counts = s.w.counts ∧ SameOutside s t

/-- V[d] := v, and nothing else. -/
def WroteV (s t : State) (d : BitVec 5) (v : Line) : Prop :=
  t.w.getV d = v ∧ (∀ q, q ≠ d → t.w.getV q = s.w.getV q) ∧ (∀ a, t.x a = s.x a) ∧ (∀ q, t.w.getP q = s.w.getP q) ∧
    SameSpecial s.w t.w ∧ t.w.counts = s.w.counts ∧ SameOutside s t

/-- The instruction is well formed and its guard is true. -/
def Runs (i : Instr) (g : BitVec 3) (gs : Bool) (s : State) : Prop := i.wf = true ∧ s.guard g gs = true

/-- Run under its guard, the instruction answers a next state with X[d] = v and everything else as it was. -/
def GivesX (i : Instr) (g : BitVec 3) (gs : Bool) (s : State) (d : BitVec 6) (v : W64) : Prop :=
  Runs i g gs s → ∃ t, exec i s = .next t ∧ WroteX s t d v
def GivesP (i : Instr) (g : BitVec 3) (gs : Bool) (s : State) (d : BitVec 3) (v : W32) : Prop :=
  Runs i g gs s → ∃ t, exec i s = .next t ∧ WroteP s t d v
def GivesV (i : Instr) (g : BitVec 3) (gs : Bool) (s : State) (d : BitVec 5) (v : Line) : Prop :=
  Runs i g gs s → ∃ t, exec i s = .next t ∧ WroteV s t d v

end Sys2Proof.Says

open Sys2Proof Sys2Proof.Machine Sys2Proof.Says

/-! ## Scalar integers (04) -/

/-- 04 R74, Table 04.4, CMP: ADD, SUB, MUL (with `.sat` clamped), MULH, DIV, REM, MIN, MAX and CMP complete with the value the table
gives and change nothing else. -/
def Obligations.IntegerArithmeticResult : Prop :=
  ∀ (o : RRR) (s : State),
    let A := operand o.ty (s.x o.a)
    let B := operand o.ty (s.x o.b)
    let q := if B = 0 then -1 else A.tdiv B
    GivesX (.add o) o.g o.gs s o.d (result o.ty (satIf o.sat o.ty (A + B))) ∧
    GivesX (.sub o) o.g o.gs s o.d (result o.ty (satIf o.sat o.ty (A - B))) ∧
    GivesX (.mul o) o.g o.gs s o.d (result o.ty (satIf o.sat o.ty (A * B))) ∧
    GivesX (.mulh o) o.g o.gs s o.d (result o.ty (A * B / 2 ^ width o.ty)) ∧
    GivesX (.div o) o.g o.gs s o.d (result o.ty q) ∧
    GivesX (.rem o) o.g o.gs s o.d (result o.ty (if B = 0 then A else A - B * q)) ∧
    GivesX (.min o) o.g o.gs s o.d (result o.ty (min A B)) ∧
    GivesX (.max o) o.g o.gs s o.d (result o.ty (max A B)) ∧
    GivesX (.cmp o) o.g o.gs s o.d (if holds o.func.toNat A B then 1 else 0)

/-- 04 R74, Table 04.4, SEL: the bitwise forms and shifts (by B mod w) on the w bits of the type, and the selection by X[c] over all
64 bits. -/
def Obligations.IntegerBitwiseResult : Prop :=
  ∀ (o : RRR) (s : State),
    let k := (s.x o.b).toNat % width o.ty
    let A := (s.x o.a).setWidth (width o.ty)
    GivesX (.and o) o.g o.gs s o.d (extend o.ty (s.x o.a &&& s.x o.b)) ∧
    GivesX (.or o) o.g o.gs s o.d (extend o.ty (s.x o.a ||| s.x o.b)) ∧
    GivesX (.xor o) o.g o.gs s o.d (extend o.ty (s.x o.a ^^^ s.x o.b)) ∧
    GivesX (.shl o) o.g o.gs s o.d (extend o.ty (s.x o.a <<< k)) ∧
    GivesX (.shr o) o.g o.gs s o.d (extend o.ty ((A >>> k).setWidth 64)) ∧
    GivesX (.sar o) o.g o.gs s o.d (extend o.ty ((A.sshiftRight k).setWidth 64)) ∧
    GivesX (.sel o) o.g o.gs s o.d (extend o.ty (if s.x o.c = 0 then s.x o.b else s.x o.a))

/-- 04 R74, Table 04.5, MOVI, MOVHI, LEA: the immediate forms work on all 64 bits; LEA gives the address of 02 R28 without an
access. -/
def Obligations.ImmediateAndAddressResult : Prop :=
  ∀ (s : State),
    (∀ (o : RRI),
      let m : W64 := o.imm.signExtend 64
      GivesX (.addi o) o.g o.gs s o.d (s.x o.a + m) ∧ GivesX (.andi o) o.g o.gs s o.d (s.x o.a &&& m) ∧
      GivesX (.ori o) o.g o.gs s o.d (s.x o.a ||| m) ∧ GivesX (.xori o) o.g o.gs s o.d (s.x o.a ^^^ m) ∧
      GivesX (.shli o) o.g o.gs s o.d (s.x o.a <<< o.imm.toNat) ∧ GivesX (.shri o) o.g o.gs s o.d (s.x o.a >>> o.imm.toNat) ∧
      GivesX (.sari o) o.g o.gs s o.d ((s.x o.a).sshiftRight o.imm.toNat) ∧ GivesX (.movi o) o.g o.gs s o.d m ∧
      GivesX (.movhi o) o.g o.gs s o.d ((o.imm.setWidth 64 <<< 40) ||| (s.x o.a &&& 0xFFFFFFFFFF))) ∧
    ∀ (o : MEM),
      GivesX (.lea o) o.g o.gs s o.d
        (s.x o.a + (if o.ix then s.x o.b * BitVec.ofNat 64 (2 ^ o.sh.toNat) else 0) + o.off.signExtend 64)

/-- 04 R69, PCMP, PLOG, PMOV: predicates are written whole; bits are counted and found. -/
def Obligations.PredicateResult : Prop :=
  ∀ (o : RRR) (s : State),
    let A := s.w.getP (o.a.setWidth 3)
    let B := s.w.getP (o.b.setWidth 3)
    let d := o.d.setWidth 3
    (o.ty.toNat ≤ 7 → GivesP (.pcmp o) o.g o.gs s d
      (if holds o.func.toNat (operand o.ty (s.x o.a)) (operand o.ty (s.x o.b)) then 0xFFFFFFFF else 0)) ∧
    (8 ≤ o.ty.toNat → GivesP (.pcmp o) o.g o.gs s d
      (if Fp.cond o.func.toNat (opFp o.ty (s.x o.a)) (opFp o.ty (s.x o.b)) then 0xFFFFFFFF else 0)) ∧
    (o.func = 0 → GivesP (.plog o) o.g o.gs s d (A &&& B) ∧ GivesP (.pmov o) o.g o.gs s d ((s.x o.a).setWidth 32)) ∧
    (o.func = 1 → GivesP (.plog o) o.g o.gs s d (A ||| B) ∧ GivesX (.pmov o) o.g o.gs s o.d (A.setWidth 64)) ∧
    (o.func = 2 → GivesP (.plog o) o.g o.gs s d (A ^^^ B) ∧
      GivesX (.pmov o) o.g o.gs s o.d (BitVec.ofNat 64 ((List.range 32).countP fun l => A.getLsbD l))) ∧
    (o.func = 3 → GivesP (.plog o) o.g o.gs s d (A &&& ~~~B) ∧
      GivesX (.pmov o) o.g o.gs s o.d (BitVec.ofNat 64 (((List.range 32).find? fun l => A.getLsbD l).getD 32))) ∧
    (o.func = 4 → GivesP (.plog o) o.g o.gs s d (~~~A))

/-- What LREG leaves when it writes loop registers: the four as given, and everything else as it was. -/
def Sys2Proof.Says.WroteLoop (s t : State) (cnt beg fin : W64) (act : Bool) : Prop :=
  t.w.lcnt = cnt ∧ t.w.lbeg = beg ∧ t.w.lend = fin ∧ t.w.lact = act ∧ SameOutside s t ∧
    t.w = { s.w with lcnt := cnt, lbeg := beg, lend := fin, lact := act }

/-- 04 R55, LREG: the get forms read a loop register; the set forms write one; `.setbeg` and `.setend` under a running loop or with an
unaligned address, and `.setact` of an empty body, raise "loop register" (code 0x04) with tval X[a]. -/
def Obligations.LoopRegisterReadWrite : Prop :=
  ∀ (o : RRR) (s : State), Runs (.lreg o) o.g o.gs s →
    let A := s.x o.a
    let r := s.w
    let fault := exec (.lreg o) s = .next (s.faultAt s.cur 4 0 A)
    (o.func = 0 → ∃ t, exec (.lreg o) s = .next t ∧ WroteX s t o.d r.lcnt) ∧
    (o.func = 1 → ∃ t, exec (.lreg o) s = .next t ∧ WroteX s t o.d r.lbeg) ∧
    (o.func = 2 → ∃ t, exec (.lreg o) s = .next t ∧ WroteX s t o.d r.lend) ∧
    (o.func = 3 → ∃ t, exec (.lreg o) s = .next t ∧ WroteX s t o.d (if r.lact then 1 else 0)) ∧
    (o.func = 4 → ∃ t, exec (.lreg o) s = .next t ∧ WroteLoop s t A r.lbeg r.lend r.lact) ∧
    (o.func = 5 → if r.lact = true ∨ A.toNat % 8 ≠ 0 then fault
      else ∃ t, exec (.lreg o) s = .next t ∧ WroteLoop s t r.lcnt A r.lend r.lact) ∧
    (o.func = 6 → if r.lact = true ∨ A.toNat % 8 ≠ 0 then fault
      else ∃ t, exec (.lreg o) s = .next t ∧ WroteLoop s t r.lcnt r.lbeg A r.lact) ∧
    (o.func = 7 → if A.getLsbD 0 = true ∧ r.lend.toNat ≤ r.lbeg.toNat then fault
      else ∃ t, exec (.lreg o) s = .next t ∧ WroteLoop s t r.lcnt r.lbeg r.lend (A.getLsbD 0))

/-! ## Floating point (03, 04) -/

/-- The default NaN of a scalar floating-point type (Table 03.1). -/
def Sys2Proof.Says.defaultNaN (ty : BitVec 5) : W64 := if ty = 8 then 0x7FC00000 else if ty = 9 then 0x7FC0 else 0x7E00
/-- The word is a NaN of the type. -/
def Sys2Proof.Says.isNaNWord (ty : BitVec 5) (v : W64) : Prop :=
  if ty = 8 then 0x7F800000 < v.toNat % 2 ^ 31 else if ty = 9 then 0x7F80 < v.toNat % 2 ^ 15 else 0x7C00 < v.toNat % 2 ^ 15

/-- 03 R40, R42, R50, Table 04.6, FCMP: the scalar floating-point forms form the exact result and round it once to the type, the bits
above it zero; they count nothing. A NaN operand of FADD, FSUB, FMUL, FDIV or FMA gives the default NaN, whatever its payload, and
satisfies no condition of FCMP and PCMP but `.ne`; FMIN and FMAX ignore one NaN and give the default NaN for two. -/
def Obligations.FloatingPointResult : Prop :=
  (∀ (o : RRR) (s : State),
    let f := Fp.ofTy o.ty.toNat
    let A := opFp o.ty (s.x o.a)
    let B := opFp o.ty (s.x o.b)
    let C := opFp o.ty (s.x o.c)
    let once := fun (v : Fp.Val) (more : Bool) => BitVec.ofNat 64 (Fp.roundTo f o.rm.toNat false v more).raw
    GivesX (.fadd o) o.g o.gs s o.d (once (Fp.add o.rm.toNat A B) false) ∧
    GivesX (.fsub o) o.g o.gs s o.d (once (Fp.add o.rm.toNat A (Fp.neg B)) false) ∧
    GivesX (.fmul o) o.g o.gs s o.d (once (Fp.mul A B) false) ∧
    GivesX (.fdiv o) o.g o.gs s o.d (once (Fp.div A B).1 (Fp.div A B).2) ∧
    GivesX (.fma o) o.g o.gs s o.d (once (Fp.add o.rm.toNat (Fp.mul A B) C) false) ∧
    GivesX (.fmin o) o.g o.gs s o.d (once (Fp.fmin A B) false) ∧
    GivesX (.fmax o) o.g o.gs s o.d (once (Fp.fmax A B) false) ∧
    GivesX (.fcmp o) o.g o.gs s o.d (if Fp.cond o.func.toNat A B then 1 else 0)) ∧
  ∀ (o : RRR) (s : State),
    let N := defaultNaN o.ty
    let na := isNaNWord o.ty (s.x o.a)
    let nb := isNaNWord o.ty (s.x o.b)
    (na ∨ nb → GivesX (.fadd o) o.g o.gs s o.d N ∧ GivesX (.fsub o) o.g o.gs s o.d N ∧ GivesX (.fmul o) o.g o.gs s o.d N ∧
      GivesX (.fdiv o) o.g o.gs s o.d N ∧ GivesX (.fma o) o.g o.gs s o.d N ∧
      GivesX (.fcmp o) o.g o.gs s o.d (if o.func = 1 then 1 else 0) ∧
      (8 ≤ o.ty.toNat → GivesP (.pcmp o) o.g o.gs s (o.d.setWidth 3) (if o.func = 1 then 0xFFFFFFFF else 0))) ∧
    (isNaNWord o.ty (s.x o.c) → GivesX (.fma o) o.g o.gs s o.d N) ∧
    (na ∧ nb → GivesX (.fmin o) o.g o.gs s o.d N ∧ GivesX (.fmax o) o.g o.gs s o.d N)

/-- Count after a conversion: it stops at all ones (03 R45). -/
def Sys2Proof.Says.bumped (n : W32) : W32 := if n = 0xFFFFFFFF then n else n + 1

/-- X[d] := v, kind k of the converter counts one higher, and nothing else. -/
def Sys2Proof.Says.WroteXCount (s t : State) (d : BitVec 6) (v : W64) (k : Option Nat) : Prop :=
  (∀ j, Sp.get 0 t.w.counts j = if k = some j then bumped (Sp.get 0 s.w.counts j) else Sp.get 0 s.w.counts j) ∧
    t.x d = (if d = 0 then 0 else v) ∧ (∀ a, a ≠ d → t.x a = s.x a) ∧ (∀ q, t.w.getP q = s.w.getP q) ∧
    (∀ q, t.w.getV q = s.w.getV q) ∧ SameSpecial s.w t.w ∧ SameOutside s t

/-- 03 R44 to R51, FCVT, FRSQS, FRCPS, STATRD: a converter writes its result, extended by the type, and counts its kind; STATRD reads
a count, and with `.rc` clears it. -/
def Obligations.ConverterResult : Prop :=
  ∀ (s : State),
    (∀ (o : RRR),
      let c := Fp.convert o.func.toNat o.ty.toNat o.rm.toNat o.sat (s.x o.a).toNat
      (Runs (.fcvt o) o.g o.gs s → ∃ t, exec (.fcvt o) s = .next t ∧
        WroteXCount s t o.d (if o.ty.toNat ≤ 7 then extend o.ty (BitVec.ofNat 64 c.1) else BitVec.ofNat 64 c.1) c.2) ∧
      (Runs (.frsqs o) o.g o.gs s → ∃ t, exec (.frsqs o) s = .next t ∧
        WroteXCount s t o.d (BitVec.ofNat 64 (Fp.rsqSeed ((s.x o.a).toNat % 2 ^ 32)).1)
          (Fp.rsqSeed ((s.x o.a).toNat % 2 ^ 32)).2) ∧
      (Runs (.frcps o) o.g o.gs s → ∃ t, exec (.frcps o) s = .next t ∧
        WroteXCount s t o.d (BitVec.ofNat 64 (Fp.rcpSeed ((s.x o.a).toNat % 2 ^ 32)).1)
          (Fp.rcpSeed ((s.x o.a).toNat % 2 ^ 32)).2)) ∧
    ∀ (o : SYS), Runs (.statrd o) o.g o.gs s →
      let k := o.imm.toNat % 4
      ∃ t, exec (.statrd o) s = .next t ∧ t.x o.d = (if o.d = 0 then 0 else (Sp.get 0 s.w.counts k).setWidth 64) ∧
        (∀ j, Sp.get 0 t.w.counts j = if o.func = 1 ∧ j = k then 0 else Sp.get 0 s.w.counts j) ∧
        (∀ a, a ≠ o.d → t.x a = s.x a) ∧ (∀ q, t.w.getP q = s.w.getP q) ∧ (∀ q, t.w.getV q = s.w.getV q) ∧
        SameSpecial s.w t.w ∧ SameOutside s t

/-! ## Vectors (05, 03) -/

namespace Sys2Proof.Says

/-- Width of a sub-lane of a lane type (Table 05.2). -/
def partWidth (ty : BitVec 5) : Nat := if ty = 0x11 ∨ ty = 0x12 then 8 else if ty = 0x13 ∨ ty = 0x14 ∨ ty = 0xD ∨ ty = 0xE then 16 else 32
def part (w : Nat) (v : W32) (j : Nat) : BitVec w := v.extractLsb' (w * j) w
/-- `.s` types read their sub-lanes as signed. -/
def partInt (ty : BitVec 5) (v : W32) (j : Nat) : Int :=
  if ty = 4 ∨ ty = 0x11 ∨ ty = 0x13 then (part (partWidth ty) v j).toInt else ((part (partWidth ty) v j).toNat : Int)
def partClamp (ty : BitVec 5) (n : Int) : Int :=
  let w := partWidth ty
  if ty = 4 ∨ ty = 0x11 ∨ ty = 0x13 then max (-(2 ^ (w - 1) : Int)) (min (2 ^ (w - 1) - 1) n) else max 0 (min (2 ^ w - 1) n)

/-- 05 R77: the instruction answers a next state whose only change is V[d]; an active lane is as `f` says, another lane is 0 with `.z`
and keeps its value without. -/
def GivesLanes (i : Instr) (o : VEC) (s : State) (f : Nat → W32 → Prop) : Prop :=
  Runs i o.g o.gs s → ∃ t v, exec i s = .next t ∧ WroteV s t (o.d.setWidth 5) v ∧
    ∀ l, l < 32 → if (s.w.getP o.m).getLsbD l then f l (lane v l) else lane v l = if o.z then 0 else lane (s.v o.d) l

/-- An integer operation on each sub-lane, clamped with `.sat`. -/
def GivesInts (i : Instr) (o : VEC) (s : State) (f : Int → Int → Int) : Prop :=
  GivesLanes i o s fun l r => ∀ j, j * partWidth o.ty < 32 →
    let n := f (partInt o.ty (lane (s.v o.a) l) j) (partInt o.ty (lane (s.v o.b) l) j)
    part (partWidth o.ty) r j = BitVec.ofInt (partWidth o.ty) (if o.sat then partClamp o.ty n else n)

/-- A shift of each sub-lane by the sub-lane of vb mod w, or by imm8. -/
def GivesShift (i : Instr) (o : VEC) (s : State) (f : {w : Nat} → BitVec w → Nat → BitVec w) : Prop :=
  GivesLanes i o s fun l r => ∀ j, j * partWidth o.ty < 32 →
    let w := partWidth o.ty
    part w r j = f (part w (lane (s.v o.a) l) j) (if o.func = 1 then o.imm.toNat else (part w (lane (s.v o.b) l) j).toNat % w)

/-- A floating-point operation on each sub-lane, rounded once. -/
def GivesFloats (i : Instr) (o : VEC) (s : State) (f : Fp.Val → Fp.Val → Fp.Val → Fp.Val) : Prop :=
  GivesLanes i o s fun l r => ∀ j, j * partWidth o.ty < 32 →
    let fm : Fmt := if o.ty = 8 then .f32 else if o.ty = 0xD then .bf16 else .f16
    let val := fun (q : BitVec 6) => Fp.unpack fm (part (partWidth o.ty) (lane (s.v q) l) j).toNat
    part (partWidth o.ty) r j =
      BitVec.ofNat (partWidth o.ty) (Fp.roundTo fm o.rm.toNat false (f (val o.a) (val o.b) (val o.c)) false).raw

end Sys2Proof.Says

/-- 05 R77, R79, R86: integer lane forms act sub-lane by sub-lane on the active lanes; VSHR is logical and VSAR arithmetic whatever
the type's sign. -/
def Obligations.VectorIntegerResult : Prop :=
  ∀ (o : VEC) (s : State),
    GivesInts (.vadd o) o s (fun a b => a + b) ∧ GivesInts (.vsub o) o s (fun a b => a - b) ∧
    GivesInts (.vmul o) o s (fun a b => a * b) ∧ GivesInts (.vmin o) o s min ∧ GivesInts (.vmax o) o s max ∧
    GivesLanes (.vand o) o s (fun l r => r = lane (s.v o.a) l &&& lane (s.v o.b) l) ∧
    GivesLanes (.vor o) o s (fun l r => r = lane (s.v o.a) l ||| lane (s.v o.b) l) ∧
    GivesLanes (.vxor o) o s (fun l r => r = lane (s.v o.a) l ^^^ lane (s.v o.b) l) ∧
    GivesShift (.vshl o) o s (fun a k => a <<< k) ∧ GivesShift (.vshr o) o s (fun a k => a >>> k) ∧
    GivesShift (.vsar o) o s (fun a k => a.sshiftRight k)

/-- 05 R87 to R89, R92 to R95: floating-point lane forms round each sub-lane once; VCMP writes one predicate bit a lane; VSEL takes
each lane by its predicate bit; VPERM, VBCAST, VEXT and VINS move lanes. -/
def Obligations.VectorFloatAndMoveResult : Prop :=
  ∀ (o : VEC) (s : State),
    let m := s.w.getP o.m
    GivesFloats (.vfadd o) o s (fun a b _ => Fp.add o.rm.toNat a b) ∧
    GivesFloats (.vfsub o) o s (fun a b _ => Fp.add o.rm.toNat a (Fp.neg b)) ∧
    GivesFloats (.vfmul o) o s (fun a b _ => Fp.mul a b) ∧
    GivesFloats (.vfma o) o s (fun a b c => Fp.add o.rm.toNat (Fp.mul a b) c) ∧
    GivesFloats (.vfmin o) o s (fun a b _ => Fp.fmin a b) ∧ GivesFloats (.vfmax o) o s (fun a b _ => Fp.fmax a b) ∧
    GivesLanes (.vperm o) o s (fun l r => r = lane (s.v o.a) ((lane (s.v o.b) l).toNat % 32)) ∧
    GivesLanes (.vbcast o) o s (fun _ r => r = if o.func = 1 then lane (s.v o.a) o.imm.toNat else (s.x o.a).setWidth 32) ∧
    (Runs (.vcmp o) o.g o.gs s → ∃ t p, exec (.vcmp o) s = .next t ∧ WroteP s t (o.d.setWidth 3) p ∧
      ∀ l, l < 32 →
        let x := lane (s.v o.a) l
        let y := lane (s.v o.b) l
        let c := if o.ty = 8 then Fp.cond o.func.toNat (Fp.unpack .f32 x.toNat) (Fp.unpack .f32 y.toNat)
          else if o.ty = 4 then holds o.func.toNat x.toInt y.toInt else holds o.func.toNat x.toNat y.toNat
        p.getLsbD l = if m.getLsbD l then c else !o.z && (s.p o.d).getLsbD l) ∧
    (Runs (.vsel o) o.g o.gs s → ∃ t v, exec (.vsel o) s = .next t ∧ WroteV s t (o.d.setWidth 5) v ∧
      ∀ l, l < 32 → lane v l = if (s.p o.c).getLsbD l then lane (s.v o.a) l else lane (s.v o.b) l) ∧
    GivesX (.vext o) o.g o.gs s o.d
      (if o.ty = 4 then (lane (s.v o.a) o.imm.toNat).signExtend 64 else (lane (s.v o.a) o.imm.toNat).setWidth 64) ∧
    (Runs (.vins o) o.g o.gs s → ∃ t v, exec (.vins o) s = .next t ∧ WroteV s t (o.d.setWidth 5) v ∧
      ∀ l, l < 32 → lane v l = if l = o.imm.toNat then (s.x o.a).setWidth 32 else lane (s.v o.d) l)

namespace Sys2Proof.Says

/-- 05 R90: node i of level k of the reduction tree: lane i at level 0, above it the pair of nodes 2i and 2i + 1, a node without an
active lane passing the other on. -/
def treeNode {α : Type} (op : α → α → α) (leaf : Nat → Option α) : Nat → Nat → Option α
  | 0, i => leaf i
  | k + 1, i =>
    match treeNode op leaf k (2 * i), treeNode op leaf k (2 * i + 1) with
    | some a, some b => some (op a b)
    | some a, none => some a
    | none, b => b

/-- VRED's operation on two FP32 words: add, min, max. -/
def floatStep (fn rm : Nat) (a b : W32) : W32 :=
  let x := Fp.unpack .f32 a.toNat
  let y := Fp.unpack .f32 b.toNat
  BitVec.ofNat 32 (if fn = 0 then (Fp.roundTo .f32 rm false (Fp.add rm x y) false).raw
    else (Fp.roundTo .f32 0 false (if fn = 1 then Fp.fmin x y else Fp.fmax x y) false).raw)

/-- Elements of w bits of a vector register. -/
def element (w : Nat) (v : Line) (j : Nat) : BitVec w := v.extractLsb' (w * j) w

/-- A count after n more of its kind: it stops at all ones. -/
def countedUp (old : W32) (n : Nat) : W32 := BitVec.ofNat 32 (min (2 ^ 32 - 1) (old.toNat + n))

end Sys2Proof.Says

/-- 05 R90, R91, Table 05.4: VRED combines the active lanes through the fixed tree of five levels: integer sums exactly, FP32 rounded at
each node; no active lane gives the value of Table 05.4. -/
def Obligations.VectorReductionResult : Prop :=
  ∀ (o : VEC) (s : State),
    let v := s.v o.a
    let on := fun (l : Nat) => (s.w.getP o.m).getLsbD l
    let fn := o.func.toNat
    (o.ty = 8 → GivesX (.vred o) o.g o.gs s o.d
      (((treeNode (floatStep fn o.rm.toNat) (fun l => if on l then some (lane v l) else none) 5 0).getD
        (if fn = 0 then 0 else if fn = 1 then 0x7F800000 else 0xFF800000)).setWidth 64)) ∧
    (o.ty = 4 ∨ o.ty = 5 → fn ≤ 2 → GivesX (.vred o) o.g o.gs s o.d
      (result o.ty (satIf o.sat o.ty
        ((treeNode (fun (a b : Int) => if fn = 0 then a + b else if fn = 1 then min a b else max a b)
          (fun l => if on l then some (operand o.ty ((lane v l).setWidth 64)) else none) 5 0).getD
          (if fn = 0 then 0 else if o.ty = 4 then (if fn = 1 then 2 ^ 31 - 1 else -(2 ^ 31)) else if fn = 1 then 2 ^ 32 - 1 else 0))))) ∧
    (o.ty = 4 ∨ o.ty = 5 → 3 ≤ fn → GivesX (.vred o) o.g o.gs s o.d
      (extend o.ty (((List.range 32).foldl
        (fun (r : W32) l => if on l then (if fn = 3 then r &&& lane v l else if fn = 4 then r ||| lane v l else r ^^^ lane v l) else r)
        (if fn = 3 then 0xFFFFFFFF else 0)).setWidth 64)))

/-- 03 R44 to R51, VCVT, VRSQS, VRCPS: widening takes part `part` of va, narrowing writes part `part` of vd and keeps the others; a seed
form acts on the active lanes; each converted element counts its kind once. -/
def Obligations.VectorConverterResult : Prop :=
  ∀ (o : VEC) (s : State),
    let ws := Fp.tyBits o.func.toNat
    let wd := Fp.tyBits o.ty.toNat
    let n := 1024 / max ws wd
    let src := fun (j : Nat) => (element ws (s.v o.a) (if ws ≤ wd then o.imm.toNat * n + j else j)).toNat
    let r := fun (j : Nat) => Fp.convert o.func.toNat o.ty.toNat o.rm.toNat o.sat (src j)
    let counted := fun (t : State) (k : Nat → Option Nat) (m : Nat) => ∀ c, c < 4 →
      Sp.get 0 t.w.counts c = countedUp (Sp.get 0 s.w.counts c) ((List.range m).countP fun j => k j == some c)
    let only := fun (t : State) (v : Line) => t.w.getV (o.d.setWidth 5) = v ∧
      (∀ q, q ≠ o.d.setWidth 5 → t.w.getV q = s.w.getV q) ∧ (∀ a, t.x a = s.x a) ∧ (∀ q, t.w.getP q = s.w.getP q) ∧
      SameSpecial s.w t.w ∧ SameOutside s t
    let seed := fun (i : Instr) (f : Nat → Nat × Option Nat) => Runs i o.g o.gs s →
      ∃ t v, exec i s = .next t ∧ only t v ∧
        (∀ l, l < 32 → lane v l = if (s.w.getP o.m).getLsbD l then BitVec.ofNat 32 (f (lane (s.v o.a) l).toNat).1
          else if o.z then 0 else lane (s.v o.d) l) ∧
        counted t (fun l => if (s.w.getP o.m).getLsbD l then (f (lane (s.v o.a) l).toNat).2 else none) 32
    (Runs (.vcvt o) o.g o.gs s → ∃ t v, exec (.vcvt o) s = .next t ∧ only t v ∧ counted t (fun j => (r j).2) n ∧
      (ws ≤ wd → ∀ j, j < n → element wd v j = BitVec.ofNat wd (r j).1) ∧
      (wd < ws → ∀ j, j < 1024 / wd → element wd v j =
        if o.imm.toNat * n ≤ j ∧ j < o.imm.toNat * n + n then BitVec.ofNat wd (r (j - o.imm.toNat * n)).1
        else element wd (s.v o.d) j)) ∧
    seed (.vrsqs o) Fp.rsqSeed ∧ seed (.vrcps o) Fp.rcpSeed

/-! ## Memory (06, 05 R80 to R84, 17) -/

namespace Sys2Proof.Says

/-- The instruction holds effects until commit (04 R57) and changes nothing else: no register, no byte of memory. -/
def Holds (s t : State) (es : List Held) : Prop :=
  t.blk.held = s.blk.held ++ es ∧ t.w = s.w ∧ (∃ b, t = s.setBlk b) ∧ t.blk.exit = s.blk.exit ∧ t.blk.wait = s.blk.wait ∧
    (∀ key h, t.readHome key h = s.readHome key h) ∧ ∀ n, n ≠ s.cur → t.core n = s.core n
def GivesHeld (i : Instr) (g : BitVec 3) (gs : Bool) (s : State) (es : List Held) : Prop :=
  Runs i g gs s → ∃ t, exec i s = .next t ∧ Holds s t es

/-- Bytes of a scalar type code 0x00 to 0x0A. -/
def bytes (ty : BitVec 5) : Nat := if ty = 8 then 4 else if ty = 9 ∨ ty = 10 then 2 else width ty / 8
/-- The bytes of a little-endian value, the first lowest. -/
def low (n : Nat) (v : W64) : List Byte := (List.range n).map fun i => v.extractLsb' (8 * i) 8
/-- The register content of n loaded bytes: integers by their type, floating-point words with zeros above. -/
def loaded (ty : BitVec 5) (bs : List Byte) : W64 :=
  if ty.toNat ≤ 7 then extend ty (BitVec.ofNat 64 (bytesNat bs)) else BitVec.ofNat 64 (bytesNat bs)
/-- The lanes of a mask, ascending. -/
def lanes (m : W32) : List Nat := (List.range 32).filter fun l => m.getLsbD l

end Sys2Proof.Says

/-- 06 R99, R101, R103, R104, 04 R58, R59, 17 R251: an aligned, permitted LD or LDA reads its bytes into X[d]; ST and STL hold the
bytes of X[d] for the home of their address; in front of STL's store stands a release at a scope wider than `.core` and the order of the
core's own accesses at `.core`; before LDA's read the core's older copies go. Nothing else changes; memory itself changes only when the store is delivered. Each byte a load reads is that
of the latest earlier store of its block to the byte, and else the core's view of memory: its own copy of the line, or the home. A
misaligned access raises code 0x08 with tval its address before any translation; one whose translation or permission fails takes that
fault; ST `.full` outside the local pad raises code 0x18, and its place is looked at after translation and permission, which is the model's
reading (log 70). LDA at a wider scope leaves every byte at its home but those of dirty copies it gives back, and those in GDDR-7. -/
def Obligations.LoadStoreResult : Prop :=
  ((∀ (o : MEM) (s : State),
    let va := s.memAddr o
    let n := bytes o.ty
    let fresh := s.l1DropAll s.cur
    (∀ tr bs, s.load va n = .ok (tr, bs) → GivesX (.ld o) o.g o.gs s o.d (loaded o.ty bs)) ∧
    (∀ tr bs, o.scope = 0 → s.load va n = .ok (tr, bs) → GivesX (.lda o) o.g o.gs s o.d (loaded o.ty bs)) ∧
    (∀ tr bs, o.scope ≠ 0 → fresh.load va n = .ok (tr, bs) → Runs (.lda o) o.g o.gs s →
      ∃ t, exec (.lda o) s = .next t ∧ t.x o.d = (if o.d = 0 then 0 else loaded o.ty bs) ∧ (∀ a, a ≠ o.d → t.x a = s.x a) ∧
        (∀ q, t.w.getP q = s.w.getP q) ∧ (∀ q, t.w.getV q = s.w.getV q) ∧ t.blk.held = s.blk.held ∧
        (∀ line, Sp.find? t.me.l1 line = none) ∧ (∀ key a, t.readHome key a = fresh.readHome key a) ∧
        (∀ a, space a ≠ .gddr → (∀ e ∈ s.me.l1, e.1 = a / 128 → e.2.dirty.getLsbD (a % 128) = false) →
          t.readHome 0 a = s.readHome 0 a)) ∧
    (∀ tr, s.coreAccess va.toNat n .w = .ok tr →
      (o.func ≠ 1 → GivesHeld (.st o) o.g o.gs s [.store tr.home (low n (s.x o.d)) (storeHow tr false) tr.key]) ∧
      (o.func = 1 → space tr.home = .pad → GivesHeld (.st o) o.g o.gs s [.store tr.home (low n (s.x o.d)) .padFull tr.key]) ∧
      (o.scope = 0 → GivesHeld (.stl o) o.g o.gs s [.order, .store tr.home (low n (s.x o.d)) (storeHow tr false) tr.key]) ∧
      (o.scope ≠ 0 → GivesHeld (.stl o) o.g o.gs s
        [.release (o.scope == 6), .store tr.home (low n (s.x o.d)) (throughHow tr) tr.key]))) ∧
  ∀ (s : State) (va : W64) (n : Nat) (tr : Tr),
    s.coreAccess va.toNat n .r = .ok tr →
    (∀ i, i < n → space (tr.home + i) ≠ .remote ∧ space (tr.home + i) ≠ .reg) →
    (∀ i, i < n → (heldByte s.blk.held (tr.home + i)).isSome = true ∨ (s.coreByte s.cur tr.pres tr.key (tr.home + i)).2 = false) →
    s.load va n = .ok (tr, (List.range n).map fun i =>
      (heldByte s.blk.held (tr.home + i)).getD (s.coreByte s.cur tr.pres tr.key (tr.home + i)).1)) ∧
  ∀ (o : MEM) (s : State),
    let va := s.memAddr o
    let n := bytes o.ty
    (Runs (.ld o) o.g o.gs s → va.toNat % n ≠ 0 → exec (.ld o) s = .next (s.faultAt s.cur 0x08 0 va)) ∧
    (Runs (.st o) o.g o.gs s → va.toNat % n ≠ 0 → exec (.st o) s = .next (s.faultAt s.cur 0x08 0 va)) ∧
    (Runs (.stl o) o.g o.gs s → va.toNat % n ≠ 0 → exec (.stl o) s = .next (s.faultAt s.cur 0x08 0 va)) ∧
    (Runs (.lda o) o.g o.gs s → o.scope = 0 → va.toNat % n ≠ 0 → exec (.lda o) s = .next (s.faultAt s.cur 0x08 0 va)) ∧
    (∀ code lvl v, Runs (.ld o) o.g o.gs s → s.coreAccess va.toNat n .r = .error (.fault code lvl v) →
      exec (.ld o) s = .next (s.faultAt s.cur code lvl v)) ∧
    (∀ code lvl v, Runs (.st o) o.g o.gs s → s.coreAccess va.toNat n .w = .error (.fault code lvl v) →
      exec (.st o) s = .next (s.faultAt s.cur code lvl v)) ∧
    (∀ tr, Runs (.st o) o.g o.gs s → o.func = 1 → s.coreAccess va.toNat n .w = .ok tr → space tr.home ≠ .pad →
      exec (.st o) s = .next (s.faultAt s.cur 0x18 0 va))

/-- 05 R80 to R84: VLD and VGATH give each active lane the word at its address, which the lane reads now or, being an access of its own,
has read ahead; VST and VSCAT hold a store for each active lane in ascending order of lanes, and of two lanes at one word the highest
alone stores. The addresses are 4 bytes apart, or by the index lane of vb. -/
def Obligations.VectorMemoryResult : Prop :=
  ∀ (o : MEM) (s : State),
    let m := s.w.getP (o.func.setWidth 3)
    let line := fun (l : Nat) => s.memAddr o + BitVec.ofNat 64 (4 * l)
    let idx := fun (l : Nat) => if o.ty = 4 then (lane (s.v o.b) l).signExtend 64 else (lane (s.v o.b) l).setWidth 64
    let spread := fun (l : Nat) => s.x o.a + (idx l <<< o.sh.toNat) + o.off.signExtend 64
    let load := fun (i : Instr) (addr : Nat → W64) => ∀ (r : Nat → W32),
      (∀ l, l ∈ lanes m → Sp.find? s.blk.lanes (addr l).toNat = some (r l) ∨ (Sp.find? s.blk.lanes (addr l).toNat = none ∧
        ∃ tr bs, s.load (addr l) 4 = .ok (tr, bs) ∧ r l = BitVec.ofNat 32 (bytesNat bs))) → Runs i o.g o.gs s →
        ∃ t v, exec i s = .next t ∧ WroteV (s.setBlk { s.blk with lanes := [] }) t (o.d.setWidth 5) v ∧
          ∀ l, l < 32 → lane v l = if m.getLsbD l then r l else if o.func.getLsbD 3 then 0 else lane (s.v o.d) l
    let store := fun (i : Instr) (addr : Nat → W64) => ∀ (tr : Nat → Tr),
      (∀ l, l ∈ lanes m → s.coreAccess (addr l).toNat 4 .w = .ok (tr l)) →
        GivesHeld i o.g o.gs s (((lanes m).filter fun l => (lanes m).all fun k => k ≤ l || (tr k).home != (tr l).home).map fun l =>
          .store (tr l).home (low 4 ((lane (s.v o.d) l).setWidth 64)) (storeHow (tr l) false) (tr l).key)
    load (.vld o) line ∧ load (.vgath o) spread ∧ store (.vst o) line ∧ store (.vscat o) spread

/-- 17 R250, R252, 06 R98: a held store that reaches its memory changes the bytes from its home address up and no other byte outside
GDDR-7; a pad store may set its words full. -/
def Obligations.HeldStoreWritesItsBytes : Prop :=
  ∀ (s : State) (n h key : Nat) (bs : List Byte) (rest : List Held) (how : StoreHow),
    how = .pad ∨ how = .padFull ∨ how = .home →
    (∀ i, i < bs.length → space (h + i) ≠ .gddr) →
    (how = .home → ∀ line, Sp.find? (s.core n).l1 line = none) →
    (s.core n).blk.held = .store h bs how key :: rest →
    let t := s.deliverNext n
    (∀ k a, space a ≠ .gddr → t.readHome k a = if h ≤ a ∧ a < h + bs.length then bs.getD (a - h) 0 else s.readHome k a) ∧
      (t.core n).blk.held = rest ∧ (how = .padFull → h % 4 = 0 → ∀ i, i < bs.length → Sp.get false t.fe (h + i - (h + i) % 4) = true)

/-! ## Control (04 R60, R62, R70, Table 04.7; 19 R298) -/

namespace Sys2Proof.Says

/-- The exit is recorded, no further instruction of the block runs, and the registers are as `r` says; nothing else changes. -/
def Exits (s t : State) (e : Exit) (r : Regs) : Prop :=
  t.blk.exit = e ∧ t.blk.words[t.blk.idx]? = none ∧ t.w = r ∧ t.blk.held = s.blk.held ∧ (∃ b, t = s.setBlk b) ∧
    (∀ key h, t.readHome key h = s.readHome key h) ∧ ∀ n, n ≠ s.cur → t.core n = s.core n

/-- The fall-through address of R62: h + 8 × (len + 2), for a block of len + 1 words. -/
def after (s : State) : W64 := s.blk.hdr + BitVec.ofNat 64 (8 * (s.blk.words.length + 1))
/-- A word offset of Table 04.7. -/
def words (off : BitVec 34) : W64 := off.signExtend 64 * 8

end Sys2Proof.Says

/-- 04 R60, R62, R70, Table 04.7: BR, BRR, CALL, CALLR and RET choose their successor and write their link; LOOP enters the loop, skips
a body whose count is 0, and faults with code 0x04 under a running loop or for an empty body. -/
def Obligations.TransferOfControl : Prop :=
  ∀ (o : BRX) (s : State),
    let h := s.blk.hdr
    let link := s.w.setX o.d (after s)
    let c := s.x o.a
    let goes := fun (i : Instr) (target : W64) (r : Regs) => Runs i o.g o.gs s → ∃ t, exec i s = .next t ∧ Exits s t (.goto target) r
    goes (.br o) (h + words o.off) s.w ∧ goes (.brr o) (s.x o.a + words o.off) s.w ∧
    goes (.call o) (h + words o.off) link ∧ goes (.callr o) (s.x o.a + words o.off) link ∧ goes (.ret o) (s.x o.a) s.w ∧
    (s.w.lact = true → Runs (.loop o) o.g o.gs s → exec (.loop o) s = .next (s.faultAt s.cur 4 0 h)) ∧
    (s.w.lact = false → c = 0 → goes (.loop o) (h + words o.off) s.w) ∧
    (s.w.lact = false → c ≠ 0 → (h + words o.off).toNat ≤ (after s).toNat → Runs (.loop o) o.g o.gs s →
      exec (.loop o) s = .next (s.faultAt s.cur 4 0 (h + words o.off))) ∧
    (s.w.lact = false → c ≠ 0 → (after s).toNat < (h + words o.off).toNat →
      goes (.loop o) (after s) { s.w with lcnt := c, lbeg := after s, lend := h + words o.off, lact := true })

/-- 19 R298: SYSC, ERET and HALT end the block, which acts on them at its commit (`Obligations.BlockCommits`); BKPT with tstat.bke = 0 does nothing. TRAP discards
its block with code 0x05 and tval X[a], BKPT with tstat.bke = 1 with code 0x07 and the address of its word. -/
def Obligations.TrapAndExitForms : Prop :=
  ∀ (o : SYS) (s : State),
    let ends := fun (i : Instr) (e : Exit) => Runs i o.g o.gs s → ∃ t, exec i s = .next t ∧ Exits s t e s.w
    ends (.sysc o) (.sysc o.imm.toNat) ∧ ends (.eret o) .eret ∧ ends (.halt o) .halt ∧
    (Runs (.trap o) o.g o.gs s → exec (.trap o) s = .next (s.faultAt s.cur 5 0 (s.x o.a))) ∧
    (Runs (.bkpt o) o.g o.gs s → exec (.bkpt o) s =
      .next (if s.w.tstat.getLsbD 5 then s.faultAt s.cur 7 0 (s.blk.hdr + BitVec.ofNat 64 (8 * s.blk.idx)) else s))

/-- 04 R59, 19 R283, 18 R273: an instruction's fault on a core with no bank answer outstanding discards the block: no register but the
trap registers differs from what the last committed block left, no held effect remains and no floor, pad or crown byte changes. tcause
holds the code and level, tval the value named, tblock the block's header, tstat ie into pie with the level in ppl; the level is S, and
the core goes on at tvec or, where the handler cannot be fetched, stops with a double fault. -/
def Obligations.FaultEntersHandler : Prop :=
  ∀ (s : State) (n code lvl : Nat) (v : W64),
    s.outstanding n = false → (∀ e ∈ (s.core n).blk.held, ∀ a b c d, e ≠ .nalloc a b c d) →
    let c := s.core n
    let t := s.faultAt n code lvl v
    let r := (t.core n).regs
    (t.core n).run ≠ .stopped →
    r.tcause = BitVec.ofNat 64 (lvl * 2 ^ 12 + code) ∧ r.tval = v ∧ r.tblock = c.pc ∧
      r.tstat.getLsbD 0 = false ∧ r.tstat.getLsbD 1 = c.regs.tstat.getLsbD 0 ∧ r.tstat.getLsbD 2 = c.lvlS ∧
      r.tstat.getLsbD 3 = c.inDisp ∧ r.tstat.getLsbD 5 = c.regs.tstat.getLsbD 5 ∧
      (t.core n).lvlS = true ∧ (t.core n).pc = c.regs.tvec ∧ (t.core n).blk.held = [] ∧
      r.x = c.regs.x ∧ r.p = c.regs.p ∧ r.v = c.regs.v ∧ r.lcnt = c.regs.lcnt ∧ r.lbeg = c.regs.lbeg ∧ r.lend = c.regs.lend ∧
      r.lact = c.regs.lact ∧ r.tvec = c.regs.tvec ∧ r.tscr = c.regs.tscr ∧ r.tmask = c.regs.tmask ∧ r.colour = c.regs.colour ∧
      r.counts = c.regs.counts ∧ (∀ key h, t.readHome key h = s.readHome key h) ∧ ∀ m, m ≠ n → t.core m = s.core m

/-! ## Waits in the pad, maintenance and fences (06) -/

/-- The execution of a wait form and the arrival of its answer, on the core whose turn it is. -/
def Sys2Proof.Says.Answered (i : Instr) (s u : State) : Prop :=
  ∃ t, exec i s = .next t ∧ exec (.waitAnswer s.curCore) t = .next u

/-- 06 R105, R106: LDF takes words that are full, empties them with `.clr`, and waits while one is empty; WAITA takes the word at once
where the condition holds, and waits where it does not. A misaligned address raises code 0x08, one outside the local pad 0x18. -/
def Obligations.PadWaitForms : Prop :=
  ∀ (o : MEM) (s : State),
    let va := (s.memAddr o).toNat
    let n := bytes o.ty
    let h := padHome s.cur (va - padLocal)
    (Runs (.ldf o) o.g o.gs s → va % n = 0 → padLocal ≤ va → va < 2 ^ 57 →
      (s.isFull h n = true → s.anyPoison h n = false →
        ∃ u, Answered (.ldf o) s u ∧ u.x o.d = (if o.d = 0 then 0 else loaded o.ty (s.readHomeN 0 h n)) ∧ u.blk.wait = .none ∧
          (∀ a, a ≠ o.d → u.x a = s.x a) ∧ (∀ key a, u.readHome key a = s.readHome key a) ∧
          u.fe = (if o.func = 1 then s.setFe h n false else s).fe) ∧
      (s.isFull h n = false → ∃ t, exec (.ldf o) s = .next t ∧ t.blk.wait ≠ .none ∧ exec (.waitAnswer s.curCore) t = .next t)) ∧
    (Runs (.waita o) o.g o.gs s → va % 4 = 0 → padLocal ≤ va → va < 2 ^ 57 →
      let m : W32 := BitVec.ofNat 32 (s.readVal 0 h 4)
      let b : W32 := (s.x o.b).setWidth 32
      let c := if o.ty = 4 then holds o.func.toNat m.toInt b.toInt else holds o.func.toNat m.toNat b.toNat
      (c = true → s.anyPoison h 4 = false → ∃ u, Answered (.waita o) s u ∧ u.blk.wait = .none ∧
        u.x o.d = (if o.d = 0 then 0 else if o.ty = 4 then m.signExtend 64 else m.setWidth 64) ∧ ∀ a, a ≠ o.d → u.x a = s.x a) ∧
      (c = false → ∃ t, exec (.waita o) s = .next t ∧ t.blk.wait ≠ .none ∧ exec (.waitAnswer s.curCore) t = .next t)) ∧
    (Runs (.ldf o) o.g o.gs s → va % n ≠ 0 → exec (.ldf o) s = .next (s.faultAt s.cur 0x08 0 (s.memAddr o))) ∧
    (Runs (.ldf o) o.g o.gs s → va % n = 0 → va < padLocal → exec (.ldf o) s = .next (s.faultAt s.cur 0x18 0 (s.memAddr o))) ∧
    (Runs (.waita o) o.g o.gs s → va % 4 = 0 → va < padLocal → exec (.waita o) s = .next (s.faultAt s.cur 0x18 0 (s.memAddr o)))

/-- 06 R107 to R111: PF changes nothing; CFLUSH and CINV hold a maintenance command of whole lines; INVAL.CB removes entries of the
control-block cache; FENCE drops the core's copies where it is an acquire, holds a release where it is a release, with an acquire behind
it for `.rw`, and at `.core` holds the order of the core's own accesses where it is a release. -/
def Obligations.CacheMaintenanceForms : Prop :=
  ∀ (s : State),
    (∀ (o : MEM),
      let va := (s.memAddr o).toNat
      let len := (s.x o.d).toNat
      let down := va - va % 128
      let r : Nat × Nat := if o.func = 0 then (down, 128) else if o.func = 1 then
        (if len = 0 then (va, 0) else (down, (va + len + 127) / 128 * 128 - down)) else (0, 0)
      (Runs (.pf o) o.g o.gs s → exec (.pf o) s = .next s) ∧
      GivesHeld (.cflush o) o.g o.gs s [.flush s.me.regs.colour s.me.lvlS r.1 r.2 (o.func == 2) false] ∧
      GivesHeld (.cinv o) o.g o.gs s [.flush s.me.regs.colour s.me.lvlS r.1 r.2 (o.func == 2) true] ∧
      (Runs (.invalCb o) o.g o.gs s → o.func = 1 → ∃ t, exec (.invalCb o) s = .next t ∧ t.me.cbc = [] ∧ t.blk = s.blk ∧
        ∀ key h, t.readHome key h = s.readHome key h) ∧
      (Runs (.invalCb o) o.g o.gs s → o.func ≠ 1 → va % 32 = 0 → ∃ t, exec (.invalCb o) s = .next t ∧ t.blk = s.blk ∧
        (∀ e, e ∈ t.me.cbc ↔ e ∈ s.me.cbc ∧ e.1 ≠ va) ∧ ∀ key h, t.readHome key h = s.readHome key h) ∧
      (Runs (.invalCb o) o.g o.gs s → o.func ≠ 1 → va % 32 ≠ 0 → exec (.invalCb o) s = .next (s.faultAt s.cur 8 0 (s.memAddr o)))) ∧
    ∀ (o : SYS), Runs (.fence o) o.g o.gs s →
      (o.imm = 0 → o.func = 1 → exec (.fence o) s = .next s) ∧
      (o.imm = 0 → o.func ≠ 1 → ∃ t, exec (.fence o) s = .next t ∧ Holds s t [.order]) ∧
      (o.imm ≠ 0 → ∃ t, exec (.fence o) s = .next t ∧ t.w = s.w ∧
        t.blk.held = s.blk.held ++
          (if o.func = 1 then [] else if o.func = 0 then [.release (o.imm == 6), .acquire] else [.release (o.imm == 6)]) ∧
        (o.func.toNat ≤ 1 → ∀ line, Sp.find? t.me.l1 line = none) ∧
        (2 ≤ o.func.toNat → (∀ key h, t.readHome key h = s.readHome key h) ∧ t.me.l1 = s.me.l1))

/-! ## Bank forms (07) -/

namespace Sys2Proof.Says

/-- The bank operation that an instruction of the core whose turn it is holds. -/
def bankOp (s : State) (o : MEM) (home : Nat) (va : W64) (reg : Option Nat) (kind : BankKind) : BankOp :=
  { core := s.cur, reg := reg, addr := home, va := va, sc := o.ord == 3, acq := o.ord == 1 && o.scope != 0, kind := kind }

/-- An SC form: the core's copies go at once, the effects are held until commit, and no register changes (07 R130). -/
def GivesHeldFresh (i : Instr) (g : BitVec 3) (gs : Bool) (s : State) (es : List Held) : Prop :=
  Runs i g gs s → ∃ t, exec i s = .next t ∧ t.blk = { s.blk with held := s.blk.held ++ es } ∧ t.w = s.w ∧
    (∀ line, Sp.find? t.me.l1 line = none) ∧ ∀ n, n ≠ s.cur → t.core n = s.core n

/-- Width in bytes of a bank word: 8 for `.s64` and `.n64`, else 4. -/
def word (ty : BitVec 5) : Nat := if ty = 6 ∨ ty = 7 then 8 else 4

end Sys2Proof.Says

/-- 07 R131 to R133: an aligned, permitted form on floor memory holds its operation for the home bank, a release in front or an acquire
behind as ord and scope ask, at `.core` the order of the core's own accesses; the SC forms stand between both, and drop the core's
copies. Memory that is not a floor bank's raises code 0x19. -/
def Obligations.BankFormsAreHeld : Prop :=
  ∀ (o : MEM) (s : State),
    let va := s.memAddr { o with ix := false }
    let w := word o.ty
    let order := fun (h : Held) => if o.ord = 3 then [.release false, h, .acquire]
      else if o.ord = 2 then [if o.scope = 0 then .order else .release (o.scope == 6), h]
      else if o.ord = 1 then [h, if o.scope = 0 then .order else .acquire] else [h]
    (∀ tr, s.bankAccess va.toNat w true true false = .ok tr →
      let op := fun (reg : Option Nat) (k : BankKind) => order (.bank (bankOp s o tr.home va reg k))
      let d := some o.d.toNat
      GivesHeld (.amo o) o.g o.gs s (op d (.amo o.func.toNat o.ty.toNat (s.x o.b))) ∧
      GivesHeldFresh (.amoSc o) o.g o.gs s (op d (.amo o.func.toNat o.ty.toNat (s.x o.b))) ∧
      GivesHeld (.red o) o.g o.gs s (op none (.amo o.func.toNat o.ty.toNat (s.x o.b))) ∧
      GivesHeld (.amof o) o.g o.gs s (op d (.amof o.func.toNat o.ty.toNat (s.x o.b))) ∧
      GivesHeld (.redf o) o.g o.gs s (op none (.amof o.func.toNat o.ty.toNat (s.x o.b))) ∧
      GivesHeld (.cas o) o.g o.gs s (op d (.cas o.ty.toNat (s.x o.d) (s.x o.b))) ∧
      GivesHeldFresh (.casSc o) o.g o.gs s (op d (.cas o.ty.toNat (s.x o.d) (s.x o.b)))) ∧
    (∀ tr, s.bankAccess va.toNat 128 true true false = .ok tr → GivesHeld (.bupd o) o.g o.gs s (order
      (.bank { bankOp s o tr.home va none (.bupd o.func.toNat o.ty.toNat (s.v o.b) (s.p o.d)) with sc := false, acq := false }))) ∧
    (∀ tr, s.bankAccess va.toNat 8 false true (o.func != 0) = .ok tr → tr.home % 4096 + (s.x o.d).toNat ≤ 4096 →
      (s.x o.d).toNat % 8 = 0 → s.x o.d ≠ 0 → va.toNat % 4096 = tr.home % 4096 →
      GivesHeld (.bfill o) o.g o.gs s (order
        (.bank { bankOp s o tr.home va none (.bfill (s.x o.d).toNat (s.x o.b) o.func.toNat) with sc := false, acq := false }))) ∧
    (∀ tr, s.bankAccess (s.memAddr o).toNat 8 false true true = .ok tr → GivesHeld (.clrp o) o.g o.gs s (order
      (.bank { bankOp s o tr.home (s.memAddr o) none .clrp with sc := false, acq := false }))) ∧
    (∀ tr, s.bankAccess (s.memAddr o).toNat w false true false = .ok tr → GivesHeldFresh (.stsc o) o.g o.gs s (order (.bank { bankOp s o tr.home (s.memAddr o) none (.stsc o.ty.toNat (s.x o.d)) with sc := true, acq := false }))) ∧
    (∀ tr, s.coreAccess va.toNat w .r = .ok tr → s.coreAccess va.toNat w .w = .ok tr → space tr.home ≠ .floor →
      Runs (.amo o) o.g o.gs s → exec (.amo o) s = .next (s.faultAt s.cur 0x19 0 va))

/-- 07 R122, R124, R133, AMO, AMOF, CAS: the oldest operation on its way is performed at its bank in one step: an unpoisoned word takes
its new value and the old one, extended by the type, goes to the core as an answer where the form has one; no other byte of the floor
changes. The answer then lands in X[d]. -/
def Obligations.BankOperationUpdatesWord : Prop :=
  ∀ (s : State) (op : BankOp) (rest : List BankOp),
    s.bankOps = op :: rest →
    let after := fun (n : Nat) (new : BitVec (8 * n)) (old : W64) => ∃ t, exec (.bankOperation 0) s = .next t ∧ t.bankOps = rest ∧
      (∀ a, space a ≠ .gddr → t.readHome 0 a =
        if op.addr ≤ a ∧ a < op.addr + n then new.extractLsb' (8 * (a - op.addr)) 8 else s.readHome 0 a) ∧
      (t.core op.core).replies = (s.core op.core).replies ++
        (match op.reg with | some r => [{ reg := r, val := old, poison := false, va := op.va }] | none => []) ∧
      ∀ r more, op.reg = some r → 0 < r → r < 64 → (s.core op.core).replies = [] → more = exec (.bankReply (BitVec.ofNat 10 op.core)) t →
        op.core < 1024 → ∃ u, more = .next u ∧ (u.core op.core).regs.getX (BitVec.ofNat 6 r) = old ∧ (u.core op.core).replies = []
    let free := fun (n : Nat) => (∀ i, i < n → space (op.addr + i) = .floor) ∧ s.anyPoison op.addr n = false
    (∀ f b, op.kind = .amo f 6 b ∨ op.kind = .amo f 7 b → free 8 →
      let m := BitVec.ofNat 64 (s.readVal 0 op.addr 8)
      let less := if op.kind = .amo f 6 b then decide (m.toInt ≤ b.toInt) else decide (m.toNat ≤ b.toNat)
      (f = 0 → after 8 (m + b) m) ∧ (f = 1 → after 8 (m &&& b) m) ∧ (f = 2 → after 8 (m ||| b) m) ∧ (f = 3 → after 8 (m ^^^ b) m) ∧
      (f = 4 → after 8 (if less then m else b) m) ∧ (f = 5 → after 8 (if less then b else m) m) ∧ (f = 6 → after 8 b m)) ∧
    (∀ old new, op.kind = .cas 6 old new → free 8 →
      let m := BitVec.ofNat 64 (s.readVal 0 op.addr 8)
      after 8 (if m = old then new else m) m) ∧
    (∀ v, op.kind = .stsc 6 v → op.reg = none → (∀ i, i < 8 → space (op.addr + i) = .floor) → after 8 v 0) ∧
    (∀ b f, op.kind = .amof f 8 b → f ≤ 2 → free 4 →
      let m := s.readVal 0 op.addr 4
      let x := Fp.unpack .f32 m
      let y := Fp.unpack .f32 (b.toNat % 2 ^ 32)
      after 4 (BitVec.ofNat 32 (Fp.roundTo .f32 0 false
        (if f = 0 then Fp.add 0 x y else if f = 1 then Fp.fmin x y else Fp.fmax x y) false).raw) (BitVec.ofNat 64 m))

/-- 07 R125, R126, R128 to R130, PSTAT, LDSC, TRADE_TOKEN_ARRIVAL: a presence request that its word permits is performed when it
arrives: TAKE reads and empties, RDF reads, PUT writes and fills; the waiting form commits with the answer. One that is not permitted
waits in the bank's queue. A marked word answers a TAKE poisoned and stays full. PSTAT reads the deferred count, the poison and the tag of
a word at its bank, to which the core's copy of its line goes back first; LDSC drops the core's copies, joins its bank's queue and takes the value when the trade token has come to that bank: joining the bank where the token stands counts as
a visit, which is the model's reading (log 29). -/
def Obligations.PresenceFormsTakeAndPut : Prop :=
  (∀ (o : MEM) (s : State) (tr : Tr),
    let va := s.memAddr o
    let s1 := (if o.ord = 2 ∧ o.scope ≠ 0 then s.l1WriteBackAll s.cur else s).l1DropRange s.cur tr.home 8
    let m := BitVec.ofNat 64 (s1.readVal 0 tr.home 8)
    let alone := (s1.bank (bankOf tr.home)).deferred = []
    let arrives := fun (i : Instr) (u : State) => ∃ t, exec i s = .next t ∧ exec (.presenceArrive s1.presOps.length) t = .next u
    let done := fun (i : Instr) (v : State) => ∃ u, arrives i u ∧ exec (.waitAnswer s.curCore) u = .next v
    let takes := fun (i : Instr) (full : Bool) => ∃ v, done i v ∧ v.x o.d = (if o.d = 0 then 0 else m) ∧ v.blk.wait = .none ∧
      (∀ a, a ≠ o.d → v.x a = s.x a) ∧ v.tag tr.home = full ∧ v.blk.held = s.blk.held
    let queued := fun (i : Instr) => ∃ u, arrives i u ∧ (u.bank (bankOf tr.home)).deferred.length = 1 ∧
      exec (.waitAnswer s.curCore) u = .next u ∧ u.tag tr.home = s1.tag tr.home
    (∀ i, i < 8 → space (tr.home + i) = .floor) → tr.home % 8 = 0 →
    (Runs (.take o) o.g o.gs s → s.bankAccess va.toNat 8 true false true = .ok tr → alone →
      (s1.tag tr.home = true → s1.anyPoison tr.home 8 = false → takes (.take o) false) ∧
      (s1.tag tr.home = false → queued (.take o)) ∧
      (s1.tag tr.home = true → s1.anyPoison tr.home 8 = true → ∃ u, arrives (.take o) u ∧
        u.blk.ans = .poisoned ∧ u.tag tr.home = true)) ∧
    (Runs (.rdf o) o.g o.gs s → s.bankAccess va.toNat 8 true false true = .ok tr → alone →
      (s1.tag tr.home = true → s1.anyPoison tr.home 8 = false → takes (.rdf o) true) ∧ (s1.tag tr.home = false → queued (.rdf o))) ∧
    (Runs (.put o) o.g o.gs s → s.bankAccess va.toNat 8 false true true = .ok tr → alone →
      (s1.tag tr.home = false → ∃ v, done (.put o) v ∧ v.blk.wait = .none ∧ (∀ a, v.x a = s.x a) ∧ v.tag tr.home = true ∧
        v.blk.held = s.blk.held ∧ (o.ord ≠ 1 → ∀ a, space a ≠ .gddr → v.readHome 0 a =
          if tr.home ≤ a ∧ a < tr.home + 8 then (s.x o.d).extractLsb' (8 * (a - tr.home)) 8 else s1.readHome 0 a)) ∧
      (s1.tag tr.home = true → queued (.put o)))) ∧
  ∀ (o : MEM) (s : State) (tr : Tr),
    let va := s.memAddr o
    let s1 := (s.l1DropAll s.cur).l1DropRange s.cur tr.home (word o.ty)
    let k := bankOf tr.home
    (s.bankAccess va.toNat 8 true false true = .ok tr → Runs (.pstat o) o.g o.gs s →
      let back := s.l1DropRange s.cur tr.home 8
      ∃ t, exec (.pstat o) s = .next t ∧ WroteX back t o.d
        (BitVec.ofNat 64 (((s.bank k).deferred.countP fun r => r.addr == tr.home) * 4 +
          (if back.anyPoison tr.home 8 then 2 else 0) + (if s.tag tr.home then 1 else 0)))) ∧
    (Runs (.ldsc o) o.g o.gs s → s.bankAccess va.toNat (word o.ty) true false false = .ok tr →
      (∀ i, i < word o.ty → heldByte s.blk.held (tr.home + i) = none) →
      (s1.banks.all fun b => !b.2.joined && !b.2.joining) = true → (s1.bank k).scq = [] → s1.anyPoison tr.home (word o.ty) = false →
      ∃ t u v, exec (.ldsc o) s = .next t ∧ exec .tradeTokenArrival t = .next u ∧ exec (.waitAnswer s.curCore) u = .next v ∧
        v.x o.d = (if o.d = 0 then 0 else loaded o.ty (s1.readHomeN 0 tr.home (word o.ty))) ∧ v.blk.wait = .none ∧
        (∀ a, a ≠ o.d → v.x a = s.x a) ∧ u.token = some k ∧ (u.bank k).scq = [] ∧ ∀ line, Sp.find? v.me.l1 line = none)
/-! ## System registers and translation (19, 18, 08) -/

/-- 19 R277, Table 19.1, 08 R147: MFS and MFC read each register as the earlier instructions of the block left it; a capability word,
the colour, the owner tag and a colour's binding, which reads as zero outside the partition. -/
def Obligations.SystemRegisterRead : Prop :=
  ∀ (s : State),
    (∀ (o : SYS),
      let r := s.w
      let reads := fun (n : BitVec 12) (v : W64) => o.sreg = n → GivesX (.mfs o) o.g o.gs s o.d v
      reads 0x000 r.tcause ∧ reads 0x001 r.tval ∧ reads 0x002 r.tblock ∧ reads 0x003 (r.tstat.setWidth 64) ∧ reads 0x004 r.tvec ∧
      reads 0x005 r.tscr ∧ ((∀ e ∈ s.blk.held, ∀ m, e ≠ .wbits m) → reads 0x006 (s.me.tpend.setWidth 64)) ∧
      reads 0x007 (r.tmask.setWidth 64) ∧ reads 0x010 (r.colour.setWidth 64) ∧ reads 0x011 (BitVec.ofNat 64 (s.partid s.cur)) ∧
      reads 0x012 (s.me.owner.setWidth 64) ∧ reads 0x013 s.now ∧ reads 0x015 (BitVec.ofNat 64 s.cur) ∧
      reads 0x016 (if s.me.lvlS then 1 else 0) ∧
      (o.imm = 0 → s.lacks = Lacks.none → s.untrained = 0 →
        reads 0x014 (BitVec.ofNat 64 (0x0B4A * 2 ^ 48 + 0xA2 * 2 ^ 40 + 1024 * 2 ^ 16 + 128 * 2 ^ 8 + 16 * 8 + 6)))) ∧
    ∀ (o : RRR),
      let k := (s.x o.a).toNat % 256
      let e := s.colour k
      (o.func = 0 → GivesX (.mfc o) o.g o.gs s o.d (s.w.colour.setWidth 64)) ∧
      (o.func = 1 → GivesX (.mfc o) o.g o.gs s o.d (s.me.owner.setWidth 64)) ∧
      (o.func = 2 → GivesX (.mfc o) o.g o.gs s o.d
        (if e.valid = true ∧ e.part.toNat = s.partid s.cur then BitVec.ofNat 64 (2 ^ 63 + e.vf.toNat * 256 + k) else 0))

/-- 19 R277, R281: MTS writes the register when its value is legal; a value with a reserved bit set, an unaligned tvec, a colour that is
not bound to the partition, and a post to a core of another owner raise code 0x42 with tval the value. -/
def Obligations.SystemRegisterWrite : Prop :=
  ∀ (o : SYS) (s : State), Runs (.mts o) o.g o.gs s →
    let v := s.x o.a
    let r := s.w
    let bad := exec (.mts o) s = .next (s.faultAt s.cur 0x42 0 v)
    let sets := fun (q : Regs) => ∃ t, exec (.mts o) s = .next t ∧ t.w = q ∧ SameOutside s t
    let holds := fun (h : Held) => ∃ t, exec (.mts o) s = .next t ∧ Holds s t [h]
    let zero := fun (hi lo : Nat) => v.toNat / 2 ^ lo % 2 ^ (hi + 1 - lo) = 0
    let core := v.toNat / 2 ^ 16 % 1024
    (o.sreg = 0x000 → (zero 63 16 ∧ zero 11 8 → sets { r with tcause := v }) ∧ (¬(zero 63 16 ∧ zero 11 8) → bad)) ∧
    (o.sreg = 0x001 → sets { r with tval := v }) ∧ (o.sreg = 0x002 → sets { r with tblock := v }) ∧
    (o.sreg = 0x003 → if v.toNat < 64 then sets { r with tstat := v.setWidth 6 } else bad) ∧
    (o.sreg = 0x004 → (v.toNat < 2 ^ 57 ∧ v.toNat % 8 = 0 → sets { r with tvec := v }) ∧
      (¬(v.toNat < 2 ^ 57 ∧ v.toNat % 8 = 0) → bad)) ∧
    (o.sreg = 0x005 → sets { r with tscr := v }) ∧
    (o.sreg = 0x006 → if v.toNat < 16 then holds (.wbits (v.setWidth 4)) else bad) ∧
    (o.sreg = 0x007 → if v.toNat < 16 then sets { r with tmask := v.setWidth 4 } else bad) ∧
    (o.sreg = 0x008 → (zero 63 26 ∧ zero 15 4 ∧ s.sameOwner s.cur core = true → holds (.post core (v.setWidth 4))) ∧
      (¬(zero 63 26 ∧ zero 15 4 ∧ s.sameOwner s.cur core = true) → bad)) ∧
    (o.sreg = 0x010 → (v.toNat < 256 ∧ s.bound (s.partid s.cur) v.toNat = true → sets { r with colour := v.setWidth 8 }) ∧
      (¬(v.toNat < 256 ∧ s.bound (s.partid s.cur) v.toNat = true) → bad))

/-- 18 R276, Table 18.5: TLBI, with legal operands and no flag or a flag of its own context, completes and holds the command; an unbound
colour, or a length that is zero or no multiple of 4 KiB, raises code 0x41. TLBW completes for every bound colour, whatever the walk finds: it answers the leaf, or the cause and level of the walk's end, and
raises code 0x41 only for a colour that is not bound. A delivered TLBI leaves no translation it names in a TLB of the partition, no
control block on a page it names, and no walk-cache entry; its flag waits for the engine commands that use a removed translation. That
every walk-cache entry of the partition goes, that the operands are checked before the flag, and the level of a bank span's result are the
model's readings (log 25). -/
def Obligations.TranslationForms : Prop :=
  (∀ (o : SYS) (s : State),
    let a := s.x o.a
    let b := s.x o.b
    let len := (s.x o.d).toNat
    let p := s.partid s.cur
    let base := a.toNat / 2 ^ 12 % 2 ^ 45 * 4096
    let flagged := b = 0 ∨ (b.getLsbD 31 = true ∧ b.toNat / 2 ^ 29 % 4 = 0 ∧ b.toNat % 4 = 0 ∧ s.sameOwner s.cur (b.toNat / 2 ^ 19 % 1024) = true)
    (flagged →
      (o.func = 0 → GivesHeld (.tlbi o) o.g o.gs s [.tlbi { kind := 0, colour := none, base := 0, len := 0, flag := b }]) ∧
      (o.func = 1 → a.toNat < 256 → s.bound p a.toNat = true →
        GivesHeld (.tlbi o) o.g o.gs s [.tlbi { kind := 1, colour := some (a.setWidth 8), base := 0, len := 0, flag := b }]) ∧
      (o.func = 2 → a.toNat < 2 ^ 57 → a.toNat / 2 ^ 9 % 8 = 0 → a.getLsbD 8 = false → s.bound p (a.toNat % 256) = true →
        0 < len → len % 4096 = 0 → len ≤ 2 ^ 57 → GivesHeld (.tlbi o) o.g o.gs s
          [.tlbi { kind := 2, colour := some (a.setWidth 8), base := base, len := len, flag := b }]) ∧
      (o.func = 2 → a.toNat < 2 ^ 57 → a.toNat / 2 ^ 9 % 8 = 0 → a.getLsbD 8 = true → 0 < len → len % 4096 = 0 → len ≤ 2 ^ 57 →
        GivesHeld (.tlbi o) o.g o.gs s [.tlbi { kind := 2, colour := none, base := base, len := len, flag := b }])) ∧
    (Runs (.tlbi o) o.g o.gs s → o.func = 1 → ¬(a.toNat < 256 ∧ s.bound p a.toNat = true) →
      exec (.tlbi o) s = .next (s.faultAt s.cur 0x41 0 a)) ∧
    (Runs (.tlbi o) o.g o.gs s → o.func = 2 →
      let named := a.toNat < 2 ^ 57 ∧ a.toNat / 2 ^ 9 % 8 = 0 ∧ (a.getLsbD 8 = true ∨ s.bound p (a.toNat % 256) = true)
      (¬named → exec (.tlbi o) s = .next (s.faultAt s.cur 0x41 0 a)) ∧
      (named → ¬(0 < len ∧ len % 4096 = 0 ∧ len ≤ 2 ^ 57) → exec (.tlbi o) s = .next (s.faultAt s.cur 0x41 0 (s.x o.d)))) ∧
    (∀ code lvl v, Runs (.tlbi o) o.g o.gs s → o.func = 0 → s.flagCheck s.cur b = .error (.fault code lvl v) →
      exec (.tlbi o) s = .next (s.faultAt s.cur code lvl v)) ∧
    (b.toNat < 256 → s.bound p b.toNat = true →
      (Runs (.tlbw o) o.g o.gs s → ∃ t v, exec (.tlbw o) s = .next t ∧ WroteX s t o.d v) ∧
      (2 ^ 57 ≤ a.toNat → GivesX (.tlbw o) o.g o.gs s o.d (BitVec.ofNat 64 (2 ^ 63 + 2 ^ 56))) ∧
      (padRemote ≤ a.toNat → a.toNat < 2 ^ 57 → GivesX (.tlbw o) o.g o.gs s o.d 0) ∧
      (∀ code lvl, a.toNat < padRemote → s.walkVa p b.toNat a.toNat [] = .bad code lvl →
        GivesX (.tlbw o) o.g o.gs s o.d (BitVec.ofNat 64 (2 ^ 63 + lvl * 2 ^ 60 +
          (if code = 0x10 then 1 else if code = 0x11 then 2 else if code = 0x12 then 3 else if code = 0x1D then 5 else 4) * 2 ^ 56))) ∧
      (∀ e lvl, a.toNat < padRemote → s.walkVa p b.toNat a.toNat [] = .leaf e lvl →
        let size := 2 ^ (3 + 9 * lvl)
        let frame := e.toNat / 2 ^ 12 % 2 ^ 40 * 4096
        let base := frame - frame % size
        let split := space base = .floor ∧ bankOf base ≠ bankOf (base + size - 1)
        (split → GivesX (.tlbw o) o.g o.gs s o.d (BitVec.ofNat 64 (2 ^ 63 + lvl * 2 ^ 60 + 5 * 2 ^ 56))) ∧
        (¬split → GivesX (.tlbw o) o.g o.gs s o.d (BitVec.ofNat 64
          ((if lvl = 3 then 3 else if lvl = 2 then 2 else if e.getLsbD 11 then 1 else 0) * 2 ^ 54 +
            (if e.getLsbD 63 then 2 ^ 53 else 0) + (base + a.toNat % size / 4096 * 4096) + e.toNat % 4096))))) ∧
    (Runs (.tlbw o) o.g o.gs s → ¬(b.toNat < 256 ∧ s.bound p b.toNat = true) → exec (.tlbw o) s = .next (s.faultAt s.cur 0x41 0 b))) ∧
  ∀ (s : State) (n p : Nat) (c : TlbiCmd), s.partOf n = some p →
    let t := s.tlbiDeliver n c
    (∀ m, s.partOf m = some p → (∀ e ∈ (t.core m).tlb, c.matches e.colour e.base e.size = false) ∧
      ∀ e ∈ (t.core m).cbc, c.matches (Sp.get (t.core m).regs.colour (t.core m).cbcColour e.1) e.1 32 = false) ∧
    (∀ m, s.partOf m ≠ some p → t.core m = s.core m) ∧
    (∀ w ∈ t.walk, s.partOf (w.1 * 16) ≠ some p) ∧
    (∃ w, (t.core n).tlbi = (s.core n).tlbi ++ [w] ∧ w.cmd = c ∧ ∀ m e, s.partOf m = some p → e ∈ (s.core m).eng →
      (∃ q ∈ e.pages, c.matches e.colour (q.vpage * 4096) 4096 = true) → (m, e.id) ∈ w.cmds)

/-! ## The draught engine (06) -/

/-- 06 R112 to R116, CPY, CPY2: a command whose checks hold is queued at commit; a malformed flag descriptor raises code 0x2C, a length
that the form does not take 0x2D. The engine then performs the command, where no byte of memory is both read and
written and none written twice: each destination byte takes its source byte, and no other byte changes. -/
def Obligations.CopyForms : Prop :=
  ∀ (s : State),
    (∀ (o : RRR),
      let cmd := fun (src dst : W64) (rb rows : Nat) (ss ds : Int) => ({
        id := 0, src := src, dst := dst, sstride := ss, dstride := ds, rowbytes := rb, rows := rows, fe := o.func.getLsbD 3,
        scope := o.func.toNat % 8, flag := s.x o.c, colour := s.me.regs.colour, lvlS := s.me.lvlS, pages := [], moved := [],
        remote := [], asked := false, lost := [] } : EngCmd)
      let len := (s.x o.b).toNat
      (∀ c, flagForm (s.x o.c) = true → len ≤ 2 ^ 20 → s.checkCopy (cmd (s.x o.a) (s.x o.d) len 1 0 0) = .ok c →
        GivesHeld (.cpy o) o.g o.gs s [.engine c]) ∧
      (∀ c b, (s.x o.a).toNat % 32 = 0 → s.me.cbc.find? (fun e => e.1 == (s.x o.a).toNat) = some ((s.x o.a).toNat, b) →
        flagForm (s.x o.c) = true →
        let f := fun (hi lo : Nat) => b.toNat / 2 ^ lo % 2 ^ (hi + 1 - lo)
        0 < f 159 128 → f 159 128 ≤ 65536 → 0 < f 191 160 → f 191 160 ≤ 2 ^ 20 → f 159 128 * f 191 160 ≤ 2 ^ 24 →
        s.checkCopy (cmd (BitVec.ofNat 64 (f 127 64)) (BitVec.ofNat 64 (f 63 0)) (f 191 160) (f 159 128)
          (BitVec.ofNat 32 (f 255 224)).toInt (BitVec.ofNat 32 (f 223 192)).toInt) = .ok c →
        GivesHeld (.cpy2 o) o.g o.gs s [.engine c]) ∧
      (Runs (.cpy o) o.g o.gs s → flagForm (s.x o.c) = false → exec (.cpy o) s = .next (s.faultAt s.cur 0x2C 0 (s.x o.c))) ∧
      (Runs (.cpy o) o.g o.gs s → flagForm (s.x o.c) = true → 2 ^ 20 < len → exec (.cpy o) s = .next (s.faultAt s.cur 0x2D 0 (s.x o.b)))) ∧
    ∀ (n : CoreNum) (c : EngCmd) (rest : List EngCmd),
      (s.core n.toNat).eng = c :: rest → c.moved = [] → c.fe = false → c.flag = 0 → c.scope ≠ 6 → (s.core n.toNat).l1 = [] →
      (∀ k, k < c.total → (space (c.srcAt k).home = .floor ∨ space (c.srcAt k).home = .pad) ∧
        (space (c.dstAt k).home = .floor ∨ space (c.dstAt k).home = .pad)) →
      (∀ j k, j < c.total → k < c.total → j ≠ k → (c.dstAt j).home ≠ (c.dstAt k).home) →
      (∀ j k, j < c.total → k < c.total → (c.srcAt j).home ≠ (c.dstAt k).home) →
      ∃ t, exec (.engineCommand n) s = .next t ∧ (t.core n.toNat).eng = rest ∧
        (∀ k, k < c.total → t.readHome 0 (c.dstAt k).home = s.readHome 0 (c.srcAt k).home) ∧
        ∀ a, space a ≠ .gddr → (∀ k, k < c.total → (c.dstAt k).home ≠ a) → t.readHome 0 a = s.readHome 0 a

/-! ## Islands and the crown (13), save and restore (19) -/

namespace Sys2Proof.Says

/-- A pad offset of a range (13 R223). -/
def inPad (off : W64) (align len : Nat) : Prop := off.toNat % align = 0 ∧ off.toNat + len ≤ 0x80000 ∧ off.toNat < 0x80000
/-- No stream that is RESERVED or RUNNING is attached to the accumulator as the block has left it. -/
def idle (s : State) (acc : Nat) : Prop := s.accBusy acc = false

end Sys2Proof.Says

/-- 13 R214, R216 to R219, R221: the island performs its oldest command: ACLR clears rows and their poison, AWR writes a half row,
MSCL multiplies each value of a row by the row's scale, MMA forms each column's new value from the row's activations and the weight slot,
ARD writes rows to the pad; rows that a command does not name keep their values. A row of a stream arrives under the attachment that stands then, and without
one is lost; it goes into its accumulator behind the commands in the queue and the earlier rows of that accumulator. An emission whose rows are all sent clears them and ends; before that, a token of the row's next column,
with eor in column 63 and eos in the last row, is offered to the element of its row, and the place advances when it is taken. -/
def Obligations.IslandPerformsCommands : Prop :=
  (∀ (n : CoreNum) (s : State) (c : IslandCmd) (rest : List IslandCmd),
    let i := s.island n.toNat
    let does := fun (post : Island → State → Prop) => i.queue = c :: rest → (c.accs.any i.emitting) = false →
      ∃ t, exec (.islandCommandPerform n) s = .next t ∧ (t.island n.toNat).queue = rest ∧
        (t.island n.toNat).rows = i.rows.map (fun r => { r with after := r.after - 1 }) ∧ post (t.island n.toNat) t
    let rows := fun (j : Island) (acc start count : Nat) (f : Nat → Nat → W32) => ∀ a r k, r < 128 → k < 64 →
      j.get a r k = if a = acc ∧ start ≤ r ∧ r < start + count then f r k else i.get a r k
    let word := fun (h : Nat) => BitVec.ofNat 32 (s.readVal 0 h 4)
    (∀ acc start count, c = .aclr acc start count → start + count ≤ 128 → does fun j _ =>
      rows j acc start count (fun _ _ => 0) ∧ ∀ r, start ≤ r → r < start + count → j.bad acc r = false) ∧
    (∀ acc row half v, c = .awrV acc row half v → row < 128 → half < 2 → does fun j _ =>
      ∀ a r k, r < 128 → k < 64 → j.get a r k = if a = acc ∧ r = row ∧ k / 32 = half then lane v (k % 32) else i.get a r k) ∧
    (∀ acc start count off, c = .mscl acc start count off → start + count ≤ 128 → does fun j _ =>
      rows j acc start count (fun r k =>
        let scale := word (padHome n.toNat (off + 4 * (r - start)))
        BitVec.ofNat 32 (Fp.roundTo .f32 0 false (Fp.mul (Fp.unpack .f32 (i.get acc r k).toNat) (Fp.unpack .f32 scale.toNat)) false).raw)) ∧
    (∀ acc w start count off sa, c = .mma acc w start count off sa 9 → start + count ≤ 128 → (i.wslot w).st = .loaded → does fun j _ =>
      rows j acc start count (fun r k => columnValue (i.wslot w) 9
        (activations 9 (s.readHomeN 0 (padHome n.toNat (off + 256 * (r - start))) 256)) 0 (i.get acc r k) k)) ∧
    (∀ acc start off, c = .ardPad acc start 1 off → does fun j t => j.acc = i.acc ∧ (∀ k, k < 64 →
      BitVec.ofNat 32 (t.readVal 0 (padHome n.toNat (off + 4 * k)) 4) = i.get acc start k) ∧
      ∀ a, space a ≠ .gddr → a < padHome n.toNat off ∨ padHome n.toNat off + 256 ≤ a → t.readHome 0 a = s.readHome 0 a) ∧
    (∀ (k : BitVec 4) h v bad,
      let q := (s.core n.toNat).stream k.toNat
      q.target = 2 → q.out = none → s.reading (.stream n.toNat k.toNat) = false → q.got = some (h, v, bad) → q.i0 + 1 = q.n0 →
      ∃ t, exec (.streamAccess n k) s = .next t ∧
        (Sp.find? i.attach k.toNat = none → t.island n.toNat = i ∧
          ((t.core n.toNat).stream k.toNat).lost = min (2 ^ 18 - 1) (q.lost + 1)) ∧
        (∀ at', Sp.find? i.attach k.toNat = some at' → ∃ r, (t.island n.toNat).rows = i.rows ++ [r] ∧ r.stream = k.toNat ∧ r.att = at' ∧
          r.after = i.queue.length ∧ r.words = q.row ++ [(v, bad)] ∧ r.r = q.r ∧ ((t.core n.toNat).stream k.toNat).row = [])) ∧
    (∀ (k : BitVec 4) (ahead : List IslandRow) r more, i.rows = ahead ++ r :: more → (∀ x ∈ ahead, x.stream ≠ k.toNat) → r.stream = k.toNat →
      let waits := 0 < r.after ∨ i.emitting r.att.acc = true ∨ ∃ x ∈ ahead, x.att.acc = r.att.acc
      (waits → exec (.islandRow n k) s = .next s) ∧
      (¬waits → r.att.ty = 9 → (i.wslot r.att.w).st = .loaded → r.att.start + r.r < 128 → r.att.emit = false →
        ∃ t, exec (.islandRow n k) s = .next t ∧ (t.island n.toNat).rows = ahead ++ more ∧
          rows (t.island n.toNat) r.att.acc (r.att.start + r.r) 1 (fun q j => columnValue (i.wslot r.att.w) 9
            (activations 9 (r.words.flatMap fun x => low 4 (x.1.setWidth 64))) 0 (i.get r.att.acc q j) j) ∧
          (r.words.any (·.2) = true → (t.island n.toNat).bad r.att.acc (r.att.start + r.r) = true)))) ∧
  ∀ (n : CoreNum) (k : BitVec 4) (s : State) (e : Emission),
    let i := s.island n.toNat
    i.emits.find? (fun x => x.stream == k.toNat) = some e → e.places.length = 8 →
    ((∀ p ∈ e.places, e.stop ≤ p.1) → ∃ t, exec (.islandEmit n k) s = .next t ∧ e ∉ (t.island n.toNat).emits ∧
      ∀ r c, e.start ≤ r → r < e.stop → r < 128 → c < 64 → (t.island n.toNat).get e.acc r c = 0 ∧ (t.island n.toNat).bad e.acc r = false) ∧
    (∀ x row col u, x < 8 → e.places[x]? = some (row, col) → row < e.stop → (∀ y p, e.places[y]? = some p → y ≠ x → e.stop ≤ p.1) →
      s.offerIsl (elemAt n.toNat x 7) e.slot
        { value := i.get e.acc row col, colour := e.colour, context := e.context, iter := BitVec.ofNat 14 e.tile, fmt := 2,
          slot := BitVec.ofNat 2 e.slot, eor := col == 63, eos := col == 63 && row + 1 == e.stop, poison := i.bad e.acc row,
          bubble := false, gen := 0 } = (u, .taken) →
      u.island n.toNat = i → col < 63 →
      ∃ t, exec (.islandEmit n k) s = .next t ∧ { e with places := e.places.set x (row, col + 1) } ∈ (t.island n.toNat).emits ∧
        (t.island n.toNat).acc = i.acc ∧ t.elems = u.elems)

/-- 13 R214, R222, R223, 19 R297, R298: an island form whose operands are in range and whose accumulator is not busy puts its command
into the island's queue at commit; an operand outside its range raises code 0x34, a busy accumulator 0x35. RSAVE `.gate` holds the gate of
its streams; RSAVE and RREST check their area and that nothing named is reserved, running or attached; RSAVE holds the island's command,
RREST the stream records it has read and the accumulators' command. RSAVE and RREST ignore the mask bits that the manual says must be
zero, which is the model's choice (log 15). -/
def Obligations.IslandFormsQueueCommands : Prop :=
  (∀ (o : MTX) (s : State),
    let a := s.x o.a
    let b := s.x o.b
    let acc := o.acc.toNat
    let w := o.w.toNat
    let start := o.imm.toNat / 256
    let count := o.imm.toNat % 256
    let fp8 := o.ty = 0xB ∨ o.ty = 0xC
    let row := if fp8 then 128 else 256
    let queues := fun (i : Instr) (c : IslandCmd) => GivesHeld i o.g o.gs s [.island c]
    (a.toNat % 1024 = 0 → a.toNat + 1024 * tileLines o.ty.toNat o.sp ≤ 0x600000 → (s.attached fun t => t.w == w) = false →
      queues (.wload o) (.wload w a.toNat (b.setWidth 32) o.ty o.sp (o.func == 1))) ∧
    (idle s acc → inPad a 4 (4 * count) → queues (.mscl o) (.mscl acc start count a.toNat)) ∧
    (idle s acc → s.shadowOk w o.ty = true → inPad a 128 (count * row) → (fp8 → inPad b 4 (4 * count)) →
      queues (.mma o) (.mma acc w start count a.toNat (if fp8 then b.toNat else 0) o.ty)) ∧
    (idle s acc → o.func = 0 → queues (.aclr o) (.aclr acc start count)) ∧
    (o.func = 1 → queues (.aclr o) .clrStat) ∧
    (idle s acc → o.func = 1 → inPad a 4 (256 * count) → queues (.ard o) (.ardPad acc start count a.toNat) ∧
      queues (.awr o) (.awrPad acc start count a.toNat)) ∧
    (idle s acc → o.func = 0 → queues (.awr o) (.awrV acc start (o.imm.toNat % 2) (s.v o.a))) ∧
    (∀ ps, idle s acc → o.func = 0 → s.areaPages a 32896 .w = .ok ps → queues (.asave o) (.save acc ps a.toNat)) ∧
    (∀ ps, idle s acc → o.func = 1 → s.areaPages a 32896 .r = .ok ps → queues (.asave o) (.rest [(acc, a.toNat)] ps)) ∧
    (let k := o.func.toNat % 16
     let q := s.streamSeen k
     idle s acc → s.shadowOk w o.ty = true → q.st = .bound ∨ q.st = .closed → q.target = 2 → q.n0 = (if fp8 then 33 else 64) →
      start + q.tileRows ≤ 128 → queues (.mmas o)
        (.attach k { acc := acc, w := w, ty := o.ty, start := start, slot := o.func.toNat / 16 % 4, emit := o.func.getLsbD 6 })) ∧
    (idle s acc → o.func = 0 → Runs (.ard o) o.g o.gs s → ∃ t v, exec (.ard o) s = .next t ∧ WroteV s t (o.d.setWidth 5) v ∧
      ∀ l, l < 32 → lane v l = s.me.island.get acc start (32 * (o.imm.toNat % 2) + l)) ∧
    (idle s acc → o.func = 2 → Runs (.ard o) o.g o.gs s → ∃ t v, exec (.ard o) s = .next t ∧ WroteX s t o.d v ∧
      ∀ k, k < 64 → v.getLsbD k = s.me.island.bad acc (64 * (o.imm.toNat % 2) + k)) ∧
    (o.func = 3 → GivesX (.ard o) o.g o.gs s o.d s.me.island.status) ∧
    (Runs (.mscl o) o.g o.gs s → ¬inPad a 4 (4 * count) → exec (.mscl o) s = .next (s.faultAt s.cur 0x34 0 a)) ∧
    (Runs (.mscl o) o.g o.gs s → inPad a 4 (4 * count) → ¬idle s acc →
      exec (.mscl o) s = .next (s.faultAt s.cur 0x35 0 (BitVec.ofNat 64 acc)))) ∧
  ∀ (o : SYS) (s : State),
    let m := (s.x o.b).toNat
    let va := s.x o.a
    (o.func = 1 → GivesHeld (.rsave o) o.g o.gs s [.gate (m % 2 ^ 16)]) ∧
    (∀ ps, o.func ≠ 1 → s.areaPages va 133760 .w = .ok ps → s.saveBusy m = .ok () →
      GivesHeld (.rsave o) o.g o.gs s [.island (.saveRec (m % 2 ^ 20) [] ps va.toNat)]) ∧
    (∀ ps l, s.areaPages va 133760 .r = .ok ps → s.saveBusy m = .ok () → s.restRecords va (maskBits m) = .ok l →
      GivesHeld (.rrest o) o.g o.gs s (l ++ [.island (.rest
        (((List.range 4).filter fun k => m.testBit (16 + k)).map fun k => (k, va.toNat + 2176 + 32896 * k)) ps)])) ∧
    (∀ i, i < 16 → m.testBit i = true → (s.streamSeen i).st = .running → ∃ v, s.saveBusy m = .error (.fault 0x28 0 v) ∧ v.toNat ≤ i)

/-! ## Streams (10) -/

/-- 10 R182, R186, R187, R191: SBIND, SSTART, SCLOSE, SPOS and SDONE check the stream as the block has left it and hold their effect; a
start is ordered behind the core's earlier accesses; SPOS reads position and status; SBAR ends when no access of its streams is on its
way, and SBAR `.hold` stops its streams until the core's writes are performed. A stream in the wrong state raises code 0x28. -/
def Obligations.StreamForms : Prop :=
  ∀ (o : STR) (s : State),
    let i := o.sid.toNat
    let q := s.streamSeen i
    let a := s.x o.a
    let b := s.x o.b
    let resting := q.st = .bound ∨ q.st = .closed
    let in' := fun (k : Nat) => o.smask.getLsbD k = true
    (q.st ≠ .reserved → q.st ≠ .running → o.func = 1 → GivesHeld (.sbind o) o.g o.gs s [.stream i none]) ∧
    (∀ d, q.st ≠ .reserved → q.st ≠ .running → o.func ≠ 1 → a.toNat % 32 = 0 →
      s.me.cbc.find? (fun e => e.1 == a.toNat) = some (a.toNat, d) →
      let p := q.bindTo (some (d, b))
      p.patternOk = true → p.target ≠ 0 ∨ s.sideBound (some i) p.port p.write = false ∧ s.channelNames s.cur p.port (!p.write) = false →
      GivesHeld (.sbind o) o.g o.gs s [.stream i (some (d, b))]) ∧
    (q.st = .reserved ∨ q.st = .running → o.func = 1 → Runs (.sbind o) o.g o.gs s →
      exec (.sbind o) s = .next (s.faultAt s.cur 0x28 0 (BitVec.ofNat 64 i))) ∧
    (∀ d, q.st = .reserved ∨ q.st = .running → o.func ≠ 1 → a.toNat % 32 = 0 →
      s.me.cbc.find? (fun e => e.1 == a.toNat) = some (a.toNat, d) → (q.bindTo (some (d, b))).patternOk = true →
      Runs (.sbind o) o.g o.gs s → exec (.sbind o) s = .next (s.faultAt s.cur 0x28 0 (BitVec.ofNat 64 i))) ∧
    (o.func ≠ 1 → (∀ k, k < 16 → in' k → (s.streamSeen k).st = .bound ∨ (s.streamSeen k).st = .closed) → s.startOk a = true →
      GivesHeld (.sstart o) o.g o.gs s [.release false, .sstart o.smask.toNat false a s.me.lvlS]) ∧
    (o.func = 1 → (∀ k, k < 16 → in' k → (s.streamSeen k).st = .closed) →
      GivesHeld (.sstart o) o.g o.gs s [.release false, .sstart o.smask.toNat true a s.me.lvlS]) ∧
    GivesHeld (.sclose o) o.g o.gs s [.sclose o.smask.toNat] ∧
    (o.func = 0 → GivesX (.spos o) o.g o.gs s o.d (s.me.stream i).position) ∧
    (o.func = 2 → GivesX (.spos o) o.g o.gs s o.d (s.me.stream i).status) ∧
    (o.func = 1 → resting → q.indexOk a = true → GivesHeld (.spos o) o.g o.gs s [.spos i a]) ∧
    (o.func.getLsbD 3 = false → s.flagCheck s.cur a = .ok () → GivesHeld (.sdone o) o.g o.gs s
      [.sdone i (if a.getLsbD 31 then some { tok := false, scope := o.func.toNat % 8, arg := a } else none)]) ∧
    (o.func.getLsbD 3 = true → q.st ≠ .unbound → q.target = 0 → a.toNat < 16 → s.sideBound none a.toNat false = false →
      GivesHeld (.sdone o) o.g o.gs s [.sdone i (some { tok := true, scope := o.func.toNat % 8, arg := a })]) ∧
    (o.func.getLsbD 3 = false → (∀ k, k < 16 → in' k → s.streamAway s.cur k = false ∧ s.unacked (.stream s.cur k) = false) →
      Runs (.sbar o) o.g o.gs s → ∃ u, Answered (.sbar o) s u ∧ u.blk.wait = .none ∧ u.w = s.w ∧ u.blk.held = s.blk.held) ∧
    (o.func.getLsbD 3 = true → s.pending s.cur = false → s.unacked (.core s.cur) = false → Runs (.sbar o) o.g o.gs s →
      ∃ t u, exec (.sbar o) s = .next t ∧ exec (.waitAnswer s.curCore) t = .next u ∧ u.blk.wait = .none ∧ u.w = s.w ∧
        u.blk.held = s.blk.held ∧ ∀ k, k < 16 → in' k → (t.me.stream k).hold = true ∧ (u.me.stream k).hold = false)

/-- 10 R183 to R187, Table 10.1: a running read stream takes the word at its address: into the pad word its position names, or as a token
for its port with eor at the end of a row and eos at the end of a tile; a pad write stream stores its pad word at its address. The
position advances, and the last tile of a start binds the stream again. -/
def Obligations.StreamAccessMovesOneWord : Prop :=
  ∀ (n : CoreNum) (k : BitVec 4) (s : State) (tr : Tr),
    let q := (s.core n.toNat).stream k.toNat
    let w := s.readVal tr.key tr.home 4
    let after := fun (t : State) => (t.core n.toNat).stream k.toNat
    q.st = .running → q.hold = false → q.out = none → q.got = none → q.n0 ≠ 0 → q.tile < q.tiles →
    s.reading (.stream n.toNat k.toNat) = false →
    s.access n.toNat q.colour.toNat q.addr 4 q.lvlS false (if q.write then .w else .r) = .ok tr →
    (∀ i, i < 4 → space (tr.home + i) = .floor) → s.anyPoison tr.home 4 = false →
    (q.write = false → q.target = 1 → ∃ t, exec (.streamAccess n k) s = .next t ∧ after t = q.step ∧
      ∀ a, space a ≠ .gddr → t.readHome 0 a =
        if padHome n.toNat (4 * (q.toff + q.r * q.n0 + q.i0)) ≤ a ∧ a < padHome n.toNat (4 * (q.toff + q.r * q.n0 + q.i0)) + 4
        then BitVec.ofNat 8 (w / 256 ^ (a - padHome n.toNat (4 * (q.toff + q.r * q.n0 + q.i0)))) else s.readHome 0 a) ∧
    (q.write = false → q.target = 0 → ∃ t u, exec (.streamAccess n k) s = .next t ∧ after t = { q.step with out := some u, outPort := q.toff % 16 } ∧
      u.value = BitVec.ofNat 32 w ∧ u.colour = q.colour ∧ u.context = q.context ∧ u.iter = BitVec.ofNat 14 q.tile ∧
      u.eor = (q.i0 + 1 == q.n0) ∧ u.eos = (q.i0 + 1 == q.n0 && q.r + 1 == q.tileRows) ∧ u.poison = false ∧
      ∀ key a, t.readHome key a = s.readHome key a) ∧
    (q.write = true → q.target = 1 → s.anyPoison (padHome n.toNat (4 * (q.toff + q.r * q.n0 + q.i0))) 4 = false →
      ∃ t, exec (.streamAccess n k) s = .next t ∧ after t = q.step ∧ ∀ a, space a ≠ .gddr → t.readHome 0 a =
        if tr.home ≤ a ∧ a < tr.home + 4 then s.readHome 0 (padHome n.toNat (4 * (q.toff + q.r * q.n0 + q.i0)) + (a - tr.home))
        else s.readHome 0 a)

/-! ## Nets (15) -/

/-- 15 R230, R232, R240, R241, R245, Table 15.8: NLD reads a word of a node; NST holds a write of a header, a free link word or a
payload word; NALLOC takes the head of the pool and holds its header; NFREE, NLINK and NPUSH hold their effect; NPOP takes the head of
the bag; NRULE looks up, installs and empties. A word is read at its bank, behind the core's own copies. That NST finds a port that reads
HOLE busy, and that NPUSH.rel takes tstat.pair for the pair it leaves, are the model's readings (log 35). -/
def Obligations.NetForms : Prop :=
  ∀ (o : NET) (s : State) (tr : Tr),
    let a := s.x o.a
    let b := s.x o.b
    let c := s.me.regs.colour
    let s1 := s.nodeHome tr
    let dword := fun (k : Nat) => s1.readVal tr.key (tr.home + k) 8
    let clean := (∀ k, k < 64 → heldByte s.blk.held (tr.home + k) = none) ∧ s1.anyPoison tr.home 64 = false
    let port := fun (i : Nat) => a.toNat + 8 * (i + 1)
    let mine := s.heldPorts ++ s.principals
    let holdsNode := fun (e : Held) => ∃ t, exec (.nst o) s = .next t ∧ Holds s1 t [e]
    let w := o.func.toNat
    let kmin := min (a.toNat % 4096) (b.toNat % 4096)
    let kmax := max (a.toNat % 4096) (b.toNat % 4096)
    (Runs (.nld o) o.g o.gs s → s.nodeOperand a false = .ok tr → clean →
      ∃ t, exec (.nld o) s = .next t ∧ WroteX s1 t o.d (BitVec.ofNat 64 (dword (8 * w)))) ∧
    (∀ h, Runs (.nst o) o.g o.gs s → s.liveNode a true = .ok (tr, h) → clean →
      (5 ≤ w → holdsNode (.node (tr.home + 8 * w) b tr.key)) ∧
      (w = 0 → b.toNat / 2 ^ 32 % 2 ^ 10 = 0 → kindOk (b.toNat / 2 ^ 52) (b.toNat / 2 ^ 42 % 4) = true →
        holdsNode (.node tr.home b tr.key)) ∧
      (1 ≤ w → w ≤ 4 → w ≤ hdrArity h + 1 → port (w - 1) ∉ mine → dword (8 * w) / 2 ^ 62 % 4 ≠ sHole →
        b.toNat / 2 ^ 57 % 32 = 0 → b.toNat / 4 % 16 = 0 → holdsNode (.node (tr.home + 8 * w) b tr.key)) ∧
      (1 ≤ w → w ≤ 4 → w ≤ hdrArity h + 1 → port (w - 1) ∈ mine ∨ dword (8 * w) / 2 ^ 62 % 4 = sHole →
        exec (.nst o) s = .next (s.faultAt s.cur 0x3E 0 (BitVec.ofNat 64 (port (w - 1))))) ∧
      (1 ≤ w → w ≤ 4 → hdrArity h + 1 < w → exec (.nst o) s = .next (s.faultAt s.cur 0x3A 0 (BitVec.ofNat 64 (port (w - 1)))))) ∧
    (Runs (.nalloc o) o.g o.gs s → kindOk o.kind.toNat o.pa.toNat = true → s.me.nodehead ≠ 0 →
      s.nodeOperand s.me.nodehead true = .ok tr → clean →
      ∃ t, exec (.nalloc o) s = .next t ∧ t.x o.d = (if o.d = 0 then 0 else s.me.nodehead) ∧ (∀ r, r ≠ o.d → t.x r = s.x r) ∧
        t.me.nodehead = BitVec.ofNat 64 (dword 40 / 2 ^ 6 % 2 ^ 51 * 64) ∧
        t.blk.held = s.blk.held ++ [.nalloc s.me.nodehead tr.home tr.key
          (BitVec.ofNat 64 (o.kind.toNat * 2 ^ 52 + c.toNat * 2 ^ 44 + o.pa.toNat * 2 ^ 42))] ∧
        ∀ key q, t.readHome key q = s1.readHome key q) ∧
    (Runs (.nalloc o) o.g o.gs s → kindOk o.kind.toNat o.pa.toNat = true → s.me.nodehead = 0 →
      exec (.nalloc o) s = .next (s.faultAt s.cur 0x38 0 0)) ∧
    (∀ h, Runs (.nfree o) o.g o.gs s → s.liveNode a true = .ok (tr, h) → clean → (∀ e ∈ s.blk.held, ∀ n q l, e = .nfree n q l → n ≠ a) →
      ((∀ i, i ≤ hdrArity h → (dword (8 * (i + 1)) / 2 ^ 62 % 4 = sBound → port i ∈ mine) ∧ port i ∉ s.rolesUsed false) →
        ∃ t, exec (.nfree o) s = .next t ∧ Holds s1 t [.nfree a c s.me.lvlS]) ∧
      (∀ i, i ≤ hdrArity h → dword (8 * (i + 1)) / 2 ^ 62 % 4 = sBound → port i ∉ mine →
        exec (.nfree o) s = .next (s.faultAt s.cur 0x3C 0 a))) ∧
    (o.func ≠ 1 → (∃ q, s.liveNode a false = .ok q) → (∃ q, s.liveNode b false = .ok q) →
      GivesHeld (.npush o) o.g o.gs s [.release false, .npush { a := a, b := b, colour := c, launch := false }]) ∧
    (o.func = 1 → s.me.claim ≠ none → (∀ e ∈ s.blk.held, ∀ l, e ≠ .nrel l) → Runs (.npush o) o.g o.gs s →
      ∃ t, exec (.npush o) s = .next (t.setW { s.w with tstat := s.w.tstat &&& 0b101111 }) ∧
        Holds s t [.release false, .nrel s.me.lvlS]) ∧
    (o.func = 1 → s.me.claim = none ∨ (∃ l, .nrel l ∈ s.blk.held) → Runs (.npush o) o.g o.gs s → exec (.npush o) s = .next (s.faultAt s.cur 0x3D 0 0)) ∧
    (Runs (.npop o) o.g o.gs s → s.me.bag = [] → ∃ t, exec (.npop o) s = .next t ∧ t.x o.d = 0 ∧ t.x o.a = 0 ∧
      (∀ r, r ≠ o.d → r ≠ o.a → t.x r = s.x r) ∧ t.blk.held = s.blk.held ∧ ∀ key q, t.readHome key q = s.readHome key q) ∧
    (∀ p rest, Runs (.npop o) o.g o.gs s → s.me.bag = p :: rest → p.mark = none →
      ∃ t, exec (.npop o) s = .next t ∧ t.me.bag = rest ∧ t.blk.held = s.blk.held ++ [.npop p] ∧
        (o.d ≠ o.a → t.x o.d = if o.d = 0 then 0 else p.a) ∧ t.x o.a = (if o.a = 0 ∨ p.launch then 0 else p.b) ∧
        (∀ r, r ≠ o.d → r ≠ o.a → t.x r = s.x r) ∧ ∀ key q, t.readHome key q = (s.l1DropAll s.cur).readHome key q) ∧
    (∀ q, s.me.rcache.find? (fun e => e.1 == kmax * 4096 + kmin) = some q → GivesX (.nruleLook o) o.g o.gs s o.d q.2.1) ∧
    (s.me.rcache.find? (fun e => e.1 == kmax * 4096 + kmin) = none → s.me.rtab = none → GivesX (.nruleLook o) o.g o.gs s o.d 0) ∧
    (∀ base n t0 t1, s.me.rcache.find? (fun e => e.1 == kmax * 4096 + kmin) = none → s.me.rtab = some (base, n) →
      let e := base.toNat + (kmax * 4096 + kmin) * 0x9E3779B1 % 2 ^ 32 / 2 ^ (32 - n) % 2 ^ n * 16
      s.access s.cur c.toNat e 8 true true .r = .ok t0 → s.access s.cur c.toNat (e + 8) 8 true true .r = .ok t1 →
      s.anyPoison t0.home 8 = false → s.anyPoison t1.home 8 = false → space t0.home ≠ .remote → space t1.home ≠ .remote →
      s.walkHeld s.cur c.toNat e = false → s.walkHeld s.cur c.toNat (e + 8) = false →
      let d0 := s.readVal t0.key t0.home 8
      let d1 := s.readVal t1.key t1.home 8
      d0 / 2 ^ 63 % 2 = 1 → d0 % 4096 = kmin → d0 / 4096 % 4096 = kmax → d0 / 2 ^ 56 % 2 ^ 7 = 0 → d0 / 2 ^ 24 % 2 ^ 24 = 0 →
      d1 / 2 ^ 57 % 2 ^ 7 = 0 → Runs (.nruleLook o) o.g o.gs s →
        ∃ u, exec (.nruleLook o) s = .next u ∧ u.x o.d = (if o.d = 0 then 0 else BitVec.ofNat 64 (d1 % 2 ^ 57)) ∧
          (∀ r, r ≠ o.d → u.x r = s.x r) ∧ ∀ key q, u.readHome key q = s.readHome key q) ∧
    (let n := b.toNat
     (n < 16 → 4 ≤ n → n ≤ 11 → a.toNat % (16 * 2 ^ n) = 0 → s.ruleTableSealed a.toNat n = .ok () →
      GivesHeld (.nruleSet o) o.g o.gs s [.nruleSet a n]) ∧
     (Runs (.nruleSet o) o.g o.gs s → n < 4 ∨ 11 < n → exec (.nruleSet o) s = .next (s.faultAt s.cur 0x40 0 b))) ∧
    GivesHeld (.nruleInv o) o.g o.gs s [.nruleInv]

/-- 15 R229, R241, R242: NLINK checks the ports by their roles and holds its join; the join of two free ports binds each to the other at
its bank, behind the core's own copies, ends any use of them by another join, and a
pair whose ports are both principal enters the bag. -/
def Obligations.NetJoin : Prop :=
  (∀ (o : NET) (s : State) (ta tb : Tr) (p q : Nat),
    let wa := o.func = 1 ∨ o.func = 3
    let wb := o.func = 2 ∨ o.func = 3
    let used := s.rolesUsed true
    let taken := s.rolesUsed false
    let s1 := (s.nodeHome ta).nodeHome tb
    let wires := (if wa then [p] else []) ++ (if wb then [q] else []) ++ used
    Runs (.nlink o) o.g o.gs s → s.linkPort (s.x o.a) o.pa.toNat = .ok (ta, p) → s.linkPort (s.x o.b) o.pb.toNat = .ok (tb, q) →
    ((wa → p ∈ s.heldPorts ∧ p ∉ used) → (wb → q ∈ s.heldPorts ∧ q ∉ used ∧ (wa → q ≠ p)) →
      (¬wa → s.portRole ta p wires taken = .ok ()) → (¬wb → s.portRole tb q wires (if wa then taken else p :: taken) = .ok ()) →
      ∃ t, exec (.nlink o) s = .next t ∧
        Holds s1 t [.release false, .nlink (p, decide wa) (q, decide wb) s.me.regs.colour s.me.lvlS]) ∧
    (wa → p ∉ s.heldPorts → exec (.nlink o) s = .next (s.faultAt s.cur 0x3D 0 (BitVec.ofNat 64 p)))) ∧
  ∀ (s : State) (n p q : Nat) (c : BitVec 8) (lvlS : Bool) (tp tq : Tr),
    let k : NetCtx := { n := n, c := c.toNat, lvlS := lvlS }
    let s1 := (s.l1DropRange n tp.home 8).write tp.key tp.home (leBytes 8 (linkWord sBound q))
    let s2 := (s1.l1DropRange n tq.home 8).write tq.key tq.home (leBytes 8 (linkWord sBound p))
    let s3 := { s2 with relays := (s2.relays.filter (· != tp.home)).filter (· != tq.home) }
    let pair : Pair := { a := BitVec.ofNat 64 (portNode p), b := BitVec.ofNat 64 (portNode q), colour := c, launch := false }
    s.nodeTr k p .w = .ok tp → s1.nodeTr k q .w = .ok tq →
    s.nlinkDeliver n (p, false) (q, false) c lvlS =
      (if portIndex p = 0 ∧ portIndex q = 0 then s3.pushTail n pair else s3).portsDone n [p, q]

/-! ## Network forms of a core (24), vanes (23) -/

/-- 24 R340, R343: MSEND checks its length, its payload, its destination and its class and holds the packet; MMASK, MUNMASK and the
receive forms act on the core's mask and ring. MRECV.cfg checks its word whatever its enable bit, which is the model's reading (log 53). -/
def Obligations.NetworkForms : Prop :=
  ∀ (o : RRR) (s : State),
    let len := (s.x o.d).toNat
    let d := (s.x o.a).toNat
    let src := (s.x o.b).toNat
    let cls := o.func.toNat % 16
    let r := s.ringSeen
    let h := if r.taken then (r.head + 1) % r.slots else r.head
    let n := if r.taken then r.count - 1 else r.count
    (len % 8 = 0 → len ≤ 256 → src % 8 = 0 → padLocal ≤ src → src + len ≤ 2 ^ 57 →
      d < 2 ^ 52 → d / 2 ^ 32 % 2 ^ 9 = 0 → d / 2 ^ 10 % 2 ^ 6 = 0 → (s.rcls (s.partid s.cur) cls).getLsbD 63 = true →
      (d / 2 ^ 51 % 2 = 0 → s.corePresent (d % 2 ^ 10) = true ∧ s.partOf (d % 2 ^ 10) = s.partOf s.cur) →
      GivesHeld (.msend o) o.g o.gs s [.send cls (s.x o.a) (src - padLocal) len s.me.regs.colour]) ∧
    (Runs (.msend o) o.g o.gs s → len % 8 ≠ 0 ∨ 256 < len → exec (.msend o) s = .next (s.faultAt s.cur 0x2D 0 (s.x o.d))) ∧
    GivesHeld (.mmask o) o.g o.gs s [.mask true ((s.x o.a).setWidth 16)] ∧
    GivesHeld (.munmask o) o.g o.gs s [.mask false ((s.x o.a).setWidth 16)] ∧
    GivesHeld (.mrecvFree o) o.g o.gs s [.ringFree] ∧
    (ringOk (s.x o.a) = true → GivesHeld (.mrecvCfg o) o.g o.gs s [.ringCfg (s.x o.a)]) ∧
    (ringOk (s.x o.a) = false → Runs (.mrecvCfg o) o.g o.gs s → exec (.mrecvCfg o) s = .next (s.faultAt s.cur 0x42 0 (s.x o.a))) ∧
    GivesX (.mrecvSt o) o.g o.gs s o.d (BitVec.ofNat 64
      (r.count * 2 ^ 48 + (if r.taken then 2 ^ 47 else 0) + min 65535 (s.holes s.cur) * 2 ^ 16 + s.me.mask.toNat)) ∧
    (Runs (.mrecvPop o) o.g o.gs s → ∃ t, exec (.mrecvPop o) s = .next t ∧ t.blk.held = s.blk.held ++
        [.ringPop (decide (n ≠ 0)) (s.blk.held.all fun h => match h with | .ringCfg _ => false | _ => true)] ∧
      t.x o.d = (if o.d = 0 ∨ n = 0 then 0 else BitVec.ofNat 64 (padLocal + r.base + h * 512)) ∧ (∀ a, a ≠ o.d → t.x a = s.x a) ∧
      ∀ key a, t.readHome key a = s.readHome key a)

/-- 23 R327 to R329: VNSET and STEERSET check their selector and value and hold a command of the vane unit, VNRD reads the unit; the
unit performs its oldest command: a configuration clears its vane's counts, and a vector's values are the 16-bit words of its area, the
core's own dirty bytes among them. -/
def Obligations.VaneForms : Prop :=
  (∀ (o : RRR) (s : State),
    let a := s.x o.a
    let b := s.x o.b
    let k := b.toNat
    (o.func = 0 → k < 4 → s.cfgBad a = false → GivesHeld (.vnset o) o.g o.gs s [.vane (.cfg k a)]) ∧
    (o.func = 1 → k < 32 → prbBad a = false → GivesHeld (.vnset o) o.g o.gs s [.vane (.prb (k % 4) (k / 4) a)]) ∧
    (∀ ps, 2 ≤ o.func.toNat → k < 8 → s.vaneSource a = .ok ps → GivesHeld (.vnset o) o.g o.gs s [.vane (.vec k ps a.toNat)]) ∧
    (Runs (.vnset o) o.g o.gs s → (if o.func = 0 then 4 else if o.func = 1 then 32 else 8) ≤ k →
      exec (.vnset o) s = .next (s.faultAt s.cur 0x42 0 b)) ∧
    (o.func = 1 → k < 8 → GivesHeld (.steerset o) o.g o.gs s [.vane (.steerClr k)]) ∧
    (∀ ps, o.func ≠ 1 → k < 8 → s.vaneSource a = .ok ps → GivesHeld (.steerset o) o.g o.gs s [.vane (.steer k ps a.toNat)]) ∧
    (o.func = 0 → k < 4 → GivesX (.vnrd o) o.g o.gs s o.d (Sp.get 0 s.me.vane.cfg k)) ∧
    (o.func = 1 → k < 32 → GivesX (.vnrd o) o.g o.gs s o.d (Sp.get 0 s.me.vane.prb (k % 4 * 8 + k / 4))) ∧
    (2 ≤ o.func.toNat → k < 4 → GivesX (.vnrd o) o.g o.gs s o.d (Sp.get 0 s.me.vane.cnt k))) ∧
  ∀ (n : CoreNum) (s : State) (c : VaneCmd) (rest : List VaneCmd),
    let u := (s.core n.toNat).vane
    let does := fun (post : VaneUnit → Prop) => u.queue = c :: rest →
      ∃ t, exec (.vaneCommandPerform n) s = .next t ∧ (t.core n.toNat).vane.queue = rest ∧ post (t.core n.toNat).vane ∧
        (∀ m, m ≠ n.toNat → t.core m = s.core m) ∧ ∀ key a, t.readHome key a = s.readHome key a
    (∀ v w, c = .cfg v w → does fun q => (∀ k, Sp.get 0 q.cfg k = if k = v then w else Sp.get 0 u.cfg k) ∧ Sp.get 0 q.cnt v = 0 ∧
      q.prb = u.prb ∧ q.probe = u.probe ∧ q.steer = u.steer) ∧
    (∀ v i w, c = .prb v i w → does fun q => (∀ k, Sp.get 0 q.prb k = if k = v * 8 + i then w else Sp.get 0 u.prb k) ∧
      q.cfg = u.cfg ∧ q.cnt = u.cnt ∧ q.probe = u.probe ∧ q.steer = u.steer) ∧
    (∀ k ps va, c = .vec k ps va → (∀ i, i < 8192 → space (pageHome ps (va + i)).home ≠ .remote) → does fun q =>
      let byte := fun (i : Nat) => (s.ownByte n.toNat (pageHome ps (va + i)).key (pageHome ps (va + i)).home).1
      (∀ i, i < 4096 → Sp.get 0 q.probe (k * 4096 + i) = byte (2 * i + 1) ++ byte (2 * i)) ∧
        (∀ j, j / 4096 ≠ k → Sp.get 0 q.probe j = Sp.get 0 u.probe j) ∧ q.cfg = u.cfg ∧ q.prb = u.prb ∧ q.steer = u.steer) ∧
    (∀ k, c = .steerClr k → does fun q => ∀ j, Sp.get 0 q.steer j = if j / 4096 = k then 0 else Sp.get 0 u.steer j)

/-! ## Regions and sections (08, 09) -/

namespace Sys2Proof.Says

/-- A dword of the image that a load reads, as RLOAD reads it (09 R158). -/
def imageWord (s : State) : Reader := fun a =>
  match s.load (BitVec.ofNat 64 a) 8 with
  | .error e => .error e
  | .ok (t, bs) =>
    if s.mustBeSealed s.myColour && !s.sealedFrame t.home then .error (.fault 0x22 0 (BitVec.ofNat 64 a))
    else .ok (BitVec.ofNat 64 (bytesNat bs))

/-- Table 09.12's code of a region state. -/
def codeOf : RegionState → Nat
  | .empty => 0 | .loading => 1 | .resident => 2 | .torn => 3 | .refused => 4

end Sys2Proof.Says

/-- 08 R147, Table 08.5; 09 R158, R161, R166, R168, R172, R179, Tables 09.12, 09.13: the region and colour forms check their handle and
hold their command; COLQ.rd and RCALM.stat read; RLOAD checks the image and answers its handle; RARM snapshots its descriptor. A handle
outside the partition raises code 0x20, a bad injection 0x26. RCALM.stat reads calm at two quiet sweeps, the model's reading (log 38). -/
def Obligations.RegionForms : Prop :=
  ∀ (o : RRR) (s : State),
    let a := s.x o.a
    let b := s.x o.b
    let h := a.toNat
    let col := b.toNat % 256
    let r := s.region h
    let q := r.colour col
    let mine := s.badHandle s.cur a = false
    let inUse := r.st = .resident ∨ r.st = .torn
    let stops := fun (i : Instr) (code : Nat) (v : W64) => Runs i o.g o.gs s → exec i s = .next (s.faultAt s.cur code 0 v)
    (mine → inUse →
      GivesX (.colqRd o) o.g o.gs s o.d (if (s.me.lvlS = false ∧ col ≠ s.me.regs.colour.toNat) ∨ q.quota = 0 then 0
        else BitVec.ofNat 64 (q.purged * 2 ^ 40 + (if q.purging then 2 ^ 33 else 0) + (if q.closed then 2 ^ 32 else 0) +
          q.quota * 2 ^ 16 + r.live col)) ∧
      GivesHeld (.colqOpen o) o.g o.gs s [.colq h (b.setWidth 8) true] ∧
      GivesHeld (.colqClose o) o.g o.gs s [.colq h (b.setWidth 8) false] ∧
      GivesHeld (.rpurge o) o.g o.gs s [.purge h (b.setWidth 8)]) ∧
    (¬(mine ∧ inUse) → stops (.colqRd o) 0x20 a ∧ stops (.colqOpen o) 0x20 a ∧ stops (.colqClose o) 0x20 a ∧ stops (.rpurge o) 0x20 a) ∧
    (mine → GivesHeld (.rtear o) o.g o.gs s [.tear h (o.func == 1)]) ∧
    (mine → s.injectOk h b (s.x o.c) = true → GivesHeld (.rinj o) o.g o.gs s [.inject h b (s.x o.c)]) ∧
    (mine → s.injectOk h b (s.x o.c) = false → stops (.rinj o) 0x26 (s.x o.c)) ∧
    (¬mine → stops (.rtear o) 0x20 a ∧ stops (.rinj o) 0x20 a) ∧
    (∀ g img, h % 32 = 0 → b.toNat < 1024 → s.corePresent b.toNat = true → s.partOf b.toNat = s.partOf s.cur →
      s.readImage s.cur (imageWord s) a b.toNat = .ok (g, img) → Runs (.rload o) o.g o.gs s →
      ∃ t, exec (.rload o) s = .next t ∧ t.x o.d = (if o.d = 0 then 0 else BitVec.ofNat 64 g) ∧ (∀ x, x ≠ o.d → t.x x = s.x x) ∧
        t.blk.held = s.blk.held ++
          [.load { core := s.cur, target := b.toNat, handle := g, force := o.func == 1, loader := false, pin := false, img := img }] ∧
        ∀ key x, t.readHome key x = s.readHome key x) ∧
    (h % 32 ≠ 0 → stops (.rload o) 0x08 a) ∧
    (h % 32 = 0 → 1024 ≤ b.toNat → stops (.rload o) 0x21 b) ∧
    (∀ d, h % 32 = 0 → s.me.cbc.find? (fun e => e.1 == h) = some (h, d) →
      let t0 : Section := { Section.reset with desc := (List.range 4).map fun k => BitVec.ofNat 64 (d.toNat / 2 ^ (64 * k)) }
      let pre : List Held := if t0.streams = 0 then [] else [.release false]
      s.armCheck s.cur t0 s.armedHere (fun i => (s.streamSeen i).st == .bound) s.me.lvlS s.me.regs.colour.toNat = .ok () →
      Runs (.rarm o) o.g o.gs s → ∃ t, exec (.rarm o) s = .next t ∧ (∀ x, t.x x = s.x x) ∧
        t.blk.held = s.blk.held ++ pre ++ [.arm o.d (s.blk.held.length + pre.length) t0.desc a s.me.lvlS] ∧
        ∀ key x, t.readHome key x = s.readHome key x) ∧
    (mine → o.func = 3 → Runs (.rcalm o) o.g o.gs s → ∃ u, Answered (.rcalm o) s u ∧ u.blk.wait = .none ∧
      u.x o.d = (if o.d = 0 then 0 else BitVec.ofNat 64 (r.supp * 2 ^ 40 + r.stale * 2 ^ 20 + min 15 (s.armedOn h) * 2 ^ 8 +
        codeOf r.st * 8 + (if inUse ∧ r.quiet < 2 then 0 else 1))) ∧ (∀ x, x ≠ o.d → u.x x = s.x x) ∧
      ∀ key x, u.readHome key x = s.readHome key x) ∧
    (mine → o.func = 0 → inUse → Runs (.rcalm o) o.g o.gs s → ∃ t, exec (.rcalm o) s = .next t ∧ t.blk.wait ≠ .none ∧
      exec (.waitAnswer s.curCore) t = .next t) ∧
    (¬mine → o.func ≠ 2 → Runs (.rcalm o) o.g o.gs s →
      exec (.rcalm o) s = .next ({ s with free := s.free + 1 }.faultAt s.cur 0x20 0 a))

/-- 08 R139, R143, R145, 09 R151, R170: a link's token of the slot's generation enters the queue of its input; a colour's head at an
entry side that has been admitted enters its element where there is room; an ordered exit side lets only a token of the expected
iteration leave. -/
def Obligations.TokensMove : Prop :=
  ∀ (s : State),
    (∀ (e : ElemNum) (src : BitVec 3) (sl : BitVec 2) (c : BitVec 8) (t : Token) (i : Nat),
      let x := s.elem e.toNat
      let v := x.slot sl.toNat
      Sp.find? x.links src.toNat = some t → t.slot = sl → t.colour = c → v.op ≠ 0 → v.gen = t.gen → v.input src.toNat = some i → i < 4 →
      x.queues.length = 4 →
      ∃ u, exec (.linkTransfer e src sl c) s = .next u ∧ Sp.find? (u.elem e.toNat).links src.toNat = none ∧
        (u.elem e.toNat).queues.getD i [] = x.queues.getD i [] ++ [t] ∧
        (∀ j, j ≠ i → (u.elem e.toNat).queues.getD j [] = x.queues.getD j []) ∧ (∀ f, f ≠ e.toNat → u.elem f = s.elem f) ∧
        ∀ key a, u.readHome key a = s.readHome key a) ∧
    (∀ (n : CoreNum) (port : BitVec 4) (sl : BitVec 2) (t : Token) (rest : List (Token × Bool)) (e i : Nat),
      let k := sideKey n.toNat port.toNat sl.toNat t.colour.toNat
      let v := s.slot e sl.toNat
      let x := s.elem e
      s.entryq.filter (fun q => q.1 / 256 == portKey n.toNat port.toNat sl.toNat) = [(k, (t, true) :: rest)] →
      Sp.find? s.entryq k = some ((t, true) :: rest) → s.sideUser n.toNat port.toNat sl.toNat true = some e →
      v.input 5 = some i → i < 4 → x.queues.length = 4 → v.held i = false → s.roomIn e sl.toNat i (tagOf t) = true →
      let admits := fun (ev : Instr) => ∃ u, exec ev s = .next u ∧
        (u.elem e).queues.getD i [] = x.queues.getD i [] ++ [{ t with slot := sl, gen := v.gen }] ∧
        Sp.get [] u.entryq k = rest ∧ (∀ f, f ≠ e → u.elem f = s.elem f) ∧ ∀ key a, u.readHome key a = s.readHome key a
      admits (.entryPortAdmit n port sl) ∧ (s.channels = [] → admits (.heldTokenAdmit n port sl t.colour))) ∧
    ∀ (n : CoreNum) (port : BitVec 4) (sl : BitVec 2) (c : BitVec 8) (e : Nat) (p : Nat) (g : BitVec 3) (i : Nat) (t : Token),
      s.sideUser n.toNat port.toNat sl.toNat false = some e → (s.slot e sl.toNat).cfg.ordx = true →
      (s.core n.toNat).streams = [] → s.channels = [] → s.partOf n.toNat = some p → s.hostPath (s.partid n.toNat) false = true →
      (s.sched p).ings = [(g.toNat, { Ing.reset with xen := true, core := n, xport := port })] →
      ((∀ q ∈ Sp.get [] s.exitq (sideKey n.toNat port.toNat sl.toNat c.toNat), q.iter.toNat ≠
          Sp.get 0 s.expect (expectKey n.toNat port.toNat sl.toNat c.toNat q.context.toNat)) →
        exec (.exitReorderEmit n port sl c) s = .next s) ∧
      (s.exitPick n.toNat port.toNat sl.toNat c.toNat = some (i, t) →
        ∃ u, exec (.exitReorderEmit n port sl c) s = .next u ∧ u.egress = s.egress ++ [((s.colour c.toNat).vf, t)] ∧
          Sp.get [] u.exitq (sideKey n.toNat port.toNat sl.toNat c.toNat) =
            (Sp.get [] s.exitq (sideKey n.toNat port.toNat sl.toNat c.toNat)).eraseIdx i)

/-- 09 R159 to R166, Table 09.5; 08 R140, R141: the events of a region. A load that fails no check makes its region LOADING with the next
generation; each element write takes a free slot, and the last makes it RESIDENT; the calm tree releases a key it misses in two sweeps;
a purge ends when its colour is calm; the doldrums close and purge a colour whose counter has run out; a one-shot element frees itself. -/
def Obligations.RegionEvents : Prop :=
  ∀ (s : State),
    (∀ (quad : Bool) (n : CoreNum) (c : LoadCmd) (rest : List LoaderCmd),
      let g := (if quad then n.toNat - n.toNat % 4 else n.toNat) * 2 + (if quad then 1 else 0)
      let s1 : State := { s with loaders := Sp.set [] s.loaders g rest }
      Sp.find? s.loaders g = some (.load c :: rest) → c.force = false →
      (s1.loadFails c = none → ∃ t, exec (.loadDelivery quad n) s = .next t ∧ (t.region c.handle).st = .loading ∧
        (t.region c.handle).elems = c.img.elems ∧ (t.region c.handle).left = c.img.elems.map (·.elem) ∧
        (t.region c.handle).gen = s1.nextGen (hCore c.handle / 4) (hSlot c.handle) ∧ (t.region c.handle).keys = [] ∧
        (∀ h, h ≠ c.handle → t.region h = s.region h) ∧ Sp.get [] t.loaders g = rest) ∧
      (∀ f, s1.loadFails c = some (0x63, f) → ∃ t, exec (.loadDelivery quad n) s = .next t ∧ (t.region c.handle).st = .refused)) ∧
    (∀ (h : Handle) (i : ImageElem),
      let r := s.region h.toNat
      let sl := hSlot h.toNat
      r.st = .loading → r.elems.find? (fun j => r.left.contains j.elem && !(s.slot j.elem sl).on) = some i →
      ∃ t, exec (.elementWrite h) s = .next t ∧
        t.slot i.elem sl = { ElemSlot.reset with op := i.op, cfg := i.cfg, table := i.table, region := h.toNat, gen := r.gen } ∧
        (t.region h.toNat).st = (if r.left.filter (· != i.elem) = [] then .resident else .loading) ∧
        (∀ e, e ≠ i.elem → t.elem e = s.elem e) ∧ ∀ key a, t.readHome key a = s.readHome key a) ∧
    (∀ (h : Handle) (c : BitVec 8),
      let k := (s.region h.toNat).colour c.toNat
      (k.purging = true → 2 ≤ k.quiet → s.requesting h.toNat c.toNat = false → ∃ t, exec (.purgeEnd h c) s = .next t ∧
        ((t.region h.toNat).colour c.toNat).purging = false ∧
        ((t.region h.toNat).colour c.toNat).closed = (k.closed && !k.reopen) ∧
        (∀ x ∈ t.ctxs, ¬(x.2.region = h.toNat ∧ x.2.colour = c)) ∧ t.elems = s.elems) ∧
      (k.purging = true → k.quiet < 2 → exec (.purgeEnd h c) s = .next s) ∧
      (let r := s.region h.toNat
       r.st = .resident ∨ r.st = .torn → k.quota ≠ 0 → k.stopped = false → k.purging = false →
        2 ^ (if r.dexp = 0 then 24 else r.dexp) ≤ k.stall →
        ∃ t, exec (.doldrums h c) s = .next t ∧ ((t.region h.toNat).colour c.toNat).purging = true ∧
          ((t.region h.toNat).colour c.toNat).closed = true ∧ ((t.region h.toNat).colour c.toNat).stopped = true ∧
          (t.region h.toNat).live c.toNat = 0)) ∧
    (∀ (quad : Bool) (n : CoreNum) (h : Nat) (k : Key),
      let g := (if quad then n.toNat - n.toNat % 4 else n.toNat) * 2 + (if quad then 1 else 0)
      let r := s.region h
      s.regions.filter (fun q => hGrid q.1 == g && q.2.inUse) = [(h, r)] → r.st = .resident → k ∉ s.keysIn h →
      (∀ q ∈ r.keys, q.1 = k → 1 ≤ q.2) →
      ∃ t, exec (.calmSweep quad n) s = .next t ∧ (t.region h).isLive k = false ∧
        (t.region h).quiet = (if s.keysIn h = [] then r.quiet + 1 else 0) ∧ ∀ key a, t.readHome key a = s.readHome key a) ∧
    (∀ (e : ElemNum) (sl : BitVec 2),
      let v := s.slot e.toNat sl.toNat
      let r := s.region v.region
      v.op ≠ 0 → r.oneShot = true → r.st = .resident → s.idleSlot e.toNat sl.toNat = true → s.lastEos e.toNat sl.toNat = true →
      (∃ i ∈ r.elems, i.elem ≠ e.toNat ∧ i.elem ∉ r.freed) →
      ∃ t, exec (.oneShotFree e sl) s = .next t ∧ t.slot e.toNat sl.toNat = ElemSlot.reset ∧
        (t.region v.region).freed = r.freed ++ [e.toNat] ∧ (t.region v.region).st = .resident ∧
        ∀ key a, t.readHome key a = s.readHome key a)

/-- 09 R172 to R175, 10 R184, R187, R388: a section whose regions are resident starts and counts its tiles at every sink; its barrier
releases it when every sink is done; one that ends early is freed with its status; a refused completion is sent again after 1,024
cycles. A port write stream stores its token at its address; a port read's token enters its side; a done action counts its tiles. A port
read's token goes to the port that it set out for, whatever the stream's binding is then: the model's reading (log 39). -/
def Obligations.SectionAndPortEvents : Prop :=
  ∀ (n : CoreNum) (s : State),
    (∀ (e : BitVec 4),
      let t := (s.core n.toNat).sect e.toNat
      let after := fun (u : State) => (u.core n.toNat).sect e.toNat
      (s.mayStart t = true → t.kind ≠ 2 → ∃ u, exec (.sectionStart n e) s = .next u ∧ (after u).started = true ∧
        (∀ h k, h ∈ t.regions → k ∈ s.sinksOf h → (k, t.tiles) ∈ (after u).sinks) ∧
        (∀ i, i < 16 → bitAt t.streams i = true → ((s.core n.toNat).stream i).st = .reserved →
          ((s.core n.toNat).stream i).inSect = some e.toNat → ((u.core n.toNat).stream i).st = .running) ∧
        ∀ key a, u.readHome key a = s.readHome key a) ∧
      (s.mayRelease t = true → t.kind = 0 → ∃ u, exec (.sectionRelease n e) s = .next u ∧ (after u).used = false ∧
        (after u).status = 0 ∧ ∀ key a, u.readHome key a = s.readHome key a) ∧
      (∀ st, t.ending = some st → t.used = true → t.done = none → t.kind = 0 → ∃ u, exec (.sectionEarlyEnd n e) s = .next u ∧
        (after u).used = false ∧ (after u).status = st ∧ ∀ key a, u.readHome key a = s.readHome key a) ∧
      (∀ st, t.done = some st → t.used = true → t.putting = false → 1024 ≤ s.cycle - t.sentAt →
        ∃ u, exec (.completionPutRetry n e) s = .next u ∧ (after u).putting = true ∧ (after u).sentAt = s.cycle ∧
          u.presOps = s.presOps ++
            [{ who := .completion n.toNat e.toNat, kind := .put, addr := t.putHome, data := BitVec.ofNat 64 (st * 2 ^ 32 + t.tiles) }] ∧
          ∀ key a, u.readHome key a = s.readHome key a) ∧
      (∀ st, t.done = some st → s.cycle - t.sentAt < 1024 → exec (.completionPutRetry n e) s = .next s)) ∧
    ∀ (k : BitVec 4),
      let q := (s.core n.toNat).stream k.toNat
      let after := fun (u : State) => (u.core n.toNat).stream k.toNat
      (∀ i t tr, q.st = .running → q.tile < q.tiles → q.hold = false → q.target = 0 → q.write = true → 0 < q.n0 → q.past = false →
        s.exitPick n.toNat q.port q.slot q.colour.toNat = some (i, t) → t.bubble = false → t.poison = false → t.eos = false →
        s.access n.toNat t.colour.toNat q.addr 4 q.lvlS false .w = .ok tr → (∀ j, j < 4 → space (tr.home + j) = .floor) →
        ∃ u, exec (.portWriteToken n k) s = .next u ∧ after u = q.advance ∧ (∀ a, space a ≠ .gddr → u.readHome 0 a =
          if tr.home ≤ a ∧ a < tr.home + 4 then t.value.extractLsb' (8 * (a - tr.home)) 8 else s.readHome 0 a)) ∧
      (∀ i t, q.st = .running → q.tile < q.tiles → q.hold = false → q.target = 0 → q.write = true →
        s.exitPick n.toNat q.port q.slot q.colour.toNat = some (i, t) → t.bubble = false → t.poison = true → t.eos = false →
        ∃ u, exec (.portWriteToken n k) s = .next u ∧ (after u).lost = min (2 ^ 18 - 1) (q.lost + 1) ∧
          ∀ key a, u.readHome key a = s.readHome key a) ∧
      (∀ t u, q.out = some t → s.offer n.toNat q.outPort t.slot.toNat t = (u, .taken) →
        exec (.portReadDelivery n k) s = .next (u.setStream n.toNat k.toNat { (u.core n.toNat).stream k.toNat with out := none })) ∧
      (∀ t, q.out = some t → s.offer n.toNat q.outPort t.slot.toNat t = (s, .noUser) →
        ∃ u, exec (.portReadDelivery n k) s = .next u ∧ (after u).out = none ∧ (after u).lost = min (2 ^ 18 - 1) (q.lost + 1)) ∧
      (∀ a rest, q.due = a :: rest → a.act.tok = false → (a.act.scope = 6 → s.unacked (.stream n.toNat k.toNat) = false) →
        let d := a.act.arg
        let h := padHome (d.toNat / 2 ^ 19 % 1024) (d.toNat / 4 % 2 ^ 17 * 4)
        ∃ u, exec (.doneAction n k) s = .next u ∧ (after u).due = rest ∧ (∀ x, space x ≠ .gddr → u.readHome 0 x =
          if h ≤ x ∧ x < h + 4 then BitVec.ofNat 8 ((d.toNat / 2 ^ 32 + a.k) % 2 ^ 32 / 256 ^ (x - h)) else s.readHome 0 x))

/-! ## Elements (09, 03, 22, 23) -/

namespace Sys2Proof.Says

/-- It is the turn of a slot that holds op and o and owes nothing; the set `ent` is the next to fire, and `s1` is the state in which it
fires: the heads of the queues have entered the matching store (09 R152, R154). -/
def Fires (op : BitVec 8) (o : ElemCfg) (s : State) (ent : Entry) (s1 : State) : Prop :=
  let e := s.curElem.toNat
  let sl := s.curSlot.toNat
  let u := s.acceptAll e
  (s.slot e sl).op = op ∧ (s.slot e sl).cfg = o ∧ u.nextOwed e sl = none ∧ u.turnSlot e = some sl ∧ u.fireable e sl = some ent ∧
    s1 = u.setElem e { u.elem e with last := sl }

/-- The slot whose turn it is. -/
def mySlot (s : State) : ElemSlot := s.slot s.curElem.toNat s.curSlot.toNat
/-- The operands of the set. -/
def operandsOf (s1 : State) (ent : Entry) : List Token := (mySlot s1).operands ent
/-- Operand i's 32 bits. -/
def opWord (s1 : State) (ent : Entry) (i : Nat) : W32 := BitVec.ofNat 32 (opnds (operandsOf s1 ent) i)
/-- No queue operand is a bubble, and every operand has the format the operation asks for. -/
def Regular (s1 : State) (ent : Entry) : Prop :=
  (mySlot s1).anyBubble (operandsOf s1 ent) = false ∧ (mySlot s1).formatBad (operandsOf s1 ent) = false
/-- The result of a firing: the tag of input 0, and eor, eos and poison the OR over the queue operands (09 R155). -/
def resultOf (s1 : State) (ent : Entry) (fmt : BitVec 3) (value : W32) : Token :=
  let q := (mySlot s1).queueOps (operandsOf s1 ent)
  { (operandsOf s1 ent).headD blankTok with
    value := value, fmt := fmt, eor := q.any (·.eor), eos := q.any (·.eos), poison := q.any (·.poison), bubble := false,
    gen := (mySlot s1).gen }
/-- The set is consumed, and the token leaves by out0. -/
def Gives (i : Instr) (s s1 : State) (ent : Entry) (t : Token) : Prop :=
  exec i s = .next ((s1.consume s.curElem.toNat s.curSlot.toNat ent.key).output s.curElem.toNat s.curSlot.toNat false t)
/-- Where a queue operand is a bubble, the firing consumes the set and sends a bubble of its tag, flags and format, whose value is open
(09 R155). -/
def PassesBubble (i : Instr) (s s1 : State) (ent : Entry) (fmt : BitVec 3) : Prop :=
  let v := mySlot s1
  let ops := operandsOf s1 ent
  v.anyBubble ops = true → ∃ (t : Token) (u : State), u = { s1 with free := s1.free + 1 } ∧
    exec i s = .next ((u.consume s.curElem.toNat s.curSlot.toNat ent.key).output s.curElem.toNat s.curSlot.toNat false t) ∧
    t.bubble = true ∧ tagOf t = tagOf (ops.headD blankTok) ∧ t.fmt = fmt ∧ t.eor = (v.queueOps ops).any (·.eor) ∧
    t.eos = (v.queueOps ops).any (·.eos) ∧ t.poison = (v.queueOps ops).any (·.poison)
/-- An operand of another format than the operation asks for: the set is consumed and nothing leaves; "operand format" is recorded with
a hold on the set's tag (09 R168, R176). -/
def HoldsMisfit (i : Instr) (s s1 : State) (ent : Entry) : Prop :=
  let v := mySlot s1
  let ops := operandsOf s1 ent
  v.anyBubble ops = false → v.formatBad ops = true →
    let t := (s1.consume s.curElem.toNat s.curSlot.toNat ent.key).elemFault s.curElem.toNat s.curSlot.toNat 0x50 ops true 0 0 0
    exec i s = .next t ∧ (t.slot s.curElem.toNat s.curSlot.toNat).holds = v.holds ++ [tagOf (ops.headD blankTok)] ∧ t.exitq = s1.exitq
/-- Lanes of a token format (03 R41). -/
def laneCount (fmt : Nat) : Nat := Sys2Proof.Machine.lanes fmt
/-- A value whose lanes are as `f` says. -/
def lanewise (fmt : Nat) (f : Nat → Nat) : W32 := BitVec.ofNat 32 (joinLanes fmt ((List.range (laneCount fmt)).map f))
/-- Lane i of operand j, as a value of the format. -/
def laneVal (s1 : State) (ent : Entry) (fmt j i : Nat) : Fp.Val :=
  Fp.unpack (Fp.ofTy (laneTy fmt)) (laneOf fmt i (opnds (operandsOf s1 ent) j))

end Sys2Proof.Says

/-- 09 Table 09.9, R155, R176, 03 R53, 22 R315: the integer elements. Each fires with one result on out0, whose value is the
operation on the 32 bits of its operands, signed in format 0; a DRAW with format 2 sends its word's upper 24 bits as a fraction. Each, with
a bubble among its queue operands, sends a bubble of its tag and format, and each but STAB and DRAW, which take a token of any format, sends
nothing for a token of another format, records "operand format" and keeps a hold. -/
def Obligations.IntegerElementResult : Prop :=
  (∀ (o : ElemCfg) (s s1 : State) (ent : Entry), Regular s1 ent →
    let A := opWord s1 ent 0
    let B := opWord s1 ent 1
    let k := B.toNat % 32
    let le := if o.fmt = 0 then decide (A.toInt ≤ B.toInt) else decide (A.toNat ≤ B.toNat)
    let num := fun (x : W32) => if o.fmt = 0 then x.toInt else (x.toNat : Int)
    let gives := fun (i : Instr) (op : BitVec 8) (v : W32) => Fires op o s ent s1 → Gives i s s1 ent (resultOf s1 ent o.fmt v)
    let word := draw o.opx.toNat o.const.toNat A.toNat ent.key.colour.toNat ent.key.context.toNat
    (o.fmt.toNat ≤ 1 →
      gives (.addE o) 0x10 (A + B) ∧ gives (.subE o) 0x11 (A - B) ∧ gives (.mulE o) 0x12 (A * B) ∧
      gives (.minE o) 0x13 (if le then A else B) ∧ gives (.maxE o) 0x14 (if le then B else A) ∧ gives (.andE o) 0x15 (A &&& B) ∧
      gives (.orE o) 0x16 (A ||| B) ∧ gives (.xorE o) 0x17 (A ^^^ B) ∧ gives (.shlE o) 0x18 (A <<< k) ∧
      gives (.shrE o) 0x19 (if o.fmt = 0 then A.sshiftRight k else A >>> k) ∧
      (o.opx.toNat ≤ 5 → gives (.cmpE o) 0x1A (if holds o.opx.toNat (num A) (num B) then 1 else 0))) ∧
    gives (.selE o) 0x1B (if opWord s1 ent 2 ≠ 0 then A else B) ∧
    (Fires 0x3F o s ent s1 → Gives (.statE o) s s1 ent
      { resultOf s1 ent 1 (BitVec.ofNat 32 (min (2 ^ 32 - 1) (A.toNat + B.toNat))) with eor := false }) ∧
    gives (.stabE o) 0x3C ((mySlot s1).table.getD (min A.toNat 255) 0) ∧
    (o.fmt ≠ 2 → gives (.drawE o) 0x45 (BitVec.ofNat 32 word)) ∧
    (o.fmt = 2 → gives (.drawE o) 0x45 (BitVec.ofNat 32 (Fp.roundMag .f32 0 false false (word / 256) (-24) false).raw))) ∧
  ∀ (o : ElemCfg) (s s1 : State) (ent : Entry),
    let rest := fun (i : Instr) (op : BitVec 8) (fmt : BitVec 3) => Fires op o s ent s1 → PassesBubble i s s1 ent fmt ∧ HoldsMisfit i s s1 ent
    rest (.addE o) 0x10 o.fmt ∧ rest (.subE o) 0x11 o.fmt ∧ rest (.mulE o) 0x12 o.fmt ∧ rest (.minE o) 0x13 o.fmt ∧
      rest (.maxE o) 0x14 o.fmt ∧ rest (.andE o) 0x15 o.fmt ∧ rest (.orE o) 0x16 o.fmt ∧ rest (.xorE o) 0x17 o.fmt ∧
      rest (.shlE o) 0x18 o.fmt ∧ rest (.shrE o) 0x19 o.fmt ∧ rest (.cmpE o) 0x1A o.fmt ∧ rest (.selE o) 0x1B o.fmt ∧
      rest (.statE o) 0x3F 1 ∧ (Fires 0x3C o s ent s1 → PassesBubble (.stabE o) s s1 ent o.fmt) ∧
      (Fires 0x45 o s ent s1 → PassesBubble (.drawE o) s s1 ent o.fmt)

/-- 04 Table 04.6 lane by lane, 09 Table 09.10, R155, R176, 03 R42, R45, R46, 22 R314: the floating-point and sampler elements. A lane
is the exact result, rounded once with the element's mode; a converter's lanes are counted for its colour unless its token is poisoned,
and with fin set a lane that is not finite poisons the token and is recorded. Bubbles pass, and a wrong format holds, as for the integer
elements. PENAL is logit − f × n − q × [n > 0]. SEXP2, SLOG2 and SSIN take the model's truncated series as their exact value: that its bits
decide every rounding is unverified (log 12). -/
def Obligations.FloatElementResult : Prop :=
  (∀ (o : ElemCfg) (s s1 : State) (ent : Entry), Regular s1 ent →
    let e := s.curElem.toNat
    let sl := s.curSlot.toNat
    let ops := operandsOf s1 ent
    let fmt := o.fmt.toNat
    let F := Fp.ofTy (laneTy fmt)
    let x := fun (j i : Nat) => laneVal s1 ent fmt j i
    let q := fun (r : Fp.Val × Bool) => Fp.roundTo F o.rm.toNat false r.1 r.2
    let conv := fun (n : Nat) (i : Instr) (op : BitVec 8) (f : Nat → Fp.Val × Bool) => n ≤ ops.length → Fires op o s ent s1 →
      let raws := (List.range (laneCount fmt)).map fun k => (q (f k)).raw
      let kinds := (List.range (laneCount fmt)).map fun k =>
        Fp.kind F false (ops.map fun t => Fp.unpack F (laneOf fmt k t.value.toNat)) (q (f k))
      let t := resultOf s1 ent o.fmt (lanewise fmt fun k => (q (f k)).raw)
      let counted := s1.setSlot e sl ((mySlot s1).countLanes t.colour kinds)
      (t.poison = true → Gives i s s1 ent t) ∧
      (t.poison = false → o.fin = false ∨ nonFinite fmt raws = 0 → Gives i s counted ent t) ∧
      (t.poison = false → o.fin = true → nonFinite fmt raws ≠ 0 →
        Gives i s (counted.elemFault e sl 0x55 ops false 0 0 (nonFinite fmt raws)) ent { t with poison := true })
    let plain' := fun (i : Instr) (op : BitVec 8) (f : Nat → Nat) (g : BitVec 3) => Fires op o s ent s1 →
      Gives i s s1 ent (resultOf s1 ent g (lanewise fmt f))
    let rne := fun (v : Fp.Val) => (Fp.roundTo F 0 false v false).raw
    let word := fun (i : Nat) => (opWord s1 ent i).toNat
    (2 ≤ fmt → fmt ≤ 6 →
      conv 2 (.faddE o) 0x20 (fun k => (Fp.add o.rm.toNat (x 0 k) (x 1 k), false)) ∧
      conv 2 (.fsubE o) 0x21 (fun k => (Fp.add o.rm.toNat (x 0 k) (Fp.neg (x 1 k)), false)) ∧
      conv 2 (.fmulE o) 0x22 (fun k => (Fp.mul (x 0 k) (x 1 k), false)) ∧
      conv 3 (.fmaE o) 0x23 (fun k => (Fp.fma o.rm.toNat (x 0 k) (x 1 k) (x 2 k), false)) ∧
      plain' (.fminE o) 0x24 (fun k => rne (Fp.fmin (x 0 k) (x 1 k))) o.fmt ∧
      plain' (.fmaxE o) 0x25 (fun k => rne (Fp.fmax (x 0 k) (x 1 k))) o.fmt ∧
      (Fires 0x26 o s ent s1 → ∃ v : W32, Gives (.fcmpE o) s s1 ent (resultOf s1 ent 0 v) ∧
        ∀ k, k < 32 → v.getLsbD k = (decide (k < laneCount fmt) && Fp.cond o.opx.toNat (x 0 k) (x 1 k))) ∧
      conv 2 (.sdivE o) 0x38 (fun k => Fp.div (x 0 k) (x 1 k)) ∧ conv 1 (.sexp2E o) 0x39 (fun k => Fp.exp2 (x 0 k)) ∧
      conv 1 (.slog2E o) 0x3A (fun k => Fp.log2 (x 0 k)) ∧ conv 1 (.ssinE o) 0x3B (fun k => Fp.sinPi (x 0 k))) ∧
    (Fires 0x46 o s ent s1 → Gives (.penalE o) s s1 ent (resultOf s1 ent 2 (BitVec.ofNat 32
      (let n := Fp.Val.fin false (word 1) 0
       let some' := Fp.Val.fin false (if 0 < word 1 then 1 else 0) 0
       let f := Fp.unpack .bf16 (o.const.toNat / 2 ^ 16)
       let q := Fp.unpack .bf16 (o.const.toNat % 2 ^ 16)
       (Fp.roundTo .f32 o.rm.toNat false
         (Fp.add o.rm.toNat (Fp.add o.rm.toNat (Fp.unpack .f32 (word 0)) (Fp.neg (Fp.mul f n))) (Fp.neg (Fp.mul q some'))) false).raw))))) ∧
  ∀ (o : ElemCfg) (s s1 : State) (ent : Entry),
    let rest := fun (i : Instr) (op : BitVec 8) => Fires op o s ent s1 → PassesBubble i s s1 ent o.fmt ∧ HoldsMisfit i s s1 ent
    rest (.faddE o) 0x20 ∧ rest (.fsubE o) 0x21 ∧ rest (.fmulE o) 0x22 ∧ rest (.fmaE o) 0x23 ∧ rest (.fminE o) 0x24 ∧
      rest (.fmaxE o) 0x25 ∧ rest (.fcmpE o) 0x26 ∧ rest (.sdivE o) 0x38 ∧ rest (.sexp2E o) 0x39 ∧ rest (.slog2E o) 0x3A ∧
      rest (.ssinE o) 0x3B ∧ rest (.penalE o) 0x46

/-- 09 R169, R170, 08 R140, R141, R143, 22 R310, 09 R155: the elements that steer tokens and tags. PASS and CONST send on both outputs, one after the other where the two name one link;
STEER on the arm its predicate names; MERGE takes the older head; ROUTE the outputs of its policy; LOOP takes a pair and then issues its
tags one by one; CALL gives the token the lowest free context, with its key born, and RET the caller's tag, freeing the context. That out0
comes before out1 at one destination, and the format that CALL and RET give their result, are the model's readings (log 33). -/
def Obligations.SteeringElementResult : Prop :=
  ∀ (o : ElemCfg) (s s1 : State) (ent : Entry),
    let e := s.curElem.toNat
    let sl := s.curSlot.toNat
    let v := mySlot s1
    let ops := operandsOf s1 ent
    let t := ops.headD blankTok
    let u := s1.consume e sl ent.key
    let both := fun (w : State) (x : Token) => if o.out0 &&& o.out1 = 0 then (w.output e sl false x).output e sl true x
      else (w.output e sl false x).owe e sl [(true, x)]
    let p := (ops[1]?).getD blankTok
    let go := fun (i : Instr) (op : BitVec 8) (w : State) => Fires op o s ent s1 → exec i s = .next w
    go (.passE o) 0x01 (both u { t with gen := v.gen }) ∧
    (v.anyBubble ops = false → go (.constE o) 0x02 (both u (resultOf s1 ent o.fmt o.const))) ∧
    (Regular s1 ent → p.bubble = false →
      let x := resultOf s1 ent o.fmt t.value
      (p.poison = false → p.value ≠ 0 → go (.steerE o) 0x03 (u.output e sl false x)) ∧
      (p.poison = false → p.value = 0 → go (.steerE o) 0x03 (u.output e sl true x)) ∧
      (p.poison = true → go (.steerE o) 0x03 (u.output e sl true { x with poison := true }))) ∧
    (∀ a b ra rb, ent.at 0 = a :: ra → ent.at 1 = b :: rb →
      (a.stamp ≤ b.stamp → a.tok.fmt = o.fmt →
        go (.mergeE o) 0x04 ((s1.consumeAt e sl ent.key 0 1).output e sl false { a.tok with gen := v.gen })) ∧
      (b.stamp < a.stamp → b.tok.fmt = o.fmt →
        go (.mergeE o) 0x04 ((s1.consumeAt e sl ent.key 1 1).output e sl false { b.tok with gen := v.gen }))) ∧
    (let w := u.setRow e sl ent.key (if t.eor then .none else .route ent.policy)
     let code := o.const.toNat / 2 ^ (2 * ent.policy) % 4
     let x : Token := { t with gen := v.gen }
     (code = 0 → go (.routeE o) 0x41 (w.output e sl false x)) ∧ (code = 1 → go (.routeE o) 0x41 (w.output e sl true x)) ∧
     (code = 2 → go (.routeE o) 0x41 (both w x)) ∧ (code = 3 → go (.routeE o) 0x41 w)) ∧
    (Regular s1 ent → (s.acceptAll e).loopIssue e sl = none →
      let seed := if v.queued 1 then p else { p with eor := false, eos := false, poison := false, bubble := false }
      go (.loopE o) 0x05 (u.setSlot e sl { u.slot e sl with loops := (u.slot e sl).loops ++ [{ count := t, seed := seed, k := 0 }] })) ∧
    (let a := s.acceptAll e
     let w := a.slot e sl
     ∀ r rest, (s.slot e sl).op = 0x05 → (s.slot e sl).cfg = o → a.nextOwed e sl = none → (a.elem e).counting = false → w.loops = r :: rest →
      let l := w.tagsOf r.count.colour r.count.context
      let x : Token := { r.seed with value := r.seed.value + BitVec.ofNat 32 r.k, colour := r.count.colour, context := r.count.context,
                                     iter := BitVec.ofNat 14 l.next, fmt := o.fmt, eor := true,
                                     eos := decide (r.k + 1 = r.count.value.toNat) && r.seed.eos,
                                     poison := r.count.poison || r.seed.poison, bubble := false, gen := w.gen }
      r.k < r.count.value.toNat → l.live.length < o.const.toNat % 128 → l.next ∉ l.live →
      (a.region w.region).live r.count.colour.toNat < (a.region w.region).quota r.count.colour.toNat →
      a.roomBorn e sl o.out0 (tagOf x) = true →
      ∃ b : State, exec (.loopE o) s = .next ((b.bear w.region (tagOf x)).output e sl false x) ∧
        b = a.setSlot e sl { w.setTags { l with next := (l.next + 1) % 16384, live := l.live ++ [l.next] } with
          loops := { r with k := r.k + 1 } :: rest }) ∧
    (∀ n, v.anyBubble ops = false → s1.freeCtx (s1.elemPart e) = some n →
      let x : Token := { resultOf s1 ent o.fmt (opWord s1 ent 0) with context := BitVec.ofNat 10 n, iter := 0 }
      Fires 0x06 o s ent s1 → ∃ b : State, exec (.callE o) s = .next ((b.bear v.region (tagOf x)).output e sl false x) ∧
        (∃ c : Ctx, Sp.find? b.ctxs (s1.elemPart e * 1024 + n) = some c ∧ c.callerCtx = t.context ∧ c.callerIter = t.iter ∧
          c.region = v.region ∧ c.colour = t.colour ∧ c.freeing = false) ∧ b.elems = u.elems ∧ b.regions = u.regions) ∧
    (∀ c, v.anyBubble ops = false → Sp.find? s1.ctxs (s1.elemPart e * 1024 + t.context.toNat) = some c → c.freeing = false →
      Fires 0x07 o s ent s1 → ∃ b : State, exec (.retE o) s = .next (b.output e sl false
          { resultOf s1 ent o.fmt (opWord s1 ent 0) with context := c.callerCtx, iter := c.callerIter }) ∧
        Sp.find? b.ctxs (s1.elemPart e * 1024 + t.context.toNat) = some { c with freeing := true, quiet := 0 } ∧ b.elems = u.elems)

/-- 09 Table 09.9, 03 R52, 22 R311 to R313, 23 R323: the elements that keep a row. ACC and CUMS add its values, TOPK keeps the best, SPADD
adds a bias where the list names the position, CVT converts lanes, and a VANE that is not enabled passes the tokens of a row and an
enabled one holds them. A first running sum that is a NaN is the default NaN. What poisons a sum of CUMS, and that a pair's mark poisons
SPADD's lane, are the model's readings (log 33). -/
def Obligations.RowElementResult : Prop :=
  ∀ (o : ElemCfg) (s s1 : State) (ent : Entry),
    let e := s.curElem.toNat
    let sl := s.curSlot.toNat
    let v := mySlot s1
    let ops := operandsOf s1 ent
    let t := ops.headD blankTok
    let u := s1.consume e sl ent.key
    let go := fun (i : Instr) (op : BitVec 8) (w : State) => Fires op o s ent s1 → exec i s = .next w
    let rnd := fun (a : Fp.Val) => BitVec.ofNat 32 (Fp.roundTo .f32 o.rm.toNat false a false).raw
    let f := fun (x : W32) => Fp.unpack .f32 x.toNat
    let one := fun (x : W32) => if 0x7F800000 < x.toNat % 2 ^ 31 then 0x7FC00000 else x
    let sum := fun (q x : W32) => if o.fmt = 2 then rnd (Fp.add o.rm.toNat (f q) (f x)) else q + x
    (v.formatBad ops = false → t.bubble = false →
      (t.eor = false → ent.row = .none → go (.accE o) 0x28 (u.setRow e sl ent.key (.acc t.value [t.value] t.eos t.poison))) ∧
      (∀ q vals eos bad, t.eor = false → ent.row = .acc q vals eos bad → vals ≠ [] → go (.accE o) 0x28
        (u.setRow e sl ent.key (.acc (sum q t.value) (vals ++ [t.value]) (eos || t.eos) (bad || t.poison)))) ∧
      (∀ q vals eos bad, t.eor = true → ent.row = .acc q vals eos bad → vals ≠ [] → o.fmt ≠ 2 → go (.accE o) 0x28
        ((u.setRow e sl ent.key .none).output e sl false { t with
          value := q + t.value, fmt := o.fmt, eor := true, eos := eos || t.eos, poison := bad || t.poison, bubble := false, gen := v.gen }))) ∧
    (v.formatBad ops = false → t.bubble = false →
      (∀ q, ent.row = .cums q false → go (.cumsE o) 0x44 ((u.setRow e sl ent.key
          (if t.eor then .none else .cums (rnd (Fp.add o.rm.toNat (f q) (f t.value))) (resultOf s1 ent 2 0).poison)).output e sl false
        (resultOf s1 ent 2 (rnd (Fp.add o.rm.toNat (f q) (f t.value)))))) ∧
      (ent.row = .none → go (.cumsE o) 0x44
        ((u.setRow e sl ent.key (if t.eor then .none else .cums (one t.value) (resultOf s1 ent 2 0).poison)).output e sl false
          (resultOf s1 ent 2 (one t.value))))) ∧
    (v.formatBad ops = false → t.bubble = false → t.eor = false → ∀ best n eos bad, ent.row = .topk best n eos bad →
      Fires 0x43 o s ent s1 → ∃ best', exec (.topkE o) s =
          .next (u.setRow e sl ent.key (.topk (best'.take (o.const.toNat % 64)) (n + 1) (eos || t.eos) (bad || t.poison))) ∧
        ∃ a b, best = a ++ b ∧ best' = a ++ (t.value, n) :: b ∧ (∀ x ∈ a, topkKey t.value ≤ topkKey x.1) ∧
          (∀ x, b.head? = some x → topkKey x.1 < topkKey t.value)) ∧
    (∀ a ra i b rest, ent.row = .spadd 0 none false false → ent.at 0 = a :: ra → ent.at 1 = i :: b :: rest → a.tok.bubble = false →
      a.tok.fmt = o.fmt → a.tok.eor = false → b.tok.eor = false →
      (i.tok.value ≠ 0 → go (.spaddE o) 0x42 (((s1.consumeAt e sl ent.key 0 1).setRow e sl ent.key (.spadd 1 none false false)).output
        e sl false { a.tok with gen := v.gen })) ∧
      (i.tok.value = 0 → go (.spaddE o) 0x42 ((((s1.consumeAt e sl ent.key 1 2).consumeAt e sl ent.key 0 1).setRow e sl ent.key
        (.spadd 1 (some 0) false false)).output e sl false
          { a.tok with value := rnd (Fp.add o.rm.toNat (f a.tok.value) (f b.tok.value)),
                       poison := a.tok.poison || i.tok.poison || b.tok.poison, gen := v.gen }))) ∧
    (let fmt := o.fmt.toNat
     let src := o.opx.toNat
     let y : Token := { t with
       value := lanewise fmt fun i => (Fp.convert (laneTy src) (laneTy fmt) o.rm.toNat o.sat (laneOf src i t.value.toNat)).1,
       fmt := o.fmt, gen := v.gen }
     v.formatBad ops = false → t.bubble = false → laneCount src = laneCount fmt →
      (t.poison = true → go (.cvtE o) 0x27 ((u.owe e sl [(false, y)]).leaveFirst e sl)) ∧
      (t.poison = false → o.fin = false → Fires 0x27 o s ent s1 → ∃ kinds : List (Option Nat), kinds.length = laneCount fmt ∧
        exec (.cvtE o) s = .next
          (((u.setSlot e sl ((u.slot e sl).countLanes t.colour kinds)).owe e sl [(false, y)]).leaveFirst e sl))) ∧
    (v.formatBad [t] = false → ent.row = .none → (s.acceptAll e).vaneTurn e sl = none →
      (Sp.get 0 (s1.core (elemCore e)).vane.cfg (o.opx.toNat % 4)).getLsbD 63 = false →
      go (.vaneE o) 0x48 ((u.output e sl false { t with gen := v.gen }).setRow e sl ent.key (if t.eor then .none else .vanePass))) ∧
    (v.formatBad [t] = false → ent.row = .none → (s.acceptAll e).vaneTurn e sl = none → t.eor = false →
      (Sp.get 0 (s1.core (elemCore e)).vane.cfg (o.opx.toNat % 4)).getLsbD 63 = true →
      go (.vaneE o) 0x48 (u.setRow e sl ent.key (.vane [t] ((s1.core (elemCore e)).vane.view (o.opx.toNat % 4)) none [])))

/-- 09 R177, 07 R122, 22 R316, 03 R47: an M-element's firing that is not poisoned sends its request out; the request is performed at its
home at one instant: a load reads its word, a store writes it, MRMW updates it, and the results leave. A request of this package beyond
its time is lost with a hold. A count token that is due leaves by out1. That results of one tag leave in firing order, and the second
output behind the first at a shared destination, are the model's readings (log 33). -/
def Obligations.MemoryElementResult : Prop :=
  (∀ (o : ElemCfg) (s s1 : State) (ent : Entry) (tr : Tr), Regular s1 ent →
    let e := s.curElem.toNat
    let sl := s.curSlot.toNat
    let v := mySlot s1
    let ops := operandsOf s1 ent
    let A := opWord s1 ent 0
    let B := opWord s1 ent 1
    let c := ent.key.colour.toNat
    let va := o.const.toNat * 2 ^ 25 + A.toNat
    let requests := fun (i : Instr) (op : BitVec 8) (kind : MKind) (scope : Nat) (at' : W64) => Fires op o s ent s1 →
      ∃ t r, exec i s = .next t ∧ (t.elem e).reqs = (s1.elem e).reqs ++ [r] ∧ r.kind = kind ∧ r.scope = scope ∧ r.toks = ops ∧
        r.home = tr.home ∧ r.va = at' ∧ r.slot = sl ∧ r.res = none ∧ r.dead = false ∧ ∀ key a, t.readHome key a = s1.readHome key a
    let goes := fun (i : Instr) (op : BitVec 8) (kind : MKind) (scope : Nat) => requests i op kind scope (BitVec.ofNat 64 va)
    space tr.home = .floor → ops.any (·.poison) = false →
    (s1.mAccess e c va 4 true false = .ok tr → goes (.mloadE o) 0x30 .load 0) ∧
    (s1.mAccess e c va 4 false true = .ok tr → goes (.mstoreE o) 0x31 (.store B) (o.opx.toNat % 8)) ∧
    (s1.mAccess e c va 4 true true = .ok tr → goes (.mrmwE o) 0x32 (.rmw (o.opx.toNat / 16) B) (o.opx.toNat % 8)) ∧
    (∀ k, ent.row = .none ∨ ent.row = .adpt k → let m := if ent.row = .none then 0 else k
      let n := laneCount o.fmt.toNat
      let at' := o.const.toNat * 2 ^ 25 + (if o.opx.getLsbD 0 then ent.key.context.toNat * 2 ^ 20 else 0) + 8 * (m * n)
      (ops.headD blankTok).bubble = false → m * n < 131072 → s1.mAccess e c at' (8 * n) true false = .ok tr →
      requests (.adptE o) 0x47 (.adpt m) 0 (BitVec.ofNat 64 at')) ∧
    (∀ code lvl x, s1.mAccess e c va 4 true false = .error (.fault code lvl x) → Fires 0x30 o s ent s1 →
      ∃ t, exec (.mloadE o) s = .next t ∧ (t.slot e sl).holds = v.holds ++ [tagOf (ops.headD blankTok)] ∧ t.exitq = s1.exitq)) ∧
  ∀ (e : ElemNum) (s : State),
    (∀ (r : MReq) (k : Nat),
      let v := s.slot e.toNat r.slot
      let base := v.result r.toks v.cfg.fmt.toNat 0
      let w := BitVec.ofNat 32 (s.readVal r.key r.home 4)
      let left := { s.elem e.toNat with reqs := (s.elem e.toNat).reqs.eraseIdx k }
      let runs := fun (f : State → Prop) => ∃ t, exec (.mElementReply e k) s = .next t ∧ f t
      (s.elem e.toNat).reqs[k]? = some r → r.dead = false → r.lost = false → v.op ≠ 0 → v.region = r.region →
      (∀ q ∈ (s.elem e.toNat).reqs.take k, (q.res.isSome ∨ q.home + q.span ≤ r.home ∨ r.home + r.span ≤ q.home) ∧
        (q.dead = true ∨ q.lost = true ∨ tagOf (q.toks.headD blankTok) ≠ tagOf (r.toks.headD blankTok))) →
      (let w0 := s.setElem e.toNat left
       let sent := fun (l : List (Bool × Token)) => exec (.mElementReply e k) s = .next ((l.foldl (fun u p => u.output e.toNat r.slot p.1 p.2) w0).sinkOf
         e.toNat r.slot r.toks)
       ∀ l, r.res = some l → (∀ p ∈ l, w0.room e.toNat r.slot (if p.1 then v.cfg.out1 else v.cfg.out0) (tagOf p.2) = true) →
        (v.cfg.out0 &&& v.cfg.out1 = 0 ∨ l.length ≤ 1 → sent l) ∧
        (∀ a b, l = [a, b] → v.cfg.out0 &&& v.cfg.out1 ≠ 0 → exec (.mElementReply e k) s =
          .next (((w0.output e.toNat r.slot a.1 a.2).owe e.toNat r.slot [b]).sinkOf e.toNat r.slot r.toks))) ∧
      (r.res = none → (∀ i, i < 4 → space (r.home + i) = .floor) → s.anyPoison r.home 4 = false →
      (r.kind = .load → v.cfg.out0 ≠ 0 → v.cfg.out1 = 0 →
        let r' := { r with res := some [(false, { base with value := w })] }
        exec (.mElementReply e k) s = .next ((s.setElem e.toNat { s.elem e.toNat with reqs := (s.elem e.toNat).reqs.set k r' }).reqEmit
          e.toNat k r' [(false, { base with value := w })])) ∧
      (∀ d, r.kind = .store d → v.cfg.out0 = 0 → v.cfg.out1 = 0 → runs fun t => (t.elem e.toNat).reqs = (s.elem e.toNat).reqs.eraseIdx k ∧
        ∀ a, space a ≠ .gddr → t.readHome 0 a =
          if r.home ≤ a ∧ a < r.home + 4 then d.extractLsb' (8 * (a - r.home)) 8 else s.readHome 0 a) ∧
      (∀ f d, r.kind = .rmw f d → v.cfg.out0 = 0 → v.cfg.out1 = 0 → f = 0 ∨ f = 3 → v.cfg.fmt.toNat ≤ 1 →
        runs fun t => (t.elem e.toNat).reqs = (s.elem e.toNat).reqs.eraseIdx k ∧
          t.readVal 0 r.home 4 = (if f = 0 then w + d else d).toNat))) ∧
    (∀ (r : MReq) (k : Nat), (s.elem e.toNat).reqs[k]? = some r → r.timed = true → r.res = none → r.dead = false → r.lost = false →
      2 ^ (if (s.region r.region).rexp = 0 then 20 else (s.region r.region).rexp) ≤ s.cycle - r.time →
      ∃ t, exec (.remoteTimeout e k) s = .next t ∧ (t.elem e.toNat).reqs = (s.elem e.toNat).reqs.set k { r with lost := true } ∧
        (t.slot e.toNat r.slot).holds = (s.slot e.toNat r.slot).holds ++ [tagOf (r.toks.headD blankTok)]) ∧
    (∀ (sl i : Nat) (p : Pend), sl < 4 → (∀ j, j < sl → s.nextOwed e.toNat j = none) → s.nextOwed e.toNat sl = some i →
      (s.slot e.toNat sl).pend[i]? = some p → p.count = true → p.birth = false → p.out1 = true →
      exec (.countTokens e) s = .next ((s.setSlot e.toNat sl { s.slot e.toNat sl with pend := (s.slot e.toNat sl).pend.eraseIdx i }).output
        e.toNat sl true p.tok))

/-- 22 R304 to R309: COMMIT holds the token of an open sequence at its position; the token whose position has come retires: it leaves,
and the descriptor's position advances. A complete step of one node begins with its root as the path; the next node of a path retires
with its emission where out0 has room, and the position advances; once no token of the step is left, the step advances and the mask
of retired nodes is written. That the halt word is compared as it reads at each emission is the model's reading (log 33). -/
def Obligations.CommitRetires : Prop :=
  ∀ (s : State) (e : ElemNum) (sl : BitVec 2) (q : SeqDesc) (c : BitVec 8) (x : BitVec 10),
    let v := s.slot e.toNat sl.toNat
    let half := fun (t : State) (off : Nat) => t.readVal q.tr.key (q.tr.home + off) 4
    v.op = 0x40 → q.poison = false → q.reserved = false → q.isOpen = true → (∀ i, i < 128 → space (q.tr.home + i) = .floor) →
    (∀ (o : ElemCfg) (ent : Entry) (j : Nat) (t : Token),
      s.curElem = e → s.curSlot = sl → v.cfg = o → (s.elem e.toNat).queues = [[], [], [], []] → s.nextOwed e.toNat sl.toNat = none →
      (s.elem e.toNat).counting = false →
      s.nextArrival e.toNat sl.toNat = some (ent, j, t) → s.readDesc e.toNat o.const.toNat t.colour.toNat t.context.toNat true = .ok q →
      q.tree = false →
      exec (.commitE o) s = .next ((s.setRow e.toNat sl.toNat ent.key (.commit (ent.positions ++ [plainPos q.pos t.iter.toNat]))).moved
        v.region t.colour.toNat)) ∧
    (s.readDesc e.toNat v.cfg.const.toNat c.toNat x.toNat true = .ok q →
      (∀ k j t, q.tree = false → s.retirable e.toNat sl.toNat c x q.pos = some (k, j, t) → q.pos < q.halt → q.ctab = 0 → t.eos = false →
        s.room e.toNat sl.toNat v.cfg.out0 k = true →
        ∃ u, exec (.retire e sl c x) s = .next u ∧ half u 4 = (q.pos + 1) % 2 ^ 32 ∧
          (∀ a, space a ≠ .gddr → a < q.tr.home + 4 ∨ q.tr.home + 8 ≤ a → u.readHome 0 a = s.readHome 0 a) ∧
          u.exitq = ((s.dropCommit e.toNat sl.toNat k j).output e.toNat sl.toNat false { t with gen := v.gen }).exitq ∧
          u.elems = ((s.dropCommit e.toNat sl.toNat k j).output e.toNat sl.toNat false { t with gen := v.gen }).elems) ∧
      (∀ k j t, q.tree = false → s.retirable e.toNat sl.toNat c x q.pos = some (k, j, t) → q.halt ≤ q.pos →
        ∃ u, exec (.retire e sl c x) s = .next u ∧ half u 8 = min (2 ^ 32 - 1) (q.refused + 1) ∧ half u 4 = half s 4 ∧ u.exitq = s.exitq) ∧
      (∀ t, q.tree = true → q.nm1 = 0 → v.treeRun c x = none → s.nodeTok e.toNat sl.toNat c x q.step 0 = some t → t.fmt = 1 →
        exec (.treeStep e sl c x) s = .next (s.setRow e.toNat sl.toNat (nodeKey c x q.step 0)
          (.tree { nodes := 1, step := q.step, todo := [0], done := [], eos := false, refused := 0 }))) ∧
      (∀ k r n rest t, v.treeRun c x = some (k, r) → r.todo = n :: rest → s.nodeTok e.toNat sl.toNat c x r.step n = some t →
        q.pos < q.halt → q.ctab = 0 → s.room e.toNat sl.toNat v.cfg.out0 (tagOf t) = true →
        ∃ u, exec (.treeStep e sl c x) s = .next u ∧ half u 4 = (q.pos + 1) % 2 ^ 32 ∧
          u.exitq = ((s.dropCommit e.toNat sl.toNat (nodeKey c x r.step n) 0).output e.toNat sl.toNat false
            { t with value := t.value &&& 0x7FFFFFFF, eor := t.eor || rest.isEmpty || decide (q.halt ≤ (q.pos + 1) % 2 ^ 32),
                     gen := v.gen }).exitq) ∧
      (∀ k r, v.treeRun c x = some (k, r) → r.todo = [] → (∀ n, n < r.nodes → s.nodeTok e.toNat sl.toNat c x r.step n = none) →
        r.step < 256 → r.eos = false → r.done = [0] →
        ∃ u, exec (.treeStep e sl c x) s = .next u ∧ u.readVal q.tr.key (q.tr.home + 24) 8 = 1 ∧
          half u 12 / 2 ^ 10 % 256 = (r.step + 1) % 256 ∧ half u 12 / 2 ^ 31 = 1))

/-! ## Events of a core and of the module (04, 07, 15, 17, 19, 24, 27, 28) -/

/-- 04 R63, 07 R127, 15 R238, 17 R252, 19 R282, 24 R333: a core with an interrupt to take cancels its wait, and a bank gives a deferred
request up; the interrupt is the lowest pending and unmasked one; a dirty line that has set out reaches its home; a remote load without a
reply faults; dispatch runs an entry body, or a pair whose rule and claims it has found. -/
def Obligations.CoreEvents : Prop :=
  ∀ (n : CoreNum) (s : State),
    let c := s.core n.toNat
    let b := c.blk
    let asks := (c.lvlS = false ∨ c.regs.tstat.getLsbD 0 = true) ∧ ∃ i, i < 4 ∧ c.tpend.getLsbD i = true ∧ c.regs.tmask.getLsbD i = true
    (asks → b.cancel = false → b.ans = .none → (∃ d h ty f w acq, b.wait = .waita d h ty f w acq) →
      exec (.waitCancel n) s = .next (s.setCore n.toNat { c with blk := { b with cancel := true, ans := .cancelled } })) ∧
    (∀ k d h va ty acq, asks → b.cancel = false → b.ans = .none → b.wait = .pres k d h va ty acq →
      exec (.waitCancel n) s = .next (s.setCore n.toNat { c with blk := { b with cancel := true } })) ∧
    (¬asks → exec (.waitCancel n) s = .next s) ∧
    (∀ k d h va ty acq, b.wait = .pres k d h va ty acq → b.cancel = true → (∃ r ∈ (s.bank (bankOf h)).deferred, r.who = .core n.toNat) →
      ∃ t, exec (.presenceCancel n) s = .next t ∧ (t.core n.toNat).blk.ans = .cancelled ∧
        (∀ r, r ∈ (t.bank (bankOf h)).deferred ↔ r ∈ (s.bank (bankOf h)).deferred ∧ r.who ≠ .core n.toNat) ∧ t.mem = s.mem) ∧
    (∀ i, i < 4 → (c.lvlS = false ∨ c.regs.tstat.getLsbD 0 = true) → c.tpend.getLsbD i = true → c.regs.tmask.getLsbD i = true →
      (∀ j, j < i → c.tpend.getLsbD j = false ∨ c.regs.tmask.getLsbD j = false) → b.isOpen = false → c.inTrap = false →
      c.pendTrap = none → c.run = .running → c.poisonTrap = [] → s.outstanding n.toNat = false → b.held = [] →
      ∃ t, exec (.interruptTaken n) s = .next t ∧ (t.core n.toNat).regs.tcause = BitVec.ofNat 64 (2 ^ 15 + 0x80 + i) ∧
        (t.core n.toNat).regs.tval = c.tpend.setWidth 64 ∧ (t.core n.toNat).regs.tblock = c.pc ∧
        (t.core n.toNat).regs.tstat.getLsbD 0 = false ∧ (t.core n.toNat).regs.tstat.getLsbD 1 = c.regs.tstat.getLsbD 0 ∧
        (t.core n.toNat).regs.tstat.getLsbD 2 = c.lvlS ∧ (t.core n.toNat).lvlS = true) ∧
    (∀ (line : BitVec 45) l, Sp.find? c.l1 line.toNat = some l →
      (l.dirty ≠ 0 → ∃ t, exec (.l1WriteBack n line) s = .next t ∧ Sp.find? (t.core n.toNat).l1 line.toNat = some { l with sent := true } ∧
        ∀ key a, t.readHome key a = s.readHome key a) ∧
      (l.sent = true → space (line.toNat * 128) = .floor → ∃ t, exec (.lineWrite n line) s = .next t ∧
        (∀ i, i < 128 → t.readHome 0 (line.toNat * 128 + i) =
          if l.dirty.getLsbD i then lineByte l.data i else s.readHome 0 (line.toNat * 128 + i)) ∧
        (∀ a, space a ≠ .gddr → a / 128 ≠ line.toNat → t.readHome 0 a = s.readHome 0 a) ∧
        ∀ m, Sp.find? (t.core n.toNat).l1 line.toNat = some m → m.dirty = 0)) ∧
    (∀ h k va r, c.rreq = some (h, k, va) → s.overdue (.core n.toNat) = some r → c.inTrap = false →
      exec (.remoteLoadTimeout n) s = .next (s.faultAt n.toNat 0x18 0 va)) ∧
    (let ready := c.run = .dispatch ∧ c.between = true ∧ c.bagctl.getLsbD 63 = true ∧ c.irq = none ∧ c.poisonTrap = [] ∧
       s.awaits n.toNat 1 = false ∧ s.awaits n.toNat 2 = false ∧ s.settled n.toNat false = true ∧ s.unacked (.core n.toNat) = false ∧
       c.rreq = none ∧ c.walkWait = false
     ∀ p s1, ready → s.popHead n.toNat = some (p, s1) → p.mark = none →
      let s2 := s1.l1DropAll n.toNat
      let k : NetCtx := { n := n.toNat, c := p.colour.toNat, lvlS := false }
      let begins := fun (t : State) (blk x1 x2 : Nat) => (t.core n.toNat).run = .running ∧ (t.core n.toNat).lvlS = false ∧
        (t.core n.toNat).pc = BitVec.ofNat 64 blk ∧ (t.core n.toNat).inDisp = true ∧ (t.core n.toNat).regs.colour = p.colour ∧
        (t.core n.toNat).regs.getX 1 = BitVec.ofNat 64 x1 ∧ (t.core n.toNat).regs.getX 2 = BitVec.ofNat 64 x2
      (∀ tr blk, p.launch = true → s2.nodeTr k (p.a.toNat + 56) .r = .ok tr → s2.anyPoison tr.home 8 = false →
        blk = s2.readVal tr.key tr.home 8 → s2.ruleBody n.toNat p.colour.toNat blk = .ok true →
        ∃ t, exec (.dispatch n) s = .next t ∧ begins t blk p.a.toNat 0) ∧
      (∀ blk n1 n2 ports s3, p.launch = false → (dispatchPair k p.a.toNat p.b.toNat).runOn s2 = (.ok (.run blk n1 n2 ports), s3) →
        ∃ t, exec (.dispatch n) s = .next t ∧ begins t blk n1 n2 ∧ ∃ q, (t.core n.toNat).claim = some q ∧ q.ports = ports) ∧
      (∀ s3, p.launch = false → (dispatchPair k p.a.toNat p.b.toNat).runOn s2 = (.ok .stale, s3) →
        exec (.dispatch n) s = .next ((s3.bagCount n.toNat 0).farDone n.toNat)))

/-- 27 R376, R377, R379, 28 R383 to R385: a sector the patrol cannot correct is marked and counted; THROTTLE and THROTTLE_RESTORE step the
clock after their times; THERMAL_TRIP removes every rail; COLD_RESET gives the reset state, with marked channels untrained; a package
without power lets any other event pass. That a core comes up at level S (log 3), and that one event does steps 1 to 4 of a cold reset
(log 30), are the model's choices. -/
def Obligations.ModuleEvents : Prop :=
  ∀ (s : State),
    (∀ (sector : BitVec 47), space (sector.toNat * 32) = .gddr → s.chanPresent (chanOf (sector.toNat * 32)) = true →
      Sp.find? s.l2 (sector.toNat * 32 / 128) = none →
      (∃ t, exec (.patrol sector true) s = .next t ∧ t.poisoned (sector.toNat * 32) = true ∧
        (t.chan (chanOf (sector.toNat * 32))).ue = min (2 ^ 16 - 1) ((s.chan (chanOf (sector.toNat * 32))).ue + 1) ∧
        ∀ key a, t.readHome key a = s.readHome key a) ∧
      exec (.patrol sector false) s = .next s) ∧
    (s.clock = 0 → ∃ t, exec .throttle s = .next t ∧ t.clock = 1 ∧ t.clockAt = s.now) ∧
    (s.clock = 1 → ∃ t, exec .throttle s = .next t ∧ t.excess = some (s.excess.getD s.now) ∧
      t.clock = if 10000000 ≤ (s.now - s.excess.getD s.now).toNat then 2 else 1) ∧
    (∃ t, exec .throttleRestore s = .next t ∧ t.clock =
      if s.clock ≠ 0 ∧ s.excess = none ∧ 100000000 ≤ (s.now - s.clockEx).toNat ∧ 100000000 ≤ (s.now - s.clockAt).toNat then s.clock - 1 else s.clock) ∧
    (∃ t, exec .thermalTrip s = .next t ∧ t.powered = false ∧ t.retired = s.retired ∧ t.disable = s.disable) ∧
    (∃ t, exec .coldReset s = .next t ∧ t.powered = true ∧ t.untrained = s.disable ∧ t.retired = s.retired ∧ t.mem = [] ∧
      t.parts = [] ∧ t.colours = [] ∧ t.booting = true ∧ ∀ n, (t.core n).run = .reset ∧ (t.core n).lvlS = true) ∧
    (s.powered = false → s.agenda = [] → step s = .fault .noPower) ∧
    (∀ i rest, s.powered = false → s.agenda = .event i :: rest → i ≠ .coldReset → step s = .next { s with agenda := rest })

/-! ## Launches and registers (11, 07, 15, 19, 24, 25) -/

/-- 11 R192 to R206: the events of the scheduler and of device time. A record that its function may send enters its port's queue, or
is counted as refused; a head starts a launch and a data record without one is an orphan; admission takes a waiting launch; the loader
uses a resident image; a launch arms its section, pushes its pair and completes with a record in the ring. A Sync of the domain measures its offset
once the path delay is known, and a delay request is timestamped; the first correction steps the clock forward, and a later one slews it by
at most 1,000 parts per million. A slot whose time has come starts its launch, or is skipped while the clock is not locked. The paths that
records take to and from the host (log 51), a root's launch complete once its pair has a place (log 50), and the offset's formula, PTP's own
(log 65), are the model's. -/
def Obligations.LaunchEvents : Prop :=
  (∀ (p : PartNum) (s : State),
    let q := s.sched p.toNat
    let after := fun (t : State) => t.sched p.toNat
    (∀ (port : BitVec 3) (vf : BitVec 6) (w : W64),
      let g := q.ing port.toNat
      let c := s.colour (w.toNat / 2 ^ 24 % 256)
      let fits := g.en = true ∧ s.ingVf p.toNat port.toNat = some vf.toNat ∧ (s.vf vf.toNat).st = .run ∧ c.valid = true ∧
        c.part = p ∧ c.vf = vf ∧ recOk w = true ∧ g.queue.length < 256 ∧
        (g.queue.filter fun r => recColour r.w == recColour w).length < 64
      let path := s.hostPath p.toNat true
      (path = false → exec (.ingressRecord p port vf w) s = .next s) ∧
      (path = true → fits → ∃ t, exec (.ingressRecord p port vf w) s = .next t ∧
        ((after t).ing port.toNat).queue = g.queue ++ [{ w := w, core := g.core, eport := g.eport }]) ∧
      (path = true → ¬fits → ∃ t, exec (.ingressRecord p port vf w) s = .next t ∧ (after t).refused = min (2 ^ 16 - 1) (q.refused + 1) ∧
        (after t).ings = q.ings)) ∧
    (∀ (port : BitVec 3) (c : BitVec 8) r, (q.ing port.toNat).first c = some r → q.openOn port.toNat c = none →
      (r.w.getLsbD 6 = true → exec (.headRecordServed p port c) s = .next ((s.setSched p.toNat
        (q.setIng port.toNat ((q.ing port.toNat).pop c))).trigger p.toNat (r.w.toNat / 2 ^ 32 % 256) c 0 (some port.toNat))) ∧
      (r.w.getLsbD 6 = false → ∃ t, exec (.orphan p port c) s = .next t ∧ (after t).orphan = min (2 ^ 16 - 1) (q.orphan + 1) ∧
        ((after t).ing port.toNat).queue = (q.ing port.toNat).queue.eraseP fun k => recColour k.w == c)) ∧
    (∀ l, q.next = some l → q.en = true → q.runners.length ≤ q.maxrun.toNat → ∃ t, exec (.admission p) s = .next t ∧
      (after t).launches = (q.launches.filter fun k => k.id != l.id) ++ [{ l with running := true }]) ∧
    (q.en = false → exec (.admission p) s = .next s) ∧
    (∀ l h img tgt, q.runners.find? (fun l => l.img < l.nimg) = some l → l.waits = none →
      (l.entryAt = some (img, tgt) ∨ l.entryAt = none ∧ readWords (s.launchRead l true 0x09) (l.ilist + 16 * l.img) 2 = .ok [img, tgt]) → img.toNat % 32 = 0 →
      s.targetOk l.core tgt = true → s.residentFrom p.toNat img tgt.toNat = some h →
      ∃ t, exec (.loaderImage p) s = .next t ∧ (after t).launches =
          q.launches.map (fun k => if k.id == l.id then { l with img := l.img + 1, uses := l.uses ++ [h], entryAt := none, waits := none, far := [] } else k) ∧
        (t.region h).used = s.serial ∧ ∀ key a, t.readHome key a = s.readHome key a) ∧
    (∀ id l e w, s.launch? p.toNat id = some l → l.ready = true → l.kind ≠ 2 → l.sectAt ≠ 0 → l.sectAt % 32 = 0 → l.entry? = none →
      l.sect = none → (s.core l.core).freeEntry = some e → (s.core l.core).armsDue < (s.core l.core).freeEntries →
      readWords (s.armRead l) l.sectAt 4 = .ok w →
      s.armCheck l.core { Section.reset with desc := launchDesc w l.colour } (fun _ => false)
        (fun i => ((s.core l.core).stream i).st == .bound) false l.colour.toNat = .ok () →
      ∃ t, exec (.launchArm p id) s = .next t ∧ ((t.core l.core).sect e).used = true ∧
        ((t.core l.core).sect e).desc = launchDesc w l.colour ∧ ((t.core l.core).sect e).launch = some (p.toNat, id)) ∧
    (∀ id l x s1, s.launch? p.toNat id = some l → l.ready = true → l.kind = 2 → l.sectAt % 64 = 0 → s.bagRoom l.core ≠ 0 →
      (rootPeer { n := l.core, c := l.colour.toNat, lvlS := false } l.sectAt).runOn s = (.ok (some x), s1) →
      exec (.launchPairPush p id) s = .next ((s1.pushTail l.core
        { a := BitVec.ofNat 64 l.sectAt, b := BitVec.ofNat 64 x, colour := l.colour, launch := false }).launchDone p.toNat l 0)) ∧
    (∀ id l st, s.launch? p.toNat id = some l → l.outcome = some st →
      let size := 2 ^ (q.lcbase.toNat / 2 ^ 52 % 16 + 4)
      let base := q.lcbase.toNat / 16 % 2 ^ 48 * 16
      let a := base + q.lcprod % size * 16
      (base = 0 → ∃ t, exec (.launchCompletion p id) s = .next t ∧ (after t).lost = min (2 ^ 16 - 1) (q.lost + 1) ∧
        (after t).launches = q.launches.filter (fun k => k.id != l.id)) ∧
      (base ≠ 0 → s.ringOk p.toNat a = true → (q.lcprod + 2 ^ 32 - q.lccons.toNat) % 2 ^ 32 ≠ size → (∀ i, i < 16 → space (a + i) = .floor) →
        ∃ t, exec (.launchCompletion p id) s = .next t ∧ (after t).lcprod = (q.lcprod + 1) % 2 ^ 32 ∧
          t.readVal 0 a 8 = (l.index * 2 ^ 56 + l.colour.toNat * 2 ^ 48 + l.trigger * 2 ^ 40 + st * 2 ^ 32 + l.seq) % 2 ^ 64 ∧
          t.readVal 0 (a + 8) 8 = s.now.toNat ∧ (after t).launches = q.launches.filter (fun k => k.id != l.id))) ∧
    (∀ (port : BitVec 3), (q.ing port.toNat).xen = false → exec (.hostEgressDelivery p port) s = .next s) ∧
    (∀ (port : BitVec 3) sl c i t,
      let g := q.ing port.toNat
      g.xen = true → s.partOf g.core.toNat = some p.toNat → s.hostPath (s.partid g.core.toNat) false = true → s.exitReady g.core.toNat g.xport.toNat = some (sl, c) →
      s.exitPick g.core.toNat g.xport.toNat sl c = some (i, t) →
      ∃ u, exec (.hostEgressDelivery p port) s = .next u ∧ u.egress = s.egress ++ [((s.colour c).vf, t)])) ∧
  ∀ (s : State),
    (∀ (port : BitVec 4) (dom : BitVec 8) (m : PtpMsg),
      (s.portUp port.toNat = true → s.ptp.port = port → s.ptp.domain = dom → ∀ t d, m = .sync t → s.ptp.delay = some d →
        ∃ u, exec (.ptpEventMessage port dom m) s = .next u ∧ u.ptp.measured = true ∧
        u.ptp.offset = (t.toNat : Int) + d - s.now.toNat ∧
        u.ptp.locked = (!s.ptp.first && decide (((t.toNat : Int) + d - s.now.toNat).natAbs ≤ 100)) ∧ u.now = s.now) ∧
      (s.portUp port.toNat = true → s.ptp.port = port → s.ptp.domain = dom → m = .delayReq →
        ∃ u, exec (.ptpEventMessage port dom m) s = .next u ∧ u.ptp = { s.ptp with t3 := some s.now } ∧ u.now = s.now) ∧
      (s.portUp port.toNat = false ∨ s.ptp.port ≠ port ∨ s.ptp.domain ≠ dom → exec (.ptpEventMessage port dom m) s = .next s)) ∧
    (s.ptp.measured = true → s.ptp.first = true → 0 ≤ s.ptp.offset → ∃ u, exec .servoCorrection s = .next u ∧
      u.now = BitVec.ofNat 64 (s.now.toNat + s.ptp.offset.toNat) ∧ u.ptp.locked = decide (s.ptp.offset.natAbs ≤ 100) ∧
      u.ptp.first = false) ∧
    (s.ptp.measured = true → s.ptp.first = false → ∃ u, exec .servoCorrection s = .next u ∧ u.now = s.now ∧ u.ptp.rate.natAbs ≤ 1000 ∧
      u.ptp.locked = decide (s.ptp.offset.natAbs ≤ 100)) ∧
    ∀ (p n : BitVec 4) (at' : W64),
      let q := s.sched p.toNat
      let t := q.entry n.toNat
      t.slot = some at' → at'.toNat ≤ s.now.toNat → q.before n.toNat at' = false → t.next0 = t.d0 → t.next1 = t.d1 →
      q.ten = true → t.d0.getLsbD 63 = true →
      (s.ptp.locked = false → ∃ u, exec (.timedSlotStart p n) s = .next u ∧
        ((u.sched p.toNat).entry n.toNat).skipped = min (2 ^ 32 - 1) (t.skipped + 1) ∧ (u.sched p.toNat).launches = q.launches) ∧
      (s.ptp.locked = true → t.last = none → ∃ u, exec (.timedSlotStart p n) s = .next u ∧
        ((u.sched p.toNat).entry n.toNat).started = min (2 ^ 32 - 1) (t.started + 1) ∧ (u.sched p.toNat).nextId = q.nextId + 1)

/-- 07 R129, 11 R207, 15 R237, R246, 19 R287, 24 R341, R342, 25 R346: the registers with a behaviour of their own take a write whose
fields are in range and ignore any other; the rest of a register page keeps its fields. A slot's half written while no slot runs applies
at once (log 52), and NETCTL is ignored whole with a lull below 16 (log 53): the model's readings. -/
def Obligations.RegisterWrites : Prop :=
  ∀ (s : State) (v : W64),
    (∀ (p : PartNum),
      let q := s.sched p.toNat
      let sched := fun (i : Instr) (r : Sched) => exec i s = .next (s.setSched p.toNat r)
      sched (.lschedWrite p v) { q with en := v.getLsbD 8, maxrun := v.extractLsb' 0 4 } ∧
      (v.toNat / 2 ^ 52 % 16 ≤ 11 → sched (.lcbaseWrite p v) { q with lcbase := v &&& 0x00FFFFFFFFFFFFF0 }) ∧
      (11 < v.toNat / 2 ^ 52 % 16 → exec (.lcbaseWrite p v) s = .next s) ∧
      exec (.lrootWrite p v) s = .next (s.trigger p.toNat (v.toNat % 256) (v.extractLsb' 8 8) 2 none) ∧
      (∀ n, v.getLsbD 0 = false → ∃ t, exec (.ttctlWrite p v) s = .next t ∧ (t.sched p.toNat).ten = false ∧
        (Sp.find? q.timed n ≠ none → ((t.sched p.toNat).entry n).slot = none)) ∧
      (∀ (n : BitVec 4), (v.toNat % 2 ^ 40 < 1000 → exec (.ttWrite p n false v) s = .next s) ∧
        (1000 ≤ v.toNat % 2 ^ 40 → q.ten = false → (q.entry n.toNat).slot = none → ∃ t, exec (.ttWrite p n false v) s = .next t ∧
          ((t.sched p.toNat).entry n.toNat).d0 = v &&& 0xFFFFC0FFFFFFFFFF ∧ ((t.sched p.toNat).entry n.toNat).slot = none)) ∧
      (∀ (n : BitVec 3), (q.ing n.toNat).en = false → sched (.ingWrite p n v) (q.setIng n.toNat { q.ing n.toNat with
        en := v.getLsbD 63, core := v.extractLsb' 16 10, eport := v.extractLsb' 12 4, xport := v.extractLsb' 8 4, xen := v.getLsbD 7 })) ∧
      (v.toNat / 2 ^ 52 % 16 ≤ 11 → ∃ t, exec (.flbaseWrite p v) s = .next t ∧ (t.flogOf p.toNat).base = v &&& 0x00FFFFFFFFFFFFC0 ∧
        t.mem = s.mem) ∧
      (16 ≤ v.toNat / 2 ^ 16 % 2 ^ 16 → v.getLsbD 32 = false → exec (.netctlWrite p v) s =
        .next (s.setNet p.toNat { s.netOf p.toNat with lull := v.toNat / 2 ^ 16 % 2 ^ 16 })) ∧
      (v.toNat / 2 ^ 16 % 2 ^ 16 < 16 → exec (.netctlWrite p v) s = .next s) ∧
      (∀ (k : BitVec 6), (s.chanEnd (p.toNat * 64 + k.toNat)).st = .closed → v.getLsbD 63 = true →
        s.corePresent (v.extractLsb' 46 10).toNat = true → s.partOf (v.extractLsb' 46 10).toNat = some p.toNat →
        s.sideTaken (p.toNat * 64 + k.toNat) (v.extractLsb' 46 10).toNat (v.extractLsb' 56 4).toNat (v.getLsbD 60) = false →
        (v.getLsbD 60 = true → 4 ≤ (v.extractLsb' 12 7).toNat ∧ (v.extractLsb' 12 7).toNat ≤ 64) →
        ∃ t, exec (.channelEntryWrite p k false v) s = .next t ∧
          let e := t.chanEnd (p.toNat * 64 + k.toNat)
          e.en = true ∧ e.recv = v.getLsbD 60 ∧ e.port = v.extractLsb' 56 4 ∧ e.core = v.extractLsb' 46 10 ∧
            e.pcore = v.extractLsb' 36 10 ∧ e.pchan = v.extractLsb' 19 6 ∧ (e.st = .closed ∨ e.st = .wait))) ∧
    (∀ (die : BitVec 2) (bank : BitVec 7), bank.toNat < 85 → let k := die.toNat * 85 + bank.toNat
      ∃ t, exec (.bkctlWrite die bank v) s = .next t ∧ (t.bank k).trade = v.getLsbD 0 ∧
        (t.bank k).joining = ((s.bank k).joining || (v.getLsbD 0 && !(s.bank k).joined)) ∧ (t.bank k).joined = (s.bank k).joined ∧
        (t.bank k).scq = (s.bank k).scq ∧ ∀ j, j ≠ k → t.bank j = s.bank j) ∧
    (∀ (n : CoreNum),
      let c := s.core n.toNat
      let size := v.toNat / 2 ^ 52 % 32
      exec (.bagctlWrite n v) s = .next (s.setCore n.toNat { c with bagctl := v &&& 0x8000000000000000 }) ∧
      (c.spilled ≠ 0 → exec (.bagspillWrite n v) s = .next s) ∧
      (c.spilled = 0 → size = 0 ∨ 8 ≤ size ∧ size ≤ 24 →
        ∃ t, exec (.bagspillWrite n v) s = .next t ∧ (t.core n.toNat).bagspill = v &&& 0x01FFFFFFFFFFFFF0 ∧
          (c.bagWait = [] →
            t = s.setCore n.toNat { c with bagspill := v &&& 0x01FFFFFFFFFFFFF0, spillProd := 0, spillCons := 0 })) ∧
      (let pa : BitVec 52 := BitVec.ofNat 52 (0x1F90000000 + n.toNat * 4096 + 0x010)
       exec (.registerWrite pa v) s = .next (s.setCore n.toNat { c with nodehead := v &&& 0x01FFFFFFFFFFFFC0 }) ∧
       ∀ t, exec (.registerWrite pa v) s = .next t → t.regRead pa.toNat = v &&& 0x01FFFFFFFFFFFFC0))

/-! ## Packets and channels (24, 25, 26 R361) -/

/-- 24 R330, R332 to R337, R339, 26 R361: a packet passes a bridge, sheared there when its lane is full, or is refused where its
partition may not cross, and leaves by an authenticated port with a key; a packet is delivered once and in order, a sheared header opens a
hole and asks for its packet again, within the pace of the lull; acknowledgements free a place, a nack leaves a record, a timeout sends
again; a remote access is performed at its home, and a delivered packet fills the next slot of the ring. The choice of the exit port
(log 43), the place of a nack's code (log 44), and that a duplicate is acknowledged again only once the first is performed (log 53), are the
model's readings. -/
def Obligations.NetworkEvents : Prop :=
  ∀ (k : Nat) (p : Packet) (s : State),
    let gone := s.dropFlight k
    let inFlight := s.net.flight[k]? = some p
    let atEnd := inFlight ∧ p.frame = false ∧ s.arrived p = true ∧ s.inOrder k p = true
    let w := s.window p
    let nack := control 5 true p
    let isDue := ∃ q ∈ s.net.due, q.stream = p.stream ∧ q.seq = p.seq
    let ring := (s.core p.dcore).ring
    (∀ l (queued : BitVec 7), inFlight → s.placed p = true → s.inOrder k p = true → s.route p = some l →
      let cut := p.frame = false ∧ p.shear = false ∧ p.payload ≠ [] ∧ 48 ≤ queued.toNat
      let passed := fun (q : Packet) => q.hops = p.hops + 1 ∧ (cut → q.payload = [] ∧ q.shear = true ∧ q.len8 = p.len8 ∧ q.seq = p.seq) ∧
        (¬cut → q.payload = p.payload ∧ q.hdr = p.hdr)
      let refused := ∃ t, exec (.packetForward k queued) s = .next t ∧
        t.net.flight = s.net.flight.eraseIdx k ++ [{ nack with hops := if p.sdev = Sys2Proof.Machine.here then 1000 else 0 }]
      (∀ b back, l[p.hops]? = some (.bridge b back) →
        ((s.lpermOf (s.partOfPacket p)).getLsbD (2 * b + (if back then 1 else 0)) = true →
          ∃ t q, exec (.packetForward k queued) s = .next t ∧ passed q ∧ t.net.flight = s.net.flight.set k q) ∧
        ((s.lpermOf (s.partOfPacket p)).getLsbD (2 * b + (if back then 1 else 0)) = false → p.frame = false →
          p.type ≤ 3 → refused) ∧
        (∀ j e, (s.lpermOf (s.partOfPacket p)).getLsbD (2 * b + (if back then 1 else 0)) = false → p.frame = true →
          p.fSdev = Sys2Proof.Machine.here → gone.endOfFrame p = some (j, e) →
          exec (.packetForward k queued) s = .next (gone.channelFault j e))) ∧
      (∀ e, l[p.hops]? = some (.port e) →
        let dn := (Config.domainOf (s.partOfPacket p) p.to'.1).toNat
        let d := s.domain e dn
        (s.link e ≠ .auth → exec (.packetForward k queued) s = .next s) ∧
        (s.link e = .auth → (s.lpermOf (s.partOfPacket p)).getLsbD (12 + 2 * e) = false → p.frame = false → p.type ≤ 3 → refused) ∧
        (s.link e = .auth → (s.lpermOf (s.partOfPacket p)).getLsbD (12 + 2 * e) = true →
          ((if d.tx then d.key1 else d.key0) = none ∨ d.stall = true → exec (.packetForward k queued) s = .next s) ∧
          ((if d.tx then d.key1 else d.key0) ≠ none → d.stall = false → ∃ t q, exec (.packetForward k queued) s = .next t ∧ passed q ∧
            t.net.flight = s.net.flight.eraseIdx k ∧ t.net.wire = s.net.wire ++ [s.onWire e dn q] ∧
            (t.domain e dn).txcount = d.txcount + 1)))) ∧
    (atEnd → s.placed p = true → p.shear = false → p.type ≤ 3 →
      (w.seen p.seq = true → (isDue → exec (.packetArrival k) s = .next gone) ∧
        (¬isDue → exec (.packetArrival k) s = .next (gone.ack p false))) ∧
      (w.seen p.seq = false → s.classRefused p = false → s.classSheared p = false → s.ordered p = true → w.dist p.seq ≠ 0 → (∀ h ∈ w.held, h.1 ≠ p.seq) →
        ∃ t, exec (.packetArrival k) s = .next t ∧ (t.window p).held = w.held ++ [(p.seq, p)] ∧ t.net.due = s.net.due) ∧
      (p.seq = w.oldest → w.got = [] → w.held = [] →
        (p.type ≠ 0 → ∃ t, exec (.packetArrival k) s = .next t ∧ t.net.due = s.net.due ++ [p] ∧ (t.window p).seen p.seq = true) ∧
        (let taken := s.corePresent p.dcore = true ∧ s.partOf p.dcore = some p.part ∧ (s.rcls p.part p.cls).getLsbD 63 = true
         let room := (s.core p.dcore).mask.getLsbD p.cls = false ∧ ring.cfg.getLsbD 63 = true ∧
           ring.count + s.ringDue p.dcore < 2 ^ (ring.cfg.toNat / 2 ^ 59 % 16)
         p.type = 0 →
          (taken → room → ∃ t, exec (.packetArrival k) s = .next t ∧ t.net.due = s.net.due ++ [p] ∧ (t.window p).seen p.seq = true) ∧
          (taken → ¬room → ∃ t, exec (.packetArrival k) s = .next t ∧ t.net.due = s.net.due ∧ (t.window p).oldest = w.oldest ∧
            { core := p.dcore, hdr := p.hdr, asked := false } ∈ t.net.rereqs) ∧
          (¬taken → ∃ t, exec (.packetArrival k) s = .next t ∧ t.net.due = s.net.due ∧
            t.net.flight = s.net.flight.eraseIdx k ++ [nack] ∧ (t.window p).seen p.seq = true)))) ∧
    (atEnd → p.shear = true →
      (w.seen p.seq = true → (isDue → exec (.shearedHeader k) s = .next gone) ∧
        (¬isDue → exec (.shearedHeader k) s = .next (gone.ack p false))) ∧
      (w.seen p.seq = false → (∀ h ∈ w.held, h.1 ≠ p.seq) → ∃ t, exec (.shearedHeader k) s = .next t ∧
        { core := p.dcore, hdr := p.hdr, asked := false } ∈ t.net.rereqs ∧ t.net.flight = s.net.flight.eraseIdx k ∧ t.net.due = s.net.due)) ∧
    (∀ (n : CoreNum) rest, s.net.rereqs = { core := n.toNat, hdr := p.hdr, asked := false } :: rest →
      let pace := ((n.toNat * 2 + (if p.kind = 2 then 1 else 0)) * 1024 + p.sdev) * 1024 + p.score
      (p.type ≠ 0 ∨ (s.core n.toNat).mask.getLsbD p.cls = false →
        (∀ t, Sp.find? s.net.paced pace = some t → (s.netOf p.part).lull ≤ s.cycle - t) →
        ∃ t, exec (.reRequest n) s = .next t ∧ t.net.flight = s.net.flight ++ [control 4 false p] ∧
          Sp.find? t.net.paced pace = some s.cycle) ∧
      (∀ t, rest = [] → Sp.find? s.net.paced pace = some t → s.cycle - t < (s.netOf p.part).lull → exec (.reRequest n) s = .next s)) ∧
    (atEnd → p.type = 5 →
      let code := (p.hdr.getD 2 0).toNat % 256
      (∀ e, (s.sentBy p.named.1).find? p.named.2 = some e → ∃ u,
        (u.sentBy p.named.1).map (·.pkt) = ((s.sentBy p.named.1).filter fun x => !p.named.2 x).map (·.pkt) ∧
        u.net.flight = s.net.flight.eraseIdx k ∧ exec (.acknowledgement k) s = .next (if p.nack then
          u.record e.pkt.part { code := code, kind := 5, colour := e.pkt.colour, core := e.pkt.score, addr := refusedWord e } else u)) ∧
      ((s.sentBy p.named.1).find? p.named.2 = none → exec (.acknowledgement k) s = .next (if p.nack ∧ p.tag / 16 % 4 = 3 then
          gone.record p.part { code := code, kind := 5, colour := p.colour, core := p.dcore, addr := refusedRead p } else gone))) ∧
    (∀ key e, (s.net.sent.flatMap fun q => q.2.map fun e => (q.1, e))[k]? = some (key, e) →
      let f := fun (x : Sent) => x.pkt.stream == e.pkt.stream && x.pkt.seq == e.pkt.seq
      (e.times = 0 ∨ s.cycle - e.time < 2 ^ 20 → exec (.retransmitTimeout k) s = .next s) ∧
      (2 ^ 20 ≤ s.cycle - e.time → 0 < e.times → e.times < 16 → (s.sentBy key).find? f = some e →
        ∃ t, exec (.retransmitTimeout k) s = .next t ∧ t.net.flight = s.net.flight ++ [{ e.pkt with hops := 0, again := true }] ∧
          (t.sentBy key).find? f = some { e with time := s.cycle, times := e.times + 1 }) ∧
      (2 ^ 20 ≤ s.cycle - e.time → 16 ≤ e.times → exec (.retransmitTimeout k) s = .next ((s.freePlaces key f).record e.pkt.part
        { code := 0x52, kind := 5, colour := e.pkt.colour, core := e.pkt.score, addr := e.pkt.hdr.getD 1 0 }))) ∧
    (s.dueNow k = some p →
      (p.type = 1 → (∀ c, s.remoteKey p (8 * p.len8) false = .error c → exec (.remoteRead k) s = .next (s.dropDue k)) ∧
        ∀ key, s.remoteKey p (8 * p.len8) false = .ok key → ∃ (t : State) (r : Packet), exec (.remoteRead k) s = .next t ∧
          t.net.due = s.net.due.eraseIdx k ∧ t.net.flight = s.net.flight ++ [r] ∧ r.payload = s.readHomeN key p.addr (8 * p.len8) ∧
          ((∀ q ∈ s.net.seqs, q.2 < 65536) → r.type = 3 ∧ r.tag = p.tag ∧ r.ddev = p.sdev ∧ r.dcore = p.score)) ∧
      (p.type = 2 → (∀ c, s.remoteKey p (max 1 p.payload.length) true = .error c →
          exec (.remoteWrite k) s = .next ((s.dropDue k).ack p true c)) ∧
        ∀ key, s.remoteKey p (max 1 p.payload.length) true = .ok key → p.poison = false →
          (∀ i, i < p.payload.length → space (p.addr + i) = .floor) → ∃ t, exec (.remoteWrite k) s = .next t ∧
            (∀ i, i < p.payload.length → t.readHome 0 (p.addr + i) = p.payload.getD i 0) ∧
            (∀ a, space a ≠ .gddr → a < p.addr ∨ p.addr + p.payload.length ≤ a → t.readHome 0 a = s.readHome 0 a) ∧
            t.net.flight = s.net.flight ++ [control 5 false p]) ∧
      (∀ r n, p.type = 3 → s.net.reads.find? (fun r => r.tag == p.tag && r.who.sender == p.dcore) = some r → r.who = .core n →
        ∃ t, exec (.readReply k) s = .next t ∧ (t.core n).rreq = none ∧ t.net.flight = s.net.flight ++ [control 5 false p] ∧
          ∀ i, i < r.len → Sp.find? (t.core n).blk.remote (r.home + i) = some (p.payload.getD i 0, p.poison)) ∧
      (p.type = 0 → ringOk ring.cfg = true → p.hdr.length = 4 → p.payload.length ≤ 256 → p.poison = false →
        let slot := padHome p.dcore (ring.base + (ring.head + ring.count) % ring.slots * 512)
        let word := padHome p.dcore ring.countOff
        ∃ t, exec (.routeClassDelivery k) s = .next t ∧ (t.core p.dcore).ring.count = ring.count + 1 ∧
          (∀ i, i < p.payload.length → t.readHome 0 (slot + 40 + i) = p.payload.getD i 0) ∧
          t.readVal 0 word 4 = (s.readVal 0 word 4 + 1) % 2 ^ 32 ∧ t.net.flight = s.net.flight ++ [control 5 false p] ∧
          ∀ a, space a ≠ .gddr → a < slot ∨ slot + 40 + p.payload.length ≤ a → a < word ∨ word + 4 ≤ a →
            t.readHome 0 a = s.readHome 0 a))

/-- 25 R347 to R351: an end in WAIT sends its ready frame, opens on one from its own peer and goes into FAULT on another; a send end
spends a credit for each token, and gets it back; a receive end takes tokens into its places while it is OPEN, and counts them as stale
otherwise; a close frame puts an end back into WAIT and empties it. What an OPEN end does with a ready frame, what becomes of its places and
counts at a close, and that a refused token counts as stale, are the model's readings (log 55). -/
def Obligations.ChannelEvents : Prop :=
  ∀ (s : State),
    (∀ (part : PartNum) (ch : BitVec 6),
      let k := part.toNat * 64 + ch.toNat
      let u := s.follow k
      let e := u.chanEnd k
      (e.st = .wait → e.readied = false ∨ 2 ^ 16 ≤ u.cycle - e.readyAt →
        ∃ t, exec (.readyResend part ch) s = .next t ∧
          t.net.flight = u.net.flight ++ [e.frame 2 0 (if e.recv then e.depth.toNat else 0) []] ∧ t.chanEnd k =
          { e with readied := true, readyAt := u.cycle }) ∧
      (e.st ≠ .wait ∨ e.readied = true ∧ u.cycle - e.readyAt < 2 ^ 16 → exec (.readyResend part ch) s = .next u) ∧
      ∀ (c : BitVec 8) i tok, e.st = .opened → e.recv = false → u.exitPick e.core.toNat e.port.toNat e.slot.toNat c.toNat = some (i, tok) →
        (e.colours.getLsbD c.toNat = false → exec (.channelTokenSend part ch c) s = .next u) ∧
        (e.colours.getLsbD c.toNat = true → (Sp.get [] e.spent c.toNat).length < e.window → ∃ t, exec (.channelTokenSend part ch c) s = .next t ∧
          Sp.get [] (t.chanEnd k).spent c.toNat = Sp.get [] e.spent c.toNat ++ [tok] ∧
          (t.chanEnd k).tokens = min (2 ^ 32 - 1) (e.tokens + 1) ∧
          ∃ q, t.net.flight = u.net.flight ++ [q] ∧ q.payload.length = 16 ∧ q.frame = true) ∧
        (e.window ≤ (Sp.get [] e.spent c.toNat).length → exec (.channelTokenSend part ch c) s = .next u)) ∧
    (∀ k p i, s.frameAt k 2 = some (p, i) →
      let u := (s.dropFlight k).follow i
      let e := u.chanEnd i
      (e.en = false ∨ e.st = .fault → exec (.readyFrame k) s = .next u) ∧
      (e.en = true → e.st ≠ .fault → e.peerOf p = false → exec (.readyFrame k) s = .next (u.channelFault i e)) ∧
      (e.st = .opened ∨ e.st = .closed → e.peerOf p = true → exec (.readyFrame k) s = .next u) ∧
      (e.en = true → e.st = .wait → e.peerOf p = true → ∃ t, exec (.readyFrame k) s = .next t ∧ (t.chanEnd i).st = .opened ∧
        (t.chanEnd i).window = (if e.recv then 0 else p.fCount) ∧ (t.chanEnd i).spent = [] ∧ (t.chanEnd i).places = [] ∧
        t.net.flight = if e.readied then u.net.flight
          else u.net.flight ++ [e.frame 2 0 (if e.recv then e.depth.toNat else 0) []])) ∧
    (∀ k p i, s.frameAt k 3 = some (p, i) →
      let u := (s.dropFlight k).follow i
      let e := u.chanEnd i
      (e.st = .opened → e.peerOf p = true → ∃ t, exec (.closeFrame k) s = .next t ∧
        (t.chanEnd i).st = .wait ∧ (t.chanEnd i).region = e.region ∧ (t.chanEnd i).places = [] ∧ (t.chanEnd i).spent = [] ∧
        (t.chanEnd i).stale = min (2 ^ 32 - 1) (e.stale + (e.places.map fun q => q.2.length).sum)) ∧
      (e.st ≠ .opened ∨ e.peerOf p = false → exec (.closeFrame k) s = .next u)) ∧
    (∀ k p i, s.frameAt k 1 = some (p, i) → (s.chanEnd i).st = .opened → (s.chanEnd i).recv = false →
      let l := Sp.get [] (s.chanEnd i).spent p.fColour
      (∀ t ∈ l.take p.fCount, t.eos = false ∨ p.fgone = true) → ∃ t, exec (.creditFrame k) s = .next t ∧
        Sp.get [] (t.chanEnd i).spent p.fColour = l.drop p.fCount ∧
        ∀ c, c ≠ p.fColour → Sp.get [] (t.chanEnd i).spent c = Sp.get [] (s.chanEnd i).spent c) ∧
    ∀ k p i, s.frameAt k 0 = some (p, i) →
      let u := (s.dropFlight k).follow i
      let e := u.chanEnd i
      (e.st ≠ .opened ∨ e.recv = false → ∃ t, exec (.tokenFrame k) s = .next t ∧
        (t.chanEnd i).stale = min (2 ^ 32 - 1) (e.stale + p.fNtok) ∧ (t.chanEnd i).places = e.places ∧ t.entryq = u.entryq) ∧
      (∀ tok, e.st = .opened → e.recv = true → p.tokens = [tok] → Sp.get [] e.places tok.colour.toNat = [] → 0 < e.depth.toNat →
        let held := u.setEnd i { e with places := Sp.put e.places tok.colour.toNat [tok] }
        (held.admitPlace i tok.colour.toNat = (held, false) → exec (.tokenFrame k) s = .next held) ∧
        ∀ t, held.admitPlace i tok.colour.toNat = (t, true) → Sp.get [] (t.chanEnd i).places tok.colour.toNat = [] →
          exec (.tokenFrame k) s = .next t)

/-! ## Partitions, contexts and trust (26), sessions (26, 28) -/

/-- 26 R356, R357, R359 to R362, R366, R368, R372, 25 R354, 27 R378, 19 R281, R284, 28 R386: a management request is performed and answered,
or refused with nothing changed; ports train and lose their signal, and a packet under a phase that is not open is counted. That a seal takes
whole frames (log 47), the refusals and waits that the manual leaves open (log 54), and that a partition's fifth colour is taken (log 66) are
the model's choices. -/
def Obligations.ManagementRequests : Prop :=
  ∀ (s : State),
    let refused := fun (i : Instr) => exec i s = .next (s.answer false)
    let denied := fun (i : Instr) (v : Nat) => exec i s = .next (s.tell v false [])
    let scrubbed := fun (c : BitVec 8) => ∃ q ∈ s.trust.stops, ∃ r ∈ q.scrubs, r.colour = c.toNat
    let done := fun (i : Instr) (P : State → Prop) =>
      ∃ t, exec i s = .next t ∧ t.trust.outbox = s.trust.outbox ++ [.answer true] ∧
        t.trust.calls = s.trust.calls.eraseP (fun p => p.kind == 2) ∧ P t
    (s.reached = false → ∀ (n : BitVec 4) (w : BitVec 256) (v x : W64) (f : BitVec 6) (c : BitVec 8) (e : BitVec 128) (k : CoreNum)
        (tag : BitVec 16) (h : BitVec 40) (key : BitVec 512) (b : Bool),
      ∀ i ∈ [Instr.partWrite n w, .vfWrite f v, .lpermWrite n v, .colourTableWrite c e, .ownerTagWrite k tag, .startCommand k tag c v x,
        .coreReset k, .setPre k, .retireCommand h, .keyLoad true c key b, .keyLoad false c key false, .linkKeyLoad n f b w,
        .lkstatWrite n f v, .sealRange c v x, .releaseScrub b (c.setWidth 7)], exec i s = .next s) ∧
    (s.reached = true → ∀ (n : PartNum) (v : BitVec 256),
      let q : Part := { valid := v.getLsbD 63, smask := v.extractLsb' 64 16, chmask := v.extractLsb' 128 128 }
      let old := s.part n.toNat
      let apart := ∀ m r, (m, r) ∈ s.parts → m ≠ n.toNat → r.valid = true → r.smask &&& q.smask = 0 ∧ r.chmask &&& q.chmask = 0
      (¬apart → refused (.partWrite n v)) ∧ (q.valid = true → q.smask = 0 → refused (.partWrite n v)) ∧
      (∀ c, c < 128 → q.chmask.getLsbD c = true → s.chanPresent c = false → refused (.partWrite n v)) ∧
      (∀ i, i < 16 → old.valid = true → old.smask.getLsbD i = true → q.smask.getLsbD i = false → s.trust.cleanSectors.getLsbD i = false →
        refused (.partWrite n v)) ∧
      (apart → q.valid = true → q.smask ≠ 0 → (∀ c, c < 128 → q.chmask.getLsbD c = true → s.chanPresent c = true) →
        old.smask &&& ~~~q.smask = 0 → old.chmask &&& ~~~q.chmask = 0 → done (.partWrite n v) fun t => t.part n.toNat = q)) ∧
    (s.reached = true → ∀ (n : BitVec 6) (v : W64), done (.vfWrite n v) fun t =>
      let q := s.vf n.toNat
      let w := { q with waymask := v.extractLsb' 48 16, ctxid := v.extractLsb' 32 16, ingmask := v.extractLsb' 24 8,
                        part := v.extractLsb' 20 4, en := v.getLsbD 16 }
      t.vf n.toNat = { w with st := if q ≠ w ∧ (q.st = .locked ∨ q.st = .run) then .error else q.st }) ∧
    (s.reached = true → ∀ (n : PartNum) (v : W64), done (.lpermWrite n v) fun t => t.lpermOf n.toNat = v &&& 0x00000FFFFFFFFFFF) ∧
    (s.reached = true → ∀ (c : BitVec 8) (v : BitVec 128),
      let owns := v.getLsbD 127 = false ∨ (s.vf (v.extractLsb' 117 6).toNat).part = v.extractLsb' 123 4
      (scrubbed c → exec (.colourTableWrite c v) s = .next s) ∧
      (¬scrubbed c → ¬owns → exec (.colourTableWrite c v) s = .next (s.answer true)) ∧
      (¬scrubbed c → owns → done (.colourTableWrite c v) fun t => t.colour c.toNat = { s.colour c.toNat with
        valid := v.getLsbD 127, part := v.extractLsb' 123 4, vf := v.extractLsb' 117 6, root := v.extractLsb' 64 40,
        epoch := (s.colour c.toNat).epoch + if v.getLsbD 127 then 1 else 0 })) ∧
    (s.reached = true → ∀ (n : CoreNum) (tag : BitVec 16),
      let c := s.core n.toNat
      let halted := s.corePresent n.toNat = true ∧ (c.run = .reset ∨ c.run = .stopped ∨ c.run = .halted ∧ c.bagctl.getLsbD 63 = false)
      let cleared := fun (t : State) => (t.core n.toNat).owner = tag ∧ (t.core n.toNat).bag = [] ∧ (t.core n.toNat).tlb = [] ∧
        (t.core n.toNat).l1 = [] ∧ (t.core n.toNat).streams = [] ∧ (∀ off, off < 2 ^ 19 → t.readHome 0 (padHome n.toNat off) = 0) ∧
        ∀ key a, a < padHome n.toNat 0 ∨ padHome n.toNat 0 + 2 ^ 19 ≤ a →
          t.readHome key a = (s.l1DropAll n.toNat).readHome key a
      (¬halted → refused (.ownerTagWrite n tag)) ∧
      (halted → done (.ownerTagWrite n tag) fun t => cleared t ∧ (t.core n.toNat).run = if tag = 0 then .reset else c.run) ∧
      (∀ (col : BitVec 8) (block arg : W64),
        let may := s.corePresent n.toNat = true ∧ c.run = .reset ∧ tag ≠ 0 ∧ s.boundAt n.toNat col.toNat = true ∧ block.toNat % 8 = 0
        (¬may → refused (.startCommand n tag col block arg)) ∧
        (may → done (.startCommand n tag col block arg) fun t => cleared t ∧ (t.core n.toNat).run = .running ∧
          (t.core n.toNat).lvlS = true ∧ (t.core n.toNat).pc = block ∧ (t.core n.toNat).regs.colour = col ∧
          (t.core n.toNat).regs.getX 2 = BitVec.ofNat 64 n.toNat ∧ (t.core n.toNat).regs.getX 3 = arg ∧
          ∀ r, r ≠ 2 → r ≠ 3 → (t.core n.toNat).regs.getX r = 0)) ∧
      (c.run = .stopped → done (.coreReset n) fun t => (t.core n.toNat).run = .reset ∧ (t.core n.toNat).regs = Regs.reset) ∧
      (c.run ≠ .stopped → refused (.coreReset n)) ∧
      (s.corePresent n.toNat = true → done (.setPre n) fun t => (t.core n.toNat).tpend = c.tpend ||| 1) ∧
      (s.corePresent n.toNat = false → refused (.setPre n))) ∧
    (s.reached = true → ∀ (f : BitVec 40),
      let mine := space (f.toNat * 4096) = .gddr ∧ s.chanPresent (chanOf (f.toNat * 4096)) = true ∧ s.retired.length < 4032
      (¬mine → refused (.retireCommand f)) ∧ (mine → f.toNat ∈ s.retired → exec (.retireCommand f) s = .next (s.answer true)) ∧
      (mine → f.toNat ∉ s.retired → done (.retireCommand f) fun t => t.retired = s.retired ++ [f.toNat] ∧
        ∀ l ∈ t.l2, l.1 / 32 ≠ f.toNat)) ∧
    (∀ (n : BitVec 8) (key : BitVec 512) (session : Bool),
      let q := s.colour n.toNat
      let bad := key.extractLsb' 0 256 = key.extractLsb' 256 256
      let f := s.vf q.vf.toNat
      let calls := fun (v : Nat) => ∃ p : Peer, p ∈ s.trust.calls ∧ p.kind = 1 ∧ p.vf = v
      let mine := session = true ∧ q.valid = true ∧ calls q.vf.toNat ∧ ¬scrubbed n
      let way := session = false ∧ s.reached = true ∧ ¬scrubbed n
      (scrubbed n → exec (.keyLoad false n key session) s = .next s) ∧
      (session = true → (∀ v : Nat, ¬calls v) → exec (.keyLoad false n key session) s = .next s) ∧
      (bad → (way → refused (.keyLoad false n key session)) ∧ (s.reached = true → refused (.keyLoad true n key session))) ∧
      (mine → bad ∨ f.sess = false ∨ f.en = false → denied (.keyLoad false n key session) q.vf.toNat) ∧
      (∀ p : Peer, session = true → s.trust.calls = [p] → p.kind = 1 → s.stopping p.vf = false → q.valid = false ∨ q.vf.toNat ≠ p.vf → ¬scrubbed n →
        denied (.keyLoad false n key session) p.vf) ∧
      (mine → ¬bad → f.sess = true → f.en = true → ∃ t : State, exec (.keyLoad false n key session) s = .next (t.tell q.vf.toNat true []) ∧
        t.trust.calls = s.trust.calls ∧ t.colour n.toNat = { q with keyed := true, key := key.toNat }) ∧
      (s.reached = true → ¬bad → 16 ≤ n.toNat → refused (.keyLoad true n key session)) ∧
      (s.reached = true → ¬bad → n.toNat < 16 → done (.keyLoad true n key session) fun t => Sp.find? t.partKey n.toNat = some key.toNat) ∧
      (way → ¬bad → q.valid = true → f.st ≠ .unlocked → refused (.keyLoad false n key session)) ∧
      (way → ¬bad → q.valid = false ∨ f.st = .unlocked →
        done (.keyLoad false n key session) fun t => t.colour n.toNat = { q with keyed := true, key := key.toNat })) ∧
    (∀ (port : BitVec 4) (dom : BitVec 6) (phase : Bool),
      let d := s.domain port.toNat dom.toNat
      let after := fun (t : State) => t.domain port.toNat dom.toNat
      let accepts := if phase then d.rx1 else d.rx0
      let has := (if phase then d.key1 else d.key0) ≠ none
      (s.reached = true → ∀ key : BitVec 256, (d.tx = phase ∨ accepts = true → refused (.linkKeyLoad port dom phase key)) ∧
        (d.tx ≠ phase → accepts = false → done (.linkKeyLoad port dom phase key) fun t =>
          (if phase then (after t).key1 else (after t).key0) = some key ∧ (after t).tx = d.tx)) ∧
      (s.reached = true → ∀ v : W64, let tx := v.getLsbD 59
        (tx ≠ d.tx → (if tx then d.key1 else d.key0) = none → done (.lkstatWrite port dom v) fun t => after t = d) ∧
        (tx ≠ d.tx → (if tx then d.key1 else d.key0) ≠ none → done (.lkstatWrite port dom v) fun t => (after t).tx = tx ∧
          (after t).txcount = 0 ∧ (after t).stall = false ∧ (after t).rx0 = v.getLsbD 57 ∧ (after t).rx1 = v.getLsbD 58) ∧
        (tx = d.tx → done (.lkstatWrite port dom v) fun t => (after t).txcount = d.txcount ∧ (after t).rx0 = v.getLsbD 57 ∧
          (after t).rx1 = v.getLsbD 58 ∧ (tx = true → d.rx0 = true → v.getLsbD 57 = false → (after t).key0 = none) ∧
          (tx = false → d.rx0 = true → v.getLsbD 57 = false → (after t).key0 = d.key0) ∧ (v.getLsbD 57 = true → (after t).key0 = d.key0))) ∧
      (accepts = true → has → exec (.authfail port dom phase) s = .next s) ∧
      (s.portUp port.toNat = false → exec (.authfail port dom phase) s = .next s) ∧
      (s.portUp port.toNat = true → accepts = false ∨ ¬has → ∃ t, exec (.authfail port dom phase) s = .next t ∧
        after t = { d with authfail := min (2 ^ 32 - 1) (d.authfail + 1) } ∧ t.net = s.net) ∧
      (s.portPresent port.toNat = true → ∃ t, exec (.linkTrained port) s = .next t ∧ t.link port.toNat = .trained) ∧
      (s.portPresent port.toNat = false → exec (.linkTrained port) s = .next s) ∧
      ∃ t, exec (.lossOfSignal port) s = .next t ∧ t.link port.toNat = .untrained ∧
        t.ptp.locked = (if s.ptp.port = port then false else s.ptp.locked)) ∧
    (s.reached = true → ∀ (col : BitVec 8) (va len : W64),
      let q := s.colour col.toNat
      let ctx := (s.vf q.vf.toNat).ctxid
      let off := va.toNat % 4096
      let pages := s.sealPages col.toNat (va.toNat - off) ((off + len.toNat + 4095) / 4096)
      (q.valid = false ∨ ctx = 0 ∨ pages = none → refused (.sealRange col va len)) ∧
      ∀ ps, q.valid = true → ctx ≠ 0 → pages = some ps → done (.sealRange col va len) fun t =>
        t.sealed = s.sealed ++ ps.map (fun (p : Nat × Nat) => (ctx, p.1 / 4096)) ∧
        Sp.get [] t.trust.ranges ctx.toNat = Sp.get [] s.trust.ranges ctx.toNat ++ [(va, len)] ∧
        Sp.find? t.trust.measure ctx.toNat = some (Config.sha3 (leBytes 32 (Sp.get 0 s.trust.measure ctx.toNat).toNat ++
          leBytes 8 va.toNat ++ leBytes 8 len.toNat ++
          leBytes 32 (Config.sha3 (((ps.flatMap fun (p : Nat × Nat) => s.readHomeN p.2 p.1 4096).drop off).take len.toNat)).toNat))) ∧
    (s.reached = true → ∀ (n : BitVec 7), (16 ≤ n.toNat → refused (.releaseScrub false n)) ∧
      (n.toNat < 16 → done (.releaseScrub false n) fun t => t.trust.cleanSectors.getLsbD n.toNat = true ∧
        ∀ a, space a = .floor → t.readHome 0 a = if floorDie a * 4 + floorSector (floorOff a) = n.toNat then 0 else s.readHome 0 a) ∧
      done (.releaseScrub true n) fun t => t.trust.cleanChans.getLsbD n.toNat = true ∧
        (∀ a, space a = .gddr → chanOf a = n.toNat → t.poisoned a = false) ∧ ∀ a, space a = .floor → t.readHome 0 a = s.readHome 0 a)

/-- 26 R363 to R367, R370 to R372, 28 R385, R386: a TDISP message outside its function's session is an error; inside one it moves the
function as Table 26.6 says. A stop unbinds the function's colours, leaves no translation of theirs, and each colour's scrub ends, once its
purges and its TLBI have ended, with its key erased and a receipt; then the function is unlocked and the stop answered (log 54). During a cold reset
every SPDM request is answered Busy. An SPDM request with a malformed binding record is discarded, one of a function that is not enabled refused, and every
other one answered in order; FINISH opens a session, END_SESSION ends it, and a certificate slot is read as it stands at acceptance. The
empty bodies, GET_CSR's new key, the layout of ALGORITHMS and InvalidRequest for a bad KEY_EXCHANGE are the model's choices (log 48); the
body of GET_MEASUREMENTS is not stated here. -/
def Obligations.SessionsAndInterfaces : Prop :=
  ∀ (s : State),
    (∀ (v : BitVec 6) (nonce : BitVec 256),
      let q := s.vf v.toNat
      let after := fun (t : State) => t.vf v.toNat
      let no := fun (i : Instr) => exec i s = .next (s.tell v.toNat false [])
      let yes := fun (i : Instr) (body : List Byte) (P : State → Prop) => ∃ t, exec i s = .next (t.tell v.toNat true body) ∧
        P t ∧ t.trust.pending = s.trust.pending ∧ t.trust.calls = s.trust.calls
      let all := [Instr.getTdispVersion v, .getTdispCapabilities v, .lockInterfaceRequest v, .getDeviceInterfaceReport v,
        .getDeviceInterfaceState v, .startInterfaceRequest v nonce, .stopInterfaceRequest v]
      let keyed := ∀ c ∈ s.colours, c.2.valid = true → c.2.vf = v → c.2.keyed = true
      let authed := (∃ p ∈ s.trust.calls, p.kind = 1 ∧ p.vf = v.toNat) ∧ ∀ x ∈ s.trust.stops, x.vf ≠ v.toNat
      let coloured := fun (c : Nat) => (s.colour c).vf = v ∧ ((s.colour c).valid = true ∨ (s.colour c).keyed = true)
      (¬authed → ∀ i ∈ all, exec i s = .next s) ∧
      (authed → q.sess = false ∨ q.en = false → ∀ i ∈ all, no i) ∧
      (authed → q.sess = true → q.en = true →
        yes (.getTdispVersion v) [] (· = s) ∧ yes (.getTdispCapabilities v) [] (· = s) ∧
        yes (.getDeviceInterfaceState v) [match q.st with | .unlocked => 0 | .locked => 1 | .run => 2 | .error => 3] (· = s) ∧
        (∃ body, yes (.getDeviceInterfaceReport v) (s.frozenSet v.toNat ++ body) (· = s)) ∧
        (q.st = .unlocked → q.ctxid ≠ 0 → keyed → (Sp.find? s.trust.measure q.ctxid.toNat).isSome = true →
          yes (.lockInterfaceRequest v) (leBytes 32 (Config.nonce s.free).toNat) fun t => after t = { q with st := .locked, nonce := Config.nonce s.free }) ∧
        (q.st ≠ .unlocked ∨ q.ctxid = 0 ∨ ¬keyed ∨ Sp.find? s.trust.measure q.ctxid.toNat = none →
          no (.lockInterfaceRequest v)) ∧
        (q.st = .locked → q.nonce = nonce → yes (.startInterfaceRequest v nonce) [] fun t => after t = { q with st := .run }) ∧
        (q.st ≠ .locked ∨ q.nonce ≠ nonce → no (.startInterfaceRequest v nonce)) ∧
        (q.st = .unlocked → no (.stopInterfaceRequest v)) ∧
        (q.st ≠ .unlocked → (∀ e ∈ s.colours, e.2.vf = v → e.2.valid = false ∧ e.2.keyed = false) →
          yes (.stopInterfaceRequest v) [] fun t => (after t).st = .unlocked ∧ (after t).nonce = 0) ∧
        (∀ c, q.st ≠ .unlocked → coloured c → ∃ t x, exec (.stopInterfaceRequest v) s = .next t ∧
          t.trust.stops = s.trust.stops ++ [x] ∧ x.vf = v.toNat ∧ x.managed = false ∧ after t = q ∧ t.trust.outbox = s.trust.outbox ∧
          ∀ c, coloured c → (t.colour c).valid = false ∧
            (∃ r ∈ x.scrubs, r.colour = c ∧ r.was = s.colour c ∧ r.t1 = s.now) ∧
            ∀ n, s.partOf n = some (s.colour c).part.toNat → ∀ e ∈ (t.core n).tlb, e.colour ≠ BitVec.ofNat 8 c)) ∧
      exec (.frozenSetChange v) s = .next (if (q.st = .locked ∨ q.st = .run) ∧ s.sealedError q.ctxid = true then
        s.setVf v.toNat { q with st := .error } else s)) ∧
    (∀ (k : Nat) (x : Stop) (c : Scrub) (rest : List Scrub), s.trust.stops[k]? = some x → x.scrubs = c :: rest →
      (s.scrubReady c = false → s.turn (.scrub k) = .next s) ∧
      (s.scrubReady c = true → ∃ t body, s.turn (.scrub k) = .next t ∧
        (t.colour c.colour).key = 0 ∧ (t.colour c.colour).keyed = false ∧
        (let dest := if (s.vf c.was.vf.toNat).sess then some c.was.vf.toNat else none
         let reply := if x.managed then TrustMsg.answer true else .tdisp x.vf true []
         t.trust.outbox = s.trust.outbox ++ [.receipt dest body] ++ (if rest = [] then [reply] else [])) ∧
        (rest ≠ [] → t.trust.stops = s.trust.stops.set k { x with scrubs := rest } ∧ t.vfs = s.vfs) ∧
        (rest = [] → t.trust.stops = s.trust.stops.eraseIdx k ∧ (t.vf x.vf).st = .unlocked))) ∧
    ∀ (m : Spdm),
      let q := s.vf m.vf.toNat
      let peer : Peer := { port := m.port.toNat, kind := m.kind.toNat, vf := m.vf.toNat }
      let taken := m.ver = 1 ∧ m.kind.toNat ≤ 2 ∧ m.rsvZero = true ∧ m.lenOk = true ∧ (m.kind = 2 → m.vf = 0)
      let carried := if m.kind = 2 then s.portUp m.port.toNat = true else s.portAuth m.port.toNat = true
      let idle := s.booting = false
      let mine := fun (h : Handshake) => h.peer = { peer with kind := if m.kind = 2 then 2 else 0 }
      let signed := fun (b : List Byte) => leBytes 2420 (Config.sign (Sp.get [] s.trust.keys m.slot.toNat) b).toNat
      let all := [Instr.getVersion m, .getCapabilities m, .negotiateAlgorithms m, .getDigests m, .getCertificate m, .challenge m,
        .getMeasurements m, .keyExchange m, .finish m, .heartbeat m, .keyUpdate m, .endSession m, .setCertificate m, .getCsr m,
        .chunkSend m, .chunkGet m, .vendorDefinedRequest m]
      let sends := fun (i : Instr) (msg : TrustMsg) (slot : Option Nat) (P : State → Prop) => ∃ t, exec i s = .next t ∧ P t ∧
        t.trust.pending = s.trust.pending ++ [{ slot := slot, msg := msg }]
      let ok := fun (i : Instr) (req : SpdmReq) (slot : Option Nat) (body : List Byte) => sends i (.response peer req body) slot
      let bad := fun (i : Instr) (req : SpdmReq) (e : SpdmError) => sends i (.error peer req e) none fun t => t.vfs = s.vfs ∧ t.links = s.links
      let chain := Sp.get [] s.trust.chains m.slot.toNat
      let digest := leBytes 32 (Config.sha3 chain).toNat
      let same := fun (t : State) => t.vfs = s.vfs ∧ t.links = s.links ∧ t.trust.chains = s.trust.chains
      let waits := (s.trust.pending.any fun p => p.slot == some m.slot.toNat) || s.trust.deferred.any fun d => d.1 == m.slot.toNat
      (¬(taken ∧ carried) → ∀ i ∈ all, exec i s = .next s) ∧
      (taken → carried → ¬idle → ∀ i ∈ all, ∃ req, bad i req .busy) ∧
      (taken → carried → idle → m.kind.toNat ≤ 1 → q.en = false → ∀ i ∈ all, ∃ req, bad i req .invalidRequest) ∧
      (taken → carried → idle → m.kind = 2 ∨ q.en = true →
        ok (.getVersion m) .getVersion none [] same ∧ ok (.getCapabilities m) .getCapabilities none [] same ∧
        (m.kind ≠ 0 → ok (.heartbeat m) .heartbeat none [] same ∧ ok (.keyUpdate m) .keyUpdate none [] same) ∧
        (m.kind = 0 → bad (.heartbeat m) .heartbeat .invalidRequest ∧ bad (.keyUpdate m) .keyUpdate .invalidRequest ∧
          bad (.endSession m) .endSession .invalidRequest) ∧
        ok (.chunkSend m) .chunkSend none [] same ∧ ok (.chunkGet m) .chunkGet none [] same ∧
        ok (.getDigests m) .getDigests (some m.slot.toNat) digest same ∧ ok (.getCertificate m) .getCertificate (some m.slot.toNat) chain same ∧
        ok (.challenge m) .challenge (some m.slot.toNat) (digest ++ signed (digest ++ m.body)) same ∧
        (∃ body, ok (.getMeasurements m) .getMeasurements (some m.slot.toNat) body same) ∧
        (offersBoth m.body = true → ok (.negotiateAlgorithms m) .negotiateAlgorithms none algorithms same) ∧
        (offersBoth m.body = false → bad (.negotiateAlgorithms m) .negotiateAlgorithms .unsupportedRequest) ∧
        (let c := leBytes 1088 (Config.ciphertext m.body s.free).toNat
         let mg := Config.verifies Config.managementAnchor m.body
         (m.body.length ≠ 1184 → bad (.keyExchange m) .keyExchange .invalidRequest) ∧
         (m.body.length = 1184 → m.kind ≠ 2 ∨ mg = false ∨ s.trust.mgmt = none ∧ (∀ h ∈ s.trust.hands, h.mgmt = false) →
          ok (.keyExchange m) .keyExchange (some m.slot.toNat) (c ++ signed c) fun t => same t ∧ ∃ h ∈ t.trust.hands, mine h ∧
            h.mgmt = (decide (m.kind = 2) && mg) ∧ h.secret = Config.sharedSecret m.body s.free) ∧
         (m.body.length = 1184 → m.kind = 2 → mg = true → s.trust.mgmt ≠ none ∨ (∃ h ∈ s.trust.hands, h.mgmt = true) →
          bad (.keyExchange m) .keyExchange .busy)) ∧
        ((∀ h ∈ s.trust.hands, ¬mine h) → bad (.finish m) .finish .invalidRequest) ∧
        (m.kind ≠ 2 → (∃ h ∈ s.trust.hands, mine h) → ok (.finish m) .finish none [] fun t => t.vf m.vf.toNat = { q with sess := true } ∧
          ∀ h ∈ t.trust.hands, ¬mine h) ∧
        (∀ h, m.kind = 2 → s.trust.hands = [h] → mine h →
          let anchor := if h.mgmt then some Config.managementAnchor else s.trust.anchor
          let good := ∃ a, anchor = some a ∧ Config.verifies a m.body = true
          (¬good → bad (.finish m) .finish .invalidRequest) ∧
          (good → h.mgmt = true → ok (.finish m) .finish none [] fun t => t.trust.mgmt = some m.port.toNat ∧ t.links = s.links) ∧
          (good → h.mgmt = false → s.link m.port.toNat = .trained →
            ok (.finish m) .finish none [] fun t => t.link m.port.toNat = .auth ∧ t.trust.mgmt = s.trust.mgmt ∧
              ∀ d, d < 64 → let k := t.domain m.port.toNat d
                (if k.tx then k.key1 else k.key0) = some (Config.linkKey h.secret d))) ∧
        (m.kind = 1 → ok (.endSession m) .endSession none [] fun t => t.vf m.vf.toNat =
          { q with sess := false, st := if q.st = .locked ∨ q.st = .run then .error else q.st }) ∧
        (m.kind = 2 → s.trust.mgmt = some m.port.toNat → ok (.endSession m) .endSession none [] fun t => t.trust.mgmt = none ∧
          t.links = s.links) ∧
        (m.kind = 2 → s.trust.mgmt ≠ some m.port.toNat → s.link m.port.toNat = .auth →
          ok (.endSession m) .endSession none [] fun t => t.link m.port.toNat = .trained) ∧
        (m.slot = 0 → bad (.setCertificate m) .setCertificate .invalidRequest) ∧
        (m.slot ≠ 0 → waits = false → ok (.setCertificate m) .setCertificate none [] fun t =>
          Sp.get [] t.trust.chains m.slot.toNat = m.body) ∧
        (m.slot ≠ 0 → waits = true → ok (.setCertificate m) .setCertificate none [] fun t => t.trust.chains = s.trust.chains ∧
          t.trust.deferred = s.trust.deferred ++ [(m.slot.toNat, false, m.body)]) ∧
        (m.body = [] → ok (.getCsr m) .getCsr (some m.slot.toNat) (Sp.get [] s.trust.keys m.slot.toNat) same) ∧
        (m.body ≠ [] → m.slot = 0 → bad (.getCsr m) .getCsr .invalidRequest) ∧
        (m.body ≠ [] → m.slot ≠ 0 → let k := leBytes 1312 (Config.newKey s.free).toNat
          ok (.getCsr m) .getCsr none k fun t => if waits then t.trust.deferred = s.trust.deferred ++ [(m.slot.toNat, true, k)]
            else Sp.get [] t.trust.keys m.slot.toNat = k) ∧
        (let inside := if m.kind = 2 then s.trust.mgmt = some m.port.toNat else m.kind = 1 ∧ q.sess = true
         (inside → ∃ t, exec (.vendorDefinedRequest m) s = .next t ∧ same t ∧ t.trust.calls = s.trust.calls ++ [peer] ∧
          t.trust.pending = s.trust.pending) ∧
         (¬inside → bad (.vendorDefinedRequest m) .vendorDefined .invalidRequest)))

/-! ## The whole machine (02, 04, 19, 28) -/

/-- 02 R24, R27, R35, Tables 02.5, 02.9, 02.11, 02.12, 02.14: the words of every well-formed instruction that has words decode to it: no
bit of an operand is lost. -/
def Obligations.DecodeEncodeRoundTrip : Prop :=
  ∀ i : Instr, encode i ≠ .none → i.wf = true → decodeWords (encode i) = .ok i

/-- 02 R24 to R35, worked out from the tables: the words of an ADD, a CMP, an ADDI, a MOVHI, a PCMP, an FMA, a BR, a LOOP, an indexed
LEA and a VRED decode to them. -/
def Obligations.WordsDecode : Prop :=
  decodeCore 0x1001C82400021000 = .ok (.add
    { g := 0, gs := false, d := 7, a := 8, b := 9, ty := 4, rm := 0, sat := true, func := 0, c := 0 }) ∧
  decodeCore 0x1E00C41400230000 = .ok (.cmp
    { g := 0, gs := false, d := 3, a := 4, b := 5, ty := 6, rm := 0, sat := false, func := 2, c := 0 }) ∧
  decodeCore 0x200104FFFFFFFFF8 = .ok (.addi { g := 0, gs := false, d := 4, a := 4, imm := 0xFFFFFFFFF8 }) ∧
  decodeCore 0x2801450000000012 = .ok (.movhi { g := 0, gs := false, d := 5, a := 5, imm := 0x12 }) ∧
  decodeCore 0x2A00851800420000 = .ok (.pcmp
    { g := 0, gs := false, d := 2, a := 5, b := 6, ty := 4, rm := 0, sat := false, func := 4, c := 0 }) ∧
  decodeCore 0x34028B30D0040000 = .ok (.fma
    { g := 0, gs := false, d := 10, a := 11, b := 12, ty := 8, rm := 0, sat := false, func := 0, c := 13 }) ∧
  decodeCore 0x02000003FFFFFFFD = .ok (.br { g := 0, gs := false, d := 0, a := 0, b := 0, off := 0x3FFFFFFFD }) ∧
  decodeCore 0x070009000000000C = .ok (.loop { g := 0, gs := false, d := 0, a := 9, b := 0, off := 12 }) ∧
  decodeCore 0x2901461E00300010 = .ok (.lea
    { g := 0, gs := false, d := 5, a := 6, b := 7, ix := true, scope := 0, ord := 0, ty := 0, sh := 3, func := 0, off := 16 }) ∧
  decodeCore 0x5702460004004000 = .ok (.vred
    { g := 0, gs := false, d := 9, a := 6, b := 0, c := 0, m := 2, z := false, func := 0, ty := 8, rm := 0, sat := false, imm := 0 })

/-- 02 R29 to R31, 04 R57: with nothing on the agenda, a step of a core with an open block runs the instruction its next word decodes to,
behind its guard and with the block past the word; a step of an element runs the operation its slot holds; a turn of the agenda that names
an event runs it. -/
def Obligations.StepRunsDecodedInstruction : Prop :=
  ∀ (s : State) (i : Instr) (w : W64),
    let g := wordGuard w
    let c := s.me
    (s.agenda = [] → s.powered = true → s.agent = .core → c.run ≠ .reset → c.run ≠ .stopped → c.pendTrap = none → c.rreq = none →
      c.walkWait = false → c.inTrap = false → c.blk.isOpen = true → c.blk.closing = false → c.blk.wait = .none →
      c.irq = none ∨ s.reserving s.cur = false → c.blk.words[c.blk.idx]? = some w → decodeCore w = .ok i →
      (s.guard g.1 g.2 = true → s.badSource g.1 i = none → s.ready i = true → step s = exec i (s.begun i true)) ∧
      (s.guard g.1 g.2 = false → Sp.get false s.w.bad (128 + g.1.toNat) = false → step s = exec i (s.begun i false)) ∧
      ((s.begun i true).blk.idx = c.blk.idx + 1 ∧ (s.begun i true).w = s.w ∧ (s.begun i true).blk.held = c.blk.held ∧
        (c.blk.remoteAt ≠ c.blk.idx + 1 → (s.begun i true).blk.remote = []))) ∧
    (s.agenda = [] → s.powered = true → s.agent = .elem →
      elemInstr (s.slot s.curElem.toNat s.curSlot.toNat).op.toNat (s.slot s.curElem.toNat s.curSlot.toNat).cfg = some i →
      step s = exec i s) ∧
    (∀ rest, s.agenda = .event i :: rest → s.powered = true → i.opcode = 0 → step s = exec i { s with agenda := rest })

/-- 02 R25, 04 R68: the guard is true when bit 0 of p[g] XOR gs is 1, where p0 reads all ones; guard 0 with sense 1 is no instruction;
an instruction whose guard is false has no effect at all. -/
def Obligations.FalseGuardHasNoEffect : Prop :=
  ∀ (w : W64) (i : Instr) (s : State),
    (∀ g gs, s.guard g gs = ((s.w.getP g).getLsbD 0 ^^ gs)) ∧ s.w.getP 0 = 0xFFFFFFFF ∧
    (w.extractLsb' 52 4 = 1 → ∃ e, decodeCore w = .error e) ∧
    (decodeCore w = .ok i → s.guard (w.extractLsb' 53 3) (w.getLsbD 52) = false → exec i s = .next s)

/-- 02 R31, R34, 04 R60, R61, R65, R67, 19 R279: a block is read and checked whole, in address order, before any instruction of it runs.
The first word that fails decides: its own fault where it cannot be fetched; code 0x01 with its address where it does not decode, or
stands where its kind may not; code 0x02 where it needs S and the core is at U. A word that passes hands the verdict to the words behind it,
judged by what the block then holds: one exit, wait or limited effect more. -/
def Obligations.BlockIsCheckedWhole : Prop :=
  ∀ (fetch : Nat → Except XF W64) (lvlS rule : Bool) (q : Seen) (va n : Nat),
    (∀ l, checkWords fetch lvlS rule q va n = .ok l → l.length = n ∧ ∀ (k : Nat) (w : W64), l[k]? = some w →
      fetch (va + 8 * k) = .ok w ∧ ∃ i, decodeCore w = .ok i ∧ (i.priv = true → lvlS = true)) ∧
    (∀ code lvl v, checkWords fetch lvlS rule q va n = .error (.fault code lvl v) →
      ∃ k, k < n ∧ (fetch (va + 8 * k) = .error (.fault code lvl v) ∨
        ((code = 1 ∨ code = 2) ∧ lvl = 0 ∧ v = BitVec.ofNat 64 (va + 8 * k)))) ∧
    (∀ e, fetch va = .error e → checkWords fetch lvlS rule q va (n + 1) = .error e) ∧
    (∀ w, fetch va = .ok w →
      (∀ d, decodeCore w = .error d → checkWords fetch lvlS rule q va (n + 1) = .error (.fault 1 0 (BitVec.ofNat 64 va))) ∧
      (∀ i, decodeCore w = .ok i → q.allows rule i = false →
        checkWords fetch lvlS rule q va (n + 1) = .error (.fault 1 0 (BitVec.ofNat 64 va))) ∧
      (∀ i, decodeCore w = .ok i → q.allows rule i = true → i.priv = true → lvlS = false →
        checkWords fetch lvlS rule q va (n + 1) = .error (.fault 2 0 (BitVec.ofNat 64 va))) ∧
      (∀ i, decodeCore w = .ok i → q.allows rule i = true → i.priv = false ∨ lvlS = true →
        (∀ e, checkWords fetch lvlS rule (q.next i) (va + 8) n = .error e → checkWords fetch lvlS rule q va (n + 1) = .error e) ∧
        (∀ l, checkWords fetch lvlS rule (q.next i) (va + 8) n = .ok l → checkWords fetch lvlS rule q va (n + 1) = .ok (w :: l)))) ∧
    (∀ i, (q.next i).exits = q.exits + (if isExit i = true then 1 else 0) ∧ (q.next i).waits = q.waits + (if isWait i = true then 1 else 0) ∧
      ∀ kind, (q.next i).kinds.count kind = q.kinds.count kind + (if (limited i).map (·.1) = some kind then 1 else 0)) ∧
    ∀ i, (isExit i = true → rule = true → q.allows rule i = false) ∧ (isExit i = true → 2 ≤ q.exits → q.allows rule i = false) ∧
      (isExit i = false → 1 ≤ q.exits ∨ 1 ≤ q.waits → q.allows rule i = false) ∧
      (∀ kind most, limited i = some (kind, most) → most ≤ q.kinds.count kind → q.allows rule i = false)

/-- 04 R62, R64, R67, R72, 19 R279, R298: a block that has run its instructions commits, once there is room for its held effects and its
successor holds a header: its registers become the core's, its held effects are to be delivered, and the core goes on at the exit's
target, at the fall-through address, or, under a loop whose body ends there, at its beginning until the count is spent. A successor that
fails the check discards the block. SYSC commits, and traps with code 0x06, its number and the fall-through address when the effects are
delivered (should the handler not be readable, the core stops: 19 R284). HALT enters dispatch where the bag is enabled and stops the core
otherwise, at the fall-through address. ERET restores the level and the interrupt enable, and goes on in dispatch or at tblock, where a
rule body's header is legal only with tstat.pair. A rule body returns to dispatch, unless a principal that it did not join is left
(`State.wireLeft`): that raises 0x3F and discards it. -/
def Obligations.BlockCommits : Prop :=
  ∀ (s : State) (target : W64) (r : Regs),
    let c := s.me
    let b := c.blk
    let ft := b.hdr + BitVec.ofNat 64 (8 * (b.words.length + 1))
    let ends := b.w.lact = true ∧ ft = b.w.lend
    let chosen :=
      (b.exit = .goto target ∧ r = b.w) ∨
      (b.exit = .none ∧ ¬ends ∧ target = ft ∧ r = b.w) ∨
      (b.exit = .none ∧ ends ∧ 1 < b.w.lcnt.toNat ∧ target = b.w.lbeg ∧ r = { b.w with lcnt := b.w.lcnt - 1 }) ∨
      (b.exit = .none ∧ ends ∧ b.w.lcnt.toNat ≤ 1 ∧ target = b.w.lend ∧ r = { b.w with lcnt := 0, lact := false })
    let counted := (¬ends ∧ r = b.w) ∨ (ends ∧ 1 < b.w.lcnt.toNat ∧ r = { b.w with lcnt := b.w.lcnt - 1 }) ∨
      (ends ∧ b.w.lcnt.toNat ≤ 1 ∧ r = { b.w with lcnt := 0, lact := false })
    let commits := fun (P : Core → Prop) => ∃ t, step s = .next t ∧ P t.me ∧ t.me.blk.closing = true ∧ t.me.blk.held = b.held ∧
      t.me.blk.next = ft ∧ (∀ key a, t.readHome key a = s.readHome key a) ∧ ∀ n, n ≠ s.cur → t.core n = s.core n
    let fails := fun (e : Except XF W64) => ∀ code lvl v, e = .error (.fault code lvl v) → step s = .next (s.faultAt s.cur code lvl v)
    let st := b.w.tstat
    let restored := fun (m : Core) => m.lvlS = st.getLsbD 2 ∧ m.regs.tstat.getLsbD 0 = st.getLsbD 1 ∧
      (∀ j, 0 < j → m.regs.tstat.getLsbD j = st.getLsbD j) ∧ { m.regs with tstat := st } = b.w
    let back := (s.setMe { c with lvlS := st.getLsbD 2 }).checkSuccessor s.cur b.w.tblock (st.getLsbD 4)
    s.agenda = [] → s.powered = true → s.agent = .core → c.run = .running → c.pendTrap = none → c.rreq = none → c.walkWait = false →
    c.inTrap = false → b.isOpen = true → b.wait = .none →
    (b.closing = false → b.idx = b.words.length → b.granted = true ∨ s.heldRoom s.cur = true →
      (b.rule = false →
        (chosen → (∀ h, s.checkSuccessor s.cur target false = .ok h → commits fun m => m.regs = r ∧ m.pc = target ∧ m.run = .running) ∧
          fails (s.checkSuccessor s.cur target false)) ∧
        (∀ k, b.exit = .sysc k → commits fun m => m.regs = b.w ∧ m.pc = ft ∧ m.run = .running ∧ m.blk.exit = .sysc k) ∧
        (b.exit = .halt → c.bagEn = true → commits fun m => m.regs = b.w ∧ m.run = .dispatch ∧ m.inDisp = true) ∧
        (b.exit = .halt → c.bagEn = false → commits fun m => m.regs = b.w ∧ m.run = .halted ∧ m.pc = ft) ∧
        (b.exit = .eret → st.getLsbD 3 = true → st.getLsbD 4 = false →
          commits fun m => restored m ∧ m.run = .dispatch ∧ m.inDisp = true) ∧
        (b.exit = .eret → st.getLsbD 3 = false ∨ st.getLsbD 4 = true →
          (∀ h, back = .ok h → commits fun m => restored m ∧ m.run = .running ∧ m.pc = b.w.tblock ∧ m.inDisp = headerRule h) ∧ fails back)) ∧
      (b.rule = true →
        (s.wireLeft = none → counted → commits fun m => m.regs = r ∧ m.run = .dispatch) ∧
        (∀ p, s.wireLeft = some p → step s = .next (s.faultAt s.cur 0x3F 0 (BitVec.ofNat 64 p))))) ∧
    (∀ k, b.closing = true → b.held = [] → b.rule = false → b.exit = .sysc k → s.outstanding s.cur = false →
      ∃ t, step s = .next t ∧ (t.me.run ≠ .stopped → t.me.regs.tcause = 6 ∧ t.me.regs.tval = BitVec.ofNat 64 k ∧
        t.me.regs.tblock = b.next ∧ t.me.regs.tstat.getLsbD 0 = false ∧ t.me.regs.tstat.getLsbD 1 = c.regs.tstat.getLsbD 0 ∧
        t.me.regs.tstat.getLsbD 2 = c.lvlS ∧ t.me.regs.tstat.getLsbD 3 = c.inDisp ∧ t.me.lvlS = true ∧ t.me.pc = c.regs.tvec))

/-- 28 R385, 26 R359, R366, 06 R97, 04 R54, R55, 19 Table 19.1: after a cold reset every core is held in reset with registers of zero and no
owner, no partition, function or colour is valid, every port is untrained, memory lists nothing, so every byte of the floor, the crowns
and the pads reads as zero, and the memory has its canonical form. Level S and pc 0 of a core that has not started are the model's choice
(log 3). -/
def Obligations.ResetState : Prop :=
  let s := State.reset
  (∀ n, (s.core n).run = .reset ∧ (s.core n).owner = 0 ∧ (s.core n).tpend = 0 ∧ (∀ r, (s.core n).regs.getX r = 0) ∧
    (s.core n).regs.tcause = 0 ∧ (s.core n).regs.tval = 0 ∧ (s.core n).regs.tblock = 0 ∧ (s.core n).regs.tstat = 0 ∧
    (s.core n).regs.tvec = 0 ∧ (s.core n).regs.tscr = 0 ∧ (s.core n).regs.tmask = 0 ∧ (s.core n).regs.lact = false ∧
    (s.core n).mask = 0 ∧ (s.core n).bagctl = 0) ∧
  (∀ p, (s.part p).valid = false) ∧ (∀ c, (s.colour c).valid = false ∧ (s.colour c).keyed = false) ∧
  (∀ v, (s.vf v).st = .unlocked ∧ (s.vf v).sess = false) ∧ (∀ p, s.link p = .untrained) ∧ (∀ p, s.lpermOf p = 0) ∧
  (∀ h, (s.region h).st = .empty) ∧ (∀ k, (s.chanEnd k).st = .closed) ∧
  (∀ h, space h ≠ .gddr → s.readHome 0 h = 0) ∧ (∀ h, s.tag h = false) ∧ Mem.wf s.mem = true

/-- The memory keeps its canonical form: in rising order of address, no byte twice, and none listed that reads as an unlisted one. Every
step keeps that, whatever runs. The list is the model's own way to hold memory (log 2). -/
def Obligations.StepKeepsMemoryCanonical : Prop :=
  ∀ (s t : State), Mem.wf s.mem = true → step s = .next t → Mem.wf t.mem = true
end

