-- ==== Sys2Proof/Laws/State.lean ====
section
/-!
SUPPORT. What reading a map, the memory and every field of the state gives after each of the plain updates: maps (`Sp`), the
canonical memory (`Mem`), and one lemma per field for the updates of a core, its block, its working registers and its held effects.
-/
namespace Sys2Proof.Machine

/-! ## Maps -/

@[simp] theorem Sp.find?_nil {α : Type} (k : Nat) : Sp.find? ([] : Sparse α) k = none := rfl

theorem Sp.find?_erase {α : Type} (m : Sparse α) (k j : Nat) : Sp.find? (Sp.erase m k) j = if j = k then none else Sp.find? m j := by
  induction m with
  | nil => simp [Sp.erase]
  | cons c m ih =>
    obtain ⟨i, a⟩ := c
    simp only [Sp.erase] at ih
    by_cases hik : i = k
    · subst hik
      simp only [Sp.erase, bne_self_eq_false, Bool.false_eq_true, not_false_eq_true, List.filter_cons_of_neg, ih, Sp.find?]
      split <;> rename_i h
      · rfl
      · rw [if_neg (Ne.symm h)]
    · have : (i != k) = true := by simpa using hik
      simp only [Sp.erase, List.filter_cons, this, if_true, Sp.find?, ih]
      split <;> rename_i h
      · subst h; simp [hik]
      · rfl

theorem Sp.find?_ins {α : Type} (m : Sparse α) (k j : Nat) (a : α) (h : Sp.find? m k = none) :
    Sp.find? (Sp.ins m k a) j = if j = k then some a else Sp.find? m j := by
  induction m with
  | nil =>
    by_cases hj : j = k
    · subst hj; simp [Sp.ins, Sp.find?]
    · simp [Sp.ins, Sp.find?, hj, Ne.symm hj]
  | cons c m ih =>
    obtain ⟨i, b⟩ := c
    have hik : i ≠ k := by intro e; subst e; simp [Sp.find?] at h
    have h' : Sp.find? m k = none := by simpa [Sp.find?, hik] using h
    simp only [Sp.ins]
    split
    · by_cases hj : j = k
      · subst hj; simp [Sp.find?]
      · simp [Sp.find?, hj, Ne.symm hj]
    · simp only [Sp.find?, ih h']
      by_cases hj : j = k
      · subst hj; simp [hik]
      · simp [hj]

theorem Sp.find?_put {α : Type} (m : Sparse α) (k j : Nat) (a : α) :
    Sp.find? (Sp.put m k a) j = if j = k then some a else Sp.find? m j := by
  rw [Sp.put, Sp.find?_ins _ _ _ _ (by simp [Sp.find?_erase]), Sp.find?_erase]
  split <;> rfl

theorem Sp.get_put {α : Type} (d : α) (m : Sparse α) (k j : Nat) (a : α) :
    Sp.get d (Sp.put m k a) j = if j = k then a else Sp.get d m j := by
  simp only [Sp.get, Sp.find?_put]
  split <;> rfl

theorem Sp.get_erase {α : Type} (d : α) (m : Sparse α) (k j : Nat) :
    Sp.get d (Sp.erase m k) j = if j = k then d else Sp.get d m j := by
  simp only [Sp.get, Sp.find?_erase]
  split <;> rfl

theorem Sp.get_set {α : Type} [DecidableEq α] (d : α) (m : Sparse α) (k j : Nat) (a : α) :
    Sp.get d (Sp.set d m k a) j = if j = k then a else Sp.get d m j := by
  simp only [Sp.set]
  split
  · rename_i h; rw [Sp.get_erase]; split <;> simp [h]
  · exact Sp.get_put ..

@[simp] theorem Sp.get_put_self {α : Type} (d : α) (m : Sparse α) (k : Nat) (a : α) : Sp.get d (Sp.put m k a) k = a := by
  simp [Sp.get_put]
@[simp] theorem Sp.get_set_self {α : Type} [DecidableEq α] (d : α) (m : Sparse α) (k : Nat) (a : α) :
    Sp.get d (Sp.set d m k a) k = a := by simp [Sp.get_set]

theorem Sp.erase_erase {α : Type} (m : Sparse α) (k : Nat) : Sp.erase (Sp.erase m k) k = Sp.erase m k := by
  simp [Sp.erase]

theorem Sp.erase_ins {α : Type} (m : Sparse α) (k : Nat) (a : α) : Sp.erase (Sp.ins m k a) k = Sp.erase m k := by
  induction m with
  | nil => simp [Sp.ins, Sp.erase]
  | cons c m ih =>
    obtain ⟨i, b⟩ := c
    simp only [Sp.ins]
    split
    · simp [Sp.erase]
    · simp only [Sp.erase] at ih
      simp only [Sp.erase, List.filter_cons, ih]

/-- The later of two writes of one key stays. -/
theorem Sp.put_put {α : Type} (m : Sparse α) (k : Nat) (a b : α) : Sp.put (Sp.put m k a) k b = Sp.put m k b := by
  simp only [Sp.put, Sp.erase_ins, Sp.erase_erase]

/-! ## The canonical form -/

theorem Sp.all_ins {α : Type} (p : Nat × α → Bool) (m : Sparse α) (k : Nat) (a : α) :
    (Sp.ins m k a).all p = (p (k, a) && m.all p) := by
  induction m with
  | nil => simp [Sp.ins]
  | cons c m ih =>
    obtain ⟨i, b⟩ := c
    simp only [Sp.ins]
    split
    · rfl
    · rw [List.all_cons, ih, List.all_cons, ← Bool.and_assoc, ← Bool.and_assoc, Bool.and_comm (p (i, b))]

theorem Sp.all_filter {α : Type} (p q : Nat × α → Bool) (m : Sparse α) (h : m.all p = true) : (m.filter q).all p = true := by
  simp only [List.all_eq_true] at h ⊢
  exact fun c hc => h c (List.mem_filter.1 hc).1

theorem Sp.sorted_filter {α : Type} (q : Nat × α → Bool) (m : Sparse α) (h : Sp.sorted m = true) :
    Sp.sorted (m.filter q) = true := by
  induction m with
  | nil => rfl
  | cons c m ih =>
    obtain ⟨i, b⟩ := c
    simp only [Sp.sorted, Bool.and_eq_true] at h
    simp only [List.filter_cons]
    split
    · simp only [Sp.sorted, Bool.and_eq_true]
      exact ⟨ih h.1, Sp.all_filter _ _ _ h.2⟩
    · exact ih h.1

theorem Sp.sorted_erase {α : Type} (m : Sparse α) (k : Nat) (h : Sp.sorted m = true) : Sp.sorted (Sp.erase m k) = true :=
  Sp.sorted_filter _ m h

theorem Sp.sorted_ins {α : Type} (m : Sparse α) (k : Nat) (a : α) (h : Sp.sorted m = true) (hk : Sp.find? m k = none) :
    Sp.sorted (Sp.ins m k a) = true := by
  induction m with
  | nil => rfl
  | cons c m ih =>
    obtain ⟨i, b⟩ := c
    have hik : i ≠ k := by intro e; subst e; simp [Sp.find?] at hk
    have h' : Sp.find? m k = none := by simpa [Sp.find?, hik] using hk
    simp only [Sp.sorted, Bool.and_eq_true] at h
    simp only [Sp.ins]
    split
    · rename_i hlt
      simp only [Sp.sorted, Bool.and_eq_true, List.all_cons, decide_eq_true_eq]
      refine ⟨h, hlt, ?_⟩
      simp only [List.all_eq_true, decide_eq_true_eq] at h ⊢
      exact fun c hc => Nat.lt_trans hlt (h.2 c hc)
    · rename_i hge
      simp only [Sp.sorted, Bool.and_eq_true, Sp.all_ins, decide_eq_true_eq]
      exact ⟨ih h.1 h', by omega, h.2⟩

theorem Sp.sorted_put {α : Type} (m : Sparse α) (k : Nat) (a : α) (h : Sp.sorted m = true) : Sp.sorted (Sp.put m k a) = true :=
  Sp.sorted_ins _ _ _ (Sp.sorted_erase _ _ h) (by simp [Sp.find?_erase])

/-! ## Memory -/

/-- A byte reads as it was written, and every other byte as before. -/
theorem Mem.read_write (m : Memory) (a b : Nat) (v : Byte) :
    Mem.read (Mem.write m a v) b = if b = a then v else Mem.read m b := Sp.get_set ..

/-- A write keeps the canonical form. -/
theorem Mem.write_wf (m : Memory) (a : Nat) (v : Byte) (h : Mem.wf m = true) : Mem.wf (Mem.write m a v) = true := by
  simp only [Mem.wf, Bool.and_eq_true] at h ⊢
  simp only [Mem.write, Sp.set]
  split
  · exact ⟨Sp.sorted_erase _ _ h.1, Sp.all_filter _ _ _ h.2⟩
  · rename_i hv
    refine ⟨Sp.sorted_put _ _ _ h.1, ?_⟩
    rw [Sp.put, Sp.all_ins]
    simp only [Bool.and_eq_true, bne_iff_ne, ne_eq]
    exact ⟨hv, Sp.all_filter _ _ _ h.2⟩

/-- Forgetting bytes keeps the canonical form. -/
theorem Mem.filter_wf (m : Memory) (q : Nat × Byte → Bool) (h : Mem.wf m = true) : Mem.wf (m.filter q) = true := by
  simp only [Mem.wf, Bool.and_eq_true] at h ⊢
  exact ⟨Sp.sorted_filter _ _ h.1, Sp.all_filter _ _ _ h.2⟩

theorem Mem.writeN_wf (bs : List Byte) (m : Memory) (a : Nat) (h : Mem.wf m = true) : Mem.wf (Mem.writeN m a bs) = true := by
  induction bs generalizing m a with
  | nil => exact h
  | cons b t ih => exact ih _ _ (Mem.write_wf _ _ _ h)

/-- Memory with nothing listed. -/
theorem Mem.wf_nil : Mem.wf [] = true := rfl

/-- The memory of the state after reset has the canonical form. -/
theorem State.reset_mem_wf : Mem.wf State.reset.mem = true := rfl

/-! ## The state's fields after an update -/

theorem State.core_setCore (s : State) (n m : Nat) (c : Core) : (s.setCore n c).core m = if m = n then c else s.core m :=
  Sp.get_put ..
@[simp] theorem State.core_setCore_self (s : State) (n : Nat) (c : Core) : (s.setCore n c).core n = c := by
  simp [State.core_setCore]
@[simp] theorem State.me_setMe (s : State) (c : Core) : (s.setMe c).me = c := State.core_setCore_self ..
@[simp] theorem State.blk_setBlk (s : State) (b : Blk) : (s.setBlk b).blk = b := by simp [State.blk, State.setBlk]
theorem State.setCore_setCore (s : State) (n : Nat) (c d : Core) : (s.setCore n c).setCore n d = s.setCore n d := by
  simp only [State.setCore, Sp.put_put]
theorem State.setMe_setMe (s : State) (c d : Core) : (s.setMe c).setMe d = s.setMe d := State.setCore_setCore ..
theorem State.setBlk_setBlk (s : State) (b d : Blk) : (s.setBlk b).setBlk d = s.setBlk d := by
  simp only [State.setBlk, State.me_setMe, State.setMe_setMe]
theorem State.hold_hold (s : State) (h k : Held) : (s.hold h).hold k = s.holdAll [h, k] := by
  simp only [State.hold, State.holdAll, State.setBlk_setBlk, State.blk_setBlk, List.append_assoc, List.cons_append, List.nil_append]
theorem State.setW_setW (s : State) (r q : Regs) : (s.setW r).setW q = s.setW q := by
  simp only [State.setW, State.setBlk_setBlk, State.blk_setBlk]
@[simp] theorem State.w_setW (s : State) (r : Regs) : (s.setW r).w = r := by
  show (s.setBlk _).blk.w = r; simp

/-! `setCore` writes only the core's entry. -/

@[simp] theorem State.lacks_setCore (s : State) (n : Nat) (c : Core) : (s.setCore n c).lacks = s.lacks := rfl
@[simp] theorem State.mem_setCore (s : State) (n : Nat) (c : Core) : (s.setCore n c).mem = s.mem := rfl
@[simp] theorem State.marks_setCore (s : State) (n : Nat) (c : Core) : (s.setCore n c).marks = s.marks := rfl
@[simp] theorem State.fe_setCore (s : State) (n : Nat) (c : Core) : (s.setCore n c).fe = s.fe := rfl
@[simp] theorem State.tags_setCore (s : State) (n : Nat) (c : Core) : (s.setCore n c).tags = s.tags := rfl
@[simp] theorem State.banks_setCore (s : State) (n : Nat) (c : Core) : (s.setCore n c).banks = s.banks := rfl
@[simp] theorem State.bankOps_setCore (s : State) (n : Nat) (c : Core) : (s.setCore n c).bankOps = s.bankOps := rfl
@[simp] theorem State.presOps_setCore (s : State) (n : Nat) (c : Core) : (s.setCore n c).presOps = s.presOps := rfl
@[simp] theorem State.token_setCore (s : State) (n : Nat) (c : Core) : (s.setCore n c).token = s.token := rfl
@[simp] theorem State.walk_setCore (s : State) (n : Nat) (c : Core) : (s.setCore n c).walk = s.walk := rfl
@[simp] theorem State.l2_setCore (s : State) (n : Nat) (c : Core) : (s.setCore n c).l2 = s.l2 := rfl
@[simp] theorem State.ltags_setCore (s : State) (n : Nat) (c : Core) : (s.setCore n c).ltags = s.ltags := rfl
@[simp] theorem State.chans_setCore (s : State) (n : Nat) (c : Core) : (s.setCore n c).chans = s.chans := rfl
@[simp] theorem State.retired_setCore (s : State) (n : Nat) (c : Core) : (s.setCore n c).retired = s.retired := rfl
@[simp] theorem State.chanHeld_setCore (s : State) (n : Nat) (c : Core) : (s.setCore n c).chanHeld = s.chanHeld := rfl
@[simp] theorem State.disable_setCore (s : State) (n : Nat) (c : Core) : (s.setCore n c).disable = s.disable := rfl
@[simp] theorem State.untrained_setCore (s : State) (n : Nat) (c : Core) : (s.setCore n c).untrained = s.untrained := rfl
@[simp] theorem State.parts_setCore (s : State) (n : Nat) (c : Core) : (s.setCore n c).parts = s.parts := rfl
@[simp] theorem State.vfs_setCore (s : State) (n : Nat) (c : Core) : (s.setCore n c).vfs = s.vfs := rfl
@[simp] theorem State.colours_setCore (s : State) (n : Nat) (c : Core) : (s.setCore n c).colours = s.colours := rfl
@[simp] theorem State.lperm_setCore (s : State) (n : Nat) (c : Core) : (s.setCore n c).lperm = s.lperm := rfl
@[simp] theorem State.partKey_setCore (s : State) (n : Nat) (c : Core) : (s.setCore n c).partKey = s.partKey := rfl
@[simp] theorem State.sealed_setCore (s : State) (n : Nat) (c : Core) : (s.setCore n c).sealed = s.sealed := rfl
@[simp] theorem State.trust_setCore (s : State) (n : Nat) (c : Core) : (s.setCore n c).trust = s.trust := rfl
@[simp] theorem State.superLog_setCore (s : State) (n : Nat) (c : Core) : (s.setCore n c).superLog = s.superLog := rfl
@[simp] theorem State.flog_setCore (s : State) (n : Nat) (c : Core) : (s.setCore n c).flog = s.flog := rfl
@[simp] theorem State.netp_setCore (s : State) (n : Nat) (c : Core) : (s.setCore n c).netp = s.netp := rfl
@[simp] theorem State.net_setCore (s : State) (n : Nat) (c : Core) : (s.setCore n c).net = s.net := rfl
@[simp] theorem State.channels_setCore (s : State) (n : Nat) (c : Core) : (s.setCore n c).channels = s.channels := rfl
@[simp] theorem State.links_setCore (s : State) (n : Nat) (c : Core) : (s.setCore n c).links = s.links := rfl
@[simp] theorem State.domains_setCore (s : State) (n : Nat) (c : Core) : (s.setCore n c).domains = s.domains := rfl
@[simp] theorem State.elems_setCore (s : State) (n : Nat) (c : Core) : (s.setCore n c).elems = s.elems := rfl
@[simp] theorem State.regions_setCore (s : State) (n : Nat) (c : Core) : (s.setCore n c).regions = s.regions := rfl
@[simp] theorem State.loaders_setCore (s : State) (n : Nat) (c : Core) : (s.setCore n c).loaders = s.loaders := rfl
@[simp] theorem State.gens_setCore (s : State) (n : Nat) (c : Core) : (s.setCore n c).gens = s.gens := rfl
@[simp] theorem State.ctxs_setCore (s : State) (n : Nat) (c : Core) : (s.setCore n c).ctxs = s.ctxs := rfl
@[simp] theorem State.entryq_setCore (s : State) (n : Nat) (c : Core) : (s.setCore n c).entryq = s.entryq := rfl
@[simp] theorem State.exitq_setCore (s : State) (n : Nat) (c : Core) : (s.setCore n c).exitq = s.exitq := rfl
@[simp] theorem State.expect_setCore (s : State) (n : Nat) (c : Core) : (s.setCore n c).expect = s.expect := rfl
@[simp] theorem State.stamp_setCore (s : State) (n : Nat) (c : Core) : (s.setCore n c).stamp = s.stamp := rfl
@[simp] theorem State.egress_setCore (s : State) (n : Nat) (c : Core) : (s.setCore n c).egress = s.egress := rfl
@[simp] theorem State.relays_setCore (s : State) (n : Nat) (c : Core) : (s.setCore n c).relays = s.relays := rfl
@[simp] theorem State.scheds_setCore (s : State) (n : Nat) (c : Core) : (s.setCore n c).scheds = s.scheds := rfl
@[simp] theorem State.ptp_setCore (s : State) (n : Nat) (c : Core) : (s.setCore n c).ptp = s.ptp := rfl
@[simp] theorem State.now_setCore (s : State) (n : Nat) (c : Core) : (s.setCore n c).now = s.now := rfl
@[simp] theorem State.frac_setCore (s : State) (n : Nat) (c : Core) : (s.setCore n c).frac = s.frac := rfl
@[simp] theorem State.cycle_setCore (s : State) (n : Nat) (c : Core) : (s.setCore n c).cycle = s.cycle := rfl
@[simp] theorem State.clock_setCore (s : State) (n : Nat) (c : Core) : (s.setCore n c).clock = s.clock := rfl
@[simp] theorem State.clockAt_setCore (s : State) (n : Nat) (c : Core) : (s.setCore n c).clockAt = s.clockAt := rfl
@[simp] theorem State.clockEx_setCore (s : State) (n : Nat) (c : Core) : (s.setCore n c).clockEx = s.clockEx := rfl
@[simp] theorem State.serial_setCore (s : State) (n : Nat) (c : Core) : (s.setCore n c).serial = s.serial := rfl
@[simp] theorem State.powered_setCore (s : State) (n : Nat) (c : Core) : (s.setCore n c).powered = s.powered := rfl
@[simp] theorem State.rccc_setCore (s : State) (n : Nat) (c : Core) : (s.setCore n c).rccc = s.rccc := rfl
@[simp] theorem State.booting_setCore (s : State) (n : Nat) (c : Core) : (s.setCore n c).booting = s.booting := rfl
@[simp] theorem State.free_setCore (s : State) (n : Nat) (c : Core) : (s.setCore n c).free = s.free := rfl
@[simp] theorem State.agenda_setCore (s : State) (n : Nat) (c : Core) : (s.setCore n c).agenda = s.agenda := rfl
@[simp] theorem State.agent_setCore (s : State) (n : Nat) (c : Core) : (s.setCore n c).agent = s.agent := rfl
@[simp] theorem State.curCore_setCore (s : State) (n : Nat) (c : Core) : (s.setCore n c).curCore = s.curCore := rfl
@[simp] theorem State.curElem_setCore (s : State) (n : Nat) (c : Core) : (s.setCore n c).curElem = s.curElem := rfl
@[simp] theorem State.curSlot_setCore (s : State) (n : Nat) (c : Core) : (s.setCore n c).curSlot = s.curSlot := rfl

/-! `setMe` writes only the core's entry. -/

@[simp] theorem State.lacks_setMe (s : State) (c : Core) : (s.setMe c).lacks = s.lacks := rfl
@[simp] theorem State.mem_setMe (s : State) (c : Core) : (s.setMe c).mem = s.mem := rfl
@[simp] theorem State.marks_setMe (s : State) (c : Core) : (s.setMe c).marks = s.marks := rfl
@[simp] theorem State.fe_setMe (s : State) (c : Core) : (s.setMe c).fe = s.fe := rfl
@[simp] theorem State.tags_setMe (s : State) (c : Core) : (s.setMe c).tags = s.tags := rfl
@[simp] theorem State.banks_setMe (s : State) (c : Core) : (s.setMe c).banks = s.banks := rfl
@[simp] theorem State.bankOps_setMe (s : State) (c : Core) : (s.setMe c).bankOps = s.bankOps := rfl
@[simp] theorem State.presOps_setMe (s : State) (c : Core) : (s.setMe c).presOps = s.presOps := rfl
@[simp] theorem State.token_setMe (s : State) (c : Core) : (s.setMe c).token = s.token := rfl
@[simp] theorem State.walk_setMe (s : State) (c : Core) : (s.setMe c).walk = s.walk := rfl
@[simp] theorem State.l2_setMe (s : State) (c : Core) : (s.setMe c).l2 = s.l2 := rfl
@[simp] theorem State.ltags_setMe (s : State) (c : Core) : (s.setMe c).ltags = s.ltags := rfl
@[simp] theorem State.chans_setMe (s : State) (c : Core) : (s.setMe c).chans = s.chans := rfl
@[simp] theorem State.retired_setMe (s : State) (c : Core) : (s.setMe c).retired = s.retired := rfl
@[simp] theorem State.chanHeld_setMe (s : State) (c : Core) : (s.setMe c).chanHeld = s.chanHeld := rfl
@[simp] theorem State.disable_setMe (s : State) (c : Core) : (s.setMe c).disable = s.disable := rfl
@[simp] theorem State.untrained_setMe (s : State) (c : Core) : (s.setMe c).untrained = s.untrained := rfl
@[simp] theorem State.parts_setMe (s : State) (c : Core) : (s.setMe c).parts = s.parts := rfl
@[simp] theorem State.vfs_setMe (s : State) (c : Core) : (s.setMe c).vfs = s.vfs := rfl
@[simp] theorem State.colours_setMe (s : State) (c : Core) : (s.setMe c).colours = s.colours := rfl
@[simp] theorem State.lperm_setMe (s : State) (c : Core) : (s.setMe c).lperm = s.lperm := rfl
@[simp] theorem State.partKey_setMe (s : State) (c : Core) : (s.setMe c).partKey = s.partKey := rfl
@[simp] theorem State.sealed_setMe (s : State) (c : Core) : (s.setMe c).sealed = s.sealed := rfl
@[simp] theorem State.trust_setMe (s : State) (c : Core) : (s.setMe c).trust = s.trust := rfl
@[simp] theorem State.superLog_setMe (s : State) (c : Core) : (s.setMe c).superLog = s.superLog := rfl
@[simp] theorem State.flog_setMe (s : State) (c : Core) : (s.setMe c).flog = s.flog := rfl
@[simp] theorem State.netp_setMe (s : State) (c : Core) : (s.setMe c).netp = s.netp := rfl
@[simp] theorem State.net_setMe (s : State) (c : Core) : (s.setMe c).net = s.net := rfl
@[simp] theorem State.channels_setMe (s : State) (c : Core) : (s.setMe c).channels = s.channels := rfl
@[simp] theorem State.links_setMe (s : State) (c : Core) : (s.setMe c).links = s.links := rfl
@[simp] theorem State.domains_setMe (s : State) (c : Core) : (s.setMe c).domains = s.domains := rfl
@[simp] theorem State.elems_setMe (s : State) (c : Core) : (s.setMe c).elems = s.elems := rfl
@[simp] theorem State.regions_setMe (s : State) (c : Core) : (s.setMe c).regions = s.regions := rfl
@[simp] theorem State.loaders_setMe (s : State) (c : Core) : (s.setMe c).loaders = s.loaders := rfl
@[simp] theorem State.gens_setMe (s : State) (c : Core) : (s.setMe c).gens = s.gens := rfl
@[simp] theorem State.ctxs_setMe (s : State) (c : Core) : (s.setMe c).ctxs = s.ctxs := rfl
@[simp] theorem State.entryq_setMe (s : State) (c : Core) : (s.setMe c).entryq = s.entryq := rfl
@[simp] theorem State.exitq_setMe (s : State) (c : Core) : (s.setMe c).exitq = s.exitq := rfl
@[simp] theorem State.expect_setMe (s : State) (c : Core) : (s.setMe c).expect = s.expect := rfl
@[simp] theorem State.stamp_setMe (s : State) (c : Core) : (s.setMe c).stamp = s.stamp := rfl
@[simp] theorem State.egress_setMe (s : State) (c : Core) : (s.setMe c).egress = s.egress := rfl
@[simp] theorem State.relays_setMe (s : State) (c : Core) : (s.setMe c).relays = s.relays := rfl
@[simp] theorem State.scheds_setMe (s : State) (c : Core) : (s.setMe c).scheds = s.scheds := rfl
@[simp] theorem State.ptp_setMe (s : State) (c : Core) : (s.setMe c).ptp = s.ptp := rfl
@[simp] theorem State.now_setMe (s : State) (c : Core) : (s.setMe c).now = s.now := rfl
@[simp] theorem State.frac_setMe (s : State) (c : Core) : (s.setMe c).frac = s.frac := rfl
@[simp] theorem State.cycle_setMe (s : State) (c : Core) : (s.setMe c).cycle = s.cycle := rfl
@[simp] theorem State.clock_setMe (s : State) (c : Core) : (s.setMe c).clock = s.clock := rfl
@[simp] theorem State.clockAt_setMe (s : State) (c : Core) : (s.setMe c).clockAt = s.clockAt := rfl
@[simp] theorem State.clockEx_setMe (s : State) (c : Core) : (s.setMe c).clockEx = s.clockEx := rfl
@[simp] theorem State.serial_setMe (s : State) (c : Core) : (s.setMe c).serial = s.serial := rfl
@[simp] theorem State.powered_setMe (s : State) (c : Core) : (s.setMe c).powered = s.powered := rfl
@[simp] theorem State.rccc_setMe (s : State) (c : Core) : (s.setMe c).rccc = s.rccc := rfl
@[simp] theorem State.booting_setMe (s : State) (c : Core) : (s.setMe c).booting = s.booting := rfl
@[simp] theorem State.free_setMe (s : State) (c : Core) : (s.setMe c).free = s.free := rfl
@[simp] theorem State.agenda_setMe (s : State) (c : Core) : (s.setMe c).agenda = s.agenda := rfl
@[simp] theorem State.agent_setMe (s : State) (c : Core) : (s.setMe c).agent = s.agent := rfl
@[simp] theorem State.curCore_setMe (s : State) (c : Core) : (s.setMe c).curCore = s.curCore := rfl
@[simp] theorem State.curElem_setMe (s : State) (c : Core) : (s.setMe c).curElem = s.curElem := rfl
@[simp] theorem State.curSlot_setMe (s : State) (c : Core) : (s.setMe c).curSlot = s.curSlot := rfl

/-! `setBlk` writes only the core's entry. -/

@[simp] theorem State.lacks_setBlk (s : State) (b : Blk) : (s.setBlk b).lacks = s.lacks := rfl
@[simp] theorem State.mem_setBlk (s : State) (b : Blk) : (s.setBlk b).mem = s.mem := rfl
@[simp] theorem State.marks_setBlk (s : State) (b : Blk) : (s.setBlk b).marks = s.marks := rfl
@[simp] theorem State.fe_setBlk (s : State) (b : Blk) : (s.setBlk b).fe = s.fe := rfl
@[simp] theorem State.tags_setBlk (s : State) (b : Blk) : (s.setBlk b).tags = s.tags := rfl
@[simp] theorem State.banks_setBlk (s : State) (b : Blk) : (s.setBlk b).banks = s.banks := rfl
@[simp] theorem State.bankOps_setBlk (s : State) (b : Blk) : (s.setBlk b).bankOps = s.bankOps := rfl
@[simp] theorem State.presOps_setBlk (s : State) (b : Blk) : (s.setBlk b).presOps = s.presOps := rfl
@[simp] theorem State.token_setBlk (s : State) (b : Blk) : (s.setBlk b).token = s.token := rfl
@[simp] theorem State.walk_setBlk (s : State) (b : Blk) : (s.setBlk b).walk = s.walk := rfl
@[simp] theorem State.l2_setBlk (s : State) (b : Blk) : (s.setBlk b).l2 = s.l2 := rfl
@[simp] theorem State.ltags_setBlk (s : State) (b : Blk) : (s.setBlk b).ltags = s.ltags := rfl
@[simp] theorem State.chans_setBlk (s : State) (b : Blk) : (s.setBlk b).chans = s.chans := rfl
@[simp] theorem State.retired_setBlk (s : State) (b : Blk) : (s.setBlk b).retired = s.retired := rfl
@[simp] theorem State.chanHeld_setBlk (s : State) (b : Blk) : (s.setBlk b).chanHeld = s.chanHeld := rfl
@[simp] theorem State.disable_setBlk (s : State) (b : Blk) : (s.setBlk b).disable = s.disable := rfl
@[simp] theorem State.untrained_setBlk (s : State) (b : Blk) : (s.setBlk b).untrained = s.untrained := rfl
@[simp] theorem State.parts_setBlk (s : State) (b : Blk) : (s.setBlk b).parts = s.parts := rfl
@[simp] theorem State.vfs_setBlk (s : State) (b : Blk) : (s.setBlk b).vfs = s.vfs := rfl
@[simp] theorem State.colours_setBlk (s : State) (b : Blk) : (s.setBlk b).colours = s.colours := rfl
@[simp] theorem State.lperm_setBlk (s : State) (b : Blk) : (s.setBlk b).lperm = s.lperm := rfl
@[simp] theorem State.partKey_setBlk (s : State) (b : Blk) : (s.setBlk b).partKey = s.partKey := rfl
@[simp] theorem State.sealed_setBlk (s : State) (b : Blk) : (s.setBlk b).sealed = s.sealed := rfl
@[simp] theorem State.trust_setBlk (s : State) (b : Blk) : (s.setBlk b).trust = s.trust := rfl
@[simp] theorem State.superLog_setBlk (s : State) (b : Blk) : (s.setBlk b).superLog = s.superLog := rfl
@[simp] theorem State.flog_setBlk (s : State) (b : Blk) : (s.setBlk b).flog = s.flog := rfl
@[simp] theorem State.netp_setBlk (s : State) (b : Blk) : (s.setBlk b).netp = s.netp := rfl
@[simp] theorem State.net_setBlk (s : State) (b : Blk) : (s.setBlk b).net = s.net := rfl
@[simp] theorem State.channels_setBlk (s : State) (b : Blk) : (s.setBlk b).channels = s.channels := rfl
@[simp] theorem State.links_setBlk (s : State) (b : Blk) : (s.setBlk b).links = s.links := rfl
@[simp] theorem State.domains_setBlk (s : State) (b : Blk) : (s.setBlk b).domains = s.domains := rfl
@[simp] theorem State.elems_setBlk (s : State) (b : Blk) : (s.setBlk b).elems = s.elems := rfl
@[simp] theorem State.regions_setBlk (s : State) (b : Blk) : (s.setBlk b).regions = s.regions := rfl
@[simp] theorem State.loaders_setBlk (s : State) (b : Blk) : (s.setBlk b).loaders = s.loaders := rfl
@[simp] theorem State.gens_setBlk (s : State) (b : Blk) : (s.setBlk b).gens = s.gens := rfl
@[simp] theorem State.ctxs_setBlk (s : State) (b : Blk) : (s.setBlk b).ctxs = s.ctxs := rfl
@[simp] theorem State.entryq_setBlk (s : State) (b : Blk) : (s.setBlk b).entryq = s.entryq := rfl
@[simp] theorem State.exitq_setBlk (s : State) (b : Blk) : (s.setBlk b).exitq = s.exitq := rfl
@[simp] theorem State.expect_setBlk (s : State) (b : Blk) : (s.setBlk b).expect = s.expect := rfl
@[simp] theorem State.stamp_setBlk (s : State) (b : Blk) : (s.setBlk b).stamp = s.stamp := rfl
@[simp] theorem State.egress_setBlk (s : State) (b : Blk) : (s.setBlk b).egress = s.egress := rfl
@[simp] theorem State.relays_setBlk (s : State) (b : Blk) : (s.setBlk b).relays = s.relays := rfl
@[simp] theorem State.scheds_setBlk (s : State) (b : Blk) : (s.setBlk b).scheds = s.scheds := rfl
@[simp] theorem State.ptp_setBlk (s : State) (b : Blk) : (s.setBlk b).ptp = s.ptp := rfl
@[simp] theorem State.now_setBlk (s : State) (b : Blk) : (s.setBlk b).now = s.now := rfl
@[simp] theorem State.frac_setBlk (s : State) (b : Blk) : (s.setBlk b).frac = s.frac := rfl
@[simp] theorem State.cycle_setBlk (s : State) (b : Blk) : (s.setBlk b).cycle = s.cycle := rfl
@[simp] theorem State.clock_setBlk (s : State) (b : Blk) : (s.setBlk b).clock = s.clock := rfl
@[simp] theorem State.clockAt_setBlk (s : State) (b : Blk) : (s.setBlk b).clockAt = s.clockAt := rfl
@[simp] theorem State.clockEx_setBlk (s : State) (b : Blk) : (s.setBlk b).clockEx = s.clockEx := rfl
@[simp] theorem State.serial_setBlk (s : State) (b : Blk) : (s.setBlk b).serial = s.serial := rfl
@[simp] theorem State.powered_setBlk (s : State) (b : Blk) : (s.setBlk b).powered = s.powered := rfl
@[simp] theorem State.rccc_setBlk (s : State) (b : Blk) : (s.setBlk b).rccc = s.rccc := rfl
@[simp] theorem State.booting_setBlk (s : State) (b : Blk) : (s.setBlk b).booting = s.booting := rfl
@[simp] theorem State.free_setBlk (s : State) (b : Blk) : (s.setBlk b).free = s.free := rfl
@[simp] theorem State.agenda_setBlk (s : State) (b : Blk) : (s.setBlk b).agenda = s.agenda := rfl
@[simp] theorem State.agent_setBlk (s : State) (b : Blk) : (s.setBlk b).agent = s.agent := rfl
@[simp] theorem State.curCore_setBlk (s : State) (b : Blk) : (s.setBlk b).curCore = s.curCore := rfl
@[simp] theorem State.curElem_setBlk (s : State) (b : Blk) : (s.setBlk b).curElem = s.curElem := rfl
@[simp] theorem State.curSlot_setBlk (s : State) (b : Blk) : (s.setBlk b).curSlot = s.curSlot := rfl

/-! `setW` writes only the core's entry. -/

@[simp] theorem State.lacks_setW (s : State) (r : Regs) : (s.setW r).lacks = s.lacks := rfl
@[simp] theorem State.mem_setW (s : State) (r : Regs) : (s.setW r).mem = s.mem := rfl
@[simp] theorem State.marks_setW (s : State) (r : Regs) : (s.setW r).marks = s.marks := rfl
@[simp] theorem State.fe_setW (s : State) (r : Regs) : (s.setW r).fe = s.fe := rfl
@[simp] theorem State.tags_setW (s : State) (r : Regs) : (s.setW r).tags = s.tags := rfl
@[simp] theorem State.banks_setW (s : State) (r : Regs) : (s.setW r).banks = s.banks := rfl
@[simp] theorem State.bankOps_setW (s : State) (r : Regs) : (s.setW r).bankOps = s.bankOps := rfl
@[simp] theorem State.presOps_setW (s : State) (r : Regs) : (s.setW r).presOps = s.presOps := rfl
@[simp] theorem State.token_setW (s : State) (r : Regs) : (s.setW r).token = s.token := rfl
@[simp] theorem State.walk_setW (s : State) (r : Regs) : (s.setW r).walk = s.walk := rfl
@[simp] theorem State.l2_setW (s : State) (r : Regs) : (s.setW r).l2 = s.l2 := rfl
@[simp] theorem State.ltags_setW (s : State) (r : Regs) : (s.setW r).ltags = s.ltags := rfl
@[simp] theorem State.chans_setW (s : State) (r : Regs) : (s.setW r).chans = s.chans := rfl
@[simp] theorem State.retired_setW (s : State) (r : Regs) : (s.setW r).retired = s.retired := rfl
@[simp] theorem State.chanHeld_setW (s : State) (r : Regs) : (s.setW r).chanHeld = s.chanHeld := rfl
@[simp] theorem State.disable_setW (s : State) (r : Regs) : (s.setW r).disable = s.disable := rfl
@[simp] theorem State.untrained_setW (s : State) (r : Regs) : (s.setW r).untrained = s.untrained := rfl
@[simp] theorem State.parts_setW (s : State) (r : Regs) : (s.setW r).parts = s.parts := rfl
@[simp] theorem State.vfs_setW (s : State) (r : Regs) : (s.setW r).vfs = s.vfs := rfl
@[simp] theorem State.colours_setW (s : State) (r : Regs) : (s.setW r).colours = s.colours := rfl
@[simp] theorem State.lperm_setW (s : State) (r : Regs) : (s.setW r).lperm = s.lperm := rfl
@[simp] theorem State.partKey_setW (s : State) (r : Regs) : (s.setW r).partKey = s.partKey := rfl
@[simp] theorem State.sealed_setW (s : State) (r : Regs) : (s.setW r).sealed = s.sealed := rfl
@[simp] theorem State.trust_setW (s : State) (r : Regs) : (s.setW r).trust = s.trust := rfl
@[simp] theorem State.superLog_setW (s : State) (r : Regs) : (s.setW r).superLog = s.superLog := rfl
@[simp] theorem State.flog_setW (s : State) (r : Regs) : (s.setW r).flog = s.flog := rfl
@[simp] theorem State.netp_setW (s : State) (r : Regs) : (s.setW r).netp = s.netp := rfl
@[simp] theorem State.net_setW (s : State) (r : Regs) : (s.setW r).net = s.net := rfl
@[simp] theorem State.channels_setW (s : State) (r : Regs) : (s.setW r).channels = s.channels := rfl
@[simp] theorem State.links_setW (s : State) (r : Regs) : (s.setW r).links = s.links := rfl
@[simp] theorem State.domains_setW (s : State) (r : Regs) : (s.setW r).domains = s.domains := rfl
@[simp] theorem State.elems_setW (s : State) (r : Regs) : (s.setW r).elems = s.elems := rfl
@[simp] theorem State.regions_setW (s : State) (r : Regs) : (s.setW r).regions = s.regions := rfl
@[simp] theorem State.loaders_setW (s : State) (r : Regs) : (s.setW r).loaders = s.loaders := rfl
@[simp] theorem State.gens_setW (s : State) (r : Regs) : (s.setW r).gens = s.gens := rfl
@[simp] theorem State.ctxs_setW (s : State) (r : Regs) : (s.setW r).ctxs = s.ctxs := rfl
@[simp] theorem State.entryq_setW (s : State) (r : Regs) : (s.setW r).entryq = s.entryq := rfl
@[simp] theorem State.exitq_setW (s : State) (r : Regs) : (s.setW r).exitq = s.exitq := rfl
@[simp] theorem State.expect_setW (s : State) (r : Regs) : (s.setW r).expect = s.expect := rfl
@[simp] theorem State.stamp_setW (s : State) (r : Regs) : (s.setW r).stamp = s.stamp := rfl
@[simp] theorem State.egress_setW (s : State) (r : Regs) : (s.setW r).egress = s.egress := rfl
@[simp] theorem State.relays_setW (s : State) (r : Regs) : (s.setW r).relays = s.relays := rfl
@[simp] theorem State.scheds_setW (s : State) (r : Regs) : (s.setW r).scheds = s.scheds := rfl
@[simp] theorem State.ptp_setW (s : State) (r : Regs) : (s.setW r).ptp = s.ptp := rfl
@[simp] theorem State.now_setW (s : State) (r : Regs) : (s.setW r).now = s.now := rfl
@[simp] theorem State.frac_setW (s : State) (r : Regs) : (s.setW r).frac = s.frac := rfl
@[simp] theorem State.cycle_setW (s : State) (r : Regs) : (s.setW r).cycle = s.cycle := rfl
@[simp] theorem State.clock_setW (s : State) (r : Regs) : (s.setW r).clock = s.clock := rfl
@[simp] theorem State.clockAt_setW (s : State) (r : Regs) : (s.setW r).clockAt = s.clockAt := rfl
@[simp] theorem State.clockEx_setW (s : State) (r : Regs) : (s.setW r).clockEx = s.clockEx := rfl
@[simp] theorem State.serial_setW (s : State) (r : Regs) : (s.setW r).serial = s.serial := rfl
@[simp] theorem State.powered_setW (s : State) (r : Regs) : (s.setW r).powered = s.powered := rfl
@[simp] theorem State.rccc_setW (s : State) (r : Regs) : (s.setW r).rccc = s.rccc := rfl
@[simp] theorem State.booting_setW (s : State) (r : Regs) : (s.setW r).booting = s.booting := rfl
@[simp] theorem State.free_setW (s : State) (r : Regs) : (s.setW r).free = s.free := rfl
@[simp] theorem State.agenda_setW (s : State) (r : Regs) : (s.setW r).agenda = s.agenda := rfl
@[simp] theorem State.agent_setW (s : State) (r : Regs) : (s.setW r).agent = s.agent := rfl
@[simp] theorem State.curCore_setW (s : State) (r : Regs) : (s.setW r).curCore = s.curCore := rfl
@[simp] theorem State.curElem_setW (s : State) (r : Regs) : (s.setW r).curElem = s.curElem := rfl
@[simp] theorem State.curSlot_setW (s : State) (r : Regs) : (s.setW r).curSlot = s.curSlot := rfl

/-! `hold` writes only the core's entry. -/

@[simp] theorem State.lacks_hold (s : State) (h : Held) : (s.hold h).lacks = s.lacks := rfl
@[simp] theorem State.mem_hold (s : State) (h : Held) : (s.hold h).mem = s.mem := rfl
@[simp] theorem State.marks_hold (s : State) (h : Held) : (s.hold h).marks = s.marks := rfl
@[simp] theorem State.fe_hold (s : State) (h : Held) : (s.hold h).fe = s.fe := rfl
@[simp] theorem State.tags_hold (s : State) (h : Held) : (s.hold h).tags = s.tags := rfl
@[simp] theorem State.banks_hold (s : State) (h : Held) : (s.hold h).banks = s.banks := rfl
@[simp] theorem State.bankOps_hold (s : State) (h : Held) : (s.hold h).bankOps = s.bankOps := rfl
@[simp] theorem State.presOps_hold (s : State) (h : Held) : (s.hold h).presOps = s.presOps := rfl
@[simp] theorem State.token_hold (s : State) (h : Held) : (s.hold h).token = s.token := rfl
@[simp] theorem State.walk_hold (s : State) (h : Held) : (s.hold h).walk = s.walk := rfl
@[simp] theorem State.l2_hold (s : State) (h : Held) : (s.hold h).l2 = s.l2 := rfl
@[simp] theorem State.ltags_hold (s : State) (h : Held) : (s.hold h).ltags = s.ltags := rfl
@[simp] theorem State.chans_hold (s : State) (h : Held) : (s.hold h).chans = s.chans := rfl
@[simp] theorem State.retired_hold (s : State) (h : Held) : (s.hold h).retired = s.retired := rfl
@[simp] theorem State.chanHeld_hold (s : State) (h : Held) : (s.hold h).chanHeld = s.chanHeld := rfl
@[simp] theorem State.disable_hold (s : State) (h : Held) : (s.hold h).disable = s.disable := rfl
@[simp] theorem State.untrained_hold (s : State) (h : Held) : (s.hold h).untrained = s.untrained := rfl
@[simp] theorem State.parts_hold (s : State) (h : Held) : (s.hold h).parts = s.parts := rfl
@[simp] theorem State.vfs_hold (s : State) (h : Held) : (s.hold h).vfs = s.vfs := rfl
@[simp] theorem State.colours_hold (s : State) (h : Held) : (s.hold h).colours = s.colours := rfl
@[simp] theorem State.lperm_hold (s : State) (h : Held) : (s.hold h).lperm = s.lperm := rfl
@[simp] theorem State.partKey_hold (s : State) (h : Held) : (s.hold h).partKey = s.partKey := rfl
@[simp] theorem State.sealed_hold (s : State) (h : Held) : (s.hold h).sealed = s.sealed := rfl
@[simp] theorem State.trust_hold (s : State) (h : Held) : (s.hold h).trust = s.trust := rfl
@[simp] theorem State.superLog_hold (s : State) (h : Held) : (s.hold h).superLog = s.superLog := rfl
@[simp] theorem State.flog_hold (s : State) (h : Held) : (s.hold h).flog = s.flog := rfl
@[simp] theorem State.netp_hold (s : State) (h : Held) : (s.hold h).netp = s.netp := rfl
@[simp] theorem State.net_hold (s : State) (h : Held) : (s.hold h).net = s.net := rfl
@[simp] theorem State.channels_hold (s : State) (h : Held) : (s.hold h).channels = s.channels := rfl
@[simp] theorem State.links_hold (s : State) (h : Held) : (s.hold h).links = s.links := rfl
@[simp] theorem State.domains_hold (s : State) (h : Held) : (s.hold h).domains = s.domains := rfl
@[simp] theorem State.elems_hold (s : State) (h : Held) : (s.hold h).elems = s.elems := rfl
@[simp] theorem State.regions_hold (s : State) (h : Held) : (s.hold h).regions = s.regions := rfl
@[simp] theorem State.loaders_hold (s : State) (h : Held) : (s.hold h).loaders = s.loaders := rfl
@[simp] theorem State.gens_hold (s : State) (h : Held) : (s.hold h).gens = s.gens := rfl
@[simp] theorem State.ctxs_hold (s : State) (h : Held) : (s.hold h).ctxs = s.ctxs := rfl
@[simp] theorem State.entryq_hold (s : State) (h : Held) : (s.hold h).entryq = s.entryq := rfl
@[simp] theorem State.exitq_hold (s : State) (h : Held) : (s.hold h).exitq = s.exitq := rfl
@[simp] theorem State.expect_hold (s : State) (h : Held) : (s.hold h).expect = s.expect := rfl
@[simp] theorem State.stamp_hold (s : State) (h : Held) : (s.hold h).stamp = s.stamp := rfl
@[simp] theorem State.egress_hold (s : State) (h : Held) : (s.hold h).egress = s.egress := rfl
@[simp] theorem State.relays_hold (s : State) (h : Held) : (s.hold h).relays = s.relays := rfl
@[simp] theorem State.scheds_hold (s : State) (h : Held) : (s.hold h).scheds = s.scheds := rfl
@[simp] theorem State.ptp_hold (s : State) (h : Held) : (s.hold h).ptp = s.ptp := rfl
@[simp] theorem State.now_hold (s : State) (h : Held) : (s.hold h).now = s.now := rfl
@[simp] theorem State.frac_hold (s : State) (h : Held) : (s.hold h).frac = s.frac := rfl
@[simp] theorem State.cycle_hold (s : State) (h : Held) : (s.hold h).cycle = s.cycle := rfl
@[simp] theorem State.clock_hold (s : State) (h : Held) : (s.hold h).clock = s.clock := rfl
@[simp] theorem State.clockAt_hold (s : State) (h : Held) : (s.hold h).clockAt = s.clockAt := rfl
@[simp] theorem State.clockEx_hold (s : State) (h : Held) : (s.hold h).clockEx = s.clockEx := rfl
@[simp] theorem State.serial_hold (s : State) (h : Held) : (s.hold h).serial = s.serial := rfl
@[simp] theorem State.powered_hold (s : State) (h : Held) : (s.hold h).powered = s.powered := rfl
@[simp] theorem State.rccc_hold (s : State) (h : Held) : (s.hold h).rccc = s.rccc := rfl
@[simp] theorem State.booting_hold (s : State) (h : Held) : (s.hold h).booting = s.booting := rfl
@[simp] theorem State.free_hold (s : State) (h : Held) : (s.hold h).free = s.free := rfl
@[simp] theorem State.agenda_hold (s : State) (h : Held) : (s.hold h).agenda = s.agenda := rfl
@[simp] theorem State.agent_hold (s : State) (h : Held) : (s.hold h).agent = s.agent := rfl
@[simp] theorem State.curCore_hold (s : State) (h : Held) : (s.hold h).curCore = s.curCore := rfl
@[simp] theorem State.curElem_hold (s : State) (h : Held) : (s.hold h).curElem = s.curElem := rfl
@[simp] theorem State.curSlot_hold (s : State) (h : Held) : (s.hold h).curSlot = s.curSlot := rfl

/-! `setX` writes only the core's entry. -/

@[simp] theorem State.lacks_setX (s : State) (d : BitVec 6) (v : W64) : (s.setX d v).lacks = s.lacks := rfl
@[simp] theorem State.mem_setX (s : State) (d : BitVec 6) (v : W64) : (s.setX d v).mem = s.mem := rfl
@[simp] theorem State.marks_setX (s : State) (d : BitVec 6) (v : W64) : (s.setX d v).marks = s.marks := rfl
@[simp] theorem State.fe_setX (s : State) (d : BitVec 6) (v : W64) : (s.setX d v).fe = s.fe := rfl
@[simp] theorem State.tags_setX (s : State) (d : BitVec 6) (v : W64) : (s.setX d v).tags = s.tags := rfl
@[simp] theorem State.banks_setX (s : State) (d : BitVec 6) (v : W64) : (s.setX d v).banks = s.banks := rfl
@[simp] theorem State.bankOps_setX (s : State) (d : BitVec 6) (v : W64) : (s.setX d v).bankOps = s.bankOps := rfl
@[simp] theorem State.presOps_setX (s : State) (d : BitVec 6) (v : W64) : (s.setX d v).presOps = s.presOps := rfl
@[simp] theorem State.token_setX (s : State) (d : BitVec 6) (v : W64) : (s.setX d v).token = s.token := rfl
@[simp] theorem State.walk_setX (s : State) (d : BitVec 6) (v : W64) : (s.setX d v).walk = s.walk := rfl
@[simp] theorem State.l2_setX (s : State) (d : BitVec 6) (v : W64) : (s.setX d v).l2 = s.l2 := rfl
@[simp] theorem State.ltags_setX (s : State) (d : BitVec 6) (v : W64) : (s.setX d v).ltags = s.ltags := rfl
@[simp] theorem State.chans_setX (s : State) (d : BitVec 6) (v : W64) : (s.setX d v).chans = s.chans := rfl
@[simp] theorem State.retired_setX (s : State) (d : BitVec 6) (v : W64) : (s.setX d v).retired = s.retired := rfl
@[simp] theorem State.chanHeld_setX (s : State) (d : BitVec 6) (v : W64) : (s.setX d v).chanHeld = s.chanHeld := rfl
@[simp] theorem State.disable_setX (s : State) (d : BitVec 6) (v : W64) : (s.setX d v).disable = s.disable := rfl
@[simp] theorem State.untrained_setX (s : State) (d : BitVec 6) (v : W64) : (s.setX d v).untrained = s.untrained := rfl
@[simp] theorem State.parts_setX (s : State) (d : BitVec 6) (v : W64) : (s.setX d v).parts = s.parts := rfl
@[simp] theorem State.vfs_setX (s : State) (d : BitVec 6) (v : W64) : (s.setX d v).vfs = s.vfs := rfl
@[simp] theorem State.colours_setX (s : State) (d : BitVec 6) (v : W64) : (s.setX d v).colours = s.colours := rfl
@[simp] theorem State.lperm_setX (s : State) (d : BitVec 6) (v : W64) : (s.setX d v).lperm = s.lperm := rfl
@[simp] theorem State.partKey_setX (s : State) (d : BitVec 6) (v : W64) : (s.setX d v).partKey = s.partKey := rfl
@[simp] theorem State.sealed_setX (s : State) (d : BitVec 6) (v : W64) : (s.setX d v).sealed = s.sealed := rfl
@[simp] theorem State.trust_setX (s : State) (d : BitVec 6) (v : W64) : (s.setX d v).trust = s.trust := rfl
@[simp] theorem State.superLog_setX (s : State) (d : BitVec 6) (v : W64) : (s.setX d v).superLog = s.superLog := rfl
@[simp] theorem State.flog_setX (s : State) (d : BitVec 6) (v : W64) : (s.setX d v).flog = s.flog := rfl
@[simp] theorem State.netp_setX (s : State) (d : BitVec 6) (v : W64) : (s.setX d v).netp = s.netp := rfl
@[simp] theorem State.net_setX (s : State) (d : BitVec 6) (v : W64) : (s.setX d v).net = s.net := rfl
@[simp] theorem State.channels_setX (s : State) (d : BitVec 6) (v : W64) : (s.setX d v).channels = s.channels := rfl
@[simp] theorem State.links_setX (s : State) (d : BitVec 6) (v : W64) : (s.setX d v).links = s.links := rfl
@[simp] theorem State.domains_setX (s : State) (d : BitVec 6) (v : W64) : (s.setX d v).domains = s.domains := rfl
@[simp] theorem State.elems_setX (s : State) (d : BitVec 6) (v : W64) : (s.setX d v).elems = s.elems := rfl
@[simp] theorem State.regions_setX (s : State) (d : BitVec 6) (v : W64) : (s.setX d v).regions = s.regions := rfl
@[simp] theorem State.loaders_setX (s : State) (d : BitVec 6) (v : W64) : (s.setX d v).loaders = s.loaders := rfl
@[simp] theorem State.gens_setX (s : State) (d : BitVec 6) (v : W64) : (s.setX d v).gens = s.gens := rfl
@[simp] theorem State.ctxs_setX (s : State) (d : BitVec 6) (v : W64) : (s.setX d v).ctxs = s.ctxs := rfl
@[simp] theorem State.entryq_setX (s : State) (d : BitVec 6) (v : W64) : (s.setX d v).entryq = s.entryq := rfl
@[simp] theorem State.exitq_setX (s : State) (d : BitVec 6) (v : W64) : (s.setX d v).exitq = s.exitq := rfl
@[simp] theorem State.expect_setX (s : State) (d : BitVec 6) (v : W64) : (s.setX d v).expect = s.expect := rfl
@[simp] theorem State.stamp_setX (s : State) (d : BitVec 6) (v : W64) : (s.setX d v).stamp = s.stamp := rfl
@[simp] theorem State.egress_setX (s : State) (d : BitVec 6) (v : W64) : (s.setX d v).egress = s.egress := rfl
@[simp] theorem State.relays_setX (s : State) (d : BitVec 6) (v : W64) : (s.setX d v).relays = s.relays := rfl
@[simp] theorem State.scheds_setX (s : State) (d : BitVec 6) (v : W64) : (s.setX d v).scheds = s.scheds := rfl
@[simp] theorem State.ptp_setX (s : State) (d : BitVec 6) (v : W64) : (s.setX d v).ptp = s.ptp := rfl
@[simp] theorem State.now_setX (s : State) (d : BitVec 6) (v : W64) : (s.setX d v).now = s.now := rfl
@[simp] theorem State.frac_setX (s : State) (d : BitVec 6) (v : W64) : (s.setX d v).frac = s.frac := rfl
@[simp] theorem State.cycle_setX (s : State) (d : BitVec 6) (v : W64) : (s.setX d v).cycle = s.cycle := rfl
@[simp] theorem State.clock_setX (s : State) (d : BitVec 6) (v : W64) : (s.setX d v).clock = s.clock := rfl
@[simp] theorem State.clockAt_setX (s : State) (d : BitVec 6) (v : W64) : (s.setX d v).clockAt = s.clockAt := rfl
@[simp] theorem State.clockEx_setX (s : State) (d : BitVec 6) (v : W64) : (s.setX d v).clockEx = s.clockEx := rfl
@[simp] theorem State.serial_setX (s : State) (d : BitVec 6) (v : W64) : (s.setX d v).serial = s.serial := rfl
@[simp] theorem State.powered_setX (s : State) (d : BitVec 6) (v : W64) : (s.setX d v).powered = s.powered := rfl
@[simp] theorem State.rccc_setX (s : State) (d : BitVec 6) (v : W64) : (s.setX d v).rccc = s.rccc := rfl
@[simp] theorem State.booting_setX (s : State) (d : BitVec 6) (v : W64) : (s.setX d v).booting = s.booting := rfl
@[simp] theorem State.free_setX (s : State) (d : BitVec 6) (v : W64) : (s.setX d v).free = s.free := rfl
@[simp] theorem State.agenda_setX (s : State) (d : BitVec 6) (v : W64) : (s.setX d v).agenda = s.agenda := rfl
@[simp] theorem State.agent_setX (s : State) (d : BitVec 6) (v : W64) : (s.setX d v).agent = s.agent := rfl
@[simp] theorem State.curCore_setX (s : State) (d : BitVec 6) (v : W64) : (s.setX d v).curCore = s.curCore := rfl
@[simp] theorem State.curElem_setX (s : State) (d : BitVec 6) (v : W64) : (s.setX d v).curElem = s.curElem := rfl
@[simp] theorem State.curSlot_setX (s : State) (d : BitVec 6) (v : W64) : (s.setX d v).curSlot = s.curSlot := rfl

/-! `setP` writes only the core's entry. -/

@[simp] theorem State.lacks_setP (s : State) (d : BitVec 6) (v : W32) : (s.setP d v).lacks = s.lacks := rfl
@[simp] theorem State.mem_setP (s : State) (d : BitVec 6) (v : W32) : (s.setP d v).mem = s.mem := rfl
@[simp] theorem State.marks_setP (s : State) (d : BitVec 6) (v : W32) : (s.setP d v).marks = s.marks := rfl
@[simp] theorem State.fe_setP (s : State) (d : BitVec 6) (v : W32) : (s.setP d v).fe = s.fe := rfl
@[simp] theorem State.tags_setP (s : State) (d : BitVec 6) (v : W32) : (s.setP d v).tags = s.tags := rfl
@[simp] theorem State.banks_setP (s : State) (d : BitVec 6) (v : W32) : (s.setP d v).banks = s.banks := rfl
@[simp] theorem State.bankOps_setP (s : State) (d : BitVec 6) (v : W32) : (s.setP d v).bankOps = s.bankOps := rfl
@[simp] theorem State.presOps_setP (s : State) (d : BitVec 6) (v : W32) : (s.setP d v).presOps = s.presOps := rfl
@[simp] theorem State.token_setP (s : State) (d : BitVec 6) (v : W32) : (s.setP d v).token = s.token := rfl
@[simp] theorem State.walk_setP (s : State) (d : BitVec 6) (v : W32) : (s.setP d v).walk = s.walk := rfl
@[simp] theorem State.l2_setP (s : State) (d : BitVec 6) (v : W32) : (s.setP d v).l2 = s.l2 := rfl
@[simp] theorem State.ltags_setP (s : State) (d : BitVec 6) (v : W32) : (s.setP d v).ltags = s.ltags := rfl
@[simp] theorem State.chans_setP (s : State) (d : BitVec 6) (v : W32) : (s.setP d v).chans = s.chans := rfl
@[simp] theorem State.retired_setP (s : State) (d : BitVec 6) (v : W32) : (s.setP d v).retired = s.retired := rfl
@[simp] theorem State.chanHeld_setP (s : State) (d : BitVec 6) (v : W32) : (s.setP d v).chanHeld = s.chanHeld := rfl
@[simp] theorem State.disable_setP (s : State) (d : BitVec 6) (v : W32) : (s.setP d v).disable = s.disable := rfl
@[simp] theorem State.untrained_setP (s : State) (d : BitVec 6) (v : W32) : (s.setP d v).untrained = s.untrained := rfl
@[simp] theorem State.parts_setP (s : State) (d : BitVec 6) (v : W32) : (s.setP d v).parts = s.parts := rfl
@[simp] theorem State.vfs_setP (s : State) (d : BitVec 6) (v : W32) : (s.setP d v).vfs = s.vfs := rfl
@[simp] theorem State.colours_setP (s : State) (d : BitVec 6) (v : W32) : (s.setP d v).colours = s.colours := rfl
@[simp] theorem State.lperm_setP (s : State) (d : BitVec 6) (v : W32) : (s.setP d v).lperm = s.lperm := rfl
@[simp] theorem State.partKey_setP (s : State) (d : BitVec 6) (v : W32) : (s.setP d v).partKey = s.partKey := rfl
@[simp] theorem State.sealed_setP (s : State) (d : BitVec 6) (v : W32) : (s.setP d v).sealed = s.sealed := rfl
@[simp] theorem State.trust_setP (s : State) (d : BitVec 6) (v : W32) : (s.setP d v).trust = s.trust := rfl
@[simp] theorem State.superLog_setP (s : State) (d : BitVec 6) (v : W32) : (s.setP d v).superLog = s.superLog := rfl
@[simp] theorem State.flog_setP (s : State) (d : BitVec 6) (v : W32) : (s.setP d v).flog = s.flog := rfl
@[simp] theorem State.netp_setP (s : State) (d : BitVec 6) (v : W32) : (s.setP d v).netp = s.netp := rfl
@[simp] theorem State.net_setP (s : State) (d : BitVec 6) (v : W32) : (s.setP d v).net = s.net := rfl
@[simp] theorem State.channels_setP (s : State) (d : BitVec 6) (v : W32) : (s.setP d v).channels = s.channels := rfl
@[simp] theorem State.links_setP (s : State) (d : BitVec 6) (v : W32) : (s.setP d v).links = s.links := rfl
@[simp] theorem State.domains_setP (s : State) (d : BitVec 6) (v : W32) : (s.setP d v).domains = s.domains := rfl
@[simp] theorem State.elems_setP (s : State) (d : BitVec 6) (v : W32) : (s.setP d v).elems = s.elems := rfl
@[simp] theorem State.regions_setP (s : State) (d : BitVec 6) (v : W32) : (s.setP d v).regions = s.regions := rfl
@[simp] theorem State.loaders_setP (s : State) (d : BitVec 6) (v : W32) : (s.setP d v).loaders = s.loaders := rfl
@[simp] theorem State.gens_setP (s : State) (d : BitVec 6) (v : W32) : (s.setP d v).gens = s.gens := rfl
@[simp] theorem State.ctxs_setP (s : State) (d : BitVec 6) (v : W32) : (s.setP d v).ctxs = s.ctxs := rfl
@[simp] theorem State.entryq_setP (s : State) (d : BitVec 6) (v : W32) : (s.setP d v).entryq = s.entryq := rfl
@[simp] theorem State.exitq_setP (s : State) (d : BitVec 6) (v : W32) : (s.setP d v).exitq = s.exitq := rfl
@[simp] theorem State.expect_setP (s : State) (d : BitVec 6) (v : W32) : (s.setP d v).expect = s.expect := rfl
@[simp] theorem State.stamp_setP (s : State) (d : BitVec 6) (v : W32) : (s.setP d v).stamp = s.stamp := rfl
@[simp] theorem State.egress_setP (s : State) (d : BitVec 6) (v : W32) : (s.setP d v).egress = s.egress := rfl
@[simp] theorem State.relays_setP (s : State) (d : BitVec 6) (v : W32) : (s.setP d v).relays = s.relays := rfl
@[simp] theorem State.scheds_setP (s : State) (d : BitVec 6) (v : W32) : (s.setP d v).scheds = s.scheds := rfl
@[simp] theorem State.ptp_setP (s : State) (d : BitVec 6) (v : W32) : (s.setP d v).ptp = s.ptp := rfl
@[simp] theorem State.now_setP (s : State) (d : BitVec 6) (v : W32) : (s.setP d v).now = s.now := rfl
@[simp] theorem State.frac_setP (s : State) (d : BitVec 6) (v : W32) : (s.setP d v).frac = s.frac := rfl
@[simp] theorem State.cycle_setP (s : State) (d : BitVec 6) (v : W32) : (s.setP d v).cycle = s.cycle := rfl
@[simp] theorem State.clock_setP (s : State) (d : BitVec 6) (v : W32) : (s.setP d v).clock = s.clock := rfl
@[simp] theorem State.clockAt_setP (s : State) (d : BitVec 6) (v : W32) : (s.setP d v).clockAt = s.clockAt := rfl
@[simp] theorem State.clockEx_setP (s : State) (d : BitVec 6) (v : W32) : (s.setP d v).clockEx = s.clockEx := rfl
@[simp] theorem State.serial_setP (s : State) (d : BitVec 6) (v : W32) : (s.setP d v).serial = s.serial := rfl
@[simp] theorem State.powered_setP (s : State) (d : BitVec 6) (v : W32) : (s.setP d v).powered = s.powered := rfl
@[simp] theorem State.rccc_setP (s : State) (d : BitVec 6) (v : W32) : (s.setP d v).rccc = s.rccc := rfl
@[simp] theorem State.booting_setP (s : State) (d : BitVec 6) (v : W32) : (s.setP d v).booting = s.booting := rfl
@[simp] theorem State.free_setP (s : State) (d : BitVec 6) (v : W32) : (s.setP d v).free = s.free := rfl
@[simp] theorem State.agenda_setP (s : State) (d : BitVec 6) (v : W32) : (s.setP d v).agenda = s.agenda := rfl
@[simp] theorem State.agent_setP (s : State) (d : BitVec 6) (v : W32) : (s.setP d v).agent = s.agent := rfl
@[simp] theorem State.curCore_setP (s : State) (d : BitVec 6) (v : W32) : (s.setP d v).curCore = s.curCore := rfl
@[simp] theorem State.curElem_setP (s : State) (d : BitVec 6) (v : W32) : (s.setP d v).curElem = s.curElem := rfl
@[simp] theorem State.curSlot_setP (s : State) (d : BitVec 6) (v : W32) : (s.setP d v).curSlot = s.curSlot := rfl

/-! `setV` writes only the core's entry. -/

@[simp] theorem State.lacks_setV (s : State) (d : BitVec 6) (v : Line) : (s.setV d v).lacks = s.lacks := rfl
@[simp] theorem State.mem_setV (s : State) (d : BitVec 6) (v : Line) : (s.setV d v).mem = s.mem := rfl
@[simp] theorem State.marks_setV (s : State) (d : BitVec 6) (v : Line) : (s.setV d v).marks = s.marks := rfl
@[simp] theorem State.fe_setV (s : State) (d : BitVec 6) (v : Line) : (s.setV d v).fe = s.fe := rfl
@[simp] theorem State.tags_setV (s : State) (d : BitVec 6) (v : Line) : (s.setV d v).tags = s.tags := rfl
@[simp] theorem State.banks_setV (s : State) (d : BitVec 6) (v : Line) : (s.setV d v).banks = s.banks := rfl
@[simp] theorem State.bankOps_setV (s : State) (d : BitVec 6) (v : Line) : (s.setV d v).bankOps = s.bankOps := rfl
@[simp] theorem State.presOps_setV (s : State) (d : BitVec 6) (v : Line) : (s.setV d v).presOps = s.presOps := rfl
@[simp] theorem State.token_setV (s : State) (d : BitVec 6) (v : Line) : (s.setV d v).token = s.token := rfl
@[simp] theorem State.walk_setV (s : State) (d : BitVec 6) (v : Line) : (s.setV d v).walk = s.walk := rfl
@[simp] theorem State.l2_setV (s : State) (d : BitVec 6) (v : Line) : (s.setV d v).l2 = s.l2 := rfl
@[simp] theorem State.ltags_setV (s : State) (d : BitVec 6) (v : Line) : (s.setV d v).ltags = s.ltags := rfl
@[simp] theorem State.chans_setV (s : State) (d : BitVec 6) (v : Line) : (s.setV d v).chans = s.chans := rfl
@[simp] theorem State.retired_setV (s : State) (d : BitVec 6) (v : Line) : (s.setV d v).retired = s.retired := rfl
@[simp] theorem State.chanHeld_setV (s : State) (d : BitVec 6) (v : Line) : (s.setV d v).chanHeld = s.chanHeld := rfl
@[simp] theorem State.disable_setV (s : State) (d : BitVec 6) (v : Line) : (s.setV d v).disable = s.disable := rfl
@[simp] theorem State.untrained_setV (s : State) (d : BitVec 6) (v : Line) : (s.setV d v).untrained = s.untrained := rfl
@[simp] theorem State.parts_setV (s : State) (d : BitVec 6) (v : Line) : (s.setV d v).parts = s.parts := rfl
@[simp] theorem State.vfs_setV (s : State) (d : BitVec 6) (v : Line) : (s.setV d v).vfs = s.vfs := rfl
@[simp] theorem State.colours_setV (s : State) (d : BitVec 6) (v : Line) : (s.setV d v).colours = s.colours := rfl
@[simp] theorem State.lperm_setV (s : State) (d : BitVec 6) (v : Line) : (s.setV d v).lperm = s.lperm := rfl
@[simp] theorem State.partKey_setV (s : State) (d : BitVec 6) (v : Line) : (s.setV d v).partKey = s.partKey := rfl
@[simp] theorem State.sealed_setV (s : State) (d : BitVec 6) (v : Line) : (s.setV d v).sealed = s.sealed := rfl
@[simp] theorem State.trust_setV (s : State) (d : BitVec 6) (v : Line) : (s.setV d v).trust = s.trust := rfl
@[simp] theorem State.superLog_setV (s : State) (d : BitVec 6) (v : Line) : (s.setV d v).superLog = s.superLog := rfl
@[simp] theorem State.flog_setV (s : State) (d : BitVec 6) (v : Line) : (s.setV d v).flog = s.flog := rfl
@[simp] theorem State.netp_setV (s : State) (d : BitVec 6) (v : Line) : (s.setV d v).netp = s.netp := rfl
@[simp] theorem State.net_setV (s : State) (d : BitVec 6) (v : Line) : (s.setV d v).net = s.net := rfl
@[simp] theorem State.channels_setV (s : State) (d : BitVec 6) (v : Line) : (s.setV d v).channels = s.channels := rfl
@[simp] theorem State.links_setV (s : State) (d : BitVec 6) (v : Line) : (s.setV d v).links = s.links := rfl
@[simp] theorem State.domains_setV (s : State) (d : BitVec 6) (v : Line) : (s.setV d v).domains = s.domains := rfl
@[simp] theorem State.elems_setV (s : State) (d : BitVec 6) (v : Line) : (s.setV d v).elems = s.elems := rfl
@[simp] theorem State.regions_setV (s : State) (d : BitVec 6) (v : Line) : (s.setV d v).regions = s.regions := rfl
@[simp] theorem State.loaders_setV (s : State) (d : BitVec 6) (v : Line) : (s.setV d v).loaders = s.loaders := rfl
@[simp] theorem State.gens_setV (s : State) (d : BitVec 6) (v : Line) : (s.setV d v).gens = s.gens := rfl
@[simp] theorem State.ctxs_setV (s : State) (d : BitVec 6) (v : Line) : (s.setV d v).ctxs = s.ctxs := rfl
@[simp] theorem State.entryq_setV (s : State) (d : BitVec 6) (v : Line) : (s.setV d v).entryq = s.entryq := rfl
@[simp] theorem State.exitq_setV (s : State) (d : BitVec 6) (v : Line) : (s.setV d v).exitq = s.exitq := rfl
@[simp] theorem State.expect_setV (s : State) (d : BitVec 6) (v : Line) : (s.setV d v).expect = s.expect := rfl
@[simp] theorem State.stamp_setV (s : State) (d : BitVec 6) (v : Line) : (s.setV d v).stamp = s.stamp := rfl
@[simp] theorem State.egress_setV (s : State) (d : BitVec 6) (v : Line) : (s.setV d v).egress = s.egress := rfl
@[simp] theorem State.relays_setV (s : State) (d : BitVec 6) (v : Line) : (s.setV d v).relays = s.relays := rfl
@[simp] theorem State.scheds_setV (s : State) (d : BitVec 6) (v : Line) : (s.setV d v).scheds = s.scheds := rfl
@[simp] theorem State.ptp_setV (s : State) (d : BitVec 6) (v : Line) : (s.setV d v).ptp = s.ptp := rfl
@[simp] theorem State.now_setV (s : State) (d : BitVec 6) (v : Line) : (s.setV d v).now = s.now := rfl
@[simp] theorem State.frac_setV (s : State) (d : BitVec 6) (v : Line) : (s.setV d v).frac = s.frac := rfl
@[simp] theorem State.cycle_setV (s : State) (d : BitVec 6) (v : Line) : (s.setV d v).cycle = s.cycle := rfl
@[simp] theorem State.clock_setV (s : State) (d : BitVec 6) (v : Line) : (s.setV d v).clock = s.clock := rfl
@[simp] theorem State.clockAt_setV (s : State) (d : BitVec 6) (v : Line) : (s.setV d v).clockAt = s.clockAt := rfl
@[simp] theorem State.clockEx_setV (s : State) (d : BitVec 6) (v : Line) : (s.setV d v).clockEx = s.clockEx := rfl
@[simp] theorem State.serial_setV (s : State) (d : BitVec 6) (v : Line) : (s.setV d v).serial = s.serial := rfl
@[simp] theorem State.powered_setV (s : State) (d : BitVec 6) (v : Line) : (s.setV d v).powered = s.powered := rfl
@[simp] theorem State.rccc_setV (s : State) (d : BitVec 6) (v : Line) : (s.setV d v).rccc = s.rccc := rfl
@[simp] theorem State.booting_setV (s : State) (d : BitVec 6) (v : Line) : (s.setV d v).booting = s.booting := rfl
@[simp] theorem State.free_setV (s : State) (d : BitVec 6) (v : Line) : (s.setV d v).free = s.free := rfl
@[simp] theorem State.agenda_setV (s : State) (d : BitVec 6) (v : Line) : (s.setV d v).agenda = s.agenda := rfl
@[simp] theorem State.agent_setV (s : State) (d : BitVec 6) (v : Line) : (s.setV d v).agent = s.agent := rfl
@[simp] theorem State.curCore_setV (s : State) (d : BitVec 6) (v : Line) : (s.setV d v).curCore = s.curCore := rfl
@[simp] theorem State.curElem_setV (s : State) (d : BitVec 6) (v : Line) : (s.setV d v).curElem = s.curElem := rfl
@[simp] theorem State.curSlot_setV (s : State) (d : BitVec 6) (v : Line) : (s.setV d v).curSlot = s.curSlot := rfl

/-! `exitTo` writes only the core's entry. -/

@[simp] theorem State.lacks_exitTo (s : State) (e : Exit) : (s.exitTo e).lacks = s.lacks := rfl
@[simp] theorem State.mem_exitTo (s : State) (e : Exit) : (s.exitTo e).mem = s.mem := rfl
@[simp] theorem State.marks_exitTo (s : State) (e : Exit) : (s.exitTo e).marks = s.marks := rfl
@[simp] theorem State.fe_exitTo (s : State) (e : Exit) : (s.exitTo e).fe = s.fe := rfl
@[simp] theorem State.tags_exitTo (s : State) (e : Exit) : (s.exitTo e).tags = s.tags := rfl
@[simp] theorem State.banks_exitTo (s : State) (e : Exit) : (s.exitTo e).banks = s.banks := rfl
@[simp] theorem State.bankOps_exitTo (s : State) (e : Exit) : (s.exitTo e).bankOps = s.bankOps := rfl
@[simp] theorem State.presOps_exitTo (s : State) (e : Exit) : (s.exitTo e).presOps = s.presOps := rfl
@[simp] theorem State.token_exitTo (s : State) (e : Exit) : (s.exitTo e).token = s.token := rfl
@[simp] theorem State.walk_exitTo (s : State) (e : Exit) : (s.exitTo e).walk = s.walk := rfl
@[simp] theorem State.l2_exitTo (s : State) (e : Exit) : (s.exitTo e).l2 = s.l2 := rfl
@[simp] theorem State.ltags_exitTo (s : State) (e : Exit) : (s.exitTo e).ltags = s.ltags := rfl
@[simp] theorem State.chans_exitTo (s : State) (e : Exit) : (s.exitTo e).chans = s.chans := rfl
@[simp] theorem State.retired_exitTo (s : State) (e : Exit) : (s.exitTo e).retired = s.retired := rfl
@[simp] theorem State.chanHeld_exitTo (s : State) (e : Exit) : (s.exitTo e).chanHeld = s.chanHeld := rfl
@[simp] theorem State.disable_exitTo (s : State) (e : Exit) : (s.exitTo e).disable = s.disable := rfl
@[simp] theorem State.untrained_exitTo (s : State) (e : Exit) : (s.exitTo e).untrained = s.untrained := rfl
@[simp] theorem State.parts_exitTo (s : State) (e : Exit) : (s.exitTo e).parts = s.parts := rfl
@[simp] theorem State.vfs_exitTo (s : State) (e : Exit) : (s.exitTo e).vfs = s.vfs := rfl
@[simp] theorem State.colours_exitTo (s : State) (e : Exit) : (s.exitTo e).colours = s.colours := rfl
@[simp] theorem State.lperm_exitTo (s : State) (e : Exit) : (s.exitTo e).lperm = s.lperm := rfl
@[simp] theorem State.partKey_exitTo (s : State) (e : Exit) : (s.exitTo e).partKey = s.partKey := rfl
@[simp] theorem State.sealed_exitTo (s : State) (e : Exit) : (s.exitTo e).sealed = s.sealed := rfl
@[simp] theorem State.trust_exitTo (s : State) (e : Exit) : (s.exitTo e).trust = s.trust := rfl
@[simp] theorem State.superLog_exitTo (s : State) (e : Exit) : (s.exitTo e).superLog = s.superLog := rfl
@[simp] theorem State.flog_exitTo (s : State) (e : Exit) : (s.exitTo e).flog = s.flog := rfl
@[simp] theorem State.netp_exitTo (s : State) (e : Exit) : (s.exitTo e).netp = s.netp := rfl
@[simp] theorem State.net_exitTo (s : State) (e : Exit) : (s.exitTo e).net = s.net := rfl
@[simp] theorem State.channels_exitTo (s : State) (e : Exit) : (s.exitTo e).channels = s.channels := rfl
@[simp] theorem State.links_exitTo (s : State) (e : Exit) : (s.exitTo e).links = s.links := rfl
@[simp] theorem State.domains_exitTo (s : State) (e : Exit) : (s.exitTo e).domains = s.domains := rfl
@[simp] theorem State.elems_exitTo (s : State) (e : Exit) : (s.exitTo e).elems = s.elems := rfl
@[simp] theorem State.regions_exitTo (s : State) (e : Exit) : (s.exitTo e).regions = s.regions := rfl
@[simp] theorem State.loaders_exitTo (s : State) (e : Exit) : (s.exitTo e).loaders = s.loaders := rfl
@[simp] theorem State.gens_exitTo (s : State) (e : Exit) : (s.exitTo e).gens = s.gens := rfl
@[simp] theorem State.ctxs_exitTo (s : State) (e : Exit) : (s.exitTo e).ctxs = s.ctxs := rfl
@[simp] theorem State.entryq_exitTo (s : State) (e : Exit) : (s.exitTo e).entryq = s.entryq := rfl
@[simp] theorem State.exitq_exitTo (s : State) (e : Exit) : (s.exitTo e).exitq = s.exitq := rfl
@[simp] theorem State.expect_exitTo (s : State) (e : Exit) : (s.exitTo e).expect = s.expect := rfl
@[simp] theorem State.stamp_exitTo (s : State) (e : Exit) : (s.exitTo e).stamp = s.stamp := rfl
@[simp] theorem State.egress_exitTo (s : State) (e : Exit) : (s.exitTo e).egress = s.egress := rfl
@[simp] theorem State.relays_exitTo (s : State) (e : Exit) : (s.exitTo e).relays = s.relays := rfl
@[simp] theorem State.scheds_exitTo (s : State) (e : Exit) : (s.exitTo e).scheds = s.scheds := rfl
@[simp] theorem State.ptp_exitTo (s : State) (e : Exit) : (s.exitTo e).ptp = s.ptp := rfl
@[simp] theorem State.now_exitTo (s : State) (e : Exit) : (s.exitTo e).now = s.now := rfl
@[simp] theorem State.frac_exitTo (s : State) (e : Exit) : (s.exitTo e).frac = s.frac := rfl
@[simp] theorem State.cycle_exitTo (s : State) (e : Exit) : (s.exitTo e).cycle = s.cycle := rfl
@[simp] theorem State.clock_exitTo (s : State) (e : Exit) : (s.exitTo e).clock = s.clock := rfl
@[simp] theorem State.clockAt_exitTo (s : State) (e : Exit) : (s.exitTo e).clockAt = s.clockAt := rfl
@[simp] theorem State.clockEx_exitTo (s : State) (e : Exit) : (s.exitTo e).clockEx = s.clockEx := rfl
@[simp] theorem State.serial_exitTo (s : State) (e : Exit) : (s.exitTo e).serial = s.serial := rfl
@[simp] theorem State.powered_exitTo (s : State) (e : Exit) : (s.exitTo e).powered = s.powered := rfl
@[simp] theorem State.rccc_exitTo (s : State) (e : Exit) : (s.exitTo e).rccc = s.rccc := rfl
@[simp] theorem State.booting_exitTo (s : State) (e : Exit) : (s.exitTo e).booting = s.booting := rfl
@[simp] theorem State.free_exitTo (s : State) (e : Exit) : (s.exitTo e).free = s.free := rfl
@[simp] theorem State.agenda_exitTo (s : State) (e : Exit) : (s.exitTo e).agenda = s.agenda := rfl
@[simp] theorem State.agent_exitTo (s : State) (e : Exit) : (s.exitTo e).agent = s.agent := rfl
@[simp] theorem State.curCore_exitTo (s : State) (e : Exit) : (s.exitTo e).curCore = s.curCore := rfl
@[simp] theorem State.curElem_exitTo (s : State) (e : Exit) : (s.exitTo e).curElem = s.curElem := rfl
@[simp] theorem State.curSlot_exitTo (s : State) (e : Exit) : (s.exitTo e).curSlot = s.curSlot := rfl

/-! The core whose turn it is, its block and its registers. -/

@[simp] theorem State.cur_setMe (s : State) (c : Core) : (s.setMe c).cur = s.cur := rfl
@[simp] theorem State.cur_setBlk (s : State) (b : Blk) : (s.setBlk b).cur = s.cur := rfl
@[simp] theorem State.cur_setW (s : State) (r : Regs) : (s.setW r).cur = s.cur := rfl
@[simp] theorem State.cur_setX (s : State) (d : BitVec 6) (v : W64) : (s.setX d v).cur = s.cur := rfl
@[simp] theorem State.cur_hold (s : State) (h : Held) : (s.hold h).cur = s.cur := rfl
@[simp] theorem State.me_run_setBlk (s : State) (b : Blk) : (s.setBlk b).me.run = s.me.run := by simp [State.setBlk]
@[simp] theorem State.me_lvlS_setBlk (s : State) (b : Blk) : (s.setBlk b).me.lvlS = s.me.lvlS := by simp [State.setBlk]
@[simp] theorem State.me_pc_setBlk (s : State) (b : Blk) : (s.setBlk b).me.pc = s.me.pc := by simp [State.setBlk]
@[simp] theorem State.me_regs_setBlk (s : State) (b : Blk) : (s.setBlk b).me.regs = s.me.regs := by simp [State.setBlk]
@[simp] theorem State.me_tpend_setBlk (s : State) (b : Blk) : (s.setBlk b).me.tpend = s.me.tpend := by simp [State.setBlk]
@[simp] theorem State.me_owner_setBlk (s : State) (b : Blk) : (s.setBlk b).me.owner = s.me.owner := by simp [State.setBlk]
@[simp] theorem State.me_poisonTrap_setBlk (s : State) (b : Blk) : (s.setBlk b).me.poisonTrap = s.me.poisonTrap := by simp [State.setBlk]
@[simp] theorem State.me_pendTrap_setBlk (s : State) (b : Blk) : (s.setBlk b).me.pendTrap = s.me.pendTrap := by simp [State.setBlk]
@[simp] theorem State.me_inDisp_setBlk (s : State) (b : Blk) : (s.setBlk b).me.inDisp = s.me.inDisp := by simp [State.setBlk]
@[simp] theorem State.me_inTrap_setBlk (s : State) (b : Blk) : (s.setBlk b).me.inTrap = s.me.inTrap := by simp [State.setBlk]
@[simp] theorem State.me_rreq_setBlk (s : State) (b : Blk) : (s.setBlk b).me.rreq = s.me.rreq := by simp [State.setBlk]
@[simp] theorem State.me_blkNo_setBlk (s : State) (b : Blk) : (s.setBlk b).me.blkNo = s.me.blkNo := by simp [State.setBlk]
@[simp] theorem State.me_walkWait_setBlk (s : State) (b : Blk) : (s.setBlk b).me.walkWait = s.me.walkWait := by simp [State.setBlk]
@[simp] theorem State.me_cbcColour_setBlk (s : State) (b : Blk) : (s.setBlk b).me.cbcColour = s.me.cbcColour := by simp [State.setBlk]
@[simp] theorem State.me_replies_setBlk (s : State) (b : Blk) : (s.setBlk b).me.replies = s.me.replies := by simp [State.setBlk]
@[simp] theorem State.me_l1_setBlk (s : State) (b : Blk) : (s.setBlk b).me.l1 = s.me.l1 := by simp [State.setBlk]
@[simp] theorem State.me_ifetch_setBlk (s : State) (b : Blk) : (s.setBlk b).me.ifetch = s.me.ifetch := by simp [State.setBlk]
@[simp] theorem State.me_tlb_setBlk (s : State) (b : Blk) : (s.setBlk b).me.tlb = s.me.tlb := by simp [State.setBlk]
@[simp] theorem State.me_cbc_setBlk (s : State) (b : Blk) : (s.setBlk b).me.cbc = s.me.cbc := by simp [State.setBlk]
@[simp] theorem State.me_eng_setBlk (s : State) (b : Blk) : (s.setBlk b).me.eng = s.me.eng := by simp [State.setBlk]
@[simp] theorem State.me_streams_setBlk (s : State) (b : Blk) : (s.setBlk b).me.streams = s.me.streams := by simp [State.setBlk]
@[simp] theorem State.me_island_setBlk (s : State) (b : Blk) : (s.setBlk b).me.island = s.me.island := by simp [State.setBlk]
@[simp] theorem State.me_sections_setBlk (s : State) (b : Blk) : (s.setBlk b).me.sections = s.me.sections := by simp [State.setBlk]
@[simp] theorem State.me_vane_setBlk (s : State) (b : Blk) : (s.setBlk b).me.vane = s.me.vane := by simp [State.setBlk]
@[simp] theorem State.me_bag_setBlk (s : State) (b : Blk) : (s.setBlk b).me.bag = s.me.bag := by simp [State.setBlk]
@[simp] theorem State.me_bagWait_setBlk (s : State) (b : Blk) : (s.setBlk b).me.bagWait = s.me.bagWait := by simp [State.setBlk]
@[simp] theorem State.me_bagctl_setBlk (s : State) (b : Blk) : (s.setBlk b).me.bagctl = s.me.bagctl := by simp [State.setBlk]
@[simp] theorem State.me_bagspill_setBlk (s : State) (b : Blk) : (s.setBlk b).me.bagspill = s.me.bagspill := by simp [State.setBlk]
@[simp] theorem State.me_spillProd_setBlk (s : State) (b : Blk) : (s.setBlk b).me.spillProd = s.me.spillProd := by simp [State.setBlk]
@[simp] theorem State.me_spillCons_setBlk (s : State) (b : Blk) : (s.setBlk b).me.spillCons = s.me.spillCons := by simp [State.setBlk]
@[simp] theorem State.me_nodehead_setBlk (s : State) (b : Blk) : (s.setBlk b).me.nodehead = s.me.nodehead := by simp [State.setBlk]
@[simp] theorem State.me_bagcnt_setBlk (s : State) (b : Blk) : (s.setBlk b).me.bagcnt = s.me.bagcnt := by simp [State.setBlk]
@[simp] theorem State.me_claim_setBlk (s : State) (b : Blk) : (s.setBlk b).me.claim = s.me.claim := by simp [State.setBlk]
@[simp] theorem State.me_rtab_setBlk (s : State) (b : Blk) : (s.setBlk b).me.rtab = s.me.rtab := by simp [State.setBlk]
@[simp] theorem State.me_rcache_setBlk (s : State) (b : Blk) : (s.setBlk b).me.rcache = s.me.rcache := by simp [State.setBlk]
@[simp] theorem State.me_mask_setBlk (s : State) (b : Blk) : (s.setBlk b).me.mask = s.me.mask := by simp [State.setBlk]
@[simp] theorem State.me_ring_setBlk (s : State) (b : Blk) : (s.setBlk b).me.ring = s.me.ring := by simp [State.setBlk]
@[simp] theorem State.me_tlbi_setBlk (s : State) (b : Blk) : (s.setBlk b).me.tlbi = s.me.tlbi := by simp [State.setBlk]
@[simp] theorem State.me_run_setW (s : State) (r : Regs) : (s.setW r).me.run = s.me.run := by simp [State.setW]
@[simp] theorem State.me_lvlS_setW (s : State) (r : Regs) : (s.setW r).me.lvlS = s.me.lvlS := by simp [State.setW]
@[simp] theorem State.me_pc_setW (s : State) (r : Regs) : (s.setW r).me.pc = s.me.pc := by simp [State.setW]
@[simp] theorem State.me_regs_setW (s : State) (r : Regs) : (s.setW r).me.regs = s.me.regs := by simp [State.setW]
@[simp] theorem State.me_tpend_setW (s : State) (r : Regs) : (s.setW r).me.tpend = s.me.tpend := by simp [State.setW]
@[simp] theorem State.me_owner_setW (s : State) (r : Regs) : (s.setW r).me.owner = s.me.owner := by simp [State.setW]
@[simp] theorem State.me_poisonTrap_setW (s : State) (r : Regs) : (s.setW r).me.poisonTrap = s.me.poisonTrap := by simp [State.setW]
@[simp] theorem State.me_pendTrap_setW (s : State) (r : Regs) : (s.setW r).me.pendTrap = s.me.pendTrap := by simp [State.setW]
@[simp] theorem State.me_inDisp_setW (s : State) (r : Regs) : (s.setW r).me.inDisp = s.me.inDisp := by simp [State.setW]
@[simp] theorem State.me_inTrap_setW (s : State) (r : Regs) : (s.setW r).me.inTrap = s.me.inTrap := by simp [State.setW]
@[simp] theorem State.me_rreq_setW (s : State) (r : Regs) : (s.setW r).me.rreq = s.me.rreq := by simp [State.setW]
@[simp] theorem State.me_blkNo_setW (s : State) (r : Regs) : (s.setW r).me.blkNo = s.me.blkNo := by simp [State.setW]
@[simp] theorem State.me_walkWait_setW (s : State) (r : Regs) : (s.setW r).me.walkWait = s.me.walkWait := by simp [State.setW]
@[simp] theorem State.me_cbcColour_setW (s : State) (r : Regs) : (s.setW r).me.cbcColour = s.me.cbcColour := by simp [State.setW]
@[simp] theorem State.me_replies_setW (s : State) (r : Regs) : (s.setW r).me.replies = s.me.replies := by simp [State.setW]
@[simp] theorem State.me_l1_setW (s : State) (r : Regs) : (s.setW r).me.l1 = s.me.l1 := by simp [State.setW]
@[simp] theorem State.me_ifetch_setW (s : State) (r : Regs) : (s.setW r).me.ifetch = s.me.ifetch := by simp [State.setW]
@[simp] theorem State.me_tlb_setW (s : State) (r : Regs) : (s.setW r).me.tlb = s.me.tlb := by simp [State.setW]
@[simp] theorem State.me_cbc_setW (s : State) (r : Regs) : (s.setW r).me.cbc = s.me.cbc := by simp [State.setW]
@[simp] theorem State.me_eng_setW (s : State) (r : Regs) : (s.setW r).me.eng = s.me.eng := by simp [State.setW]
@[simp] theorem State.me_streams_setW (s : State) (r : Regs) : (s.setW r).me.streams = s.me.streams := by simp [State.setW]
@[simp] theorem State.me_island_setW (s : State) (r : Regs) : (s.setW r).me.island = s.me.island := by simp [State.setW]
@[simp] theorem State.me_sections_setW (s : State) (r : Regs) : (s.setW r).me.sections = s.me.sections := by simp [State.setW]
@[simp] theorem State.me_vane_setW (s : State) (r : Regs) : (s.setW r).me.vane = s.me.vane := by simp [State.setW]
@[simp] theorem State.me_bag_setW (s : State) (r : Regs) : (s.setW r).me.bag = s.me.bag := by simp [State.setW]
@[simp] theorem State.me_bagWait_setW (s : State) (r : Regs) : (s.setW r).me.bagWait = s.me.bagWait := by simp [State.setW]
@[simp] theorem State.me_bagctl_setW (s : State) (r : Regs) : (s.setW r).me.bagctl = s.me.bagctl := by simp [State.setW]
@[simp] theorem State.me_bagspill_setW (s : State) (r : Regs) : (s.setW r).me.bagspill = s.me.bagspill := by simp [State.setW]
@[simp] theorem State.me_spillProd_setW (s : State) (r : Regs) : (s.setW r).me.spillProd = s.me.spillProd := by simp [State.setW]
@[simp] theorem State.me_spillCons_setW (s : State) (r : Regs) : (s.setW r).me.spillCons = s.me.spillCons := by simp [State.setW]
@[simp] theorem State.me_nodehead_setW (s : State) (r : Regs) : (s.setW r).me.nodehead = s.me.nodehead := by simp [State.setW]
@[simp] theorem State.me_bagcnt_setW (s : State) (r : Regs) : (s.setW r).me.bagcnt = s.me.bagcnt := by simp [State.setW]
@[simp] theorem State.me_claim_setW (s : State) (r : Regs) : (s.setW r).me.claim = s.me.claim := by simp [State.setW]
@[simp] theorem State.me_rtab_setW (s : State) (r : Regs) : (s.setW r).me.rtab = s.me.rtab := by simp [State.setW]
@[simp] theorem State.me_rcache_setW (s : State) (r : Regs) : (s.setW r).me.rcache = s.me.rcache := by simp [State.setW]
@[simp] theorem State.me_mask_setW (s : State) (r : Regs) : (s.setW r).me.mask = s.me.mask := by simp [State.setW]
@[simp] theorem State.me_ring_setW (s : State) (r : Regs) : (s.setW r).me.ring = s.me.ring := by simp [State.setW]
@[simp] theorem State.me_tlbi_setW (s : State) (r : Regs) : (s.setW r).me.tlbi = s.me.tlbi := by simp [State.setW]
@[simp] theorem State.me_run_hold (s : State) (h : Held) : (s.hold h).me.run = s.me.run := by simp [State.hold]
@[simp] theorem State.me_lvlS_hold (s : State) (h : Held) : (s.hold h).me.lvlS = s.me.lvlS := by simp [State.hold]
@[simp] theorem State.me_pc_hold (s : State) (h : Held) : (s.hold h).me.pc = s.me.pc := by simp [State.hold]
@[simp] theorem State.me_regs_hold (s : State) (h : Held) : (s.hold h).me.regs = s.me.regs := by simp [State.hold]
@[simp] theorem State.me_tpend_hold (s : State) (h : Held) : (s.hold h).me.tpend = s.me.tpend := by simp [State.hold]
@[simp] theorem State.me_owner_hold (s : State) (h : Held) : (s.hold h).me.owner = s.me.owner := by simp [State.hold]
@[simp] theorem State.me_poisonTrap_hold (s : State) (h : Held) : (s.hold h).me.poisonTrap = s.me.poisonTrap := by simp [State.hold]
@[simp] theorem State.me_pendTrap_hold (s : State) (h : Held) : (s.hold h).me.pendTrap = s.me.pendTrap := by simp [State.hold]
@[simp] theorem State.me_inDisp_hold (s : State) (h : Held) : (s.hold h).me.inDisp = s.me.inDisp := by simp [State.hold]
@[simp] theorem State.me_inTrap_hold (s : State) (h : Held) : (s.hold h).me.inTrap = s.me.inTrap := by simp [State.hold]
@[simp] theorem State.me_rreq_hold (s : State) (h : Held) : (s.hold h).me.rreq = s.me.rreq := by simp [State.hold]
@[simp] theorem State.me_blkNo_hold (s : State) (h : Held) : (s.hold h).me.blkNo = s.me.blkNo := by simp [State.hold]
@[simp] theorem State.me_walkWait_hold (s : State) (h : Held) : (s.hold h).me.walkWait = s.me.walkWait := by simp [State.hold]
@[simp] theorem State.me_cbcColour_hold (s : State) (h : Held) : (s.hold h).me.cbcColour = s.me.cbcColour := by simp [State.hold]
@[simp] theorem State.me_replies_hold (s : State) (h : Held) : (s.hold h).me.replies = s.me.replies := by simp [State.hold]
@[simp] theorem State.me_l1_hold (s : State) (h : Held) : (s.hold h).me.l1 = s.me.l1 := by simp [State.hold]
@[simp] theorem State.me_ifetch_hold (s : State) (h : Held) : (s.hold h).me.ifetch = s.me.ifetch := by simp [State.hold]
@[simp] theorem State.me_tlb_hold (s : State) (h : Held) : (s.hold h).me.tlb = s.me.tlb := by simp [State.hold]
@[simp] theorem State.me_cbc_hold (s : State) (h : Held) : (s.hold h).me.cbc = s.me.cbc := by simp [State.hold]
@[simp] theorem State.me_eng_hold (s : State) (h : Held) : (s.hold h).me.eng = s.me.eng := by simp [State.hold]
@[simp] theorem State.me_streams_hold (s : State) (h : Held) : (s.hold h).me.streams = s.me.streams := by simp [State.hold]
@[simp] theorem State.me_island_hold (s : State) (h : Held) : (s.hold h).me.island = s.me.island := by simp [State.hold]
@[simp] theorem State.me_sections_hold (s : State) (h : Held) : (s.hold h).me.sections = s.me.sections := by simp [State.hold]
@[simp] theorem State.me_vane_hold (s : State) (h : Held) : (s.hold h).me.vane = s.me.vane := by simp [State.hold]
@[simp] theorem State.me_bag_hold (s : State) (h : Held) : (s.hold h).me.bag = s.me.bag := by simp [State.hold]
@[simp] theorem State.me_bagWait_hold (s : State) (h : Held) : (s.hold h).me.bagWait = s.me.bagWait := by simp [State.hold]
@[simp] theorem State.me_bagctl_hold (s : State) (h : Held) : (s.hold h).me.bagctl = s.me.bagctl := by simp [State.hold]
@[simp] theorem State.me_bagspill_hold (s : State) (h : Held) : (s.hold h).me.bagspill = s.me.bagspill := by simp [State.hold]
@[simp] theorem State.me_spillProd_hold (s : State) (h : Held) : (s.hold h).me.spillProd = s.me.spillProd := by simp [State.hold]
@[simp] theorem State.me_spillCons_hold (s : State) (h : Held) : (s.hold h).me.spillCons = s.me.spillCons := by simp [State.hold]
@[simp] theorem State.me_nodehead_hold (s : State) (h : Held) : (s.hold h).me.nodehead = s.me.nodehead := by simp [State.hold]
@[simp] theorem State.me_bagcnt_hold (s : State) (h : Held) : (s.hold h).me.bagcnt = s.me.bagcnt := by simp [State.hold]
@[simp] theorem State.me_claim_hold (s : State) (h : Held) : (s.hold h).me.claim = s.me.claim := by simp [State.hold]
@[simp] theorem State.me_rtab_hold (s : State) (h : Held) : (s.hold h).me.rtab = s.me.rtab := by simp [State.hold]
@[simp] theorem State.me_rcache_hold (s : State) (h : Held) : (s.hold h).me.rcache = s.me.rcache := by simp [State.hold]
@[simp] theorem State.me_mask_hold (s : State) (h : Held) : (s.hold h).me.mask = s.me.mask := by simp [State.hold]
@[simp] theorem State.me_ring_hold (s : State) (h : Held) : (s.hold h).me.ring = s.me.ring := by simp [State.hold]
@[simp] theorem State.me_tlbi_hold (s : State) (h : Held) : (s.hold h).me.tlbi = s.me.tlbi := by simp [State.hold]
@[simp] theorem State.blk_isOpen_setW (s : State) (r : Regs) : (s.setW r).blk.isOpen = s.blk.isOpen := by simp [State.setW]
@[simp] theorem State.blk_hdr_setW (s : State) (r : Regs) : (s.setW r).blk.hdr = s.blk.hdr := by simp [State.setW]
@[simp] theorem State.blk_rule_setW (s : State) (r : Regs) : (s.setW r).blk.rule = s.blk.rule := by simp [State.setW]
@[simp] theorem State.blk_words_setW (s : State) (r : Regs) : (s.setW r).blk.words = s.blk.words := by simp [State.setW]
@[simp] theorem State.blk_idx_setW (s : State) (r : Regs) : (s.setW r).blk.idx = s.blk.idx := by simp [State.setW]
@[simp] theorem State.blk_exit_setW (s : State) (r : Regs) : (s.setW r).blk.exit = s.blk.exit := by simp [State.setW]
@[simp] theorem State.blk_held_setW (s : State) (r : Regs) : (s.setW r).blk.held = s.blk.held := by simp [State.setW]
@[simp] theorem State.blk_wait_setW (s : State) (r : Regs) : (s.setW r).blk.wait = s.blk.wait := by simp [State.setW]
@[simp] theorem State.blk_ans_setW (s : State) (r : Regs) : (s.setW r).blk.ans = s.blk.ans := by simp [State.setW]
@[simp] theorem State.blk_cancel_setW (s : State) (r : Regs) : (s.setW r).blk.cancel = s.blk.cancel := by simp [State.setW]
@[simp] theorem State.blk_granted_setW (s : State) (r : Regs) : (s.setW r).blk.granted = s.blk.granted := by simp [State.setW]
@[simp] theorem State.blk_closing_setW (s : State) (r : Regs) : (s.setW r).blk.closing = s.blk.closing := by simp [State.setW]
@[simp] theorem State.blk_next_setW (s : State) (r : Regs) : (s.setW r).blk.next = s.blk.next := by simp [State.setW]
@[simp] theorem State.blk_remote_setW (s : State) (r : Regs) : (s.setW r).blk.remote = s.blk.remote := by simp [State.setW]
@[simp] theorem State.blk_remoteAt_setW (s : State) (r : Regs) : (s.setW r).blk.remoteAt = s.blk.remoteAt := by simp [State.setW]
@[simp] theorem State.blk_lanes_setW (s : State) (r : Regs) : (s.setW r).blk.lanes = s.blk.lanes := by simp [State.setW]
@[simp] theorem State.blk_isOpen_hold (s : State) (h : Held) : (s.hold h).blk.isOpen = s.blk.isOpen := by simp [State.hold]
@[simp] theorem State.blk_hdr_hold (s : State) (h : Held) : (s.hold h).blk.hdr = s.blk.hdr := by simp [State.hold]
@[simp] theorem State.blk_rule_hold (s : State) (h : Held) : (s.hold h).blk.rule = s.blk.rule := by simp [State.hold]
@[simp] theorem State.blk_words_hold (s : State) (h : Held) : (s.hold h).blk.words = s.blk.words := by simp [State.hold]
@[simp] theorem State.blk_idx_hold (s : State) (h : Held) : (s.hold h).blk.idx = s.blk.idx := by simp [State.hold]
@[simp] theorem State.blk_exit_hold (s : State) (h : Held) : (s.hold h).blk.exit = s.blk.exit := by simp [State.hold]
@[simp] theorem State.blk_w_hold (s : State) (h : Held) : (s.hold h).blk.w = s.blk.w := by simp [State.hold]
@[simp] theorem State.blk_wait_hold (s : State) (h : Held) : (s.hold h).blk.wait = s.blk.wait := by simp [State.hold]
@[simp] theorem State.blk_ans_hold (s : State) (h : Held) : (s.hold h).blk.ans = s.blk.ans := by simp [State.hold]
@[simp] theorem State.blk_cancel_hold (s : State) (h : Held) : (s.hold h).blk.cancel = s.blk.cancel := by simp [State.hold]
@[simp] theorem State.blk_granted_hold (s : State) (h : Held) : (s.hold h).blk.granted = s.blk.granted := by simp [State.hold]
@[simp] theorem State.blk_closing_hold (s : State) (h : Held) : (s.hold h).blk.closing = s.blk.closing := by simp [State.hold]
@[simp] theorem State.blk_next_hold (s : State) (h : Held) : (s.hold h).blk.next = s.blk.next := by simp [State.hold]
@[simp] theorem State.blk_remote_hold (s : State) (h : Held) : (s.hold h).blk.remote = s.blk.remote := by simp [State.hold]
@[simp] theorem State.blk_remoteAt_hold (s : State) (h : Held) : (s.hold h).blk.remoteAt = s.blk.remoteAt := by simp [State.hold]
@[simp] theorem State.blk_lanes_hold (s : State) (h : Held) : (s.hold h).blk.lanes = s.blk.lanes := by simp [State.hold]
@[simp] theorem State.w_hold (s : State) (h : Held) : (s.hold h).w = s.w := State.blk_w_hold s h
@[simp] theorem State.held_hold (s : State) (h : Held) : (s.hold h).blk.held = s.blk.held ++ [h] := by simp [State.hold]
@[simp] theorem State.w_setX (s : State) (d : BitVec 6) (v : W64) : (s.setX d v).w = s.w.setX d v := State.w_setW ..
@[simp] theorem State.w_setP (s : State) (d : BitVec 6) (v : W32) : (s.setP d v).w = s.w.setP (d.setWidth 3) v := State.w_setW ..
@[simp] theorem State.w_setV (s : State) (d : BitVec 6) (v : Line) : (s.setV d v).w = s.w.setV (d.setWidth 5) v := State.w_setW ..
@[simp] theorem State.core_setMe_ne (s : State) (c : Core) (n : Nat) (h : n ≠ s.cur) : (s.setMe c).core n = s.core n := by
  simp only [State.setMe, State.core_setCore, if_neg (show n ≠ s.curCore.toNat from h)]
@[simp] theorem State.core_setW_ne (s : State) (r : Regs) (n : Nat) (h : n ≠ s.cur) : (s.setW r).core n = s.core n :=
  State.core_setMe_ne s _ n h
@[simp] theorem State.core_hold_ne (s : State) (e : Held) (n : Nat) (h : n ≠ s.cur) : (s.hold e).core n = s.core n :=
  State.core_setMe_ne s _ n h
@[simp] theorem State.me_blk (s : State) : s.me.blk = s.blk := rfl

/-! ## Registers (04 R54) -/

theorem Regs.getX_setX (r : Regs) (d a : BitVec 6) (v : W64) :
    (r.setX d v).getX a = if a = d then (if d = 0 then 0 else v) else r.getX a := by
  by_cases hd : d = 0
  · subst hd
    by_cases ha : a = 0
    · subst ha; rfl
    · rw [if_neg ha]; rfl
  · by_cases ha : a = d
    · subst ha
      rw [if_pos rfl, if_neg hd, Regs.getX, if_neg hd, Regs.setX, if_neg hd]
      exact Sp.get_set_self ..
    · have hn : a.toNat ≠ d.toNat := fun h => ha (BitVec.eq_of_toNat_eq h)
      rw [if_neg ha, Regs.getX, Regs.setX, if_neg hd, Regs.getX]
      simp only [Sp.get_set, if_neg hn]

theorem Regs.getP_setP (r : Regs) (d a : BitVec 3) (v : W32) :
    (r.setP d v).getP a = if a = d then (if d = 0 then 0xFFFFFFFF else v) else r.getP a := by
  by_cases hd : d = 0
  · subst hd
    by_cases ha : a = 0
    · subst ha; rfl
    · rw [if_neg ha]; rfl
  · by_cases ha : a = d
    · subst ha
      rw [if_pos rfl, if_neg hd, Regs.getP, if_neg hd, Regs.setP, if_neg hd]
      exact Sp.get_set_self ..
    · have hn : a.toNat ≠ d.toNat := fun h => ha (BitVec.eq_of_toNat_eq h)
      rw [if_neg ha, Regs.getP, Regs.setP, if_neg hd, Regs.getP]
      simp only [Sp.get_set, if_neg hn]

theorem Regs.getV_setV (r : Regs) (d a : BitVec 5) (v : Line) : (r.setV d v).getV a = if a = d then v else r.getV a := by
  by_cases ha : a = d
  · subst ha; simp [Regs.setV, Regs.getV]
  · have hn : a.toNat ≠ d.toNat := fun h => ha (BitVec.eq_of_toNat_eq h)
    simp [Regs.setV, Regs.getV, ha, Sp.get_set, hn]

@[simp] theorem Regs.p_setX (r : Regs) (d : BitVec 6) (v : W64) : (r.setX d v).p = r.p := by unfold Regs.setX; split <;> rfl
@[simp] theorem Regs.v_setX (r : Regs) (d : BitVec 6) (v : W64) : (r.setX d v).v = r.v := by unfold Regs.setX; split <;> rfl
@[simp] theorem Regs.lcnt_setX (r : Regs) (d : BitVec 6) (v : W64) : (r.setX d v).lcnt = r.lcnt := by unfold Regs.setX; split <;> rfl
@[simp] theorem Regs.lbeg_setX (r : Regs) (d : BitVec 6) (v : W64) : (r.setX d v).lbeg = r.lbeg := by unfold Regs.setX; split <;> rfl
@[simp] theorem Regs.lend_setX (r : Regs) (d : BitVec 6) (v : W64) : (r.setX d v).lend = r.lend := by unfold Regs.setX; split <;> rfl
@[simp] theorem Regs.lact_setX (r : Regs) (d : BitVec 6) (v : W64) : (r.setX d v).lact = r.lact := by unfold Regs.setX; split <;> rfl
@[simp] theorem Regs.tcause_setX (r : Regs) (d : BitVec 6) (v : W64) : (r.setX d v).tcause = r.tcause := by unfold Regs.setX; split <;> rfl
@[simp] theorem Regs.tval_setX (r : Regs) (d : BitVec 6) (v : W64) : (r.setX d v).tval = r.tval := by unfold Regs.setX; split <;> rfl
@[simp] theorem Regs.tblock_setX (r : Regs) (d : BitVec 6) (v : W64) : (r.setX d v).tblock = r.tblock := by unfold Regs.setX; split <;> rfl
@[simp] theorem Regs.tstat_setX (r : Regs) (d : BitVec 6) (v : W64) : (r.setX d v).tstat = r.tstat := by unfold Regs.setX; split <;> rfl
@[simp] theorem Regs.tvec_setX (r : Regs) (d : BitVec 6) (v : W64) : (r.setX d v).tvec = r.tvec := by unfold Regs.setX; split <;> rfl
@[simp] theorem Regs.tscr_setX (r : Regs) (d : BitVec 6) (v : W64) : (r.setX d v).tscr = r.tscr := by unfold Regs.setX; split <;> rfl
@[simp] theorem Regs.tmask_setX (r : Regs) (d : BitVec 6) (v : W64) : (r.setX d v).tmask = r.tmask := by unfold Regs.setX; split <;> rfl
@[simp] theorem Regs.colour_setX (r : Regs) (d : BitVec 6) (v : W64) : (r.setX d v).colour = r.colour := by unfold Regs.setX; split <;> rfl
@[simp] theorem Regs.counts_setX (r : Regs) (d : BitVec 6) (v : W64) : (r.setX d v).counts = r.counts := by unfold Regs.setX; split <;> rfl
@[simp] theorem Regs.x_setP (r : Regs) (d : BitVec 3) (v : W32) : (r.setP d v).x = r.x := by unfold Regs.setP; split <;> rfl
@[simp] theorem Regs.v_setP (r : Regs) (d : BitVec 3) (v : W32) : (r.setP d v).v = r.v := by unfold Regs.setP; split <;> rfl
@[simp] theorem Regs.lcnt_setP (r : Regs) (d : BitVec 3) (v : W32) : (r.setP d v).lcnt = r.lcnt := by unfold Regs.setP; split <;> rfl
@[simp] theorem Regs.lbeg_setP (r : Regs) (d : BitVec 3) (v : W32) : (r.setP d v).lbeg = r.lbeg := by unfold Regs.setP; split <;> rfl
@[simp] theorem Regs.lend_setP (r : Regs) (d : BitVec 3) (v : W32) : (r.setP d v).lend = r.lend := by unfold Regs.setP; split <;> rfl
@[simp] theorem Regs.lact_setP (r : Regs) (d : BitVec 3) (v : W32) : (r.setP d v).lact = r.lact := by unfold Regs.setP; split <;> rfl
@[simp] theorem Regs.tcause_setP (r : Regs) (d : BitVec 3) (v : W32) : (r.setP d v).tcause = r.tcause := by unfold Regs.setP; split <;> rfl
@[simp] theorem Regs.tval_setP (r : Regs) (d : BitVec 3) (v : W32) : (r.setP d v).tval = r.tval := by unfold Regs.setP; split <;> rfl
@[simp] theorem Regs.tblock_setP (r : Regs) (d : BitVec 3) (v : W32) : (r.setP d v).tblock = r.tblock := by unfold Regs.setP; split <;> rfl
@[simp] theorem Regs.tstat_setP (r : Regs) (d : BitVec 3) (v : W32) : (r.setP d v).tstat = r.tstat := by unfold Regs.setP; split <;> rfl
@[simp] theorem Regs.tvec_setP (r : Regs) (d : BitVec 3) (v : W32) : (r.setP d v).tvec = r.tvec := by unfold Regs.setP; split <;> rfl
@[simp] theorem Regs.tscr_setP (r : Regs) (d : BitVec 3) (v : W32) : (r.setP d v).tscr = r.tscr := by unfold Regs.setP; split <;> rfl
@[simp] theorem Regs.tmask_setP (r : Regs) (d : BitVec 3) (v : W32) : (r.setP d v).tmask = r.tmask := by unfold Regs.setP; split <;> rfl
@[simp] theorem Regs.colour_setP (r : Regs) (d : BitVec 3) (v : W32) : (r.setP d v).colour = r.colour := by unfold Regs.setP; split <;> rfl
@[simp] theorem Regs.counts_setP (r : Regs) (d : BitVec 3) (v : W32) : (r.setP d v).counts = r.counts := by unfold Regs.setP; split <;> rfl
@[simp] theorem Regs.arms_setP (r : Regs) (d : BitVec 3) (v : W32) : (r.setP d v).arms = r.arms := by unfold Regs.setP; split <;> rfl
@[simp] theorem Regs.x_setV (r : Regs) (d : BitVec 5) (v : Line) : (r.setV d v).x = r.x := rfl
@[simp] theorem Regs.p_setV (r : Regs) (d : BitVec 5) (v : Line) : (r.setV d v).p = r.p := rfl
@[simp] theorem Regs.lcnt_setV (r : Regs) (d : BitVec 5) (v : Line) : (r.setV d v).lcnt = r.lcnt := rfl
@[simp] theorem Regs.lbeg_setV (r : Regs) (d : BitVec 5) (v : Line) : (r.setV d v).lbeg = r.lbeg := rfl
@[simp] theorem Regs.lend_setV (r : Regs) (d : BitVec 5) (v : Line) : (r.setV d v).lend = r.lend := rfl
@[simp] theorem Regs.lact_setV (r : Regs) (d : BitVec 5) (v : Line) : (r.setV d v).lact = r.lact := rfl
@[simp] theorem Regs.tcause_setV (r : Regs) (d : BitVec 5) (v : Line) : (r.setV d v).tcause = r.tcause := rfl
@[simp] theorem Regs.tval_setV (r : Regs) (d : BitVec 5) (v : Line) : (r.setV d v).tval = r.tval := rfl
@[simp] theorem Regs.tblock_setV (r : Regs) (d : BitVec 5) (v : Line) : (r.setV d v).tblock = r.tblock := rfl
@[simp] theorem Regs.tstat_setV (r : Regs) (d : BitVec 5) (v : Line) : (r.setV d v).tstat = r.tstat := rfl
@[simp] theorem Regs.tvec_setV (r : Regs) (d : BitVec 5) (v : Line) : (r.setV d v).tvec = r.tvec := rfl
@[simp] theorem Regs.tscr_setV (r : Regs) (d : BitVec 5) (v : Line) : (r.setV d v).tscr = r.tscr := rfl
@[simp] theorem Regs.tmask_setV (r : Regs) (d : BitVec 5) (v : Line) : (r.setV d v).tmask = r.tmask := rfl
@[simp] theorem Regs.colour_setV (r : Regs) (d : BitVec 5) (v : Line) : (r.setV d v).colour = r.colour := rfl
@[simp] theorem Regs.counts_setV (r : Regs) (d : BitVec 5) (v : Line) : (r.setV d v).counts = r.counts := rfl
@[simp] theorem Regs.arms_setV (r : Regs) (d : BitVec 5) (v : Line) : (r.setV d v).arms = r.arms := rfl
@[simp] theorem Regs.getP_setX (r : Regs) (d : BitVec 6) (v : W64) (a : BitVec 3) : (r.setX d v).getP a = r.getP a := by simp [Regs.getP]
@[simp] theorem Regs.getV_setX (r : Regs) (d : BitVec 6) (v : W64) (a : BitVec 5) : (r.setX d v).getV a = r.getV a := by simp [Regs.getV]
@[simp] theorem Regs.getX_setP (r : Regs) (d : BitVec 3) (v : W32) (a : BitVec 6) : (r.setP d v).getX a = r.getX a := by simp [Regs.getX]
@[simp] theorem Regs.getV_setP (r : Regs) (d : BitVec 3) (v : W32) (a : BitVec 5) : (r.setP d v).getV a = r.getV a := by simp [Regs.getV]
@[simp] theorem Regs.getX_setV (r : Regs) (d : BitVec 5) (v : Line) (a : BitVec 6) : (r.setV d v).getX a = r.getX a := by simp [Regs.getX]
@[simp] theorem Regs.getP_setV (r : Regs) (d : BitVec 5) (v : Line) (a : BitVec 3) : (r.setV d v).getP a = r.getP a := by simp [Regs.getP]

@[simp] theorem State.guard_setX (s : State) (d : BitVec 6) (v : W64) (g : BitVec 3) (gs : Bool) :
    (s.setX d v).guard g gs = s.guard g gs := by simp [State.guard]
@[simp] theorem State.guard_setV (s : State) (d : BitVec 6) (v : Line) (g : BitVec 3) (gs : Bool) :
    (s.setV d v).guard g gs = s.guard g gs := by simp [State.guard]

end Sys2Proof.Machine
end

