-- ==== Sys2Proof/Laws/Access.lean ====
section
/-!
SUPPORT. What the shared memory operations do: a checked access does not depend on the block in progress; a write at a home changes
the bytes it covers and no other, and keeps the canonical form.
-/
namespace Sys2Proof.Machine

/-! ## Checked accesses do not depend on the block in progress -/

theorem State.readHomeN_setBlk (s : State) (b : Blk) (key h n : Nat) :
    (s.setBlk b).readHomeN key h n = s.readHomeN key h n := by
  induction n generalizing h with
  | zero => rfl
  | succ n ih =>
    have : (s.setBlk b).readHome key h = s.readHome key h := rfl
    simp only [State.readHomeN, ih, this]

theorem State.walkFrom_setBlk (s : State) (b : Blk) (p va : Nat) (cache : List WalkEntry) (lvl t : Nat) :
    (s.setBlk b).walkFrom p va cache t lvl = s.walkFrom p va cache t lvl := by
  induction lvl generalizing t with
  | zero => rfl
  | succ l ih =>
    have h1 : (s.setBlk b).ownsTable p t = s.ownsTable p t := rfl
    have h2 : ∀ h, (s.setBlk b).isRetired h = s.isRetired h := fun _ => rfl
    have h3 : ∀ h n, (s.setBlk b).anyPoison h n = s.anyPoison h n := fun _ _ => rfl
    have h4 : ∀ key h n, (s.setBlk b).readVal key h n = s.readVal key h n := fun _ _ _ => by
      simp only [State.readVal, State.readHomeN_setBlk]
    simp only [State.walkFrom, h1, h2, h3, h4, ih, State.partKey_setBlk]

theorem State.leafFor_setBlk (s : State) (b : Blk) (n c va : Nat) : (s.setBlk b).leafFor n c va = s.leafFor n c va := by
  have h : ((s.setBlk b).core n).tlb = (s.core n).tlb := by
    by_cases hn : n = s.cur
    · subst hn; exact State.me_tlb_setBlk s b
    · rw [State.setBlk, State.core_setMe_ne s _ n hn]
  have h2 : (s.setBlk b).partOf n = s.partOf n := rfl
  have h3 : ∀ p, (s.setBlk b).bound p c = s.bound p c := fun _ => rfl
  have h4 : (s.setBlk b).colour c = s.colour c := rfl
  simp only [State.leafFor, h, h2, State.walkVa, h3, h4, State.walkFrom_setBlk, State.walk_setBlk]

theorem State.xlate_setBlk (s : State) (b : Blk) (n c va : Nat) (l p : Bool) (a : Acc) :
    (s.setBlk b).xlate n c va l p a = s.xlate n c va l p a := by
  simp only [State.xlate, State.leafFor_setBlk]
  rfl

theorem State.resolve_setBlk (s : State) (b : Blk) (n c va : Nat) (l p : Bool) (a : Acc) :
    (s.setBlk b).resolve n c va l p a = s.resolve n c va l p a := by
  simp only [State.resolve, State.xlate_setBlk]

theorem State.access_setBlk (s : State) (b : Blk) (n c va k : Nat) (l p : Bool) (a : Acc) :
    (s.setBlk b).access n c va k l p a = s.access n c va k l p a := by
  simp only [State.access, State.resolve_setBlk]

theorem State.walkHeld_setBlk (s : State) (b : Blk) (n c va : Nat) : (s.setBlk b).walkHeld n c va = s.walkHeld n c va := by
  have h : ((s.setBlk b).core n).tlb = (s.core n).tlb := by
    by_cases hn : n = s.cur
    · subst hn; exact State.me_tlb_setBlk s b
    · rw [State.setBlk, State.core_setMe_ne s _ n hn]
  have h1 : (s.setBlk b).pending n = s.pending n := rfl
  have h2 : (s.setBlk b).unacked (.core n) = s.unacked (.core n) := rfl
  simp only [State.walkHeld, h, h1, h2]

/-- Holding an effect, or writing a register, changes no translation and no permission. -/
theorem State.coreAccess_setBlk (s : State) (b : Blk) (va k : Nat) (a : Acc) :
    (s.setBlk b).coreAccess va k a = s.coreAccess va k a := by
  simp only [State.coreAccess, State.myColour, State.access_setBlk, State.walkHeld_setBlk, State.me_regs_setBlk, State.me_lvlS_setBlk, State.cur_setBlk]
  rfl

/-! ## Bytes at their home -/

theorem State.readHome_mem {s : State} {h : Nat} (key : Nat) (hs : space h ≠ .gddr) : s.readHome key h = Mem.read s.mem h := by
  simp [State.readHome, hs]

theorem State.writeByte_mem {s : State} {h : Nat} (key : Nat) (b : Byte) (hs : space h ≠ .gddr) :
    s.writeByte key h b = { s with mem := Mem.write s.mem h b } := by
  simp [State.writeByte, hs]

theorem State.writeByte_wf (s : State) (key h : Nat) (b : Byte) (w : Mem.wf s.mem = true) :
    Mem.wf (s.writeByte key h b).mem = true := by
  unfold State.writeByte
  split
  · split
    · exact w
    · exact Mem.write_wf _ _ _ w
  · exact Mem.write_wf _ _ _ w

theorem State.writeBytes_wf (bs : List Byte) (s : State) (key h : Nat) (w : Mem.wf s.mem = true) :
    Mem.wf (s.writeBytes key h bs).mem = true := by
  induction bs generalizing s h with
  | nil => exact w
  | cons b t ih => exact ih _ _ (s.writeByte_wf key h b w)

/-- A byte at a home outside GDDR-7 reads as it was written, and every other byte as before. -/
theorem State.readHome_writeByte {s : State} {h : Nat} (key k a : Nat) (b : Byte) (hs : space h ≠ .gddr) (ha : space a ≠ .gddr) :
    (s.writeByte key h b).readHome k a = if a = h then b else s.readHome k a := by
  rw [State.writeByte_mem key b hs, State.readHome_mem k ha, State.readHome_mem k ha]
  exact Mem.read_write ..

theorem State.readHome_writeBytes (bs : List Byte) (s : State) (key h k a : Nat)
    (hs : ∀ i, i < bs.length → space (h + i) ≠ .gddr) (ha : space a ≠ .gddr) :
    (s.writeBytes key h bs).readHome k a = if h ≤ a ∧ a < h + bs.length then bs.getD (a - h) 0 else s.readHome k a := by
  induction bs generalizing s h with
  | nil =>
    have : ¬ (h ≤ a ∧ a < h + 0) := by omega
    simp only [State.writeBytes, List.length_nil, if_neg this]
  | cons b t ih =>
    have h0 : space h ≠ .gddr := by simpa using hs 0 (by simp)
    rw [State.writeBytes, ih _ _ (fun i hi => by
      have := hs (i + 1) (by simpa using hi)
      rwa [show h + 1 + i = h + (i + 1) by omega]), State.readHome_writeByte key k a b h0 ha]
    by_cases e : a = h
    · subst e
      have h1 : ¬ (a + 1 ≤ a ∧ a < a + 1 + t.length) := by omega
      have h2 : a ≤ a ∧ a < a + (b :: t).length := by simp
      rw [if_neg h1, if_pos rfl, if_pos h2, Nat.sub_self]
      rfl
    · by_cases c : h + 1 ≤ a ∧ a < h + 1 + t.length
      · have : h ≤ a ∧ a < h + (t.length + 1) := by omega
        rw [if_pos c, List.length_cons, if_pos this, show a - h = (a - (h + 1)) + 1 by omega]
        rfl
      · have : ¬ (h ≤ a ∧ a < h + (t.length + 1)) := by omega
        rw [if_neg c, if_neg e, List.length_cons, if_neg this]

/-! ## Markers -/

theorem State.mark_mem (s : State) (h : Nat) (b : Bool) : (s.mark h b).mem = s.mem := by
  unfold State.mark
  split <;> rfl

theorem State.foldl_mem {α : Type} (f : State → α → State) (h : ∀ s a, (f s a).mem = s.mem) (l : List α) (s : State) :
    (l.foldl f s).mem = s.mem := by
  induction l generalizing s with
  | nil => rfl
  | cons a t ih => rw [List.foldl_cons, ih, h]

theorem State.clearMarks_mem (s : State) (h n : Nat) : (s.clearMarks h n).mem = s.mem := by
  refine State.foldl_mem _ (fun s a => ?_) _ _
  dsimp only
  split
  · exact State.mark_mem ..
  · rfl

theorem State.padNotify_mem (s : State) (h n : Nat) : (s.padNotify h n).mem = s.mem := by
  unfold State.padNotify
  split
  · rfl
  · dsimp only
    split
    · split <;> rfl
    · rfl

/-- A write at a home keeps the canonical form. -/
theorem State.write_wf (s : State) (key h : Nat) (bs : List Byte) (w : Mem.wf s.mem = true) :
    Mem.wf (s.write key h bs).mem = true := by
  rw [State.write, State.padNotify_mem, State.clearMarks_mem]
  exact State.writeBytes_wf _ _ _ _ w

/-- A write at a home outside GDDR-7 changes the bytes it covers and no other. -/
theorem State.readHome_write (s : State) (key h k a : Nat) (bs : List Byte)
    (hs : ∀ i, i < bs.length → space (h + i) ≠ .gddr) (ha : space a ≠ .gddr) :
    (s.write key h bs).readHome k a = if h ≤ a ∧ a < h + bs.length then bs.getD (a - h) 0 else s.readHome k a := by
  rw [State.readHome_mem k ha, State.write, State.padNotify_mem, State.clearMarks_mem, ← State.readHome_mem k ha]
  exact State.readHome_writeBytes bs s key h k a hs ha

/-! ## The other operations on memory keep the canonical form -/

/-- Memory at reset lists nothing. -/
theorem State.reset_wf : Mem.wf State.reset.mem = true := rfl

theorem State.clearPad_wf (s : State) (n : Nat) (w : Mem.wf s.mem = true) : Mem.wf (s.clearPad n).mem = true :=
  Mem.filter_wf _ _ w

theorem State.zeroFrame_wf (s : State) (f key : Nat) (w : Mem.wf s.mem = true) : Mem.wf (s.zeroFrame f key).mem = true := by
  unfold State.zeroFrame
  dsimp only
  split <;> exact Mem.filter_wf _ _ w

/-- A slice's write-back keeps the canonical form. -/
theorem State.l2Evict_wf (s : State) (line : Nat) (w : Mem.wf s.mem = true) : Mem.wf (s.l2Evict line).mem = true := by
  unfold State.l2Evict
  split
  · exact w
  · dsimp only
    split
    · exact w
    · rw [State.foldl_mem _ (fun s k => State.mark_mem ..)]
      exact State.writeBytes_wf _ _ _ _ w

/-- A store into the pad, its full-empty bits set, keeps the canonical form. -/
theorem State.setFe_mem (s : State) (h n : Nat) (b : Bool) : (s.setFe h n b).mem = s.mem :=
  State.foldl_mem (fun (s : State) i => { s with fe := Sp.set false s.fe (h - h % 4 + 4 * i) b }) (fun _ _ => rfl) _ _

end Sys2Proof.Machine
end

