-- ==== Sys2Proof/Laws/Block.lean ====
section
/-!
SUPPORT. The step at the end of a block, said once: with its instructions run and room for its effects, a core's step is the successor's
check and the commit (`State.close`); with its effects delivered, it is `State.finish`.
-/
namespace Sys2Proof.Machine

/-- What stands at an open block that nothing delays. -/
structure State.AtBlock (s : State) : Prop where
  agenda : s.agenda = []
  powered : s.powered = true
  agent : s.agent = .core
  run : s.me.run = .running
  trap : s.me.pendTrap = none
  remote : s.me.rreq = none
  walk : s.me.walkWait = false
  entered : s.me.inTrap = false
  opened : s.blk.isOpen = true
  waits : s.blk.wait = .none

theorem step_close {s : State} (h : s.AtBlock) (hc : s.blk.closing = false) (hi : s.blk.idx = s.blk.words.length)
    (hr : s.blk.granted = true ∨ s.heldRoom s.cur = true) : step s = .next s.close := by
  have room : s.reserving s.cur = false := by
    unfold State.reserving
    rcases hr with hr | hr
    · have : (s.core s.cur).blk.granted = true := hr
      simp [this]
    · simp [hr]
  simp [step, State.advanceWorld, State.coreStep, hc, hi, room, h.agenda, h.powered, h.agent, h.run, h.trap, h.remote, h.walk,
    h.entered, h.opened, h.waits]

theorem step_finish {s : State} (h : s.AtBlock) (hc : s.blk.closing = true) (hh : s.blk.held = []) :
    step s = .next (s.finish s.cur) := by
  have hd : (s.core s.cur).blk.held = [] := hh
  simp [step, State.advanceWorld, State.coreStep, State.deliverNext, hc, hd, h.agenda, h.powered, h.agent, h.run, h.trap, h.remote, h.walk,
    h.entered, h.opened]

/-- A commit that meets no error and has room. -/
theorem State.close_ok {s : State} {c : Core} (h : s.committed = .ok c) (hr : s.blk.granted = true ∨ s.heldRoom s.cur = true) :
    s.close = s.setMe c := by
  have : (s.blk.granted || s.heldRoom s.cur) = true := by simpa using hr
  simp [State.close, h, this]

/-- A successor that fails its check is the block's fault. -/
theorem State.close_fault {s : State} {code lvl : Nat} {v : W64} (h : s.committed = .error (.fault code lvl v)) :
    s.close = s.faultAt s.cur code lvl v := by simp [State.close, h]

end Sys2Proof.Machine
end

