-- ==== Sys2Proof/Laws/Encoding.lean ====
section
/-!
SUPPORT. The fields of an encoded word: every format's fields read back as they were written, the opcode and the reserved bits
stand where the decoder reads them (02 R24, R27, Tables 02.5, 02.11, 02.12).
-/
set_option linter.unusedSimpArgs false

namespace Sys2Proof.Laws

/-! ## Pieces of a concatenation -/

theorem extract_append_low {n m k l : Nat} (x : BitVec n) (y : BitVec m) (h : k + l ≤ m) :
    (x ++ y).extractLsb' k l = y.extractLsb' k l := by
  apply BitVec.eq_of_getLsbD_eq
  intro i hi
  have : k + i < m := by omega
  simp [BitVec.getLsbD_extractLsb', BitVec.getLsbD_append, this]

theorem extract_append_high {n m k l : Nat} (x : BitVec n) (y : BitVec m) (h : m ≤ k) :
    (x ++ y).extractLsb' k l = x.extractLsb' (k - m) l := by
  apply BitVec.eq_of_getLsbD_eq
  intro i hi
  have h1 : ¬ k + i < m := by omega
  have h2 : k + i - m = k - m + i := by omega
  simp [BitVec.getLsbD_extractLsb', BitVec.getLsbD_append, h1, h2]

theorem extract_self {n : Nat} (x : BitVec n) : x.extractLsb' 0 n = x := by simp

theorem bit_append_low {n m k : Nat} (x : BitVec n) (y : BitVec m) (h : k < m) : (x ++ y).getLsbD k = y.getLsbD k := by
  simp [BitVec.getLsbD_append, h]

theorem bit_append_high {n m k : Nat} (x : BitVec n) (y : BitVec m) (h : m ≤ k) : (x ++ y).getLsbD k = x.getLsbD (k - m) := by
  have : ¬ k < m := by omega
  simp [BitVec.getLsbD_append, this]

theorem bit_ofBool (b : Bool) : (BitVec.ofBool b).getLsbD 0 = b := by cases b <;> rfl

/-! ## The formats -/

theorem RRR.dec_enc (op : BitVec 8) (o : RRR) : RRR.dec (o.enc op) = o := by
  cases o
  simp (disch := decide) only [RRR.dec, RRR.enc, extract_append_low, extract_append_high, bit_append_low, bit_append_high, Nat.reduceSub,
    Nat.sub_self, extract_self, bit_ofBool]
theorem RRR.enc_op (op : BitVec 8) (o : RRR) : (o.enc op).extractLsb' 56 8 = op := by
  simp (disch := decide) only [RRR.enc, extract_append_low, extract_append_high, bit_append_low, bit_append_high, Nat.reduceSub,
    Nat.sub_self, extract_self, bit_ofBool]
theorem RRR.enc_rsv (op : BitVec 8) (o : RRR) : RRR.rsv (o.enc op) = true := by
  simp (disch := decide) only [RRR.rsv, RRR.enc, extract_append_low, extract_append_high, bit_append_low, bit_append_high, Nat.reduceSub,
    Nat.sub_self, extract_self, bit_ofBool]
  rfl

theorem RRI.dec_enc (op : BitVec 8) (o : RRI) : RRI.dec (o.enc op) = o := by
  cases o
  simp (disch := decide) only [RRI.dec, RRI.enc, extract_append_low, extract_append_high, bit_append_low, bit_append_high, Nat.reduceSub,
    Nat.sub_self, extract_self, bit_ofBool]
theorem RRI.enc_op (op : BitVec 8) (o : RRI) : (o.enc op).extractLsb' 56 8 = op := by
  simp (disch := decide) only [RRI.enc, extract_append_low, extract_append_high, bit_append_low, bit_append_high, Nat.reduceSub,
    Nat.sub_self, extract_self, bit_ofBool]

theorem MEM.dec_enc (op : BitVec 8) (o : MEM) : MEM.dec (o.enc op) = o := by
  cases o
  simp (disch := decide) only [MEM.dec, MEM.enc, extract_append_low, extract_append_high, bit_append_low, bit_append_high, Nat.reduceSub,
    Nat.sub_self, extract_self, bit_ofBool]
theorem MEM.enc_op (op : BitVec 8) (o : MEM) : (o.enc op).extractLsb' 56 8 = op := by
  simp (disch := decide) only [MEM.enc, extract_append_low, extract_append_high, bit_append_low, bit_append_high, Nat.reduceSub,
    Nat.sub_self, extract_self, bit_ofBool]

theorem BRX.dec_enc (op : BitVec 8) (o : BRX) : BRX.dec (o.enc op) = o := by
  cases o
  simp (disch := decide) only [BRX.dec, BRX.enc, extract_append_low, extract_append_high, bit_append_low, bit_append_high, Nat.reduceSub,
    Nat.sub_self, extract_self, bit_ofBool]
theorem BRX.enc_op (op : BitVec 8) (o : BRX) : (o.enc op).extractLsb' 56 8 = op := by
  simp (disch := decide) only [BRX.enc, extract_append_low, extract_append_high, bit_append_low, bit_append_high, Nat.reduceSub,
    Nat.sub_self, extract_self, bit_ofBool]

theorem VEC.dec_enc (op : BitVec 8) (o : VEC) : VEC.dec (o.enc op) = o := by
  cases o
  simp (disch := decide) only [VEC.dec, VEC.enc, extract_append_low, extract_append_high, bit_append_low, bit_append_high, Nat.reduceSub,
    Nat.sub_self, extract_self, bit_ofBool]
theorem VEC.enc_op (op : BitVec 8) (o : VEC) : (o.enc op).extractLsb' 56 8 = op := by
  simp (disch := decide) only [VEC.enc, extract_append_low, extract_append_high, bit_append_low, bit_append_high, Nat.reduceSub,
    Nat.sub_self, extract_self, bit_ofBool]

theorem MTX.dec_enc (op : BitVec 8) (o : MTX) : MTX.dec (o.enc op) = o := by
  cases o
  simp (disch := decide) only [MTX.dec, MTX.enc, extract_append_low, extract_append_high, bit_append_low, bit_append_high, Nat.reduceSub,
    Nat.sub_self, extract_self, bit_ofBool]
theorem MTX.enc_op (op : BitVec 8) (o : MTX) : (o.enc op).extractLsb' 56 8 = op := by
  simp (disch := decide) only [MTX.enc, extract_append_low, extract_append_high, bit_append_low, bit_append_high, Nat.reduceSub,
    Nat.sub_self, extract_self, bit_ofBool]

theorem STR.dec_enc (op : BitVec 8) (o : STR) : STR.dec (o.enc op) = o := by
  cases o
  simp (disch := decide) only [STR.dec, STR.enc, extract_append_low, extract_append_high, bit_append_low, bit_append_high, Nat.reduceSub,
    Nat.sub_self, extract_self, bit_ofBool]
theorem STR.enc_op (op : BitVec 8) (o : STR) : (o.enc op).extractLsb' 56 8 = op := by
  simp (disch := decide) only [STR.enc, extract_append_low, extract_append_high, bit_append_low, bit_append_high, Nat.reduceSub,
    Nat.sub_self, extract_self, bit_ofBool]
theorem STR.enc_rsv (op : BitVec 8) (o : STR) : STR.rsv (o.enc op) = true := by
  simp (disch := decide) only [STR.rsv, STR.enc, extract_append_low, extract_append_high, bit_append_low, bit_append_high, Nat.reduceSub,
    Nat.sub_self, extract_self, bit_ofBool]
  rfl

theorem NET.dec_enc (op : BitVec 8) (o : NET) : NET.dec (o.enc op) = o := by
  cases o
  simp (disch := decide) only [NET.dec, NET.enc, extract_append_low, extract_append_high, bit_append_low, bit_append_high, Nat.reduceSub,
    Nat.sub_self, extract_self, bit_ofBool]
theorem NET.enc_op (op : BitVec 8) (o : NET) : (o.enc op).extractLsb' 56 8 = op := by
  simp (disch := decide) only [NET.enc, extract_append_low, extract_append_high, bit_append_low, bit_append_high, Nat.reduceSub,
    Nat.sub_self, extract_self, bit_ofBool]
theorem NET.enc_rsv (op : BitVec 8) (o : NET) : NET.rsv (o.enc op) = true := by
  simp (disch := decide) only [NET.rsv, NET.enc, extract_append_low, extract_append_high, bit_append_low, bit_append_high, Nat.reduceSub,
    Nat.sub_self, extract_self, bit_ofBool]
  rfl

theorem SYS.dec_enc (op : BitVec 8) (o : SYS) : SYS.dec (o.enc op) = o := by
  cases o
  simp (disch := decide) only [SYS.dec, SYS.enc, extract_append_low, extract_append_high, bit_append_low, bit_append_high, Nat.reduceSub,
    Nat.sub_self, extract_self, bit_ofBool]
theorem SYS.enc_op (op : BitVec 8) (o : SYS) : (o.enc op).extractLsb' 56 8 = op := by
  simp (disch := decide) only [SYS.enc, extract_append_low, extract_append_high, bit_append_low, bit_append_high, Nat.reduceSub,
    Nat.sub_self, extract_self, bit_ofBool]

theorem ElemCfg.dec_enc (op : BitVec 8) (o : ElemCfg) : ElemCfg.dec (o.enc op) = o := by
  cases o
  simp (disch := decide) only [ElemCfg.dec, ElemCfg.enc, extract_append_low, extract_append_high, bit_append_low, bit_append_high, Nat.reduceSub,
    Nat.sub_self, extract_self, bit_ofBool]
theorem ElemCfg.enc_op (op : BitVec 8) (o : ElemCfg) : (o.enc op).extractLsb' 56 8 = op := by
  simp (disch := decide) only [ElemCfg.enc, extract_append_low, extract_append_high, bit_append_low, bit_append_high, Nat.reduceSub,
    Nat.sub_self, extract_self, bit_ofBool]
theorem ElemCfg.enc_rsv (op : BitVec 8) (o : ElemCfg) : ElemCfg.rsv (o.enc op) = true := by
  simp (disch := decide) only [ElemCfg.rsv, ElemCfg.enc, extract_append_low, extract_append_high, bit_append_low, bit_append_high, Nat.reduceSub,
    Nat.sub_self, extract_self, bit_ofBool]
  rfl

/-! ## The function field of a well-formed instruction -/

theorem RRR.cmd_func {o : RRR} {d a b c : Field} {q : Bool} (h : o.cmd d a b c q = true) : q = true := by
  simp only [RRR.cmd, RRR.ok, Bool.and_eq_true] at h
  simp [h]
theorem NET.ok_func {o : NET} {d a b : Field} {pa pb kind q : Bool} (h : o.ok d a b pa pb kind q = true) : q = true := by
  simp only [NET.ok, Bool.and_eq_true] at h
  exact h.2

/-! ## The decoders on a word whose parts are known -/

/-- decodeCore answers the well-formed instruction that the opcode and the fields give. -/
theorem decodeCore_eq {w : W64} {i : Instr} (op : BitVec 8) (hop : w.extractLsb' 56 8 = op) (h1 : (op.toNat == 1) = false)
    (hr : coreRsv op.toNat w = true) (hi : coreInstr op.toNat w = some i) (hw : i.wf = true) : decodeCore w = .ok i := by
  simp [decodeCore, hop, h1, hr, hi, hw]

/-- decodeElem answers the well-formed operation that the code and the fields give. -/
theorem decodeElem_eq {w : BitVec 128} {i : Instr} (op : BitVec 8) (hop : w.extractLsb' 56 8 = op) (hr : ElemCfg.rsv w = true)
    (hi : elemInstr op.toNat (ElemCfg.dec w) = some i) (hw : i.wf = true) : decodeElem w = .ok i := by
  simp [decodeElem, hop, hr, hi, hw]

end Sys2Proof.Laws
end

