-- ==== Sys2Proof/Laws/Exec.lean ====
section
/-!
SUPPORT. One equation per instruction: `exec` is its meaning.
-/
namespace Sys2Proof.Machine

@[simp] theorem exec_add (o : RRR) (s : State) : exec (.add o) s = execAdd o s := rfl
@[simp] theorem exec_sub (o : RRR) (s : State) : exec (.sub o) s = execSub o s := rfl
@[simp] theorem exec_mul (o : RRR) (s : State) : exec (.mul o) s = execMul o s := rfl
@[simp] theorem exec_mulh (o : RRR) (s : State) : exec (.mulh o) s = execMulh o s := rfl
@[simp] theorem exec_div (o : RRR) (s : State) : exec (.div o) s = execDiv o s := rfl
@[simp] theorem exec_rem (o : RRR) (s : State) : exec (.rem o) s = execRem o s := rfl
@[simp] theorem exec_and (o : RRR) (s : State) : exec (.and o) s = execAnd o s := rfl
@[simp] theorem exec_or (o : RRR) (s : State) : exec (.or o) s = execOr o s := rfl
@[simp] theorem exec_xor (o : RRR) (s : State) : exec (.xor o) s = execXor o s := rfl
@[simp] theorem exec_shl (o : RRR) (s : State) : exec (.shl o) s = execShl o s := rfl
@[simp] theorem exec_shr (o : RRR) (s : State) : exec (.shr o) s = execShr o s := rfl
@[simp] theorem exec_sar (o : RRR) (s : State) : exec (.sar o) s = execSar o s := rfl
@[simp] theorem exec_min (o : RRR) (s : State) : exec (.min o) s = execMin o s := rfl
@[simp] theorem exec_max (o : RRR) (s : State) : exec (.max o) s = execMax o s := rfl
@[simp] theorem exec_cmp (o : RRR) (s : State) : exec (.cmp o) s = execCmp o s := rfl
@[simp] theorem exec_sel (o : RRR) (s : State) : exec (.sel o) s = execSel o s := rfl
@[simp] theorem exec_pcmp (o : RRR) (s : State) : exec (.pcmp o) s = execPcmp o s := rfl
@[simp] theorem exec_plog (o : RRR) (s : State) : exec (.plog o) s = execPlog o s := rfl
@[simp] theorem exec_pmov (o : RRR) (s : State) : exec (.pmov o) s = execPmov o s := rfl
@[simp] theorem exec_lreg (o : RRR) (s : State) : exec (.lreg o) s = execLreg o s := rfl
@[simp] theorem exec_fadd (o : RRR) (s : State) : exec (.fadd o) s = execFadd o s := rfl
@[simp] theorem exec_fsub (o : RRR) (s : State) : exec (.fsub o) s = execFsub o s := rfl
@[simp] theorem exec_fmul (o : RRR) (s : State) : exec (.fmul o) s = execFmul o s := rfl
@[simp] theorem exec_fdiv (o : RRR) (s : State) : exec (.fdiv o) s = execFdiv o s := rfl
@[simp] theorem exec_fma (o : RRR) (s : State) : exec (.fma o) s = execFma o s := rfl
@[simp] theorem exec_fmin (o : RRR) (s : State) : exec (.fmin o) s = execFmin o s := rfl
@[simp] theorem exec_fmax (o : RRR) (s : State) : exec (.fmax o) s = execFmax o s := rfl
@[simp] theorem exec_fcmp (o : RRR) (s : State) : exec (.fcmp o) s = execFcmp o s := rfl
@[simp] theorem exec_fcvt (o : RRR) (s : State) : exec (.fcvt o) s = execFcvt o s := rfl
@[simp] theorem exec_frsqs (o : RRR) (s : State) : exec (.frsqs o) s = execFrsqs o s := rfl
@[simp] theorem exec_frcps (o : RRR) (s : State) : exec (.frcps o) s = execFrcps o s := rfl
@[simp] theorem exec_cpy (o : RRR) (s : State) : exec (.cpy o) s = execCpy o s := rfl
@[simp] theorem exec_cpy2 (o : RRR) (s : State) : exec (.cpy2 o) s = execCpy2 o s := rfl
@[simp] theorem exec_mfc (o : RRR) (s : State) : exec (.mfc o) s = execMfc o s := rfl
@[simp] theorem exec_colqRd (o : RRR) (s : State) : exec (.colqRd o) s = execColqRd o s := rfl
@[simp] theorem exec_colqOpen (o : RRR) (s : State) : exec (.colqOpen o) s = execColqOpen o s := rfl
@[simp] theorem exec_colqClose (o : RRR) (s : State) : exec (.colqClose o) s = execColqClose o s := rfl
@[simp] theorem exec_rpurge (o : RRR) (s : State) : exec (.rpurge o) s = execRpurge o s := rfl
@[simp] theorem exec_rload (o : RRR) (s : State) : exec (.rload o) s = execRload o s := rfl
@[simp] theorem exec_rarm (o : RRR) (s : State) : exec (.rarm o) s = execRarm o s := rfl
@[simp] theorem exec_rcalm (o : RRR) (s : State) : exec (.rcalm o) s = execRcalm o s := rfl
@[simp] theorem exec_rtear (o : RRR) (s : State) : exec (.rtear o) s = execRtear o s := rfl
@[simp] theorem exec_rinj (o : RRR) (s : State) : exec (.rinj o) s = execRinj o s := rfl
@[simp] theorem exec_vnset (o : RRR) (s : State) : exec (.vnset o) s = execVnset o s := rfl
@[simp] theorem exec_steerset (o : RRR) (s : State) : exec (.steerset o) s = execSteerset o s := rfl
@[simp] theorem exec_vnrd (o : RRR) (s : State) : exec (.vnrd o) s = execVnrd o s := rfl
@[simp] theorem exec_msend (o : RRR) (s : State) : exec (.msend o) s = execMsend o s := rfl
@[simp] theorem exec_mmask (o : RRR) (s : State) : exec (.mmask o) s = execMmask o s := rfl
@[simp] theorem exec_munmask (o : RRR) (s : State) : exec (.munmask o) s = execMunmask o s := rfl
@[simp] theorem exec_mrecvPop (o : RRR) (s : State) : exec (.mrecvPop o) s = execMrecvPop o s := rfl
@[simp] theorem exec_mrecvCfg (o : RRR) (s : State) : exec (.mrecvCfg o) s = execMrecvCfg o s := rfl
@[simp] theorem exec_mrecvSt (o : RRR) (s : State) : exec (.mrecvSt o) s = execMrecvSt o s := rfl
@[simp] theorem exec_mrecvFree (o : RRR) (s : State) : exec (.mrecvFree o) s = execMrecvFree o s := rfl
@[simp] theorem exec_addi (o : RRI) (s : State) : exec (.addi o) s = execAddi o s := rfl
@[simp] theorem exec_andi (o : RRI) (s : State) : exec (.andi o) s = execAndi o s := rfl
@[simp] theorem exec_ori (o : RRI) (s : State) : exec (.ori o) s = execOri o s := rfl
@[simp] theorem exec_xori (o : RRI) (s : State) : exec (.xori o) s = execXori o s := rfl
@[simp] theorem exec_shli (o : RRI) (s : State) : exec (.shli o) s = execShli o s := rfl
@[simp] theorem exec_shri (o : RRI) (s : State) : exec (.shri o) s = execShri o s := rfl
@[simp] theorem exec_sari (o : RRI) (s : State) : exec (.sari o) s = execSari o s := rfl
@[simp] theorem exec_movi (o : RRI) (s : State) : exec (.movi o) s = execMovi o s := rfl
@[simp] theorem exec_movhi (o : RRI) (s : State) : exec (.movhi o) s = execMovhi o s := rfl
@[simp] theorem exec_br (o : BRX) (s : State) : exec (.br o) s = execBr o s := rfl
@[simp] theorem exec_brr (o : BRX) (s : State) : exec (.brr o) s = execBrr o s := rfl
@[simp] theorem exec_call (o : BRX) (s : State) : exec (.call o) s = execCall o s := rfl
@[simp] theorem exec_callr (o : BRX) (s : State) : exec (.callr o) s = execCallr o s := rfl
@[simp] theorem exec_ret (o : BRX) (s : State) : exec (.ret o) s = execRet o s := rfl
@[simp] theorem exec_loop (o : BRX) (s : State) : exec (.loop o) s = execLoop o s := rfl
@[simp] theorem exec_lea (o : MEM) (s : State) : exec (.lea o) s = execLea o s := rfl
@[simp] theorem exec_vld (o : MEM) (s : State) : exec (.vld o) s = execVld o s := rfl
@[simp] theorem exec_vst (o : MEM) (s : State) : exec (.vst o) s = execVst o s := rfl
@[simp] theorem exec_vgath (o : MEM) (s : State) : exec (.vgath o) s = execVgath o s := rfl
@[simp] theorem exec_vscat (o : MEM) (s : State) : exec (.vscat o) s = execVscat o s := rfl
@[simp] theorem exec_ld (o : MEM) (s : State) : exec (.ld o) s = execLd o s := rfl
@[simp] theorem exec_st (o : MEM) (s : State) : exec (.st o) s = execSt o s := rfl
@[simp] theorem exec_lda (o : MEM) (s : State) : exec (.lda o) s = execLda o s := rfl
@[simp] theorem exec_stl (o : MEM) (s : State) : exec (.stl o) s = execStl o s := rfl
@[simp] theorem exec_ldf (o : MEM) (s : State) : exec (.ldf o) s = execLdf o s := rfl
@[simp] theorem exec_pf (o : MEM) (s : State) : exec (.pf o) s = execPf o s := rfl
@[simp] theorem exec_cflush (o : MEM) (s : State) : exec (.cflush o) s = execCflush o s := rfl
@[simp] theorem exec_cinv (o : MEM) (s : State) : exec (.cinv o) s = execCinv o s := rfl
@[simp] theorem exec_invalCb (o : MEM) (s : State) : exec (.invalCb o) s = execInvalCb o s := rfl
@[simp] theorem exec_waita (o : MEM) (s : State) : exec (.waita o) s = execWaita o s := rfl
@[simp] theorem exec_amo (o : MEM) (s : State) : exec (.amo o) s = execAmo o s := rfl
@[simp] theorem exec_amof (o : MEM) (s : State) : exec (.amof o) s = execAmof o s := rfl
@[simp] theorem exec_cas (o : MEM) (s : State) : exec (.cas o) s = execCas o s := rfl
@[simp] theorem exec_red (o : MEM) (s : State) : exec (.red o) s = execRed o s := rfl
@[simp] theorem exec_redf (o : MEM) (s : State) : exec (.redf o) s = execRedf o s := rfl
@[simp] theorem exec_bupd (o : MEM) (s : State) : exec (.bupd o) s = execBupd o s := rfl
@[simp] theorem exec_bfill (o : MEM) (s : State) : exec (.bfill o) s = execBfill o s := rfl
@[simp] theorem exec_take (o : MEM) (s : State) : exec (.take o) s = execTake o s := rfl
@[simp] theorem exec_put (o : MEM) (s : State) : exec (.put o) s = execPut o s := rfl
@[simp] theorem exec_rdf (o : MEM) (s : State) : exec (.rdf o) s = execRdf o s := rfl
@[simp] theorem exec_clrp (o : MEM) (s : State) : exec (.clrp o) s = execClrp o s := rfl
@[simp] theorem exec_pstat (o : MEM) (s : State) : exec (.pstat o) s = execPstat o s := rfl
@[simp] theorem exec_ldsc (o : MEM) (s : State) : exec (.ldsc o) s = execLdsc o s := rfl
@[simp] theorem exec_stsc (o : MEM) (s : State) : exec (.stsc o) s = execStsc o s := rfl
@[simp] theorem exec_amoSc (o : MEM) (s : State) : exec (.amoSc o) s = execAmoSc o s := rfl
@[simp] theorem exec_casSc (o : MEM) (s : State) : exec (.casSc o) s = execCasSc o s := rfl
@[simp] theorem exec_vadd (o : VEC) (s : State) : exec (.vadd o) s = execVadd o s := rfl
@[simp] theorem exec_vsub (o : VEC) (s : State) : exec (.vsub o) s = execVsub o s := rfl
@[simp] theorem exec_vmul (o : VEC) (s : State) : exec (.vmul o) s = execVmul o s := rfl
@[simp] theorem exec_vmin (o : VEC) (s : State) : exec (.vmin o) s = execVmin o s := rfl
@[simp] theorem exec_vmax (o : VEC) (s : State) : exec (.vmax o) s = execVmax o s := rfl
@[simp] theorem exec_vand (o : VEC) (s : State) : exec (.vand o) s = execVand o s := rfl
@[simp] theorem exec_vor (o : VEC) (s : State) : exec (.vor o) s = execVor o s := rfl
@[simp] theorem exec_vxor (o : VEC) (s : State) : exec (.vxor o) s = execVxor o s := rfl
@[simp] theorem exec_vshl (o : VEC) (s : State) : exec (.vshl o) s = execVshl o s := rfl
@[simp] theorem exec_vshr (o : VEC) (s : State) : exec (.vshr o) s = execVshr o s := rfl
@[simp] theorem exec_vsar (o : VEC) (s : State) : exec (.vsar o) s = execVsar o s := rfl
@[simp] theorem exec_vfadd (o : VEC) (s : State) : exec (.vfadd o) s = execVfadd o s := rfl
@[simp] theorem exec_vfsub (o : VEC) (s : State) : exec (.vfsub o) s = execVfsub o s := rfl
@[simp] theorem exec_vfmul (o : VEC) (s : State) : exec (.vfmul o) s = execVfmul o s := rfl
@[simp] theorem exec_vfma (o : VEC) (s : State) : exec (.vfma o) s = execVfma o s := rfl
@[simp] theorem exec_vfmin (o : VEC) (s : State) : exec (.vfmin o) s = execVfmin o s := rfl
@[simp] theorem exec_vfmax (o : VEC) (s : State) : exec (.vfmax o) s = execVfmax o s := rfl
@[simp] theorem exec_vcmp (o : VEC) (s : State) : exec (.vcmp o) s = execVcmp o s := rfl
@[simp] theorem exec_vsel (o : VEC) (s : State) : exec (.vsel o) s = execVsel o s := rfl
@[simp] theorem exec_vred (o : VEC) (s : State) : exec (.vred o) s = execVred o s := rfl
@[simp] theorem exec_vperm (o : VEC) (s : State) : exec (.vperm o) s = execVperm o s := rfl
@[simp] theorem exec_vbcast (o : VEC) (s : State) : exec (.vbcast o) s = execVbcast o s := rfl
@[simp] theorem exec_vext (o : VEC) (s : State) : exec (.vext o) s = execVext o s := rfl
@[simp] theorem exec_vins (o : VEC) (s : State) : exec (.vins o) s = execVins o s := rfl
@[simp] theorem exec_vcvt (o : VEC) (s : State) : exec (.vcvt o) s = execVcvt o s := rfl
@[simp] theorem exec_vrsqs (o : VEC) (s : State) : exec (.vrsqs o) s = execVrsqs o s := rfl
@[simp] theorem exec_vrcps (o : VEC) (s : State) : exec (.vrcps o) s = execVrcps o s := rfl
@[simp] theorem exec_wload (o : MTX) (s : State) : exec (.wload o) s = execWload o s := rfl
@[simp] theorem exec_mscl (o : MTX) (s : State) : exec (.mscl o) s = execMscl o s := rfl
@[simp] theorem exec_mma (o : MTX) (s : State) : exec (.mma o) s = execMma o s := rfl
@[simp] theorem exec_mmas (o : MTX) (s : State) : exec (.mmas o) s = execMmas o s := rfl
@[simp] theorem exec_aclr (o : MTX) (s : State) : exec (.aclr o) s = execAclr o s := rfl
@[simp] theorem exec_ard (o : MTX) (s : State) : exec (.ard o) s = execArd o s := rfl
@[simp] theorem exec_awr (o : MTX) (s : State) : exec (.awr o) s = execAwr o s := rfl
@[simp] theorem exec_asave (o : MTX) (s : State) : exec (.asave o) s = execAsave o s := rfl
@[simp] theorem exec_sbind (o : STR) (s : State) : exec (.sbind o) s = execSbind o s := rfl
@[simp] theorem exec_sstart (o : STR) (s : State) : exec (.sstart o) s = execSstart o s := rfl
@[simp] theorem exec_sclose (o : STR) (s : State) : exec (.sclose o) s = execSclose o s := rfl
@[simp] theorem exec_sbar (o : STR) (s : State) : exec (.sbar o) s = execSbar o s := rfl
@[simp] theorem exec_spos (o : STR) (s : State) : exec (.spos o) s = execSpos o s := rfl
@[simp] theorem exec_sdone (o : STR) (s : State) : exec (.sdone o) s = execSdone o s := rfl
@[simp] theorem exec_nalloc (o : NET) (s : State) : exec (.nalloc o) s = execNalloc o s := rfl
@[simp] theorem exec_nfree (o : NET) (s : State) : exec (.nfree o) s = execNfree o s := rfl
@[simp] theorem exec_nld (o : NET) (s : State) : exec (.nld o) s = execNld o s := rfl
@[simp] theorem exec_nst (o : NET) (s : State) : exec (.nst o) s = execNst o s := rfl
@[simp] theorem exec_nlink (o : NET) (s : State) : exec (.nlink o) s = execNlink o s := rfl
@[simp] theorem exec_npush (o : NET) (s : State) : exec (.npush o) s = execNpush o s := rfl
@[simp] theorem exec_npop (o : NET) (s : State) : exec (.npop o) s = execNpop o s := rfl
@[simp] theorem exec_nruleLook (o : NET) (s : State) : exec (.nruleLook o) s = execNruleLook o s := rfl
@[simp] theorem exec_nruleSet (o : NET) (s : State) : exec (.nruleSet o) s = execNruleSet o s := rfl
@[simp] theorem exec_nruleInv (o : NET) (s : State) : exec (.nruleInv o) s = execNruleInv o s := rfl
@[simp] theorem exec_statrd (o : SYS) (s : State) : exec (.statrd o) s = execStatrd o s := rfl
@[simp] theorem exec_fence (o : SYS) (s : State) : exec (.fence o) s = execFence o s := rfl
@[simp] theorem exec_tlbi (o : SYS) (s : State) : exec (.tlbi o) s = execTlbi o s := rfl
@[simp] theorem exec_tlbw (o : SYS) (s : State) : exec (.tlbw o) s = execTlbw o s := rfl
@[simp] theorem exec_trap (o : SYS) (s : State) : exec (.trap o) s = execTrap o s := rfl
@[simp] theorem exec_eret (o : SYS) (s : State) : exec (.eret o) s = execEret o s := rfl
@[simp] theorem exec_mfs (o : SYS) (s : State) : exec (.mfs o) s = execMfs o s := rfl
@[simp] theorem exec_mts (o : SYS) (s : State) : exec (.mts o) s = execMts o s := rfl
@[simp] theorem exec_sysc (o : SYS) (s : State) : exec (.sysc o) s = execSysc o s := rfl
@[simp] theorem exec_bkpt (o : SYS) (s : State) : exec (.bkpt o) s = execBkpt o s := rfl
@[simp] theorem exec_halt (o : SYS) (s : State) : exec (.halt o) s = execHalt o s := rfl
@[simp] theorem exec_rsave (o : SYS) (s : State) : exec (.rsave o) s = execRsave o s := rfl
@[simp] theorem exec_rrest (o : SYS) (s : State) : exec (.rrest o) s = execRrest o s := rfl
@[simp] theorem exec_passE (o : ElemCfg) (s : State) : exec (.passE o) s = execPassE o s := rfl
@[simp] theorem exec_constE (o : ElemCfg) (s : State) : exec (.constE o) s = execConstE o s := rfl
@[simp] theorem exec_steerE (o : ElemCfg) (s : State) : exec (.steerE o) s = execSteerE o s := rfl
@[simp] theorem exec_mergeE (o : ElemCfg) (s : State) : exec (.mergeE o) s = execMergeE o s := rfl
@[simp] theorem exec_loopE (o : ElemCfg) (s : State) : exec (.loopE o) s = execLoopE o s := rfl
@[simp] theorem exec_callE (o : ElemCfg) (s : State) : exec (.callE o) s = execCallE o s := rfl
@[simp] theorem exec_retE (o : ElemCfg) (s : State) : exec (.retE o) s = execRetE o s := rfl
@[simp] theorem exec_addE (o : ElemCfg) (s : State) : exec (.addE o) s = execAddE o s := rfl
@[simp] theorem exec_subE (o : ElemCfg) (s : State) : exec (.subE o) s = execSubE o s := rfl
@[simp] theorem exec_mulE (o : ElemCfg) (s : State) : exec (.mulE o) s = execMulE o s := rfl
@[simp] theorem exec_minE (o : ElemCfg) (s : State) : exec (.minE o) s = execMinE o s := rfl
@[simp] theorem exec_maxE (o : ElemCfg) (s : State) : exec (.maxE o) s = execMaxE o s := rfl
@[simp] theorem exec_andE (o : ElemCfg) (s : State) : exec (.andE o) s = execAndE o s := rfl
@[simp] theorem exec_orE (o : ElemCfg) (s : State) : exec (.orE o) s = execOrE o s := rfl
@[simp] theorem exec_xorE (o : ElemCfg) (s : State) : exec (.xorE o) s = execXorE o s := rfl
@[simp] theorem exec_shlE (o : ElemCfg) (s : State) : exec (.shlE o) s = execShlE o s := rfl
@[simp] theorem exec_shrE (o : ElemCfg) (s : State) : exec (.shrE o) s = execShrE o s := rfl
@[simp] theorem exec_cmpE (o : ElemCfg) (s : State) : exec (.cmpE o) s = execCmpE o s := rfl
@[simp] theorem exec_selE (o : ElemCfg) (s : State) : exec (.selE o) s = execSelE o s := rfl
@[simp] theorem exec_faddE (o : ElemCfg) (s : State) : exec (.faddE o) s = execFaddE o s := rfl
@[simp] theorem exec_fsubE (o : ElemCfg) (s : State) : exec (.fsubE o) s = execFsubE o s := rfl
@[simp] theorem exec_fmulE (o : ElemCfg) (s : State) : exec (.fmulE o) s = execFmulE o s := rfl
@[simp] theorem exec_fmaE (o : ElemCfg) (s : State) : exec (.fmaE o) s = execFmaE o s := rfl
@[simp] theorem exec_fminE (o : ElemCfg) (s : State) : exec (.fminE o) s = execFminE o s := rfl
@[simp] theorem exec_fmaxE (o : ElemCfg) (s : State) : exec (.fmaxE o) s = execFmaxE o s := rfl
@[simp] theorem exec_fcmpE (o : ElemCfg) (s : State) : exec (.fcmpE o) s = execFcmpE o s := rfl
@[simp] theorem exec_cvtE (o : ElemCfg) (s : State) : exec (.cvtE o) s = execCvtE o s := rfl
@[simp] theorem exec_accE (o : ElemCfg) (s : State) : exec (.accE o) s = execAccE o s := rfl
@[simp] theorem exec_mloadE (o : ElemCfg) (s : State) : exec (.mloadE o) s = execMloadE o s := rfl
@[simp] theorem exec_mstoreE (o : ElemCfg) (s : State) : exec (.mstoreE o) s = execMstoreE o s := rfl
@[simp] theorem exec_mrmwE (o : ElemCfg) (s : State) : exec (.mrmwE o) s = execMrmwE o s := rfl
@[simp] theorem exec_sdivE (o : ElemCfg) (s : State) : exec (.sdivE o) s = execSdivE o s := rfl
@[simp] theorem exec_sexp2E (o : ElemCfg) (s : State) : exec (.sexp2E o) s = execSexp2E o s := rfl
@[simp] theorem exec_slog2E (o : ElemCfg) (s : State) : exec (.slog2E o) s = execSlog2E o s := rfl
@[simp] theorem exec_ssinE (o : ElemCfg) (s : State) : exec (.ssinE o) s = execSsinE o s := rfl
@[simp] theorem exec_stabE (o : ElemCfg) (s : State) : exec (.stabE o) s = execStabE o s := rfl
@[simp] theorem exec_statE (o : ElemCfg) (s : State) : exec (.statE o) s = execStatE o s := rfl
@[simp] theorem exec_commitE (o : ElemCfg) (s : State) : exec (.commitE o) s = execCommitE o s := rfl
@[simp] theorem exec_routeE (o : ElemCfg) (s : State) : exec (.routeE o) s = execRouteE o s := rfl
@[simp] theorem exec_spaddE (o : ElemCfg) (s : State) : exec (.spaddE o) s = execSpaddE o s := rfl
@[simp] theorem exec_topkE (o : ElemCfg) (s : State) : exec (.topkE o) s = execTopkE o s := rfl
@[simp] theorem exec_cumsE (o : ElemCfg) (s : State) : exec (.cumsE o) s = execCumsE o s := rfl
@[simp] theorem exec_drawE (o : ElemCfg) (s : State) : exec (.drawE o) s = execDrawE o s := rfl
@[simp] theorem exec_penalE (o : ElemCfg) (s : State) : exec (.penalE o) s = execPenalE o s := rfl
@[simp] theorem exec_adptE (o : ElemCfg) (s : State) : exec (.adptE o) s = execAdptE o s := rfl
@[simp] theorem exec_vaneE (o : ElemCfg) (s : State) : exec (.vaneE o) s = execVaneE o s := rfl
@[simp] theorem exec_islandCommandPerform (n : CoreNum) (s : State) : exec (.islandCommandPerform n) s = execIslandCommandPerform n s := rfl
@[simp] theorem exec_waitAnswer (n : CoreNum) (s : State) : exec (.waitAnswer n) s = execWaitAnswer n s := rfl
@[simp] theorem exec_waitCancel (n : CoreNum) (s : State) : exec (.waitCancel n) s = execWaitCancel n s := rfl
@[simp] theorem exec_bankReply (n : CoreNum) (s : State) : exec (.bankReply n) s = execBankReply n s := rfl
@[simp] theorem exec_interruptTaken (n : CoreNum) (s : State) : exec (.interruptTaken n) s = execInterruptTaken n s := rfl
@[simp] theorem exec_remoteLoadTimeout (n : CoreNum) (s : State) : exec (.remoteLoadTimeout n) s = execRemoteLoadTimeout n s := rfl
@[simp] theorem exec_l1WriteBack (n : CoreNum) (line : BitVec 45) (s : State) : exec (.l1WriteBack n line) s = execL1WriteBack n line s := rfl
@[simp] theorem exec_engineCommand (n : CoreNum) (s : State) : exec (.engineCommand n) s = execEngineCommand n s := rfl
@[simp] theorem exec_bankOperation (k : Nat) (s : State) : exec (.bankOperation k) s = execBankOperation k s := rfl
@[simp] theorem exec_presenceArrive (k : Nat) (s : State) : exec (.presenceArrive k) s = execPresenceArrive k s := rfl
@[simp] theorem exec_presenceCancel (n : CoreNum) (s : State) : exec (.presenceCancel n) s = execPresenceCancel n s := rfl
@[simp] theorem exec_tradeTokenArrival (s : State) : exec (.tradeTokenArrival) s = execTradeTokenArrival s := rfl
@[simp] theorem exec_lineWrite (n : CoreNum) (line : BitVec 45) (s : State) : exec (.lineWrite n line) s = execLineWrite n line s := rfl
@[simp] theorem exec_entryPortAdmit (n : CoreNum) (port : BitVec 4) (slot : BitVec 2) (s : State) : exec (.entryPortAdmit n port slot) s = execEntryPortAdmit n port slot s := rfl
@[simp] theorem exec_heldTokenAdmit (n : CoreNum) (port : BitVec 4) (slot : BitVec 2) (colour : BitVec 8) (s : State) : exec (.heldTokenAdmit n port slot colour) s = execHeldTokenAdmit n port slot colour s := rfl
@[simp] theorem exec_linkTransfer (e : ElemNum) (src : BitVec 3) (slot : BitVec 2) (colour : BitVec 8) (s : State) : exec (.linkTransfer e src slot colour) s = execLinkTransfer e src slot colour s := rfl
@[simp] theorem exec_exitReorderEmit (n : CoreNum) (port : BitVec 4) (slot : BitVec 2) (colour : BitVec 8) (s : State) : exec (.exitReorderEmit n port slot colour) s = execExitReorderEmit n port slot colour s := rfl
@[simp] theorem exec_countTokens (e : ElemNum) (s : State) : exec (.countTokens e) s = execCountTokens e s := rfl
@[simp] theorem exec_mElementReply (e : ElemNum) (k : Nat) (s : State) : exec (.mElementReply e k) s = execMElementReply e k s := rfl
@[simp] theorem exec_retire (e : ElemNum) (slot : BitVec 2) (colour : BitVec 8) (context : BitVec 10) (s : State) : exec (.retire e slot colour context) s = execRetire e slot colour context s := rfl
@[simp] theorem exec_treeStep (e : ElemNum) (slot : BitVec 2) (colour : BitVec 8) (context : BitVec 10) (s : State) : exec (.treeStep e slot colour context) s = execTreeStep e slot colour context s := rfl
@[simp] theorem exec_vaneCommandPerform (n : CoreNum) (s : State) : exec (.vaneCommandPerform n) s = execVaneCommandPerform n s := rfl
@[simp] theorem exec_calmSweep (quad : Bool) (n : CoreNum) (s : State) : exec (.calmSweep quad n) s = execCalmSweep quad n s := rfl
@[simp] theorem exec_doldrums (h : Handle) (colour : BitVec 8) (s : State) : exec (.doldrums h colour) s = execDoldrums h colour s := rfl
@[simp] theorem exec_purgeEnd (h : Handle) (colour : BitVec 8) (s : State) : exec (.purgeEnd h colour) s = execPurgeEnd h colour s := rfl
@[simp] theorem exec_remoteTimeout (e : ElemNum) (k : Nat) (s : State) : exec (.remoteTimeout e k) s = execRemoteTimeout e k s := rfl
@[simp] theorem exec_loadDelivery (quad : Bool) (n : CoreNum) (s : State) : exec (.loadDelivery quad n) s = execLoadDelivery quad n s := rfl
@[simp] theorem exec_elementWrite (h : Handle) (s : State) : exec (.elementWrite h) s = execElementWrite h s := rfl
@[simp] theorem exec_oneShotFree (e : ElemNum) (slot : BitVec 2) (s : State) : exec (.oneShotFree e slot) s = execOneShotFree e slot s := rfl
@[simp] theorem exec_sectionStart (n : CoreNum) (entry : BitVec 4) (s : State) : exec (.sectionStart n entry) s = execSectionStart n entry s := rfl
@[simp] theorem exec_sectionRelease (n : CoreNum) (entry : BitVec 4) (s : State) : exec (.sectionRelease n entry) s = execSectionRelease n entry s := rfl
@[simp] theorem exec_sectionEarlyEnd (n : CoreNum) (entry : BitVec 4) (s : State) : exec (.sectionEarlyEnd n entry) s = execSectionEarlyEnd n entry s := rfl
@[simp] theorem exec_completionPutRetry (n : CoreNum) (entry : BitVec 4) (s : State) : exec (.completionPutRetry n entry) s = execCompletionPutRetry n entry s := rfl
@[simp] theorem exec_streamAccess (n : CoreNum) (i : BitVec 4) (s : State) : exec (.streamAccess n i) s = execStreamAccess n i s := rfl
@[simp] theorem exec_portWriteToken (n : CoreNum) (i : BitVec 4) (s : State) : exec (.portWriteToken n i) s = execPortWriteToken n i s := rfl
@[simp] theorem exec_portReadDelivery (n : CoreNum) (i : BitVec 4) (s : State) : exec (.portReadDelivery n i) s = execPortReadDelivery n i s := rfl
@[simp] theorem exec_doneAction (n : CoreNum) (i : BitVec 4) (s : State) : exec (.doneAction n i) s = execDoneAction n i s := rfl
@[simp] theorem exec_islandRow (n : CoreNum) (i : BitVec 4) (s : State) : exec (.islandRow n i) s = execIslandRow n i s := rfl
@[simp] theorem exec_islandEmit (n : CoreNum) (i : BitVec 4) (s : State) : exec (.islandEmit n i) s = execIslandEmit n i s := rfl
@[simp] theorem exec_ingressRecord (part : PartNum) (port : BitVec 3) (vf : BitVec 6) (rec : W64) (s : State) : exec (.ingressRecord part port vf rec) s = execIngressRecord part port vf rec s := rfl
@[simp] theorem exec_headRecordServed (part : PartNum) (port : BitVec 3) (colour : BitVec 8) (s : State) : exec (.headRecordServed part port colour) s = execHeadRecordServed part port colour s := rfl
@[simp] theorem exec_orphan (part : PartNum) (port : BitVec 3) (colour : BitVec 8) (s : State) : exec (.orphan part port colour) s = execOrphan part port colour s := rfl
@[simp] theorem exec_timedSlotStart (part : PartNum) (n : BitVec 4) (s : State) : exec (.timedSlotStart part n) s = execTimedSlotStart part n s := rfl
@[simp] theorem exec_admission (part : PartNum) (s : State) : exec (.admission part) s = execAdmission part s := rfl
@[simp] theorem exec_loaderImage (part : PartNum) (s : State) : exec (.loaderImage part) s = execLoaderImage part s := rfl
@[simp] theorem exec_launchArm (part : PartNum) (id : Nat) (s : State) : exec (.launchArm part id) s = execLaunchArm part id s := rfl
@[simp] theorem exec_launchPairPush (part : PartNum) (id : Nat) (s : State) : exec (.launchPairPush part id) s = execLaunchPairPush part id s := rfl
@[simp] theorem exec_launchCompletion (part : PartNum) (id : Nat) (s : State) : exec (.launchCompletion part id) s = execLaunchCompletion part id s := rfl
@[simp] theorem exec_ptpEventMessage (port : BitVec 4) (domain : BitVec 8) (msg : PtpMsg) (s : State) : exec (.ptpEventMessage port domain msg) s = execPtpEventMessage port domain msg s := rfl
@[simp] theorem exec_servoCorrection (s : State) : exec (.servoCorrection) s = execServoCorrection s := rfl
@[simp] theorem exec_dispatch (n : CoreNum) (s : State) : exec (.dispatch n) s = execDispatch n s := rfl
@[simp] theorem exec_packetForward (k : Nat) (queued : BitVec 7) (s : State) : exec (.packetForward k queued) s = execPacketForward k queued s := rfl
@[simp] theorem exec_packetArrival (k : Nat) (s : State) : exec (.packetArrival k) s = execPacketArrival k s := rfl
@[simp] theorem exec_shearedHeader (k : Nat) (s : State) : exec (.shearedHeader k) s = execShearedHeader k s := rfl
@[simp] theorem exec_reRequest (n : CoreNum) (s : State) : exec (.reRequest n) s = execReRequest n s := rfl
@[simp] theorem exec_acknowledgement (k : Nat) (s : State) : exec (.acknowledgement k) s = execAcknowledgement k s := rfl
@[simp] theorem exec_retransmitTimeout (k : Nat) (s : State) : exec (.retransmitTimeout k) s = execRetransmitTimeout k s := rfl
@[simp] theorem exec_remoteRead (k : Nat) (s : State) : exec (.remoteRead k) s = execRemoteRead k s := rfl
@[simp] theorem exec_remoteWrite (k : Nat) (s : State) : exec (.remoteWrite k) s = execRemoteWrite k s := rfl
@[simp] theorem exec_readReply (k : Nat) (s : State) : exec (.readReply k) s = execReadReply k s := rfl
@[simp] theorem exec_routeClassDelivery (k : Nat) (s : State) : exec (.routeClassDelivery k) s = execRouteClassDelivery k s := rfl
@[simp] theorem exec_readyFrame (k : Nat) (s : State) : exec (.readyFrame k) s = execReadyFrame k s := rfl
@[simp] theorem exec_readyResend (part : PartNum) (chan : BitVec 6) (s : State) : exec (.readyResend part chan) s = execReadyResend part chan s := rfl
@[simp] theorem exec_tokenFrame (k : Nat) (s : State) : exec (.tokenFrame k) s = execTokenFrame k s := rfl
@[simp] theorem exec_creditFrame (k : Nat) (s : State) : exec (.creditFrame k) s = execCreditFrame k s := rfl
@[simp] theorem exec_closeFrame (k : Nat) (s : State) : exec (.closeFrame k) s = execCloseFrame k s := rfl
@[simp] theorem exec_channelTokenSend (part : PartNum) (chan : BitVec 6) (colour : BitVec 8) (s : State) : exec (.channelTokenSend part chan colour) s = execChannelTokenSend part chan colour s := rfl
@[simp] theorem exec_authfail (port : BitVec 4) (dom : BitVec 6) (phase : Bool) (s : State) : exec (.authfail port dom phase) s = execAuthfail port dom phase s := rfl
@[simp] theorem exec_linkTrained (port : BitVec 4) (s : State) : exec (.linkTrained port) s = execLinkTrained port s := rfl
@[simp] theorem exec_lossOfSignal (port : BitVec 4) (s : State) : exec (.lossOfSignal port) s = execLossOfSignal port s := rfl
@[simp] theorem exec_getVersion (m : Spdm) (s : State) : exec (.getVersion m) s = execGetVersion m s := rfl
@[simp] theorem exec_getCapabilities (m : Spdm) (s : State) : exec (.getCapabilities m) s = execGetCapabilities m s := rfl
@[simp] theorem exec_negotiateAlgorithms (m : Spdm) (s : State) : exec (.negotiateAlgorithms m) s = execNegotiateAlgorithms m s := rfl
@[simp] theorem exec_getDigests (m : Spdm) (s : State) : exec (.getDigests m) s = execGetDigests m s := rfl
@[simp] theorem exec_getCertificate (m : Spdm) (s : State) : exec (.getCertificate m) s = execGetCertificate m s := rfl
@[simp] theorem exec_challenge (m : Spdm) (s : State) : exec (.challenge m) s = execChallenge m s := rfl
@[simp] theorem exec_getMeasurements (m : Spdm) (s : State) : exec (.getMeasurements m) s = execGetMeasurements m s := rfl
@[simp] theorem exec_keyExchange (m : Spdm) (s : State) : exec (.keyExchange m) s = execKeyExchange m s := rfl
@[simp] theorem exec_finish (m : Spdm) (s : State) : exec (.finish m) s = execFinish m s := rfl
@[simp] theorem exec_heartbeat (m : Spdm) (s : State) : exec (.heartbeat m) s = execHeartbeat m s := rfl
@[simp] theorem exec_keyUpdate (m : Spdm) (s : State) : exec (.keyUpdate m) s = execKeyUpdate m s := rfl
@[simp] theorem exec_endSession (m : Spdm) (s : State) : exec (.endSession m) s = execEndSession m s := rfl
@[simp] theorem exec_setCertificate (m : Spdm) (s : State) : exec (.setCertificate m) s = execSetCertificate m s := rfl
@[simp] theorem exec_getCsr (m : Spdm) (s : State) : exec (.getCsr m) s = execGetCsr m s := rfl
@[simp] theorem exec_chunkSend (m : Spdm) (s : State) : exec (.chunkSend m) s = execChunkSend m s := rfl
@[simp] theorem exec_chunkGet (m : Spdm) (s : State) : exec (.chunkGet m) s = execChunkGet m s := rfl
@[simp] theorem exec_vendorDefinedRequest (m : Spdm) (s : State) : exec (.vendorDefinedRequest m) s = execVendorDefinedRequest m s := rfl
@[simp] theorem exec_getTdispVersion (vf : BitVec 6) (s : State) : exec (.getTdispVersion vf) s = execGetTdispVersion vf s := rfl
@[simp] theorem exec_getTdispCapabilities (vf : BitVec 6) (s : State) : exec (.getTdispCapabilities vf) s = execGetTdispCapabilities vf s := rfl
@[simp] theorem exec_lockInterfaceRequest (vf : BitVec 6) (s : State) : exec (.lockInterfaceRequest vf) s = execLockInterfaceRequest vf s := rfl
@[simp] theorem exec_getDeviceInterfaceReport (vf : BitVec 6) (s : State) : exec (.getDeviceInterfaceReport vf) s = execGetDeviceInterfaceReport vf s := rfl
@[simp] theorem exec_getDeviceInterfaceState (vf : BitVec 6) (s : State) : exec (.getDeviceInterfaceState vf) s = execGetDeviceInterfaceState vf s := rfl
@[simp] theorem exec_startInterfaceRequest (vf : BitVec 6) (nonce : BitVec 256) (s : State) : exec (.startInterfaceRequest vf nonce) s = execStartInterfaceRequest vf nonce s := rfl
@[simp] theorem exec_stopInterfaceRequest (vf : BitVec 6) (s : State) : exec (.stopInterfaceRequest vf) s = execStopInterfaceRequest vf s := rfl
@[simp] theorem exec_frozenSetChange (vf : BitVec 6) (s : State) : exec (.frozenSetChange vf) s = execFrozenSetChange vf s := rfl
@[simp] theorem exec_partWrite (n : PartNum) (v : BitVec 256) (s : State) : exec (.partWrite n v) s = execPartWrite n v s := rfl
@[simp] theorem exec_vfWrite (n : BitVec 6) (v : W64) (s : State) : exec (.vfWrite n v) s = execVfWrite n v s := rfl
@[simp] theorem exec_lpermWrite (n : PartNum) (v : W64) (s : State) : exec (.lpermWrite n v) s = execLpermWrite n v s := rfl
@[simp] theorem exec_colourTableWrite (c : BitVec 8) (v : BitVec 128) (s : State) : exec (.colourTableWrite c v) s = execColourTableWrite c v s := rfl
@[simp] theorem exec_ownerTagWrite (n : CoreNum) (tag : BitVec 16) (s : State) : exec (.ownerTagWrite n tag) s = execOwnerTagWrite n tag s := rfl
@[simp] theorem exec_startCommand (n : CoreNum) (tag : BitVec 16) (colour : BitVec 8) (block : W64) (arg : W64) (s : State) : exec (.startCommand n tag colour block arg) s = execStartCommand n tag colour block arg s := rfl
@[simp] theorem exec_coreReset (n : CoreNum) (s : State) : exec (.coreReset n) s = execCoreReset n s := rfl
@[simp] theorem exec_retireCommand (frame : BitVec 40) (s : State) : exec (.retireCommand frame) s = execRetireCommand frame s := rfl
@[simp] theorem exec_keyLoad (shared : Bool) (n : BitVec 8) (key : BitVec 512) (session : Bool) (s : State) : exec (.keyLoad shared n key session) s = execKeyLoad shared n key session s := rfl
@[simp] theorem exec_linkKeyLoad (port : BitVec 4) (dom : BitVec 6) (phase : Bool) (key : BitVec 256) (s : State) : exec (.linkKeyLoad port dom phase key) s = execLinkKeyLoad port dom phase key s := rfl
@[simp] theorem exec_lkstatWrite (port : BitVec 4) (dom : BitVec 6) (v : W64) (s : State) : exec (.lkstatWrite port dom v) s = execLkstatWrite port dom v s := rfl
@[simp] theorem exec_sealRange (colour : BitVec 8) (va : W64) (len : W64) (s : State) : exec (.sealRange colour va len) s = execSealRange colour va len s := rfl
@[simp] theorem exec_setPre (n : CoreNum) (s : State) : exec (.setPre n) s = execSetPre n s := rfl
@[simp] theorem exec_patrol (sector : BitVec 47) (bad : Bool) (s : State) : exec (.patrol sector bad) s = execPatrol sector bad s := rfl
@[simp] theorem exec_coldReset (s : State) : exec (.coldReset) s = execColdReset s := rfl
@[simp] theorem exec_throttle (s : State) : exec (.throttle) s = execThrottle s := rfl
@[simp] theorem exec_throttleRestore (s : State) : exec (.throttleRestore) s = execThrottleRestore s := rfl
@[simp] theorem exec_thermalTrip (s : State) : exec (.thermalTrip) s = execThermalTrip s := rfl
@[simp] theorem exec_lschedWrite (part : PartNum) (v : W64) (s : State) : exec (.lschedWrite part v) s = execLschedWrite part v s := rfl
@[simp] theorem exec_lcbaseWrite (part : PartNum) (v : W64) (s : State) : exec (.lcbaseWrite part v) s = execLcbaseWrite part v s := rfl
@[simp] theorem exec_lrootWrite (part : PartNum) (v : W64) (s : State) : exec (.lrootWrite part v) s = execLrootWrite part v s := rfl
@[simp] theorem exec_ttctlWrite (part : PartNum) (v : W64) (s : State) : exec (.ttctlWrite part v) s = execTtctlWrite part v s := rfl
@[simp] theorem exec_ttWrite (part : PartNum) (n : BitVec 4) (hi : Bool) (v : W64) (s : State) : exec (.ttWrite part n hi v) s = execTtWrite part n hi v s := rfl
@[simp] theorem exec_ingWrite (part : PartNum) (n : BitVec 3) (v : W64) (s : State) : exec (.ingWrite part n v) s = execIngWrite part n v s := rfl
@[simp] theorem exec_bkctlWrite (die : BitVec 2) (bank : BitVec 7) (v : W64) (s : State) : exec (.bkctlWrite die bank v) s = execBkctlWrite die bank v s := rfl
@[simp] theorem exec_bagctlWrite (n : CoreNum) (v : W64) (s : State) : exec (.bagctlWrite n v) s = execBagctlWrite n v s := rfl
@[simp] theorem exec_bagspillWrite (n : CoreNum) (v : W64) (s : State) : exec (.bagspillWrite n v) s = execBagspillWrite n v s := rfl
@[simp] theorem exec_flbaseWrite (part : PartNum) (v : W64) (s : State) : exec (.flbaseWrite part v) s = execFlbaseWrite part v s := rfl
@[simp] theorem exec_netctlWrite (part : PartNum) (v : W64) (s : State) : exec (.netctlWrite part v) s = execNetctlWrite part v s := rfl
@[simp] theorem exec_channelEntryWrite (part : PartNum) (chan : BitVec 6) (hi : Bool) (v : W64) (s : State) : exec (.channelEntryWrite part chan hi v) s = execChannelEntryWrite part chan hi v s := rfl
@[simp] theorem exec_registerWrite (pa : BitVec 52) (v : W64) (s : State) : exec (.registerWrite pa v) s = execRegisterWrite pa v s := rfl
@[simp] theorem exec_releaseScrub (channel : Bool) (n : BitVec 7) (s : State) : exec (.releaseScrub channel n) s = execReleaseScrub channel n s := rfl
@[simp] theorem exec_hostEgressDelivery (part : PartNum) (port : BitVec 3) (s : State) : exec (.hostEgressDelivery part port) s = execHostEgressDelivery part port s := rfl

end Sys2Proof.Machine
end

