-- ==== Sys2Proof/Laws/PerInstr.lean ====
section
/-!
SUPPORT. One lemma per instruction: the words of a well-formed instruction decode to it (02 R24, R27, R35). An event has no words.
-/
namespace Sys2Proof.Laws.Encoding

/-- An instruction that has words is what its words decode to, wherever it is well formed. -/
def Statement (i : Instr) : Prop := encode i ≠ .none → i.wf = true → decodeWords (encode i) = .ok i

/-! The three opcodes that several instructions share. -/

theorem coreInstr_0x81 (w : W64) : coreInstr (BitVec.toNat (0x81 : BitVec 8)) w = (match (RRR.dec w).func.toNat with
    | 0 => some (.colqRd (.dec w)) | 1 => some (.colqOpen (.dec w)) | 2 => some (.colqClose (.dec w)) | _ => none) := rfl
theorem coreInstr_0xB7 (w : W64) : coreInstr (BitVec.toNat (0xB7 : BitVec 8)) w = (match (NET.dec w).func.toNat with
    | 0 => some (.nruleLook (.dec w)) | 1 => some (.nruleSet (.dec w)) | 2 => some (.nruleInv (.dec w)) | _ => none) := rfl
theorem coreInstr_0xCB (w : W64) : coreInstr (BitVec.toNat (0xCB : BitVec 8)) w = (match (RRR.dec w).func.toNat with
    | 0 => some (.mrecvPop (.dec w)) | 1 => some (.mrecvCfg (.dec w)) | 2 => some (.mrecvSt (.dec w))
    | 3 => some (.mrecvFree (.dec w)) | _ => none) := rfl

theorem add (o : RRR) : Statement (.add o) := fun _ hw =>
  decodeCore_eq 0x10 (RRR.enc_op _ _) rfl (by exact RRR.enc_rsv _ _) (congrArg (fun q => some (Instr.add q)) (RRR.dec_enc _ o)) hw
theorem sub (o : RRR) : Statement (.sub o) := fun _ hw =>
  decodeCore_eq 0x11 (RRR.enc_op _ _) rfl (by exact RRR.enc_rsv _ _) (congrArg (fun q => some (Instr.sub q)) (RRR.dec_enc _ o)) hw
theorem mul (o : RRR) : Statement (.mul o) := fun _ hw =>
  decodeCore_eq 0x12 (RRR.enc_op _ _) rfl (by exact RRR.enc_rsv _ _) (congrArg (fun q => some (Instr.mul q)) (RRR.dec_enc _ o)) hw
theorem mulh (o : RRR) : Statement (.mulh o) := fun _ hw =>
  decodeCore_eq 0x13 (RRR.enc_op _ _) rfl (by exact RRR.enc_rsv _ _) (congrArg (fun q => some (Instr.mulh q)) (RRR.dec_enc _ o)) hw
theorem div (o : RRR) : Statement (.div o) := fun _ hw =>
  decodeCore_eq 0x14 (RRR.enc_op _ _) rfl (by exact RRR.enc_rsv _ _) (congrArg (fun q => some (Instr.div q)) (RRR.dec_enc _ o)) hw
theorem rem (o : RRR) : Statement (.rem o) := fun _ hw =>
  decodeCore_eq 0x15 (RRR.enc_op _ _) rfl (by exact RRR.enc_rsv _ _) (congrArg (fun q => some (Instr.rem q)) (RRR.dec_enc _ o)) hw
theorem and (o : RRR) : Statement (.and o) := fun _ hw =>
  decodeCore_eq 0x16 (RRR.enc_op _ _) rfl (by exact RRR.enc_rsv _ _) (congrArg (fun q => some (Instr.and q)) (RRR.dec_enc _ o)) hw
theorem or (o : RRR) : Statement (.or o) := fun _ hw =>
  decodeCore_eq 0x17 (RRR.enc_op _ _) rfl (by exact RRR.enc_rsv _ _) (congrArg (fun q => some (Instr.or q)) (RRR.dec_enc _ o)) hw
theorem xor (o : RRR) : Statement (.xor o) := fun _ hw =>
  decodeCore_eq 0x18 (RRR.enc_op _ _) rfl (by exact RRR.enc_rsv _ _) (congrArg (fun q => some (Instr.xor q)) (RRR.dec_enc _ o)) hw
theorem shl (o : RRR) : Statement (.shl o) := fun _ hw =>
  decodeCore_eq 0x19 (RRR.enc_op _ _) rfl (by exact RRR.enc_rsv _ _) (congrArg (fun q => some (Instr.shl q)) (RRR.dec_enc _ o)) hw
theorem shr (o : RRR) : Statement (.shr o) := fun _ hw =>
  decodeCore_eq 0x1A (RRR.enc_op _ _) rfl (by exact RRR.enc_rsv _ _) (congrArg (fun q => some (Instr.shr q)) (RRR.dec_enc _ o)) hw
theorem sar (o : RRR) : Statement (.sar o) := fun _ hw =>
  decodeCore_eq 0x1B (RRR.enc_op _ _) rfl (by exact RRR.enc_rsv _ _) (congrArg (fun q => some (Instr.sar q)) (RRR.dec_enc _ o)) hw
theorem min (o : RRR) : Statement (.min o) := fun _ hw =>
  decodeCore_eq 0x1C (RRR.enc_op _ _) rfl (by exact RRR.enc_rsv _ _) (congrArg (fun q => some (Instr.min q)) (RRR.dec_enc _ o)) hw
theorem max (o : RRR) : Statement (.max o) := fun _ hw =>
  decodeCore_eq 0x1D (RRR.enc_op _ _) rfl (by exact RRR.enc_rsv _ _) (congrArg (fun q => some (Instr.max q)) (RRR.dec_enc _ o)) hw
theorem cmp (o : RRR) : Statement (.cmp o) := fun _ hw =>
  decodeCore_eq 0x1E (RRR.enc_op _ _) rfl (by exact RRR.enc_rsv _ _) (congrArg (fun q => some (Instr.cmp q)) (RRR.dec_enc _ o)) hw
theorem sel (o : RRR) : Statement (.sel o) := fun _ hw =>
  decodeCore_eq 0x1F (RRR.enc_op _ _) rfl (by exact RRR.enc_rsv _ _) (congrArg (fun q => some (Instr.sel q)) (RRR.dec_enc _ o)) hw
theorem pcmp (o : RRR) : Statement (.pcmp o) := fun _ hw =>
  decodeCore_eq 0x2A (RRR.enc_op _ _) rfl (by exact RRR.enc_rsv _ _) (congrArg (fun q => some (Instr.pcmp q)) (RRR.dec_enc _ o)) hw
theorem plog (o : RRR) : Statement (.plog o) := fun _ hw =>
  decodeCore_eq 0x2B (RRR.enc_op _ _) rfl (by exact RRR.enc_rsv _ _) (congrArg (fun q => some (Instr.plog q)) (RRR.dec_enc _ o)) hw
theorem pmov (o : RRR) : Statement (.pmov o) := fun _ hw =>
  decodeCore_eq 0x2C (RRR.enc_op _ _) rfl (by exact RRR.enc_rsv _ _) (congrArg (fun q => some (Instr.pmov q)) (RRR.dec_enc _ o)) hw
theorem lreg (o : RRR) : Statement (.lreg o) := fun _ hw =>
  decodeCore_eq 0x2D (RRR.enc_op _ _) rfl (by exact RRR.enc_rsv _ _) (congrArg (fun q => some (Instr.lreg q)) (RRR.dec_enc _ o)) hw
theorem fadd (o : RRR) : Statement (.fadd o) := fun _ hw =>
  decodeCore_eq 0x30 (RRR.enc_op _ _) rfl (by exact RRR.enc_rsv _ _) (congrArg (fun q => some (Instr.fadd q)) (RRR.dec_enc _ o)) hw
theorem fsub (o : RRR) : Statement (.fsub o) := fun _ hw =>
  decodeCore_eq 0x31 (RRR.enc_op _ _) rfl (by exact RRR.enc_rsv _ _) (congrArg (fun q => some (Instr.fsub q)) (RRR.dec_enc _ o)) hw
theorem fmul (o : RRR) : Statement (.fmul o) := fun _ hw =>
  decodeCore_eq 0x32 (RRR.enc_op _ _) rfl (by exact RRR.enc_rsv _ _) (congrArg (fun q => some (Instr.fmul q)) (RRR.dec_enc _ o)) hw
theorem fdiv (o : RRR) : Statement (.fdiv o) := fun _ hw =>
  decodeCore_eq 0x33 (RRR.enc_op _ _) rfl (by exact RRR.enc_rsv _ _) (congrArg (fun q => some (Instr.fdiv q)) (RRR.dec_enc _ o)) hw
theorem fma (o : RRR) : Statement (.fma o) := fun _ hw =>
  decodeCore_eq 0x34 (RRR.enc_op _ _) rfl (by exact RRR.enc_rsv _ _) (congrArg (fun q => some (Instr.fma q)) (RRR.dec_enc _ o)) hw
theorem fmin (o : RRR) : Statement (.fmin o) := fun _ hw =>
  decodeCore_eq 0x35 (RRR.enc_op _ _) rfl (by exact RRR.enc_rsv _ _) (congrArg (fun q => some (Instr.fmin q)) (RRR.dec_enc _ o)) hw
theorem fmax (o : RRR) : Statement (.fmax o) := fun _ hw =>
  decodeCore_eq 0x36 (RRR.enc_op _ _) rfl (by exact RRR.enc_rsv _ _) (congrArg (fun q => some (Instr.fmax q)) (RRR.dec_enc _ o)) hw
theorem fcmp (o : RRR) : Statement (.fcmp o) := fun _ hw =>
  decodeCore_eq 0x37 (RRR.enc_op _ _) rfl (by exact RRR.enc_rsv _ _) (congrArg (fun q => some (Instr.fcmp q)) (RRR.dec_enc _ o)) hw
theorem fcvt (o : RRR) : Statement (.fcvt o) := fun _ hw =>
  decodeCore_eq 0x38 (RRR.enc_op _ _) rfl (by exact RRR.enc_rsv _ _) (congrArg (fun q => some (Instr.fcvt q)) (RRR.dec_enc _ o)) hw
theorem frsqs (o : RRR) : Statement (.frsqs o) := fun _ hw =>
  decodeCore_eq 0x39 (RRR.enc_op _ _) rfl (by exact RRR.enc_rsv _ _) (congrArg (fun q => some (Instr.frsqs q)) (RRR.dec_enc _ o)) hw
theorem frcps (o : RRR) : Statement (.frcps o) := fun _ hw =>
  decodeCore_eq 0x3A (RRR.enc_op _ _) rfl (by exact RRR.enc_rsv _ _) (congrArg (fun q => some (Instr.frcps q)) (RRR.dec_enc _ o)) hw
theorem cpy (o : RRR) : Statement (.cpy o) := fun _ hw =>
  decodeCore_eq 0x6A (RRR.enc_op _ _) rfl (by exact RRR.enc_rsv _ _) (congrArg (fun q => some (Instr.cpy q)) (RRR.dec_enc _ o)) hw
theorem cpy2 (o : RRR) : Statement (.cpy2 o) := fun _ hw =>
  decodeCore_eq 0x6B (RRR.enc_op _ _) rfl (by exact RRR.enc_rsv _ _) (congrArg (fun q => some (Instr.cpy2 q)) (RRR.dec_enc _ o)) hw
theorem mfc (o : RRR) : Statement (.mfc o) := fun _ hw =>
  decodeCore_eq 0x80 (RRR.enc_op _ _) rfl (by exact RRR.enc_rsv _ _) (congrArg (fun q => some (Instr.mfc q)) (RRR.dec_enc _ o)) hw
theorem colqRd (o : RRR) : Statement (.colqRd o) := fun _ hw =>
  have hf : o.func.toNat = 0 := by rw [eq_of_beq (RRR.cmd_func hw)]; rfl
  decodeCore_eq 0x81 (RRR.enc_op _ _) rfl (by exact RRR.enc_rsv _ _)
    ((coreInstr_0x81 _).trans (by simp only [RRR.dec_enc, hf])) hw
theorem colqOpen (o : RRR) : Statement (.colqOpen o) := fun _ hw =>
  have hf : o.func.toNat = 1 := by rw [eq_of_beq (RRR.cmd_func hw)]; rfl
  decodeCore_eq 0x81 (RRR.enc_op _ _) rfl (by exact RRR.enc_rsv _ _)
    ((coreInstr_0x81 _).trans (by simp only [RRR.dec_enc, hf])) hw
theorem colqClose (o : RRR) : Statement (.colqClose o) := fun _ hw =>
  have hf : o.func.toNat = 2 := by rw [eq_of_beq (RRR.cmd_func hw)]; rfl
  decodeCore_eq 0x81 (RRR.enc_op _ _) rfl (by exact RRR.enc_rsv _ _)
    ((coreInstr_0x81 _).trans (by simp only [RRR.dec_enc, hf])) hw
theorem rpurge (o : RRR) : Statement (.rpurge o) := fun _ hw =>
  decodeCore_eq 0x82 (RRR.enc_op _ _) rfl (by exact RRR.enc_rsv _ _) (congrArg (fun q => some (Instr.rpurge q)) (RRR.dec_enc _ o)) hw
theorem rload (o : RRR) : Statement (.rload o) := fun _ hw =>
  decodeCore_eq 0x83 (RRR.enc_op _ _) rfl (by exact RRR.enc_rsv _ _) (congrArg (fun q => some (Instr.rload q)) (RRR.dec_enc _ o)) hw
theorem rarm (o : RRR) : Statement (.rarm o) := fun _ hw =>
  decodeCore_eq 0x84 (RRR.enc_op _ _) rfl (by exact RRR.enc_rsv _ _) (congrArg (fun q => some (Instr.rarm q)) (RRR.dec_enc _ o)) hw
theorem rcalm (o : RRR) : Statement (.rcalm o) := fun _ hw =>
  decodeCore_eq 0x85 (RRR.enc_op _ _) rfl (by exact RRR.enc_rsv _ _) (congrArg (fun q => some (Instr.rcalm q)) (RRR.dec_enc _ o)) hw
theorem rtear (o : RRR) : Statement (.rtear o) := fun _ hw =>
  decodeCore_eq 0x86 (RRR.enc_op _ _) rfl (by exact RRR.enc_rsv _ _) (congrArg (fun q => some (Instr.rtear q)) (RRR.dec_enc _ o)) hw
theorem rinj (o : RRR) : Statement (.rinj o) := fun _ hw =>
  decodeCore_eq 0x87 (RRR.enc_op _ _) rfl (by exact RRR.enc_rsv _ _) (congrArg (fun q => some (Instr.rinj q)) (RRR.dec_enc _ o)) hw
theorem vnset (o : RRR) : Statement (.vnset o) := fun _ hw =>
  decodeCore_eq 0xC4 (RRR.enc_op _ _) rfl (by exact RRR.enc_rsv _ _) (congrArg (fun q => some (Instr.vnset q)) (RRR.dec_enc _ o)) hw
theorem steerset (o : RRR) : Statement (.steerset o) := fun _ hw =>
  decodeCore_eq 0xC5 (RRR.enc_op _ _) rfl (by exact RRR.enc_rsv _ _) (congrArg (fun q => some (Instr.steerset q)) (RRR.dec_enc _ o)) hw
theorem vnrd (o : RRR) : Statement (.vnrd o) := fun _ hw =>
  decodeCore_eq 0xC6 (RRR.enc_op _ _) rfl (by exact RRR.enc_rsv _ _) (congrArg (fun q => some (Instr.vnrd q)) (RRR.dec_enc _ o)) hw
theorem msend (o : RRR) : Statement (.msend o) := fun _ hw =>
  decodeCore_eq 0xC8 (RRR.enc_op _ _) rfl (by exact RRR.enc_rsv _ _) (congrArg (fun q => some (Instr.msend q)) (RRR.dec_enc _ o)) hw
theorem mmask (o : RRR) : Statement (.mmask o) := fun _ hw =>
  decodeCore_eq 0xC9 (RRR.enc_op _ _) rfl (by exact RRR.enc_rsv _ _) (congrArg (fun q => some (Instr.mmask q)) (RRR.dec_enc _ o)) hw
theorem munmask (o : RRR) : Statement (.munmask o) := fun _ hw =>
  decodeCore_eq 0xCA (RRR.enc_op _ _) rfl (by exact RRR.enc_rsv _ _) (congrArg (fun q => some (Instr.munmask q)) (RRR.dec_enc _ o)) hw
theorem mrecvPop (o : RRR) : Statement (.mrecvPop o) := fun _ hw =>
  have hf : o.func.toNat = 0 := by rw [eq_of_beq (RRR.cmd_func hw)]; rfl
  decodeCore_eq 0xCB (RRR.enc_op _ _) rfl (by exact RRR.enc_rsv _ _)
    ((coreInstr_0xCB _).trans (by simp only [RRR.dec_enc, hf])) hw
theorem mrecvCfg (o : RRR) : Statement (.mrecvCfg o) := fun _ hw =>
  have hf : o.func.toNat = 1 := by rw [eq_of_beq (RRR.cmd_func hw)]; rfl
  decodeCore_eq 0xCB (RRR.enc_op _ _) rfl (by exact RRR.enc_rsv _ _)
    ((coreInstr_0xCB _).trans (by simp only [RRR.dec_enc, hf])) hw
theorem mrecvSt (o : RRR) : Statement (.mrecvSt o) := fun _ hw =>
  have hf : o.func.toNat = 2 := by rw [eq_of_beq (RRR.cmd_func hw)]; rfl
  decodeCore_eq 0xCB (RRR.enc_op _ _) rfl (by exact RRR.enc_rsv _ _)
    ((coreInstr_0xCB _).trans (by simp only [RRR.dec_enc, hf])) hw
theorem mrecvFree (o : RRR) : Statement (.mrecvFree o) := fun _ hw =>
  have hf : o.func.toNat = 3 := by rw [eq_of_beq (RRR.cmd_func hw)]; rfl
  decodeCore_eq 0xCB (RRR.enc_op _ _) rfl (by exact RRR.enc_rsv _ _)
    ((coreInstr_0xCB _).trans (by simp only [RRR.dec_enc, hf])) hw
theorem addi (o : RRI) : Statement (.addi o) := fun _ hw =>
  decodeCore_eq 0x20 (RRI.enc_op _ _) rfl rfl (congrArg (fun q => some (Instr.addi q)) (RRI.dec_enc _ o)) hw
theorem andi (o : RRI) : Statement (.andi o) := fun _ hw =>
  decodeCore_eq 0x21 (RRI.enc_op _ _) rfl rfl (congrArg (fun q => some (Instr.andi q)) (RRI.dec_enc _ o)) hw
theorem ori (o : RRI) : Statement (.ori o) := fun _ hw =>
  decodeCore_eq 0x22 (RRI.enc_op _ _) rfl rfl (congrArg (fun q => some (Instr.ori q)) (RRI.dec_enc _ o)) hw
theorem xori (o : RRI) : Statement (.xori o) := fun _ hw =>
  decodeCore_eq 0x23 (RRI.enc_op _ _) rfl rfl (congrArg (fun q => some (Instr.xori q)) (RRI.dec_enc _ o)) hw
theorem shli (o : RRI) : Statement (.shli o) := fun _ hw =>
  decodeCore_eq 0x24 (RRI.enc_op _ _) rfl rfl (congrArg (fun q => some (Instr.shli q)) (RRI.dec_enc _ o)) hw
theorem shri (o : RRI) : Statement (.shri o) := fun _ hw =>
  decodeCore_eq 0x25 (RRI.enc_op _ _) rfl rfl (congrArg (fun q => some (Instr.shri q)) (RRI.dec_enc _ o)) hw
theorem sari (o : RRI) : Statement (.sari o) := fun _ hw =>
  decodeCore_eq 0x26 (RRI.enc_op _ _) rfl rfl (congrArg (fun q => some (Instr.sari q)) (RRI.dec_enc _ o)) hw
theorem movi (o : RRI) : Statement (.movi o) := fun _ hw =>
  decodeCore_eq 0x27 (RRI.enc_op _ _) rfl rfl (congrArg (fun q => some (Instr.movi q)) (RRI.dec_enc _ o)) hw
theorem movhi (o : RRI) : Statement (.movhi o) := fun _ hw =>
  decodeCore_eq 0x28 (RRI.enc_op _ _) rfl rfl (congrArg (fun q => some (Instr.movhi q)) (RRI.dec_enc _ o)) hw
theorem br (o : BRX) : Statement (.br o) := fun _ hw =>
  decodeCore_eq 0x02 (BRX.enc_op _ _) rfl rfl (congrArg (fun q => some (Instr.br q)) (BRX.dec_enc _ o)) hw
theorem brr (o : BRX) : Statement (.brr o) := fun _ hw =>
  decodeCore_eq 0x03 (BRX.enc_op _ _) rfl rfl (congrArg (fun q => some (Instr.brr q)) (BRX.dec_enc _ o)) hw
theorem call (o : BRX) : Statement (.call o) := fun _ hw =>
  decodeCore_eq 0x04 (BRX.enc_op _ _) rfl rfl (congrArg (fun q => some (Instr.call q)) (BRX.dec_enc _ o)) hw
theorem callr (o : BRX) : Statement (.callr o) := fun _ hw =>
  decodeCore_eq 0x05 (BRX.enc_op _ _) rfl rfl (congrArg (fun q => some (Instr.callr q)) (BRX.dec_enc _ o)) hw
theorem ret (o : BRX) : Statement (.ret o) := fun _ hw =>
  decodeCore_eq 0x06 (BRX.enc_op _ _) rfl rfl (congrArg (fun q => some (Instr.ret q)) (BRX.dec_enc _ o)) hw
theorem loop (o : BRX) : Statement (.loop o) := fun _ hw =>
  decodeCore_eq 0x07 (BRX.enc_op _ _) rfl rfl (congrArg (fun q => some (Instr.loop q)) (BRX.dec_enc _ o)) hw
theorem lea (o : MEM) : Statement (.lea o) := fun _ hw =>
  decodeCore_eq 0x29 (MEM.enc_op _ _) rfl rfl (congrArg (fun q => some (Instr.lea q)) (MEM.dec_enc _ o)) hw
theorem vld (o : MEM) : Statement (.vld o) := fun _ hw =>
  decodeCore_eq 0x40 (MEM.enc_op _ _) rfl rfl (congrArg (fun q => some (Instr.vld q)) (MEM.dec_enc _ o)) hw
theorem vst (o : MEM) : Statement (.vst o) := fun _ hw =>
  decodeCore_eq 0x41 (MEM.enc_op _ _) rfl rfl (congrArg (fun q => some (Instr.vst q)) (MEM.dec_enc _ o)) hw
theorem vgath (o : MEM) : Statement (.vgath o) := fun _ hw =>
  decodeCore_eq 0x42 (MEM.enc_op _ _) rfl rfl (congrArg (fun q => some (Instr.vgath q)) (MEM.dec_enc _ o)) hw
theorem vscat (o : MEM) : Statement (.vscat o) := fun _ hw =>
  decodeCore_eq 0x43 (MEM.enc_op _ _) rfl rfl (congrArg (fun q => some (Instr.vscat q)) (MEM.dec_enc _ o)) hw
theorem ld (o : MEM) : Statement (.ld o) := fun _ hw =>
  decodeCore_eq 0x60 (MEM.enc_op _ _) rfl rfl (congrArg (fun q => some (Instr.ld q)) (MEM.dec_enc _ o)) hw
theorem st (o : MEM) : Statement (.st o) := fun _ hw =>
  decodeCore_eq 0x61 (MEM.enc_op _ _) rfl rfl (congrArg (fun q => some (Instr.st q)) (MEM.dec_enc _ o)) hw
theorem lda (o : MEM) : Statement (.lda o) := fun _ hw =>
  decodeCore_eq 0x62 (MEM.enc_op _ _) rfl rfl (congrArg (fun q => some (Instr.lda q)) (MEM.dec_enc _ o)) hw
theorem stl (o : MEM) : Statement (.stl o) := fun _ hw =>
  decodeCore_eq 0x63 (MEM.enc_op _ _) rfl rfl (congrArg (fun q => some (Instr.stl q)) (MEM.dec_enc _ o)) hw
theorem ldf (o : MEM) : Statement (.ldf o) := fun _ hw =>
  decodeCore_eq 0x64 (MEM.enc_op _ _) rfl rfl (congrArg (fun q => some (Instr.ldf q)) (MEM.dec_enc _ o)) hw
theorem pf (o : MEM) : Statement (.pf o) := fun _ hw =>
  decodeCore_eq 0x65 (MEM.enc_op _ _) rfl rfl (congrArg (fun q => some (Instr.pf q)) (MEM.dec_enc _ o)) hw
theorem cflush (o : MEM) : Statement (.cflush o) := fun _ hw =>
  decodeCore_eq 0x66 (MEM.enc_op _ _) rfl rfl (congrArg (fun q => some (Instr.cflush q)) (MEM.dec_enc _ o)) hw
theorem cinv (o : MEM) : Statement (.cinv o) := fun _ hw =>
  decodeCore_eq 0x67 (MEM.enc_op _ _) rfl rfl (congrArg (fun q => some (Instr.cinv q)) (MEM.dec_enc _ o)) hw
theorem invalCb (o : MEM) : Statement (.invalCb o) := fun _ hw =>
  decodeCore_eq 0x68 (MEM.enc_op _ _) rfl rfl (congrArg (fun q => some (Instr.invalCb q)) (MEM.dec_enc _ o)) hw
theorem waita (o : MEM) : Statement (.waita o) := fun _ hw =>
  decodeCore_eq 0x6C (MEM.enc_op _ _) rfl rfl (congrArg (fun q => some (Instr.waita q)) (MEM.dec_enc _ o)) hw
theorem amo (o : MEM) : Statement (.amo o) := fun _ hw =>
  decodeCore_eq 0x70 (MEM.enc_op _ _) rfl rfl (congrArg (fun q => some (Instr.amo q)) (MEM.dec_enc _ o)) hw
theorem amof (o : MEM) : Statement (.amof o) := fun _ hw =>
  decodeCore_eq 0x71 (MEM.enc_op _ _) rfl rfl (congrArg (fun q => some (Instr.amof q)) (MEM.dec_enc _ o)) hw
theorem cas (o : MEM) : Statement (.cas o) := fun _ hw =>
  decodeCore_eq 0x72 (MEM.enc_op _ _) rfl rfl (congrArg (fun q => some (Instr.cas q)) (MEM.dec_enc _ o)) hw
theorem red (o : MEM) : Statement (.red o) := fun _ hw =>
  decodeCore_eq 0x73 (MEM.enc_op _ _) rfl rfl (congrArg (fun q => some (Instr.red q)) (MEM.dec_enc _ o)) hw
theorem redf (o : MEM) : Statement (.redf o) := fun _ hw =>
  decodeCore_eq 0x74 (MEM.enc_op _ _) rfl rfl (congrArg (fun q => some (Instr.redf q)) (MEM.dec_enc _ o)) hw
theorem bupd (o : MEM) : Statement (.bupd o) := fun _ hw =>
  decodeCore_eq 0x75 (MEM.enc_op _ _) rfl rfl (congrArg (fun q => some (Instr.bupd q)) (MEM.dec_enc _ o)) hw
theorem bfill (o : MEM) : Statement (.bfill o) := fun _ hw =>
  decodeCore_eq 0x76 (MEM.enc_op _ _) rfl rfl (congrArg (fun q => some (Instr.bfill q)) (MEM.dec_enc _ o)) hw
theorem take (o : MEM) : Statement (.take o) := fun _ hw =>
  decodeCore_eq 0x77 (MEM.enc_op _ _) rfl rfl (congrArg (fun q => some (Instr.take q)) (MEM.dec_enc _ o)) hw
theorem put (o : MEM) : Statement (.put o) := fun _ hw =>
  decodeCore_eq 0x78 (MEM.enc_op _ _) rfl rfl (congrArg (fun q => some (Instr.put q)) (MEM.dec_enc _ o)) hw
theorem rdf (o : MEM) : Statement (.rdf o) := fun _ hw =>
  decodeCore_eq 0x79 (MEM.enc_op _ _) rfl rfl (congrArg (fun q => some (Instr.rdf q)) (MEM.dec_enc _ o)) hw
theorem clrp (o : MEM) : Statement (.clrp o) := fun _ hw =>
  decodeCore_eq 0x7A (MEM.enc_op _ _) rfl rfl (congrArg (fun q => some (Instr.clrp q)) (MEM.dec_enc _ o)) hw
theorem pstat (o : MEM) : Statement (.pstat o) := fun _ hw =>
  decodeCore_eq 0x7B (MEM.enc_op _ _) rfl rfl (congrArg (fun q => some (Instr.pstat q)) (MEM.dec_enc _ o)) hw
theorem ldsc (o : MEM) : Statement (.ldsc o) := fun _ hw =>
  decodeCore_eq 0x7C (MEM.enc_op _ _) rfl rfl (congrArg (fun q => some (Instr.ldsc q)) (MEM.dec_enc _ o)) hw
theorem stsc (o : MEM) : Statement (.stsc o) := fun _ hw =>
  decodeCore_eq 0x7D (MEM.enc_op _ _) rfl rfl (congrArg (fun q => some (Instr.stsc q)) (MEM.dec_enc _ o)) hw
theorem amoSc (o : MEM) : Statement (.amoSc o) := fun _ hw =>
  decodeCore_eq 0x7E (MEM.enc_op _ _) rfl rfl (congrArg (fun q => some (Instr.amoSc q)) (MEM.dec_enc _ o)) hw
theorem casSc (o : MEM) : Statement (.casSc o) := fun _ hw =>
  decodeCore_eq 0x7F (MEM.enc_op _ _) rfl rfl (congrArg (fun q => some (Instr.casSc q)) (MEM.dec_enc _ o)) hw
theorem vadd (o : VEC) : Statement (.vadd o) := fun _ hw =>
  decodeCore_eq 0x44 (VEC.enc_op _ _) rfl rfl (congrArg (fun q => some (Instr.vadd q)) (VEC.dec_enc _ o)) hw
theorem vsub (o : VEC) : Statement (.vsub o) := fun _ hw =>
  decodeCore_eq 0x45 (VEC.enc_op _ _) rfl rfl (congrArg (fun q => some (Instr.vsub q)) (VEC.dec_enc _ o)) hw
theorem vmul (o : VEC) : Statement (.vmul o) := fun _ hw =>
  decodeCore_eq 0x46 (VEC.enc_op _ _) rfl rfl (congrArg (fun q => some (Instr.vmul q)) (VEC.dec_enc _ o)) hw
theorem vmin (o : VEC) : Statement (.vmin o) := fun _ hw =>
  decodeCore_eq 0x47 (VEC.enc_op _ _) rfl rfl (congrArg (fun q => some (Instr.vmin q)) (VEC.dec_enc _ o)) hw
theorem vmax (o : VEC) : Statement (.vmax o) := fun _ hw =>
  decodeCore_eq 0x48 (VEC.enc_op _ _) rfl rfl (congrArg (fun q => some (Instr.vmax q)) (VEC.dec_enc _ o)) hw
theorem vand (o : VEC) : Statement (.vand o) := fun _ hw =>
  decodeCore_eq 0x49 (VEC.enc_op _ _) rfl rfl (congrArg (fun q => some (Instr.vand q)) (VEC.dec_enc _ o)) hw
theorem vor (o : VEC) : Statement (.vor o) := fun _ hw =>
  decodeCore_eq 0x4A (VEC.enc_op _ _) rfl rfl (congrArg (fun q => some (Instr.vor q)) (VEC.dec_enc _ o)) hw
theorem vxor (o : VEC) : Statement (.vxor o) := fun _ hw =>
  decodeCore_eq 0x4B (VEC.enc_op _ _) rfl rfl (congrArg (fun q => some (Instr.vxor q)) (VEC.dec_enc _ o)) hw
theorem vshl (o : VEC) : Statement (.vshl o) := fun _ hw =>
  decodeCore_eq 0x4C (VEC.enc_op _ _) rfl rfl (congrArg (fun q => some (Instr.vshl q)) (VEC.dec_enc _ o)) hw
theorem vshr (o : VEC) : Statement (.vshr o) := fun _ hw =>
  decodeCore_eq 0x4D (VEC.enc_op _ _) rfl rfl (congrArg (fun q => some (Instr.vshr q)) (VEC.dec_enc _ o)) hw
theorem vsar (o : VEC) : Statement (.vsar o) := fun _ hw =>
  decodeCore_eq 0x4E (VEC.enc_op _ _) rfl rfl (congrArg (fun q => some (Instr.vsar q)) (VEC.dec_enc _ o)) hw
theorem vfadd (o : VEC) : Statement (.vfadd o) := fun _ hw =>
  decodeCore_eq 0x4F (VEC.enc_op _ _) rfl rfl (congrArg (fun q => some (Instr.vfadd q)) (VEC.dec_enc _ o)) hw
theorem vfsub (o : VEC) : Statement (.vfsub o) := fun _ hw =>
  decodeCore_eq 0x50 (VEC.enc_op _ _) rfl rfl (congrArg (fun q => some (Instr.vfsub q)) (VEC.dec_enc _ o)) hw
theorem vfmul (o : VEC) : Statement (.vfmul o) := fun _ hw =>
  decodeCore_eq 0x51 (VEC.enc_op _ _) rfl rfl (congrArg (fun q => some (Instr.vfmul q)) (VEC.dec_enc _ o)) hw
theorem vfma (o : VEC) : Statement (.vfma o) := fun _ hw =>
  decodeCore_eq 0x52 (VEC.enc_op _ _) rfl rfl (congrArg (fun q => some (Instr.vfma q)) (VEC.dec_enc _ o)) hw
theorem vfmin (o : VEC) : Statement (.vfmin o) := fun _ hw =>
  decodeCore_eq 0x53 (VEC.enc_op _ _) rfl rfl (congrArg (fun q => some (Instr.vfmin q)) (VEC.dec_enc _ o)) hw
theorem vfmax (o : VEC) : Statement (.vfmax o) := fun _ hw =>
  decodeCore_eq 0x54 (VEC.enc_op _ _) rfl rfl (congrArg (fun q => some (Instr.vfmax q)) (VEC.dec_enc _ o)) hw
theorem vcmp (o : VEC) : Statement (.vcmp o) := fun _ hw =>
  decodeCore_eq 0x55 (VEC.enc_op _ _) rfl rfl (congrArg (fun q => some (Instr.vcmp q)) (VEC.dec_enc _ o)) hw
theorem vsel (o : VEC) : Statement (.vsel o) := fun _ hw =>
  decodeCore_eq 0x56 (VEC.enc_op _ _) rfl rfl (congrArg (fun q => some (Instr.vsel q)) (VEC.dec_enc _ o)) hw
theorem vred (o : VEC) : Statement (.vred o) := fun _ hw =>
  decodeCore_eq 0x57 (VEC.enc_op _ _) rfl rfl (congrArg (fun q => some (Instr.vred q)) (VEC.dec_enc _ o)) hw
theorem vperm (o : VEC) : Statement (.vperm o) := fun _ hw =>
  decodeCore_eq 0x58 (VEC.enc_op _ _) rfl rfl (congrArg (fun q => some (Instr.vperm q)) (VEC.dec_enc _ o)) hw
theorem vbcast (o : VEC) : Statement (.vbcast o) := fun _ hw =>
  decodeCore_eq 0x59 (VEC.enc_op _ _) rfl rfl (congrArg (fun q => some (Instr.vbcast q)) (VEC.dec_enc _ o)) hw
theorem vext (o : VEC) : Statement (.vext o) := fun _ hw =>
  decodeCore_eq 0x5A (VEC.enc_op _ _) rfl rfl (congrArg (fun q => some (Instr.vext q)) (VEC.dec_enc _ o)) hw
theorem vins (o : VEC) : Statement (.vins o) := fun _ hw =>
  decodeCore_eq 0x5B (VEC.enc_op _ _) rfl rfl (congrArg (fun q => some (Instr.vins q)) (VEC.dec_enc _ o)) hw
theorem vcvt (o : VEC) : Statement (.vcvt o) := fun _ hw =>
  decodeCore_eq 0x5C (VEC.enc_op _ _) rfl rfl (congrArg (fun q => some (Instr.vcvt q)) (VEC.dec_enc _ o)) hw
theorem vrsqs (o : VEC) : Statement (.vrsqs o) := fun _ hw =>
  decodeCore_eq 0x5D (VEC.enc_op _ _) rfl rfl (congrArg (fun q => some (Instr.vrsqs q)) (VEC.dec_enc _ o)) hw
theorem vrcps (o : VEC) : Statement (.vrcps o) := fun _ hw =>
  decodeCore_eq 0x5E (VEC.enc_op _ _) rfl rfl (congrArg (fun q => some (Instr.vrcps q)) (VEC.dec_enc _ o)) hw
theorem wload (o : MTX) : Statement (.wload o) := fun _ hw =>
  decodeCore_eq 0xA0 (MTX.enc_op _ _) rfl rfl (congrArg (fun q => some (Instr.wload q)) (MTX.dec_enc _ o)) hw
theorem mscl (o : MTX) : Statement (.mscl o) := fun _ hw =>
  decodeCore_eq 0xA1 (MTX.enc_op _ _) rfl rfl (congrArg (fun q => some (Instr.mscl q)) (MTX.dec_enc _ o)) hw
theorem mma (o : MTX) : Statement (.mma o) := fun _ hw =>
  decodeCore_eq 0xA2 (MTX.enc_op _ _) rfl rfl (congrArg (fun q => some (Instr.mma q)) (MTX.dec_enc _ o)) hw
theorem mmas (o : MTX) : Statement (.mmas o) := fun _ hw =>
  decodeCore_eq 0xA3 (MTX.enc_op _ _) rfl rfl (congrArg (fun q => some (Instr.mmas q)) (MTX.dec_enc _ o)) hw
theorem aclr (o : MTX) : Statement (.aclr o) := fun _ hw =>
  decodeCore_eq 0xA4 (MTX.enc_op _ _) rfl rfl (congrArg (fun q => some (Instr.aclr q)) (MTX.dec_enc _ o)) hw
theorem ard (o : MTX) : Statement (.ard o) := fun _ hw =>
  decodeCore_eq 0xA5 (MTX.enc_op _ _) rfl rfl (congrArg (fun q => some (Instr.ard q)) (MTX.dec_enc _ o)) hw
theorem awr (o : MTX) : Statement (.awr o) := fun _ hw =>
  decodeCore_eq 0xA6 (MTX.enc_op _ _) rfl rfl (congrArg (fun q => some (Instr.awr q)) (MTX.dec_enc _ o)) hw
theorem asave (o : MTX) : Statement (.asave o) := fun _ hw =>
  decodeCore_eq 0xA7 (MTX.enc_op _ _) rfl rfl (congrArg (fun q => some (Instr.asave q)) (MTX.dec_enc _ o)) hw
theorem sbind (o : STR) : Statement (.sbind o) := fun _ hw =>
  decodeCore_eq 0x90 (STR.enc_op _ _) rfl (by exact STR.enc_rsv _ _) (congrArg (fun q => some (Instr.sbind q)) (STR.dec_enc _ o)) hw
theorem sstart (o : STR) : Statement (.sstart o) := fun _ hw =>
  decodeCore_eq 0x91 (STR.enc_op _ _) rfl (by exact STR.enc_rsv _ _) (congrArg (fun q => some (Instr.sstart q)) (STR.dec_enc _ o)) hw
theorem sclose (o : STR) : Statement (.sclose o) := fun _ hw =>
  decodeCore_eq 0x92 (STR.enc_op _ _) rfl (by exact STR.enc_rsv _ _) (congrArg (fun q => some (Instr.sclose q)) (STR.dec_enc _ o)) hw
theorem sbar (o : STR) : Statement (.sbar o) := fun _ hw =>
  decodeCore_eq 0x93 (STR.enc_op _ _) rfl (by exact STR.enc_rsv _ _) (congrArg (fun q => some (Instr.sbar q)) (STR.dec_enc _ o)) hw
theorem spos (o : STR) : Statement (.spos o) := fun _ hw =>
  decodeCore_eq 0x94 (STR.enc_op _ _) rfl (by exact STR.enc_rsv _ _) (congrArg (fun q => some (Instr.spos q)) (STR.dec_enc _ o)) hw
theorem sdone (o : STR) : Statement (.sdone o) := fun _ hw =>
  decodeCore_eq 0x95 (STR.enc_op _ _) rfl (by exact STR.enc_rsv _ _) (congrArg (fun q => some (Instr.sdone q)) (STR.dec_enc _ o)) hw
theorem nalloc (o : NET) : Statement (.nalloc o) := fun _ hw =>
  decodeCore_eq 0xB0 (NET.enc_op _ _) rfl (by exact NET.enc_rsv _ _) (congrArg (fun q => some (Instr.nalloc q)) (NET.dec_enc _ o)) hw
theorem nfree (o : NET) : Statement (.nfree o) := fun _ hw =>
  decodeCore_eq 0xB1 (NET.enc_op _ _) rfl (by exact NET.enc_rsv _ _) (congrArg (fun q => some (Instr.nfree q)) (NET.dec_enc _ o)) hw
theorem nld (o : NET) : Statement (.nld o) := fun _ hw =>
  decodeCore_eq 0xB2 (NET.enc_op _ _) rfl (by exact NET.enc_rsv _ _) (congrArg (fun q => some (Instr.nld q)) (NET.dec_enc _ o)) hw
theorem nst (o : NET) : Statement (.nst o) := fun _ hw =>
  decodeCore_eq 0xB3 (NET.enc_op _ _) rfl (by exact NET.enc_rsv _ _) (congrArg (fun q => some (Instr.nst q)) (NET.dec_enc _ o)) hw
theorem nlink (o : NET) : Statement (.nlink o) := fun _ hw =>
  decodeCore_eq 0xB4 (NET.enc_op _ _) rfl (by exact NET.enc_rsv _ _) (congrArg (fun q => some (Instr.nlink q)) (NET.dec_enc _ o)) hw
theorem npush (o : NET) : Statement (.npush o) := fun _ hw =>
  decodeCore_eq 0xB5 (NET.enc_op _ _) rfl (by exact NET.enc_rsv _ _) (congrArg (fun q => some (Instr.npush q)) (NET.dec_enc _ o)) hw
theorem npop (o : NET) : Statement (.npop o) := fun _ hw =>
  decodeCore_eq 0xB6 (NET.enc_op _ _) rfl (by exact NET.enc_rsv _ _) (congrArg (fun q => some (Instr.npop q)) (NET.dec_enc _ o)) hw
theorem nruleLook (o : NET) : Statement (.nruleLook o) := fun _ hw =>
  have hf : o.func.toNat = 0 := by rw [eq_of_beq (NET.ok_func hw)]; rfl
  decodeCore_eq 0xB7 (NET.enc_op _ _) rfl (by exact NET.enc_rsv _ _)
    ((coreInstr_0xB7 _).trans (by simp only [NET.dec_enc, hf])) hw
theorem nruleSet (o : NET) : Statement (.nruleSet o) := fun _ hw =>
  have hf : o.func.toNat = 1 := by rw [eq_of_beq (NET.ok_func hw)]; rfl
  decodeCore_eq 0xB7 (NET.enc_op _ _) rfl (by exact NET.enc_rsv _ _)
    ((coreInstr_0xB7 _).trans (by simp only [NET.dec_enc, hf])) hw
theorem nruleInv (o : NET) : Statement (.nruleInv o) := fun _ hw =>
  have hf : o.func.toNat = 2 := by rw [eq_of_beq (NET.ok_func hw)]; rfl
  decodeCore_eq 0xB7 (NET.enc_op _ _) rfl (by exact NET.enc_rsv _ _)
    ((coreInstr_0xB7 _).trans (by simp only [NET.dec_enc, hf])) hw
theorem statrd (o : SYS) : Statement (.statrd o) := fun _ hw =>
  decodeCore_eq 0x3B (SYS.enc_op _ _) rfl rfl (congrArg (fun q => some (Instr.statrd q)) (SYS.dec_enc _ o)) hw
theorem fence (o : SYS) : Statement (.fence o) := fun _ hw =>
  decodeCore_eq 0x69 (SYS.enc_op _ _) rfl rfl (congrArg (fun q => some (Instr.fence q)) (SYS.dec_enc _ o)) hw
theorem tlbi (o : SYS) : Statement (.tlbi o) := fun _ hw =>
  decodeCore_eq 0xC0 (SYS.enc_op _ _) rfl rfl (congrArg (fun q => some (Instr.tlbi q)) (SYS.dec_enc _ o)) hw
theorem tlbw (o : SYS) : Statement (.tlbw o) := fun _ hw =>
  decodeCore_eq 0xC1 (SYS.enc_op _ _) rfl rfl (congrArg (fun q => some (Instr.tlbw q)) (SYS.dec_enc _ o)) hw
theorem trap (o : SYS) : Statement (.trap o) := fun _ hw =>
  decodeCore_eq 0xD0 (SYS.enc_op _ _) rfl rfl (congrArg (fun q => some (Instr.trap q)) (SYS.dec_enc _ o)) hw
theorem eret (o : SYS) : Statement (.eret o) := fun _ hw =>
  decodeCore_eq 0xD1 (SYS.enc_op _ _) rfl rfl (congrArg (fun q => some (Instr.eret q)) (SYS.dec_enc _ o)) hw
theorem mfs (o : SYS) : Statement (.mfs o) := fun _ hw =>
  decodeCore_eq 0xD2 (SYS.enc_op _ _) rfl rfl (congrArg (fun q => some (Instr.mfs q)) (SYS.dec_enc _ o)) hw
theorem mts (o : SYS) : Statement (.mts o) := fun _ hw =>
  decodeCore_eq 0xD3 (SYS.enc_op _ _) rfl rfl (congrArg (fun q => some (Instr.mts q)) (SYS.dec_enc _ o)) hw
theorem sysc (o : SYS) : Statement (.sysc o) := fun _ hw =>
  decodeCore_eq 0xD4 (SYS.enc_op _ _) rfl rfl (congrArg (fun q => some (Instr.sysc q)) (SYS.dec_enc _ o)) hw
theorem bkpt (o : SYS) : Statement (.bkpt o) := fun _ hw =>
  decodeCore_eq 0xD5 (SYS.enc_op _ _) rfl rfl (congrArg (fun q => some (Instr.bkpt q)) (SYS.dec_enc _ o)) hw
theorem halt (o : SYS) : Statement (.halt o) := fun _ hw =>
  decodeCore_eq 0xD6 (SYS.enc_op _ _) rfl rfl (congrArg (fun q => some (Instr.halt q)) (SYS.dec_enc _ o)) hw
theorem rsave (o : SYS) : Statement (.rsave o) := fun _ hw =>
  decodeCore_eq 0xD7 (SYS.enc_op _ _) rfl rfl (congrArg (fun q => some (Instr.rsave q)) (SYS.dec_enc _ o)) hw
theorem rrest (o : SYS) : Statement (.rrest o) := fun _ hw =>
  decodeCore_eq 0xD8 (SYS.enc_op _ _) rfl rfl (congrArg (fun q => some (Instr.rrest q)) (SYS.dec_enc _ o)) hw
theorem passE (o : ElemCfg) : Statement (.passE o) := fun _ hw =>
  decodeElem_eq 0x01 (ElemCfg.enc_op _ _) (ElemCfg.enc_rsv _ _) (congrArg (fun q => some (Instr.passE q)) (ElemCfg.dec_enc _ o)) hw
theorem constE (o : ElemCfg) : Statement (.constE o) := fun _ hw =>
  decodeElem_eq 0x02 (ElemCfg.enc_op _ _) (ElemCfg.enc_rsv _ _) (congrArg (fun q => some (Instr.constE q)) (ElemCfg.dec_enc _ o)) hw
theorem steerE (o : ElemCfg) : Statement (.steerE o) := fun _ hw =>
  decodeElem_eq 0x03 (ElemCfg.enc_op _ _) (ElemCfg.enc_rsv _ _) (congrArg (fun q => some (Instr.steerE q)) (ElemCfg.dec_enc _ o)) hw
theorem mergeE (o : ElemCfg) : Statement (.mergeE o) := fun _ hw =>
  decodeElem_eq 0x04 (ElemCfg.enc_op _ _) (ElemCfg.enc_rsv _ _) (congrArg (fun q => some (Instr.mergeE q)) (ElemCfg.dec_enc _ o)) hw
theorem loopE (o : ElemCfg) : Statement (.loopE o) := fun _ hw =>
  decodeElem_eq 0x05 (ElemCfg.enc_op _ _) (ElemCfg.enc_rsv _ _) (congrArg (fun q => some (Instr.loopE q)) (ElemCfg.dec_enc _ o)) hw
theorem callE (o : ElemCfg) : Statement (.callE o) := fun _ hw =>
  decodeElem_eq 0x06 (ElemCfg.enc_op _ _) (ElemCfg.enc_rsv _ _) (congrArg (fun q => some (Instr.callE q)) (ElemCfg.dec_enc _ o)) hw
theorem retE (o : ElemCfg) : Statement (.retE o) := fun _ hw =>
  decodeElem_eq 0x07 (ElemCfg.enc_op _ _) (ElemCfg.enc_rsv _ _) (congrArg (fun q => some (Instr.retE q)) (ElemCfg.dec_enc _ o)) hw
theorem addE (o : ElemCfg) : Statement (.addE o) := fun _ hw =>
  decodeElem_eq 0x10 (ElemCfg.enc_op _ _) (ElemCfg.enc_rsv _ _) (congrArg (fun q => some (Instr.addE q)) (ElemCfg.dec_enc _ o)) hw
theorem subE (o : ElemCfg) : Statement (.subE o) := fun _ hw =>
  decodeElem_eq 0x11 (ElemCfg.enc_op _ _) (ElemCfg.enc_rsv _ _) (congrArg (fun q => some (Instr.subE q)) (ElemCfg.dec_enc _ o)) hw
theorem mulE (o : ElemCfg) : Statement (.mulE o) := fun _ hw =>
  decodeElem_eq 0x12 (ElemCfg.enc_op _ _) (ElemCfg.enc_rsv _ _) (congrArg (fun q => some (Instr.mulE q)) (ElemCfg.dec_enc _ o)) hw
theorem minE (o : ElemCfg) : Statement (.minE o) := fun _ hw =>
  decodeElem_eq 0x13 (ElemCfg.enc_op _ _) (ElemCfg.enc_rsv _ _) (congrArg (fun q => some (Instr.minE q)) (ElemCfg.dec_enc _ o)) hw
theorem maxE (o : ElemCfg) : Statement (.maxE o) := fun _ hw =>
  decodeElem_eq 0x14 (ElemCfg.enc_op _ _) (ElemCfg.enc_rsv _ _) (congrArg (fun q => some (Instr.maxE q)) (ElemCfg.dec_enc _ o)) hw
theorem andE (o : ElemCfg) : Statement (.andE o) := fun _ hw =>
  decodeElem_eq 0x15 (ElemCfg.enc_op _ _) (ElemCfg.enc_rsv _ _) (congrArg (fun q => some (Instr.andE q)) (ElemCfg.dec_enc _ o)) hw
theorem orE (o : ElemCfg) : Statement (.orE o) := fun _ hw =>
  decodeElem_eq 0x16 (ElemCfg.enc_op _ _) (ElemCfg.enc_rsv _ _) (congrArg (fun q => some (Instr.orE q)) (ElemCfg.dec_enc _ o)) hw
theorem xorE (o : ElemCfg) : Statement (.xorE o) := fun _ hw =>
  decodeElem_eq 0x17 (ElemCfg.enc_op _ _) (ElemCfg.enc_rsv _ _) (congrArg (fun q => some (Instr.xorE q)) (ElemCfg.dec_enc _ o)) hw
theorem shlE (o : ElemCfg) : Statement (.shlE o) := fun _ hw =>
  decodeElem_eq 0x18 (ElemCfg.enc_op _ _) (ElemCfg.enc_rsv _ _) (congrArg (fun q => some (Instr.shlE q)) (ElemCfg.dec_enc _ o)) hw
theorem shrE (o : ElemCfg) : Statement (.shrE o) := fun _ hw =>
  decodeElem_eq 0x19 (ElemCfg.enc_op _ _) (ElemCfg.enc_rsv _ _) (congrArg (fun q => some (Instr.shrE q)) (ElemCfg.dec_enc _ o)) hw
theorem cmpE (o : ElemCfg) : Statement (.cmpE o) := fun _ hw =>
  decodeElem_eq 0x1A (ElemCfg.enc_op _ _) (ElemCfg.enc_rsv _ _) (congrArg (fun q => some (Instr.cmpE q)) (ElemCfg.dec_enc _ o)) hw
theorem selE (o : ElemCfg) : Statement (.selE o) := fun _ hw =>
  decodeElem_eq 0x1B (ElemCfg.enc_op _ _) (ElemCfg.enc_rsv _ _) (congrArg (fun q => some (Instr.selE q)) (ElemCfg.dec_enc _ o)) hw
theorem faddE (o : ElemCfg) : Statement (.faddE o) := fun _ hw =>
  decodeElem_eq 0x20 (ElemCfg.enc_op _ _) (ElemCfg.enc_rsv _ _) (congrArg (fun q => some (Instr.faddE q)) (ElemCfg.dec_enc _ o)) hw
theorem fsubE (o : ElemCfg) : Statement (.fsubE o) := fun _ hw =>
  decodeElem_eq 0x21 (ElemCfg.enc_op _ _) (ElemCfg.enc_rsv _ _) (congrArg (fun q => some (Instr.fsubE q)) (ElemCfg.dec_enc _ o)) hw
theorem fmulE (o : ElemCfg) : Statement (.fmulE o) := fun _ hw =>
  decodeElem_eq 0x22 (ElemCfg.enc_op _ _) (ElemCfg.enc_rsv _ _) (congrArg (fun q => some (Instr.fmulE q)) (ElemCfg.dec_enc _ o)) hw
theorem fmaE (o : ElemCfg) : Statement (.fmaE o) := fun _ hw =>
  decodeElem_eq 0x23 (ElemCfg.enc_op _ _) (ElemCfg.enc_rsv _ _) (congrArg (fun q => some (Instr.fmaE q)) (ElemCfg.dec_enc _ o)) hw
theorem fminE (o : ElemCfg) : Statement (.fminE o) := fun _ hw =>
  decodeElem_eq 0x24 (ElemCfg.enc_op _ _) (ElemCfg.enc_rsv _ _) (congrArg (fun q => some (Instr.fminE q)) (ElemCfg.dec_enc _ o)) hw
theorem fmaxE (o : ElemCfg) : Statement (.fmaxE o) := fun _ hw =>
  decodeElem_eq 0x25 (ElemCfg.enc_op _ _) (ElemCfg.enc_rsv _ _) (congrArg (fun q => some (Instr.fmaxE q)) (ElemCfg.dec_enc _ o)) hw
theorem fcmpE (o : ElemCfg) : Statement (.fcmpE o) := fun _ hw =>
  decodeElem_eq 0x26 (ElemCfg.enc_op _ _) (ElemCfg.enc_rsv _ _) (congrArg (fun q => some (Instr.fcmpE q)) (ElemCfg.dec_enc _ o)) hw
theorem cvtE (o : ElemCfg) : Statement (.cvtE o) := fun _ hw =>
  decodeElem_eq 0x27 (ElemCfg.enc_op _ _) (ElemCfg.enc_rsv _ _) (congrArg (fun q => some (Instr.cvtE q)) (ElemCfg.dec_enc _ o)) hw
theorem accE (o : ElemCfg) : Statement (.accE o) := fun _ hw =>
  decodeElem_eq 0x28 (ElemCfg.enc_op _ _) (ElemCfg.enc_rsv _ _) (congrArg (fun q => some (Instr.accE q)) (ElemCfg.dec_enc _ o)) hw
theorem mloadE (o : ElemCfg) : Statement (.mloadE o) := fun _ hw =>
  decodeElem_eq 0x30 (ElemCfg.enc_op _ _) (ElemCfg.enc_rsv _ _) (congrArg (fun q => some (Instr.mloadE q)) (ElemCfg.dec_enc _ o)) hw
theorem mstoreE (o : ElemCfg) : Statement (.mstoreE o) := fun _ hw =>
  decodeElem_eq 0x31 (ElemCfg.enc_op _ _) (ElemCfg.enc_rsv _ _) (congrArg (fun q => some (Instr.mstoreE q)) (ElemCfg.dec_enc _ o)) hw
theorem mrmwE (o : ElemCfg) : Statement (.mrmwE o) := fun _ hw =>
  decodeElem_eq 0x32 (ElemCfg.enc_op _ _) (ElemCfg.enc_rsv _ _) (congrArg (fun q => some (Instr.mrmwE q)) (ElemCfg.dec_enc _ o)) hw
theorem sdivE (o : ElemCfg) : Statement (.sdivE o) := fun _ hw =>
  decodeElem_eq 0x38 (ElemCfg.enc_op _ _) (ElemCfg.enc_rsv _ _) (congrArg (fun q => some (Instr.sdivE q)) (ElemCfg.dec_enc _ o)) hw
theorem sexp2E (o : ElemCfg) : Statement (.sexp2E o) := fun _ hw =>
  decodeElem_eq 0x39 (ElemCfg.enc_op _ _) (ElemCfg.enc_rsv _ _) (congrArg (fun q => some (Instr.sexp2E q)) (ElemCfg.dec_enc _ o)) hw
theorem slog2E (o : ElemCfg) : Statement (.slog2E o) := fun _ hw =>
  decodeElem_eq 0x3A (ElemCfg.enc_op _ _) (ElemCfg.enc_rsv _ _) (congrArg (fun q => some (Instr.slog2E q)) (ElemCfg.dec_enc _ o)) hw
theorem ssinE (o : ElemCfg) : Statement (.ssinE o) := fun _ hw =>
  decodeElem_eq 0x3B (ElemCfg.enc_op _ _) (ElemCfg.enc_rsv _ _) (congrArg (fun q => some (Instr.ssinE q)) (ElemCfg.dec_enc _ o)) hw
theorem stabE (o : ElemCfg) : Statement (.stabE o) := fun _ hw =>
  decodeElem_eq 0x3C (ElemCfg.enc_op _ _) (ElemCfg.enc_rsv _ _) (congrArg (fun q => some (Instr.stabE q)) (ElemCfg.dec_enc _ o)) hw
theorem statE (o : ElemCfg) : Statement (.statE o) := fun _ hw =>
  decodeElem_eq 0x3F (ElemCfg.enc_op _ _) (ElemCfg.enc_rsv _ _) (congrArg (fun q => some (Instr.statE q)) (ElemCfg.dec_enc _ o)) hw
theorem commitE (o : ElemCfg) : Statement (.commitE o) := fun _ hw =>
  decodeElem_eq 0x40 (ElemCfg.enc_op _ _) (ElemCfg.enc_rsv _ _) (congrArg (fun q => some (Instr.commitE q)) (ElemCfg.dec_enc _ o)) hw
theorem routeE (o : ElemCfg) : Statement (.routeE o) := fun _ hw =>
  decodeElem_eq 0x41 (ElemCfg.enc_op _ _) (ElemCfg.enc_rsv _ _) (congrArg (fun q => some (Instr.routeE q)) (ElemCfg.dec_enc _ o)) hw
theorem spaddE (o : ElemCfg) : Statement (.spaddE o) := fun _ hw =>
  decodeElem_eq 0x42 (ElemCfg.enc_op _ _) (ElemCfg.enc_rsv _ _) (congrArg (fun q => some (Instr.spaddE q)) (ElemCfg.dec_enc _ o)) hw
theorem topkE (o : ElemCfg) : Statement (.topkE o) := fun _ hw =>
  decodeElem_eq 0x43 (ElemCfg.enc_op _ _) (ElemCfg.enc_rsv _ _) (congrArg (fun q => some (Instr.topkE q)) (ElemCfg.dec_enc _ o)) hw
theorem cumsE (o : ElemCfg) : Statement (.cumsE o) := fun _ hw =>
  decodeElem_eq 0x44 (ElemCfg.enc_op _ _) (ElemCfg.enc_rsv _ _) (congrArg (fun q => some (Instr.cumsE q)) (ElemCfg.dec_enc _ o)) hw
theorem drawE (o : ElemCfg) : Statement (.drawE o) := fun _ hw =>
  decodeElem_eq 0x45 (ElemCfg.enc_op _ _) (ElemCfg.enc_rsv _ _) (congrArg (fun q => some (Instr.drawE q)) (ElemCfg.dec_enc _ o)) hw
theorem penalE (o : ElemCfg) : Statement (.penalE o) := fun _ hw =>
  decodeElem_eq 0x46 (ElemCfg.enc_op _ _) (ElemCfg.enc_rsv _ _) (congrArg (fun q => some (Instr.penalE q)) (ElemCfg.dec_enc _ o)) hw
theorem adptE (o : ElemCfg) : Statement (.adptE o) := fun _ hw =>
  decodeElem_eq 0x47 (ElemCfg.enc_op _ _) (ElemCfg.enc_rsv _ _) (congrArg (fun q => some (Instr.adptE q)) (ElemCfg.dec_enc _ o)) hw
theorem vaneE (o : ElemCfg) : Statement (.vaneE o) := fun _ hw =>
  decodeElem_eq 0x48 (ElemCfg.enc_op _ _) (ElemCfg.enc_rsv _ _) (congrArg (fun q => some (Instr.vaneE q)) (ElemCfg.dec_enc _ o)) hw
theorem islandCommandPerform (n : CoreNum) : Statement (.islandCommandPerform n) := fun h => absurd rfl h
theorem waitAnswer (n : CoreNum) : Statement (.waitAnswer n) := fun h => absurd rfl h
theorem waitCancel (n : CoreNum) : Statement (.waitCancel n) := fun h => absurd rfl h
theorem bankReply (n : CoreNum) : Statement (.bankReply n) := fun h => absurd rfl h
theorem interruptTaken (n : CoreNum) : Statement (.interruptTaken n) := fun h => absurd rfl h
theorem remoteLoadTimeout (n : CoreNum) : Statement (.remoteLoadTimeout n) := fun h => absurd rfl h
theorem l1WriteBack (n : CoreNum) (line : BitVec 45) : Statement (.l1WriteBack n line) := fun h => absurd rfl h
theorem engineCommand (n : CoreNum) : Statement (.engineCommand n) := fun h => absurd rfl h
theorem bankOperation (k : Nat) : Statement (.bankOperation k) := fun h => absurd rfl h
theorem presenceArrive (k : Nat) : Statement (.presenceArrive k) := fun h => absurd rfl h
theorem presenceCancel (n : CoreNum) : Statement (.presenceCancel n) := fun h => absurd rfl h
theorem tradeTokenArrival : Statement (.tradeTokenArrival) := fun h => absurd rfl h
theorem lineWrite (n : CoreNum) (line : BitVec 45) : Statement (.lineWrite n line) := fun h => absurd rfl h
theorem entryPortAdmit (n : CoreNum) (port : BitVec 4) (slot : BitVec 2) : Statement (.entryPortAdmit n port slot) := fun h => absurd rfl h
theorem heldTokenAdmit (n : CoreNum) (port : BitVec 4) (slot : BitVec 2) (colour : BitVec 8) : Statement (.heldTokenAdmit n port slot colour) := fun h => absurd rfl h
theorem linkTransfer (e : ElemNum) (src : BitVec 3) (slot : BitVec 2) (colour : BitVec 8) : Statement (.linkTransfer e src slot colour) := fun h => absurd rfl h
theorem exitReorderEmit (n : CoreNum) (port : BitVec 4) (slot : BitVec 2) (colour : BitVec 8) : Statement (.exitReorderEmit n port slot colour) := fun h => absurd rfl h
theorem countTokens (e : ElemNum) : Statement (.countTokens e) := fun h => absurd rfl h
theorem mElementReply (e : ElemNum) (k : Nat) : Statement (.mElementReply e k) := fun h => absurd rfl h
theorem retire (e : ElemNum) (slot : BitVec 2) (colour : BitVec 8) (context : BitVec 10) : Statement (.retire e slot colour context) := fun h => absurd rfl h
theorem treeStep (e : ElemNum) (slot : BitVec 2) (colour : BitVec 8) (context : BitVec 10) : Statement (.treeStep e slot colour context) := fun h => absurd rfl h
theorem vaneCommandPerform (n : CoreNum) : Statement (.vaneCommandPerform n) := fun h => absurd rfl h
theorem calmSweep (quad : Bool) (n : CoreNum) : Statement (.calmSweep quad n) := fun h => absurd rfl h
theorem doldrums (h : Handle) (colour : BitVec 8) : Statement (.doldrums h colour) := fun h => absurd rfl h
theorem purgeEnd (h : Handle) (colour : BitVec 8) : Statement (.purgeEnd h colour) := fun h => absurd rfl h
theorem remoteTimeout (e : ElemNum) (k : Nat) : Statement (.remoteTimeout e k) := fun h => absurd rfl h
theorem loadDelivery (quad : Bool) (n : CoreNum) : Statement (.loadDelivery quad n) := fun h => absurd rfl h
theorem elementWrite (h : Handle) : Statement (.elementWrite h) := fun h => absurd rfl h
theorem oneShotFree (e : ElemNum) (slot : BitVec 2) : Statement (.oneShotFree e slot) := fun h => absurd rfl h
theorem sectionStart (n : CoreNum) (entry : BitVec 4) : Statement (.sectionStart n entry) := fun h => absurd rfl h
theorem sectionRelease (n : CoreNum) (entry : BitVec 4) : Statement (.sectionRelease n entry) := fun h => absurd rfl h
theorem sectionEarlyEnd (n : CoreNum) (entry : BitVec 4) : Statement (.sectionEarlyEnd n entry) := fun h => absurd rfl h
theorem completionPutRetry (n : CoreNum) (entry : BitVec 4) : Statement (.completionPutRetry n entry) := fun h => absurd rfl h
theorem streamAccess (n : CoreNum) (i : BitVec 4) : Statement (.streamAccess n i) := fun h => absurd rfl h
theorem portWriteToken (n : CoreNum) (i : BitVec 4) : Statement (.portWriteToken n i) := fun h => absurd rfl h
theorem portReadDelivery (n : CoreNum) (i : BitVec 4) : Statement (.portReadDelivery n i) := fun h => absurd rfl h
theorem doneAction (n : CoreNum) (i : BitVec 4) : Statement (.doneAction n i) := fun h => absurd rfl h
theorem islandRow (n : CoreNum) (i : BitVec 4) : Statement (.islandRow n i) := fun h => absurd rfl h
theorem islandEmit (n : CoreNum) (i : BitVec 4) : Statement (.islandEmit n i) := fun h => absurd rfl h
theorem ingressRecord (part : PartNum) (port : BitVec 3) (vf : BitVec 6) (rec : W64) : Statement (.ingressRecord part port vf rec) := fun h => absurd rfl h
theorem headRecordServed (part : PartNum) (port : BitVec 3) (colour : BitVec 8) : Statement (.headRecordServed part port colour) := fun h => absurd rfl h
theorem orphan (part : PartNum) (port : BitVec 3) (colour : BitVec 8) : Statement (.orphan part port colour) := fun h => absurd rfl h
theorem timedSlotStart (part : PartNum) (n : BitVec 4) : Statement (.timedSlotStart part n) := fun h => absurd rfl h
theorem admission (part : PartNum) : Statement (.admission part) := fun h => absurd rfl h
theorem loaderImage (part : PartNum) : Statement (.loaderImage part) := fun h => absurd rfl h
theorem launchArm (part : PartNum) (id : Nat) : Statement (.launchArm part id) := fun h => absurd rfl h
theorem launchPairPush (part : PartNum) (id : Nat) : Statement (.launchPairPush part id) := fun h => absurd rfl h
theorem launchCompletion (part : PartNum) (id : Nat) : Statement (.launchCompletion part id) := fun h => absurd rfl h
theorem ptpEventMessage (port : BitVec 4) (domain : BitVec 8) (msg : PtpMsg) : Statement (.ptpEventMessage port domain msg) := fun h => absurd rfl h
theorem servoCorrection : Statement (.servoCorrection) := fun h => absurd rfl h
theorem dispatch (n : CoreNum) : Statement (.dispatch n) := fun h => absurd rfl h
theorem packetForward (k : Nat) (queued : BitVec 7) : Statement (.packetForward k queued) := fun h => absurd rfl h
theorem packetArrival (k : Nat) : Statement (.packetArrival k) := fun h => absurd rfl h
theorem shearedHeader (k : Nat) : Statement (.shearedHeader k) := fun h => absurd rfl h
theorem reRequest (n : CoreNum) : Statement (.reRequest n) := fun h => absurd rfl h
theorem acknowledgement (k : Nat) : Statement (.acknowledgement k) := fun h => absurd rfl h
theorem retransmitTimeout (k : Nat) : Statement (.retransmitTimeout k) := fun h => absurd rfl h
theorem remoteRead (k : Nat) : Statement (.remoteRead k) := fun h => absurd rfl h
theorem remoteWrite (k : Nat) : Statement (.remoteWrite k) := fun h => absurd rfl h
theorem readReply (k : Nat) : Statement (.readReply k) := fun h => absurd rfl h
theorem routeClassDelivery (k : Nat) : Statement (.routeClassDelivery k) := fun h => absurd rfl h
theorem readyFrame (k : Nat) : Statement (.readyFrame k) := fun h => absurd rfl h
theorem readyResend (part : PartNum) (chan : BitVec 6) : Statement (.readyResend part chan) := fun h => absurd rfl h
theorem tokenFrame (k : Nat) : Statement (.tokenFrame k) := fun h => absurd rfl h
theorem creditFrame (k : Nat) : Statement (.creditFrame k) := fun h => absurd rfl h
theorem closeFrame (k : Nat) : Statement (.closeFrame k) := fun h => absurd rfl h
theorem channelTokenSend (part : PartNum) (chan : BitVec 6) (colour : BitVec 8) : Statement (.channelTokenSend part chan colour) := fun h => absurd rfl h
theorem authfail (port : BitVec 4) (dom : BitVec 6) (phase : Bool) : Statement (.authfail port dom phase) := fun h => absurd rfl h
theorem linkTrained (port : BitVec 4) : Statement (.linkTrained port) := fun h => absurd rfl h
theorem lossOfSignal (port : BitVec 4) : Statement (.lossOfSignal port) := fun h => absurd rfl h
theorem getVersion (m : Spdm) : Statement (.getVersion m) := fun h => absurd rfl h
theorem getCapabilities (m : Spdm) : Statement (.getCapabilities m) := fun h => absurd rfl h
theorem negotiateAlgorithms (m : Spdm) : Statement (.negotiateAlgorithms m) := fun h => absurd rfl h
theorem getDigests (m : Spdm) : Statement (.getDigests m) := fun h => absurd rfl h
theorem getCertificate (m : Spdm) : Statement (.getCertificate m) := fun h => absurd rfl h
theorem challenge (m : Spdm) : Statement (.challenge m) := fun h => absurd rfl h
theorem getMeasurements (m : Spdm) : Statement (.getMeasurements m) := fun h => absurd rfl h
theorem keyExchange (m : Spdm) : Statement (.keyExchange m) := fun h => absurd rfl h
theorem finish (m : Spdm) : Statement (.finish m) := fun h => absurd rfl h
theorem heartbeat (m : Spdm) : Statement (.heartbeat m) := fun h => absurd rfl h
theorem keyUpdate (m : Spdm) : Statement (.keyUpdate m) := fun h => absurd rfl h
theorem endSession (m : Spdm) : Statement (.endSession m) := fun h => absurd rfl h
theorem setCertificate (m : Spdm) : Statement (.setCertificate m) := fun h => absurd rfl h
theorem getCsr (m : Spdm) : Statement (.getCsr m) := fun h => absurd rfl h
theorem chunkSend (m : Spdm) : Statement (.chunkSend m) := fun h => absurd rfl h
theorem chunkGet (m : Spdm) : Statement (.chunkGet m) := fun h => absurd rfl h
theorem vendorDefinedRequest (m : Spdm) : Statement (.vendorDefinedRequest m) := fun h => absurd rfl h
theorem getTdispVersion (vf : BitVec 6) : Statement (.getTdispVersion vf) := fun h => absurd rfl h
theorem getTdispCapabilities (vf : BitVec 6) : Statement (.getTdispCapabilities vf) := fun h => absurd rfl h
theorem lockInterfaceRequest (vf : BitVec 6) : Statement (.lockInterfaceRequest vf) := fun h => absurd rfl h
theorem getDeviceInterfaceReport (vf : BitVec 6) : Statement (.getDeviceInterfaceReport vf) := fun h => absurd rfl h
theorem getDeviceInterfaceState (vf : BitVec 6) : Statement (.getDeviceInterfaceState vf) := fun h => absurd rfl h
theorem startInterfaceRequest (vf : BitVec 6) (nonce : BitVec 256) : Statement (.startInterfaceRequest vf nonce) := fun h => absurd rfl h
theorem stopInterfaceRequest (vf : BitVec 6) : Statement (.stopInterfaceRequest vf) := fun h => absurd rfl h
theorem frozenSetChange (vf : BitVec 6) : Statement (.frozenSetChange vf) := fun h => absurd rfl h
theorem partWrite (n : PartNum) (v : BitVec 256) : Statement (.partWrite n v) := fun h => absurd rfl h
theorem vfWrite (n : BitVec 6) (v : W64) : Statement (.vfWrite n v) := fun h => absurd rfl h
theorem lpermWrite (n : PartNum) (v : W64) : Statement (.lpermWrite n v) := fun h => absurd rfl h
theorem colourTableWrite (c : BitVec 8) (v : BitVec 128) : Statement (.colourTableWrite c v) := fun h => absurd rfl h
theorem ownerTagWrite (n : CoreNum) (tag : BitVec 16) : Statement (.ownerTagWrite n tag) := fun h => absurd rfl h
theorem startCommand (n : CoreNum) (tag : BitVec 16) (colour : BitVec 8) (block : W64) (arg : W64) : Statement (.startCommand n tag colour block arg) := fun h => absurd rfl h
theorem coreReset (n : CoreNum) : Statement (.coreReset n) := fun h => absurd rfl h
theorem retireCommand (frame : BitVec 40) : Statement (.retireCommand frame) := fun h => absurd rfl h
theorem keyLoad (shared : Bool) (n : BitVec 8) (key : BitVec 512) (session : Bool) : Statement (.keyLoad shared n key session) := fun h => absurd rfl h
theorem linkKeyLoad (port : BitVec 4) (dom : BitVec 6) (phase : Bool) (key : BitVec 256) : Statement (.linkKeyLoad port dom phase key) := fun h => absurd rfl h
theorem lkstatWrite (port : BitVec 4) (dom : BitVec 6) (v : W64) : Statement (.lkstatWrite port dom v) := fun h => absurd rfl h
theorem sealRange (colour : BitVec 8) (va : W64) (len : W64) : Statement (.sealRange colour va len) := fun h => absurd rfl h
theorem setPre (n : CoreNum) : Statement (.setPre n) := fun h => absurd rfl h
theorem patrol (sector : BitVec 47) (bad : Bool) : Statement (.patrol sector bad) := fun h => absurd rfl h
theorem coldReset : Statement (.coldReset) := fun h => absurd rfl h
theorem throttle : Statement (.throttle) := fun h => absurd rfl h
theorem throttleRestore : Statement (.throttleRestore) := fun h => absurd rfl h
theorem thermalTrip : Statement (.thermalTrip) := fun h => absurd rfl h
theorem lschedWrite (part : PartNum) (v : W64) : Statement (.lschedWrite part v) := fun h => absurd rfl h
theorem lcbaseWrite (part : PartNum) (v : W64) : Statement (.lcbaseWrite part v) := fun h => absurd rfl h
theorem lrootWrite (part : PartNum) (v : W64) : Statement (.lrootWrite part v) := fun h => absurd rfl h
theorem ttctlWrite (part : PartNum) (v : W64) : Statement (.ttctlWrite part v) := fun h => absurd rfl h
theorem ttWrite (part : PartNum) (n : BitVec 4) (hi : Bool) (v : W64) : Statement (.ttWrite part n hi v) := fun h => absurd rfl h
theorem ingWrite (part : PartNum) (n : BitVec 3) (v : W64) : Statement (.ingWrite part n v) := fun h => absurd rfl h
theorem bkctlWrite (die : BitVec 2) (bank : BitVec 7) (v : W64) : Statement (.bkctlWrite die bank v) := fun h => absurd rfl h
theorem bagctlWrite (n : CoreNum) (v : W64) : Statement (.bagctlWrite n v) := fun h => absurd rfl h
theorem bagspillWrite (n : CoreNum) (v : W64) : Statement (.bagspillWrite n v) := fun h => absurd rfl h
theorem flbaseWrite (part : PartNum) (v : W64) : Statement (.flbaseWrite part v) := fun h => absurd rfl h
theorem netctlWrite (part : PartNum) (v : W64) : Statement (.netctlWrite part v) := fun h => absurd rfl h
theorem channelEntryWrite (part : PartNum) (chan : BitVec 6) (hi : Bool) (v : W64) : Statement (.channelEntryWrite part chan hi v) := fun h => absurd rfl h
theorem registerWrite (pa : BitVec 52) (v : W64) : Statement (.registerWrite pa v) := fun h => absurd rfl h
theorem releaseScrub (channel : Bool) (n : BitVec 7) : Statement (.releaseScrub channel n) := fun h => absurd rfl h
theorem hostEgressDelivery (part : PartNum) (port : BitVec 3) : Statement (.hostEgressDelivery part port) := fun h => absurd rfl h

end Sys2Proof.Laws.Encoding
end

