-- ==== Sys2Proof/Laws/Trap.lean ====
section
/-!
SUPPORT. What an instruction's guard, fault and trap do, said once: the wrapper of every core instruction with its guard true and
false, and the entry of a trap.
-/
namespace Sys2Proof.Machine

theorem plain_off {g : BitVec 3} {gs : Bool} {s : State} (f : State → State) (h : s.guard g gs = false) : plain g gs s f = .next s := by
  simp [plain, h]
theorem plain_on {g : BitVec 3} {gs : Bool} {s : State} (f : State → State) (h : s.guard g gs = true) : plain g gs s f = .next (f s) := by
  simp [plain, h]
theorem checked_off {g : BitVec 3} {gs : Bool} {s : State} (f : State → Except XF State) (h : s.guard g gs = false) :
    checked g gs s f = .next s := by
  simp [checked, h]
theorem checked_ok {g : BitVec 3} {gs : Bool} {s t : State} {f : State → Except XF State} (h : s.guard g gs = true) (hf : f s = .ok t) :
    checked g gs s f = .next t := by
  simp [checked, h, hf]
/-- A fault of an instruction is taken as its trap. -/
theorem checked_fault {g : BitVec 3} {gs : Bool} {s : State} {f : State → Except XF State} {code lvl : Nat} {v : W64}
    (h : s.guard g gs = true) (hf : f s = .error (.fault code lvl v)) : checked g gs s f = .next (s.faultAt s.cur code lvl v) := by
  simp [checked, h, hf, State.stopFor]

/-- What entering a trap writes (19 R283). -/
@[simp] theorem Core.enter_run (c : Core) (t : Trap) : (c.enter t).run = .running := rfl
@[simp] theorem Core.enter_lvlS (c : Core) (t : Trap) : (c.enter t).lvlS = true := rfl
@[simp] theorem Core.enter_pc (c : Core) (t : Trap) : (c.enter t).pc = c.regs.tvec := rfl
@[simp] theorem Core.enter_tval (c : Core) (t : Trap) : (c.enter t).regs.tval = t.tval := rfl
@[simp] theorem Core.enter_tblock (c : Core) (t : Trap) : (c.enter t).regs.tblock = t.tblock := rfl
@[simp] theorem Core.enter_tcause (c : Core) (t : Trap) : (c.enter t).regs.tcause = causeWord t := rfl
@[simp] theorem Core.enter_held (c : Core) (t : Trap) : (c.enter t).blk.held = [] := rfl
@[simp] theorem Core.enter_x (c : Core) (t : Trap) : (c.enter t).regs.x = c.regs.x := rfl
@[simp] theorem Core.enter_tvec (c : Core) (t : Trap) : (c.enter t).regs.tvec = c.regs.tvec := rfl

/-- Forgetting the outstanding reads of a core changes no core and no byte. -/
theorem State.core_dropReads (s : State) (n m : Nat) : (s.dropReads n).core m = s.core m := rfl
theorem State.readHome_dropReads (s : State) (n key h : Nat) : (s.dropReads n).readHome key h = s.readHome key h := rfl

/-- A trap on a core with nothing to give back and no answer outstanding enters its handler at once. -/
theorem State.takeTrap_enter {s : State} {n : Nat} (t : Trap) (h : (s.core n).blk.held = []) (ho : s.outstanding n = false) :
    s.takeTrap n t = ((s.dropReads n).setCore n ((s.core n).enter t)).openHandler n t := by
  have hu : s.undo n = s := by simp [State.undo, h]
  have hd : (s.dropReads n).outstanding n = false := ho
  simp [State.takeTrap, hu, hd, State.core_dropReads]

end Sys2Proof.Machine
end

