-- ==== Sys2Proof/Safety.lean ====
section
/-!
DEFINITION. What counts as a safe run: a step is safe where it does not stop, and a run is safe where each of its steps is. The
one stop of the model is a package without power.
-/
namespace Sys2Proof.Safety

/-- The step from a state does not stop. -/
def stepSafe (s : Machine.State) : Prop := ∃ t, Machine.step s = .next t

/-- Every one of the next n steps does not stop. -/
def runSafe : Nat → Machine.State → Prop
  | 0, _ => True
  | n + 1, s => ∃ t, Machine.step s = .next t ∧ runSafe n t

end Sys2Proof.Safety
end

