-- ==== Sys2Proof/Tests/Slice0.lean ====
section
/-!
SUPPORT. Small tests: terms that are not well formed, words written out from the encodings, single steps with results taken from the
manual, and for every obligation with hypotheses a state and operands that meet them.
-/
namespace Sys2Proof.Tests
open Sys2Proof Sys2Proof.Machine Sys2Proof.Says
set_option Elab.async false

/-! ## Operands and a small world -/

abbrev rrr : RRR := { g := 0, gs := false, d := 5, a := 6, b := 7, c := 0, func := 0, ty := 4, rm := 0, sat := false }
abbrev rri : RRI := { g := 0, gs := false, d := 5, a := 6, imm := 1 }
abbrev mem : MEM := { g := 0, gs := false, d := 5, a := 6, b := 0, ix := false, scope := 0, ord := 0, ty := 4, sh := 0, func := 0, off := 0 }
abbrev brx : BRX := { g := 0, gs := false, d := 0, a := 0, b := 0, off := 4 }
abbrev vec : VEC :=
  { g := 0, gs := false, d := 5, a := 6, b := 7, c := 0, m := 1, z := false, func := 0, ty := 4, rm := 0, sat := false, imm := 0 }
abbrev mtx : MTX :=
  { g := 0, gs := false, d := 0, a := 6, b := 0, func := 0, ty := 0, w := 0, acc := 1, sp := false, imm := 0x0101 }
abbrev str : STR := { g := 0, gs := false, d := 0, a := 0, b := 0, sid := 0, smask := 0, func := 0 }
abbrev net : NET := { g := 0, gs := false, d := 0, a := 0, b := 0, pa := 0, pb := 0, kind := 0, func := 0 }
abbrev sys : SYS := { g := 0, gs := false, d := 0, a := 0, b := 0, sreg := 0, func := 0, imm := 0 }

/-- A floor page of the test world: its virtual and its physical address, in bank 0 of die 0. -/
abbrev pageVa : Nat := 0x100000
abbrev pageHomeAddr : Nat := 0x1000001000
/-- A leaf: present, leaf, readable, writable, user, then the bits given (10 presence-tagged, 63 executable). -/
def leaf (home : Nat) (bits : Nat) : W64 := BitVec.ofNat 64 (home + 0x1F + bits)

/-- Registers with scalar values given. -/
def regs (x : Sparse W64) : Regs := { Regs.reset with x := x, p := [(1, 5)] }
/-- A core that runs an open block of four words at S, its second instruction next, with the page in its TLB. -/
def core0 (bits : Nat) (x : Sparse W64) : Core :=
  { Core.reset with
    run := .running, owner := 1, pc := 0x200000, regs := regs x,
    blk := { Blk.reset with isOpen := true, hdr := 0x200000, words := [0, 0, 0, 0], idx := 1, w := regs x },
    tlb := [{ colour := 0, base := pageVa, size := 4096, pte := leaf pageHomeAddr bits }] }
/-- A partition with every sector and channel, one function and one colour, and core 0 as given. -/
def pkg (c : Core) : State :=
  { State.reset with
    parts := [(0, { valid := true, smask := 0xFFFF, chmask := BitVec.allOnes 128 })],
    vfs := [(0, { Vf.reset with en := true })],
    colours := [(0, { Colour.reset with valid := true, keyed := true, key := 5 })],
    cores := [(0, c)] }
def world (bits : Nat) (x : Sparse W64) : State := pkg (core0 bits x)
/-- The world of the scalar forms: x6 = -2, x7 = 3. -/
def w0 : State := world 0 [(6, 0xFFFFFFFFFFFFFFFE), (7, 3)]

/-- The instruction is well formed and guard p0 is true. -/
def runs (s : State) (i : Instr) : Bool := i.wf && s.guard 0 false

theorem runs_iff (s : State) (i : Instr) : runs s i = true ↔ Runs i 0 false s := by simp [runs, Runs]

/-! ## Witnesses

A theorem `witness_<Name>` lists, clause by clause, instructions that `Runs` in a state of the world and the clause's other hypotheses
there. `(f).toOption.isSome` says that a check answers `.ok`. -/

theorem witness_IntegerArithmeticResult : ([.add rrr, .sub rrr, .mul { rrr with sat := true }, .mulh rrr, .div rrr, .rem rrr, .min rrr,
    .max rrr, .cmp { rrr with func := 5 }].all (runs w0)) = true := by decide
theorem witness_IntegerBitwiseResult :
    ([.and rrr, .or rrr, .xor rrr, .shl rrr, .shr rrr, .sar rrr, .sel rrr].all (runs w0)) = true := by decide
theorem witness_ImmediateAndAddressResult : ([.addi rri, .andi rri, .ori rri, .xori rri, .shli { rri with imm := 63 }, .shri rri, .sari rri,
    .movi { rri with a := 0 }, .movhi rri, .lea { mem with ty := 0 }, .lea { mem with ty := 0, ix := true, b := 7, sh := 7 }].all (runs w0)) = true := by
  decide
theorem witness_PredicateResult :
    ([.pcmp { rrr with ty := 7, func := 5 }, .pcmp { rrr with ty := 8 }, .plog { rrr with ty := 0 }, .plog { rrr with ty := 0, func := 1 },
      .plog { rrr with ty := 0, func := 2 }, .plog { rrr with ty := 0, func := 3 }, .plog { rrr with ty := 0, func := 4, b := 0 },
      .pmov { rrr with ty := 0, b := 0 }, .pmov { rrr with ty := 0, b := 0, func := 1 }, .pmov { rrr with ty := 0, b := 0, func := 2 },
      .pmov { rrr with ty := 0, b := 0, func := 3 }].all (runs w0)) = true := by decide
/-- A world in which a loop runs. -/
def wLoop : State := w0.setW { w0.w with lact := true, lcnt := 2, lbeg := 0x200000, lend := 0x200028 }
theorem witness_LoopRegisterReadWrite :
    (((List.range 4).map fun k => Instr.lreg { rrr with ty := 0, a := 0, b := 0, func := BitVec.ofNat 8 k }).all (runs w0)) = true ∧
    (((List.range 4).map fun k => Instr.lreg { rrr with ty := 0, d := 0, b := 0, func := BitVec.ofNat 8 (k + 4) }).all (runs w0)) = true ∧
    w0.w.lact = false ∧ (w0.x 6).toNat % 8 ≠ 0 ∧ (w0.x 0).toNat % 8 = 0 ∧ wLoop.w.lact = true ∧ (w0.x 7).getLsbD 0 = true ∧
    w0.w.lend.toNat ≤ w0.w.lbeg.toNat ∧ wLoop.w.lbeg.toNat < wLoop.w.lend.toNat := by decide
/-- x6 and x7 hold NaNs of FP32 with different payloads. -/
def wNaN : State := world 0 [(6, 0x7F800001), (7, 0xFFC00000)]
theorem witness_FloatingPointResult : ([.fadd { rrr with ty := 8 }, .fsub { rrr with ty := 8 }, .fmul { rrr with ty := 9 }, .fdiv { rrr with ty := 10 },
    .fma { rrr with ty := 8, c := 7 }, .fmin { rrr with ty := 8 }, .fmax { rrr with ty := 8 }, .fcmp { rrr with ty := 8, func := 5 },
    .pcmp { rrr with ty := 8 }].all (runs wNaN)) = true ∧ isNaNWord 8 (wNaN.x 6) ∧ isNaNWord 8 (wNaN.x 7) := by
  simp only [isNaNWord]; decide
theorem witness_ConverterResult : ([.fcvt { rrr with func := 8, ty := 0xB, b := 0, sat := true }, .fcvt { rrr with func := 8, ty := 6, b := 0 },
    .frsqs { rrr with ty := 8, b := 0 }, .frcps { rrr with ty := 8, b := 0 }, .statrd { sys with d := 5, imm := 3 },
    .statrd { sys with d := 5, func := 1 }].all (runs w0)) = true := by decide
theorem witness_VectorIntegerResult : ([.vadd { vec with sat := true }, .vsub { vec with ty := 0x11 }, .vmul { vec with ty := 0x14 }, .vmin vec,
    .vmax vec, .vand { vec with ty := 0 }, .vor { vec with ty := 0 }, .vxor { vec with ty := 0 }, .vshl vec,
    .vshr { vec with func := 1, b := 0, imm := 31 }, .vsar vec].all (runs w0)) = true := by decide
theorem witness_VectorFloatAndMoveResult : ([.vfadd { vec with ty := 8 }, .vfsub { vec with ty := 8 }, .vfmul { vec with ty := 0xD },
    .vfma { vec with ty := 0xE, c := 8 }, .vfmin { vec with ty := 8 }, .vfmax { vec with ty := 8 }, .vperm { vec with ty := 0 },
    .vbcast { vec with ty := 0, b := 0 }, .vbcast { vec with ty := 0, b := 0, func := 1, imm := 31 }, .vcmp { vec with func := 5 },
    .vsel { vec with ty := 0, c := 1, m := 0 }, .vext { vec with b := 0, m := 0, imm := 31 },
    .vins { vec with ty := 0, b := 0, m := 0, imm := 31 }].all (runs w0)) = true := by decide
theorem witness_VectorReductionResult : ([.vred { vec with ty := 8, b := 0 }, .vred { vec with b := 0, func := 2 },
    .vred { vec with ty := 5, b := 0, func := 3 }, .vred { vec with ty := 5, b := 0, func := 5 }].all (runs w0)) = true := by decide
theorem witness_VectorConverterResult : ([.vcvt { vec with func := 0xB, ty := 8, b := 0, m := 0, imm := 3 },
    .vcvt { vec with func := 8, ty := 9, b := 0, m := 0, imm := 1 }, .vrsqs { vec with ty := 8, b := 0 },
    .vrcps { vec with ty := 8, b := 0 }].all (runs w0)) = true := by decide


/-- x6 = the page, x7 = 3; the core has a copy of no line. -/
def w1 : State := world 0 [(6, 0x100000), (7, 3)]
/-- x6 = the core's own pad. -/
def wPad : State := world 0 [(6, 0x01FFFFFFFFF80000), (7, 3)]
/-- The block holds a store of two bytes in front of the page's first word. -/
def w1h : State := w1.hold (.store pageHomeAddr [1, 2] .cached 5)
/-- A page-table fault waits at address 0: no TLB entry maps it, and the colour's root is no table. -/
def wBad : State := world 0 [(6, 0), (7, 3)]
theorem witness_LoadStoreResult :
    ([.ld mem, .lda { mem with ord := 1 }, .lda { mem with ord := 1, scope := 6 }, .st mem, .st { mem with func := 1 },
      .stl { mem with ord := 2 }, .stl { mem with ord := 2, scope := 6 }].all (runs w1)) = true ∧
    (w1.load (w1.memAddr mem) 4).toOption.isSome = true ∧ ((w1.l1DropAll w1.cur).load (w1.memAddr mem) 4).toOption.isSome = true ∧
    (w1.coreAccess (w1.memAddr mem).toNat 4 .w).toOption.map (fun t => space t.home) = some .floor ∧
    (wPad.coreAccess (wPad.memAddr mem).toNat 4 .w).toOption.map (fun t => space t.home) = some .pad ∧
    runs wPad (.st { mem with func := 1 }) = true ∧
    (w1h.coreAccess pageVa 4 .r).toOption.map (fun t => t.home) = some pageHomeAddr ∧
    ((List.range 4).all fun i => (heldByte w1h.blk.held (pageHomeAddr + i)).isSome || !(w1h.coreByte w1h.cur false 5 (pageHomeAddr + i)).2) = true ∧
    (w1.memAddr { mem with off := 0xFFFF }).toNat % 4 ≠ 0 ∧ runs w1 (.ld { mem with off := 0xFFFF }) = true ∧
    (∃ code lvl v, wBad.coreAccess (wBad.memAddr mem).toNat 4 .r = .error (.fault code lvl v)) ∧
    (∃ code lvl v, wBad.coreAccess (wBad.memAddr mem).toNat 4 .w = .error (.fault code lvl v)) ∧ runs wBad (.ld mem) = true ∧
    runs wBad (.st mem) = true := by
  refine ⟨?_, ?_, ?_, ?_, ?_, ?_, ?_, ?_, ?_, ?_, ⟨_, _, _, rfl⟩, ⟨_, _, _, rfl⟩, ?_, ?_⟩ <;> decide +kernel
abbrev vmem : MEM := { mem with ty := 0, func := 1 }
theorem witness_VectorMemoryResult :
    ([.vld { vmem with func := 9 }, .vst vmem, .vgath { vmem with ty := 5, ix := true, b := 7 },
      .vscat { vmem with ty := 4, ix := true, b := 7, sh := 2 }].all (runs w1)) = true ∧
    lanes (w1.w.getP 1) = [0, 2] ∧
    ([0, 2].all fun l => (w1.load (w1.memAddr vmem + BitVec.ofNat 64 (4 * l)) 4).toOption.isSome) = true ∧
    ([0, 2].all fun l => (w1.coreAccess (w1.memAddr vmem + BitVec.ofNat 64 (4 * l)).toNat 4 .w).toOption.isSome) = true ∧
    w1.blk.lanes = [] ∧ Sp.find? (w1.setBlk { w1.blk with lanes := [((w1.memAddr vmem).toNat, 5)] }).blk.lanes (w1.memAddr vmem).toNat = some 5 ∧
    lane (w1.v 7) 2 = 0 ∧ (w1.load (w1.x 6 + (0 <<< 2) + (0 : BitVec 16).signExtend 64) 4).toOption.isSome = true := by decide +kernel
/-- The oldest held effect of core 0. -/
def holding (e : Held) : State := pkg { core0 0 [] with blk := { Blk.reset with closing := true, held := [e] } }
theorem witness_HeldStoreWritesItsBytes :
    ((holding (.store (padHome 0 0) [1, 2, 3, 4] .padFull 0)).core 0).blk.held = [.store (padHome 0 0) [1, 2, 3, 4] .padFull 0] ∧
    ((List.range 4).all fun i => space (padHome 0 0 + i) == .pad) = true ∧
    ((holding (.store pageHomeAddr [9] .home 5)).core 0).blk.held = [.store pageHomeAddr [9] .home 5] ∧
    ((holding (.store pageHomeAddr [9] .home 5)).core 0).l1 = [] ∧ space pageHomeAddr = .floor ∧ padHome 0 0 % 4 = 0 := by decide +kernel
theorem witness_TransferOfControl :
    ([.br brx, .brr { brx with a := 6 }, .call { brx with d := 5 }, .callr { brx with d := 5, a := 6 }, .ret { brx with a := 6, off := 0 },
      .loop { brx with a := 7, off := 6 }].all (runs w0)) = true ∧
    w0.w.lact = false ∧ w0.x 7 ≠ 0 ∧ w0.x 0 = 0 ∧ runs w0 (.loop brx) = true ∧ wLoop.w.lact = true ∧ runs wLoop (.loop { brx with a := 7 }) = true ∧
    (after w0).toNat < (w0.blk.hdr + words 6).toNat ∧ (w0.blk.hdr + words 5).toNat ≤ (after w0).toNat := by decide +kernel
theorem witness_TrapAndExitForms :
    ([.sysc { sys with imm := 0x3FFF }, .eret sys, .halt sys, .trap { sys with a := 6 }, .bkpt sys].all (runs w0)) = true ∧
    w0.w.tstat.getLsbD 5 = false ∧ (w0.setW { w0.w with tstat := 0x20 }).w.tstat.getLsbD 5 = true := by decide +kernel
/-- A core whose trap vector is the page, where a handler of one word stands: HALT. -/
def wHandler : State :=
  let c := core0 (2 ^ 63) [(6, 0x100000)]
  let s := pkg { c with regs := { c.regs with tvec := 0x100000 } }
  s.writeBytes 5 pageHomeAddr (leBytes 8 0x0100000000000000 ++ leBytes 8 0xD600000000000000)
theorem witness_FaultEntersHandler :
    wHandler.outstanding 0 = false ∧ (wHandler.core 0).blk.held = [] ∧ ((wHandler.faultAt 0 0x04 0 7).core 0).run ≠ .stopped := by decide +kernel
/-- A pad word that is full and holds 3, and the same word empty. -/
def wFull : State := (wPad.writeBytes 0 (padHome 0 0) [3, 0, 0, 0]).setFe (padHome 0 0) 4 true
theorem witness_PadWaitForms :
    ([.ldf mem, .ldf { mem with func := 1 }, .waita { mem with b := 7 }, .waita { mem with b := 7, func := 1, ty := 5 }].all (runs wFull)) = true ∧
    (wFull.memAddr mem).toNat % 4 = 0 ∧ padLocal ≤ (wFull.memAddr mem).toNat ∧ (wFull.memAddr mem).toNat < 2 ^ 57 ∧
    wFull.isFull (padHome 0 0) 4 = true ∧ wFull.anyPoison (padHome 0 0) 4 = false ∧ wPad.isFull (padHome 0 0) 4 = false ∧
    (BitVec.ofNat 32 (wFull.readVal 0 (padHome 0 0) 4)).toInt = ((wFull.x 7).setWidth 32).toInt ∧
    (BitVec.ofNat 32 (wPad.readVal 0 (padHome 0 0) 4)).toInt ≠ ((wPad.x 7).setWidth 32).toInt ∧
    (wPad.memAddr { mem with off := 2 }).toNat % 4 ≠ 0 ∧ (w1.memAddr mem).toNat < padLocal ∧ (w1.memAddr mem).toNat % 4 = 0 := by decide +kernel
theorem witness_CacheMaintenanceForms :
    ([.pf { mem with d := 0, ty := 0 }, .cflush { mem with d := 0, ty := 0 }, .cflush { mem with ty := 0, func := 1, d := 7 },
      .cinv { mem with d := 0, a := 0, ty := 0, func := 2, scope := 6 }, .invalCb { mem with d := 0, a := 0, ty := 0, func := 1 },
      .invalCb { mem with d := 0, ty := 0 }, .invalCb { mem with d := 0, ty := 0, off := 8 }, .fence sys, .fence { sys with func := 1 }, .fence { sys with imm := 2 }, .fence { sys with func := 1, imm := 6 },
      .fence { sys with func := 3, imm := 1 }].all (runs w1)) = true ∧
    (w1.memAddr mem).toNat % 32 = 0 ∧ (w1.memAddr { mem with off := 8 }).toNat % 32 ≠ 0 := by decide +kernel
abbrev bnk : MEM := { mem with b := 7, ty := 6 }
/-- x8 holds a length. -/
def wFill : State := world 0 [(6, 0x100000), (7, 3), (8, 16)]
theorem witness_BankFormsAreHeld :
    ([.amo bnk, .amo { bnk with ord := 1 }, .amo { bnk with ord := 2 }, .amo { bnk with ord := 1, scope := 1 }, .amo { bnk with ord := 2, scope := 6, func := 6 }, .amoSc { bnk with ord := 3 },
      .red { bnk with d := 0, func := 5 }, .amof { bnk with ty := 8, func := 2 }, .redf { bnk with ty := 0xD, d := 0 }, .cas { bnk with ty := 7 },
      .casSc { bnk with ord := 3 }, .bupd { bnk with ty := 4, d := 1 }, .bfill { bnk with ty := 0, func := 2 }, .clrp { bnk with b := 0, d := 0, ty := 0 },
      .stsc { bnk with b := 0, ord := 3 }].all (runs w1)) = true ∧
    (w1.bankAccess pageVa 8 true true false).toOption.isSome = true ∧ (w1.bankAccess pageVa 4 true true false).toOption.isSome = true ∧
    (w1.bankAccess pageVa 128 true true false).toOption.isSome = true ∧
    runs wFill (.bfill { bnk with d := 8, ty := 0 }) = true ∧ runs wFill (.bfill { bnk with d := 8, ty := 0, func := 2 }) = true ∧ (wFill.x 8).toNat % 8 = 0 ∧ wFill.x 8 ≠ 0 ∧
    (wFill.bankAccess pageVa 8 false true false).toOption.map (fun t => decide (t.home % 4096 + 16 ≤ 4096 ∧ pageVa % 4096 = t.home % 4096)) = some true ∧
    ((world 0x400 []).bankAccess pageVa 8 false true true).toOption.isSome = true ∧
    (w1.memAddr { bnk with ix := false }).toNat = pageVa ∧
    (wPad.coreAccess padLocal 8 .r).toOption.map (fun t => space t.home) = some .pad ∧
    (wPad.coreAccess padLocal 8 .r).toOption = (wPad.coreAccess padLocal 8 .w).toOption := by decide +kernel
/-- One bank operation on its way to the page's first word. -/
def wOp (reg : Option Nat) (k : BankKind) : State :=
  { w1 with bankOps := [{ core := 0, reg := reg, addr := pageHomeAddr, va := 0x100000, sc := false, acq := false, kind := k }] }
theorem witness_BankOperationUpdatesWord :
    ((List.range 8).all fun i => space (pageHomeAddr + i) == .floor) = true ∧ w1.anyPoison pageHomeAddr 8 = false ∧
    ((wOp (some 5) (.amo 4 6 1)).bankOps.map fun o => (o.kind, o.reg, o.addr)) = [(.amo 4 6 1, some 5, pageHomeAddr)] ∧
    ((wOp none (.stsc 6 1)).bankOps.map fun o => (o.kind, o.reg)) = [(.stsc 6 1, none)] ∧ (w1.core 0).replies = [] ∧
    ((wOp (some 5) (.cas 6 0 1)).bankOps.map (·.kind)) = [.cas 6 0 1] ∧ ((wOp none (.amof 2 8 1)).bankOps.map (·.kind)) = [.amof 2 8 1] := by decide +kernel
/-- The page is presence-tagged; its first word is full and holds 7, or is full and marked. -/
def wPres : State := world 0x400 [(6, 0x100000), (7, 3)]
def wTag : State := (wPres.writeBytes 5 pageHomeAddr [7]).setTag pageHomeAddr true
def wMark : State := wTag.mark pageHomeAddr true
abbrev prs : MEM := { mem with ty := 6 }
theorem witness_PresenceFormsTakeAndPut :
    ([.take prs, .take { prs with ord := 1, scope := 6 }, .rdf prs, .put { prs with ord := 2, scope := 1 }, .pstat { prs with ty := 0 },
      .ldsc { prs with ord := 3 }].all (runs wTag)) = true ∧
    (wPres.bankAccess pageVa 8 true false true).toOption.map (·.home) = some pageHomeAddr ∧
    (wPres.bankAccess pageVa 8 false true true).toOption.map (·.home) = some pageHomeAddr ∧
    (w1.bankAccess pageVa 8 true false false).toOption.map (·.home) = some pageHomeAddr ∧
    ((List.range 8).all fun i => space (pageHomeAddr + i) == .floor) = true ∧ pageHomeAddr % 8 = 0 ∧
    ((wPres.l1DropRange 0 pageHomeAddr 8).bank (bankOf pageHomeAddr)).deferred = [] ∧
    (wTag.l1DropRange 0 pageHomeAddr 8).tag pageHomeAddr = true ∧ (wPres.l1DropRange 0 pageHomeAddr 8).tag pageHomeAddr = false ∧
    (wTag.l1DropRange 0 pageHomeAddr 8).anyPoison pageHomeAddr 8 = false ∧ (wMark.l1DropRange 0 pageHomeAddr 8).anyPoison pageHomeAddr 8 = true ∧
    heldByte w1.blk.held pageHomeAddr = none ∧ w1.banks = [] ∧ runs w1 (.ldsc { prs with ord := 3 }) = true := by decide +kernel

/-- A table page that is its own table at each level: entry 0 names it, entry 1 is a leaf of a GDDR-7 page. -/
def wWalk (a b : W64) : State :=
  let s := pkg { core0 0 [(6, a), (7, b)] with tlb := [] }
  { s with colours := [(0, { Colour.reset with valid := true, keyed := true, key := 5, root := 0x1000002 })] }.writeBytes 0 0x1000002000
    (leBytes 8 0x1000002001 ++ leBytes 8 (leaf 0x10000000000 0).toNat)
def isLeaf : Walked → Bool
  | .leaf e l => l == 1 && space (e.toNat / 2 ^ 12 % 2 ^ 40 * 4096) != .floor
  | .bad .. => false
def badCode : Walked → Nat
  | .leaf .. => 0
  | .bad c _ => c
theorem witness_SystemRegisterRead :
    (([0, 1, 2, 3, 4, 5, 6, 7, 0x10, 0x11, 0x12, 0x13, 0x14, 0x15, 0x16].map fun r => Instr.mfs { sys with d := 5, sreg := r }).all (runs w0)) = true ∧
    w0.blk.held = [] ∧ w0.lacks = Lacks.none ∧ w0.untrained = 0 ∧
    ([.mfc { rrr with ty := 0, a := 0, b := 0 }, .mfc { rrr with ty := 0, a := 0, b := 0, func := 1 },
      .mfc { rrr with ty := 0, b := 0, func := 2 }].all (runs w0)) = true ∧
    (w0.colour ((w0.x 0).toNat % 256)).valid = true ∧ (w0.colour 0).part.toNat = w0.partid w0.cur ∧ (w0.colour ((w0.x 6).toNat % 256)).valid = false := by
  decide +kernel
/-- A world for MTS whose X6 is the value. -/
def wv (v : W64) : State := world 0 [(6, v)]
theorem witness_SystemRegisterWrite :
    (([0, 1, 2, 3, 4, 5, 6, 7, 8, 0x10].map fun r => Instr.mts { sys with a := 6, sreg := r }).all (runs (wv 15))) = true ∧
    ((wv 0xF0FF).x 6).toNat / 2 ^ 8 % 2 ^ 4 = 0 ∧ ((wv 0x100).x 6).toNat / 2 ^ 8 % 2 ^ 4 ≠ 0 ∧ ((wv 63).x 6).toNat < 64 ∧ ¬((wv 64).x 6).toNat < 64 ∧
    ((wv 0x01FFFFFFFFFFFFF8).x 6).toNat % 8 = 0 ∧ ((wv 0x01FFFFFFFFFFFFF8).x 6).toNat < 2 ^ 57 ∧ ¬((wv (2 ^ 57)).x 6).toNat < 2 ^ 57 ∧
    ¬((wv 16).x 6).toNat < 16 ∧ (wv 15).sameOwner 0 (((wv 15).x 6).toNat / 2 ^ 16 % 1024) = true ∧
    (wv 0x10000).sameOwner 0 (((wv 0x10000).x 6).toNat / 2 ^ 16 % 1024) = false ∧
    (wv 0).bound ((wv 0).partid 0) ((wv 0).x 6).toNat = true ∧ (wv 1).bound ((wv 1).partid 0) ((wv 1).x 6).toNat = false := by decide +kernel
/-- A leaf of 1 GiB of the floor in entry 2 of the table: it spans banks. -/
def wSplit : State := (wWalk 0 0).writeBytes 0 0x1000002010 (leBytes 8 (leaf 0x1000000000 0).toNat)
def floorLeaf : Walked → Nat
  | .leaf e l => let base := e.toNat / 2 ^ 12 % 2 ^ 40 * 4096; if space base = .floor ∧ bankOf base ≠ bankOf (base + 2 ^ (3 + 9 * l) - 1) then l else 0
  | .bad .. => 0
theorem witness_TranslationForms :
    ([.tlbi { sys with b := 7 }, .tlbi { sys with a := 6, b := 7, func := 1 }, .tlbi { sys with d := 8, a := 6, b := 7, func := 2 },
      .tlbw { sys with d := 5, a := 6, b := 7 }].all (runs (wWalk 0 0))) = true ∧
    (0x80000004 : W64).getLsbD 31 = true ∧ (0x80000004 : Nat) / 2 ^ 29 % 4 = 0 ∧ (0x80000004 : Nat) % 4 = 0 ∧
    (wWalk 0 0x80000004).sameOwner 0 (0x80000004 / 2 ^ 19 % 1024) = true ∧
    (wWalk 0 0).bound 0 0 = true ∧ (wWalk 0 0).bound 0 1 = false ∧ (0x100 : W64).getLsbD 8 = true ∧ ((0x100 : W64).toNat / 2 ^ 9 % 8 = 0) ∧
    2 ^ 57 ≤ (0x0200000000000000 : W64).toNat ∧ padRemote ≤ (0x01FFFFFFFFFFFFFF : W64).toNat ∧
    badCode ((wWalk 0 0).walkVa 0 0 0x2000 []) = 0x11 ∧ isLeaf ((wWalk 0 0).walkVa 0 0 0x1000 []) = true ∧ (0x2000 : Nat) < padRemote ∧
    (wWalk 0 0).partOf 0 = some 0 ∧ ({ State.reset with parts := [(0, { valid := true, smask := 1, chmask := 0 })] } : State).partOf 64 = none ∧
    (w1.core 0).tlb.length = 1 ∧ (match (wWalk 0 1).flagCheck 0 1 with | .error (.fault c _ _) => c == 0x2C | _ => false) = true ∧ (0x1001 : W64).toNat % 4096 ≠ 0 ∧
    (0x1000 : W64).toNat % 4096 = 0 ∧ floorLeaf (wSplit.walkVa 0 0 0x80000000 []) = 3 := by decide +kernel
/-- Rows of 4 bytes from the page to the pad: a control block of CPY2 at address 0x2000 of the control-block cache. -/
def copyBlock : BitVec 256 := BitVec.ofNat 256 (0x01FFFFFFFFF80000 + 2 ^ 64 * 0x100000 + 2 ^ 128 * 1 + 2 ^ 160 * 4)
def wCopy : State :=
  pkg { core0 0 [(5, 0x01FFFFFFFFF80000), (6, 0x100000), (7, 4), (8, 0x80000004), (9, 0x2000), (10, 0x100001), (11, 4)] with cbc := [(0x2000, copyBlock)] }
/-- A command of four bytes with its two pages, as the oldest of the engine. -/
def copyCmd : EngCmd :=
  { id := 1, src := 0x100000, dst := 0x01FFFFFFFFF80000, sstride := 0, dstride := 0, rowbytes := 4, rows := 1, fe := false, scope := 0, flag := 0,
    colour := 0, lvlS := true,
    pages := [{ vpage := pageVa / 4096, home := pageHomeAddr, key := 5, pres := false },
              { vpage := padLocal / 4096, home := padHome 0 0, key := 0, pres := false }],
    moved := [], remote := [], asked := false, lost := [] }
def wEngine : State := pkg { core0 0 [] with eng := [copyCmd] }
theorem witness_CopyForms :
    ([.cpy { rrr with ty := 0, c := 8 }, .cpy { rrr with ty := 0, func := 14 }, .cpy2 { rrr with ty := 0, d := 0, a := 9, b := 0, c := 8 }].all (runs wCopy)) = true ∧
    flagForm (wCopy.x 8) = true ∧ flagForm (wCopy.x 11) = false ∧ (wCopy.x 7).toNat ≤ 2 ^ 20 ∧ 2 ^ 20 < (wCopy.x 10).toNat ∧
    (wCopy.checkCopy { copyCmd with pages := [], id := 0, flag := wCopy.x 8 }).toOption.isSome = true ∧
    wCopy.me.cbc.find? (fun e => e.1 == (wCopy.x 9).toNat) = some ((wCopy.x 9).toNat, copyBlock) ∧ (wCopy.x 9).toNat % 32 = 0 ∧
    copyBlock.toNat / 2 ^ 128 % 2 ^ 32 = 1 ∧ copyBlock.toNat / 2 ^ 160 % 2 ^ 32 = 4 ∧ BitVec.ofNat 64 copyBlock.toNat = 0x01FFFFFFFFF80000 ∧
    (wEngine.core 0).eng = [copyCmd] ∧ (wEngine.core 0).l1 = [] ∧ copyCmd.total = 4 ∧
    ((List.range 4).all fun k => space (copyCmd.srcAt k).home == .floor && space (copyCmd.dstAt k).home == .pad) = true ∧
    ((List.range 4).all fun k => (List.range k).all fun j => (copyCmd.dstAt j).home != (copyCmd.dstAt k).home) = true ∧
    ((List.range 4).all fun k => (List.range 4).all fun j => (copyCmd.srcAt j).home != (copyCmd.dstAt k).home) = true := by decide +kernel
/-- The island of core 0 with a loaded weight slot 0, the command or emission given, and stream 0 with a row. -/
def island (q : List IslandCmd) (e : List Emission) (att : Sparse Attach) : State :=
  pkg { core0 0 [(6, 0x01FFFFFFFFF80000)] with
    island := { Island.reset with queue := q, emits := e, attach := att, shadow := [(0, (9, false))],
                                  slots := [(0, { WSlot.reset with ty := 9, st := .loaded })] },
    streams := [(0, { Stream.reset with st := .bound, desc := BitVec.ofNat 256 (2 * 2 ^ 64 + 1 * 2 ^ 79), got := some (0, 0, false) })] }
def att : Attach := { acc := 1, w := 0, ty := 9, start := 0, slot := 0, emit := false }
/-- A row of stream 0 that has arrived behind `after` commands. -/
def rowOf (after : Nat) : IslandRow :=
  { stream := 0, att := att, after := after, words := List.replicate 64 (0, false), tile := 0, r := 0, last := false, colour := 0, context := 0 }
/-- An emission of row 3 of accumulator 1; the element of port index `x` is the only one not past its rows. -/
def emission (x : Option Nat) : Emission :=
  { stream := 0, acc := 1, start := 3, stop := 4, slot := 0, tile := 0, colour := 0, context := 0,
    places := (List.range 8).map fun i => if some i = x then (3, 0) else (11, 0) }
theorem witness_IslandPerformsCommands :
    ((island [.aclr 1 0 128] [] []).island 0).queue = [.aclr 1 0 128] ∧
    (((island [.mma 1 0 0 1 0 0 9] [] []).island 0).queue = [.mma 1 0 0 1 0 0 9] ∧ (((island [] [] []).island 0).wslot 0).st = .loaded) ∧
    ((island [.awrV 1 127 1 0] [] []).island 0).queue = [.awrV 1 127 1 0] ∧ ((island [.mscl 1 127 1 0] [] []).island 0).queue = [.mscl 1 127 1 0] ∧
    ((island [.ardPad 1 127 1 0x7FF00] [] []).island 0).queue = [.ardPad 1 127 1 0x7FF00] ∧ ((island [] [] []).island 0).emitting 1 = false ∧
    (let q := ((island [] [] []).core 0).stream 0
     q.target = 2 ∧ q.out = none ∧ (island [] [] []).reading (.stream 0 0) = false ∧ q.got.isSome = true ∧ q.i0 + 1 = q.n0) ∧
    (rowOf 0).stream = 0 ∧ (rowOf 0).att.ty = 9 ∧ (rowOf 0).att.emit = false ∧ 0 < (rowOf 1).after ∧
    Sp.find? ((island [] [] []).island 0).attach 0 = none ∧
    Sp.find? ((island [] [] [(0, att)]).island 0).attach 0 = some att ∧ ((island [] [] [(0, att)]).island 0).queue = [] ∧
    ((island [] [emission none] []).island 0).emits.find? (fun x => x.stream == 0) = some (emission none) ∧ (emission none).places.length = 8 ∧
    ((emission none).places.all fun p => (emission none).stop ≤ p.1) = true := by decide +kernel
/-- The world of the island forms: x6 is the offset of a pad line, or the pad's address; no stream runs. -/
def wIsl (v : W64) : State := pkg { (island [] [] []).core 0 with blk := { Blk.reset with isOpen := true, words := [0, 0], idx := 1, w := regs [(6, v)] } }
/-- Stream 0 is bound to the island target with rows of 64 words; stream 1 runs, attached to accumulator 2. -/
def wAtt : State := pkg { (wIsl 0).core 0 with
  streams := [(0, { Stream.reset with st := .bound, desc := BitVec.ofNat 256 (2 * 2 ^ 64 + 64 * 2 ^ 79) }), (1, { Stream.reset with st := .running })],
  island := { ((island [] [] []).core 0).island with attach := [(1, { att with acc := 2 })] } }
theorem witness_IslandFormsQueueCommands :
    ([.wload { mtx with ty := 9, acc := 0, imm := 0 }, .mscl mtx, .mma { mtx with ty := 9 }, .aclr { mtx with a := 0, imm := 0x80 },
      .aclr { mtx with a := 0, imm := 0, acc := 0, func := 1 }, .ard { mtx with d := 5, a := 0, imm := 0x7F01 }, .ard { mtx with func := 1 },
      .ard { mtx with d := 5, a := 0, func := 2, imm := 1 }, .ard { mtx with d := 5, a := 0, func := 3, acc := 0, imm := 0 }, .awr { mtx with imm := 0x7F01 },
      .awr { mtx with func := 1 }, .asave { mtx with imm := 0 }, .asave { mtx with imm := 0, func := 1 },
      .mmas { mtx with ty := 9, a := 0, imm := 0x7F00, func := 0x40 }].all (runs (wIsl 0))) = true ∧
    ((wIsl 0).x 6).toNat % 1024 = 0 ∧ idle (wIsl 0) 1 ∧ ((wIsl 0).attached fun t => t.w == 0) = false ∧ (wIsl 0).shadowOk 0 9 = true ∧
    1024 * tileLines 9 false ≤ 0x600000 ∧ (((wIsl 0x7FFFC).x 6).toNat % 4 = 0 ∧ ((wIsl 0x7FFFC).x 6).toNat + 4 ≤ 0x80000) ∧
    ((wIsl 0x7FF00).x 6).toNat + 256 ≤ 0x80000 ∧ ¬(((wIsl 0x7FFFD).x 6).toNat % 4 = 0) ∧ wAtt.accBusy 2 = true ∧ wAtt.accBusy 1 = false ∧
    (wAtt.streamSeen 0).st = .bound ∧ (wAtt.streamSeen 0).target = 2 ∧ (wAtt.streamSeen 0).n0 = 64 ∧ 0x7F + (wAtt.streamSeen 0).tileRows ≤ 128 ∧
    ((wIsl 0x01FFFFFFFFF80000).areaPages 0x01FFFFFFFFF80000 32896 .w).toOption.isSome = true ∧
    ((wIsl 0x01FFFFFFFFF80000).areaPages 0x01FFFFFFFFF80000 32896 .r).toOption.isSome = true ∧
    ([.rsave { sys with b := 7, func := 1 }, .rsave { sys with a := 6, b := 7 }, .rrest { sys with a := 6, b := 7 }].all (runs (wIsl 0x01FFFFFFFFF80000))) = true ∧
    ((wIsl 0).areaPages 0x01FFFFFFFFF80000 133760 .w).toOption.isSome = true ∧ ((wIsl 0).areaPages 0x01FFFFFFFFF80000 133760 .r).toOption.isSome = true ∧
    ((wIsl 0).saveBusy 0xFFFFF).toOption.isSome = true ∧ ((wIsl 0).restRecords 0x01FFFFFFFFF80000 (maskBits 1)).toOption.isSome = true ∧
    (wAtt.streamSeen 1).st = .running ∧ Nat.testBit 2 1 = true := by
  simp only [idle]; decide +kernel

/-- A descriptor of words 4 bytes apart from the page, `n0` to a row, with its target; the binding words of a read and of a write. -/
def strDesc (target n0 : Nat) : BitVec 256 := BitVec.ofNat 256 (0x100000 + target * 2 ^ 64 + n0 * 2 ^ 79 + 4 * 2 ^ 128)
def strState (st : StreamState) (target n0 : Nat) (bind : W64) : Stream :=
  { Stream.reset with st := st, desc := strDesc target n0, bind := bind, tiles := 1 }
/-- Stream 0 is bound to the pad, 1 runs, 2 is closed, 3 is bound to port 5; x6 = a control block, x7 = the value. -/
def wStr (v : W64) : State :=
  pkg { core0 0 [(6, 0x2000), (7, v)] with
    cbc := [(0x2000, strDesc 1 4)],
    streams := [(0, strState .bound 1 4 0), (1, strState .running 1 4 0), (2, strState .closed 1 4 0), (3, strState .bound 0 4 5)] }
theorem witness_StreamForms :
    ([.sbind { str with func := 1 }, .sbind { str with a := 6, b := 7 }, .sstart { str with a := 7, smask := 5 }, .sstart { str with func := 1, smask := 4 },
      .sclose { str with smask := 0xFFFF }, .spos { str with d := 5 }, .spos { str with d := 5, func := 2 }, .spos { str with a := 7, func := 1 },
      .sdone { str with a := 7, func := 6 }, .sdone { str with a := 7, func := 8 }, .sbar { str with smask := 0xFFFF, func := 6 },
      .sbar { str with smask := 3, func := 8 }].all (runs (wStr 0))) = true ∧ (wStr 0).pending 0 = false ∧ (wStr 0).unacked (.core 0) = false ∧
    ((wStr 0).streamSeen 0).st = .bound ∧ ((wStr 0).streamSeen 1).st = .running ∧ ((wStr 0).streamSeen 2).st = .closed ∧
    ((wStr 0).x 6).toNat % 32 = 0 ∧ (wStr 0).me.cbc.find? (fun e => e.1 == ((wStr 0).x 6).toNat) = some (((wStr 0).x 6).toNat, strDesc 1 4) ∧
    (((wStr 0).streamSeen 0).bindTo (some (strDesc 1 4, 0))).patternOk = true ∧ (((wStr 0).streamSeen 0).bindTo (some (strDesc 1 4, 0))).target = 1 ∧
    (((wStr 0).streamSeen 0).bindTo (some (strDesc 0 4, (5 : W64) <<< 19))).patternOk = true ∧ (wStr 0).sideBound (some 0) 5 true = false ∧
    (wStr 0).channelNames 0 5 true = false ∧
    (wStr (2 ^ 32)).startOk (2 ^ 32) = true ∧ ((wStr 0).streamSeen 0).indexOk 3 = true ∧
    ((wStr 0).flagCheck 0 0x80000004).toOption.isSome = true ∧ ((wStr 0).flagCheck 0 0).toOption.isSome = true ∧
    ((wStr 0).streamSeen 3).st ≠ .unbound ∧ ((wStr 0).streamSeen 3).target = 0 ∧ (wStr 0).sideBound none 15 false = false ∧
    ((List.range 16).all fun k => !(wStr 0).streamAway 0 k && !(wStr 0).unacked (.stream 0 k)) = true := by decide +kernel
/-- Stream 0 runs at U, on its last word. -/
def wRun (target : Nat) (bind : W64) : State :=
  pkg { core0 0 [] with streams := [(0, { strState .running target 4 bind with i0 := 3 })] }
def strOk (s : State) : Bool :=
  let q := (s.core 0).stream 0
  q.st == .running && decide (q.tile < q.tiles) && !s.reading (.stream 0 0) && !q.hold && q.out.isNone && q.got.isNone && q.n0 != 0 && q.write == q.bind.getLsbD 15 &&
    match s.access 0 q.colour.toNat q.addr 4 q.lvlS false (if q.write then .w else .r) with
    | .ok tr => (List.range 4).all (fun i => space (tr.home + i) == .floor) && !s.anyPoison tr.home 4
    | .error _ => false
theorem witness_StreamAccessMovesOneWord :
    strOk (wRun 1 0) = true ∧ ((wRun 1 0).core 0 |>.stream 0).target = 1 ∧ strOk (wRun 0 5) = true ∧ ((wRun 0 5).core 0 |>.stream 0).target = 0 ∧
    strOk (wRun 1 0x8000) = true ∧ ((wRun 1 0x8000).core 0 |>.stream 0).write = true ∧ (wRun 1 0x8000).anyPoison (padHome 0 12) 4 = false := by
  decide +kernel
/-- Two nodes in the page: A of kind 0x11 with one auxiliary port, B of kind 0x10 with two; A's auxiliary port is held by the rule body's
claim, and a pool of one node and a bag of one pair stand behind. x6 = A, x7 = B. -/
def nodeA : Nat := pageVa
def nodeB : Nat := pageVa + 64
def netWords (l : List (Nat × Nat)) (s : State) : State := l.foldl (fun s q => s.writeBytes 5 (pageHomeAddr + q.1) (leBytes 8 q.2)) s
def wNet (rule : Bool) (claim : Option Claim) : State :=
  let c := core0 0 [(6, 0x100000), (7, 0x100040), (8, 0x0010000000000000), (9, 5), (10, 4)]
  netWords [(0, 0x11 * 2 ^ 52 + 2 ^ 42), (64, 0x10 * 2 ^ 52 + 2 * 2 ^ 42)]
    (pkg { c with blk := { c.blk with rule := rule }, nodehead := 0x100080, claim := claim,
                  bag := [{ a := 0x100000, b := 0x100040, colour := 0, launch := false }], rcache := [(0x11010, 0x300000, 0)] })
def claimA : Claim := { pair := { a := 0x100000, b := 0x100040, colour := 0, launch := false }, ports := [nodePort nodeA 1], done := [] }
theorem witness_NetForms :
    ([.nld { net with d := 5, a := 6, func := 7 }, .nst { net with a := 6, b := 8 }, .nst { net with a := 6, b := 9, func := 7 }, .nst { net with a := 6, func := 1 },
      .nst { net with a := 6, func := 4 }, .nalloc { net with d := 5, kind := 0x100, pa := 3 }, .nfree { net with a := 6 }, .npush { net with a := 6, b := 7 },
      .npush { net with func := 1 }, .npop { net with d := 5, a := 6 }, .nruleLook { net with d := 5, a := 6, b := 7 },
      .nruleSet { net with a := 6, b := 10, func := 1 }, .nruleInv { net with func := 2 }].all (runs (wNet false none))) = true ∧
    ((wNet false none).nodeOperand 0x100000 false).toOption.map (·.home) = some pageHomeAddr ∧ (wNet false none).blk.held = [] ∧
    ((wNet false none).liveNode 0x100000 true).toOption.map (fun q => (q.1.home, hdrArity q.2)) = some (pageHomeAddr, 1) ∧
    ((wNet false none).liveNode 0x100040 false).toOption.isSome = true ∧ ((wNet false none).nodeOperand 0x100080 true).toOption.isSome = true ∧
    (wNet false none).anyPoison pageHomeAddr 192 = false ∧ kindOk 0x100 3 = true ∧ (wNet false none).me.nodehead = 0x100080 ∧ w0.me.nodehead = 0 ∧
    kindOk ((0x0010000000000000 : W64).toNat / 2 ^ 52) 0 = true ∧ (0 : Nat) ≠ linkWord sHole (nodePort nodeA 0) ∧
    (wNet false none).heldPorts = [] ∧ (wNet false none).principals = [] ∧ (wNet false none).rolesUsed false = [] ∧
    (wNet true (some claimA)).me.claim = some claimA ∧ (wNet false none).me.claim = none ∧ w0.me.bag = [] ∧ (wNet false none).me.bag.map (·.mark) = [none] ∧
    (wNet true (some claimA)).blk.held = [] ∧
    ((wNet false none).me.rcache.find? (fun e => e.1 == 0x11 * 4096 + 0x10)).isSome = true ∧ w0.me.rcache = [] ∧ w0.me.rtab = none ∧
    (0x100000 : Nat) % (16 * 2 ^ 4) = 0 ∧ ((wNet false none).ruleTableSealed 0x100000 4).toOption.isSome = true ∧
    (netWords [(8, linkWord sBound (nodePort nodeB 0))] (wNet false none)).anyPoison pageHomeAddr 64 = false ∧
    linkState (linkWord sBound (nodePort nodeB 0)) = sBound ∧ nodePort nodeA 0 ∉ (wNet false none).heldPorts := by decide +kernel
/-- A's principal port is a HOLE; a rule for the kinds 0x40 and 0 stands in a table of 16 entries at `pageVa + 0x400`. -/
def wHole : State := netWords [(8, linkWord sHole (nodePort nodeB 0))] (wNet false none)
def wTable : State :=
  let s := wNet false none
  netWords [(0x400 + 224, 2 ^ 63 + 0x40 * 4096), (0x400 + 232, 0x300000)]
    { s with cores := [(0, { s.core 0 with rcache := [], rtab := some (0x100400, 4) })] }
theorem witness_NetForms_words :
    runs wHole (.nst { net with a := 6, b := 9, func := 1 }) = true ∧ wHole.readVal 5 (pageHomeAddr + 8) 8 / 2 ^ 62 % 4 = sHole ∧
    (wHole.liveNode 0x100000 true).toOption.isSome = true ∧ runs wHole (.nst { net with a := 6, b := 9, func := 4 }) = true ∧
    runs wTable (.nruleLook { net with d := 5, a := 6, b := 7 }) = true ∧ wTable.me.rcache = [] ∧ wTable.me.rtab = some (0x100400, 4) ∧
    (0x40 * 4096 + 0) * 0x9E3779B1 % 2 ^ 32 / 2 ^ (32 - 4) % 2 ^ 4 * 16 = 224 ∧
    (wTable.access 0 0 (0x100400 + 224) 8 true true .r).toOption.map (·.home) = some (pageHomeAddr + 0x400 + 224) ∧
    (wTable.access 0 0 (0x100400 + 232) 8 true true .r).toOption.map (·.home) = some (pageHomeAddr + 0x400 + 232) ∧
    space (pageHomeAddr + 0x400 + 224) ≠ .remote ∧ space (pageHomeAddr + 0x400 + 232) ≠ .remote ∧
    wTable.walkHeld 0 0 (0x100400 + 224) = false ∧ wTable.walkHeld 0 0 (0x100400 + 232) = false ∧
    wTable.anyPoison (pageHomeAddr + 0x400 + 224) 8 = false ∧ wTable.readVal 0 (pageHomeAddr + 0x400 + 224) 8 = 2 ^ 63 + 0x40 * 4096 ∧
    wTable.readVal 0 (pageHomeAddr + 0x400 + 232) 8 = 0x300000 := by decide +kernel
theorem witness_NetJoin :
    ([.nlink { net with a := 6, b := 7 }, .nlink { net with a := 6, b := 7, func := 1, pa := 1 }, .nlink { net with a := 6, b := 7, func := 2, pb := 2 }].all
      (runs (wNet true (some claimA)))) = true ∧
    ((wNet true (some claimA)).linkPort 0x100000 1).toOption.map (·.2) = some (nodePort nodeA 1) ∧
    ((wNet true (some claimA)).linkPort 0x100040 2).toOption.map (·.2) = some (nodePort nodeB 2) ∧
    nodePort nodeA 1 ∈ (wNet true (some claimA)).heldPorts ∧ nodePort nodeA 1 ∉ (wNet true (some claimA)).rolesUsed true ∧
    nodePort nodeA 0 ∉ (wNet false none).heldPorts ∧
    (match (wNet true (some claimA)).linkPort 0x100040 2 with
      | .ok q => ((wNet true (some claimA)).portRole q.1 q.2 [nodePort nodeA 1] []).toOption.isSome | .error _ => false) = true ∧
    ((wNet false none).nodeTr { n := 0, c := 0, lvlS := true } (nodePort nodeA 0) .w).toOption.isSome = true ∧
    ((wNet false none).nodeTr { n := 0, c := 0, lvlS := true } (nodePort nodeB 0) .w).toOption.isSome = true := by decide +kernel
/-- x6 = a destination: core 0 of class 0; x7 = the pad; x5 = a length. -/
def wSend (len dst : W64) : State :=
  let s := pkg { core0 0 [(5, len), (6, dst), (7, 0x01FFFFFFFFF80000)] with ring := { Ring.reset with cfg := 0x900001FFFF000000, count := 2, taken := true } }
  { s with netp := [(0, { NetPage.reset with rcls := [(0, 2 ^ 63)] })] }
theorem witness_NetworkForms :
    ([.msend { rrr with ty := 0 }, .mmask { rrr with ty := 0, d := 0, b := 0 }, .munmask { rrr with ty := 0, d := 0, b := 0 },
      .mrecvFree { rrr with ty := 0, d := 0, a := 0, b := 0, func := 3 }, .mrecvCfg { rrr with ty := 0, d := 0, b := 0, func := 1 },
      .mrecvSt { rrr with ty := 0, a := 0, b := 0, func := 2 }, .mrecvPop { rrr with ty := 0, a := 0, b := 0 }].all (runs (wSend 256 0))) = true ∧
    ((wSend 256 0).x 5).toNat = 256 ∧ ((wSend 256 0).x 7).toNat % 8 = 0 ∧ padLocal ≤ ((wSend 256 0).x 7).toNat ∧
    ((wSend 256 0).x 7).toNat + 256 ≤ 2 ^ 57 ∧ ((wSend 256 0).rcls ((wSend 256 0).partid 0) 0).getLsbD 63 = true ∧
    (wSend 256 0).corePresent 0 = true ∧ (wSend 256 0).partOf 0 = (wSend 256 0).partOf (wSend 256 0).cur ∧
    ((wSend 257 0).x 5).toNat % 8 ≠ 0 ∧ 256 < ((wSend 264 0).x 5).toNat ∧ ringOk 0x900001FFFF000000 = true ∧ ringOk 0 = false := by decide +kernel
/-- The vane unit of core 0 with a command. -/
def wVane (q : List VaneCmd) : State := pkg { core0 0 [(6, 0), (7, 3)] with vane := { VaneUnit.reset with queue := q } }
theorem witness_VaneForms :
    ([.vnset { rrr with ty := 0, d := 0 }, .vnset { rrr with ty := 0, d := 0, func := 1 }, .vnset { rrr with ty := 0, d := 0, func := 2 },
      .steerset { rrr with ty := 0, d := 0, a := 0, func := 1 }, .steerset { rrr with ty := 0, d := 0 }, .vnrd { rrr with ty := 0, a := 0 },
      .vnrd { rrr with ty := 0, a := 0, func := 1 }, .vnrd { rrr with ty := 0, a := 0, func := 2 }].all (runs (wVane []))) = true ∧
    ((wVane []).x 7).toNat = 3 ∧ (wVane []).cfgBad 0 = false ∧ prbBad 0 = false ∧ ((wPad).vaneSource 0x01FFFFFFFFF80000).toOption.isSome = true ∧
    4 ≤ (w0.x 6).toNat ∧ 32 ≤ (w0.x 6).toNat ∧ ([.vnset { rrr with ty := 0, d := 0, a := 7, b := 6 }].all (runs w0)) = true ∧
    ((wVane [.cfg 3 0]).core 0).vane.queue = [.cfg 3 0] ∧ ((wVane [.prb 3 7 0]).core 0).vane.queue = [.prb 3 7 0] ∧
    ((wVane [.vec 7 [{ vpage := pageVa / 4096, home := pageHomeAddr, key := 5, pres := false },
      { vpage := pageVa / 4096 + 1, home := pageHomeAddr + 4096, key := 5, pres := false }] pageVa]).core 0).vane.queue.length = 1 ∧
    ((List.range 2).all fun i => space (pageHomeAddr + 4096 * i) == .floor && space (pageHomeAddr + 4096 * i + 4095) == .floor) = true ∧
    ((wVane [.steerClr 7]).core 0).vane.queue = [.steerClr 7] := by decide +kernel

/-! Regions and elements: region 0 of core 0 holds two elements of slot 0, element 7 (a port element, PASS from the entry side to the exit
side of port 0) and element 0 with the operation given. -/

abbrev ecfg : ElemCfg :=
  { fmt := 0, rm := 0, sat := false, fin := false, tagp := 0, nin := 2, cin := 0, opx := 0, const := 0, q3 := 0, q2 := 0, q1 := 2, q0 := 1,
    out0 := 0x10, out1 := 0, share := 64, ordx := false, port := 1 }
/-- PASS on port 0. -/
def passCfg : ElemCfg := { ecfg with nin := 1, q0 := 5, q1 := 0, port := 0 }
def elt (e : Nat) (op : BitVec 8) (c : ElemCfg) : ImageElem := { elem := e, op := op, cfg := c, table := [] }
def slotOf (op : BitVec 8) (c : ElemCfg) (ents : List Entry) : ElemSlot := { ElemSlot.reset with op := op, cfg := c, entries := ents }
def tok (v : W32) (fmt : BitVec 3) : Token := { blankTok with value := v, fmt := fmt }
/-- Quota 8 for colour 0. -/
def region0 (st : RegionState) (op : BitVec 8) (c : ElemCfg) : Region :=
  { Region.reset with st := st, colours := [(0, { RColour.reset with quota := 8 })], elems := [elt 7 1 passCfg, elt 0 op c] }
/-- Element 0's slot 0 as given, with a token at the head of each of its queues. -/
def grid (st : RegionState) (v : ElemSlot) (toks : List Token) : State :=
  let queues := (List.range 4).map fun i => match toks[i]? with | some t => [t] | none => []
  { pkg (core0 0 []) with
    agent := .elem, regions := [(0, region0 st v.op v.cfg)],
    elems := [(0, { Elem.reset with slots := [(0, v)], queues := queues }), (7, { Elem.reset with slots := [(0, slotOf 1 passCfg [])] })] }
def el (op : BitVec 8) (c : ElemCfg) (ents : List Entry) (toks : List Token) : State := grid .resident (slotOf op c ents) toks

/-- An image of one element, PASS in column 7, with quota 1 for colour 0. -/
def imageWords : List Nat :=
  let w := ElemCfg.enc 1 { passCfg with share := 1 }
  [2 ^ 39 + 2 ^ 32, 0, 0, 0, 2 ^ 8, 0, w.toNat % 2 ^ 64, w.toNat / 2 ^ 64, 7, 0]
/-- A descriptor of a section over region 0: one tile of colour 0, context 0, a plain section. -/
def sectBlock : BitVec 256 := BitVec.ofNat 256 (2 ^ 48 + 2 ^ 24)
def wReg (st : RegionState) : State :=
  let s := grid st (slotOf 0x10 ecfg []) []
  let c := core0 0 [(6, 0), (7, 0), (8, 0x0700), (9, 0x100000), (10, 0x2000), (11, 0x10000)]
  netWords ((List.range 10).map fun i => (8 * i, imageWords.getD i 0)) { s with cores := [(0, { c with cbc := [(0x2000, sectBlock)] })] }
abbrev cmd : RRR := { rrr with ty := 0, b := 0 }
theorem witness_RegionForms :
    ([.colqRd { cmd with b := 7 }, .colqOpen { cmd with d := 0, b := 7, func := 1 }, .colqClose { cmd with d := 0, b := 7, func := 2 },
      .rpurge { cmd with d := 0, b := 7 }, .rtear { cmd with d := 0, func := 1 }, .rinj { cmd with d := 0, b := 7, c := 8 },
      .rload { cmd with a := 9, b := 7 }, .rarm { cmd with a := 10 }, .rcalm { cmd with func := 3 }, .rcalm cmd].all (runs (wReg .resident))) = true ∧
    (wReg .resident).badHandle 0 0 = false ∧ (wReg .resident).badHandle 0 0x10000 = true ∧ (wReg .resident).injectOk 0 0 0x0700 = true ∧
    (wReg .resident).injectOk 0 0 0x0300 = false ∧ ((wReg .resident).region 0).st = .resident ∧ ((wReg .torn).region 0).st = .torn ∧
    ((wReg .empty).region 0).st = .empty ∧
    (match (wReg .resident).readImage 0 (imageWord (wReg .resident)) 0x100000 0 with | .ok q => q.1 == 0 && q.2.elems.length == 1 | .error _ => false) = true ∧
    (wReg .resident).corePresent 0 = true ∧ ((wReg .resident).x 8).toNat % 32 = 0 ∧ ((wReg .resident).x 11).toNat ≥ 1024 ∧ (1 : Nat) % 32 ≠ 0 ∧
    (wReg .resident).me.cbc.find? (fun e => e.1 == 0x2000) = some (0x2000, sectBlock) ∧
    ((wReg .resident).armCheck 0 { Section.reset with desc := (List.range 4).map fun k => BitVec.ofNat 64 (sectBlock.toNat / 2 ^ (64 * k)) }
      (wReg .resident).armedHere (fun _ => false) true 0).toOption.isSome = true := by decide +kernel
/-- A token on element 7's W link, or admitted at port 0's entry side, or in its exit buffer with the iteration given. -/
def wTok : State :=
  let s := el 0x10 ecfg [] []
  let v := slotOf 1 { passCfg with q1 := 4, nin := 2, ordx := true } []
  { s with elems := [(7, { Elem.reset with slots := [(0, v)], links := [(4, tok 1 0)] })], entryq := [(0, [(tok 2 0, true)])], links := [(0, .auth)], lperm := [(0, 0x1000)],
           scheds := [(0, { Sched.reset with ings := [(0, { Ing.reset with xen := true })] })] }
theorem witness_TokensMove :
    Sp.find? (wTok.elem 7).links 4 = some (tok 1 0) ∧ (tok 1 0).slot = 0 ∧ ((wTok.elem 7).slot 0).op ≠ 0 ∧
    ((wTok.elem 7).slot 0).gen = (tok 1 0).gen ∧ ((wTok.elem 7).slot 0).input 4 = some 1 ∧ (wTok.elem 7).queues.length = 4 ∧
    sideKey 0 0 0 0 = 0 ∧ wTok.entryq.filter (fun q => q.1 / 256 == portKey 0 0 0) = [(0, [(tok 2 0, true)])] ∧
    Sp.find? wTok.entryq 0 = some [(tok 2 0, true)] ∧ wTok.sideUser 0 0 0 true = some 7 ∧ ((wTok.slot 7 0).input 5) = some 0 ∧
    (wTok.slot 7 0).held 0 = false ∧ wTok.roomIn 7 0 0 (tagOf (tok 2 0)) = true ∧ wTok.channels = [] ∧
    wTok.sideUser 0 0 0 false = some 7 ∧ (wTok.slot 7 0).cfg.ordx = true ∧ (wTok.core 0).streams = [] ∧ wTok.partOf 0 = some 0 ∧ wTok.hostPath (wTok.partid 0) false = true ∧
    (wTok.sched 0).ings = [(0, { Ing.reset with xen := true, core := 0, xport := 0 })] ∧
    ({ wTok with exitq := [(0, [{ tok 3 0 with iter := 1 }])] } : State).exitPick 0 0 0 0 = none ∧
    ({ wTok with exitq := [(0, [tok 3 0])] } : State).exitPick 0 0 0 0 = some (0, tok 3 0) := by decide +kernel
/-- The load of region 0 at the head of the core's loader; a LOADING region; one whose colour 0 is being purged, or whose counter ran out; a
one-shot region whose section has ended at element 0. -/
def load0 : LoadCmd :=
  { core := 0, target := 0, handle := 0, force := false, loader := false, pin := false,
    img := { at_ := 0x100000, oneShot := false, dexp := 0, rexp := 0, quotas := [(0, 8)], elems := [elt 7 1 passCfg] } }
def wLoad : State := { pkg (core0 0 []) with loaders := [(0, [.load load0])] }
def wFull0 : State :=
  { wLoad with regions := [(8, { region0 .resident 0x10 ecfg with elems := [{ elt 7 1 passCfg with cfg := { passCfg with share := 64, port := 2 } }] })],
               loaders := [(0, [.load { load0 with img := { load0.img with elems := [elt 7 1 { passCfg with port := 3 }] } }])] }
def wLoading : State := { pkg (core0 0 []) with regions := [(0, { region0 .loading 0x10 ecfg with left := [7, 0] })] }
def wPurge (k : RColour) : State := { el 0x10 ecfg [] [] with regions := [(0, { region0 .resident 0x10 ecfg with colours := [(0, k)] })] }
def wShot : State := grid .resident { slotOf 0x10 { ecfg with cin := 3 } [] with eosIn := [1, 1, 0, 0] } []
theorem witness_RegionEvents :
    Sp.find? wLoad.loaders 0 = some [.load load0] ∧ load0.force = false ∧ ({ wLoad with loaders := [] } : State).loadFails load0 = none ∧
    ({ wFull0 with loaders := [] } : State).loadFails { load0 with img := { load0.img with elems := [elt 7 1 { passCfg with port := 3 }] } } ≠ none ∧
    ((wLoading.region 0).elems.find? (fun j => (wLoading.region 0).left.contains j.elem && !(wLoading.slot j.elem 0).on)) = some (elt 7 1 passCfg) ∧
    ((wPurge { RColour.reset with quota := 8, purging := true, quiet := 2 }).region 0 |>.colour 0).purging = true ∧
    (wPurge { RColour.reset with quota := 8, purging := true, quiet := 2 }).requesting 0 0 = false ∧
    ((wPurge { RColour.reset with quota := 8, stall := 2 ^ 24 }).region 0 |>.colour 0).stall = 2 ^ 24 ∧
    ((wPurge { RColour.reset with quota := 8, purging := true, quiet := 1 }).region 0 |>.colour 0).quiet = 1 ∧
    ((el 0x10 ecfg [] []).regions.filter (fun q => hGrid q.1 == 0 && q.2.inUse)).length = 1 ∧ tagOf (tok 0 0) ∉ (el 0x10 ecfg [] []).keysIn 0 ∧
    (wShot.slot 0 0).op ≠ 0 ∧ wShot.idleSlot 0 0 = true ∧
    ({ wShot with regions := [(0, { region0 .resident 0x10 ecfg with oneShot := true, inSect := some (0, 0, 1) })] } : State).lastEos 0 0 = true ∧
    (7 : Nat) ∉ (wShot.region 0).freed := by decide +kernel
/-- Entry 0 of the section table as given; stream 0 writes from port 0, whose exit side holds a token, or has a token out, or an action due. -/
def wSect (t : Section) (q : Stream) (x : List Token) : State :=
  { el 0x10 ecfg [] [] with
      exitq := if x = [] then [] else [(0, x)], cycle := 1024,
      cores := [(0, { core0 0 [] with sections := [(0, t)], streams := [(0, q)] })] }
def sect0 : Section := { Section.reset with used := true, desc := (List.range 4).map fun k => BitVec.ofNat 64 (sectBlock.toNat / 2 ^ (64 * k)) }
def wrStr : Stream := { strState .running 0 4 0x8000 with lvlS := true }
def due0 : DoneDue := { act := { tok := false, scope := 0, arg := 0x80000004 }, tile := 0, k := 1, colour := 0, context := 0, slot := 0 }
theorem witness_SectionAndPortEvents :
    (wSect sect0 wrStr []).mayStart sect0 = true ∧ sect0.kind = 0 ∧ (wSect { sect0 with started := true } wrStr []).mayRelease { sect0 with started := true } = true ∧
    ((wSect { sect0 with ending := some 2 } wrStr []).core 0 |>.sect 0).ending = some 2 ∧
    ((wSect { sect0 with done := some 0 } wrStr []).core 0 |>.sect 0).done = some 0 ∧ 1024 ≤ (wSect sect0 wrStr []).cycle - sect0.sentAt ∧
    (w0.cycle : Nat) - 0 < 1024 ∧
    (((wSect sect0 wrStr []).core 0).stream 0).st = .running ∧ wrStr.tile < wrStr.tiles ∧ wrStr.target = 0 ∧ wrStr.write = true ∧ wrStr.n0 = 4 ∧ wrStr.past = false ∧
    (wSect sect0 wrStr [tok 5 0]).exitPick 0 wrStr.port wrStr.slot 0 = some (0, tok 5 0) ∧ (tok 5 0).poison = false ∧
    ((wSect sect0 wrStr []).access 0 0 wrStr.addr 4 true false .w).toOption.map (fun t => space t.home) = some .floor ∧
    (wSect sect0 wrStr [{ tok 5 0 with poison := true }]).exitPick 0 wrStr.port wrStr.slot 0 = some (0, { tok 5 0 with poison := true }) ∧
    (((wSect sect0 { wrStr with out := some (tok 5 0) } []).core 0).stream 0).out = some (tok 5 0) ∧
    (((wSect sect0 { wrStr with out := some (tok 5 0) } []).offer 0 0 0 (tok 5 0)).2 = .taken) ∧
    (((wSect sect0 { wrStr with out := some (tok 5 0) } []).offer 0 9 0 (tok 5 0)).2 = .noUser) ∧
    (((wSect sect0 { wrStr with due := [due0] } []).core 0).stream 0).due = [due0] ∧ due0.act.tok = false ∧
    (wSect sect0 wrStr []).unacked (.stream 0 0) = false := by decide +kernel

/-! Elements: the set that fires, and the state in which it fires. -/

/-- The set that fires of element 0, with the state, where the turn comes to a firing. -/
def firing (op : BitVec 8) (o : ElemCfg) (s : State) : Option (Entry × State) :=
  let u := s.acceptAll 0
  if (s.slot 0 0).op = op ∧ (s.slot 0 0).cfg = o ∧ u.nextOwed 0 0 = none ∧ u.turnSlot 0 = some 0 then
    (u.fireable 0 0).map fun x => (x, u.setElem 0 { u.elem 0 with last := 0 })
  else none
theorem firing_fires {op : BitVec 8} {o : ElemCfg} {s s1 : State} {x : Entry} (he : s.curElem = 0) (hs : s.curSlot = 0)
    (h : firing op o s = some (x, s1)) : Fires op o s x s1 := by
  simp only [firing] at h
  split at h
  · rename_i hc
    simp only [Option.map_eq_some_iff, Prod.mk.injEq] at h
    obtain ⟨y, hy, rfl, rfl⟩ := h
    simp only [Fires, he, hs]
    exact ⟨hc.1, hc.2.1, hc.2.2.1, hc.2.2.2, hy, rfl⟩
  · cases h
/-- A set fires, and it has no bubble and no wrong format. -/
def regular (op : BitVec 8) (o : ElemCfg) (ents : List Entry) (toks : List Token) : Bool :=
  match firing op o (el op o ents toks) with
  | some (x, s1) => let v := s1.slot 0 0; !v.anyBubble (v.operands x) && !v.formatBad (v.operands x)
  | none => false
/-- What holds of the set that fires. -/
def firesWith (op : BitVec 8) (o : ElemCfg) (ents : List Entry) (toks : List Token) (f : Entry → State → Bool) : Bool :=
  match firing op o (el op o ents toks) with
  | some (x, s1) => f x s1
  | none => false
abbrev one : ElemCfg := { ecfg with nin := 1, q1 := 0 }
abbrev three : ElemCfg := { ecfg with nin := 3, q2 := 3 }
def bub : Token := { tok 0 0 with bubble := true }

/-- A set with a bubble fires, and one with a token of another format. -/
def passes (op : BitVec 8) (o : ElemCfg) (toks : List Token) : Bool :=
  firesWith op o [] toks fun x s1 => (s1.slot 0 0).anyBubble ((s1.slot 0 0).operands x)
def misfits (op : BitVec 8) (o : ElemCfg) (toks : List Token) : Bool :=
  firesWith op o [] toks fun x s1 => !(s1.slot 0 0).anyBubble ((s1.slot 0 0).operands x) && (s1.slot 0 0).formatBad ((s1.slot 0 0).operands x)
theorem witness_IntegerElementResult :
    ([0x10, 0x11, 0x12, 0x13, 0x14, 0x15, 0x16, 0x17, 0x18, 0x19].all fun op => regular op ecfg [] [tok 1 0, tok 2 0]) = true ∧
    regular 0x1A { ecfg with opx := 5, fmt := 1 } [] [tok 1 1, tok 2 1] = true ∧ regular 0x1B three [] [tok 1 0, tok 2 0, tok 0 0] = true ∧
    regular 0x3F { ecfg with fmt := 1 } [] [tok 1 1, tok 2 1] = true ∧ regular 0x3C { one with fmt := 2 } [] [tok 255 1] = true ∧
    regular 0x45 { one with fmt := 1 } [] [tok 1 1] = true ∧ regular 0x45 { one with fmt := 2 } [] [tok 1 1] = true := by decide +kernel
theorem witness_IntegerElementResult_rest :
    ([0x10, 0x11, 0x12, 0x13, 0x14, 0x15, 0x16, 0x17, 0x18, 0x19, 0x1A].all fun op => passes op ecfg [bub, tok 2 0] && misfits op ecfg [tok 1 2, tok 2 0]) = true ∧
    passes 0x1B three [tok 1 0, bub, tok 0 0] = true ∧ misfits 0x1B three [tok 1 2, tok 2 0, tok 0 0] = true ∧
    passes 0x3F { ecfg with fmt := 1 } [{ bub with fmt := 1 }, tok 2 1] = true ∧ misfits 0x3F { ecfg with fmt := 1 } [tok 1 2, tok 2 1] = true ∧
    passes 0x3C { one with fmt := 2 } [bub] = true ∧ passes 0x45 { one with fmt := 1 } [bub] = true := by decide +kernel
theorem witness_FloatElementResult :
    ([0x20, 0x21, 0x22, 0x24, 0x25, 0x26, 0x38, 0x46].all fun op => regular op { ecfg with fmt := 2 } [] [tok 0x3F800000 2, tok 0x3F800000 2]) = true ∧
    ([0x39, 0x3A, 0x3B].all fun op => regular op { one with fmt := 2 } [] [tok 0x3F800000 2]) = true ∧
    regular 0x23 { three with fmt := 4 } [] [tok 0 4, tok 0 4, tok 0 4] = true ∧
    regular 0x20 { ecfg with fmt := 2 } [] [{ tok 0 2 with poison := true }, tok 0 2] = true ∧
    regular 0x20 { ecfg with fmt := 2, fin := true } [] [tok 0x7F800000 2, tok 0 2] = true ∧ nonFinite 2 [0x7F800000] ≠ 0 := by decide +kernel
theorem witness_FloatElementResult_rest :
    ([0x20, 0x21, 0x22, 0x24, 0x25, 0x26, 0x38, 0x46].all fun op =>
      passes op { ecfg with fmt := 2 } [bub, tok 0 2] && misfits op { ecfg with fmt := 2 } [tok 0 3, tok 0 2]) = true ∧
    ([0x39, 0x3A, 0x3B].all fun op => passes op { one with fmt := 2 } [bub] && misfits op { one with fmt := 2 } [tok 0 3]) = true ∧
    passes 0x23 { three with fmt := 4 } [tok 0 4, bub, tok 0 4] = true ∧ misfits 0x23 { three with fmt := 4 } [tok 0 4, tok 0 2, tok 0 4] = true := by decide +kernel
/-- An entry of the tag of `tok` with arrived tokens at inputs 0 and 1. -/
def ent0 (a b : List Token) (row : RowState) : Entry :=
  { key := tagOf (tok 0 0), toks := [a.map fun t => { tok := t, stamp := 0 }, b.map fun t => { tok := t, stamp := 1 }, [], []],
    ready := if a = [] then none else some 0, row := row }
/-- LOOP that has taken its pair; a context in use. -/
def loopCfg : ElemCfg := { ecfg with const := 2 }
def wLoopE : State :=
  grid .resident { slotOf 0x05 loopCfg [] with loops := [{ count := tok 2 0, seed := tok 5 0, k := 0 }] } []
def ctx0 : Ctx := { callerCtx := 3, callerIter := 4, region := 0, colour := 0, freeing := false, quiet := 0 }
theorem witness_SteeringElementResult :
    regular 0x01 one [] [tok 1 0] = true ∧ regular 0x02 one [] [tok 1 0] = true ∧ regular 0x03 ecfg [] [tok 1 0, tok 1 0] = true ∧
    regular 0x03 ecfg [] [tok 1 0, tok 0 0] = true ∧ regular 0x03 ecfg [] [tok 1 0, { tok 1 0 with poison := true }] = true ∧
    firesWith 0x04 ecfg [ent0 [tok 1 0] [tok 2 0] .none] [] (fun x _ => match x.at 0, x.at 1 with | a :: _, b :: _ => a.stamp ≤ b.stamp && a.tok.fmt == 0 | _, _ => false) = true ∧
    firesWith 0x04 ecfg [{ ent0 [tok 1 0] [tok 2 0] .none with toks := [[{ tok := tok 1 0, stamp := 2 }], [{ tok := tok 2 0, stamp := 1 }], [], []] }] []
      (fun x _ => match x.at 0, x.at 1 with | a :: _, b :: _ => decide (b.stamp < a.stamp) && b.tok.fmt == 0 | _, _ => false) = true ∧
    ([0, 1, 2, 3].all fun k => regular 0x41 { one with const := 0xE4 } [] [tok k 0]) = true ∧ (0xE4 : W32).toNat / 2 ^ (2 * 3) % 4 = 3 ∧
    firesWith 0x05 loopCfg [] [tok 2 0, tok 5 0] (fun _ _ => ((el 0x05 loopCfg [] [tok 2 0, tok 5 0]).acceptAll 0).loopIssue 0 0 |>.isNone) = true ∧
    (wLoopE.acceptAll 0).nextOwed 0 0 = none ∧ ((wLoopE.acceptAll 0).slot 0 0).loops.length = 1 ∧ 0 < (tok 2 0).value.toNat ∧
    ((wLoopE.acceptAll 0).region 0).live 0 < ((wLoopE.acceptAll 0).region 0).quota 0 ∧ (wLoopE.acceptAll 0).roomBorn 0 0 0x10 (tagOf (tok 0 0)) = true ∧ ((wLoopE.acceptAll 0).elem 0).counting = false ∧
    (((wLoopE.acceptAll 0).slot 0 0).tagsOf 0 0).live = [] ∧
    firesWith 0x06 one [] [tok 1 0] (fun _ s1 => (s1.freeCtx (s1.elemPart 0)).isSome) = true ∧
    (match firing 0x07 one { el 0x07 one [] [{ tok 1 0 with context := 1 }] with ctxs := [(1, ctx0)] } with
      | some (_, s1) => Sp.find? s1.ctxs (s1.elemPart 0 * 1024 + 1) == some ctx0 | none => false) = true := by decide +kernel
/-- The last token of a row. -/
def last (v : W32) (f : BitVec 3) : Token := { tok v f with eor := true }
theorem witness_RowElementResult :
    regular 0x28 one [] [tok 1 0] = true ∧ firesWith 0x28 one [ent0 [] [] (.acc 1 [1] false false)] [tok 2 0] (fun x _ => x.row == .acc 1 [1] false false) = true ∧
    firesWith 0x28 one [ent0 [] [] (.acc 1 [1] false false)] [last 2 0] (fun x _ => x.row == .acc 1 [1] false false) = true ∧
    firesWith 0x44 { one with fmt := 2 } [ent0 [] [] (.cums 0 false)] [last 0 2] (fun x _ => x.row == .cums 0 false) = true ∧ regular 0x44 { one with fmt := 2 } [] [tok 0 2] = true ∧
    firesWith 0x43 { one with fmt := 2, const := 1 } [ent0 [] [] (.topk [(0, 0)] 1 false false)] [tok 1 2] (fun x _ => x.row == .topk [(0, 0)] 1 false false) = true ∧
    firesWith 0x42 { ecfg with fmt := 2 } [ent0 [tok 0 2] [tok 1 0, tok 5 2] (.spadd 0 none false false)] [] (fun x _ => (x.at 1).length == 2) = true ∧
    firesWith 0x42 { ecfg with fmt := 2 } [ent0 [tok 0 2] [tok 0 0, tok 5 2] (.spadd 0 none false false)] [] (fun x _ => (x.at 1).length == 2) = true ∧
    regular 0x27 { one with fmt := 2, opx := 0 } [] [tok 7 0] = true ∧ laneCount 0 = laneCount 2 ∧
    regular 0x27 { one with fmt := 2, opx := 0 } [] [{ tok 7 0 with poison := true }] = true ∧ regular 0x48 { one with fmt := 2 } [] [tok 0 2] = true ∧
    (match firing 0x48 { one with fmt := 2 } { el 0x48 { one with fmt := 2 } [] [tok 0 2] with
        cores := [(0, { core0 0 [] with vane := { VaneUnit.reset with cfg := [(0, 2 ^ 63)] } })] } with
      | some (x, s1) => x.row == .none && (Sp.get 0 (s1.core 0).vane.cfg 0).getLsbD 63 | none => false) = true ∧
    ((el 0x48 { one with fmt := 2 } [] [tok 0 2]).acceptAll 0).vaneTurn 0 0 = none := by decide +kernel
/-- The address of the page as a token; a request of element 0 at the page. -/
def req0 (k : MKind) : MReq :=
  { id := 0, slot := 0, region := 0, toks := [tok 0x100000 0, tok 7 0], kind := k, scope := 0, home := pageHomeAddr, key := 5, va := 0x100000, time := 0,
    timed := true, got := none, res := none, dead := false, lost := false }
def wReq (op : BitVec 8) (c : ElemCfg) (r : MReq) : State :=
  { el op c [] [] with elems := [(0, { Elem.reset with slots := [(0, slotOf op c [])], reqs := [r] })], cycle := 2 ^ 20 }
def pend0 : Pend := { out1 := true, count := true, birth := false, tok := tok 0 1 }
theorem witness_MemoryElementResult :
    (firesWith 0x30 one [] [tok 0x100000 0] (fun _ s1 => (s1.mAccess 0 0 pageVa 4 true false).toOption.any fun t => space t.home == .floor) &&
      regular 0x30 one [] [tok 0x100000 0]) = true ∧
    (firesWith 0x31 ecfg [] [tok 0x100000 0, tok 7 0] (fun _ s1 => (s1.mAccess 0 0 pageVa 4 false true).toOption.any fun t => space t.home == .floor) &&
      regular 0x31 ecfg [] [tok 0x100000 0, tok 7 0]) = true ∧
    (firesWith 0x32 { ecfg with opx := 0x16 } [] [tok 0x100000 0, tok 7 0] (fun _ s1 => (s1.mAccess 0 0 pageVa 4 true true).toOption.isSome) &&
      regular 0x32 { ecfg with opx := 0x16 } [] [tok 0x100000 0, tok 7 0]) = true ∧
    regular 0x47 { one with fmt := 2 } [] [tok 0 2] = true ∧
    (({ el 0x47 { one with fmt := 2 } [] [tok 0 2] with cores := [(0, { core0 0 [] with tlb := [{ colour := 0, base := 0, size := 4096, pte := leaf pageHomeAddr 0 }] })] } :
      State).mAccess 0 0 0 8 true false).toOption.isSome = true ∧
    firesWith 0x30 one [] [tok 0x200000 0] (fun _ s1 => (s1.mAccess 0 0 0x200000 4 true false).toOption.isNone) = true ∧
    ((wReq 0x30 one (req0 .load)).elem 0).reqs[0]? = some (req0 .load) ∧ ((wReq 0x31 { ecfg with out0 := 0 } (req0 (.store 7))).slot 0 0).cfg.out0 = 0 ∧
    (wReq 0x30 one (req0 .load)).anyPoison pageHomeAddr 4 = false ∧ space pageHomeAddr = .floor ∧
    (wReq 0x30 one { req0 .load with res := some [(false, tok 7 0)] }).room 0 0 0x10 (tagOf (tok 7 0)) = true ∧
    2 ^ 20 ≤ (wReq 0x30 one (req0 .load)).cycle - (req0 .load).time ∧
    (grid .resident { slotOf 0x20 { ecfg with fmt := 2, out1 := 0x10 } [] with pend := [pend0] } []).nextOwed 0 0 = some 0 ∧
    ((wReq 0x32 { ecfg with out0 := 0 } (req0 (.rmw 0 7))).elem 0).reqs[0]? = some (req0 (.rmw 0 7)) ∧
    ((wReq 0x31 { ecfg with out0 := 0 } (req0 (.store 7))).elem 0).reqs[0]? = some (req0 (.store 7)) ∧
    (let s := wReq 0x30 { one with out1 := 0x10 } { req0 .load with res := some [(false, tok 7 0), (true, tok 8 0)] }
     (s.slot 0 0).cfg.out0 &&& (s.slot 0 0).cfg.out1 ≠ 0 ∧ ([(false, tok 7 0), (true, tok 8 0)].all fun p =>
       (s.setElem 0 { s.elem 0 with reqs := [] }).room 0 0 (if p.1 then (s.slot 0 0).cfg.out1 else (s.slot 0 0).cfg.out0) (tagOf p.2)) = true) := by decide +kernel
/-- An open sequence at position 0 below halt 4 in the page, plain or a step of one node. -/
def wSeq (tree : Bool) (ents : List Entry) : State :=
  netWords [(0, 4), (8, 2 ^ 63 + if tree then 2 ^ 62 else 0)]
    { el 0x40 { one with const := 0, q0 := 1 } ents [] with
      elems := [(0, { Elem.reset with slots := [(0, slotOf 0x40 one ents)] })],
      cores := [(0, { core0 0 [] with tlb := [{ colour := 0, base := 0, size := 4096, pte := leaf pageHomeAddr 0 }] })] }
def run0 : TreeRun := { nodes := 1, step := 0, todo := [0], done := [], eos := false, refused := 0 }
def run1 : TreeRun := { run0 with todo := [], done := [0] }
def seqOk (s : State) (f : SeqDesc → Bool) : Bool :=
  match s.readDesc 0 0 0 0 true with
  | .ok q => !q.poison && !q.reserved && q.isOpen && ((List.range 128).all fun i => space (q.tr.home + i) == .floor) && f q
  | .error _ => false
theorem witness_CommitRetires :
    seqOk (wSeq false []) (fun q => !q.tree && q.pos == 0 && q.halt == 4 && q.ctab == 0) = true ∧
    ((wSeq false [ent0 [tok 1 1] [] .none]).nextArrival 0 0).isSome = true ∧ ((wSeq false [ent0 [tok 1 1] [] .none]).elem 0).counting = false ∧
    ((wSeq false [ent0 [tok 1 1] [] .none]).elem 0).queues = [[], [], [], []] ∧ (wSeq false [ent0 [tok 1 1] [] .none]).nextOwed 0 0 = none ∧
    ((wSeq false [ent0 [tok 1 1] [] (.commit [0])]).retirable 0 0 0 0 0).isSome = true ∧
    (wSeq false []).room 0 0 0x10 (tagOf (tok 0 0)) = true ∧ ((wSeq false [ent0 [tok 1 1] [] (.commit [4])]).retirable 0 0 0 0 4).isSome = true ∧
    seqOk (wSeq true []) (fun q => q.tree && q.nm1 == 0 && decide (q.pos < q.halt) && decide (q.step < 256) && q.ctab == 0) = true ∧
    (wSeq true [ent0 [tok 1 1] [] (.commit [0])]).nodeTok 0 0 0 0 0 0 = some (tok 1 1) ∧
    ((wSeq true [ent0 [tok 1 1] [] (.commit [0])]).slot 0 0).treeRun 0 0 = none ∧
    ((wSeq true [ent0 [tok 1 1] [] (.tree run0)]).slot 0 0).treeRun 0 0 = some (nodeKey 0 0 0 0, run0) ∧
    (wSeq true [ent0 [tok 1 1] [] (.tree run0)]).nodeTok 0 0 0 0 0 0 = some (tok 1 1) ∧
    (wSeq true []).room 0 0 0x10 (tagOf (tok 1 1)) = true ∧
    ((wSeq true [ent0 [] [] (.tree run1)]).slot 0 0).treeRun 0 0 = some (nodeKey 0 0 0 0, run1) ∧
    (wSeq true [ent0 [] [] (.tree run1)]).nodeTok 0 0 0 0 0 0 = none ∧
    seqOk (netWords [(0, 4 + 4 * 2 ^ 32)] (wSeq false [])) (fun q => q.halt ≤ q.pos) = true := by decide +kernel

/-! Events of a core and of the module. -/

/-- A core at U with interrupt 1 pending and unmasked. -/
def irqCore (b : Blk) : Core := { core0 0 [] with lvlS := false, tpend := 2, regs := { regs [] with tmask := 6 }, blk := b }
def waiting (w : Wait) : State := pkg (irqCore { Blk.reset with isOpen := true, words := [0], wait := w })
def presWait : Wait := .pres .take 5 pageHomeAddr 0x100000 6 false
def deferred : State :=
  let s := pkg (irqCore { Blk.reset with isOpen := true, words := [0], wait := presWait, cancel := true })
  { s with banks := [(bankOf pageHomeAddr, { Bank.reset with deferred := [{ who := .core 0, kind := .take, addr := pageHomeAddr, data := 0 }] })] }
/-- Line 0x20000020 (the page's first) in the L1, dirty in byte 0. -/
def dirtyLine (sent : Bool) : State :=
  pkg { core0 0 [] with l1 := [(pageHomeAddr / 128, { data := 0xAA, dirty := 1, marks := 0, since := 0, key := 5, sent := sent })] }
def lateLoad : State :=
  let s := pkg { core0 0 [] with rreq := some (pageHomeAddr, 8, 0x100000) }
  { s with cycle := 2 ^ 24, net := { Net.reset with reads := [{ who := .core 0, home := pageHomeAddr, len := 8, tag := 0, time := 0 }] } }
/-- A core in dispatch with one entry; node A's words 1 and 7 as given, B's word 1 bound to A, a rule body at offset 0x200, and the rule of
the kinds 0x10 and 0x11 in the rule cache. -/
def wDisp (launch : Bool) (bond : Nat) : State :=
  let c := core0 (2 ^ 63) []
  netWords [(0, 0x11 * 2 ^ 52 + 2 ^ 42), (8, bond), (56, pageVa + 0x200), (64, 0x10 * 2 ^ 52 + 2 * 2 ^ 42),
      (72, linkWord sBound (nodePort nodeA 0)), (0x200, 2 ^ 56 + 2 ^ 44)]
    (pkg { c with run := .dispatch, lvlS := false, blk := Blk.reset, bagctl := 0x8000000000000000, rcache := [(0x11010, 0x100200, 0)],
                  bag := [{ a := 0x100000, b := if launch then 0 else 0x100040, colour := 0, launch := launch }] })
def readyDisp (s : State) : Bool :=
  s.me.run == .dispatch && s.me.between && s.me.bagctl.getLsbD 63 && s.me.irq.isNone && s.me.poisonTrap.isEmpty && !s.awaits 0 1 && !s.awaits 0 2 && s.settled 0 false && !s.unacked (.core 0) && s.me.rreq.isNone && !s.me.walkWait
def ctxU : NetCtx := { n := 0, c := 0, lvlS := false }
def headPair (s : State) : Option (Except XF Disp) :=
  match s.popHead 0 with
  | some (p, s1) => if p.mark = none then some ((dispatchPair ctxU p.a.toNat p.b.toNat).runOn (s1.l1DropAll 0)).1 else none
  | none => none
theorem witness_CoreEvents :
    (((waiting (.waita 5 0 4 0 0 false)).core 0).lvlS = false ∧ ((waiting (.waita 5 0 4 0 0 false)).core 0).blk.ans = .none ∧
      ((waiting (.waita 5 0 4 0 0 false)).core 0).blk.cancel = false ∧ ((waiting (.waita 5 0 4 0 0 false)).core 0).tpend.getLsbD 1 = true ∧
      ((waiting (.waita 5 0 4 0 0 false)).core 0).regs.tmask.getLsbD 1 = true) ∧
    ((waiting presWait).core 0).blk.wait = presWait ∧ (w0.core 0).tpend = 0 ∧ (deferred.core 0).blk.cancel = true ∧
    (deferred.bank (bankOf pageHomeAddr)).deferred.map (·.who) = [.core 0] ∧
    (let c := (pkg (irqCore Blk.reset)).core 0
     c.tpend.getLsbD 0 = false ∧ c.blk.isOpen = false ∧ c.inTrap = false ∧ c.pendTrap = none ∧ c.run = .running ∧
       (pkg (irqCore Blk.reset)).outstanding 0 = false) ∧
    ((dirtyLine false).core 0).l1.map (·.1) = [pageHomeAddr / 128] ∧ space (pageHomeAddr / 128 * 128) = .floor ∧
    (Sp.find? ((dirtyLine true).core 0).l1 (pageHomeAddr / 128)).map (·.sent) = some true ∧
    (lateLoad.core 0).rreq = some (pageHomeAddr, 8, 0x100000) ∧ (lateLoad.overdue (.core 0)).isSome = true ∧ (lateLoad.core 0).inTrap = false ∧
    readyDisp (wDisp true 0) = true ∧ ((wDisp true 0).popHead 0).map (·.1.mark) = some none ∧ ((wDisp true 0).nodeTr ctxU (pageVa + 56) .r).toOption.map (·.home) = some (pageHomeAddr + 56) ∧
    (wDisp true 0).anyPoison (pageHomeAddr + 56) 8 = false ∧ (wDisp true 0).readVal 0 (pageHomeAddr + 56) 8 = pageVa + 0x200 ∧
    ((wDisp true 0).ruleBody 0 0 (pageVa + 0x200)).toOption = some true ∧
    readyDisp (wDisp false (linkWord sBound (nodePort nodeB 0))) = true ∧
    (match headPair (wDisp false (linkWord sBound (nodePort nodeB 0))) with | some (.ok (.run b ..)) => b == pageVa + 0x200 | _ => false) = true ∧
    readyDisp (wDisp false (linkWord sHole (nodePort nodeB 0))) = true ∧
    (match headPair (wDisp false (linkWord sHole (nodePort nodeB 0))) with | some (.ok .stale) => true | _ => false) = true := by decide +kernel
theorem witness_ModuleEvents :
    space (gddrBase / 32 * 32) = .gddr ∧ w0.chanPresent (chanOf (gddrBase / 32 * 32)) = true ∧ Sp.find? w0.l2 (gddrBase / 32 * 32 / 128) = none ∧ w0.clock = 0 ∧
    ({ w0 with clock := 1, now := 10000000 } : State).clock = 1 ∧ ({ w0 with powered := false } : State).agenda = [] ∧
    ({ w0 with powered := false, agenda := [.event .throttle] } : State).agenda = [.event .throttle] ∧ Instr.throttle ≠ .coldReset := by decide +kernel

/-! Launches, registers, packets. -/

/-- A running launch of core 0 whose record has the kind, images, section and entry given. -/
def launch0 (kind nimg sect entry : Nat) : Launch :=
  { id := 3, index := 0, colour := 0, trigger := kind, seq := 0, time := 0, port := none, running := true,
    desc := [BitVec.ofNat 64 (2 ^ 7 + kind * 4), BitVec.ofNat 64 (nimg * 2 ^ 60 + pageVa + 0x100), BitVec.ofNat 64 sect, BitVec.ofNat 64 entry],
    img := 0, uses := [], waits := none, entryAt := none, want := (0, 0), far := [], entry? := none, started := false, sect := none, node := none,
    body := .none, regs := [] }
def headRec : W64 := 0x00000000000000C0
def dataRec : W64 := 0x0000000700000080
/-- Partition 0's scheduler: the launches given; port 0 with the queue given; records of launches that complete go to offset 0x800. -/
def sched0 (ls : List Launch) (recs : List W64) : Sched :=
  { Sched.reset with en := true, launches := ls, nextId := 4, lcbase := BitVec.ofNat 64 (pageHomeAddr + 0x7F0 + 0x10),
                     ings := [(0, { Ing.reset with en := true, xen := true, queue := recs.map fun w => { w := w, core := 0, eport := 0 } })] }
/-- The page holds an image list of one entry (image `pageVa`, core 0), a section descriptor at 0x200 and two nodes bound to each other at
0x400 and 0x440; region 0 is resident from that image. -/
def wLaunch (ls : List Launch) (recs : List W64) : State :=
  let s := netWords [(0x100, pageVa), (0x108, 0), (0x200, sectBlock.toNat), (0x208, 0), (0x210, 0), (0x218, 0),
      (0x400, 0x11 * 2 ^ 52), (0x408, linkWord sBound (nodePort (pageVa + 0x440) 0))] (grid .resident (slotOf 0x10 ecfg []) [])
  { s with scheds := [(0, sched0 ls recs)], regions := [(0, { region0 .resident 0x10 ecfg with loader := some (0x100000, 0) })],
           vfs := [(0, { Vf.reset with en := true, st := if recs = [] then .unlocked else .run, ingmask := 1 })], exitq := [(0, [tok 3 0])],
           links := [(0, .auth)], lperm := [(0, 0x3000)] }
def slot0 : Timed := { d0 := BitVec.ofNat 64 (2 ^ 63 + 1000), d1 := 0, next0 := BitVec.ofNat 64 (2 ^ 63 + 1000), next1 := 0, slot := some 5, skipped := 0,
                       started := 0, last := none }
def wTimed (lock : Bool) : State :=
  { w0 with now := 7, scheds := [(0, { Sched.reset with ten := true, timed := [(2, slot0)] })],
            ptp := { Ptp.reset with measured := true, offset := 40, locked := lock } }
theorem witness_LaunchEvents :
    (((wLaunch [] [dataRec]).sched 0).ing 0).en = true ∧ (wLaunch [] [dataRec]).ingVf 0 0 = some 0 ∧ ((wLaunch [] [dataRec]).vf 0).st = .run ∧
    ((wLaunch [] [dataRec]).colour 0).valid = true ∧ ((wLaunch [] [dataRec]).colour 0).part = 0 ∧ ((wLaunch [] [dataRec]).colour 0).vf = 0 ∧ recOk headRec = true ∧
    recOk dataRec = true ∧ recOk 1 = false ∧ (((wLaunch [] [headRec]).sched 0).ing 0).first 0 = some { w := headRec, core := 0, eport := 0 } ∧ headRec.getLsbD 6 = true ∧
    ((wLaunch [] [headRec]).sched 0).openOn 0 0 = none ∧ (((wLaunch [] [dataRec]).sched 0).ing 0).first 0 = some { w := dataRec, core := 0, eport := 0 } ∧
    dataRec.getLsbD 6 = false ∧
    (((wLaunch [{ launch0 0 0 0 0 with running := false }] []).sched 0).next).isSome = true ∧ ((wLaunch [] []).sched 0).en = true ∧ (w0.sched 0).en = false ∧
    ((wLaunch [launch0 0 1 0 0] []).sched 0).runners.length = 1 ∧
    (((wLaunch [launch0 0 1 0 0] []).sched 0).runners.find? fun l => l.img < l.nimg) = some (launch0 0 1 0 0) ∧
    (readWords ((wLaunch [] []).launchRead (launch0 0 1 0 0) true 0x09) ((launch0 0 1 0 0).ilist + 16 * 0) 2).toOption = some [0x100000, 0] ∧
    (wLaunch [] []).targetOk 0 0 = true ∧ (wLaunch [] []).residentFrom 0 0x100000 0 = some 0 ∧
    ((wLaunch [launch0 0 0 (pageVa + 0x200) 0] []).launch? 0 3).map (·.ready) = some true ∧ (launch0 0 0 (pageVa + 0x200) 0).sectAt % 32 = 0 ∧
    (launch0 0 0 (pageVa + 0x200) 0).kind = 0 ∧
    ((wLaunch [] []).core 0).freeEntry = some 0 ∧
    (let s := wLaunch [launch0 0 0 (pageVa + 0x200) 0] []
     match readWords (s.armRead (launch0 0 0 (pageVa + 0x200) 0)) (pageVa + 0x200) 4 with
     | .ok w => (s.armCheck 0 { Section.reset with desc := launchDesc w 0 } (fun _ => false) (fun i => ((s.core 0).stream i).st == .bound) false 0).toOption.isSome
     | .error _ => false) = true ∧
    (launch0 2 0 (pageVa + 0x400) 0).kind = 2 ∧
    ((rootPeer ctxU (pageVa + 0x400)).runOn (wLaunch [launch0 2 0 (pageVa + 0x400) 0] [])).1.toOption = some (some (pageVa + 0x440)) ∧
    (launch0 0 0 0 0).outcome = some 0 ∧ ((wLaunch [launch0 0 0 0 0] []).launch? 0 3) = some (launch0 0 0 0 0) ∧
    ((wLaunch [] []).sched 0).lcbase.toNat / 16 % 2 ^ 48 * 16 = pageHomeAddr + 0x800 ∧ (Sched.reset.lcbase).toNat / 16 % 2 ^ 48 = 0 ∧
    (((wLaunch [] []).sched 0).lcprod + 2 ^ 32 - ((wLaunch [] []).sched 0).lccons.toNat) % 2 ^ 32 ≠ 2 ^ 4 ∧
    ((List.range 16).all fun i => space (pageHomeAddr + 0x800 + i) == .floor) = true ∧
    ((w0.sched 0).ing 0).xen = false ∧ (((wLaunch [] []).sched 0).ing 0).xen = true ∧ (wLaunch [] []).partOf 0 = some 0 ∧
    (wLaunch [] []).exitReady 0 0 = some (0, 0) ∧ (wLaunch [] []).exitPick 0 0 0 0 = some (0, tok 3 0) ∧
    w0.ptp.port = 0 ∧ w0.ptp.domain = 0 ∧ (wTimed true).ptp.measured = true ∧ (wTimed true).ptp.first = true ∧ 0 ≤ (wTimed true).ptp.offset ∧
    ({ wTimed true with ptp := { (wTimed true).ptp with first := false } } : State).ptp.measured = true ∧
    ((wTimed true).sched 0).entry 2 = slot0 ∧ (5 : W64).toNat ≤ (wTimed true).now.toNat ∧ ((wTimed true).sched 0).before 2 5 = false ∧
    ((wTimed true).sched 0).ten = true ∧ slot0.d0.getLsbD 63 = true ∧ (wTimed false).ptp.locked = false ∧ slot0.last = none := by decide +kernel
theorem witness_LaunchEvents_rings :
    w0.hostPath 0 true = false ∧ (wLaunch [] []).hostPath 0 true = true ∧ (wLaunch [] []).hostPath ((wLaunch [] []).partid 0) false = true ∧
    (wLaunch [launch0 2 0 (pageVa + 0x400) 0] []).bagRoom 0 ≠ 0 ∧ (wLaunch [] []).ringOk 0 (pageHomeAddr + 0x800) = true ∧
    ({ Ptp.reset with delay := some 3 } : Ptp).delay = some 3 ∧ (wLaunch [] []).portUp 0 = true ∧ w0.portUp 0 = false := by decide +kernel
/-- A value of CH0.e0: enabled, a receive end of depth 4 at port 2 of core 0. -/
def chanWord : W64 := BitVec.ofNat 64 (2 ^ 63 + 2 ^ 60 + 2 * 2 ^ 56 + 4 * 2 ^ 12)
theorem witness_RegisterWrites :
    (0 : W64).toNat / 2 ^ 52 % 16 ≤ 11 ∧ 11 < (0x00C0000000000000 : W64).toNat / 2 ^ 52 % 16 ∧ (0 : W64).getLsbD 0 = false ∧
    (0 : W64).toNat % 2 ^ 40 < 1000 ∧ 1000 ≤ (1000 : W64).toNat % 2 ^ 40 ∧ (w0.sched 0).ten = false ∧ ((w0.sched 0).entry 0).slot = none ∧
    Sp.find? ((wTimed true).sched 0).timed 2 ≠ none ∧ ((w0.sched 0).ing 0).en = false ∧ 16 ≤ (0x00100000 : W64).toNat / 2 ^ 16 % 2 ^ 16 ∧
    (0x00100000 : W64).getLsbD 32 = false ∧ (0x000F0000 : W64).toNat / 2 ^ 16 % 2 ^ 16 < 16 ∧ (w0.chanEnd 0).st = .closed ∧ chanWord.getLsbD 63 = true ∧
    w0.corePresent (chanWord.extractLsb' 46 10).toNat = true ∧ w0.partOf (chanWord.extractLsb' 46 10).toNat = some 0 ∧
    w0.sideTaken 0 0 2 true = false ∧ (chanWord.extractLsb' 12 7).toNat = 4 ∧ (84 : BitVec 7).toNat < 85 ∧ (w0.core 0).spilled = 0 ∧ (w0.core 0).bagWait = [] ∧
    ({ (w0.core 0) with spillProd := 1 } : Core).spilled ≠ 0 ∧ (8 * 2 ^ 52 : W64).toNat / 2 ^ 52 % 32 = 8 := by decide +kernel

/-! Packets. The number of this device is a free constant, so what follows is shown for every value of it. -/

/-- A packet with the second dword of a header of core 0 has the header's ends. -/
theorem pk_ends (p : Packet) (h : Header) (hf : p.frame = false) (hp : p.hdr[1]? = h.dwords[1]?) (h1 : h.sdev < 1024) (h2 : h.score < 1024)
    (h3 : h.ddev < 1024) (h4 : h.dcore < 1024) (h5 : h.part < 16) (h6 : h.colour < 256) :
    p.from' = (h.sdev, h.score) ∧ p.to' = (h.ddev, h.dcore) ∧ p.part = h.part ∧ p.colour = h.colour := by
  simp only [Packet.from', Packet.to', Packet.sdev, Packet.score, Packet.ddev, Packet.dcore, Packet.part, Packet.colour, Packet.d,
    List.getD_eq_getElem?_getD, hp, hf, Header.dwords, List.getElem?_cons_succ, List.getElem?_cons_zero, Option.getD_some, fld, w64,
    BitVec.toNat_ofNat, Prod.mk.injEq, Bool.false_eq_true, if_false]
  omega
/-- The second dword of a header. -/
def word1 (h : Header) : W64 :=
  w64 (h.sdev * 2 ^ 54 + h.score * 2 ^ 44 + h.ddev * 2 ^ 34 + h.dcore * 2 ^ 24 + h.part * 2 ^ 20 + h.colour * 2 ^ 12)
theorem dwords_one (h : Header) : h.dwords[1]? = some (word1 h) := rfl
theorem sheared_one (p : Packet) (h : Header) (hp : p.hdr = h.dwords) : p.sheared.hdr[1]? = h.dwords[1]? := by
  rw [dwords_one, show p.sheared.hdr[1]? = some (p.hdr.getD 1 0) from rfl, hp, show h.dwords.getD 1 0 = word1 h from rfl]
theorem control_one (type code : Nat) (nack : Bool) (p : Packet) (h : Header) (h1 : h.sdev = p.ddev) (h2 : h.score = p.dcore) (h3 : h.ddev = p.sdev)
    (h4 : h.dcore = p.score) (h5 : h.part = p.part) (h6 : h.colour = p.colour) : (control type nack p code).hdr[1]? = h.dwords[1]? := by
  rw [dwords_one, word1, h1, h2, h3, h4, h5, h6]; rfl
theorem here_lt : here < 1024 := Config.deviceNumber.isLt

/-- A packet from core 0 to a core, about the page. -/
abbrev hd (type seq dcore : Nat) : Header := { type := type, ord := true, seq := seq, len8 := 1, addr := pageHomeAddr, dcore := dcore }
def pk (type seq dcore : Nat) (pay : List Byte) : Packet :=
  { hdr := (hd type seq dcore).dwords, payload := pay, frame := false, hops := 0, again := false }
/-- The same to the next device. -/
def nextDev : Nat := (here + 1) % 1024
theorem nextDev_lt : nextDev < 1024 := Nat.mod_lt _ (Nat.zero_lt_succ _)
theorem nextDev_ne : nextDev ≠ here := by have := here_lt; unfold nextDev; omega
abbrev farHd : Header := { type := 1, ord := true, len8 := 1, addr := pageHomeAddr, ddev := nextDev }
def far : Packet := { hdr := farHd.dwords, payload := [], frame := false, hops := 0, again := false }
/-- An acknowledgement of the type 2 packet. -/
def ackOf : Packet := control 5 false (pk 2 0 0 [1])
theorem pk_to (type seq dcore : Nat) (pay : List Byte) (h : dcore < 1024) :
    (pk type seq dcore pay).from' = (here, 0) ∧ (pk type seq dcore pay).to' = (here, dcore) ∧ (pk type seq dcore pay).part = 0 :=
  have q := pk_ends (pk type seq dcore pay) (hd type seq dcore) rfl rfl here_lt (Nat.zero_lt_succ _) here_lt h (Nat.zero_lt_succ _) (Nat.zero_lt_succ _)
  ⟨q.1, q.2.1, q.2.2.1⟩

/-- The network with packets on their way and delivered, one kept by core 0, and holes; partition 0 may cross bridge 0 and port 0 only, and
takes class 0. -/
def wPkt (flight due : List Packet) (r : ReReq) (at_ : Nat) : State :=
  let c := core0 0 []
  { pkg { c with ring := { Ring.reset with cfg := 0x900001FFFF000000 } } with
      cycle := 2 ^ 20 + at_, lperm := [(0, 0x1001)], netp := [(0, { NetPage.reset with rcls := [(0, 2 ^ 63)] })], links := [(0, .auth)],
      net := { Net.reset with flight := flight, due := due, rereqs := [r], sent := [(0, flight.map fun p => { pkt := p, who := .core 0, time := 0, times := 1 })],
                              reads := [{ who := .core 0, home := pageHomeAddr, len := 8, tag := 0, time := 0 }] } }
def hole0 : ReReq := { core := 0, hdr := (hd 2 0 0).dwords, asked := false }
def wOne (p : Packet) : State := wPkt [p] [p] hole0 0
/-- The first packet on its way stands before none of its lane: the order that the statements about packet 0 ask for. -/
theorem inOrder_first (s : State) (p : Packet) : s.inOrder 0 p = true := by simp [State.inOrder]
/-- A packet to core 0 of this package arrives; one to core 256 crosses bridge 0. -/
theorem arrives_of {s : State} {p : Packet} (h1 : p.from' = (here, 0)) (h2 : p.to' = (here, 0)) : s.arrived p = true := by
  simp [State.arrived, State.route, h1, h2, State.legs]
theorem arrives (s : State) (type seq : Nat) (pay : List Byte) : s.arrived (pk type seq 0 pay) = true :=
  have q := pk_to type seq 0 pay (by decide)
  arrives_of q.1 q.2.1
theorem crosses_of {s : State} {p : Packet} (h1 : p.from' = (here, 0)) (h2 : p.to' = (here, 256)) (h3 : (p.type == 0) = false) (h4 : s.lacks = Lacks.none) :
    s.route p = some [.bridge 0 false] := by
  simp only [State.route, h1, h2, h3, bne_self_eq_false, Bool.false_eq_true, if_false, Bool.and_false, Bool.false_and, State.legs, State.bridged,
    State.bridgePresent, h4]
  decide
theorem leaves_of {s : State} {p : Packet} {d : Nat} (h1 : p.from' = (here, 0)) (h2 : p.to' = (d, 0)) (h3 : d ≠ here) (h4 : s.exitPorts p = [0]) :
    s.route p = some [.port 0] := by
  have h : (d != here) = true := by simpa using h3
  simp only [State.route, h1, h2, h, if_true, h4]
  decide
theorem ports_of {s : State} {p : Packet} (hf : p.frame = false) (h1 : (p.type == 0) = false) (h2 : p.part = 0) (h3 : s.lacks = Lacks.none)
    (h4 : s.lpermOf 0 = 0x1001) (h5 : s.refused = false) : s.exitPorts p = [0] := by
  simp only [State.exitPorts, State.partOfPacket, hf, h2, State.portPresent, h1, h3, h4, h5, Bool.not_false, Bool.and_false, Bool.false_eq_true, if_false]
  decide
theorem placed_of {s : State} {p : Packet} {e : Sent} (h0 : p.score = 0) (h1 : p.type ≠ 3) (h2 : s.sentBy 0 = [e]) (h3 : e.pkt = p) :
    s.placed p = true := by
  simp [State.placed, Sent.farFrom, h0, h1, h2, h3]
theorem score_pk (type seq dcore : Nat) (pay : List Byte) (h : dcore < 1024) : (pk type seq dcore pay).score = 0 := by
  have q := (pk_to type seq dcore pay h).1
  exact congrArg Prod.snd (show ((pk type seq dcore pay).sdev, (pk type seq dcore pay).score) = (here, 0) from q)
theorem far_ends : far.from' = (here, 0) ∧ far.to' = (nextDev, 0) ∧ far.part = 0 :=
  have q := pk_ends far farHd rfl rfl here_lt (Nat.zero_lt_succ _) nextDev_lt (Nat.zero_lt_succ _) (Nat.zero_lt_succ _) (Nat.zero_lt_succ _)
  ⟨q.1, q.2.1, q.2.2.1⟩
theorem far_type : (far.type == 0) = false := by decide +kernel
theorem far_lacks : (wOne far).lacks = Lacks.none := rfl
theorem far_perm : (wOne far).lpermOf 0 = 0x1001 := by decide
theorem far_leaves : (wOne far).route far = some [.port 0] :=
  leaves_of far_ends.1 far_ends.2.1 nextDev_ne (ports_of rfl far_type far_ends.2.2 far_lacks far_perm rfl)

theorem part_of {s : State} {p : Packet} (hf : p.frame = false) : s.partOfPacket p = p.part := by simp [State.partOfPacket, hf]
theorem one_ends : (pk 1 0 256 []).from' = (here, 0) ∧ (pk 1 0 256 []).to' = (here, 256) ∧ (pk 1 0 256 []).part = 0 := pk_to 1 0 256 [] (by decide)
theorem two_ends : (pk 2 0 256 [1]).from' = (here, 0) ∧ (pk 2 0 256 [1]).to' = (here, 256) ∧ (pk 2 0 256 [1]).part = 0 := pk_to 2 0 256 [1] (by decide)
theorem two_score : (pk 2 0 256 [1]).score = 0 := score_pk 2 0 256 [1] (by decide)
theorem from_of {p : Packet} {a b : Nat} (hf : p.frame = false) (h : p.from' = (a, b)) : p.sdev = a ∧ p.score = b := by
  simpa [Packet.from', hf] using h
theorem to_of {p : Packet} {a b : Nat} (hf : p.frame = false) (h : p.to' = (a, b)) : p.ddev = a ∧ p.dcore = b := by
  simpa [Packet.to', hf] using h
/-- A frame from core `pcore` to channel 0 of core `dcore`. -/
def fr (kind ntok count pcore dcore : Nat) (pay : List Byte) : Packet :=
  { hdr := [BitVec.ofNat 64 (kind * 2 ^ 60 + ntok * 2 ^ 50 + here * 2 ^ 40 + pcore * 2 ^ 30 + here * 2 ^ 20 + dcore * 2 ^ 10), BitVec.ofNat 64 (count * 2 ^ 48)],
    payload := pay, frame := true, hops := 0, again := false }
/-- The frames that the witnesses use. -/
abbrev Frames (kind ntok pcore dcore : Nat) : Prop := kind < 4 ∧ ntok < 2 ∧ pcore < 2 ∧ dcore < 1024
theorem frameWord {kind ntok pcore dcore : Nat} (a b : Nat) (ha : a < 1024) (hb : b < 1024) (h : Frames kind ntok pcore dcore) :
    let n := (kind * 2 ^ 60 + ntok * 2 ^ 50 + a * 2 ^ 40 + pcore * 2 ^ 30 + b * 2 ^ 20 + dcore * 2 ^ 10) % 2 ^ 64
    n / 2 ^ 60 % 2 ^ (63 - 60 + 1) = kind ∧ n / 2 ^ 54 % 2 ^ (59 - 54 + 1) = 0 ∧ n / 2 ^ 50 % 2 ^ (53 - 50 + 1) = ntok ∧ n / 2 ^ 40 % 2 ^ (49 - 40 + 1) = a ∧
    n / 2 ^ 30 % 2 ^ (39 - 30 + 1) = pcore ∧ n / 2 ^ 20 % 2 ^ (29 - 20 + 1) = b ∧ n / 2 ^ 10 % 2 ^ (19 - 10 + 1) = dcore := by
  unfold Frames at h
  intro n
  refine ⟨?_, ?_, ?_, ?_, ?_, ?_, ?_⟩ <;> omega
theorem fr_ends (kind ntok count pcore dcore : Nat) (pay : List Byte) (h : Frames kind ntok pcore dcore) :
    let p := fr kind ntok count pcore dcore pay
    p.fKind = kind ∧ p.fChan = 0 ∧ p.fNtok = ntok ∧ p.fSdev = here ∧ p.fScore = pcore ∧ p.fDdev = here ∧ p.fDcore = dcore := by
  have q := frameWord here here here_lt here_lt h
  simpa only [Packet.fKind, Packet.fChan, Packet.fNtok, Packet.fSdev, Packet.fScore, Packet.fDdev, Packet.fDcore, Packet.d, fr,
    List.getD_cons_zero, fld, BitVec.toNat_ofNat] using q
/-- A frame of channel 1 of core 0 to one of core 256, whose partition may not cross bridge 0. -/
def crossing : Packet := fr 2 0 4 0 256 []
def wCross : State :=
  { wPkt [crossing] [] hole0 0 with
    lperm := [], channels := [(0, { ChanEnd.reset with en := true, pcore := 256 })] }
theorem crossing_ends : crossing.fKind = 2 ∧ crossing.fChan = 0 ∧ crossing.fNtok = 0 ∧ crossing.fSdev = here ∧ crossing.fScore = 0 ∧ crossing.fDdev = here ∧ crossing.fDcore = 256 :=
  fr_ends 2 0 4 0 256 [] (by decide)
theorem crossing_type : (crossing.type == 0) = false := by
  have h : crossing.type = crossing.fKind := rfl
  rw [h, crossing_ends.1]; decide
theorem witness_PacketForward_frame :
    wCross.placed crossing = true ∧ wCross.inOrder 0 crossing = true ∧ wCross.route crossing = some [.bridge 0 false] ∧ crossing.frame = true ∧
    crossing.fSdev = Machine.here ∧ wCross.lpermOf (wCross.partOfPacket crossing) = 0 ∧
    (wCross.dropFlight 0).endOfFrame crossing = some (0, { ChanEnd.reset with en := true, pcore := 256 }) := by
  have q := crossing_ends
  refine ⟨by simp [State.placed, show crossing.frame = true from rfl], inOrder_first _ _,
    crosses_of (by simp [Packet.from', show crossing.frame = true from rfl, q.2.2.2.1, q.2.2.2.2.1])
      (by simp [Packet.to', show crossing.frame = true from rfl, q.2.2.2.2.2.1, q.2.2.2.2.2.2]) crossing_type rfl, rfl, q.2.2.2.1, ?_, ?_⟩
  · simp only [State.partOfPacket, show crossing.frame = true from rfl, q.2.2.2.1, beq_self_eq_true, if_true, q.2.2.2.2.1]; decide +kernel
  · simp only [State.endOfFrame, q.2.2.2.2.1, q.2.2.2.2.2.2, q.2.1]; rfl
/-- A packet of class 0 to the next device, which the class's record sends out by port 0. -/
abbrev clsHd : Header := { type := 0, len8 := 1, ddev := nextDev }
def clsPk : Packet := { hdr := clsHd.dwords, payload := [], frame := false, hops := 0, again := false }
theorem cls_ends : clsPk.from' = (here, 0) ∧ clsPk.to' = (nextDev, 0) ∧ clsPk.part = 0 :=
  have q := pk_ends clsPk clsHd rfl rfl here_lt (Nat.zero_lt_succ _) nextDev_lt (Nat.zero_lt_succ _) (Nat.zero_lt_succ _) (Nat.zero_lt_succ _)
  ⟨q.1, q.2.1, q.2.2.1⟩
/-- Class 0 leaves by port 0, but the partition's permits do not name the port. -/
def wCls : State := { wOne clsPk with lperm := [], netp := [(0, { NetPage.reset with rcls := [(0, 2 ^ 63 + 1)] })] }
theorem cls_leaves : wCls.route clsPk = some [.port 0] := by
  refine leaves_of cls_ends.1 cls_ends.2.1 nextDev_ne ?_
  simp only [State.exitPorts, part_of (s := wCls) (p := clsPk) rfl, cls_ends.2.2, State.portPresent]
  decide +kernel
theorem far_score : far.score = 0 := (from_of rfl far_ends.1).2
theorem one_score : (pk 1 0 256 []).score = 0 := score_pk 1 0 256 [] (by decide)
theorem witness_PacketForward :
    (wOne (pk 1 0 256 [])).net.flight[0]? = some (pk 1 0 256 []) ∧ (wOne (pk 1 0 256 [])).placed (pk 1 0 256 []) = true ∧
    (wOne (pk 1 0 256 [])).route (pk 1 0 256 []) = some [.bridge 0 false] ∧ (wOne (pk 1 0 256 [])).lpermOf ((wOne (pk 1 0 256 [])).partOfPacket (pk 1 0 256 [])) = 0x1001 ∧
    (wOne (pk 2 0 256 [1])).placed (pk 2 0 256 [1]) = true ∧ (wOne (pk 2 0 256 [1])).route (pk 2 0 256 [1]) = some [.bridge 0 false] ∧
    ({ wOne (pk 2 0 256 [1]) with lperm := [] } : State).lpermOf 0 = 0 ∧ (pk 2 0 256 [1]).type = 2 ∧ (pk 2 0 256 [1]).shear = false ∧
    (wOne far).placed far = true ∧ (wOne far).route far = some [.port 0] ∧ (wOne far).link 0 = .auth ∧ w0.link 0 = .untrained ∧
    (0x1001 : W64).getLsbD 12 = true ∧ (wOne far).domain 0 0 = Domain.reset ∧ Domain.reset.key0 = none ∧
    ({ wOne far with domains := [(0, { Domain.reset with key0 := some 1 })] } : State).domain 0 0 = { Domain.reset with key0 := some 1 } ∧
    wCls.route clsPk = some [.port 0] ∧ wCls.lpermOf 0 = 0 ∧ wCls.link 0 = .auth ∧ clsPk.type = 0 := by
  refine ⟨rfl, placed_of one_score (by decide +kernel) rfl rfl, crosses_of one_ends.1 one_ends.2.1 (by decide +kernel) rfl, ?_,
    placed_of two_score (by decide +kernel) rfl rfl,
    crosses_of two_ends.1 two_ends.2.1 (by decide +kernel) rfl, by decide +kernel, by decide +kernel, by decide +kernel,
    placed_of far_score (by decide +kernel) rfl rfl, far_leaves, by decide +kernel, by decide +kernel, by decide +kernel, by decide +kernel, rfl,
    by decide +kernel, cls_leaves, by decide +kernel, by decide +kernel, by decide +kernel⟩
  rw [part_of rfl, one_ends.2.2]; decide +kernel
theorem ends0 (type seq : Nat) (pay : List Byte) : (pk type seq 0 pay).part = 0 ∧ (pk type seq 0 pay).dcore = 0 ∧ (pk type seq 0 pay).score = 0 ∧
    (pk type seq 0 pay).sdev = here ∧ (pk type seq 0 pay).ddev = here ∧ (pk type seq 0 pay).colour = 0 :=
  have q := pk_ends (pk type seq 0 pay) (hd type seq 0) rfl rfl here_lt (Nat.zero_lt_succ _) here_lt (Nat.zero_lt_succ _) (Nat.zero_lt_succ _) (Nat.zero_lt_succ _)
  ⟨q.2.2.1, congrArg Prod.snd (show ((pk type seq 0 pay).ddev, (pk type seq 0 pay).dcore) = (here, 0) from q.2.1),
    congrArg Prod.snd (show ((pk type seq 0 pay).sdev, (pk type seq 0 pay).score) = (here, 0) from q.1),
    congrArg Prod.fst (show ((pk type seq 0 pay).sdev, (pk type seq 0 pay).score) = (here, 0) from q.1),
    congrArg Prod.fst (show ((pk type seq 0 pay).ddev, (pk type seq 0 pay).dcore) = (here, 0) from q.2.1), q.2.2.2⟩
theorem cut_ends : (pk 2 0 0 [1]).sheared.from' = (here, 0) ∧ (pk 2 0 0 [1]).sheared.to' = (here, 0) :=
  have q := pk_ends (pk 2 0 0 [1]).sheared (hd 2 0 0) rfl (sheared_one _ _ rfl) here_lt (Nat.zero_lt_succ _) here_lt (Nat.zero_lt_succ _) (Nat.zero_lt_succ _) (Nat.zero_lt_succ _)
  ⟨q.1, q.2.1⟩
theorem cut_arrives (s : State) : s.arrived (pk 2 0 0 [1]).sheared = true := arrives_of cut_ends.1 cut_ends.2
/-- The package takes packets of class 0 at core 0; nothing delivered yet. -/
def wIn (p : Packet) : State := wPkt [p] [] hole0 0
theorem witness_PacketArrival :
    (wIn (pk 2 64 0 [1])).net.flight[0]? = some (pk 2 64 0 [1]) ∧ (pk 2 64 0 [1]).frame = false ∧ (wIn (pk 2 64 0 [1])).arrived (pk 2 64 0 [1]) = true ∧
    (wIn (pk 2 64 0 [1])).inOrder 0 (pk 2 64 0 [1]) = true ∧ (wIn (pk 2 64 0 [1])).placed (pk 2 64 0 [1]) = true ∧ (pk 2 64 0 [1]).shear = false ∧
    (pk 2 64 0 [1]).type = 2 ∧ ((wIn (pk 2 64 0 [1])).window (pk 2 64 0 [1])).seen (pk 2 64 0 [1]).seq = true ∧
    (∃ q ∈ (wOne (pk 2 64 0 [1])).net.due, q.stream = (pk 2 64 0 [1]).stream ∧ q.seq = (pk 2 64 0 [1]).seq) ∧ (wIn (pk 2 64 0 [1])).net.due = [] ∧
    (wIn (pk 2 1 0 [1])).placed (pk 2 1 0 [1]) = true ∧ ((wIn (pk 2 1 0 [1])).window (pk 2 1 0 [1])).seen (pk 2 1 0 [1]).seq = false ∧
    (wIn (pk 2 1 0 [1])).classRefused (pk 2 1 0 [1]) = false ∧ (wIn (pk 2 1 0 [1])).classSheared (pk 2 1 0 [1]) = false ∧
    (wIn (pk 2 1 0 [1])).ordered (pk 2 1 0 [1]) = true ∧ ((wIn (pk 2 1 0 [1])).window (pk 2 1 0 [1])).dist (pk 2 1 0 [1]).seq = 1 ∧
    ((wIn (pk 2 1 0 [1])).window (pk 2 1 0 [1])).held = [] ∧
    (wIn (pk 2 0 0 [1])).placed (pk 2 0 0 [1]) = true ∧ (pk 2 0 0 [1]).seq = ((wIn (pk 2 0 0 [1])).window (pk 2 0 0 [1])).oldest ∧
    ((wIn (pk 2 0 0 [1])).window (pk 2 0 0 [1])).got = [] := by
  refine ⟨rfl, rfl, arrives _ _ _ _, inOrder_first _ _, placed_of (ends0 2 64 [1]).2.2.1 (by decide +kernel) rfl rfl, ?_, ?_, ?_, ⟨_, List.mem_singleton_self _, rfl, rfl⟩,
    rfl, placed_of (ends0 2 1 [1]).2.2.1 (by decide +kernel) rfl rfl, ?_, ?_, ?_, ?_, ?_, ?_, placed_of (ends0 2 0 [1]).2.2.1 (by decide +kernel) rfl rfl, ?_, ?_⟩
    <;> decide +kernel
/-- A packet of class 0, where the class is taken and there is room; where the ring is off; where the class is off. -/
theorem witness_ClassArrival :
    (wIn (pk 0 0 0 [1])).placed (pk 0 0 0 [1]) = true ∧ (pk 0 0 0 [1]).type = 0 ∧ (pk 0 0 0 [1]).seq = 0 ∧
    (wIn (pk 0 0 0 [1])).corePresent (pk 0 0 0 [1]).dcore = true ∧
    (wIn (pk 0 0 0 [1])).partOf (pk 0 0 0 [1]).dcore = some (pk 0 0 0 [1]).part ∧
    ((wIn (pk 0 0 0 [1])).rcls (pk 0 0 0 [1]).part (pk 0 0 0 [1]).cls).getLsbD 63 = true ∧
    ((wIn (pk 0 0 0 [1])).core (pk 0 0 0 [1]).dcore).mask = 0 ∧ ((wIn (pk 0 0 0 [1])).core (pk 0 0 0 [1]).dcore).ring.cfg.getLsbD 63 = true ∧
    ((wIn (pk 0 0 0 [1])).core (pk 0 0 0 [1]).dcore).ring.count + (wIn (pk 0 0 0 [1])).ringDue (pk 0 0 0 [1]).dcore < 2 ^ 2 ∧
    ((w0.core (pk 0 0 0 [1]).dcore).ring.cfg.getLsbD 63 = false) ∧ (w0.rcls (pk 0 0 0 [1]).part (pk 0 0 0 [1]).cls).getLsbD 63 = false := by
  refine ⟨placed_of (ends0 0 0 [1]).2.2.1 (by decide +kernel) rfl rfl, by decide +kernel, by decide +kernel, ?_⟩
  rw [(ends0 0 0 [1]).1, (ends0 0 0 [1]).2.1]; decide +kernel
theorem witness_ShearedHeader :
    (wIn (pk 2 0 0 [1]).sheared).net.flight[0]? = some (pk 2 0 0 [1]).sheared ∧ (pk 2 0 0 [1]).sheared.frame = false ∧
    (wIn (pk 2 0 0 [1]).sheared).arrived (pk 2 0 0 [1]).sheared = true ∧ (pk 2 0 0 [1]).sheared.shear = true ∧
    ((wIn (pk 2 0 0 [1]).sheared).window (pk 2 0 0 [1]).sheared).seen (pk 2 0 0 [1]).sheared.seq = false ∧
    ((wIn (pk 2 0 0 [1]).sheared).window (pk 2 0 0 [1]).sheared).held = [] ∧
    ((wIn (pk 2 0 0 [1]).sheared).window (pk 2 0 0 [1]).sheared).seen 64 = true := by
  refine ⟨rfl, rfl, cut_arrives _, ?_, ?_, ?_, ?_⟩ <;> decide +kernel
/-- The oldest hole of core 0; its pace is free, or a re-request has just left. -/
def paceOf : Nat := ((0 * 2 + (if (pk 2 0 0 []).kind = 2 then 1 else 0)) * 1024 + (pk 2 0 0 []).sdev) * 1024 + (pk 2 0 0 []).score
def wPaced : State := let s := wIn (pk 2 0 0 []); { s with net := { s.net with paced := [(paceOf, s.cycle)] } }
theorem witness_ReRequest :
    (wIn (pk 2 0 0 [])).net.rereqs = [{ core := 0, hdr := (pk 2 0 0 []).hdr, asked := false }] ∧ (pk 2 0 0 []).type = 2 ∧
    (wIn (pk 2 0 0 [])).net.paced = [] ∧
    Sp.find? wPaced.net.paced paceOf = some wPaced.cycle ∧ wPaced.cycle - wPaced.cycle < (wPaced.netOf (pk 2 0 0 []).part).lull := by
  refine ⟨rfl, by decide +kernel, rfl, ?_, ?_⟩
  · simp [wPaced, Sp.find?]
  · rw [(ends0 2 0 []).1]; decide +kernel
def kept : Sent := { pkt := pk 2 0 0 [1], who := .core 0, time := 0, times := 1 }
/-- A packet that has been sent so often. -/
def wKept (n : Nat) : State := let s := wIn (pk 2 0 0 [1]); { s with net := { s.net with sent := [(0, [{ kept with times := n }])] } }
theorem witness_Timeout :
    ((wIn (pk 2 0 0 [1])).net.sent.flatMap fun q => q.2.map fun e => (q.1, e))[0]? = some (0, { pkt := pk 2 0 0 [1], who := .core 0, time := 0, times := 1 }) ∧
    (wIn (pk 2 0 0 [1])).sentBy 0 = [{ pkt := pk 2 0 0 [1], who := .core 0, time := 0, times := 1 }] ∧ 2 ^ 20 ≤ (wIn (pk 2 0 0 [1])).cycle - 0 ∧
    ({ wIn (pk 2 0 0 [1]) with cycle := 0 } : State).cycle - 0 < 2 ^ 20 ∧ kept.times = 1 ∧ ({ kept with times := 0 } : Sent).times = 0 ∧
    ((wKept 16).net.sent.flatMap fun q => q.2.map fun e => (q.1, e))[0]? = some (0, { kept with times := 16 }) ∧ 2 ^ 20 ≤ (wKept 16).cycle - 0 :=
  ⟨rfl, rfl, by decide +kernel, by decide +kernel, rfl, rfl, rfl, by decide +kernel⟩
abbrev ackHd : Header :=
  { type := 5, nack := false, seq := (pk 2 0 0 [1]).seq, tag := (pk 2 0 0 [1]).agent * 64 + (pk 2 0 0 [1]).kind * 16 + (pk 2 0 0 [1]).cls,
    sdev := (pk 2 0 0 [1]).ddev, score := (pk 2 0 0 [1]).dcore, ddev := (pk 2 0 0 [1]).sdev, dcore := (pk 2 0 0 [1]).score,
    part := (pk 2 0 0 [1]).part, colour := (pk 2 0 0 [1]).colour, addr := 0 }
theorem ackOf_ends : ackOf.from' = (here, 0) ∧ ackOf.to' = (here, 0) := by
  have e := ends0 2 0 [1]
  have q := pk_ends ackOf ackHd rfl (control_one _ _ _ _ _ rfl rfl rfl rfl rfl rfl) (by rw [show ackHd.sdev = here from e.2.2.2.2.1]; exact here_lt) (by rw [show ackHd.score = 0 from e.2.1]; exact Nat.zero_lt_succ _)
    (by rw [show ackHd.ddev = here from e.2.2.2.1]; exact here_lt) (by rw [show ackHd.dcore = 0 from e.2.2.1]; exact Nat.zero_lt_succ _)
    (by rw [show ackHd.part = 0 from e.1]; exact Nat.zero_lt_succ _) (by rw [show ackHd.colour = 0 from e.2.2.2.2.2]; exact Nat.zero_lt_succ _)
  exact ⟨q.1.trans (Prod.ext e.2.2.2.2.1 e.2.1), q.2.1.trans (Prod.ext e.2.2.2.1 e.2.2.1)⟩
/-- An acknowledgement of the packet that core 0 keeps. -/
def wAck : State := let s := wIn ackOf; { s with net := { s.net with sent := [(0, [kept])] } }
theorem named_of {c p : Packet} {x : Sent} (hp : x.pkt = p) (ha : p.kind = c.tag / 16 % 4) (hg : p.agent = c.tag / 64) (hq : p.seq = c.seq)
    (hc : p.cls = c.tag % 16) (hd : p.ddev = c.sdev) (hk : c.tag / 16 % 4 = 1) : c.named.2 x = true := by
  simp [Packet.named, hp, ha, hg, hq, hc, hd, hk]
/-- The nack of a read, which no buffer keeps. -/
def nackOf : Packet := control 5 true (pk 1 0 0 [])
theorem witness_Acknowledgement :
    wAck.net.flight[0]? = some ackOf ∧ ackOf.frame = false ∧ wAck.arrived ackOf = true ∧ ackOf.type = 5 ∧
    (wAck.sentBy ackOf.named.1).find? ackOf.named.2 = some kept ∧ ackOf.nack = false ∧
    ((wPkt [] [] hole0 0).sentBy ackOf.named.1).find? ackOf.named.2 = none ∧ nackOf.type = 5 ∧ nackOf.nack = true ∧ nackOf.tag / 16 % 4 = 3 := by
  have e := ends0 2 0 [1]
  have hs : ackOf.sdev = here := (from_of rfl ackOf_ends.1).1
  have hd : ackOf.dcore = 0 := (to_of rfl ackOf_ends.2).2
  have k : ackOf.tag / 16 % 4 = 1 := by decide +kernel
  have n1 : ackOf.named.1 = 0 := by simp only [Packet.named, k, hd]; decide
  have n2 : ackOf.named.2 kept = true := named_of rfl (by decide +kernel) (by decide +kernel) (by decide +kernel) (by decide +kernel) (e.2.2.2.2.1.trans hs.symm) k
  refine ⟨rfl, rfl, arrives_of ackOf_ends.1 ackOf_ends.2, by decide +kernel, ?_, by decide +kernel, ?_, by decide +kernel, by decide +kernel, by decide +kernel⟩
  · rw [n1, show wAck.sentBy 0 = [kept] from rfl]
    simp [n2]
  · rw [n1, show (wPkt [] [] hole0 0).sentBy 0 = [] from rfl]; rfl
theorem remoteKey_of {s : State} {p : Packet} {a b n : Nat} {wr : Bool} (h1 : p.part = 0) (h2 : p.colour = 0) (h3 : p.addr = a)
    (hb : a + n - 1 = b) (h4 : s.bound 0 0 = true) (h5 : s.memFault 0 0 a 0 = none) (h5' : s.memFault 0 0 b 0 = none)
    (h6 : s.sealed = []) (h7 : space a = .floor) (h8 : space b = .floor) : s.remoteKey p n wr = .ok 0 := by
  simp [State.remoteKey, h1, h2, h3, hb, h4, h5, h5', State.sealedFrame, h6, h7, h8]
theorem barred_of {s : State} {p : Packet} {n : Nat} {wr : Bool} (h : s.bound p.part p.colour = false) : s.remoteKey p n wr = .error 0x1B := by
  simp [State.remoteKey, h]
def wDue (p : Packet) : State := wPkt [] [p] hole0 0
theorem witness_Deliveries :
    (wDue (pk 1 0 0 [])).dueNow 0 = some (pk 1 0 0 []) ∧ (pk 1 0 0 []).type = 1 ∧ (wDue (pk 1 0 0 [])).remoteKey (pk 1 0 0 []) (8 * (pk 1 0 0 []).len8) false = .ok 0 ∧
    ({ wDue (pk 1 0 0 []) with colours := [] } : State).remoteKey (pk 1 0 0 []) 8 false = .error 0x1B ∧ (wDue (pk 1 0 0 [])).net.seqs = [] ∧
    (wDue (pk 2 0 0 [1])).dueNow 0 = some (pk 2 0 0 [1]) ∧ (pk 2 0 0 [1]).type = 2 ∧ (wDue (pk 2 0 0 [1])).remoteKey (pk 2 0 0 [1]) (max 1 1) true = .ok 0 ∧
    ({ wDue (pk 2 0 0 [1]) with colours := [] } : State).remoteKey (pk 2 0 0 [1]) 1 true = .error 0x1B ∧ (pk 2 0 0 [1]).poison = false ∧
    space ((pk 2 0 0 [1]).addr + 0) = .floor ∧
    (pk 3 0 0 []).type = 3 ∧
    ((wDue (pk 3 0 0 [])).net.reads.find? (fun r => r.tag == (pk 3 0 0 []).tag && r.who.sender == (pk 3 0 0 []).dcore)).map (·.who) = some (.core 0) ∧
    (wDue (pk 3 0 0 [])).dueNow 0 = some (pk 3 0 0 []) ∧
    (wDue (pk 0 0 0 [7])).dueNow 0 = some (pk 0 0 0 [7]) ∧ (pk 0 0 0 [7]).type = 0 ∧ ringOk ((wDue (pk 0 0 0 [7])).core 0).ring.cfg = true ∧
    (pk 0 0 0 [7]).dcore = 0 ∧ (pk 0 0 0 [7]).hdr.length = 4 ∧ (pk 0 0 0 [7]).poison = false := by
  refine ⟨rfl, by decide +kernel, ?_, barred_of ?_, rfl, rfl, by decide +kernel, ?_, barred_of ?_, by decide +kernel, by decide +kernel, by decide +kernel,
    by rw [(ends0 3 0 []).2.1]; decide +kernel, rfl, rfl, by decide +kernel, by decide +kernel, (ends0 0 0 [7]).2.1, rfl, by decide +kernel⟩
  · exact remoteKey_of (a := pageHomeAddr) (b := pageHomeAddr + 7) (ends0 1 0 []).1 (ends0 1 0 []).2.2.2.2.2 (by decide +kernel) (by decide +kernel) (by decide +kernel)
      (by decide +kernel) (by decide +kernel) rfl (by decide +kernel) (by decide +kernel)
  · rw [(ends0 1 0 []).1, (ends0 1 0 []).2.2.2.2.2]; decide +kernel
  · exact remoteKey_of (a := pageHomeAddr) (b := pageHomeAddr + 0) (ends0 2 0 [1]).1 (ends0 2 0 [1]).2.2.2.2.2 (by decide +kernel) (by decide +kernel) (by decide +kernel)
      (by decide +kernel) (by decide +kernel) rfl (by decide +kernel) (by decide +kernel)
  · rw [(ends0 2 0 [1]).1, (ends0 2 0 [1]).2.2.2.2.2]; decide +kernel

/-! Channels: channel 0 ends at port 0 of core 0 as given, its peer is channel 1 of the same core; region 0 uses both sides of the port. -/

def chEnd (st : EndState) (recv : Bool) : ChanEnd :=
  { ChanEnd.reset with en := true, st := st, recv := recv, pchan := 1, depth := 4, region := some (0, 0), window := 4 }
theorem arrives_fr {s : State} {p : Packet} {c : Nat} (hc : c < 256) (h1 : p.from' = (here, c)) (h2 : p.to' = (here, 0)) : s.arrived p = true := by
  have e : c / 256 = 0 := by omega
  simp [State.arrived, State.route, h1, h2, State.legs, e]
theorem frameAt_of {s : State} {p : Packet} {kind c : Nat} (hc : c < 256) (h : s.net.flight[0]? = some p) (hf : p.frame = true)
    (h1 : p.fKind = kind) (h2 : p.fChan = 0) (h3 : p.fSdev = here) (h4 : p.fScore = c) (h5 : p.fDdev = here) (h6 : p.fDcore = 0) (hp : s.partid 0 = 0) :
    s.frameAt 0 kind = some (p, 0) := by
  have a : s.arrived p = true := arrives_fr hc (by simp [Packet.from', hf, h3, h4]) (by simp [Packet.to', hf, h5, h6])
  simp [State.frameAt, h, hf, h1, h2, a, inOrder_first, h6, hp]
/-- Region 0 resident, channel 0 as given, frames on their way, a token in the exit buffer. -/
def wEnds (e : ChanEnd) (l : List Packet) : State :=
  { grid .resident (slotOf 0x10 ecfg []) [] with channels := [(0, e), (1, chEnd .opened true)], net := { Net.reset with flight := l },
                                                   exitq := [(0, [tok 3 0])] }
def wChan (e : ChanEnd) (p : Packet) : State := wEnds e [p]
/-- The frame is off the links. -/
theorem wChan_drop (e : ChanEnd) (p : Packet) : (wChan e p).dropFlight 0 = wEnds e [] := rfl
theorem frame0 (e : ChanEnd) (kind ntok count pcore : Nat) (pay : List Byte) (h : Frames kind ntok pcore 0) :
    (wChan e (fr kind ntok count pcore 0 pay)).frameAt 0 kind = some (fr kind ntok count pcore 0 pay, 0) := by
  have q := fr_ends kind ntok count pcore 0 pay h
  exact frameAt_of (show pcore < 256 by unfold Frames at h; omega) rfl rfl q.1 q.2.1 q.2.2.2.1 q.2.2.2.2.1 q.2.2.2.2.2.1 q.2.2.2.2.2.2
    (show w0.partid 0 = 0 by decide +kernel)
theorem peer0 (e : ChanEnd) (kind ntok count pcore : Nat) (pay : List Byte) (h : Frames kind ntok pcore 0) (h1 : e.remote = false) (h2 : e.core = 0)
    (h3 : e.pcore = 0) : e.peerOf (fr kind ntok count pcore 0 pay) = (pcore == 0) := by
  have q := fr_ends kind ntok count pcore 0 pay h
  simp [ChanEnd.peerOf, q.2.2.2.1, q.2.2.2.2.1, q.2.2.2.2.2.2, h1, h2, h3]

/-- A token of colour 0 in a frame. -/
def tokPay : List Byte := leBytes 16 (tokenBits (tok 9 0))
/-- A send end that is OPEN, whose peer has a quota for colour 0, with tokens of the colour sent and not yet admitted. -/
def sender (sent : List Token) : ChanEnd := { chEnd .opened false with colours := 1, spent := if sent = [] then [] else [(0, sent)] }
def endAt (e : ChanEnd) : ChanEnd := ((wEnds e []).follow 0).chanEnd 0
theorem witness_ChannelEvents :
    endAt (chEnd .wait true) = chEnd .wait true ∧ (chEnd .wait true).readied = false ∧
    (endAt { chEnd .wait true with readied := true }).readied = true ∧ 2 ^ 16 ≤ ({ wEnds (chEnd .wait true) [] with cycle := 2 ^ 16 } : State).cycle - 0 ∧
    (wEnds (chEnd .wait true) []).cycle - 0 < 2 ^ 16 ∧
    ((w0.follow 0).chanEnd 0).st = .closed ∧
    (let u := (wEnds (sender []) []).follow 0
     u.chanEnd 0 = sender [] ∧ u.exitPick 0 0 0 0 = some (0, tok 3 0) ∧ (sender []).colours.getLsbD 0 = true ∧ (Sp.get [] (sender []).spent 0).length < (sender []).window) ∧
    endAt (chEnd .opened false) = chEnd .opened false ∧ (chEnd .opened false).colours.getLsbD 0 = false ∧
    endAt (sender [tok 1 0, tok 1 0, tok 1 0, tok 1 0]) = sender [tok 1 0, tok 1 0, tok 1 0, tok 1 0] ∧
    (sender [tok 1 0, tok 1 0, tok 1 0, tok 1 0]).window ≤ (Sp.get [] (sender [tok 1 0, tok 1 0, tok 1 0, tok 1 0]).spent 0).length := by decide +kernel
theorem witness_ChannelEvents_frames :
    (∃ p, (wChan (chEnd .fault true) p).frameAt 0 2 = some (p, 0) ∧ endAt (chEnd .fault true) = chEnd .fault true) ∧
    (∃ p, (wChan (chEnd .wait true) p).frameAt 0 2 = some (p, 0) ∧ (chEnd .wait true).peerOf p = false) ∧
    (∃ p, (wChan (chEnd .opened false) p).frameAt 0 2 = some (p, 0) ∧ (chEnd .opened false).peerOf p = true) ∧
    (∃ p, (wChan (chEnd .wait false) p).frameAt 0 2 = some (p, 0) ∧ (chEnd .wait false).peerOf p = true ∧ endAt (chEnd .wait false) = chEnd .wait false) ∧
    (∃ p, (wChan (chEnd .opened false) p).frameAt 0 3 = some (p, 0) ∧ (chEnd .opened false).peerOf p = true) ∧
    (∃ p, (wChan (chEnd .wait false) p).frameAt 0 3 = some (p, 0)) ∧
    (∃ p, (wChan (sender [tok 9 0]) p).frameAt 0 1 = some (p, 0) ∧ ((wChan (sender [tok 9 0]) p).chanEnd 0) = sender [tok 9 0] ∧ (tok 9 0).eos = false) ∧
    (∃ p, (wChan (chEnd .opened true) p).frameAt 0 0 = some (p, 0) ∧ p.tokens = [tok 9 0]) ∧
    (∃ p, (wChan (chEnd .opened false) p).frameAt 0 0 = some (p, 0) ∧ (endAt (chEnd .opened false)).recv = false) ∧
    (let u := (wEnds (chEnd .opened true) []).follow 0
     let held := u.setEnd 0 { u.chanEnd 0 with places := [(0, [tok 9 0])] }
     let full : State := { held with entryq := [(sideKey 0 0 0 0, [(tok 1 0, false)])] }
     (u.chanEnd 0).places = [] ∧ 0 < (u.chanEnd 0).depth.toNat ∧ (held.admitPlace 0 0).2 = true ∧ Sp.get [] ((held.admitPlace 0 0).1.chanEnd 0).places 0 = [] ∧
       full.admitPlace 0 0 = (full, false)) := by
  refine ⟨⟨_, frame0 _ 2 0 4 0 [] (by decide), by decide +kernel⟩, ⟨_, frame0 _ 2 0 4 1 [] (by decide), ?_⟩, ⟨_, frame0 _ 2 0 4 0 [] (by decide), ?_⟩,
    ⟨_, frame0 _ 2 0 4 0 [] (by decide), ?_, by decide +kernel⟩, ⟨_, frame0 _ 3 0 0 0 [] (by decide), ?_⟩, ⟨_, frame0 _ 3 0 0 0 [] (by decide)⟩,
    ⟨_, frame0 _ 1 0 1 0 [] (by decide), rfl, rfl⟩, ⟨_, frame0 _ 0 1 0 0 tokPay (by decide), ?_⟩, ⟨_, frame0 _ 0 1 0 0 tokPay (by decide), by decide +kernel⟩,
    by decide +kernel⟩
  · rw [peer0 _ 2 0 4 1 [] (by decide) rfl rfl rfl]; decide
  · rw [peer0 _ 2 0 4 0 [] (by decide) rfl rfl rfl]; decide
  · rw [peer0 _ 2 0 4 0 [] (by decide) rfl rfl rfl]; decide
  · rw [peer0 _ 3 0 0 0 [] (by decide) rfl rfl rfl]; decide
  · rw [Packet.tokens, (fr_ends 0 1 0 0 0 tokPay (by decide)).2.2.1]; decide +kernel

/-! Management requests, interfaces and sessions. -/

/-- PART words: the sectors in dword 1, the channels in dwords 2 and 3. -/
def partWord (valid : Bool) (smask chmask : Nat) : BitVec 256 :=
  BitVec.ofNat 256 ((if valid then 2 ^ 63 else 0) + smask * 2 ^ 64 + chmask * 2 ^ 128)
/-- Requests that wait: one of the management session, and one of function 0's. -/
def calling : List Peer := [{ port := 0, kind := 2, vf := 0 }, { port := 0, kind := 1, vf := 0 }]
/-- One function and colour as given; port 0 in the link state given; core 1 held in reset, core 2 stopped. -/
def wTrust (v : Vf) (c : Colour) (l : LinkState) : State :=
  { w0 with vfs := [(0, v)], colours := [(0, c)], links := [(0, l)],
            cores := [(0, core0 0 []), (1, Core.reset), (2, { Core.reset with run := .stopped })],
            trust := { Trust.reset with measure := [(7, 0)], mgmt := some 0, calls := calling } }
/-- The package supervisor's session is open at port 0, which is in AUTH. -/
def ruled (s : State) : State := { s with links := [(0, .auth)], trust := { s.trust with mgmt := some 0, calls := calling } }
def vfOf (st : VfState) (sess : Bool) : Vf := { Vf.reset with en := true, ctxid := 7, st := st, sess := sess }
def colOf (keyed : Bool) : Colour := { Colour.reset with valid := true, keyed := keyed }
/-- A module without core 5 and channel 3. -/
def wLess : State := { w0 with lacks := { Lacks.none with cores := 32, chans := 8 } }
def wSeal : State := ruled { wWalk 0 0 with vfs := [(0, vfOf .unlocked false)] }
/-- Under a management session: the world, and the module that lacks units. -/
abbrev w1r : State := ruled w0
abbrev lessr : State := ruled wLess
theorem witness_ManagementRequests :
    w0.reached = false ∧ w1r.reached = true ∧ lessr.reached = true ∧ wSeal.reached = true ∧ (wTrust (vfOf .run true) (colOf true) .auth).reached = true ∧
    w0.trust.calls = [] ∧ (w1r.trust.calls.any fun p => p.kind == 1 && p.vf == 0) = true ∧ w1r.stopping 0 = false ∧
    w1r.parts.map (·.1) = [0] ∧ (w1r.part 0).smask &&& (partWord true 1 0).extractLsb' 64 16 ≠ 0 ∧ (partWord true 0 0).getLsbD 63 = true ∧
    (partWord true 0 0).extractLsb' 64 16 = 0 ∧ lessr.chanPresent 3 = false ∧ ((partWord true 1 8).extractLsb' 128 128).getLsbD 3 = true ∧
    (w1r.part 0).valid = true ∧ (w1r.part 0).smask.getLsbD 1 = true ∧ ((partWord true 1 0).extractLsb' 64 16).getLsbD 1 = false ∧
    w1r.trust.cleanSectors = 0 ∧ (partWord true 0xFFFF (2 ^ 128 - 1)).extractLsb' 64 16 = 0xFFFF ∧
    (partWord true 0xFFFF (2 ^ 128 - 1)).extractLsb' 128 128 = (w1r.part 0).chmask ∧ (w1r.part 0).smask = 0xFFFF ∧
    (2 ^ 127 + 2 ^ 123 : BitVec 128).getLsbD 127 = true ∧ (w1r.vf ((2 ^ 127 + 2 ^ 123 : BitVec 128).extractLsb' 117 6).toNat).part ≠ (2 ^ 127 + 2 ^ 123 : BitVec 128).extractLsb' 123 4 ∧
    (w1r.vf ((2 ^ 127 : BitVec 128).extractLsb' 117 6).toNat).part = (2 ^ 127 : BitVec 128).extractLsb' 123 4 ∧
    (let s := wTrust (vfOf .unlocked false) (colOf true) .trained
     (s.core 0).run = .running ∧ (s.core 1).run = .reset ∧ s.corePresent 1 = true ∧ s.boundAt 1 0 = true ∧ (s.core 2).run = .stopped ∧
       s.boundAt 1 9 = false) ∧
    lessr.corePresent 5 = false ∧ w1r.corePresent 5 = true ∧ space (gddrBase / 4096 * 4096) = .gddr ∧
    w1r.chanPresent (chanOf (gddrBase / 4096 * 4096)) = true ∧ w1r.retired = [] ∧ ({ w1r with retired := [gddrBase / 4096] } : State).retired = [gddrBase / 4096] ∧
    (0 : BitVec 512).extractLsb' 0 256 = (0 : BitVec 512).extractLsb' 256 256 ∧ (1 : BitVec 512).extractLsb' 0 256 ≠ (1 : BitVec 512).extractLsb' 256 256 ∧
    ((wTrust (vfOf .run true) (colOf true) .auth).colour 0).valid = true ∧ ((wTrust (vfOf .run true) (colOf true) .auth).vf 0).st = .run ∧
    ((wTrust (vfOf .run true) (colOf true) .auth).vf 0).sess = true ∧ ((wTrust (vfOf .unlocked false) (colOf true) .auth).vf 0).sess = false ∧
    ((wTrust (vfOf .run true) (colOf true) .auth).vf 0).en = true ∧ (wTrust (vfOf .run true) (colOf true) .auth).scrubbing 0 = false ∧
    ((wTrust (vfOf .run true) (colOf true) .auth).trust.calls.any fun p => p.kind == 1 && p.vf == 0) = true ∧
    (w1r.domain 0 0).tx = false ∧ (w1r.domain 0 0).rx0 = false ∧ (w1r.domain 0 0).rx1 = false ∧ (w1r.domain 0 0).key0 = none ∧
    ({ w1r with domains := [(0, { Domain.reset with key0 := some 1, key1 := some 2, rx0 := true })] } : State).domain 0 0 =
      { Domain.reset with key0 := some 1, key1 := some 2, rx0 := true } ∧ (2 ^ 59 : W64).getLsbD 59 = true ∧ (2 ^ 57 : W64).getLsbD 57 = true ∧
    w1r.portPresent 0 = true ∧ ({ w1r with lacks := { Lacks.none with ports := 1 } } : State).portPresent 0 = false ∧
    ((wSeal.colour 0).valid = true ∧ (wSeal.vf (wSeal.colour 0).vf.toNat).ctxid = 7 ∧ (wSeal.sealPages 0 4096 1).isSome = true ∧ (wSeal.sealPages 0 0x2000 1) = none ∧
      (0x1FFC : Nat) - 0x1FFC % 4096 = 4096 ∧ ((0x1FFC % 4096 + 4 + 4095) / 4096 = 1)) := by decide +kernel
/-- A request from port 0 about function 0, kind 0 or 2. -/
def req (kind : BitVec 4) (slot : BitVec 3) (body : List Byte) : Spdm :=
  { port := 0, ver := 1, kind := kind, vf := 0, rsvZero := true, lenOk := true, slot := slot, body := body }
def hand (p : Peer) (mgmt : Bool) : Handshake := { peer := p, mgmt := mgmt, secret := 0 }
def hands (s : State) (p : Peer) (mgmt : Bool) : State := { s with trust := { s.trust with hands := [hand p mgmt] } }
abbrev peerOf (kind : Nat) : Peer := { port := 0, kind := kind, vf := 0 }
/-- A NEGOTIATE_ALGORITHMS that offers ML-DSA and ML-KEM. -/
def offer : List Byte := List.replicate 24 0 ++ [1, 0, 0, 0] ++ extSign ++ [2, 0x21, 0, 0] ++ extKem
theorem witness_SessionsAndInterfaces :
    w0.trust.calls = [] ∧ ((wTrust (vfOf .unlocked false) (colOf true) .auth).trust.calls.any fun p => p.kind == 1 && p.vf == 0) = true ∧
    (wTrust (vfOf .unlocked false) (colOf true) .auth).portAuth 0 = true ∧
    (wTrust (vfOf .unlocked false) (colOf true) .auth).vf 0 = vfOf .unlocked false ∧
    (let s := wTrust (vfOf .unlocked true) (colOf true) .auth
     (s.vf 0).sess = true ∧ (s.vf 0).st = .unlocked ∧ (s.vf 0).en = true ∧ (s.vf 0).ctxid ≠ 0 ∧ (s.colours.all fun c => c.2.keyed) = true ∧
       (Sp.find? s.trust.measure (s.vf 0).ctxid.toNat).isSome = true) ∧
    ((wTrust (vfOf .locked true) (colOf true) .auth).vf 0).nonce = 0 ∧ ((wTrust (vfOf .locked true) (colOf true) .auth).vf 0).st = .locked ∧
    ((wTrust (vfOf .run true) (colOf true) .auth).vf 0).st ≠ .locked ∧ ((wTrust (vfOf .run true) (colOf true) .auth).colour 0).valid = true ∧
    (req 0 1 []).ver = 1 ∧ (req 0 1 []).kind.toNat ≤ 2 ∧ (req 0 1 []).rsvZero = true ∧ (req 0 1 []).lenOk = true ∧ (req 2 1 []).vf = 0 ∧ (req 2 1 []).kind = 2 ∧
    ({ req 0 1 [] with ver := 2 } : Spdm).ver ≠ 1 ∧ w0.portAuth 0 = false ∧ (wTrust (vfOf .run true) (colOf true) .trained).portUp 0 = true ∧
    ((ruled State.reset).vf 0).en = false ∧ (ruled State.reset).portAuth 0 = true ∧
    ({ ruled State.reset with booting := true } : State).portAuth 0 = true ∧ (ruled State.reset).booting = false ∧
    offersBoth offer = true ∧ offersBoth [] = false ∧ (List.replicate 1184 (0 : Byte)).length = 1184 ∧ ([] : List Byte).length ≠ 1184 ∧
    (ruled w0).trust.mgmt = some 0 ∧ w0.trust.hands = [] ∧
    (hands w0 (peerOf 0) false).trust.hands = [hand (peerOf 0) false] ∧ (hands w0 (peerOf 2) true).trust.hands = [hand (peerOf 2) true] ∧
    (hand (peerOf 2) false).mgmt = false ∧ w0.trust.anchor = none ∧
    ({ w0.trust with anchor := some [1] } : Trust).anchor = some [1] ∧
    (wTrust (vfOf .run true) (colOf true) .trained).link 0 = .trained ∧ (wTrust (vfOf .run true) (colOf true) .auth).link 0 = .auth ∧
    (wTrust (vfOf .run true) (colOf true) .auth).trust.mgmt = some 0 ∧ w0.trust.mgmt ≠ some 0 ∧ (req 0 0 []).slot = 0 ∧ (req 0 1 []).slot ≠ 0 ∧
    (w0.trust.pending.any fun p => p.slot == some 1) = false ∧ w0.trust.deferred = [] ∧
    ({ w0.trust with pending := [{ slot := some 1, msg := .answer true }] } : Trust).pending.any (fun p => p.slot == some 1) = true ∧
    (wTrust (vfOf .run true) (colOf true) .auth).vf 0 = vfOf .run true ∧ ((wTrust (vfOf .run false) (colOf true) .auth).vf 0).sess = false := by
  decide +kernel
/-- Whether a chain verifies against an anchor is a free value: where it does, the clauses of FINISH and of KEY_EXCHANGE that ask for it
have their state, and where it does not, the others have theirs. -/
theorem witness_SessionsAndInterfaces_verified (b : List Byte) :
    (Config.verifies Config.managementAnchor b = true → ∃ a, some Config.managementAnchor = some a ∧ Config.verifies a b = true) ∧
    (Config.verifies [1] b = true → ∃ a, ({ w0.trust with anchor := some [1] } : Trust).anchor = some a ∧ Config.verifies a b = true) ∧
    ¬∃ a, w0.trust.anchor = some a ∧ Config.verifies a b = true :=
  ⟨fun h => ⟨_, rfl, h⟩, fun h => ⟨_, rfl, h⟩, fun ⟨_, h, _⟩ => by cases h⟩
/-- Function 0 is being stopped, with the scrub of colour 0 and as many more as said; the TLBI waits for the bank operations given. -/
def wScrub (ops : List BankOp) : Scrub :=
  { colour := 0, was := colOf true, measure := 0, t1 := 0,
    wait := { cmd := { kind := 1, colour := some 0, base := 0, len := 0, flag := 0 }, blks := [], pres := [], cmds := [], ops := ops, lines := [], reqs := [],
              isl := [], vanes := [], reads := [] } }
def wStop (more : Nat) : State :=
  let s := wTrust (vfOf .run true) (colOf true) .auth
  { s with trust := { s.trust with stops := [{ vf := 0, managed := false, scrubs := List.replicate (more + 1) (wScrub []) }] } }
theorem witness_SessionsAndInterfaces_scrubs :
    (wStop 0).trust.stops[0]? = some { vf := 0, managed := false, scrubs := [wScrub []] } ∧
    (wStop 1).trust.stops[0]? = some { vf := 0, managed := false, scrubs := wScrub [] :: [wScrub []] } ∧
    (wStop 0).scrubReady (wScrub []) = true ∧
    ((wStop 0).scrubbing 0 = true ∧ (wStop 0).reached = true) ∧
    (let o : BankOp := { core := 0, reg := none, addr := 0, va := 0, sc := false, acq := false, kind := .clrp }
     ({ wStop 0 with bankOps := [o] } : State).scrubReady (wScrub [o]) = false) ∧
    (let s := wTrust (vfOf .run true) { colOf false with valid := false } .auth
     s.colours.all (fun e => !e.2.valid && !e.2.keyed) = true ∧ (s.vf 0).st ≠ .unlocked) ∧
    (let s := wTrust (vfOf .run true) (colOf true) .auth
     (s.colour 0).vf = 0 ∧ (s.colour 0).valid = true ∧ s.partOf 0 = some (s.colour 0).part.toNat) := by decide +kernel
/-- The last colour of a stop: the key is erased, a receipt and the answer go out, the function is unlocked (26 Table 26.6, R372). -/
theorem test_scrub_ends :
    (let t := (wStop 0).scrub 0
     (t.colour 0).keyed = false ∧ (t.vf 0).st = .unlocked ∧ t.trust.stops = [] ∧ t.trust.outbox.length = 2) := by decide +kernel

/-! The whole machine. -/

/-- Core 0 before the word given of its open block. -/
def wWord (w : W64) : State := pkg { core0 0 [(4, 8)] with blk := { (core0 0 [(4, 8)]).blk with words := [0, w, 0, 0] } }
def addiWord : W64 := 0x200104FFFFFFFFF8
/-- The same behind !p1. -/
def addiNot : W64 := 0x203104FFFFFFFFF8
def atWord (s : State) : Bool :=
  s.agenda == [] && s.powered && s.agent == .core && s.me.run == .running && s.me.pendTrap.isNone && s.me.rreq.isNone && !s.me.inTrap &&
    !s.me.walkWait && s.me.irq.isNone && s.me.blk.isOpen && !s.me.blk.closing && s.me.blk.wait == .none
theorem witness_DecodeEncodeRoundTrip : encode (.add rrr) ≠ .none ∧ Instr.wf (.add rrr) = true := by decide +kernel
theorem witness_StepRunsDecodedInstruction :
    atWord (wWord addiWord) = true ∧ (wWord addiWord).me.blk.words[(wWord addiWord).me.blk.idx]? = some addiWord ∧
    (decodeCore addiWord).toOption = some (.addi { g := 0, gs := false, d := 4, a := 4, imm := 0xFFFFFFFFF8 }) ∧
    (wWord addiWord).guard (wordGuard addiWord).1 (wordGuard addiWord).2 = true ∧
    (wWord addiWord).badSource (wordGuard addiWord).1 (.addi { g := 0, gs := false, d := 4, a := 4, imm := 0xFFFFFFFFF8 }) = none ∧
    (wWord addiWord).ready (.addi { g := 0, gs := false, d := 4, a := 4, imm := 0xFFFFFFFFF8 }) = true ∧
    atWord (wWord addiNot) = true ∧ (wWord addiNot).me.blk.words[(wWord addiNot).me.blk.idx]? = some addiNot ∧
    (wWord addiNot).guard (wordGuard addiNot).1 (wordGuard addiNot).2 = false ∧ Sp.get false (wWord addiNot).w.bad (128 + 1) = false ∧
    (el 0x10 ecfg [] []).agent = .elem ∧ elemInstr ((el 0x10 ecfg [] []).slot 0 0).op.toNat ((el 0x10 ecfg [] []).slot 0 0).cfg = some (.addE ecfg) ∧
    ({ w0 with agenda := [.event .throttle] } : State).agenda = [.event .throttle] ∧ Instr.opcode .throttle = 0 := by decide +kernel
theorem witness_FalseGuardHasNoEffect :
    (0x0010000000000000 : W64).extractLsb' 52 4 = 1 ∧ (decodeCore addiNot).toOption = some (.addi { g := 1, gs := true, d := 4, a := 4, imm := 0xFFFFFFFFF8 }) ∧
    (wWord addiNot).guard (addiNot.extractLsb' 53 3) (addiNot.getLsbD 52) = false := by decide +kernel
theorem witness_BlockIsCheckedWhole :
    (checkWords (fun _ => .ok addiWord) false false Seen.start 0x1000 2).toOption = some [addiWord, addiWord] ∧
    (decodeCore 0xFF00000000000000).toOption = none ∧ (decodeCore addiWord).toOption.isSome = true ∧
    Seen.allows { Seen.start with exits := 1 } false (.add rrr) = false ∧ Seen.allows Seen.start false (.halt sys) = true ∧
    Instr.priv (.halt sys) = true ∧ isExit (.br brx) = true ∧ isExit (.add rrr) = false ∧
    (limited (.msend rrr)).isSome = true := by decide +kernel
/-- Core 0 at the end of an empty block whose successor is the header at `pageVa + 0x200`, a rule body's header at + 0x208. -/
def wEnd (exit : Exit) (lact : Bool) (lcnt : W64) : State :=
  let c := core0 (2 ^ 63) []
  netWords [(0x200, 2 ^ 56), (0x208, 2 ^ 56 + 2 ^ 44)]
    (pkg { c with blk := { Blk.reset with isOpen := true, hdr := 0x1001F8, exit := exit, w := { c.regs with lact := lact, lcnt := lcnt, lbeg := 0x100200, lend := 0x100200 } } })
def next0 (s : State) (target : W64) : Bool := (s.checkSuccessor s.cur target false).toOption.isSome
theorem witness_BlockCommits :
    atWord (wEnd .none false 0) = true ∧ (wEnd .none false 0).me.blk.rule = false ∧ (wEnd .none false 0).me.blk.idx = (wEnd .none false 0).me.blk.words.length ∧
    (wEnd .none false 0).heldRoom 0 = true ∧ (wEnd .none false 0).me.blk.hdr + 8 = 0x100200 ∧ next0 (wEnd .none false 0) 0x100200 = true ∧
    (wEnd (.goto 0x100200) false 0).me.blk.exit = .goto 0x100200 ∧ next0 (wEnd (.goto 0x100200) false 0) 0x100200 = true ∧
    next0 (wEnd (.goto 0x100208) false 0) 0x100208 = false ∧ (wEnd .none true 2).me.blk.closing = false ∧ (wEnd .none true 2).me.blk.w.lact = true ∧ (wEnd .none true 2).me.blk.w.lend = 0x100200 ∧
    1 < (wEnd .none true 2).me.blk.w.lcnt.toNat ∧ (wEnd .none true 2).me.blk.w.lbeg = 0x100200 ∧ next0 (wEnd .none true 2) 0x100200 = true ∧
    (wEnd .none true 1).me.blk.w.lcnt.toNat ≤ 1 ∧ next0 (wEnd .none true 1) 0x100200 = true := by decide +kernel
/-- The same, of the block of an ERET with the status and the tblock given. -/
def wRet (st : BitVec 6) (tb : W64) : State :=
  let s := wEnd .eret false 0
  s.setBlk { s.blk with w := { s.blk.w with tstat := st, tblock := tb } }
def backOk (s : State) : Bool :=
  ((s.setMe { s.me with lvlS := s.blk.w.tstat.getLsbD 2 }).checkSuccessor s.cur s.blk.w.tblock (s.blk.w.tstat.getLsbD 4)).toOption.isSome
/-- The same, of a rule body, with a port held that no join has taken or with none. -/
def wBody (held : List Nat) : State :=
  let s := wEnd .none false 0
  s.setMe { s.me with claim := some { pair := ⟨pageVa, pageVa, 0, false, none⟩, ports := held, done := [] }, blk := { s.me.blk with rule := true } }
/-- A block that ends in SYSC 7, its effects delivered. -/
def wSysc : State :=
  let c := core0 (2 ^ 63) []
  netWords [(0x200, 2 ^ 56), (0x208, 0x200104FFFFFFFFF8)]
    (pkg { c with regs := { c.regs with tvec := 0x100200 },
                  blk := { Blk.reset with isOpen := true, hdr := 0x1001F8, exit := .sysc 7, w := c.regs, closing := true, next := 0x100200 } })
theorem witness_BlockCommits_exits :
    (wEnd (.sysc 7) false 0).me.blk.exit = .sysc 7 ∧ (wEnd .halt false 0).me.bagEn = false ∧
    ((wEnd .halt false 0).setMe { (wEnd .halt false 0).me with bagctl := 2 ^ 63 }).me.bagEn = true ∧
    backOk (wRet 0b000110 0x100200) = true ∧ backOk (wRet 0b011010 0x100208) = true ∧ backOk (wRet 0b000100 0x100208) = false ∧
    (wRet 0b001110 0).blk.w.tstat.getLsbD 3 = true ∧ (wRet 0b001110 0).blk.w.tstat.getLsbD 4 = false ∧
    atWord (wBody []) = true ∧ (wBody []).wireLeft = none ∧ (wBody [0x100208]).wireLeft = some 0x100208 ∧ (wBody []).me.blk.rule = true ∧
    wSysc.me.blk.closing = true ∧ wSysc.me.blk.held = [] ∧ wSysc.outstanding wSysc.cur = false ∧
    (match step wSysc with | .next t => t.me.run | _ => .reset) = .running := by decide +kernel
theorem witness_StepKeepsMemoryCanonical : Mem.wf (wEnd .none false 0).mem = true ∧ (match step (wEnd .none false 0) with | .next _ => true | _ => false) = true := by
  decide +kernel

/-! ## Decoding

Words put together from Table 02.9 (opcode), Table 02.5 (places of the fields) and each entry's values, behind the guard `(!p3)`, and the
words that the manual's own examples print. -/

abbrev rrr0 : RRR := { rrr with g := 3, gs := true, d := 0, a := 0, b := 0, ty := 0 }
abbrev rri0 : RRI := { g := 3, gs := true, d := 0, a := 0, imm := 0 }
abbrev mem0 : MEM := { mem with g := 3, gs := true, d := 0, a := 0, ty := 0 }
abbrev brx0 : BRX := { brx with g := 3, gs := true, off := 0 }
abbrev vec0 : VEC := { vec with g := 3, gs := true, d := 0, a := 0, b := 0, m := 0, ty := 0 }
abbrev mtx0 : MTX := { mtx with g := 3, gs := true, a := 0, acc := 0, imm := 0 }
abbrev str0 : STR := { str with g := 3, gs := true }
abbrev net0 : NET := { net with g := 3, gs := true }
abbrev sys0 : SYS := { sys with g := 3, gs := true }
/-- Every word decodes to its instruction. -/
def reads (l : List (W64 × Instr)) : Bool := l.all fun q => (decodeCore q.1).toOption == some q.2
theorem test_decode_scalar : reads [
    (0x107146FC00011000, .add { rrr0 with d := 5, a := 6, b := 0x3F, ty := 2, sat := true }),
    (0x117146FC00011000, .sub { rrr0 with d := 5, a := 6, b := 0x3F, ty := 2, sat := true }),
    (0x127146FC00011000, .mul { rrr0 with d := 5, a := 6, b := 0x3F, ty := 2, sat := true }),
    (0x1371461C00038000, .mulh { rrr0 with d := 5, a := 6, b := 7, ty := 7 }),
    (0x1471461C00038000, .div { rrr0 with d := 5, a := 6, b := 7, ty := 7 }),
    (0x1571461C00038000, .rem { rrr0 with d := 5, a := 6, b := 7, ty := 7 }),
    (0x1C71461C00038000, .min { rrr0 with d := 5, a := 6, b := 7, ty := 7 }),
    (0x1D71461C00038000, .max { rrr0 with d := 5, a := 6, b := 7, ty := 7 }),
    (0x1671461C00018000, .and { rrr0 with d := 5, a := 6, b := 7, ty := 3 }),
    (0x1771461C00018000, .or { rrr0 with d := 5, a := 6, b := 7, ty := 3 }),
    (0x1871461C00018000, .xor { rrr0 with d := 5, a := 6, b := 7, ty := 3 }),
    (0x1971461C00018000, .shl { rrr0 with d := 5, a := 6, b := 7, ty := 3 }),
    (0x1A71461C00018000, .shr { rrr0 with d := 5, a := 6, b := 7, ty := 3 }),
    (0x1B71461C00018000, .sar { rrr0 with d := 5, a := 6, b := 7, ty := 3 }),
    (0x1E71461C00428000, .cmp { rrr0 with d := 5, a := 6, b := 7, ty := 5, func := 4 }),
    (0x1F71461C20020000, .sel { rrr0 with d := 5, a := 6, b := 7, c := 2, ty := 4 }),
    (0x2A70861C00340000, .pcmp { rrr0 with d := 2, a := 6, b := 7, ty := 8, func := 3 }),
    (0x2B70861C00200000, .plog { rrr0 with d := 2, a := 6, b := 7, func := 2 }),
    (0x2C70860000100000, .pmov { rrr0 with d := 2, a := 6, func := 1 }),
    (0x2D71400000200000, .lreg { rrr0 with d := 5, func := 2 }),
    (0x3071461C0004C000, .fadd { rrr0 with d := 5, a := 6, b := 7, ty := 9, rm := 2 }),
    (0x3171461C0004C000, .fsub { rrr0 with d := 5, a := 6, b := 7, ty := 9, rm := 2 }),
    (0x3271461C0004C000, .fmul { rrr0 with d := 5, a := 6, b := 7, ty := 9, rm := 2 }),
    (0x3371461C0004C000, .fdiv { rrr0 with d := 5, a := 6, b := 7, ty := 9, rm := 2 }),
    (0x3471461C80042000, .fma { rrr0 with d := 5, a := 6, b := 7, c := 8, ty := 8, rm := 1 }),
    (0x3571461C00050000, .fmin { rrr0 with d := 5, a := 6, b := 7, ty := 0xA }),
    (0x3671461C00050000, .fmax { rrr0 with d := 5, a := 6, b := 7, ty := 0xA }),
    (0x3771461C00540000, .fcmp { rrr0 with d := 5, a := 6, b := 7, ty := 8, func := 5 }),
    (0x387146000085B000, .fcvt { rrr0 with d := 5, a := 6, func := 8, ty := 0xB, rm := 1, sat := true }),
    (0x3971460000040000, .frsqs { rrr0 with d := 5, a := 6, ty := 8 }),
    (0x3A71460000040000, .frcps { rrr0 with d := 5, a := 6, ty := 8 })] = true := by decide +kernel
theorem test_decode_immediate : reads [
    (0x2071468000000001, .addi { rri0 with d := 5, a := 6, imm := 0x8000000001 }),
    (0x2171468000000001, .andi { rri0 with d := 5, a := 6, imm := 0x8000000001 }),
    (0x2271468000000001, .ori { rri0 with d := 5, a := 6, imm := 0x8000000001 }),
    (0x2371468000000001, .xori { rri0 with d := 5, a := 6, imm := 0x8000000001 }),
    (0x247146000000003F, .shli { rri0 with d := 5, a := 6, imm := 0x3F }),
    (0x257146000000003F, .shri { rri0 with d := 5, a := 6, imm := 0x3F }),
    (0x267146000000003F, .sari { rri0 with d := 5, a := 6, imm := 0x3F }),
    (0x2771408000000001, .movi { rri0 with d := 5, imm := 0x8000000001 }),
    (0x2871460000000012, .movhi { rri0 with d := 5, a := 6, imm := 0x12 })] = true := by decide +kernel
theorem test_decode_memory : reads [
    (0x2971461E00308001, .lea { mem0 with d := 5, a := 6, b := 7, ix := true, sh := 3, off := 0x8001 }),
    (0x4077C60000000080, .vld { mem0 with d := 0x1F, a := 6, off := 0x80 }),
    (0x4177C61E00700080, .vst { mem0 with d := 0x1F, a := 6, b := 7, ix := true, sh := 7, off := 0x80 }),
    (0x4271C42602290000, .vgath { mem0 with d := 7, a := 4, b := 9, ix := true, sh := 2, func := 9, ty := 4 }),
    (0x4371C42602210000, .vscat { mem0 with d := 7, a := 4, b := 9, ix := true, sh := 2, func := 1, ty := 4 }),
    (0x6071460002800040, .ld { mem0 with d := 5, a := 6, ty := 5, off := 0x40 }),
    (0x6170C40002810010, .st { mem0 with d := 3, a := 4, ty := 5, off := 0x10, func := 1 }),
    (0x6271460093800040, .lda { mem0 with d := 5, a := 6, scope := 2, ord := 1, ty := 7, off := 0x40 }),
    (0x6371C80163800000, .stl { mem0 with d := 7, a := 8, scope := 5, ord := 2, ty := 7 }),
    (0x6471C50002810100, .ldf { mem0 with d := 7, a := 5, ty := 5, func := 1, off := 0x100 }),
    (0x6570060000010008, .pf { mem0 with a := 6, func := 1, off := 8 }),
    (0x6671460140010000, .cflush { mem0 with d := 5, a := 6, scope := 5, func := 1 }),
    (0x6770060080000000, .cinv { mem0 with a := 6, scope := 2 }),
    (0x6870060000000020, .invalCb { mem0 with a := 6, off := 0x20 }),
    (0x6C72442892850008, .waita { mem0 with d := 9, a := 4, b := 0xA, scope := 2, ord := 1, ty := 5, func := 5, off := 8 }),
    (0x7071461C03060010, .amo { mem0 with d := 5, a := 6, b := 7, ty := 6, func := 6, off := 0x10 }),
    (0x7171461C04020000, .amof { mem0 with d := 5, a := 6, b := 7, ty := 8, func := 2 }),
    (0x7271461C03800000, .cas { mem0 with d := 5, a := 6, b := 7, ty := 7 }),
    (0x7370061C02010000, .red { mem0 with a := 6, b := 7, ty := 4, func := 1 }),
    (0x7470061C04010000, .redf { mem0 with a := 6, b := 7, ty := 8, func := 1 }),
    (0x7570860C04000000, .bupd { mem0 with d := 2, a := 6, b := 3, ty := 8 }),
    (0x7671461C00010000, .bfill { mem0 with d := 5, a := 6, b := 7, func := 1 }),
    (0x7772440153800008, .take { mem0 with d := 9, a := 4, scope := 5, ord := 1, ty := 7, off := 8 }),
    (0x7870C40063800000, .put { mem0 with d := 3, a := 4, scope := 1, ord := 2, ty := 7 }),
    (0x7972440003000000, .rdf { mem0 with d := 9, a := 4, ty := 6 }),
    (0x7A70040000000008, .clrp { mem0 with a := 4, off := 8 }),
    (0x7B72440000000008, .pstat { mem0 with d := 9, a := 4, off := 8 }),
    (0x7C71460033800000, .ldsc { mem0 with d := 5, a := 6, ord := 3, ty := 7 }),
    (0x7D71460033800000, .stsc { mem0 with d := 5, a := 6, ord := 3, ty := 7 }),
    (0x7E728B3033000000, .amoSc { mem0 with d := 0xA, a := 0xB, b := 0xC, ord := 3, ty := 6 }),
    (0x7F728B3033800000, .casSc { mem0 with d := 0xA, a := 0xB, b := 0xC, ord := 3, ty := 7 })] = true := by decide +kernel
theorem test_decode_branch : reads [
    (0x02700003FFFFFFFD, .br { brx0 with off := 0x3FFFFFFFD }),
    (0x0370060000000003, .brr { brx0 with a := 6, off := 3 }),
    (0x0470400200000000, .call { brx0 with d := 1, off := 0x200000000 }),
    (0x0570460000000003, .callr { brx0 with d := 1, a := 6, off := 3 }),
    (0x0670010000000000, .ret { brx0 with a := 1 }),
    (0x077009000000000C, .loop { brx0 with a := 9, off := 0xC })] = true := by decide +kernel
theorem test_decode_vector : reads [
    (0x4470C47C05008900, .vadd { vec0 with d := 3, a := 4, b := 0x1F, m := 2, z := true, ty := 0x11, sat := true }),
    (0x4570C47C05008900, .vsub { vec0 with d := 3, a := 4, b := 0x1F, m := 2, z := true, ty := 0x11, sat := true }),
    (0x4670C47C05008900, .vmul { vec0 with d := 3, a := 4, b := 0x1F, m := 2, z := true, ty := 0x11, sat := true }),
    (0x4770C41404002000, .vmin { vec0 with d := 3, a := 4, b := 5, m := 2, ty := 4 }),
    (0x4870C41404002000, .vmax { vec0 with d := 3, a := 4, b := 5, m := 2, ty := 4 }),
    (0x4970C41404000000, .vand { vec0 with d := 3, a := 4, b := 5, m := 2 }),
    (0x4A70C41404000000, .vor { vec0 with d := 3, a := 4, b := 5, m := 2 }),
    (0x4B70C41404000000, .vxor { vec0 with d := 3, a := 4, b := 5, m := 2 }),
    (0x4C70C4000401201F, .vshl { vec0 with d := 3, a := 4, m := 2, func := 1, ty := 4, imm := 0x1F }),
    (0x4D70C4000401201F, .vshr { vec0 with d := 3, a := 4, m := 2, func := 1, ty := 4, imm := 0x1F }),
    (0x4E70C4000401201F, .vsar { vec0 with d := 3, a := 4, m := 2, func := 1, ty := 4, imm := 0x1F }),
    (0x4F70C41404006E00, .vfadd { vec0 with d := 3, a := 4, b := 5, m := 2, ty := 0xD, rm := 3 }),
    (0x5070C41404006E00, .vfsub { vec0 with d := 3, a := 4, b := 5, m := 2, ty := 0xD, rm := 3 }),
    (0x5170C41404006E00, .vfmul { vec0 with d := 3, a := 4, b := 5, m := 2, ty := 0xD, rm := 3 }),
    (0x5270420C40007000, .vfma { vec0 with d := 1, a := 2, b := 3, c := 4, ty := 0xE }),
    (0x5370C41400004000, .vfmin { vec0 with d := 3, a := 4, b := 5, ty := 8 }),
    (0x5470C41400004000, .vfmax { vec0 with d := 3, a := 4, b := 5, ty := 8 }),
    (0x5570C41404032000, .vcmp { vec0 with d := 3, a := 4, b := 5, m := 2, func := 3, ty := 4 }),
    (0x5670C41420000000, .vsel { vec0 with d := 3, a := 4, b := 5, c := 2 }),
    (0x5772460004004000, .vred { vec0 with d := 9, a := 6, m := 2, ty := 8 }),
    (0x5870C41404000000, .vperm { vec0 with d := 3, a := 4, b := 5, m := 2 }),
    (0x5970C4000001001F, .vbcast { vec0 with d := 3, a := 4, func := 1, imm := 0x1F }),
    (0x5A7244000000281F, .vext { vec0 with d := 9, a := 4, ty := 5, imm := 0x1F }),
    (0x5B70C9000000001F, .vins { vec0 with d := 3, a := 9, imm := 0x1F }),
    (0x5C71070000086102, .vcvt { vec0 with d := 4, a := 7, func := 8, ty := 0xC, sat := true, imm := 2 }),
    (0x5D70C40000004000, .vrsqs { vec0 with d := 3, a := 4, ty := 8 }),
    (0x5E70C40000004000, .vrcps { vec0 with d := 3, a := 4, ty := 8 })] = true := by decide +kernel
theorem test_decode_command : reads [
    (0x6A71461C80500000, .cpy { rrr0 with d := 5, a := 6, b := 7, c := 8, func := 5 }),
    (0x6B70060080500000, .cpy2 { rrr0 with a := 6, c := 8, func := 5 }),
    (0x8071870000200000, .mfc { rrr0 with d := 6, a := 7, func := 2 }),
    (0x81724A2C00000000, .colqRd { rrr0 with d := 9, a := 0xA, b := 0xB }),
    (0x81700A2C00100000, .colqOpen { rrr0 with a := 0xA, b := 0xB, func := 1 }),
    (0x81700A2C00200000, .colqClose { rrr0 with a := 0xA, b := 0xB, func := 2 }),
    (0x8270041400000000, .rpurge { rrr0 with a := 4, b := 5 }),
    (0x8371461C00000000, .rload { rrr0 with d := 5, a := 6, b := 7 }),
    (0x84724A0000000000, .rarm { rrr0 with d := 9, a := 0xA }),
    (0x8572041400100000, .rcalm { rrr0 with d := 8, a := 4, b := 5, func := 1 }),
    (0x8670040000100000, .rtear { rrr0 with a := 4, func := 1 }),
    (0x8770041460000000, .rinj { rrr0 with a := 4, b := 5, c := 6 }),
    (0xC470061C00100000, .vnset { rrr0 with a := 6, b := 7, func := 1 }),
    (0xC570001C00100000, .steerset { rrr0 with b := 7, func := 1 }),
    (0xC671401C00200000, .vnrd { rrr0 with d := 5, b := 7, func := 2 }),
    (0xC871461C00300000, .msend { rrr0 with d := 5, a := 6, b := 7, func := 3 }),
    (0xC970040000000000, .mmask { rrr0 with a := 4 }),
    (0xCA70040000000000, .munmask { rrr0 with a := 4 }),
    (0xCB72400000000000, .mrecvPop { rrr0 with d := 9 }),
    (0xCB70040000100000, .mrecvCfg { rrr0 with a := 4, func := 1 }),
    (0xCB72400000200000, .mrecvSt { rrr0 with d := 9, func := 2 }),
    (0xCB70000000300000, .mrecvFree { rrr0 with func := 3 })] = true := by decide +kernel
theorem test_decode_stream : reads [
    (0x90700518C0000000, .sbind { str0 with a := 5, b := 6, sid := 3 }),
    (0x9170070000014000, .sstart { str0 with a := 7, smask := 5 }),
    (0x9270000020004000, .sclose { str0 with smask := 0x8001 }),
    (0x9370000000048140, .sbar { str0 with smask := 0x12, func := 5 }),
    (0x94724003C0000000, .spos { str0 with d := 9, sid := 0xF }),
    (0x95700500800000C0, .sdone { str0 with a := 5, sid := 2, func := 3 })] = true := by decide +kernel
theorem test_decode_island : reads [
    (0xA070051801680000, .wload { mtx0 with a := 5, b := 6, ty := 0xB, w := 2 }),
    (0xA170040000010080, .mscl { mtx0 with a := 4, acc := 1, imm := 0x80 }),
    (0xA270072001690080, .mma { mtx0 with a := 7, b := 8, ty := 0xB, w := 2, acc := 1, imm := 0x80 }),
    (0xA470000000030080, .aclr { mtx0 with acc := 3, imm := 0x80 }),
    (0xA571800000010501, .ard { mtx0 with d := 6, acc := 1, imm := 0x501 }),
    (0xA6700C0004004040, .awr { mtx0 with a := 0xC, imm := 0x4040, func := 1 }),
    (0xA770090000020000, .asave { mtx0 with a := 9, acc := 2 })] = true := by decide +kernel
theorem test_decode_net : reads [
    (0xB071400200400000, .nalloc { net0 with d := 5, pa := 2, kind := 0x10 }),
    (0xB170010000000000, .nfree { net0 with a := 1 }),
    (0xB271810000001400, .nld { net0 with d := 6, a := 1, func := 5 }),
    (0xB370051C00001400, .nst { net0 with a := 5, b := 7, func := 5 }),
    (0xB470050880000800, .nlink { net0 with a := 5, b := 2, pb := 2, func := 2 }),
    (0xB570051800000000, .npush { net0 with a := 5, b := 6 }),
    (0xB671460000000000, .npop { net0 with d := 5, a := 6 }),
    (0xB7724A2C00000000, .nruleLook { net0 with d := 9, a := 0xA, b := 0xB }),
    (0xB7700A2C00000400, .nruleSet { net0 with a := 0xA, b := 0xB, func := 1 }),
    (0xB770000000000800, .nruleInv { net0 with func := 2 })] = true := by decide +kernel
theorem test_decode_system : reads [
    (0x6970000000000002, .fence { sys0 with imm := 2 }),
    (0x3B72400000004002, .statrd { sys0 with d := 9, imm := 2, func := 1 }),
    (0xC071461C00008000, .tlbi { sys0 with d := 5, a := 6, b := 7, func := 2 }),
    (0xC1724A2C00000000, .tlbw { sys0 with d := 9, a := 0xA, b := 0xB }),
    (0xD070050000000000, .trap { sys0 with a := 5 }),
    (0xD170000000000000, .eret sys0),
    (0xD272400004C00000, .mfs { sys0 with d := 9, sreg := 0x13 }),
    (0xD370060001000000, .mts { sys0 with a := 6, sreg := 4 }),
    (0xD470000000000007, .sysc { sys0 with imm := 7 }),
    (0xD570000000000007, .bkpt { sys0 with imm := 7 }),
    (0xD670000000000000, .halt sys0),
    (0xD770145400000000, .rsave { sys0 with a := 0x14, b := 0x15 }),
    (0xD870145400000000, .rrest { sys0 with a := 0x14, b := 0x15 })] = true := by decide +kernel
abbrev el0 : ElemCfg :=
  { fmt := 0, rm := 0, sat := false, fin := false, tagp := 0, nin := 0, cin := 0, opx := 0, const := 0, q3 := 0, q2 := 0, q1 := 0, q0 := 0,
    out0 := 0, out1 := 0, share := 0, ordx := false, port := 0 }
/-- Configuration words put together from Tables 02.11, 02.12 and 02.14: inputs from N, W and S, the result to E. -/
theorem test_decode_elements : ([
    (0x00108008000000000140100000000000, .passE { el0 with fmt := 2, nin := 1, q0 := 1, out0 := 2, share := 4 }),
    (0x00108008000000000240100000000007, .constE { el0 with fmt := 2, nin := 1, q0 := 1, out0 := 2, share := 4, const := 7 }),
    (0x02108408000000000340200000000000, .steerE { el0 with fmt := 2, nin := 2, q0 := 1, out0 := 2, share := 4, q1 := 4, out1 := 4 }),
    (0x02108008000000000440200000000000, .mergeE { el0 with fmt := 2, nin := 2, q0 := 1, out0 := 2, share := 4, q1 := 4 }),
    (0x02108008000000000500200000000008, .loopE { el0 with nin := 2, q0 := 1, out0 := 2, share := 4, q1 := 4, const := 8 }),
    (0x00108008000000000640100000000000, .callE { el0 with fmt := 2, nin := 1, q0 := 1, out0 := 2, share := 4 }),
    (0x00108008000000000740100000000000, .retE { el0 with fmt := 2, nin := 1, q0 := 1, out0 := 2, share := 4 }),
    (0x02108008000000001000200000000000, .addE { el0 with nin := 2, q0 := 1, out0 := 2, share := 4, q1 := 4 }),
    (0x02108008000000001100200000000000, .subE { el0 with nin := 2, q0 := 1, out0 := 2, share := 4, q1 := 4 }),
    (0x02108008000000001200200000000000, .mulE { el0 with nin := 2, q0 := 1, out0 := 2, share := 4, q1 := 4 }),
    (0x02108008000000001300200000000000, .minE { el0 with nin := 2, q0 := 1, out0 := 2, share := 4, q1 := 4 }),
    (0x02108008000000001400200000000000, .maxE { el0 with nin := 2, q0 := 1, out0 := 2, share := 4, q1 := 4 }),
    (0x02108008000000001500200000000000, .andE { el0 with nin := 2, q0 := 1, out0 := 2, share := 4, q1 := 4 }),
    (0x02108008000000001600200000000000, .orE { el0 with nin := 2, q0 := 1, out0 := 2, share := 4, q1 := 4 }),
    (0x02108008000000001700200000000000, .xorE { el0 with nin := 2, q0 := 1, out0 := 2, share := 4, q1 := 4 }),
    (0x02108008000000001800200000000000, .shlE { el0 with nin := 2, q0 := 1, out0 := 2, share := 4, q1 := 4 }),
    (0x02108008000000001900200000000000, .shrE { el0 with nin := 2, q0 := 1, out0 := 2, share := 4, q1 := 4 }),
    (0x02108008000000001A00200300000000, .cmpE { el0 with nin := 2, q0 := 1, out0 := 2, share := 4, q1 := 4, opx := 3 }),
    (0x0E108008000000001B40300000000000, .selE { el0 with fmt := 2, nin := 3, q0 := 1, out0 := 2, share := 4, q1 := 4, q2 := 3 }),
    (0x02108008000000002050200000000000, .faddE { el0 with fmt := 2, nin := 2, q0 := 1, out0 := 2, share := 4, q1 := 4, rm := 2 }),
    (0x02108008000000002140200000000000, .fsubE { el0 with fmt := 2, nin := 2, q0 := 1, out0 := 2, share := 4, q1 := 4 }),
    (0x02108008000000002240200000000000, .fmulE { el0 with fmt := 2, nin := 2, q0 := 1, out0 := 2, share := 4, q1 := 4 }),
    (0x0E108008000000002340B00000000000, .fmaE { el0 with fmt := 2, nin := 3, q0 := 1, out0 := 2, share := 4, q1 := 4, q2 := 3, tagp := 1 }),
    (0x02108008000000002440200000000000, .fminE { el0 with fmt := 2, nin := 2, q0 := 1, out0 := 2, share := 4, q1 := 4 }),
    (0x02108008000000002540200000000000, .fmaxE { el0 with fmt := 2, nin := 2, q0 := 1, out0 := 2, share := 4, q1 := 4 }),
    (0x02108008000000002640200300000000, .fcmpE { el0 with fmt := 2, nin := 2, q0 := 1, out0 := 2, share := 4, q1 := 4, opx := 3 }),
    (0x00108008000000002740100100000000, .cvtE { el0 with fmt := 2, nin := 1, q0 := 1, out0 := 2, share := 4, opx := 1 }),
    (0x00108008000000002800100000000000, .accE { el0 with nin := 1, q0 := 1, out0 := 2, share := 4 }),
    (0x00108008000000003040100000000000, .mloadE { el0 with fmt := 2, nin := 1, q0 := 1, out0 := 2, share := 4 }),
    (0x02108008000000003140200000000000, .mstoreE { el0 with fmt := 2, nin := 2, q0 := 1, out0 := 2, share := 4, q1 := 4 }),
    (0x02108008000000003240204500000000, .mrmwE { el0 with fmt := 2, nin := 2, q0 := 1, out0 := 2, share := 4, q1 := 4, opx := 69 }),
    (0x02108008000000003840200000000000, .sdivE { el0 with fmt := 2, nin := 2, q0 := 1, out0 := 2, share := 4, q1 := 4 }),
    (0x00108008000000003940100000000000, .sexp2E { el0 with fmt := 2, nin := 1, q0 := 1, out0 := 2, share := 4 }),
    (0x00108008000000003A40100000000000, .slog2E { el0 with fmt := 2, nin := 1, q0 := 1, out0 := 2, share := 4 }),
    (0x00108008000000003B40100000000000, .ssinE { el0 with fmt := 2, nin := 1, q0 := 1, out0 := 2, share := 4 }),
    (0x00108008000000003C40100000000000, .stabE { el0 with fmt := 2, nin := 1, q0 := 1, out0 := 2, share := 4 }),
    (0x02108008000000003F20200000000000, .statE { el0 with fmt := 1, nin := 2, q0 := 1, out0 := 2, share := 4, q1 := 4 }),
    (0x00108008000000004040100000000000, .commitE { el0 with fmt := 2, nin := 1, q0 := 1, out0 := 2, share := 4 }),
    (0x00108408000000004140100000000000, .routeE { el0 with fmt := 2, nin := 1, q0 := 1, out0 := 2, share := 4, out1 := 4 }),
    (0x02108008000000004240200000000000, .spaddE { el0 with fmt := 2, nin := 2, q0 := 1, out0 := 2, share := 4, q1 := 4 }),
    (0x00108008000000004340100000000003, .topkE { el0 with fmt := 2, nin := 1, q0 := 1, out0 := 2, share := 4, const := 3 }),
    (0x00108008000000004440100000000000, .cumsE { el0 with fmt := 2, nin := 1, q0 := 1, out0 := 2, share := 4 }),
    (0x00108008000000004520100000000000, .drawE { el0 with fmt := 1, nin := 1, q0 := 1, out0 := 2, share := 4 }),
    (0x02108008000000004640200000000000, .penalE { el0 with fmt := 2, nin := 2, q0 := 1, out0 := 2, share := 4, q1 := 4 }),
    (0x00108008000000004740100000000000, .adptE { el0 with fmt := 2, nin := 1, q0 := 1, out0 := 2, share := 4 }),
    (0x00108008000000004840100000000000, .vaneE { el0 with fmt := 2, nin := 1, q0 := 1, out0 := 2, share := 4 })] : List (BitVec 128 × Instr)).all (fun q => (decodeElem q.1).toOption == some q.2) = true := by decide +kernel
/-- The words that the entries print beside an assembly line. -/
theorem test_printed_words : reads [
    (0x1001C82400021000, .add { rrr0 with g := 0, gs := false, d := 7, a := 8, b := 9, sat := true, ty := 4 }),
    (0x1E00C41400230000, .cmp { rrr0 with g := 0, gs := false, d := 3, a := 4, b := 5, ty := 6, func := 2 }),
    (0x200104FFFFFFFFF8, .addi { rri0 with g := 0, gs := false, d := 4, a := 4, imm := 0xFFFFFFFFF8 }),
    (0x2801450000000012, .movhi { rri0 with g := 0, gs := false, d := 5, a := 5, imm := 0x12 }),
    (0x2901461E00300010, .lea { mem0 with g := 0, gs := false, d := 5, a := 6, b := 7, ix := true, sh := 3, off := 0x10 }),
    (0x2A00851800420000, .pcmp { rrr0 with g := 0, gs := false, d := 2, a := 5, b := 6, ty := 4, func := 4 }),
    (0x2B00C10800000000, .plog { rrr0 with g := 0, gs := false, d := 3, a := 1, b := 2 }),
    (0x2D00050000500000, .lreg { rrr0 with g := 0, gs := false, a := 5, func := 5 }),
    (0x070009000000000C, .loop { brx0 with g := 0, gs := false, a := 9, off := 0xC }),
    (0x34028B30D0040000, .fma { rrr0 with g := 0, gs := false, d := 0xA, a := 0xB, b := 0xC, c := 0xD, ty := 8 }),
    (0x02000003FFFFFFFD, .br { brx0 with g := 0, gs := false, off := 0x3FFFFFFFD }),
    (0x3801460000859000, .fcvt { rrr0 with g := 0, gs := false, d := 5, a := 6, ty := 0xB, func := 8, sat := true }),
    (0x5C01070000086102, .vcvt { vec0 with g := 0, gs := false, d := 4, a := 7, func := 8, ty := 0xC, sat := true, imm := 2 }),
    (0x3B02400000004002, .statrd { sys0 with g := 0, gs := false, d := 9, func := 1, imm := 2 }),
    (0x4000850000000080, .vld { mem0 with g := 0, gs := false, d := 2, a := 5, off := 0x80 }),
    (0x4201C42602290000, .vgath { mem0 with g := 0, gs := false, d := 7, a := 4, b := 9, ix := true, sh := 2, func := 9, ty := 4 }),
    (0x4400C41400002000, .vadd { vec0 with g := 0, gs := false, d := 3, a := 4, b := 5, ty := 4 }),
    (0x5200420C40006800, .vfma { vec0 with g := 0, gs := false, d := 1, a := 2, b := 3, c := 4, ty := 0xD }),
    (0x5702460004004000, .vred { vec0 with g := 0, gs := false, d := 9, a := 6, m := 2, ty := 8 }),
    (0x6001460002800040, .ld { mem0 with g := 0, gs := false, d := 5, a := 6, ty := 5, off := 0x40 }),
    (0x6100C40002810010, .st { mem0 with g := 0, gs := false, d := 3, a := 4, ty := 5, func := 1, off := 0x10 }),
    (0x6301C80163800000, .stl { mem0 with g := 0, gs := false, d := 7, a := 8, scope := 5, ord := 2, ty := 7 }),
    (0x6401C50002810100, .ldf { mem0 with g := 0, gs := false, d := 7, a := 5, ty := 5, func := 1, off := 0x100 }),
    (0x6C02442892850008, .waita { mem0 with g := 0, gs := false, d := 9, a := 4, b := 0xA, scope := 2, ord := 1, ty := 5, func := 5, off := 8 }),
    (0x6900000000000002, .fence { sys0 with g := 0, gs := false, imm := 2 }),
    (0x6900000000008005, .fence { sys0 with g := 0, gs := false, func := 2, imm := 5 }),
    (0x6A01461C80500000, .cpy { rrr0 with g := 0, gs := false, d := 5, a := 6, b := 7, c := 8, func := 5 }),
    (0x6B00060080500000, .cpy2 { rrr0 with g := 0, gs := false, a := 6, c := 8, func := 5 }),
    (0x7001461C03000010, .amo { mem0 with g := 0, gs := false, d := 5, a := 6, b := 7, ty := 6, off := 0x10 }),
    (0x7500860C04000000, .bupd { mem0 with g := 0, gs := false, d := 2, a := 6, b := 3, ty := 8 }),
    (0x7702440153800008, .take { mem0 with g := 0, gs := false, d := 9, a := 4, scope := 5, ord := 1, ty := 7, off := 8 }),
    (0x7800C40063800000, .put { mem0 with g := 0, gs := false, d := 3, a := 4, scope := 1, ord := 2, ty := 7 }),
    (0x7C01460033800000, .ldsc { mem0 with g := 0, gs := false, d := 5, a := 6, ord := 3, ty := 7 }),
    (0x7E028B3033000000, .amoSc { mem0 with g := 0, gs := false, d := 0xA, a := 0xB, b := 0xC, ord := 3, ty := 6 })] = true := by decide +kernel
theorem test_printed_words2 : reads [
    (0x8001870000200000, .mfc { rrr0 with g := 0, gs := false, d := 6, a := 7, func := 2 }),
    (0x81024A2C00000000, .colqRd { rrr0 with g := 0, gs := false, d := 9, a := 0xA, b := 0xB }),
    (0x8502041400100000, .rcalm { rrr0 with g := 0, gs := false, d := 8, a := 4, b := 5, func := 1 }),
    (0x8700041460000000, .rinj { rrr0 with g := 0, gs := false, a := 4, b := 5, c := 6 }),
    (0x90000518C0000000, .sbind { str0 with g := 0, gs := false, a := 5, b := 6, sid := 3 }),
    (0x9100070000014000, .sstart { str0 with g := 0, gs := false, a := 7, smask := 5 }),
    (0x9300000000048140, .sbar { str0 with g := 0, gs := false, smask := 0x12, func := 5 }),
    (0xA000051801680000, .wload { mtx0 with g := 0, gs := false, a := 5, b := 6, ty := 0xB, w := 2 }),
    (0xA200072001690080, .mma { mtx0 with g := 0, gs := false, a := 7, b := 8, ty := 0xB, w := 2, acc := 1, imm := 0x80 }),
    (0xA3000001512C0000, .mmas { mtx0 with g := 0, gs := false, func := 0x54, ty := 9, w := 3 }),
    (0xA100040000010080, .mscl { mtx0 with g := 0, gs := false, a := 4, acc := 1, imm := 0x80 }),
    (0xA501800000010501, .ard { mtx0 with g := 0, gs := false, d := 6, acc := 1, imm := 0x501 }),
    (0xA6000C0004004040, .awr { mtx0 with g := 0, gs := false, a := 0xC, func := 1, imm := 0x4040 }),
    (0xA700090000020000, .asave { mtx0 with g := 0, gs := false, a := 9, acc := 2 }),
    (0xB001400200400000, .nalloc { net0 with g := 0, gs := false, d := 5, pa := 2, kind := 0x10 }),
    (0xB201810000001400, .nld { net0 with g := 0, gs := false, d := 6, a := 1, func := 5 }),
    (0xB300051C00001400, .nst { net0 with g := 0, gs := false, a := 5, b := 7, func := 5 }),
    (0xB400050880000800, .nlink { net0 with g := 0, gs := false, a := 5, b := 2, pb := 2, func := 2 }),
    (0xB601460000000000, .npop { net0 with g := 0, gs := false, d := 5, a := 6 }),
    (0xB7024A2C00000000, .nruleLook { net0 with g := 0, gs := false, d := 9, a := 0xA, b := 0xB }),
    (0xC001461C00008000, .tlbi { sys0 with g := 0, gs := false, d := 5, a := 6, b := 7, func := 2 }),
    (0xC1024A2C00000000, .tlbw { sys0 with g := 0, gs := false, d := 9, a := 0xA, b := 0xB }),
    (0xC801461C00300000, .msend { rrr0 with g := 0, gs := false, d := 5, a := 6, b := 7, func := 3 }),
    (0xCB00040000100000, .mrecvCfg { rrr0 with g := 0, gs := false, a := 4, func := 1 }),
    (0xD202400004C00000, .mfs { sys0 with g := 0, gs := false, d := 9, sreg := 0x13 }),
    (0xD300060001000000, .mts { sys0 with g := 0, gs := false, a := 6, sreg := 4 }),
    (0xD202400005000013, .mfs { sys0 with g := 0, gs := false, d := 9, sreg := 0x14, imm := 0x13 }),
    (0xD400000000000007, .sysc { sys0 with g := 0, gs := false, imm := 7 }),
    (0xD700145400000000, .rsave { sys0 with g := 0, gs := false, a := 0x14, b := 0x15 }),
    (0xD700005400004000, .rsave { sys0 with g := 0, gs := false, b := 0x15, func := 1 }),
    (0xD800145400000000, .rrest { sys0 with g := 0, gs := false, a := 0x14, b := 0x15 })] = true := by decide +kernel

/-! ## Terms that are not well formed: one for each check -/

/-- The guard `(!p0)`; a v field of 32; a p field of 8; a field that must be zero; a type, a function, a rounding mode and saturation that the
entry does not list; and what each format adds. -/
theorem test_ill_formed : ([
    .add { rrr with gs := true }, .vadd { vec with a := 32 }, .pcmp { rrr with d := 8 }, .add { rrr with c := 1 }, .br { brx with d := 1 }, .ret { brx with a := 1, off := 1 },
    .add { rrr with ty := 8 }, .fadd rrr, .add { rrr with func := 1 }, .cmp { rrr with func := 6 }, .add { rrr with rm := 1 }, .mulh { rrr with sat := true },
    .fcvt { rrr with func := 13, ty := 8, b := 0 }, .fcvt { rrr with func := 4, ty := 4, rm := 1, b := 0 }, .fcvt { rrr with func := 8, ty := 9, sat := true, b := 0 },
    .plog { rrr with ty := 0, func := 5 }, .pmov { rrr with ty := 0, func := 4 }, .lreg { rrr with ty := 0, func := 8 },
    .shli { rri with imm := 64 }, .movi { rri with a := 1 }, .movhi { rri with imm := 0x1000000 },
    .ld { mem with b := 1 }, .ld { mem with sh := 1 }, .ld { mem with scope := 1 }, .ld { mem with ord := 1 }, .ld { mem with ty := 11 }, .lda mem, .stl { mem with ord := 1 },
    .lda { mem with ord := 1, scope := 7 }, .st { mem with func := 1, ty := 1 }, .ldf { mem with func := 2 }, .vgath mem, .vscat { mem with ix := true, func := 8 },
    .cflush { mem with ty := 0, func := 2, d := 0 }, .invalCb { mem with d := 0, ty := 0, func := 1 }, .pf { mem with ty := 0, d := 0, func := 2 },
    .amo { mem with ix := true }, .amo { mem with ord := 1, scope := 7 }, .amo { mem with scope := 1 }, .amo { mem with ty := 3 }, .amo { mem with func := 7 },
    .amof { mem with func := 3, ty := 8 }, .cas { mem with func := 1 }, .red { mem with ord := 1, d := 0 }, .bupd { mem with d := 8, b := 3, ty := 8 }, .take { mem with ord := 2 },
    .ldsc mem, .stsc { mem with ord := 3, scope := 1 }, .amoSc { mem with ord := 2 }, .waita { mem with func := 6 },
    .vand { vec with ty := 4 }, .vadd { vec with imm := 1 }, .vshl { vec with func := 1, b := 0, imm := 32 }, .vshl { vec with func := 2 }, .vcmp { vec with func := 6 },
    .vsel { vec with ty := 0, m := 1 }, .vred { vec with b := 0, z := true }, .vbcast { vec with ty := 0, func := 1, b := 0, imm := 32 }, .vext { vec with b := 0, m := 0, imm := 32 },
    .vcvt { vec with func := 8, ty := 12, b := 0, m := 0, imm := 4 }, .vrsqs { vec with b := 0, ty := 9 },
    .wload { mtx with ty := 8, acc := 0, imm := 0 }, .mscl { mtx with imm := 0 }, .mma { mtx with ty := 9, imm := 0x7F02 }, .mmas { mtx with a := 0, ty := 9, imm := 1 },
    .ard { mtx with a := 0, imm := 2 }, .aclr { mtx with a := 0, func := 2 }, .awr { mtx with func := 2 },
    .sstart str, .sbar { str with smask := 1, func := 7 }, .sbind { str with smask := 1 }, .spos { str with func := 3 },
    .nalloc net, .nld { net with func := 8 }, .nlink { net with func := 4 }, .npop { net with d := 1, a := 1 }, .nfree { net with kind := 1 },
    .mfs { sys with sreg := 9 }, .mts { sys with sreg := 0x13 }, .mfs { sys with sreg := 0x14, imm := 64 }, .fence { sys with imm := 7 }, .fence { sys with func := 4 },
    .statrd { sys with imm := 4 }, .tlbi { sys with func := 3 }, .halt { sys with imm := 1 }, .sysc { sys with a := 1 }] : List Instr).all (fun i => !i.wf) = true := by
  decide +kernel
/-- R36: format, rounding, saturation, finite, tag policy, operand count, cin, opx, const, sources missing, unused and doubled, outputs, share. -/
theorem test_ill_formed_configurations : ([
    .addE { ecfg with fmt := 2 }, .addE { ecfg with rm := 1 }, .faddE { ecfg with fmt := 2, sat := true }, .addE { ecfg with fin := true }, .addE { ecfg with tagp := 2 },
    .addE { ecfg with nin := 1 }, .addE { ecfg with cin := 4 }, .addE { ecfg with cin := 3 }, .constE { ecfg with nin := 1, q1 := 0, cin := 1 }, .cmpE { ecfg with opx := 6 },
    .addE { ecfg with const := 1 }, .loopE ecfg, .addE { ecfg with q1 := 0 }, .addE { ecfg with q2 := 3 }, .addE { ecfg with cin := 1 }, .addE { ecfg with q1 := 1 },
    .addE { ecfg with out0 := 0 }, .addE { ecfg with out1 := 1 }, .addE { ecfg with share := 65 }] : List Instr).all (fun i => !i.wf) = true ∧
    Instr.wf (.addE ecfg) = true := by decide +kernel
/-- An unassigned opcode, a word of zeros, a header, reserved bits, `.off` of COLQ and NRULE: each is refused under its name. -/
theorem test_refused_words :
    ([(0, DecodeError.unassigned), (0x08, .unassigned), (0x2E, .unassigned), (0x5F, .unassigned), (0xFF, .unassigned), (0x01, .header), (0xCB, .reserved)].all
      fun q => match decodeCore (BitVec.ofNat 64 (q.1 * 2 ^ 56 + (if q.1 == 0xCB then 1 else 0))) with | .error e => e == q.2 | .ok _ => false) = true ∧
    (match decodeCore 0x8100000000300000 with | .error e => e == .field | .ok _ => false) = true ∧
    (match decodeCore 0x1001C82400021001 with | .error e => e == .reserved | .ok _ => false) = true ∧
    (match decodeElem 0 with | .error _ => true | .ok _ => false) = true := by decide +kernel

/-! ## Single steps, with results from the manual or worked out by hand from its rules -/

def after (i : Instr) (s : State) : State := match exec i s with | .next t => t | _ => s
/-- R74: the low w bits, sign-extended; `.sat` clamps: 0x7F + 1 in 8 bits. -/
theorem test_add_wraps_and_saturates :
    (after (.add { rrr with ty := 0 }) (world 0 [(6, 0x7F), (7, 1)])).x 5 = 0xFFFFFFFFFFFFFF80 ∧
    (after (.add { rrr with ty := 0, sat := true }) (world 0 [(6, 0x7F), (7, 1)])).x 5 = 0x7F ∧
    (after (.add { rrr with ty := 1 }) (world 0 [(6, 0xFF), (7, 1)])).x 5 = 0 ∧ (after (.add { rrr with d := 0 }) w0).x 0 = 0 := by decide +kernel
/-- The high half of (2^64 - 2) × 3 = 3 × 2^64 - 6 is 2 unsigned, of -2 × 3 is -1 signed. -/
theorem test_mulh : (after (.mulh { rrr with ty := 7 }) w0).x 5 = 2 ∧ (after (.mulh { rrr with ty := 6 }) w0).x 5 = 0xFFFFFFFFFFFFFFFF := by decide +kernel
/-- The source is also the destination: x6 := 3 - x6 = 5. -/
theorem test_sub_in_place : (after (.sub { rrr with d := 6, a := 7, b := 6 }) w0).x 6 = 5 := by decide +kernel
/-- The printed values of FCVT and FRCPS: 500.0 to 0x7E, 3.0 to 0x3EAA_A800. -/
theorem test_converter_examples :
    (after (.fcvt { rrr with func := 8, ty := 11, b := 0, sat := true }) (world 0 [(6, 0x43FA0000)])).x 5 = 0x7E ∧
    (after (.frcps { rrr with ty := 8, b := 0 }) (world 0 [(6, 0x40400000)])).x 5 = 0x3EAAA800 := by decide +kernel
/-- Chapter 5's sum: 2^24, 1.0, 1.0, -2^24 in lanes 0 to 3 under p1 = 0xF gives 1.0. -/
theorem test_vred_example :
    (after (.vred { vec with ty := 8, b := 0 }) (w0.setW { w0.w with
      p := [(1, 15)], v := [(6, 0xCB8000003F8000003F8000004B800000)] })).x 5 = 0x3F800000 := by decide +kernel
/-- The printed draws of DRAW.n32 and DRAW.f32, and PENAL's: 2.0 with count 3 under #0x3F00_3F80 gives -0.5. The result leaves to the east. -/
def east (op : BitVec 8) (c : ElemCfg) (i : Instr) (toks : List Token) : Option W32 :=
  let t := after i (el op { c with out0 := 2 } [] toks)
  (Sp.find? (t.elem 1).links 4).map (·.value)
theorem test_element_examples :
    east 0x45 { one with fmt := 1 } (.drawE { one with fmt := 1, out0 := 2 }) [tok 0 1] = some 0x6627E8D5 ∧
    east 0x45 { one with fmt := 2 } (.drawE { one with fmt := 2, out0 := 2 }) [tok 0 1] = some 0x3ECC4FD0 ∧
    east 0x46 { ecfg with fmt := 2, const := 0x3F003F80 } (.penalE { ecfg with fmt := 2, const := 0x3F003F80, out0 := 2 }) [tok 0x40000000 2, tok 3 1] = some 0xBF000000 ∧
    east 0x10 ecfg (.addE { ecfg with out0 := 2 }) [tok 0xFFFFFFFF 0, tok 2 0] = some 1 := by decide +kernel
/-- R24: a word stored little-endian; R98: a byte of the pad is sign-extended by `.s8`, zero-extended by `.n8`. -/
theorem test_load_extends :
    (after (.ld { mem with ty := 0 }) (wPad.writeBytes 0 (padHome 0 0) [0x80])).x 5 = 0xFFFFFFFFFFFFFF80 ∧
    (after (.ld { mem with ty := 3 }) (wPad.writeBytes 0 (padHome 0 0) [0x80, 0x01])).x 5 = 0x180 := by decide +kernel
/-- R283, Table 19.2: a load whose address is no multiple of its size traps with cause 0x08 and the address; the core goes to S at tvec. -/
theorem test_misaligned_load_traps :
    (let t := after (.ld { mem with off := 1 }) wPad
     t.me.regs.tcause = 0x08 ∧ t.me.regs.tval = 0x01FFFFFFFFF80001 ∧ t.me.regs.tblock = 0x200000 ∧ t.me.lvlS = true ∧ t.me.blk.isOpen = false) := by decide +kernel
/-- A step runs the word: ADDI x4, x4, #-8 takes 8 to 0; behind a false guard nothing changes but the place in the block. -/
theorem test_step : (match step (wWord addiWord) with | .next t => t.x 4 == 0 && t.me.blk.idx == 2 | _ => false) = true ∧
    (match step (wWord addiNot) with | .next t => t.x 4 == 8 && t.me.blk.idx == 2 | _ => false) = true := by decide +kernel
/-- R331, R348: CRC-32C of the digits 1 to 9, the check value of its definition. -/
theorem test_crc32c : crc32c [0x31, 0x32, 0x33, 0x34, 0x35, 0x36, 0x37, 0x38, 0x39] = 0xE3069283 := by decide +kernel
/-- R129, R133: the bank adds 3 to the doubleword and answers the old value. -/
theorem test_bank_adds : (let t := after (.bankOperation 0) (wOp (some 5) (.amo 0 6 3))
    t.readVal 0 pageHomeAddr 8 = (wOp (some 5) (.amo 0 6 3)).readVal 0 pageHomeAddr 8 + 3) := by decide +kernel
/-- A byte written over twice and written back to what an unlisted byte reads as leaves no entry. -/
theorem test_memory_canonical : ((w0.writeBytes 5 pageHomeAddr [1, 2]).writeBytes 5 pageHomeAddr [0, 0]).mem = w0.mem ∧
    ((w0.writeBytes 5 (pageHomeAddr + 1) [2]).writeBytes 5 pageHomeAddr [1]).mem = (w0.writeBytes 5 pageHomeAddr [1, 2]).mem := by decide +kernel

end Sys2Proof.Tests
end

section
/-!
PROOFS of family 02. The words of an instruction and what they decode to (02 R24, R27, R35).
-/
namespace Sys2Proof.Laws.Encoding

/-- The table of the instructions with words, each by its own law; what is left are the events, which have none. -/
theorem statement (i : Instr) : Statement i := by
  cases i with
  | add o => exact Encoding.add o
  | sub o => exact Encoding.sub o
  | mul o => exact Encoding.mul o
  | mulh o => exact Encoding.mulh o
  | div o => exact Encoding.div o
  | rem o => exact Encoding.rem o
  | and o => exact Encoding.and o
  | or o => exact Encoding.or o
  | xor o => exact Encoding.xor o
  | shl o => exact Encoding.shl o
  | shr o => exact Encoding.shr o
  | sar o => exact Encoding.sar o
  | min o => exact Encoding.min o
  | max o => exact Encoding.max o
  | cmp o => exact Encoding.cmp o
  | sel o => exact Encoding.sel o
  | pcmp o => exact Encoding.pcmp o
  | plog o => exact Encoding.plog o
  | pmov o => exact Encoding.pmov o
  | lreg o => exact Encoding.lreg o
  | fadd o => exact Encoding.fadd o
  | fsub o => exact Encoding.fsub o
  | fmul o => exact Encoding.fmul o
  | fdiv o => exact Encoding.fdiv o
  | fma o => exact Encoding.fma o
  | fmin o => exact Encoding.fmin o
  | fmax o => exact Encoding.fmax o
  | fcmp o => exact Encoding.fcmp o
  | fcvt o => exact Encoding.fcvt o
  | frsqs o => exact Encoding.frsqs o
  | frcps o => exact Encoding.frcps o
  | cpy o => exact Encoding.cpy o
  | cpy2 o => exact Encoding.cpy2 o
  | mfc o => exact Encoding.mfc o
  | colqRd o => exact Encoding.colqRd o
  | colqOpen o => exact Encoding.colqOpen o
  | colqClose o => exact Encoding.colqClose o
  | rpurge o => exact Encoding.rpurge o
  | rload o => exact Encoding.rload o
  | rarm o => exact Encoding.rarm o
  | rcalm o => exact Encoding.rcalm o
  | rtear o => exact Encoding.rtear o
  | rinj o => exact Encoding.rinj o
  | vnset o => exact Encoding.vnset o
  | steerset o => exact Encoding.steerset o
  | vnrd o => exact Encoding.vnrd o
  | msend o => exact Encoding.msend o
  | mmask o => exact Encoding.mmask o
  | munmask o => exact Encoding.munmask o
  | mrecvPop o => exact Encoding.mrecvPop o
  | mrecvCfg o => exact Encoding.mrecvCfg o
  | mrecvSt o => exact Encoding.mrecvSt o
  | mrecvFree o => exact Encoding.mrecvFree o
  | addi o => exact Encoding.addi o
  | andi o => exact Encoding.andi o
  | ori o => exact Encoding.ori o
  | xori o => exact Encoding.xori o
  | shli o => exact Encoding.shli o
  | shri o => exact Encoding.shri o
  | sari o => exact Encoding.sari o
  | movi o => exact Encoding.movi o
  | movhi o => exact Encoding.movhi o
  | br o => exact Encoding.br o
  | brr o => exact Encoding.brr o
  | call o => exact Encoding.call o
  | callr o => exact Encoding.callr o
  | ret o => exact Encoding.ret o
  | loop o => exact Encoding.loop o
  | lea o => exact Encoding.lea o
  | vld o => exact Encoding.vld o
  | vst o => exact Encoding.vst o
  | vgath o => exact Encoding.vgath o
  | vscat o => exact Encoding.vscat o
  | ld o => exact Encoding.ld o
  | st o => exact Encoding.st o
  | lda o => exact Encoding.lda o
  | stl o => exact Encoding.stl o
  | ldf o => exact Encoding.ldf o
  | pf o => exact Encoding.pf o
  | cflush o => exact Encoding.cflush o
  | cinv o => exact Encoding.cinv o
  | invalCb o => exact Encoding.invalCb o
  | waita o => exact Encoding.waita o
  | amo o => exact Encoding.amo o
  | amof o => exact Encoding.amof o
  | cas o => exact Encoding.cas o
  | red o => exact Encoding.red o
  | redf o => exact Encoding.redf o
  | bupd o => exact Encoding.bupd o
  | bfill o => exact Encoding.bfill o
  | take o => exact Encoding.take o
  | put o => exact Encoding.put o
  | rdf o => exact Encoding.rdf o
  | clrp o => exact Encoding.clrp o
  | pstat o => exact Encoding.pstat o
  | ldsc o => exact Encoding.ldsc o
  | stsc o => exact Encoding.stsc o
  | amoSc o => exact Encoding.amoSc o
  | casSc o => exact Encoding.casSc o
  | vadd o => exact Encoding.vadd o
  | vsub o => exact Encoding.vsub o
  | vmul o => exact Encoding.vmul o
  | vmin o => exact Encoding.vmin o
  | vmax o => exact Encoding.vmax o
  | vand o => exact Encoding.vand o
  | vor o => exact Encoding.vor o
  | vxor o => exact Encoding.vxor o
  | vshl o => exact Encoding.vshl o
  | vshr o => exact Encoding.vshr o
  | vsar o => exact Encoding.vsar o
  | vfadd o => exact Encoding.vfadd o
  | vfsub o => exact Encoding.vfsub o
  | vfmul o => exact Encoding.vfmul o
  | vfma o => exact Encoding.vfma o
  | vfmin o => exact Encoding.vfmin o
  | vfmax o => exact Encoding.vfmax o
  | vcmp o => exact Encoding.vcmp o
  | vsel o => exact Encoding.vsel o
  | vred o => exact Encoding.vred o
  | vperm o => exact Encoding.vperm o
  | vbcast o => exact Encoding.vbcast o
  | vext o => exact Encoding.vext o
  | vins o => exact Encoding.vins o
  | vcvt o => exact Encoding.vcvt o
  | vrsqs o => exact Encoding.vrsqs o
  | vrcps o => exact Encoding.vrcps o
  | wload o => exact Encoding.wload o
  | mscl o => exact Encoding.mscl o
  | mma o => exact Encoding.mma o
  | mmas o => exact Encoding.mmas o
  | aclr o => exact Encoding.aclr o
  | ard o => exact Encoding.ard o
  | awr o => exact Encoding.awr o
  | asave o => exact Encoding.asave o
  | sbind o => exact Encoding.sbind o
  | sstart o => exact Encoding.sstart o
  | sclose o => exact Encoding.sclose o
  | sbar o => exact Encoding.sbar o
  | spos o => exact Encoding.spos o
  | sdone o => exact Encoding.sdone o
  | nalloc o => exact Encoding.nalloc o
  | nfree o => exact Encoding.nfree o
  | nld o => exact Encoding.nld o
  | nst o => exact Encoding.nst o
  | nlink o => exact Encoding.nlink o
  | npush o => exact Encoding.npush o
  | npop o => exact Encoding.npop o
  | nruleLook o => exact Encoding.nruleLook o
  | nruleSet o => exact Encoding.nruleSet o
  | nruleInv o => exact Encoding.nruleInv o
  | statrd o => exact Encoding.statrd o
  | fence o => exact Encoding.fence o
  | tlbi o => exact Encoding.tlbi o
  | tlbw o => exact Encoding.tlbw o
  | trap o => exact Encoding.trap o
  | eret o => exact Encoding.eret o
  | mfs o => exact Encoding.mfs o
  | mts o => exact Encoding.mts o
  | sysc o => exact Encoding.sysc o
  | bkpt o => exact Encoding.bkpt o
  | halt o => exact Encoding.halt o
  | rsave o => exact Encoding.rsave o
  | rrest o => exact Encoding.rrest o
  | passE o => exact Encoding.passE o
  | constE o => exact Encoding.constE o
  | steerE o => exact Encoding.steerE o
  | mergeE o => exact Encoding.mergeE o
  | loopE o => exact Encoding.loopE o
  | callE o => exact Encoding.callE o
  | retE o => exact Encoding.retE o
  | addE o => exact Encoding.addE o
  | subE o => exact Encoding.subE o
  | mulE o => exact Encoding.mulE o
  | minE o => exact Encoding.minE o
  | maxE o => exact Encoding.maxE o
  | andE o => exact Encoding.andE o
  | orE o => exact Encoding.orE o
  | xorE o => exact Encoding.xorE o
  | shlE o => exact Encoding.shlE o
  | shrE o => exact Encoding.shrE o
  | cmpE o => exact Encoding.cmpE o
  | selE o => exact Encoding.selE o
  | faddE o => exact Encoding.faddE o
  | fsubE o => exact Encoding.fsubE o
  | fmulE o => exact Encoding.fmulE o
  | fmaE o => exact Encoding.fmaE o
  | fminE o => exact Encoding.fminE o
  | fmaxE o => exact Encoding.fmaxE o
  | fcmpE o => exact Encoding.fcmpE o
  | cvtE o => exact Encoding.cvtE o
  | accE o => exact Encoding.accE o
  | mloadE o => exact Encoding.mloadE o
  | mstoreE o => exact Encoding.mstoreE o
  | mrmwE o => exact Encoding.mrmwE o
  | sdivE o => exact Encoding.sdivE o
  | sexp2E o => exact Encoding.sexp2E o
  | slog2E o => exact Encoding.slog2E o
  | ssinE o => exact Encoding.ssinE o
  | stabE o => exact Encoding.stabE o
  | statE o => exact Encoding.statE o
  | commitE o => exact Encoding.commitE o
  | routeE o => exact Encoding.routeE o
  | spaddE o => exact Encoding.spaddE o
  | topkE o => exact Encoding.topkE o
  | cumsE o => exact Encoding.cumsE o
  | drawE o => exact Encoding.drawE o
  | penalE o => exact Encoding.penalE o
  | adptE o => exact Encoding.adptE o
  | vaneE o => exact Encoding.vaneE o
  | _ => exact fun h => absurd rfl h

end Sys2Proof.Laws.Encoding

namespace Sys2Proof.Proofs
open Sys2Proof Sys2Proof.Machine

/-- Settles O53, by the table of the instructions' own laws. -/
theorem decodeEncodeRoundTrip : Obligations.DecodeEncodeRoundTrip := Laws.Encoding.statement

/-- A word that is written for a well-formed instruction decodes to it. -/
theorem decodeCore_of_encode {w : W64} {i : Instr} (he : encode i = .core w) (hw : i.wf = true) : decodeCore w = .ok i := by
  have h := decodeEncodeRoundTrip i (by simp [he]) hw
  rwa [he] at h

/-- Settles O54: each word is the one written for its instruction, so it decodes to it by the round trip. -/
theorem wordsDecode : Obligations.WordsDecode := by
  unfold Obligations.WordsDecode
  refine ⟨?_, ?_, ?_, ?_, ?_, ?_, ?_, ?_, ?_, ?_⟩ <;> exact decodeCore_of_encode rfl rfl

end Sys2Proof.Proofs
end

section
/-!
PROOFS of family 02. The guard of a core instruction (02 R25, 04 R68): where it stands, that every well-formed instruction has a legal
one, and that a false one leaves the state as it was.
-/
namespace Sys2Proof

/-- The guard fields of a core instruction; an element operation and an event have none (02 R25, R35). -/
def Instr.guardFields : Instr → Option (BitVec 3 × Bool)
  | .add o | .sub o | .mul o | .mulh o | .div o | .rem o | .and o | .or o | .xor o | .shl o | .shr o | .sar o | .min o | .max o | .cmp o
  | .sel o | .pcmp o | .plog o | .pmov o | .lreg o | .fadd o | .fsub o | .fmul o | .fdiv o | .fma o | .fmin o | .fmax o | .fcmp o
  | .fcvt o | .frsqs o | .frcps o | .cpy o | .cpy2 o | .mfc o | .colqRd o | .colqOpen o | .colqClose o | .rpurge o | .rload o | .rarm o
  | .rcalm o | .rtear o | .rinj o | .vnset o | .steerset o | .vnrd o | .msend o | .mmask o | .munmask o | .mrecvPop o | .mrecvCfg o
  | .mrecvSt o | .mrecvFree o =>
    some (o.g, o.gs)
  | .addi o | .andi o | .ori o | .xori o | .shli o | .shri o | .sari o | .movi o | .movhi o =>
    some (o.g, o.gs)
  | .br o | .brr o | .call o | .callr o | .ret o | .loop o =>
    some (o.g, o.gs)
  | .lea o | .vld o | .vst o | .vgath o | .vscat o | .ld o | .st o | .lda o | .stl o | .ldf o | .pf o | .cflush o | .cinv o | .invalCb o
  | .waita o | .amo o | .amof o | .cas o | .red o | .redf o | .bupd o | .bfill o | .take o | .put o | .rdf o | .clrp o | .pstat o
  | .ldsc o | .stsc o | .amoSc o | .casSc o =>
    some (o.g, o.gs)
  | .vadd o | .vsub o | .vmul o | .vmin o | .vmax o | .vand o | .vor o | .vxor o | .vshl o | .vshr o | .vsar o | .vfadd o | .vfsub o
  | .vfmul o | .vfma o | .vfmin o | .vfmax o | .vcmp o | .vsel o | .vred o | .vperm o | .vbcast o | .vext o | .vins o | .vcvt o
  | .vrsqs o | .vrcps o =>
    some (o.g, o.gs)
  | .wload o | .mscl o | .mma o | .mmas o | .aclr o | .ard o | .awr o | .asave o =>
    some (o.g, o.gs)
  | .sbind o | .sstart o | .sclose o | .sbar o | .spos o | .sdone o =>
    some (o.g, o.gs)
  | .nalloc o | .nfree o | .nld o | .nst o | .nlink o | .npush o | .npop o | .nruleLook o | .nruleSet o | .nruleInv o =>
    some (o.g, o.gs)
  | .statrd o | .fence o | .tlbi o | .tlbw o | .trap o | .eret o | .mfs o | .mts o | .sysc o | .bkpt o | .halt o | .rsave o | .rrest o =>
    some (o.g, o.gs)
  | _ => none

/-! Every check of a format's fields has the guard's among them (02 R25). -/

theorem RRR.guardOk_of_ok {o : RRR} {d a b c : Field} {func ty rm sat : Bool}
    (h : o.ok d a b c func ty rm sat = true) : guardOk o.g o.gs = true := by
  simp only [RRR.ok, Bool.and_eq_true] at h
  simp [h]
theorem RRI.guardOk_of_ok {o : RRI} {a : Field} {imm : Bool}
    (h : o.ok a imm = true) : guardOk o.g o.gs = true := by
  simp only [RRI.ok, Bool.and_eq_true] at h
  simp [h]
theorem BRX.guardOk_of_ok {o : BRX} {d a : Field} {off : Bool}
    (h : o.ok d a off = true) : guardOk o.g o.gs = true := by
  simp only [BRX.ok, Bool.and_eq_true] at h
  simp [h]
theorem MEM.guardOk_of_ok {o : MEM} {d : Field} {scope ord ty func : Bool}
    (h : o.ok d scope ord ty func = true) : guardOk o.g o.gs = true := by
  simp only [MEM.ok, Bool.and_eq_true] at h
  simp [h]
theorem MEM.guardOk_of_amo {o : MEM} {d b : Field} {ord ty func : Bool}
    (h : o.amo d b ord ty func = true) : guardOk o.g o.gs = true := by
  simp only [MEM.amo, Bool.and_eq_true] at h
  simp [h]
theorem VEC.guardOk_of_ok {o : VEC} {d a b c : Field} {func ty rm sat mask imm : Bool}
    (h : o.ok d a b c func ty rm sat mask imm = true) : guardOk o.g o.gs = true := by
  simp only [VEC.ok, Bool.and_eq_true] at h
  simp [h]
theorem MTX.guardOk_of_ok {o : MTX} {d a b : Field} {func ty w acc sp imm : Bool}
    (h : o.ok d a b func ty w acc sp imm = true) : guardOk o.g o.gs = true := by
  simp only [MTX.ok, Bool.and_eq_true] at h
  simp [h]
theorem STR.guardOk_of_ok {o : STR} {d a b : Field} {sid smask func : Bool}
    (h : o.ok d a b sid smask func = true) : guardOk o.g o.gs = true := by
  simp only [STR.ok, Bool.and_eq_true] at h
  simp [h]
theorem NET.guardOk_of_ok {o : NET} {d a b : Field} {pa pb kind func : Bool}
    (h : o.ok d a b pa pb kind func = true) : guardOk o.g o.gs = true := by
  simp only [NET.ok, Bool.and_eq_true] at h
  simp [h]
theorem SYS.guardOk_of_ok {o : SYS} {d a b : Field} {sreg func imm : Bool}
    (h : o.ok d a b sreg func imm = true) : guardOk o.g o.gs = true := by
  simp only [SYS.ok, Bool.and_eq_true] at h
  simp [h]

/-- 02 R25: no well-formed instruction has guard 0 with sense 1. -/
theorem Instr.guardOk_of_wf {i : Instr} {g : BitVec 3} {gs : Bool} (hg : i.guardFields = some (g, gs)) (h : i.wf = true) :
    guardOk g gs = true := by
  cases i with
  | add o | sub o | mul o | mulh o | div o | rem o | and o | or o | xor o | shl o | shr o | sar o | min o | max o | cmp o | sel o
  | pcmp o | plog o | fadd o | fsub o | fmul o | fdiv o | fma o | fmin o | fmax o | fcmp o | fcvt o | frsqs o | frcps o | cpy o | cpy2 o
  | mfc o | colqRd o | colqOpen o | colqClose o | rpurge o | rload o | rarm o | rcalm o | rtear o | rinj o | vnset o | steerset o
  | vnrd o | msend o | mmask o | munmask o | mrecvPop o | mrecvCfg o | mrecvSt o | mrecvFree o =>
    cases hg
    exact RRR.guardOk_of_ok h
  | addi o | andi o | ori o | xori o | shli o | shri o | sari o | movi o | movhi o =>
    cases hg
    exact RRI.guardOk_of_ok h
  | br o | brr o | call o | callr o | ret o | loop o =>
    cases hg
    exact BRX.guardOk_of_ok h
  | lea o | vld o | vst o | ld o | st o | lda o | stl o | ldf o | pf o | cflush o | cinv o | invalCb o | take o | put o | rdf o | clrp o
  | pstat o | ldsc o | stsc o =>
    cases hg
    exact MEM.guardOk_of_ok h
  | vadd o | vsub o | vmul o | vmin o | vmax o | vand o | vor o | vxor o | vshl o | vshr o | vsar o | vfadd o | vfsub o | vfmul o
  | vfma o | vfmin o | vfmax o | vcmp o | vsel o | vred o | vperm o | vbcast o | vext o | vins o | vcvt o | vrsqs o | vrcps o =>
    cases hg
    exact VEC.guardOk_of_ok h
  | wload o | mscl o | mma o | mmas o | aclr o | ard o | awr o | asave o =>
    cases hg
    exact MTX.guardOk_of_ok h
  | sbind o | sstart o | sclose o | sbar o | spos o | sdone o =>
    cases hg
    exact STR.guardOk_of_ok h
  | nalloc o | nfree o | nld o | nst o | nlink o | npush o | nruleLook o | nruleSet o | nruleInv o =>
    cases hg
    exact NET.guardOk_of_ok h
  | statrd o | fence o | tlbi o | tlbw o | trap o | eret o | mfs o | mts o | sysc o | bkpt o | halt o | rsave o | rrest o =>
    cases hg
    exact SYS.guardOk_of_ok h
  | waita o | amo o | amof o | cas o | red o | redf o | bupd o | bfill o | amoSc o | casSc o =>
    cases hg
    exact MEM.guardOk_of_amo h
  | pmov o | lreg o =>
    cases hg
    simp only [Instr.wf] at h
    split at h <;> exact RRR.guardOk_of_ok h
  | vgath o | vscat o =>
    cases hg
    simp only [Instr.wf, Bool.and_eq_true] at h
    simp [h]
  | npop o =>
    cases hg
    exact NET.guardOk_of_ok (Bool.and_eq_true .. ▸ h).1
  | _ => cases hg

end Sys2Proof

namespace Sys2Proof.Machine

/-- Every format has the guard in the same bits, and every word is read through its format. -/
theorem coreInstr_guardFields {op : Nat} {w : W64} {i : Instr} (h : coreInstr op w = some i) : i.guardFields = some (wordGuard w) := by
  unfold coreInstr at h
  -- by opcode, and by function where several instructions share one
  repeat' split at h
  all_goals cases h
  all_goals rfl

/-- What decodes is a word's instruction by its opcode, and well formed (02 R34). -/
theorem decodeCore_inv {w : W64} {i : Instr} (h : decodeCore w = .ok i) : (∃ op, coreInstr op w = some i) ∧ i.wf = true := by
  simp only [decodeCore] at h
  repeat' split at h
  all_goals cases h
  exact ⟨⟨_, ‹_›⟩, ‹_›⟩

theorem decodeCore_guardFields {w : W64} {i : Instr} (h : decodeCore w = .ok i) : i.guardFields = some (wordGuard w) := by
  obtain ⟨⟨_, hi⟩, _⟩ := decodeCore_inv h
  exact coreInstr_guardFields hi

theorem decodeCore_guardOk {w : W64} {i : Instr} (h : decodeCore w = .ok i) : guardOk (wordGuard w).1 (wordGuard w).2 = true :=
  Instr.guardOk_of_wf (decodeCore_guardFields h) (decodeCore_inv h).2

/-- Bits [55:52] of value 1 are guard 0 with sense 1. -/
theorem wordGuard_of_reserved {w : W64} (h : w.extractLsb' 52 4 = 1) : wordGuard w = (0, true) := by
  have field : w.extractLsb' 53 3 = (w.extractLsb' 52 4).extractLsb' 1 3 := by
    ext k hk
    simp [BitVec.getElem_extractLsb', show 1 + k < 4 by omega, ← Nat.add_assoc]
  have sense : w.getLsbD 52 = (w.extractLsb' 52 4).getLsbD 0 := by simp
  rw [wordGuard, field, sense, h]
  rfl

theorem checkedOpen_off {g : BitVec 3} {gs : Bool} {s : State} (f : State → Except XF State) (h : s.guard g gs = false) :
    checkedOpen g gs s f = .next s := by
  simp [checkedOpen, h]

theorem fpForm_off {o : RRR} {s : State} {f : Fp.Val → Fp.Val → Fp.Val × Bool} (h : s.guard o.g o.gs = false) :
    fpForm o s f = .next s := by
  apply plain_off
  exact h

theorem execRload_off {o : RRR} {s : State} (h : s.guard o.g o.gs = false) : execRload o s = .next s := by
  simp [execRload, h]

/-- 04 R68: every core instruction's meaning stands behind its guard, in one of the shared wrappers. -/
theorem exec_off {i : Instr} {g : BitVec 3} {gs : Bool} {s : State} (hg : i.guardFields = some (g, gs)) (h : s.guard g gs = false) :
    exec i s = .next s := by
  cases i with
  | add o | sub o | mul o | mulh o | div o | rem o | and o | or o | xor o | shl o | shr o | sar o | min o | max o | cmp o | sel o
  | pcmp o | plog o | pmov o | fadd o | fsub o | fmul o | fdiv o | fmin o | fmax o | fcmp o | fcvt o | frsqs o | frcps o | mfc o
  | mmask o | munmask o | mrecvPop o | mrecvSt o | mrecvFree o | addi o | andi o | ori o | xori o | shli o | shri o | sari o | movi o
  | movhi o | br o | brr o | call o | callr o | ret o | lea o | pf o | cflush o | cinv o | vadd o | vsub o | vmul o | vmin o | vmax o
  | vand o | vor o | vxor o | vshl o | vshr o | vsar o | vfadd o | vfsub o | vfmul o | vfma o | vfmin o | vfmax o | vcmp o | vsel o
  | vred o | vperm o | vbcast o | vext o | vins o | vcvt o | vrsqs o | vrcps o | sclose o | sbar o | nruleInv o | statrd o | fence o
  | eret o | mfs o | sysc o | halt o =>
    cases hg
    apply plain_off
    exact h
  | lreg o | cpy o | cpy2 o | colqRd o | colqOpen o | colqClose o | rpurge o | rtear o | rinj o | vnset o | steerset o | vnrd o
  | msend o | mrecvCfg o | loop o | vld o | vst o | vgath o | vscat o | ld o | st o | lda o | stl o | ldf o | invalCb o | waita o
  | amo o | amof o | cas o | red o | redf o | bupd o | bfill o | take o | put o | rdf o | clrp o | pstat o | ldsc o | stsc o | amoSc o
  | casSc o | wload o | mscl o | mma o | mmas o | aclr o | ard o | awr o | asave o | sbind o | sstart o | spos o | sdone o | nalloc o
  | nfree o | nld o | nst o | nlink o | npush o | npop o | nruleLook o | nruleSet o | tlbi o | tlbw o | mts o | bkpt o
  | rsave o | rrest o =>
    cases hg
    apply checked_off
    exact h
  | rarm o | rcalm o =>
    cases hg
    apply checkedOpen_off
    exact h
  | rload o => cases hg; exact execRload_off h
  | trap o => cases hg; exact (exec_trap o s).trans (checked_off _ h)
  | fma o => cases hg; exact (exec_fma o s).trans (fpForm_off h)
  | _ => cases hg

end Sys2Proof.Machine

namespace Sys2Proof.Proofs
open Sys2Proof Sys2Proof.Machine

/-- Settles O56: the guard's bits are those of the instruction, and every core instruction's meaning stands behind them. -/
theorem falseGuardHasNoEffect : Obligations.FalseGuardHasNoEffect := by
  unfold Obligations.FalseGuardHasNoEffect
  intro w i s
  refine ⟨fun _ _ => rfl, rfl, fun hw => ?reserved, fun hd hg => exec_off (decodeCore_guardFields hd) hg⟩
  case reserved =>
    cases hd : decodeCore w with
    | error e => exact ⟨e, rfl⟩
    | ok i =>
      have legal := decodeCore_guardOk hd
      rw [wordGuard_of_reserved hw] at legal
      cases legal

end Sys2Proof.Proofs
end

section
/-!
PROOFS of family 02. A step of a core with an open block, of an element and of the agenda (02 R29 to R31, 04 R57), and the check of a
whole block (02 R31).
-/
namespace Sys2Proof.Machine

/-! ## A step of a core with an open block (02 R29 to R31, 04 R57) -/

/-- What lets the core whose turn it is run the next word of its open block. -/
structure State.AtWord (s : State) (w : W64) : Prop where
  agenda : s.agenda = []
  powered : s.powered = true
  agent : s.agent = .core
  notReset : s.me.run ≠ .reset
  notStopped : s.me.run ≠ .stopped
  trap : s.me.pendTrap = none
  remote : s.me.rreq = none
  walk : s.me.walkWait = false
  entered : s.me.inTrap = false
  opened : s.blk.isOpen = true
  closing : s.blk.closing = false
  waits : s.blk.wait = .none
  quiet : s.me.irq = none ∨ s.reserving s.cur = false
  word : s.blk.words[s.blk.idx]? = some w

theorem step_runWord {s : State} {w : W64} (h : s.AtWord w) : step s = s.runWord w := by
  have uninterrupted : (s.reserving s.cur && s.me.irq.isSome) = false := by
    rcases h.quiet with hq | hq <;> simp [hq]
  simp [step, State.advanceWorld, State.coreStep, uninterrupted, h.agenda, h.powered, h.agent, h.notReset, h.notStopped, h.trap,
    h.remote, h.walk, h.entered, h.opened, h.closing, h.waits, h.word]

theorem State.runWord_on {s : State} {w : W64} {i : Instr} (hd : decodeCore w = .ok i)
    (hg : s.guard (wordGuard w).1 (wordGuard w).2 = true) (hb : s.badSource (wordGuard w).1 i = none) (hr : s.ready i = true) :
    s.runWord w = exec i (s.begun i true) := by
  simp [State.runWord, hd, hg, hb, hr]

theorem State.runWord_off {s : State} {w : W64} {i : Instr} (hd : decodeCore w = .ok i)
    (hg : s.guard (wordGuard w).1 (wordGuard w).2 = false) (hb : Sp.get false s.w.bad (128 + (wordGuard w).1.toNat) = false) :
    s.runWord w = exec i (s.begun i false) := by
  simp [State.runWord, hd, hg, hb]

@[simp] theorem State.blk_begun (s : State) (i : Instr) (on : Bool) : (s.begun i on).blk =
    { s.blk with idx := s.blk.idx + 1, granted := s.blk.granted || (on && isWait i),
                 remote := if s.blk.remoteAt == s.blk.idx + 1 then s.blk.remote else [] } := State.blk_setBlk ..

@[simp] theorem State.w_begun (s : State) (i : Instr) (on : Bool) : (s.begun i on).w = s.w := by
  show (s.begun i on).blk.w = s.w
  rw [State.blk_begun]
  rfl

theorem step_elem {s : State} {i : Instr} (ha : s.agenda = []) (hp : s.powered = true) (hg : s.agent = .elem)
    (hi : elemInstr (s.slot s.curElem.toNat s.curSlot.toNat).op.toNat (s.slot s.curElem.toNat s.curSlot.toNat).cfg = some i) :
    step s = exec i s := by
  simp [step, State.advanceWorld, State.elemStep, ha, hp, hg, hi]

theorem step_event {s : State} {i : Instr} {rest : List Turn} (ha : s.agenda = .event i :: rest) (hp : s.powered = true)
    (hi : i.opcode = 0) : step s = exec i { s with agenda := rest } := by
  simp [step, State.advanceWorld, State.turn, ha, hp, hi]

/-! ## The check of a block (02 R31) -/

section
variable {fetch : Nat → Except XF W64} {lvlS rule : Bool} {q : Seen} {va n : Nat} {w : W64} {i : Instr}

/-- The word at an address passes the check, as an instruction that its block and its level allow. -/
structure WordPasses (fetch : Nat → Except XF W64) (lvlS rule : Bool) (q : Seen) (va : Nat) (w : W64) (i : Instr) : Prop where
  fetched : fetch va = .ok w
  decoded : decodeCore w = .ok i
  allowed : q.allows rule i = true
  level : i.priv = false ∨ lvlS = true

theorem checkWords_unfetched {e : XF} (h : fetch va = .error e) : checkWords fetch lvlS rule q va (n + 1) = .error e := by
  simp [checkWords, h]

theorem checkWords_undecoded {d : DecodeError} (hf : fetch va = .ok w) (hd : decodeCore w = .error d) :
    checkWords fetch lvlS rule q va (n + 1) = .error (.fault 1 0 (w64 va)) := by
  simp [checkWords, hf, hd]

theorem checkWords_misplaced (hf : fetch va = .ok w) (hd : decodeCore w = .ok i) (ha : q.allows rule i = false) :
    checkWords fetch lvlS rule q va (n + 1) = .error (.fault 1 0 (w64 va)) := by
  simp [checkWords, hf, hd, ha]

theorem checkWords_privileged (hf : fetch va = .ok w) (hd : decodeCore w = .ok i) (ha : q.allows rule i = true)
    (hp : i.priv = true) (hl : lvlS = false) : checkWords fetch lvlS rule q va (n + 1) = .error (.fault 2 0 (w64 va)) := by
  simp [checkWords, hf, hd, ha, hp, hl]

/-- A word that passes stands before the words behind it. -/
theorem checkWords_passed (h : WordPasses fetch lvlS rule q va w i) : checkWords fetch lvlS rule q va (n + 1) =
    (checkWords fetch lvlS rule (q.next i) (va + 8) n).map (w :: ·) := by
  have level : (i.priv && !lvlS) = false := by rcases h.level with hl | hl <;> simp [hl]
  simp only [checkWords, h.fetched, h.decoded, h.allowed, level, Bool.not_true, Bool.false_eq_true, if_false]
  cases checkWords fetch lvlS rule (q.next i) (va + 8) n <;> rfl

/-- A word passes, or the check ends at it, with the fault of its fetch or one of the two codes and its address. -/
theorem passes_or_checkWords_error (fetch : Nat → Except XF W64) (lvlS rule : Bool) (q : Seen) (va n : Nat) :
    (∃ w i, WordPasses fetch lvlS rule q va w i) ∨
    ∃ e, checkWords fetch lvlS rule q va (n + 1) = .error e ∧
      (fetch va = .error e ∨ e = .fault 1 0 (w64 va) ∨ e = .fault 2 0 (w64 va)) := by
  cases hf : fetch va with
  | error e => exact .inr ⟨e, checkWords_unfetched hf, .inl rfl⟩
  | ok w =>
    cases hd : decodeCore w with
    | error d => exact .inr ⟨_, checkWords_undecoded hf hd, .inr (.inl rfl)⟩
    | ok i =>
      cases ha : q.allows rule i with
      | false => exact .inr ⟨_, checkWords_misplaced hf hd ha, .inr (.inl rfl)⟩
      | true =>
        cases hp : i.priv with
        | false => exact .inl ⟨w, i, hf, hd, ha, .inl hp⟩
        | true =>
          cases hl : lvlS with
          | true => exact .inl ⟨w, i, hf, hd, ha, .inr rfl⟩
          | false => exact .inr ⟨_, checkWords_privileged hf hd ha hp rfl, .inr (.inr rfl)⟩

/-- The words of an accepted block are the fetched ones, and each of them passes its check at its place. -/
theorem checkWords_ok {l : List W64} (h : checkWords fetch lvlS rule q va n = .ok l) :
    l.length = n ∧ ∀ (k : Nat) (w : W64), l[k]? = some w → ∃ q i, WordPasses fetch lvlS rule q (va + 8 * k) w i := by
  induction n generalizing q va l with
  | zero =>
    cases h
    simp
  | succ n ih =>
    rcases passes_or_checkWords_error fetch lvlS rule q va n with ⟨w, i, hw⟩ | ⟨e, he, _⟩
    · rw [checkWords_passed hw] at h
      cases hr : checkWords fetch lvlS rule (q.next i) (va + 8) n with
      | error e => simp [hr, Except.map] at h
      | ok t =>
        obtain rfl : w :: t = l := by simpa [hr, Except.map] using h
        obtain ⟨hlen, hall⟩ := ih hr
        refine ⟨by simp [hlen], fun k v hk => ?_⟩
        cases k with
        | zero =>
          obtain rfl : w = v := by simpa using hk
          exact ⟨q, i, hw⟩
        | succ k =>
          have hv := hall k v (by simpa using hk)
          rwa [show va + 8 + 8 * k = va + 8 * (k + 1) by omega] at hv
    · rw [he] at h
      cases h

/-- The fault of a block that is refused is that of the fetch of one of its words, or code 1 or 2 with the word's address. -/
theorem checkWords_error {e : XF} (h : checkWords fetch lvlS rule q va n = .error e) :
    ∃ k, k < n ∧ (fetch (va + 8 * k) = .error e ∨ e = .fault 1 0 (w64 (va + 8 * k)) ∨ e = .fault 2 0 (w64 (va + 8 * k))) := by
  induction n generalizing q va with
  | zero => cases h
  | succ n ih =>
    rcases passes_or_checkWords_error fetch lvlS rule q va n with ⟨w, i, hw⟩ | ⟨f, hf, why⟩
    · rw [checkWords_passed hw] at h
      cases hr : checkWords fetch lvlS rule (q.next i) (va + 8) n with
      | error f =>
        obtain rfl : f = e := by simpa [hr, Except.map] using h
        obtain ⟨k, hk, why⟩ := ih hr
        rw [show va + 8 + 8 * k = va + 8 * (k + 1) by omega] at why
        exact ⟨k + 1, by omega, why⟩
      | ok t => simp [hr, Except.map] at h
    · obtain rfl : f = e := by simpa [hf] using h
      exact ⟨0, by omega, why⟩

end

/-! ## Places and counts in a block (04 R60, R61, R65, R67) -/

theorem Seen.exits_next (q : Seen) (i : Instr) : (q.next i).exits = q.exits + if isExit i = true then 1 else 0 := by
  simp [Seen.next, b2n]
theorem Seen.waits_next (q : Seen) (i : Instr) : (q.next i).waits = q.waits + if isWait i = true then 1 else 0 := by
  simp [Seen.next, b2n]

theorem Seen.count_kinds_next (q : Seen) (i : Instr) (kind : Nat) :
    (q.next i).kinds.count kind = q.kinds.count kind + if (limited i).map (·.1) = some kind then 1 else 0 := by
  cases h : limited i with
  | none => simp [Seen.next, h]
  | some l => simp [Seen.next, h, List.count_cons]

/-- The rules of place and count that an allowed word keeps. -/
structure Seen.Room (q : Seen) (rule : Bool) (i : Instr) : Prop where
  body : isExit i = false → q.exits = 0 ∧ q.waits = 0
  exit : isExit i = true → q.exits < 2 ∧ rule = false
  limit : ∀ kind most, limited i = some (kind, most) → q.kinds.count kind < most

theorem Seen.room_of_allows {q : Seen} {rule : Bool} {i : Instr} (h : q.allows rule i = true) : q.Room rule i := by
  simp only [Seen.allows, Bool.and_eq_true] at h
  obtain ⟨⟨⟨⟨⟨⟨⟨⟨exits, two⟩, waits⟩, rules⟩, limits⟩, -⟩, -⟩, -⟩, -⟩ := h
  constructor
  case body =>
    intro he
    simpa [he] using And.intro exits waits
  case exit =>
    intro he
    simpa [he] using And.intro two rules
  case limit =>
    intro kind most hl
    simpa [hl] using limits

theorem Seen.not_allows {q : Seen} {rule : Bool} {i : Instr} (h : ¬ q.Room rule i) : q.allows rule i = false :=
  Bool.eq_false_iff.2 fun ha => h (Seen.room_of_allows ha)

end Sys2Proof.Machine

namespace Sys2Proof.Proofs
open Sys2Proof Sys2Proof.Machine

/-- Settles O55: the step's tests, passed one by one, leave the instruction of the next word. -/
theorem stepRunsDecodedInstruction : Obligations.StepRunsDecodedInstruction := by
  unfold Obligations.StepRunsDecodedInstruction
  intro s i w g c
  refine ⟨fun ha hp hg hreset hstop htrap hrem hwalk hent hopen hclose hwait hquiet hw hd => ?_,
    fun ha hp hg hi => step_elem ha hp hg hi, fun rest ha hp hi => step_event ha hp hi⟩
  have at_word : s.AtWord w := ⟨ha, hp, hg, hreset, hstop, htrap, hrem, hwalk, hent, hopen, hclose, hwait, hquiet, hw⟩
  rw [step_runWord at_word]
  refine ⟨State.runWord_on hd, State.runWord_off hd, ?_⟩
  simp only [State.blk_begun, State.w_begun]
  refine ⟨rfl, trivial, rfl, fun hne => if_neg fun h => hne (eq_of_beq h)⟩

/-- Settles O57, by induction on the words of the block: one lemma says what an accepted list is, one what a refused one names. -/
theorem blockIsCheckedWhole : Obligations.BlockIsCheckedWhole := by
  unfold Obligations.BlockIsCheckedWhole
  intro fetch lvlS rule q va n
  refine ⟨?accepted, ?refused, fun e => checkWords_unfetched, ?first, ?counts, ?places⟩
  case accepted =>
    intro l hl
    obtain ⟨hlen, hall⟩ := checkWords_ok hl
    refine ⟨hlen, fun k w hk => ?_⟩
    obtain ⟨_, i, hw⟩ := hall k w hk
    exact ⟨hw.fetched, i, hw.decoded, fun hp => hw.level.resolve_left (by simp [hp])⟩
  case refused =>
    intro code lvl v h
    obtain ⟨k, hk, hf | he | he⟩ := checkWords_error h
    · exact ⟨k, hk, .inl hf⟩
    · cases he
      exact ⟨k, hk, .inr ⟨.inl rfl, rfl, rfl⟩⟩
    · cases he
      exact ⟨k, hk, .inr ⟨.inr rfl, rfl, rfl⟩⟩
  case first =>
    intro w hf
    refine ⟨fun d => checkWords_undecoded hf, fun i => checkWords_misplaced hf, fun i => checkWords_privileged hf,
      fun i hd ha hl => ?_⟩
    rw [checkWords_passed ⟨hf, hd, ha, hl⟩]
    exact ⟨fun e he => by rw [he]; rfl, fun l hl => by rw [hl]; rfl⟩
  case counts => exact fun i => ⟨q.exits_next i, q.waits_next i, q.count_kinds_next i⟩
  case places =>
    intro i
    refine ⟨fun he hr => Seen.not_allows fun room => ?_, fun he h2 => Seen.not_allows fun room => ?_,
      fun he h1 => Seen.not_allows fun room => ?_, fun kind most hl hm => Seen.not_allows fun room => ?_⟩
    · simpa [hr] using (room.exit he).2
    · have := (room.exit he).1
      omega
    · have := room.body he
      omega
    · have := room.limit kind most hl
      omega

end Sys2Proof.Proofs
end

section
/-!
PROOFS of family 05. What a form that cannot fault answers, and the frame of a write of one register (04 R54, R56, R68).
-/
namespace Sys2Proof.Machine
open Sys2Proof.Says

theorem sameOutside_setW (s : State) (r : Regs) : SameOutside s (s.setW r) :=
  ⟨⟨r, rfl⟩, State.blk_held_setW s r, fun _ _ => rfl, fun n hn => State.core_setW_ne s r n hn⟩

theorem wroteX_setX (s : State) (d : BitVec 6) (v : W64) : WroteX s (s.setX d v) d v :=
  ⟨by simp [State.x, Regs.getX_setX], fun a ha => by simp [State.x, Regs.getX_setX, ha], by simp, by simp, by simp [SameSpecial],
    by simp, sameOutside_setW ..⟩

theorem wroteP_setP (s : State) (d : BitVec 6) (v : W32) : WroteP s (s.setP d v) (d.setWidth 3) v :=
  ⟨by simp [Regs.getP_setP], fun q hq => by simp [Regs.getP_setP, hq], by simp [State.x], by simp, by simp [SameSpecial], by simp,
    sameOutside_setW ..⟩

theorem wroteV_setV (s : State) (d : BitVec 6) (v : Line) : WroteV s (s.setV d v) (d.setWidth 5) v :=
  ⟨by simp [Regs.getV_setV], fun q hq => by simp [Regs.getV_setV, hq], by simp [State.x], by simp, by simp [SameSpecial], by simp,
    sameOutside_setW ..⟩

/-- Effects that are held change nothing else (04 R57). -/
theorem holds_holdAll (s : State) (es : List Held) : Holds s (s.holdAll es) es := by
  refine ⟨?_, ?_, ⟨_, rfl⟩, ?_, ?_, fun _ _ => rfl, fun n hn => State.core_setMe_ne s _ n hn⟩
  · simp [State.holdAll]
  · simp [State.holdAll, State.w, State.setBlk]
  · simp [State.holdAll]
  · simp [State.holdAll]

/-- A form that writes one scalar register and cannot fault. -/
theorem givesX_of_plain {i : Instr} {g : BitVec 3} {gs : Bool} {s : State} {d : BitVec 6} {f : State → W64} {v : W64}
    (hx : exec i s = plain g gs s fun s => s.setX d (f s)) (hv : i.wf = true → f s = v) : GivesX i g gs s d v := by
  rintro ⟨hw, hg⟩
  refine ⟨s.setX d v, ?_, wroteX_setX ..⟩
  rw [hx, plain_on _ hg, hv hw]

end Sys2Proof.Machine
end

section
/-!
PROOFS of family 05. Lanes and sub-lanes: a register, a lane or a predicate put together from its parts has those parts (05 R75, R76),
and the sub-lanes of a lane type (05 R78, Table 05.2).
-/
namespace Sys2Proof.Machine
open Sys2Proof.Says

/-! ## Words put together from digits -/

/-- The digits d 0 to d (n − 1) of w bits each, as one number: what the model's folds over `List.range n` compute. -/
def digits (w : Nat) (d : Nat → Nat) (n : Nat) : Nat := (List.range n).foldl (fun a i => a + d i * 2 ^ (w * i)) 0

theorem digits_succ (w : Nat) (d : Nat → Nat) (n : Nat) : digits w d (n + 1) = digits w d n + d n * 2 ^ (w * n) := by
  simp [digits, List.range_succ]

section
variable {w : Nat} {d : Nat → Nat} (hd : ∀ i, d i < 2 ^ w)
include hd

theorem digits_lt (n : Nat) : digits w d n < 2 ^ (w * n) := by
  induction n with
  | zero => simp [digits]
  | succ n ih =>
    calc digits w d (n + 1) < 2 ^ (w * n) + d n * 2 ^ (w * n) := by rw [digits_succ]; omega
      _ = (d n + 1) * 2 ^ (w * n) := by rw [Nat.succ_mul, Nat.add_comm]
      _ ≤ 2 ^ w * 2 ^ (w * n) := Nat.mul_le_mul_right _ (hd n)
      _ = 2 ^ (w * (n + 1)) := by rw [Nat.mul_succ, Nat.pow_add, Nat.mul_comm]

theorem digits_div_mod {n j : Nat} (hj : j < n) : digits w d n / 2 ^ (w * j) % 2 ^ w = d j := by
  induction n with
  | zero => omega
  | succ n ih =>
    rw [digits_succ]
    rcases Nat.lt_succ_iff_lt_or_eq.1 hj with hjn | rfl
    · obtain ⟨k, rfl⟩ := Nat.exists_eq_add_of_lt hjn
      have place : w * (j + k + 1) = w * j + (w + w * k) := by rw [Nat.mul_succ, Nat.mul_add]; omega
      have above : d (j + k + 1) * 2 ^ (w * (j + k + 1)) = 2 ^ (w * j) * (2 ^ w * (d (j + k + 1) * 2 ^ (w * k))) := by
        rw [place, Nat.pow_add, Nat.pow_add, Nat.mul_left_comm, Nat.mul_left_comm (d _)]
      rw [above, Nat.add_mul_div_left _ _ (Nat.two_pow_pos _), Nat.add_mul_mod_self_left, ih hjn]
    · rw [Nat.add_mul_div_right _ _ (Nat.two_pow_pos _), Nat.div_eq_of_lt (digits_lt hd j), Nat.zero_add, Nat.mod_eq_of_lt (hd j)]

/-- Digit j of a word that has room for the digits. -/
theorem extract_digits {n m j : Nat} (hn : w * n ≤ m) (hj : j < n) :
    (BitVec.ofNat m (digits w d n)).extractLsb' (w * j) w = BitVec.ofNat w (d j) := by
  have fits : digits w d n < 2 ^ m := Nat.lt_of_lt_of_le (digits_lt hd n) (Nat.pow_le_pow_right (by decide) hn)
  apply BitVec.eq_of_toNat_eq
  rw [BitVec.extractLsb'_toNat, BitVec.toNat_ofNat, BitVec.toNat_ofNat, Nat.mod_eq_of_lt fits, Nat.shiftRight_eq_div_pow,
    digits_div_mod hd hj, Nat.mod_eq_of_lt (hd j)]

end

@[simp] theorem lane_ofLanes (f : Nat → W32) {l : Nat} (h : l < 32) : lane (ofLanes f) l = f l := by
  have := extract_digits (w := 32) (m := 1024) (fun i => (f i).isLt) (Nat.le_refl _) h
  rwa [BitVec.ofNat_toNat, BitVec.setWidth_eq] at this

/-- 05 R77: an active lane is as the form says, another 0 with `.z` and as it was without. -/
theorem lane_masked (m : W32) (z : Bool) (old : Line) (f : Nat → W32) {l : Nat} (h : l < 32) :
    lane (masked m z old f) l = if m.getLsbD l then f l else if z then 0 else lane old l :=
  lane_ofLanes _ h

theorem getLsbD_laneBits (f : Nat → Bool) {l : Nat} (h : l < 32) : (laneBits f).getLsbD l = f l := by
  have bits : laneBits f = BitVec.ofNat 32 (digits 1 (fun i => (f i).toNat) 32) := by
    unfold laneBits digits w32
    congr 3
    funext a i
    cases hf : f i <;> simp [hf]
  have digit := extract_digits (w := 1) (m := 32) (d := fun i => (f i).toNat) (fun i => Bool.toNat_lt _) (Nat.le_refl _) h
  rw [← bits, Nat.one_mul] at digit
  have := congrArg (·.getLsbD 0) digit
  cases hf : f l <;> simpa [hf] using this

/-- A sub-lane of a lane put together from its sub-lanes is the low bits of what was put there. -/
theorem part_ofSubs {w j : Nat} (f : Nat → Nat) (hw : w ∣ 32) (hj : j * w < 32) : part w (ofSubs w f) j = BitVec.ofNat w (f j) := by
  have room : w * (32 / w) = 32 := Nat.mul_div_cancel' hw
  have hjn : j < 32 / w := Nat.lt_of_mul_lt_mul_left (a := w) (by rwa [room, Nat.mul_comm])
  have := extract_digits (m := 32) (d := fun i => f i % 2 ^ w) (fun i => Nat.mod_lt _ (Nat.two_pow_pos w)) (Nat.le_of_eq room) hjn
  rwa [show BitVec.ofNat w (f j % 2 ^ w) = BitVec.ofNat w (f j) from BitVec.eq_of_toNat_eq (by simp)] at this

theorem sub_eq_part (w : Nat) (v : W32) (j : Nat) : sub w v j = (part w v j).toNat := by
  rw [part, BitVec.extractLsb'_toNat, Nat.shiftRight_eq_div_pow]
  rfl

end Sys2Proof.Machine
end

section
/-!
PROOFS of family 05. The lane types (05 R78, Table 05.2): the width of their sub-lanes and the integers that these hold.
-/
namespace Sys2Proof.Machine
open Sys2Proof.Says

/-! ## The type of a well-formed lane form -/

theorem VEC.ty_of_ok {o : VEC} {d a b c : Field} {func ty rm sat mask imm : Bool}
    (h : o.ok d a b c func ty rm sat mask imm = true) : ty = true := by
  simp only [VEC.ok, Bool.and_eq_true] at h
  simp [h]

theorem VEC.func_of_ok {o : VEC} {d a b c : Field} {func ty rm sat mask imm : Bool}
    (h : o.ok d a b c func ty rm sat mask imm = true) : func = true := by
  simp only [VEC.ok, Bool.and_eq_true] at h
  simp [h]

theorem isVIntTy_cases {ty : BitVec 5} (h : isVIntTy ty = true) :
    ty = 4 ∨ ty = 5 ∨ ty = 0x11 ∨ ty = 0x12 ∨ ty = 0x13 ∨ ty = 0x14 := by
  revert ty
  decide

theorem isVFloatTy_cases {ty : BitVec 5} (h : isVFloatTy ty = true) : ty = 8 ∨ ty = 0xD ∨ ty = 0xE := by
  revert ty
  decide

theorem isLaneTy_cases {ty : BitVec 5} (h : isLaneTy ty = true) : ty = 4 ∨ ty = 5 ∨ ty = 8 := by
  revert ty
  decide

theorem partWidth_cases (ty : BitVec 5) : partWidth ty = 8 ∨ partWidth ty = 16 ∨ partWidth ty = 32 := by
  revert ty
  decide

theorem partWidth_dvd (ty : BitVec 5) : partWidth ty ∣ 32 := by
  rcases partWidth_cases ty with h | h | h <;> rw [h] <;> decide

theorem tyBits_subTy {ty : BitVec 5} (h : isVIntTy ty = true) : Fp.tyBits (subTy ty.toNat) = partWidth ty := by
  rcases isVIntTy_cases h with rfl | rfl | rfl | rfl | rfl | rfl <;> rfl

/-! ## Integers of a type -/

/-- The integer that a word of an integer type holds: signed by an even code, unsigned by an odd one (02 R21). -/
theorem Fp.intOf_toNat {t w : Nat} (hw : Fp.tyBits t = w) (hp : 0 < w) (v : BitVec w) :
    Fp.intOf t v.toNat = if t % 2 = 0 then v.toInt else (v.toNat : Int) := by
  obtain ⟨k, rfl⟩ : ∃ k, w = k + 1 := ⟨w - 1, by omega⟩
  have half : 2 ^ (k + 1) = 2 * 2 ^ k := Nat.pow_succ'
  simp only [Fp.intOf, hw, BitVec.toInt_eq_toNat_cond, Nat.mod_eq_of_lt v.isLt, Nat.add_sub_cancel, Bool.and_eq_true, beq_iff_eq,
    decide_eq_true_eq]
  by_cases even : t % 2 = 0
  · by_cases top : 2 ^ k ≤ v.toNat
    · have : ¬ 2 * v.toNat < 2 ^ (k + 1) := by omega
      simp [even, top, this]
    · have : 2 * v.toNat < 2 ^ (k + 1) := by omega
      simp [even, top, this]
  · simp [even]

theorem Fp.ofNat_low (w : Nat) (n : Int) : BitVec.ofNat w (Fp.low w n) = BitVec.ofInt w n := by
  apply BitVec.eq_of_toNat_eq
  have pos : (0 : Int) < ((2 ^ w : Nat) : Int) := Int.natCast_pos.2 (Nat.two_pow_pos w)
  have nonneg : 0 ≤ n % ((2 ^ w : Nat) : Int) := Int.emod_nonneg _ (Int.ne_of_gt pos)
  have below : n % ((2 ^ w : Nat) : Int) < ((2 ^ w : Nat) : Int) := Int.emod_lt_of_pos _ pos
  rw [BitVec.toNat_ofNat, BitVec.toNat_ofInt, Fp.low]
  exact Nat.mod_eq_of_lt (by omega)

/-- `.sat` takes the nearest value of the type's range (04 R74). -/
theorem Fp.clamp_eq (t : Nat) (n : Int) : Fp.clamp t n = max (Fp.tyMin t) (min (Fp.tyMax t) n) := by
  have order : Fp.tyMin t ≤ Fp.tyMax t := by
    unfold Fp.tyMin Fp.tyMax
    split
    · exact Int.le_trans (Int.neg_nonpos_of_nonneg (Int.natCast_nonneg _)) (Int.natCast_nonneg _)
    · exact Int.natCast_nonneg _
  unfold Fp.clamp
  split
  · omega
  · split <;> omega

/-! ## Sub-lanes of an integer lane type -/

section
variable {ty : BitVec 5} (h : isVIntTy ty = true)
include h

theorem intOf_sub_eq_partInt (v : W32) (j : Nat) :
    Fp.intOf (subTy ty.toNat) (sub (partWidth ty) v j) = partInt ty v j := by
  have wide : 0 < partWidth ty := by rcases partWidth_cases ty with e | e | e <;> omega
  rw [sub_eq_part, Fp.intOf_toNat (tyBits_subTy h) wide, partInt]
  rcases isVIntTy_cases h with rfl | rfl | rfl | rfl | rfl | rfl <;> rfl

theorem clamp_subTy_eq_partClamp (n : Int) : Fp.clamp (subTy ty.toNat) n = partClamp ty n := by
  rw [Fp.clamp_eq]
  rcases isVIntTy_cases h with rfl | rfl | rfl | rfl | rfl | rfl <;> rfl

end

end Sys2Proof.Machine
end

section
/-!
PROOFS of family 05. The lane forms (05 R77, R79, R86, R87): one lemma for each shared form, from which each instruction's clause follows.
-/
namespace Sys2Proof.Machine
open Sys2Proof.Says

variable {i : Instr} {o : VEC} {s : State}

/-- A lane form whose active lanes are as `P` says. -/
theorem givesLanes_of_laneForm {f : State → Nat → W32} {P : Nat → W32 → Prop} (hx : exec i s = laneForm o s f)
    (hP : i.wf = true → ∀ l, l < 32 → P l (f s l)) : GivesLanes i o s P := by
  rintro ⟨hw, hg⟩
  refine ⟨_, _, hx.trans (plain_on _ hg), wroteV_setV .., fun l hl => ?_⟩
  rw [lane_masked _ _ _ _ hl]
  by_cases active : (s.w.getP o.m).getLsbD l = true
  · simpa [State.mask, active] using hP hw l hl
  · simp [State.mask, active]

theorem givesInts_of_vintForm {f : Int → Int → Int} (hx : exec i s = vintForm o s f) (hty : i.wf = true → isVIntTy o.ty = true) :
    GivesInts i o s f := by
  refine givesLanes_of_laneForm hx fun hw l _ j hj => ?_
  have int := hty hw
  simp only [tyBits_subTy int, intOf_sub_eq_partInt int, clamp_subTy_eq_partClamp int]
  rw [part_ofSubs _ (partWidth_dvd _) hj, Fp.ofNat_low]

/-- A shift form whose operation on the sub-lane's bits is `g` on the sub-lane. -/
theorem givesShift_of_vshiftForm {f : Nat → Nat → Nat → Nat} {g : {w : Nat} → BitVec w → Nat → BitVec w}
    (hx : exec i s = vshiftForm o s f) (hty : i.wf = true → isVIntTy o.ty = true)
    (hfg : ∀ (w : Nat) (a : BitVec w) (k : Nat), BitVec.ofNat w (f w a.toNat k) = g a k) : GivesShift i o s g := by
  refine givesLanes_of_laneForm hx fun hw l _ j hj => ?_
  simp only [tyBits_subTy (hty hw), sub_eq_part, beq_iff_eq]
  rw [part_ofSubs _ (partWidth_dvd _) hj, hfg]

theorem givesFloats_of_vfpForm {f : Fp.Val → Fp.Val → Fp.Val → Fp.Val} (hx : exec i s = vfpForm o s f)
    (hty : i.wf = true → isVFloatTy o.ty = true) : GivesFloats i o s f := by
  refine givesLanes_of_laneForm hx fun hw l _ j hj => ?_
  have width : Fp.width (Fp.ofTy (subTy o.ty.toNat)) = partWidth o.ty := by
    rcases isVFloatTy_cases (hty hw) with e | e | e <;> rw [e] <;> rfl
  have format : Fp.ofTy (subTy o.ty.toNat) = if o.ty = 8 then .f32 else if o.ty = 0xD then .bf16 else .f16 := by
    rcases isVFloatTy_cases (hty hw) with e | e | e <;> rw [e] <;> rfl
  simp only [width, sub_eq_part]
  rw [part_ofSubs _ (partWidth_dvd _) hj, format]

/-! ## Shifts of a sub-lane (05 R86) -/

theorem ofNat_mul_two_pow (w : Nat) (a : BitVec w) (k : Nat) : BitVec.ofNat w (a.toNat * 2 ^ k) = a <<< k := by
  apply BitVec.eq_of_toNat_eq
  rw [BitVec.toNat_ofNat, BitVec.toNat_shiftLeft, Nat.shiftLeft_eq]

theorem ofNat_div_two_pow (w : Nat) (a : BitVec w) (k : Nat) : BitVec.ofNat w (a.toNat / 2 ^ k) = a >>> k := by
  apply BitVec.eq_of_toNat_eq
  rw [BitVec.toNat_ofNat, BitVec.toNat_ushiftRight, Nat.shiftRight_eq_div_pow]
  exact Nat.mod_eq_of_lt (Nat.lt_of_le_of_lt (Nat.div_le_self ..) a.isLt)

/-- VSAR shifts in ones where the top bit is set. -/
theorem ofNat_sar (w : Nat) (a : BitVec w) (k : Nat) :
    BitVec.ofNat w (if a.toNat ≥ 2 ^ (w - 1) then 2 ^ w - 1 - (2 ^ w - 1 - a.toNat) / 2 ^ k else a.toNat / 2 ^ k) = a.sshiftRight k := by
  apply BitVec.eq_of_toNat_eq
  rw [BitVec.toNat_ofNat, BitVec.toNat_sshiftRight, BitVec.msb_eq_decide]
  simp only [decide_eq_true_eq, Nat.shiftRight_eq_div_pow]
  refine Nat.mod_eq_of_lt ?_
  split
  · exact Nat.lt_of_le_of_lt (Nat.sub_le ..) (Nat.sub_one_lt (Nat.ne_of_gt (Nat.two_pow_pos w)))
  · exact Nat.lt_of_le_of_lt (Nat.div_le_self ..) a.isLt

end Sys2Proof.Machine

namespace Sys2Proof.Proofs
open Sys2Proof Sys2Proof.Machine Sys2Proof.Says

/-- Settles O8: an instruction's clause is that of its shared form, for the operation of its own. -/
theorem vectorIntegerResult : Obligations.VectorIntegerResult := by
  unfold Obligations.VectorIntegerResult
  intro o s
  refine ⟨?vadd, ?vsub, ?vmul, ?vmin, ?vmax, ?vand, ?vor, ?vxor, ?vshl, ?vshr, ?vsar⟩
  case vadd => exact givesInts_of_vintForm (exec_vadd o s) VEC.ty_of_ok
  case vsub => exact givesInts_of_vintForm (exec_vsub o s) VEC.ty_of_ok
  case vmul => exact givesInts_of_vintForm (exec_vmul o s) VEC.ty_of_ok
  case vmin => exact givesInts_of_vintForm (exec_vmin o s) VEC.ty_of_ok
  case vmax => exact givesInts_of_vintForm (exec_vmax o s) VEC.ty_of_ok
  case vand => exact givesLanes_of_laneForm (exec_vand o s) fun _ _ _ => rfl
  case vor => exact givesLanes_of_laneForm (exec_vor o s) fun _ _ _ => rfl
  case vxor => exact givesLanes_of_laneForm (exec_vxor o s) fun _ _ _ => rfl
  case vshl => exact givesShift_of_vshiftForm (exec_vshl o s) VEC.ty_of_ok ofNat_mul_two_pow
  case vshr => exact givesShift_of_vshiftForm (exec_vshr o s) VEC.ty_of_ok ofNat_div_two_pow
  case vsar => exact givesShift_of_vshiftForm (exec_vsar o s) VEC.ty_of_ok ofNat_sar

end Sys2Proof.Proofs
end

section
/-!
PROOFS of family 05. Floating-point lanes, compares, selection and moves of lanes (05 R87 to R89, R92 to R95).
-/
namespace Sys2Proof.Machine
open Sys2Proof.Says

/-- A form that writes every lane of its destination. -/
theorem wroteV_of_ofLanes {i : Instr} {o : VEC} {s : State} {f : State → Nat → W32} {g : Nat → W32}
    (hx : exec i s = plain o.g o.gs s fun s => s.setV o.d (ofLanes (f s))) (hf : ∀ l, f s l = g l) (hr : Runs i o.g o.gs s) :
    ∃ t v, exec i s = .next t ∧ WroteV s t (o.d.setWidth 5) v ∧ ∀ l, l < 32 → lane v l = g l :=
  ⟨_, _, hx.trans (plain_on _ hr.2), wroteV_setV .., fun l hl => (lane_ofLanes _ hl).trans (hf l)⟩

/-! ## Words of the lane types `.s32 .n32 .f32` -/

theorem condInt_eq_holds (c : Nat) (a b : Int) : condInt c a b = holds c a b := by
  match c with
  | 0 | 2 | 3 | 4 | _ + 5 => rfl
  | 1 =>
    rw [Bool.eq_iff_iff]
    simp [condInt, holds]

/-- 05 R88: VCMP reads its lanes as floating-point, signed or unsigned words. -/
theorem condTy_word {ty : BitVec 5} (h : isLaneTy ty = true) (c : Nat) (x y : W32) : condTy ty.toNat c x.toNat y.toNat =
    if ty = 8 then Fp.cond c (Fp.unpack .f32 x.toNat) (Fp.unpack .f32 y.toNat)
    else if ty = 4 then holds c x.toInt y.toInt else holds c x.toNat y.toNat := by
  rcases isLaneTy_cases h with rfl | rfl | rfl
  · simp [condTy, condInt_eq_holds, Fp.intOf_toNat (t := 4) (w := 32) rfl (by decide)]
  · simp [condTy, condInt_eq_holds, Fp.intOf_toNat (t := 5) (w := 32) rfl (by decide)]
  · have whole : ∀ v : W32, v.toNat % 2 ^ Fp.tyBits 8 = v.toNat := fun v => Nat.mod_eq_of_lt v.isLt
    simp [condTy, whole, Fp.ofTy]

/-- A 32-bit word in a scalar register: sign-extended for `.s32`, else zero-extended (04 R74, 03 R50). -/
theorem extTy_word {ty : BitVec 5} (h : isLaneTy ty = true) (v : W32) :
    extTy ty.toNat 32 v.toNat = if ty = 4 then v.signExtend 64 else v.setWidth 64 := by
  have whole := Nat.mod_eq_of_lt v.isLt
  have zero : w64 v.toNat = v.setWidth 64 := BitVec.ofNat_toNat ..
  rcases isLaneTy_cases h with rfl | rfl | rfl
  · apply BitVec.eq_of_toNat_eq
    have small : v.toNat % 18446744073709551616 = v.toNat := by omega
    by_cases top : 2147483648 ≤ v.toNat
    · have room : (v.toNat + 18446744069414584320) % 18446744073709551616 = v.toNat + 18446744069414584320 := by omega
      simp [extTy, whole, w64, BitVec.toNat_signExtend, BitVec.msb_eq_decide, top, small, room]
    · simp [extTy, whole, w64, BitVec.toNat_signExtend, BitVec.msb_eq_decide, top]
  · simp [extTy, whole, zero]
  · simp [extTy, whole, zero]

end Sys2Proof.Machine

namespace Sys2Proof.Proofs
open Sys2Proof Sys2Proof.Machine Sys2Proof.Says

/-- Settles O9: the lane forms by their shared form, the others by the lanes or the word that they write. -/
theorem vectorFloatAndMoveResult : Obligations.VectorFloatAndMoveResult := by
  unfold Obligations.VectorFloatAndMoveResult
  intro o s
  refine ⟨?vfadd, ?vfsub, ?vfmul, ?vfma, ?vfmin, ?vfmax, ?vperm, ?vbcast, ?vcmp, ?vsel, ?vext, ?vins⟩
  case vfadd => exact givesFloats_of_vfpForm (exec_vfadd o s) VEC.ty_of_ok
  case vfsub => exact givesFloats_of_vfpForm (exec_vfsub o s) VEC.ty_of_ok
  case vfmul => exact givesFloats_of_vfpForm (exec_vfmul o s) VEC.ty_of_ok
  case vfma => exact givesFloats_of_vfpForm (exec_vfma o s) VEC.ty_of_ok
  case vfmin => exact givesFloats_of_vfpForm (exec_vfmin o s) VEC.ty_of_ok
  case vfmax => exact givesFloats_of_vfpForm (exec_vfmax o s) VEC.ty_of_ok
  case vperm => exact givesLanes_of_laneForm (exec_vperm o s) fun _ _ _ => rfl
  case vbcast => exact givesLanes_of_laneForm (exec_vbcast o s) fun _ _ _ => by simp only [beq_iff_eq]
  case vcmp =>
    rintro ⟨hw, hg⟩
    refine ⟨_, _, (exec_vcmp o s).trans (plain_on _ hg), wroteP_setP .., fun l hl => ?_⟩
    rw [getLsbD_laneBits _ hl, condTy_word (VEC.ty_of_ok hw)]
    rfl
  case vsel => exact wroteV_of_ofLanes (exec_vsel o s) fun _ => rfl
  case vext => exact givesX_of_plain (exec_vext o s) fun hw => extTy_word (VEC.ty_of_ok hw) _
  case vins => exact wroteV_of_ofLanes (exec_vins o s) fun _ => by simp only [beq_iff_eq]

end Sys2Proof.Proofs
end

section
/-!
PROOFS of family 05. The reduction tree (05 R90, R91): the model's levels of pairs are the nodes of the tree, and where the operation is
associative the tree is a fold in lane order.
-/
namespace Sys2Proof.Machine
open Sys2Proof.Says

/-! ## The levels of pairs are the tree's nodes -/

section
variable {α β : Type} (op : α → α → α) (leaf : Nat → Option α)

/-- One level of pairs over the 2n nodes of a level from node 2a up gives the n nodes above them. -/
theorem reduceLevel_nodes (k n a : Nat) : reduceLevel op ((List.range' (2 * a) (2 * n)).map (treeNode op leaf k)) =
    (List.range' a n).map (treeNode op leaf (k + 1)) := by
  induction n generalizing a with
  | zero => rfl
  | succ n ih =>
    have pair (t : List (Option α)) : reduceLevel op (treeNode op leaf k (2 * a) :: treeNode op leaf k (2 * a + 1) :: t) =
        treeNode op leaf (k + 1) a :: reduceLevel op t := by
      rw [treeNode]
      cases treeNode op leaf k (2 * a) <;> cases treeNode op leaf k (2 * a + 1) <;> rfl
    rw [show 2 * (n + 1) = 2 * n + 1 + 1 by omega, List.range'_succ, List.range'_succ, List.range'_succ, List.map_cons, List.map_cons,
      List.map_cons, pair, ← ih (a + 1)]
    rfl

theorem reduceLevel_range (k n : Nat) : reduceLevel op ((List.range (2 * n)).map (treeNode op leaf k)) =
    (List.range n).map (treeNode op leaf (k + 1)) := by
  rw [List.range_eq_range', List.range_eq_range']
  exact reduceLevel_nodes op leaf k n 0

/-- Five levels of pairs over the 32 lanes give the root of the tree. -/
theorem treeReduce_eq_treeNode : treeReduce op ((List.range 32).map leaf) = treeNode op leaf 5 0 := by
  have lanes : (List.range 32).map leaf = (List.range (2 * 16)).map (treeNode op leaf 0) := rfl
  rw [treeReduce, lanes, reduceLevel_range op leaf 0 16, reduceLevel_range op leaf 1 8, reduceLevel_range op leaf 2 4,
    reduceLevel_range op leaf 3 2, reduceLevel_range op leaf 4 1]
  rfl

/-- A map that carries one operation to another carries the trees. -/
theorem map_treeNode {f : α → β} {op' : β → β → β} (h : ∀ a b, f (op a b) = op' (f a) (f b)) (k i : Nat) :
    (treeNode op leaf k i).map f = treeNode op' (fun l => (leaf l).map f) k i := by
  induction k generalizing i with
  | zero => rfl
  | succ k ih =>
    simp only [treeNode, ← ih]
    cases treeNode op leaf k (2 * i) <;> cases treeNode op leaf k (2 * i + 1) <;> simp [h]

/-- With an associative operation and its identity for the absent lanes, a node is the fold over its lanes in order. -/
theorem treeNode_getD_eq_foldl [Std.Associative op] (e : α) [Std.LawfulIdentity op e] (k i : Nat) :
    (treeNode op leaf k i).getD e = ((List.range' (2 ^ k * i) (2 ^ k)).map fun l => (leaf l).getD e).foldl op e := by
  induction k generalizing i with
  | zero => simp [treeNode, Std.LawfulLeftIdentity.left_id]
  | succ k ih =>
    have node : (treeNode op leaf (k + 1) i).getD e =
        op ((treeNode op leaf k (2 * i)).getD e) ((treeNode op leaf k (2 * i + 1)).getD e) := by
      rw [treeNode]
      cases treeNode op leaf k (2 * i) <;> cases treeNode op leaf k (2 * i + 1) <;>
        simp [Std.LawfulLeftIdentity.left_id, Std.LawfulRightIdentity.right_id]
    have halves : List.range' (2 ^ (k + 1) * i) (2 ^ (k + 1)) =
        List.range' (2 ^ k * (2 * i)) (2 ^ k) ++ List.range' (2 ^ k * (2 * i + 1)) (2 ^ k) := by
      rw [Nat.mul_succ, List.range'_append_1, Nat.pow_succ, Nat.mul_assoc, Nat.mul_two]
    rw [node, ih, ih, halves, List.map_append, List.foldl_append, ← List.foldl_assoc (op := op),
      Std.LawfulRightIdentity.right_id (op := op)]

end

end Sys2Proof.Machine
end

section
/-!
PROOFS of family 05. VRED (05 R90, R91, Table 05.4): its result by the tree, for FP32, for sums and extremes of integers, and for the
bitwise functions.
-/
namespace Sys2Proof.Machine
open Sys2Proof.Says

/-- A well-formed VRED of a bitwise function has one of three functions, and no `.sat` (05 R91, Table 05.4). -/
theorem vred_bitwise_wf {o : VEC} (hw : (Instr.vred o).wf = true) (h : 3 ≤ o.func.toNat) :
    (o.func.toNat = 3 ∨ o.func.toNat = 4 ∨ o.func.toNat = 5) ∧ o.sat = false := by
  have noSum : (o.func == 0) = false := by
    rw [beq_eq_false_iff_ne]
    rintro e
    simp [e] at h
  simp only [Instr.wf, VEC.ok, noSum, Bool.false_and, Bool.false_or, Bool.and_eq_true, decide_eq_true_eq, Bool.not_eq_true'] at hw
  obtain ⟨⟨⟨⟨⟨⟨-, range, -⟩, -⟩, -⟩, sat⟩, -⟩, -⟩ := hw
  exact ⟨by omega, sat⟩

/-! ## Integers of 32 bits and their registers -/

section
variable {ty : BitVec 5} (h : ty = 4 ∨ ty = 5)
include h

theorem intOf_word (v : W32) : Fp.intOf ty.toNat v.toNat = operand ty (v.setWidth 64) := by
  rcases h with rfl | rfl
  · rw [Fp.intOf_toNat (t := (4 : BitVec 5).toNat) (w := 32) rfl (by decide)]
    simp [operand, signed, width]
  · rw [Fp.intOf_toNat (t := (5 : BitVec 5).toNat) (w := 32) rfl (by decide)]
    simp [operand, signed, width]

theorem ofInt_intOf_word (v : W32) : BitVec.ofInt 32 (Fp.intOf ty.toNat v.toNat) = v := by
  rcases h with rfl | rfl
  · rw [Fp.intOf_toNat (t := (4 : BitVec 5).toNat) (w := 32) rfl (by decide)]
    exact BitVec.ofInt_toInt
  · rw [Fp.intOf_toNat (t := (5 : BitVec 5).toNat) (w := 32) rfl (by decide)]
    simp

theorem extend_word (v : W64) : extend ty v = extTy ty.toNat 32 (v.setWidth 32).toNat := by
  rcases h with rfl | rfl
  · rw [extTy_word rfl]
    rfl
  · rw [extTy_word rfl]
    rfl

theorem satIf_word (sat : Bool) (n : Int) : satIf sat ty n = if sat then Fp.clamp ty.toNat n else n := by
  rw [Fp.clamp_eq]
  rcases h with rfl | rfl <;> rfl

/-- The low 32 bits of an exact integer in their register. -/
theorem extTy_low (n : Int) : extTy ty.toNat 32 (Fp.low 32 n) = extend ty ((BitVec.ofInt 32 n).setWidth 64) := by
  rw [extend_word h, BitVec.setWidth_setWidth_of_le _ (by decide), BitVec.setWidth_eq, BitVec.toNat_ofInt]
  rfl

theorem extend_ofInt (n : Int) : extend ty ((BitVec.ofInt 32 n).setWidth 64) = result ty n := by
  have word : (BitVec.ofInt 64 n).setWidth 32 = BitVec.ofInt 32 n := by
    apply BitVec.eq_of_toNat_eq
    rw [BitVec.toNat_setWidth, BitVec.toNat_ofInt, BitVec.toNat_ofInt]
    omega
  rw [result, extend_word h, extend_word h, word, BitVec.setWidth_setWidth_of_le _ (by decide), BitVec.setWidth_eq]

end

/-! ## The result by the tree -/

/-- Level 0 of the reduction tree (05 R90): lane l, absent where it is inactive. -/
def activeLane (m : W32) (v : Line) (l : Nat) : Option W32 := if m.getLsbD l then some (lane v l) else none

/-- The empty result of an integer reduction (Table 05.4). -/
def emptyResult (fn ty : Nat) : Int := if fn = 1 then Fp.tyMax ty else if fn = 2 then Fp.tyMin ty else if fn = 3 then 0xFFFFFFFF else 0

variable {fn rm : Nat} {sat : Bool} {m : W32} {v : Line}

theorem redFloat_eq_floatStep : redFloat fn rm = floatStep fn rm := by
  funext a b
  match fn with
  | 0 | 1 | _ + 2 => rfl

theorem redResult_float : redResult fn 8 rm sat m v = ((treeNode (floatStep fn rm) (activeLane m v) 5 0).getD
    (if fn = 0 then 0 else if fn = 1 then 0x7F800000 else 0xFF800000)).setWidth 64 := by
  rw [← treeReduce_eq_treeNode, ← redFloat_eq_floatStep]
  match fn with
  | 0 | 1 | _ + 2 => rfl

/-- The integer that VRED combines from the active lanes, read as the type says. -/
def reducedInt (fn ty : Nat) (m : W32) (v : Line) : Int :=
  (treeNode (redInt fn) (fun l => (activeLane m v l).map fun w => Fp.intOf ty w.toNat) 5 0).getD (emptyResult fn ty)

theorem redResult_int {ty : BitVec 5} (h : ty = 4 ∨ ty = 5) : redResult fn ty.toNat rm sat m v =
    extend ty ((BitVec.ofInt 32 (satIf sat ty (reducedInt fn ty.toNat m v))).setWidth 64) := by
  have notFloat : (ty.toNat == 8) = false := by rcases h with rfl | rfl <;> rfl
  rw [← extTy_low h, satIf_word h, reducedInt, ← treeReduce_eq_treeNode]
  unfold redResult
  rw [notFloat]
  dsimp only
  rw [List.map_map]
  match fn with
  | 0 | 1 | 2 | 3 | _ + 4 => rfl

/-! ## Sums and extremes -/

theorem reducedInt_arith {ty : BitVec 5} (h : ty = 4 ∨ ty = 5) (hfn : fn ≤ 2) : reducedInt fn ty.toNat m v =
    (treeNode (fun (a b : Int) => if fn = 0 then a + b else if fn = 1 then min a b else max a b)
      (fun l => if m.getLsbD l then some (operand ty ((lane v l).setWidth 64)) else none) 5 0).getD
      (if fn = 0 then 0 else if ty = 4 then (if fn = 1 then 2 ^ 31 - 1 else -(2 ^ 31)) else if fn = 1 then 2 ^ 32 - 1 else 0) := by
  have leaf : (fun l => (activeLane m v l).map fun w => Fp.intOf ty.toNat w.toNat) =
      fun l => if m.getLsbD l then some (operand ty ((lane v l).setWidth 64)) else none := by
    funext l
    cases hl : m.getLsbD l <;> simp [activeLane, hl, intOf_word h]
  rw [reducedInt, leaf]
  match fn, hfn with
  | 0, _ | 1, _ | 2, _ => rcases h with rfl | rfl <;> rfl

/-! ## Bitwise functions -/

/-- A function of the lanes' bits that is associative, the empty result being its identity, is a fold over the active lanes. -/
theorem reducedInt_bitwise {op : W32 → W32 → W32} {e : W32} [Std.Associative op] [Std.LawfulIdentity op e] {ty : BitVec 5}
    (h : ty = 4 ∨ ty = 5) (hop : ∀ a b, BitVec.ofInt 32 (redInt fn a b) = op (BitVec.ofInt 32 a) (BitVec.ofInt 32 b))
    (he : BitVec.ofInt 32 (emptyResult fn ty.toNat) = e) : BitVec.ofInt 32 (reducedInt fn ty.toNat m v) =
      (List.range 32).foldl (fun r l => if m.getLsbD l then op r (lane v l) else r) e := by
  have leaf : (fun l => ((activeLane m v l).map fun w => Fp.intOf ty.toNat w.toNat).map (BitVec.ofInt 32)) = activeLane m v := by
    funext l
    cases hl : m.getLsbD l <;> simp [activeLane, hl, ofInt_intOf_word h]
  have step : (fun r l => op r ((activeLane m v l).getD e)) = fun r l => if m.getLsbD l then op r (lane v l) else r := by
    funext r l
    cases hl : m.getLsbD l <;> simp [activeLane, hl, Std.LawfulRightIdentity.right_id]
  have lanes : List.range' (2 ^ 5 * 0) (2 ^ 5) = List.range 32 := List.range_eq_range'.symm
  rw [reducedInt, ← Option.getD_map (BitVec.ofInt 32), he, map_treeNode _ _ hop, leaf, treeNode_getD_eq_foldl, List.foldl_map, step,
    lanes]

/-- An operation on the low bits of two integers is the operation on their words. -/
theorem ofInt_low_low (f : Nat → Nat → Nat) (op : W32 → W32 → W32)
    (h : ∀ x y, BitVec.ofNat 32 (f x y) = op (BitVec.ofNat 32 x) (BitVec.ofNat 32 y)) (a b : Int) :
    BitVec.ofInt 32 (f (Fp.low 32 a) (Fp.low 32 b) : Nat) = op (BitVec.ofInt 32 a) (BitVec.ofInt 32 b) := by
  rw [BitVec.ofInt_natCast, h, Fp.ofNat_low, Fp.ofNat_low]

end Sys2Proof.Machine

namespace Sys2Proof.Proofs
open Sys2Proof Sys2Proof.Machine Sys2Proof.Says

/-- Settles O10: the levels of pairs are the tree; the bitwise functions are associative, so that their tree is a fold. -/
theorem vectorReductionResult : Obligations.VectorReductionResult := by
  unfold Obligations.VectorReductionResult
  intro o s
  refine ⟨?float, ?arith, ?bitwise⟩
  case float =>
    intro hty
    refine givesX_of_plain (exec_vred o s) fun _ => ?_
    rw [hty]
    exact redResult_float
  case arith =>
    intro hty hfn
    refine givesX_of_plain (exec_vred o s) fun _ => ?_
    rw [redResult_int hty, extend_ofInt hty, reducedInt_arith hty hfn]
    rfl
  case bitwise =>
    intro hty hfn
    refine givesX_of_plain (exec_vred o s) fun hw => ?_
    obtain ⟨function, unclamped⟩ := vred_bitwise_wf hw hfn
    rw [redResult_int hty, unclamped]
    congr 2
    rcases function with hf | hf | hf <;> rw [hf]
    · exact reducedInt_bitwise (op := (· &&& ·)) (e := BitVec.allOnes 32) hty (ofInt_low_low _ _ fun _ _ => BitVec.ofNat_and) rfl
    · exact reducedInt_bitwise (op := (· ||| ·)) (e := 0#32) hty (ofInt_low_low _ _ fun _ _ => BitVec.ofNat_or) rfl
    · exact reducedInt_bitwise (op := (· ^^^ ·)) (e := 0#32) hty (ofInt_low_low _ _ fun _ _ => BitVec.ofNat_xor) rfl

end Sys2Proof.Proofs
end

section
/-!
PROOFS of family 05. Vector memory (05 R80 to R84): the lanes that a vector load reads, and the stores that a vector store holds.
-/
namespace Sys2Proof.Machine
open Sys2Proof.Says

theorem mem_lanes {m : W32} {l : Nat} : l ∈ Says.lanes m ↔ l < 32 ∧ m.getLsbD l = true := by
  simp [Says.lanes]

/-! ## Vector loads -/

/-- A lane takes what has been read ahead at its address, and else loads its word (05 R81). -/
theorem State.loadLane_ok {s : State} {va : W64} {v : W32} (h : Sp.find? s.blk.lanes va.toNat = some v ∨
    (Sp.find? s.blk.lanes va.toNat = none ∧ ∃ tr bs, s.load va 4 = .ok (tr, bs) ∧ v = BitVec.ofNat 32 (bytesNat bs))) :
    s.loadLane va = .ok v := by
  rcases h with ahead | ⟨absent, tr, bs, hload, rfl⟩
  · simp [State.loadLane, ahead]
  · simp [State.loadLane, absent, hload, w32]

theorem State.loadLanes_ok {s : State} {addr : Nat → W64} {m : W32} {r : Nat → W32} (L : List Nat)
    (h : ∀ l ∈ L, m.getLsbD l = true → s.loadLane (addr l) = .ok (r l)) :
    s.loadLanes addr m L = .ok ((L.filter fun l => m.getLsbD l).map fun l => (l, r l)) := by
  induction L with
  | nil => rfl
  | cons l t ih =>
    have rest := ih fun k hk => h k (List.mem_cons_of_mem _ hk)
    by_cases active : m.getLsbD l = true
    · have here := h l List.mem_cons_self active
      simp [State.loadLanes, active, here, rest]
    · simp [State.loadLanes, active, rest]

theorem Sp.find?_graph {α : Type} (r : Nat → α) {L : List Nat} {k : Nat} (h : k ∈ L) :
    Sp.find? (L.map fun l => (l, r l)) k = some (r k) := by
  induction L with
  | nil => cases h
  | cons l t ih =>
    by_cases hl : l = k
    · simp [Sp.find?, hl]
    · simpa [Sp.find?, hl] using ih (List.mem_of_ne_of_mem (Ne.symm hl) h)

/-- 05 R83, R84: a vector load whose active lanes complete writes them, and the others by R77. -/
theorem vload_answers {i : Instr} {o : MEM} {s : State} {addr : State → Nat → W64} {r : Nat → W32}
    (hx : exec i s = vloadForm o s addr) (hr : ∀ l, l ∈ Says.lanes (s.memMask o) → s.loadLane (addr s l) = .ok (r l))
    (hg : s.guard o.g o.gs = true) :
    ∃ t v, exec i s = .next t ∧ WroteV s.lanesDone t (o.d.setWidth 5) v ∧
      ∀ l, l < 32 → lane v l = if (s.memMask o).getLsbD l then r l else if memZ o then 0 else lane (s.v o.d) l := by
  have loaded := State.loadLanes_ok (List.range 32) fun l hl active => hr l (mem_lanes.2 ⟨List.mem_range.1 hl, active⟩)
  refine ⟨_, _, hx.trans (checked_ok hg (by rw [loaded])), wroteV_setV .., fun l hl => ?_⟩
  rw [lane_masked _ _ _ _ hl]
  by_cases active : (s.memMask o).getLsbD l = true
  · rw [if_pos active, if_pos active, Sp.get]
    exact congrArg (·.getD 0) (Sp.find?_graph r (mem_lanes.2 ⟨hl, active⟩))
  · rw [if_neg active, if_neg active]

/-! ## Vector stores -/

theorem leBytes_eq_map (n v : Nat) : leBytes n v = (List.range n).map fun i => BitVec.ofNat 8 (v / 256 ^ i) := by
  induction n generalizing v with
  | zero => rfl
  | succ n ih =>
    rw [leBytes, ih, List.range_succ_eq_map, List.map_cons, List.map_map]
    simp [Function.comp_def, Nat.div_div_eq_div_mul, Nat.pow_succ']

/-- The model's bytes of a value are its low bytes, the first lowest. -/
theorem leBytes_toNat (n : Nat) (v : W64) : leBytes n v.toNat = low n v := by
  rw [leBytes_eq_map, low]
  refine List.map_congr_left fun i _ => BitVec.eq_of_toNat_eq ?_
  rw [BitVec.extractLsb'_toNat, BitVec.toNat_ofNat, Nat.shiftRight_eq_div_pow, Nat.pow_mul]

/-- The lanes of an ascending list that no higher lane of it overwrites: the highest at each home (05 R82). -/
def highest (home : Nat → Nat) (L : List Nat) : List Nat := L.filter fun l => L.all fun k => k ≤ l || home k != home l

section
variable {home : Nat → Nat} {l : Nat} {t : List Nat}

/-- The lowest lane stores where no other of the list has its home. -/
theorem highest_cons (below : ∀ k ∈ t, l < k) :
    highest home (l :: t) = if t.any fun k => home k == home l then highest home t else l :: highest home t := by
  have keeps : ((l :: t).all fun k => k ≤ l || home k != home l) = !(t.any fun k => home k == home l) := by
    rw [List.all_cons, List.not_any_eq_all_not]
    simp only [Nat.le_refl, decide_true, Bool.true_or, Bool.true_and]
    rw [Bool.eq_iff_iff, List.all_eq_true, List.all_eq_true]
    exact forall₂_congr fun k hk => by simp [Nat.not_le.2 (below k hk)]
  have others : (t.filter fun j => (l :: t).all fun k => k ≤ j || home k != home j) = highest home t := by
    refine List.filter_congr fun j hj => ?_
    simp [Nat.le_of_lt (below j hj)]
  rw [highest, List.filter_cons, others, keeps]
  cases t.any fun k => home k == home l <;> rfl

/-- Each home of the list keeps a lane. -/
theorem any_highest (h : Nat) (sorted : t.Pairwise (· < ·)) :
    ((highest home t).any fun k => home k == h) = t.any fun k => home k == h := by
  induction t with
  | nil => rfl
  | cons l t ih =>
    obtain ⟨below, tail⟩ := List.pairwise_cons.1 sorted
    rw [highest_cons below]
    split
    next taken =>
      rw [ih tail, List.any_cons]
      by_cases hl : home l = h
      · rw [← hl, taken, Bool.or_true]
      · simp [hl]
    next => rw [List.any_cons, List.any_cons, ih tail]

end

/-- The stores of the active lanes, ascending, are those of the highest at each home. -/
theorem State.storeLanes_ok {s : State} {addr : Nat → W64} {v : Line} {m : W32} {tr : Nat → Tr} (L : List Nat)
    (sorted : L.Pairwise (· < ·)) (h : ∀ l ∈ L, m.getLsbD l = true → s.coreAccess (addr l).toNat 4 .w = .ok (tr l)) :
    s.storeLanes addr v m L =
      .ok ((highest (fun l => (tr l).home) (L.filter fun l => m.getLsbD l)).map fun l => (tr l, lane v l)) := by
  induction L with
  | nil => rfl
  | cons l t ih =>
    obtain ⟨below, tail⟩ := List.pairwise_cons.1 sorted
    have rest := ih tail fun k hk => h k (List.mem_cons_of_mem _ hk)
    by_cases active : m.getLsbD l = true
    · have here := h l List.mem_cons_self active
      have taken : ((highest (fun l => (tr l).home) (t.filter fun l => m.getLsbD l)).map fun l => (tr l, lane v l)).any
          (fun q => q.1.home == (tr l).home) = (t.filter fun l => m.getLsbD l).any fun k => (tr k).home == (tr l).home := by
        rw [List.any_map]
        exact any_highest (home := fun l => (tr l).home) _ (tail.filter _)
      rw [State.storeLanes, here, rest, List.filter_cons, if_pos active, highest_cons fun k hk => below k (List.mem_filter.1 hk).1]
      simp only [active, taken, Bool.not_true, Bool.false_eq_true, if_false]
      split <;> rfl
    · simp [State.storeLanes, active, rest]

/-- 05 R82 to R84: a vector store whose active lanes pass their checks holds the stores of the highest at each word. -/
theorem vstore_givesHeld {i : Instr} {o : MEM} {s : State} {addr : State → Nat → W64} {tr : Nat → Tr}
    (hx : exec i s = vstoreForm o s addr)
    (htr : ∀ l, l ∈ Says.lanes (s.memMask o) → s.coreAccess (addr s l).toNat 4 .w = .ok (tr l)) :
    GivesHeld i o.g o.gs s ((highest (fun l => (tr l).home) (Says.lanes (s.memMask o))).map fun l =>
      .store (tr l).home (low 4 ((lane (s.v o.d) l).setWidth 64)) (storeHow (tr l) false) (tr l).key) := by
  rintro ⟨_, hg⟩
  have stores := State.storeLanes_ok (v := s.v o.d) (List.range 32) List.pairwise_lt_range fun l hl active =>
    htr l (mem_lanes.2 ⟨List.mem_range.1 hl, active⟩)
  have word (w : W32) : leBytes 4 w.toNat = low 4 (w.setWidth 64) := by
    rw [← leBytes_toNat, BitVec.toNat_setWidth_of_le (by decide)]
  refine ⟨_, hx.trans (checked_ok hg (by rw [stores])), ?_⟩
  simp only [List.map_map, Function.comp_def, word]
  exact holds_holdAll ..

end Sys2Proof.Machine

namespace Sys2Proof.Proofs
open Sys2Proof Sys2Proof.Machine Sys2Proof.Says

/-- Settles O13: VLD and VGATH share one form and VST and VSCAT another, each with its lanes' addresses. -/
theorem vectorMemoryResult : Obligations.VectorMemoryResult := by
  unfold Obligations.VectorMemoryResult
  intro o s
  have gather (l : Nat) : s.gatherAddr o l = s.x o.a + ((if o.ty = 4 then (lane (s.v o.b) l).signExtend 64
      else (lane (s.v o.b) l).setWidth 64) <<< o.sh.toNat) + o.off.signExtend 64 := by
    simp only [State.gatherAddr, beq_iff_eq]
  refine ⟨?vld, ?vgath, ?vst, ?vscat⟩
  case vld =>
    intro r hr runs
    exact vload_answers (exec_vld o s) (fun l hl => State.loadLane_ok (hr l hl)) runs.2
  case vgath =>
    intro r hr runs
    refine vload_answers (exec_vgath o s) (fun l hl => State.loadLane_ok ?_) runs.2
    rw [gather]
    exact hr l hl
  case vst => exact fun tr htr => vstore_givesHeld (exec_vst o s) htr
  case vscat =>
    intro tr htr
    refine vstore_givesHeld (exec_vscat o s) fun l hl => ?_
    rw [gather]
    exact htr l hl

end Sys2Proof.Proofs
end

section
/-!
PROOFS of family 06. The bytes that a load reads (04 R58, 17 R251), and the register content of loaded bytes (04 R74, 03 R50).
-/
namespace Sys2Proof.Machine
open Sys2Proof.Says

/-! ## The type of a well-formed memory form -/

theorem MEM.ty_of_ok {o : MEM} {d : Field} {scope ord ty func : Bool} (h : o.ok d scope ord ty func = true) : ty = true := by
  simp only [MEM.ok, Bool.and_eq_true] at h
  simp [h]

theorem MEM.ty_of_amo {o : MEM} {d b : Field} {ord ty func : Bool} (h : o.amo d b ord ty func = true) : ty = true := by
  simp only [MEM.amo, Bool.and_eq_true] at h
  simp [h]

theorem tyBytes_eq_bytes {ty : BitVec 5} (h : isMemTy ty = true) : tyBytes ty.toNat = bytes ty := by
  revert ty
  decide

/-! ## Register content -/

theorem bytesNat_lt (bs : List Byte) : bytesNat bs < 2 ^ (8 * bs.length) := by
  induction bs with
  | nil => decide
  | cons b t ih =>
    have hb := b.isLt
    rw [bytesNat, List.length_cons, Nat.mul_succ, Nat.pow_add]
    omega

/-- An integer of up to 64 bits, extended by its type's sign. -/
theorem extTy_width {ty : BitVec 5} (h : ty.toNat ≤ 7) (raw : Nat) :
    extTy ty.toNat (width ty) raw = extend ty (BitVec.ofNat 64 raw) := by
  have wide : 0 < width ty ∧ width ty ≤ 64 := by
    revert ty
    decide
  obtain ⟨pos, fits⟩ := wide
  have low : (BitVec.ofNat 64 raw).setWidth (width ty) = BitVec.ofNat (width ty) raw := BitVec.setWidth_ofNat_of_le fits raw
  have below : raw % 2 ^ width ty < 2 ^ width ty := Nat.mod_lt _ (Nat.two_pow_pos _)
  have room : 2 ^ width ty ≤ 2 ^ 64 := Nat.pow_le_pow_right (by decide) fits
  apply BitVec.eq_of_toNat_eq
  unfold extTy extend signed w64
  rw [low]
  by_cases even : ty.toNat % 2 = 0
  · by_cases top : 2 ^ (width ty - 1) ≤ raw % 2 ^ width ty
    · simp [h, even, top, BitVec.toNat_signExtend, BitVec.msb_eq_decide]
      omega
    · simp [h, even, top, BitVec.toNat_signExtend, BitVec.msb_eq_decide]
  · simp [h, even]

theorem loadValue_eq_loaded {ty : BitVec 5} (h : isMemTy ty = true) {bs : List Byte} (hl : bs.length = bytes ty) :
    loadValue ty bs = loaded ty bs := by
  by_cases integer : ty.toNat ≤ 7
  · have bits : 8 * bytes ty = width ty := by
      clear hl
      revert ty
      decide
    rw [loadValue, loaded, if_pos integer, hl, bits, extTy_width integer]
  · simp only [loadValue, extTy, loaded, integer, decide_false, Bool.false_and, Bool.false_eq_true, if_false,
      Nat.mod_eq_of_lt (bytesNat_lt bs), w64]

/-! ## The bytes of a load -/

/-- A byte of a load: that of the latest earlier store of the block, else the core's view of memory. -/
def State.seenByte (s : State) (t : Tr) (h : Nat) : Byte :=
  (heldByte s.blk.held h).getD (s.coreByte s.cur t.pres t.key h).1

/-- A byte of this device's memory that a load may read: stored by the block, or without a marker. -/
structure State.Readable (s : State) (t : Tr) (h : Nat) : Prop where
  notRemote : space h ≠ .remote
  notReg : space h ≠ .reg
  unmarked : (heldByte s.blk.held h).isSome = true ∨ (s.coreByte s.cur t.pres t.key h).2 = false

theorem State.loadFrom_succ {s : State} {t : Tr} {i : Nat} (h : s.Readable t (t.home + i)) (reg : Nat → W64) (va k : Nat) :
    s.loadFrom reg t va i (k + 1) = (s.loadFrom reg t va (i + 1) k).map (s.seenByte t (t.home + i) :: ·) := by
  obtain ⟨notRemote, notReg, unmarked⟩ := h
  rw [State.loadFrom]
  generalize s.loadFrom reg t va (i + 1) k = rest
  unfold State.seenByte
  cases held : heldByte s.blk.held (t.home + i) with
  | some b => cases rest <;> rfl
  | none =>
    have clean : (s.coreByte s.cur t.pres t.key (t.home + i)).2 = false := by simpa [held] using unmarked
    cases sp : space (t.home + i) with
    | remote => exact absurd sp notRemote
    | reg => exact absurd sp notReg
    | _ =>
      simp only [clean]
      cases rest <;> rfl

theorem State.loadFrom_ok {s : State} {t : Tr} {i k : Nat} (h : ∀ j, i ≤ j → j < i + k → s.Readable t (t.home + j))
    (reg : Nat → W64) (va : Nat) :
    s.loadFrom reg t va i k = .ok ((List.range' i k).map fun j => s.seenByte t (t.home + j)) := by
  induction k generalizing i with
  | zero => rfl
  | succ k ih =>
    rw [State.loadFrom_succ (h i (by omega) (by omega)), ih fun j hj hk => h j (by omega) (by omega)]
    rfl

theorem State.loadFrom_length {s : State} {reg : Nat → W64} {t : Tr} {va i k : Nat} {bs : List Byte}
    (h : s.loadFrom reg t va i k = .ok bs) : bs.length = k := by
  induction k generalizing i bs with
  | zero =>
    cases h
    rfl
  | succ k ih =>
    simp only [State.loadFrom] at h
    split at h
    next => cases h
    next =>
      split at h
      next => cases h
      next rest hrest =>
        cases h
        simp [ih hrest]

theorem State.load_length {s : State} {va : W64} {n : Nat} {tr : Tr} {bs : List Byte} (h : s.load va n = .ok (tr, bs)) :
    bs.length = n := by
  simp only [State.load] at h
  split at h
  next => cases h
  next =>
    split at h
    next => cases h
    next hread =>
      cases h
      exact State.loadFrom_length hread

theorem State.load_ok {s : State} {va : W64} {n : Nat} {tr : Tr} (ha : s.coreAccess va.toNat n .r = .ok tr)
    (h : ∀ j, j < n → s.Readable tr (tr.home + j)) :
    s.load va n = .ok (tr, (List.range n).map fun j => s.seenByte tr (tr.home + j)) := by
  have read := State.loadFrom_ok (i := 0) (k := n) (fun j _ hj => h j (by omega)) s.regRead va.toNat
  simp only [State.load, ha, read, List.range_eq_range']

theorem State.load_fault {s : State} {va : W64} {n : Nat} {e : XF} (h : s.coreAccess va.toNat n .r = .error e) :
    s.load va n = .error e := by
  simp only [State.load, h]

/-- 06 R101: alignment is checked before any translation. -/
theorem State.coreAccess_misaligned {s : State} {va : W64} {n : Nat} (h : va.toNat % n ≠ 0) (acc : Acc) :
    s.coreAccess va.toNat n acc = .error (.fault 0x08 0 va) := by
  simp [State.coreAccess, h, w64]

end Sys2Proof.Machine
end

section
/-!
PROOFS of family 06. The L1 copies that a core gives up (06 R100, 17 R252, R258): what the write-back of dirty bytes leaves as it was.
-/
namespace Sys2Proof.Machine

theorem Sp.mem_of_find? {α : Type} {m : Sparse α} {k : Nat} {a : α} (h : Sp.find? m k = some a) : (k, a) ∈ m := by
  induction m with
  | nil => cases h
  | cons c t ih =>
    obtain ⟨i, b⟩ := c
    by_cases hi : i = k
    · subst hi
      obtain rfl : b = a := by simpa [Sp.find?] using h
      exact List.mem_cons_self
    · exact List.mem_cons_of_mem _ (ih (by simpa [Sp.find?, hi] using h))

theorem Sp.erase_put {α : Type} (m : Sparse α) (k : Nat) (a : α) : Sp.erase (Sp.put m k a) k = Sp.erase m k := by
  rw [Sp.put, Sp.erase_ins, Sp.erase_erase]

/-! ## Writes at a home leave the cores as they are -/

/-- What no step of a fold changes, the fold does not change. -/
theorem State.foldl_keeps {α β : Type} (g : State → β) {f : State → α → State} (h : ∀ s a, g (f s a) = g s) (L : List α)
    (s : State) : g (L.foldl f s) = g s := by
  induction L generalizing s with
  | nil => rfl
  | cons a t ih => rw [List.foldl_cons, ih, h]

@[simp] theorem State.cores_writeByte (s : State) (key h : Nat) (b : Byte) : (s.writeByte key h b).cores = s.cores := by
  unfold State.writeByte
  split
  · split <;> rfl
  · rfl

@[simp] theorem State.curCore_writeByte (s : State) (key h : Nat) (b : Byte) : (s.writeByte key h b).curCore = s.curCore := by
  unfold State.writeByte
  split
  · split <;> rfl
  · rfl

theorem State.mem_writeByte_ne (s : State) (key : Nat) {h a : Nat} (b : Byte) (ha : a ≠ h) :
    Mem.read (s.writeByte key h b).mem a = Mem.read s.mem a := by
  unfold State.writeByte
  split
  · split
    · rfl
    · simp [Mem.read_write, ha]
  · simp [Mem.read_write, ha]

@[simp] theorem State.cores_mark (s : State) (h : Nat) (b : Bool) : (s.mark h b).cores = s.cores := by
  unfold State.mark
  split <;> rfl

@[simp] theorem State.curCore_mark (s : State) (h : Nat) (b : Bool) : (s.mark h b).curCore = s.curCore := by
  unfold State.mark
  split <;> rfl

/-! ## The write-back of one line -/

/-- The write-back of a line writes its dirty bytes and marks or clears units; a retired frame's line is counted (17 R252, 27 R379). -/
theorem State.writeLine_keeps {β : Type} (g : State → β) {line : Nat} {l : L1Line}
    (counts : ∀ s c, g { s with chans := c } = g s) (marks : ∀ (s : State) h b, g (s.mark h b) = g s)
    (bytes : ∀ (s : State) i b, l.dirty.getLsbD i = true → g (s.writeByte l.key (line * 128 + i) b) = g s) (s : State) :
    g (s.writeLine line l) = g s := by
  unfold State.writeLine
  dsimp only
  split
  · rfl
  · split
    · exact counts ..
    · refine (State.foldl_keeps g (fun s k => ?_) _ _).trans (State.foldl_keeps g (fun s i => ?_) _ _)
      · split
        · exact marks ..
        · split
          · exact marks ..
          · rfl
      · split
        next dirty => exact bytes _ _ _ dirty
        next => rfl

@[simp] theorem State.cores_writeLine (s : State) (line : Nat) (l : L1Line) : (s.writeLine line l).cores = s.cores :=
  State.writeLine_keeps State.cores (fun _ _ => rfl) State.cores_mark (fun s _ b _ => s.cores_writeByte _ _ b) s

@[simp] theorem State.curCore_writeLine (s : State) (line : Nat) (l : L1Line) : (s.writeLine line l).curCore = s.curCore :=
  State.writeLine_keeps State.curCore (fun _ _ => rfl) State.curCore_mark (fun s _ b _ => s.curCore_writeByte _ _ b) s

@[simp] theorem State.core_writeLine (s : State) (line : Nat) (l : L1Line) (n : Nat) : (s.writeLine line l).core n = s.core n := by
  simp [State.core]

/-- A byte that is not dirty in the line stays as it is in memory. -/
theorem State.mem_writeLine {line a : Nat} {l : L1Line} (clean : line = a / 128 → l.dirty.getLsbD (a % 128) = false) (s : State) :
    Mem.read (s.writeLine line l).mem a = Mem.read s.mem a := by
  refine State.writeLine_keeps (fun s => Mem.read s.mem a) (fun _ _ => rfl) (fun s h b => by simp [State.mark_mem]) ?_ s
  intro s i b dirty
  refine State.mem_writeByte_ne _ _ _ ?_
  rintro rfl
  have inside : i < 128 := BitVec.lt_of_getLsbD dirty
  rw [show (line * 128 + i) % 128 = i by omega] at clean
  exact absurd dirty (by simp [clean (by omega)])

/-! ## Giving copies up -/

/-- A write-back changes nothing of the cores but the entry of its line in the core's own copies. -/
theorem State.core_l1WriteBack (s : State) (n line : Nat) : ∃ copies, Sp.erase copies line = Sp.erase (s.core n).l1 line ∧
    ∀ m, (s.l1WriteBack n line).core m = if m = n then { s.core n with l1 := copies } else s.core m := by
  unfold State.l1WriteBack
  cases Sp.find? (s.core n).l1 line with
  | none =>
    refine ⟨(s.core n).l1, rfl, fun m => ?_⟩
    by_cases hm : m = n
    · rw [hm, if_pos rfl]
    · rw [if_neg hm]
  | some l =>
    by_cases retired : (space (line * 128) == .gddr && (s.writeLine line l).isRetired (line * 128)) = true
    · exact ⟨_, Sp.erase_erase .., fun m => by simp only [retired, if_true, State.core_setCore, State.core_writeLine]⟩
    · exact ⟨Sp.put _ line { l with dirty := 0, since := 0, sent := false }, Sp.erase_put .., fun m => by
        simp only [retired, Bool.false_eq_true, if_false, State.core_setCore, State.core_writeLine]⟩

theorem State.core_l1Drop (s : State) (n line m : Nat) :
    (s.l1Drop n line).core m = if m = n then { s.core n with l1 := Sp.erase (s.core n).l1 line } else s.core m := by
  obtain ⟨copies, erased, cores⟩ := s.core_l1WriteBack n line
  rw [State.l1Drop, State.core_setCore, cores, if_pos rfl, cores, erased]
  split <;> rfl

@[simp] theorem State.curCore_l1Drop (s : State) (n line : Nat) : (s.l1Drop n line).curCore = s.curCore := by
  unfold State.l1Drop State.l1WriteBack
  cases Sp.find? (s.core n).l1 line with
  | none => rfl
  | some l =>
    dsimp only
    split <;> simp

/-- Core n has no dirty copy of the byte at a home. -/
def State.L1Clean (s : State) (n a : Nat) : Prop :=
  ∀ l, Sp.find? (s.core n).l1 (a / 128) = some l → l.dirty.getLsbD (a % 128) = false

theorem State.L1Clean.l1Drop {s : State} {n a : Nat} (h : s.L1Clean n a) (line : Nat) : (s.l1Drop n line).L1Clean n a := by
  intro l hl
  rw [State.core_l1Drop, if_pos rfl, Sp.find?_erase] at hl
  split at hl
  · cases hl
  · exact h l hl

theorem State.mem_l1Drop {s : State} {n a : Nat} (h : s.L1Clean n a) (line : Nat) :
    Mem.read (s.l1Drop n line).mem a = Mem.read s.mem a := by
  unfold State.l1Drop State.l1WriteBack
  cases found : Sp.find? (s.core n).l1 line with
  | none => rfl
  | some l =>
    have clean : line = a / 128 → l.dirty.getLsbD (a % 128) = false := fun hline => h l (hline ▸ found)
    dsimp only
    split <;> exact State.mem_writeLine clean s

/-! ## Giving several copies up -/

section
variable (s : State) (n : Nat) (lines : List Nat)

theorem State.core_l1Drops (m : Nat) : (lines.foldl (fun s line => s.l1Drop n line) s).core m =
    if m = n then { s.core n with l1 := (s.core n).l1.filter fun e => !lines.contains e.1 } else s.core m := by
  induction lines generalizing s with
  | nil =>
    split
    next hm =>
      subst hm
      have kept : (s.core m).l1.filter (fun e => !([] : List Nat).contains e.1) = (s.core m).l1 :=
        List.filter_eq_self.2 fun _ _ => rfl
      exact congrArg (fun copies => { s.core m with l1 := copies }) kept.symm
    next => rfl
  | cons line t ih =>
    rw [List.foldl_cons, ih, State.core_l1Drop, if_pos rfl]
    split
    next =>
      have kept : (Sp.erase (s.core n).l1 line).filter (fun e => !t.contains e.1) =
          (s.core n).l1.filter fun e => !(line :: t).contains e.1 := by
        rw [Sp.erase, List.filter_filter]
        refine List.filter_congr fun e _ => ?_
        rw [List.contains_cons, Bool.not_or, bne, Bool.and_comm]
      rw [kept]
    next hm => rw [State.core_l1Drop, if_neg hm]

theorem State.curCore_l1Drops : (lines.foldl (fun s line => s.l1Drop n line) s).curCore = s.curCore :=
  State.foldl_keeps State.curCore (fun s line => s.curCore_l1Drop n line) lines s

theorem State.mem_l1Drops {a : Nat} (h : s.L1Clean n a) :
    Mem.read (lines.foldl (fun s line => s.l1Drop n line) s).mem a = Mem.read s.mem a := by
  induction lines generalizing s with
  | nil => rfl
  | cons line t ih => rw [List.foldl_cons, ih _ (h.l1Drop line), State.mem_l1Drop h]

/-! ## Giving every copy up: the acquire half of 17 R258 -/

theorem State.core_l1DropAll : (s.l1DropAll n).core n = { s.core n with l1 := [] } := by
  have none_left : ((s.core n).l1.filter fun e => !((s.core n).l1.map (·.1)).contains e.1) = [] := by
    rw [List.filter_eq_nil_iff]
    intro e he
    simpa using ⟨e.2, he⟩
  rw [State.l1DropAll, State.core_l1Drops, if_pos rfl, none_left]

@[simp] theorem State.curCore_l1DropAll : (s.l1DropAll n).curCore = s.curCore := State.curCore_l1Drops ..

theorem State.me_l1DropAll : (s.l1DropAll s.cur).me = { s.me with l1 := [] } := by
  rw [State.me, State.curCore_l1DropAll]
  exact State.core_l1DropAll s s.cur

@[simp] theorem State.blk_l1DropAll : (s.l1DropAll s.cur).blk = s.blk := by rw [State.blk, State.me_l1DropAll, State.blk]
@[simp] theorem State.w_l1DropAll : (s.l1DropAll s.cur).w = s.w := congrArg Blk.w s.blk_l1DropAll
@[simp] theorem State.x_l1DropAll (a : BitVec 6) : (s.l1DropAll s.cur).x a = s.x a := congrArg (·.getX a) s.w_l1DropAll

/-- Outside GDDR-7 a byte without a dirty copy in the core reads as before. -/
theorem State.readHome_l1DropAll {a : Nat} (k : Nat) (hs : space a ≠ .gddr) (h : s.L1Clean n a) :
    (s.l1DropAll n).readHome k a = s.readHome k a := by
  rw [State.readHome_mem k hs, State.readHome_mem k hs, State.l1DropAll, State.mem_l1Drops s n _ h]

end

end Sys2Proof.Machine
end

section
/-!
PROOFS of family 06. LD, LDA, ST and STL (06 R101, R103, R104): each form's answer on an access that completes and on one that faults.
-/
namespace Sys2Proof.Machine
open Sys2Proof.Says

theorem wider_of_ne_zero {w : Nat} {scope : BitVec w} (h : scope ≠ 0) : wider scope.toNat = true := by
  simpa [wider, ← BitVec.toNat_inj] using h

section
variable {o : MEM} {s : State}

/-! ## Loads -/

@[simp] theorem State.memAddr_l1DropAll : (s.l1DropAll s.cur).memAddr o = s.memAddr o := by simp [State.memAddr]

theorem loadForm_ok {tr : Tr} {bs : List Byte} (hty : isMemTy o.ty = true) (h : s.load (s.memAddr o) (bytes o.ty) = .ok (tr, bs)) :
    loadForm o s = .ok (s.setX o.d (loaded o.ty bs)) := by
  simp only [loadForm, tyBytes_eq_bytes hty, h, loadValue_eq_loaded hty (State.load_length h)]

theorem loadForm_fault {e : XF} (hty : isMemTy o.ty = true) (h : s.coreAccess (s.memAddr o).toNat (bytes o.ty) .r = .error e) :
    loadForm o s = .error e := by
  simp only [loadForm, tyBytes_eq_bytes hty, State.load_fault h]

theorem ld_memTy (h : (Instr.ld o).wf = true) : isMemTy o.ty = true := MEM.ty_of_ok h
theorem lda_memTy (h : (Instr.lda o).wf = true) : isMemTy o.ty = true := MEM.ty_of_ok h

/-- LDA at `.core` is a plain load (06 R104). -/
theorem exec_lda_core (h : o.scope = 0) : exec (.lda o) s = checked o.g o.gs s (loadForm o) := by
  simp [execLda, wider, h]

/-- A load whose bytes come writes them to its register and changes nothing else. -/
theorem givesX_of_load {i : Instr} {tr : Tr} {bs : List Byte} (hx : exec i s = checked o.g o.gs s (loadForm o))
    (hty : i.wf = true → isMemTy o.ty = true) (h : s.load (s.memAddr o) (bytes o.ty) = .ok (tr, bs)) :
    GivesX i o.g o.gs s o.d (loaded o.ty bs) := by
  rintro ⟨hw, hg⟩
  exact ⟨_, hx.trans (checked_ok hg (loadForm_ok (hty hw) h)), wroteX_setX ..⟩

/-- A load whose address fails its checks takes their fault. -/
theorem load_takes_fault {i : Instr} {code lvl : Nat} {v : W64} (hx : exec i s = checked o.g o.gs s (loadForm o))
    (hty : i.wf = true → isMemTy o.ty = true) (hr : Runs i o.g o.gs s)
    (h : s.coreAccess (s.memAddr o).toNat (bytes o.ty) .r = .error (.fault code lvl v)) :
    exec i s = .next (s.faultAt s.cur code lvl v) :=
  hx.trans (checked_fault hr.2 (loadForm_fault (hty hr.1) h))

/-- LDA at a wider scope loads after the core's copies are given up (06 R104). -/
theorem exec_lda_wide {tr : Tr} {bs : List Byte} (hr : Runs (.lda o) o.g o.gs s) (hs : o.scope ≠ 0)
    (h : (s.l1DropAll s.cur).load (s.memAddr o) (bytes o.ty) = .ok (tr, bs)) :
    exec (.lda o) s = .next ((s.l1DropAll s.cur).setX o.d (loaded o.ty bs)) := by
  refine (exec_lda o s).trans (checked_ok hr.2 ?_)
  rw [if_pos (wider_of_ne_zero hs)]
  exact loadForm_ok (lda_memTy hr.1) (by rwa [State.memAddr_l1DropAll])

/-! ## Stores -/

theorem st_memTy (h : (Instr.st o).wf = true) : isMemTy o.ty = true := MEM.ty_of_ok h
theorem stl_memTy (h : (Instr.stl o).wf = true) : isMemTy o.ty = true := MEM.ty_of_ok h

theorem st_givesHeld {tr : Tr} {full : Bool} (form : (o.func == 1) = full)
    (h : s.coreAccess (s.memAddr o).toNat (bytes o.ty) .w = .ok tr) (place : full = true → space tr.home = .pad) :
    GivesHeld (.st o) o.g o.gs s [.store tr.home (low (bytes o.ty) (s.x o.d)) (storeHow tr full) tr.key] := by
  rintro ⟨hw, hg⟩
  have placed : (full && space tr.home != .pad) = false := by
    cases full
    · rfl
    · simp [place]
  refine ⟨_, (exec_st o s).trans (checked_ok hg ?_), holds_holdAll ..⟩
  simp only [tyBytes_eq_bytes (st_memTy hw), h, form, placed, leBytes_toNat]
  rfl

theorem st_takes_fault {code lvl : Nat} {v : W64} (hr : Runs (.st o) o.g o.gs s)
    (h : s.coreAccess (s.memAddr o).toNat (bytes o.ty) .w = .error (.fault code lvl v)) :
    exec (.st o) s = .next (s.faultAt s.cur code lvl v) :=
  (exec_st o s).trans (checked_fault hr.2 (by simp only [tyBytes_eq_bytes (st_memTy hr.1), h]))

/-- 06 R99: `.full` outside the pad, looked at after the access's own checks (log 70). -/
theorem st_full_takes_fault {tr : Tr} (hr : Runs (.st o) o.g o.gs s) (full : o.func = 1)
    (h : s.coreAccess (s.memAddr o).toNat (bytes o.ty) .w = .ok tr) (place : space tr.home ≠ .pad) :
    exec (.st o) s = .next (s.faultAt s.cur 0x18 0 (s.memAddr o)) :=
  (exec_st o s).trans (checked_fault hr.2 (by simp [tyBytes_eq_bytes (st_memTy hr.1), h, full, place]))

theorem stl_takes_fault {code lvl : Nat} {v : W64} (hr : Runs (.stl o) o.g o.gs s)
    (h : s.coreAccess (s.memAddr o).toNat (bytes o.ty) .w = .error (.fault code lvl v)) :
    exec (.stl o) s = .next (s.faultAt s.cur code lvl v) :=
  (exec_stl o s).trans (checked_fault hr.2 (by simp only [tyBytes_eq_bytes (stl_memTy hr.1), h]))

/-- STL at `.core` holds the order of the core's own accesses in front of its store (17 R258). -/
theorem stl_core_givesHeld {tr : Tr} (hs : o.scope = 0) (h : s.coreAccess (s.memAddr o).toNat (bytes o.ty) .w = .ok tr) :
    GivesHeld (.stl o) o.g o.gs s
      [.order, .store tr.home (low (bytes o.ty) (s.x o.d)) (storeHow tr false) tr.key] := by
  rintro ⟨hw, hg⟩
  refine ⟨_, (exec_stl o s).trans (checked_ok hg ?_), holds_holdAll ..⟩
  rw [← State.hold_hold, ← leBytes_toNat]
  simp [tyBytes_eq_bytes (stl_memTy hw), h, wider, hs, State.holdStore]

/-- STL at a wider scope holds a release, then its store written through to its home (06 R104). -/
theorem stl_wide_givesHeld {tr : Tr} (hs : o.scope ≠ 0) (h : s.coreAccess (s.memAddr o).toNat (bytes o.ty) .w = .ok tr) :
    GivesHeld (.stl o) o.g o.gs s
      [.release (o.scope == 6), .store tr.home (low (bytes o.ty) (s.x o.d)) (throughHow tr) tr.key] := by
  rintro ⟨hw, hg⟩
  refine ⟨_, (exec_stl o s).trans (checked_ok hg ?_), holds_holdAll ..⟩
  rw [← State.hold_hold, ← leBytes_toNat]
  simp [tyBytes_eq_bytes (stl_memTy hw), h, wider_of_ne_zero hs]

end

end Sys2Proof.Machine

namespace Sys2Proof.Proofs
open Sys2Proof Sys2Proof.Machine Sys2Proof.Says

/-- Settles O12: a form's clauses are its answer on an access that passes its checks and on one that fails them; LDA's frame is that of
giving up every copy. -/
theorem loadStoreResult : Obligations.LoadStoreResult := by
  unfold Obligations.LoadStoreResult
  refine ⟨⟨fun o s => ⟨?ld, ?lda, ?ldaWide, ?stores⟩, ?bytes⟩, fun o s => ?faults⟩
  case ld => exact fun tr bs h => givesX_of_load (exec_ld o s) ld_memTy h
  case lda => exact fun tr bs hs h => givesX_of_load (exec_lda_core hs) lda_memTy h
  case ldaWide =>
    intro tr bs hs h hr
    obtain ⟨written, others, preds, vecs, -, -, -⟩ := wroteX_setX (s.l1DropAll s.cur) o.d (loaded o.ty bs)
    rw [State.w_l1DropAll] at preds vecs
    refine ⟨_, exec_lda_wide hr hs h, written, fun a ha => (others a ha).trans (s.x_l1DropAll a), preds, vecs, ?_, ?_, fun _ _ => rfl, ?_⟩
    · rw [State.setX, State.blk_held_setW, State.blk_l1DropAll]
    · simp [State.setX, State.setW, State.setBlk, State.me_l1DropAll]
    · exact fun a ha clean => s.readHome_l1DropAll s.cur 0 ha fun l found => clean _ (Sp.mem_of_find? found) rfl
  case stores =>
    intro tr h
    refine ⟨fun plain => ?_, fun full place => ?_, fun hs => stl_core_givesHeld hs h, fun hs => stl_wide_givesHeld hs h⟩
    · exact st_givesHeld (beq_eq_false_iff_ne.2 plain) h nofun
    · simpa [storeHow, place] using st_givesHeld (beq_iff_eq.2 full) h fun _ => place
  case bytes =>
    intro s va n tr ha here unmarked
    exact State.load_ok ha fun j hj => ⟨(here j hj).1, (here j hj).2, unmarked j hj⟩
  case faults =>
    refine ⟨fun hr h => ?_, fun hr h => ?_, fun hr h => ?_, fun hr hs h => ?_, fun _ _ _ hr h => ?_, fun _ _ _ hr h => ?_,
      fun tr hr full h place => st_full_takes_fault hr full h place⟩
    · exact load_takes_fault (exec_ld o s) ld_memTy hr (State.coreAccess_misaligned h .r)
    · exact st_takes_fault hr (State.coreAccess_misaligned h .w)
    · exact stl_takes_fault hr (State.coreAccess_misaligned h .w)
    · exact load_takes_fault (exec_lda_core hs) lda_memTy hr (State.coreAccess_misaligned h .r)
    · exact load_takes_fault (exec_ld o s) ld_memTy hr h
    · exact st_takes_fault hr h

end Sys2Proof.Proofs
end

section
/-!
PROOFS of family 06. LDF and WAITA (06 R105, R106): the access to the pad, the wait, and the arrival of its answer.
-/
namespace Sys2Proof.Machine
open Sys2Proof.Says

/-! ## Access to the local pad -/

theorem State.padAccess_ok (s : State) {va n : Nat} (aligned : va % n = 0) (hl : padLocal ≤ va) (hu : va < 2 ^ 57) :
    s.padAccess va n = .ok (padHome s.cur (va - padLocal)) := by
  have window : padLocal ≤ va ∧ va < vaLimit := ⟨hl, hu⟩
  simp [State.padAccess, aligned, window]

theorem State.padAccess_misaligned (s : State) {va : W64} {n : Nat} (h : va.toNat % n ≠ 0) :
    s.padAccess va.toNat n = .error (.fault 0x08 0 va) := by
  simp [State.padAccess, h, w64]

/-- 06 R102: an address below the pad windows, or in another core's, is no place of the local pad (log 24). -/
theorem State.padAccess_outside (s : State) {va : W64} {n : Nat} (aligned : va.toNat % n = 0) (h : va.toNat < padLocal) :
    s.padAccess va.toNat n = .error (.fault 0x18 0 va) := by
  have below : ¬ padLocal ≤ va.toNat := by omega
  have inside : ¬ vaLimit ≤ va.toNat := by
    unfold vaLimit
    unfold padLocal at h
    omega
  simp [State.padAccess, aligned, below, inside, w64]

/-! ## Full-empty bits -/

/-- The full-empty bits after an update depend on those before alone. -/
theorem State.fe_setFe (s : State) (h n : Nat) (b : Bool) : (s.setFe h n b).fe =
    (List.range ((n + 3) / 4)).foldl (fun fe i => Sp.set false fe (h - h % 4 + 4 * i) b) s.fe :=
  (List.foldl_hom State.fe (g₂ := fun fe i => Sp.set false fe (h - h % 4 + 4 * i) b) fun _ _ => rfl).symm

/-- What does not look at the full-empty bits is as it was. -/
theorem State.setFe_keeps {β : Type} (g : State → β) (hg : ∀ s f, g { s with fe := f } = g s) (s : State) (h n : Nat) (b : Bool) :
    g (s.setFe h n b) = g s :=
  State.foldl_keeps g (fun s _ => hg s _) _ s

/-! ## The arrival of an answer -/

@[simp] theorem State.w_setBlk (s : State) (b : Blk) : (s.setBlk b).w = b.w := congrArg Blk.w (State.blk_setBlk s b)
@[simp] theorem State.blk_waitOn (s : State) (w : Wait) (a : Answer) :
    (s.waitOn w a).blk = { s.blk with wait := w, ans := a, cancel := false } := State.blk_setBlk ..
@[simp] theorem State.x_waitOn (s : State) (w : Wait) (a : Answer) (r : BitVec 6) : (s.waitOn w a).x r = s.x r :=
  congrArg (·.w.getX r) (State.blk_waitOn s w a)
theorem State.readVal_waitOn (s : State) (w : Wait) (a : Answer) (key h n : Nat) :
    (s.waitOn w a).readVal key h n = s.readVal key h n := by
  simp only [State.readVal, State.waitOn, State.readHomeN_setBlk]

@[simp] theorem State.wait_answerX (s : State) (d : Nat) (v : W64) : (s.answerX d v).blk.wait = .none := by
  simp [State.answerX]
theorem State.x_answerX (s : State) (d a : BitVec 6) (v : W64) :
    (s.answerX d.toNat v).x a = if a = d then (if d = 0 then 0 else v) else s.x a := by
  have written : (s.answerX d.toNat v).w = (s.setX d v).w := by
    rw [State.answerX, State.w_setBlk, BitVec.ofNat_toNat, BitVec.setWidth_eq]
    rfl
  obtain ⟨here, others, -⟩ := wroteX_setX s d v
  rw [State.x, written]
  split
  next h => exact h ▸ here
  next h => exact others a h

/-- The answer of the core whose turn it is. -/
theorem exec_waitAnswer_cur {t u : State} (hu : t.tryAnswer = u) (hc : u.curCore = t.curCore) :
    exec (.waitAnswer t.curCore) t = .next u := by
  subst hu
  have same : { t.tryAnswer with curCore := t.curCore } = t.tryAnswer := by rw [← hc]
  exact congrArg Host.Outcome.next same

/-! ## LDF (06 R105) -/

section
variable {s : State} {d home n ty : Nat} {clr : Bool}

theorem State.answerLdf_empty (h : s.isFull home n = false) : s.answerLdf d home n ty clr = s := by
  simp [State.answerLdf, h]

theorem State.answerLdf_full (h : s.isFull home n = true) (clean : s.anyPoison home n = false) : s.answerLdf d home n ty clr =
    (if clr then s.setFe home n false else s).answerX d (extTy ty (8 * n) (s.readVal 0 home n)) := by
  have unmarked : ((List.range n).find? fun i => s.poisoned (home + i)) = none := by
    rw [List.find?_eq_none]
    simpa [State.anyPoison] using clean
  simp [State.answerLdf, h, unmarked]

theorem State.tryAnswer_ldf (s : State) :
    (s.waitOn (.ldf d home n ty clr) .none).tryAnswer = (s.waitOn (.ldf d home n ty clr) .none).answerLdf d home n ty clr := by
  simp [State.tryAnswer]

end

theorem State.readHomeN_length (s : State) (key h n : Nat) : (s.readHomeN key h n).length = n := by
  induction n generalizing h with
  | zero => rfl
  | succ n ih => simp [State.readHomeN, ih]

section
variable {o : MEM} {s : State}

theorem ldf_memTy (h : (Instr.ldf o).wf = true) : isMemTy o.ty = true := by
  have range := MEM.ty_of_ok h
  simp only [Bool.and_eq_true, decide_eq_true_eq] at range
  simp only [isMemTy, decide_eq_true_eq]
  omega

/-- The wait of an LDF at a home. -/
def State.ldfWait (s : State) (o : MEM) (h : Nat) : State :=
  s.waitOn (.ldf o.d.toNat h (bytes o.ty) o.ty.toNat (o.func == 1)) .none

theorem exec_ldf_waits {h : Nat} (hr : Runs (.ldf o) o.g o.gs s)
    (ha : s.padAccess (s.memAddr o).toNat (bytes o.ty) = .ok h) : exec (.ldf o) s = .next (s.ldfWait o h) :=
  (exec_ldf o s).trans (checked_ok hr.2 (by simp only [tyBytes_eq_bytes (ldf_memTy hr.1), ha, State.ldfWait]))

theorem ldf_takes_fault {code lvl : Nat} {v : W64} (hr : Runs (.ldf o) o.g o.gs s)
    (ha : s.padAccess (s.memAddr o).toNat (bytes o.ty) = .error (.fault code lvl v)) :
    exec (.ldf o) s = .next (s.faultAt s.cur code lvl v) :=
  (exec_ldf o s).trans (checked_fault hr.2 (by simp only [tyBytes_eq_bytes (ldf_memTy hr.1), ha]))

/-- An LDF whose words are full takes them. -/
theorem ldf_answer {h : Nat} (hr : Runs (.ldf o) o.g o.gs s) (ha : s.padAccess (s.memAddr o).toNat (bytes o.ty) = .ok h)
    (full : s.isFull h (bytes o.ty) = true) (clean : s.anyPoison h (bytes o.ty) = false) :
    Answered (.ldf o) s ((if o.func = 1 then (s.ldfWait o h).setFe h (bytes o.ty) false else s.ldfWait o h).answerX o.d.toNat
      (loaded o.ty (s.readHomeN 0 h (bytes o.ty)))) := by
  have value : extTy o.ty.toNat (8 * bytes o.ty) (s.readVal 0 h (bytes o.ty)) = loaded o.ty (s.readHomeN 0 h (bytes o.ty)) := by
    have len := s.readHomeN_length 0 h (bytes o.ty)
    rw [← loadValue_eq_loaded (ldf_memTy hr.1) len, loadValue, len, State.readVal]
  refine ⟨_, exec_ldf_waits hr ha, exec_waitAnswer_cur ?_ ?_⟩
  · rw [State.ldfWait, State.tryAnswer_ldf, State.answerLdf_full (s := s.waitOn _ _) full clean, State.readVal_waitOn, value]
    simp only [beq_iff_eq]
  · show State.curCore (if _ then _ else _) = _
    split
    · exact State.setFe_keeps State.curCore (fun _ _ => rfl) ..
    · rfl

/-- An LDF waits while a word is empty. -/
theorem ldf_unanswered {h : Nat} (hr : Runs (.ldf o) o.g o.gs s) (ha : s.padAccess (s.memAddr o).toNat (bytes o.ty) = .ok h)
    (empty : s.isFull h (bytes o.ty) = false) :
    ∃ t, exec (.ldf o) s = .next t ∧ t.blk.wait ≠ .none ∧ exec (.waitAnswer s.curCore) t = .next t := by
  refine ⟨_, exec_ldf_waits hr ha, by simp [State.ldfWait], exec_waitAnswer_cur ?_ rfl⟩
  rw [State.ldfWait, State.tryAnswer_ldf]
  exact State.answerLdf_empty empty

/-! ## WAITA (06 R106) -/

theorem waita_ty (h : (Instr.waita o).wf = true) : o.ty = 4 ∨ o.ty = 5 := by
  simpa using MEM.ty_of_amo h

theorem waita_laneTy (h : (Instr.waita o).wf = true) : isLaneTy o.ty = true := by
  rcases waita_ty h with e | e <;> rw [e] <;> rfl

/-- The comparison of a well-formed WAITA, signed by its type. -/
theorem waitaHolds_eq_holds (hw : (Instr.waita o).wf = true) (h c : Nat) (b : W32) : s.waitaHolds h o.ty.toNat c b =
    if o.ty = 4 then holds c (BitVec.ofNat 32 (s.readVal 0 h 4)).toInt b.toInt
    else holds c ((BitVec.ofNat 32 (s.readVal 0 h 4)).toNat : Int) (b.toNat : Int) := by
  rcases waita_ty hw with e | e <;> simp [State.waitaHolds, e, condInt_eq_holds, w32]

/-- The wait of a WAITA at a home. -/
def State.waitaWait (s : State) (o : MEM) (h : Nat) (a : Answer) : State :=
  s.waitOn (.waita o.d.toNat h o.ty.toNat o.func.toNat ((s.x o.b).setWidth 32) (o.ord == 1 && wider o.scope.toNat)) a

theorem exec_waita_waits {h : Nat} (hr : Runs (.waita o) o.g o.gs s) (ha : s.padAccess (s.memAddr o).toNat 4 = .ok h) :
    exec (.waita o) s = .next (s.waitaWait o h
      (if s.waitaHolds h o.ty.toNat o.func.toNat ((s.x o.b).setWidth 32) then
        if s.anyPoison h 4 then .poisoned else .val (w64 (s.readVal 0 h 4)) else .none)) :=
  (exec_waita o s).trans (checked_ok hr.2 (by simp only [ha, State.waitaWait]))

theorem waita_takes_fault {code lvl : Nat} {v : W64} (hr : Runs (.waita o) o.g o.gs s)
    (ha : s.padAccess (s.memAddr o).toNat 4 = .error (.fault code lvl v)) :
    exec (.waita o) s = .next (s.faultAt s.cur code lvl v) :=
  (exec_waita o s).trans (checked_fault hr.2 (by simp only [ha]))

theorem State.tryAnswer_waitaWait (s : State) (h : Nat) {a : Answer} (hc : a ≠ .cancelled) : (s.waitaWait o h a).tryAnswer =
    (s.waitaWait o h a).answerWaita o.d.toNat h o.ty.toNat (o.ord == 1 && wider o.scope.toNat) := by
  simp [State.tryAnswer, State.waitaWait, hc]

/-- What an acquire WAITA leaves of the state for its answer (17 R258). -/
def State.acquired (s : State) (acq : Bool) : State := if acq then s.l1DropAll s.cur else s

@[simp] theorem State.x_acquired (s : State) (acq : Bool) (a : BitVec 6) : (s.acquired acq).x a = s.x a := by
  cases acq
  · rfl
  · exact s.x_l1DropAll a

theorem State.curCore_acquired (s : State) (acq : Bool) : (s.acquired acq).curCore = s.curCore := by
  cases acq
  · rfl
  · exact s.curCore_l1DropAll s.cur

/-- A word of the pad as the register of a WAITA shows it. -/
theorem waita_value (hw : (Instr.waita o).wf = true) (h : Nat) : extTy o.ty.toNat 32 (w64 (s.readVal 0 h 4)).toNat =
    if o.ty = 4 then (BitVec.ofNat 32 (s.readVal 0 h 4)).signExtend 64 else (BitVec.ofNat 32 (s.readVal 0 h 4)).setWidth 64 := by
  have word : s.readVal 0 h 4 < 2 ^ 32 := by
    have := bytesNat_lt (s.readHomeN 0 h 4)
    rwa [s.readHomeN_length] at this
  have same : (w64 (s.readVal 0 h 4)).toNat = (BitVec.ofNat 32 (s.readVal 0 h 4)).toNat := by
    rw [w64, BitVec.toNat_ofNat, BitVec.toNat_ofNat]
    omega
  rw [same, extTy_word (waita_laneTy hw)]

/-- A WAITA whose condition holds takes the word at once. -/
theorem waita_answer {h : Nat} (hr : Runs (.waita o) o.g o.gs s) (ha : s.padAccess (s.memAddr o).toNat 4 = .ok h)
    (met : s.waitaHolds h o.ty.toNat o.func.toNat ((s.x o.b).setWidth 32) = true) (clean : s.anyPoison h 4 = false) :
    Answered (.waita o) s
      (((s.waitaWait o h (.val (w64 (s.readVal 0 h 4)))).acquired (o.ord == 1 && wider o.scope.toNat)).answerX o.d.toNat
        (extTy o.ty.toNat 32 (w64 (s.readVal 0 h 4)).toNat)) := by
  refine ⟨_, exec_waita_waits hr ha, exec_waitAnswer_cur ?_ ?_⟩
  · simp only [met, clean, if_true, Bool.false_eq_true, if_false]
    rw [State.tryAnswer_waitaWait s h (a := .val _) nofun, State.answerWaita]
    simp only [State.waitaWait, State.blk_waitOn, State.acquired]
  · simp only [met, clean, if_true, Bool.false_eq_true, if_false]
    exact State.curCore_acquired ..

/-- A WAITA whose condition does not hold waits. -/
theorem waita_unanswered {h : Nat} (hr : Runs (.waita o) o.g o.gs s) (ha : s.padAccess (s.memAddr o).toNat 4 = .ok h)
    (fails : s.waitaHolds h o.ty.toNat o.func.toNat ((s.x o.b).setWidth 32) = false) :
    ∃ t, exec (.waita o) s = .next t ∧ t.blk.wait ≠ .none ∧ exec (.waitAnswer s.curCore) t = .next t := by
  refine ⟨_, exec_waita_waits hr ha, by simp [State.waitaWait], exec_waitAnswer_cur ?_ rfl⟩
  simp only [fails, Bool.false_eq_true, if_false]
  rw [State.tryAnswer_waitaWait s h (a := .none) nofun, State.answerWaita]
  simp only [State.waitaWait, State.blk_waitOn]

end

end Sys2Proof.Machine

namespace Sys2Proof.Proofs
open Sys2Proof Sys2Proof.Machine Sys2Proof.Says

/-- Settles O18: each form waits at its home of the pad, and the answer comes at once where the words are full or the condition holds. -/
theorem padWaitForms : Obligations.PadWaitForms := by
  unfold Obligations.PadWaitForms
  intro o s
  refine ⟨?ldf, ?waita, fun hr h => ldf_takes_fault hr (s.padAccess_misaligned h),
    fun hr ha h => ldf_takes_fault hr (s.padAccess_outside ha h), fun hr ha h => waita_takes_fault hr (s.padAccess_outside ha h)⟩
  case ldf =>
    intro hr aligned hl hu
    have access := s.padAccess_ok aligned hl hu
    refine ⟨fun full clean => ⟨_, ldf_answer hr access full clean, ?_, State.wait_answerX .., fun a ha => ?_, fun key a => ?_, ?_⟩,
      ldf_unanswered hr access⟩
    · rw [State.x_answerX, if_pos rfl]
    · rw [State.x_answerX, if_neg ha]
      split
      · exact (State.setFe_keeps (·.x a) (fun _ _ => rfl) ..).trans (State.x_waitOn ..)
      · exact State.x_waitOn ..
    · show State.readHome (if _ then _ else _) key a = _
      split
      · exact State.setFe_keeps (·.readHome key a) (fun _ _ => rfl) ..
      · rfl
    · show State.fe (if _ then _ else _) = _
      split
      · rw [State.fe_setFe, State.fe_setFe]
        rfl
      · rfl
  case waita =>
    intro hr aligned hl hu
    have access := s.padAccess_ok aligned hl hu
    dsimp only
    rw [← waitaHolds_eq_holds hr.1, ← waita_value hr.1]
    refine ⟨fun met clean => ⟨_, waita_answer hr access met clean, State.wait_answerX .., ?_, fun a ha => ?_⟩,
      waita_unanswered hr access⟩
    · rw [State.x_answerX, if_pos rfl]
    · rw [State.x_answerX, if_neg ha, State.x_acquired, State.waitaWait, State.x_waitOn]

end Sys2Proof.Proofs
end

section
/-!
PROOFS of family 06. PF, CFLUSH, CINV, INVAL.CB and FENCE (06 R107 to R111).
-/
namespace Sys2Proof.Machine
open Sys2Proof.Says

section
variable {s : State}

/-! ## CFLUSH and CINV (06 R108) -/

/-- The range by the form: the line of the address, a length rounded out to whole lines, or none for `.all`. -/
theorem State.maintRange_eq (s : State) (o : MEM) : s.maintRange o =
    let va := (s.memAddr o).toNat
    let len := (s.x o.d).toNat
    let down := va - va % 128
    if o.func = 0 then (down, 128) else if o.func = 1 then
      (if len = 0 then (va, 0) else (down, (va + len + 127) / 128 * 128 - down)) else (0, 0) := by
  unfold State.maintRange
  split
  next line =>
    have form : o.func = 0 := BitVec.eq_of_toNat_eq line
    simp only [form, if_true]
  next range =>
    have form : o.func = 1 := BitVec.eq_of_toNat_eq range
    simp only [form, beq_iff_eq]
    rfl
  next notLine notRange =>
    have other : ¬ o.func = 0 ∧ ¬ o.func = 1 := ⟨fun e => notLine (e ▸ rfl), fun e => notRange (e ▸ rfl)⟩
    simp only [other, if_false]

theorem maint_givesHeld {i : Instr} {o : MEM} {inv : Bool} (hx : exec i s = maintForm o s inv) : GivesHeld i o.g o.gs s
    [.flush s.me.regs.colour s.me.lvlS (s.maintRange o).1 (s.maintRange o).2 (o.func == 2) inv] :=
  fun hr => ⟨_, hx.trans (plain_on _ hr.2), holds_holdAll ..⟩

/-! ## INVAL.CB (06 R110) -/

section
variable {o : MEM} (hr : Runs (.invalCb o) o.g o.gs s)
include hr

theorem exec_invalCb_all (all : o.func = 1) : exec (.invalCb o) s = .next (s.setMe { s.me with cbc := [], cbcColour := [] }) :=
  (exec_invalCb o s).trans (checked_ok hr.2 (by simp [all]))

theorem exec_invalCb_one (one : o.func ≠ 1) (aligned : (s.memAddr o).toNat % 32 = 0) : exec (.invalCb o) s =
    .next (s.setMe { s.me with cbc := s.me.cbc.filter fun e => e.1 != (s.memAddr o).toNat }) := by
  have form : (o.func == 1) = false := beq_eq_false_iff_ne.2 one
  refine (exec_invalCb o s).trans (checked_ok hr.2 ?_)
  simp only [form, aligned]
  rfl

theorem invalCb_misaligned (one : o.func ≠ 1) (misaligned : (s.memAddr o).toNat % 32 ≠ 0) :
    exec (.invalCb o) s = .next (s.faultAt s.cur 8 0 (s.memAddr o)) := by
  have form : (o.func == 1) = false := beq_eq_false_iff_ne.2 one
  refine (exec_invalCb o s).trans (checked_fault hr.2 ?_)
  simp only [form, bne_iff_ne.2 misaligned, w64, BitVec.ofNat_toNat, BitVec.setWidth_eq]
  rfl

end

/-! ## FENCE (06 R111, 17 R258) -/

theorem toNat_beq_six (scope : BitVec 14) : (scope.toNat == 6) = (scope == 6) := by
  rw [Bool.eq_iff_iff, beq_iff_eq, beq_iff_eq, ← BitVec.toNat_inj]
  rfl

section
variable {o : SYS} (hr : Runs (.fence o) o.g o.gs s)
include hr

/-- At `.core` an acquire has nothing to do, and a release orders the core's own accesses. -/
theorem exec_fence_core (hs : o.imm = 0) : exec (.fence o) s = .next (if o.func = 1 then s else s.hold .order) :=
  (exec_fence o s).trans ((plain_on _ hr.2).trans (by simp [wider, hs]))

/-- At a wider scope an acquire gives the core's copies up at once. -/
theorem exec_fence_acquire (hs : o.imm ≠ 0) (form : o.func = 1) : exec (.fence o) s = .next (s.l1DropAll s.cur) :=
  (exec_fence o s).trans ((plain_on _ hr.2).trans (by simp [wider_of_ne_zero hs, form]))

/-- `.rw` is an acquire that holds a release with an acquire behind it. -/
theorem exec_fence_rw (hs : o.imm ≠ 0) (form : o.func = 0) :
    exec (.fence o) s = .next ((s.l1DropAll s.cur).holdAll [.release (o.imm == 6), .acquire]) :=
  (exec_fence o s).trans ((plain_on _ hr.2).trans (by simp [wider_of_ne_zero hs, form, toNat_beq_six]))

theorem exec_fence_release (hs : o.imm ≠ 0) (form : 2 ≤ o.func.toNat) :
    exec (.fence o) s = .next (s.holdAll [.release (o.imm == 6)]) := by
  have notAcquire : ¬ o.func.toNat ≤ 1 ∧ (o.func == 1) = false ∧ (o.func == 0) = false :=
    ⟨by omega, beq_eq_false_iff_ne.2 (by rintro e; simp [e] at form), beq_eq_false_iff_ne.2 (by rintro e; simp [e] at form)⟩
  refine (exec_fence o s).trans ((plain_on _ hr.2).trans ?_)
  simp only [wider_of_ne_zero hs, notAcquire, toNat_beq_six]
  rfl

end

end

theorem State.blk_setMe (s : State) (c : Core) : (s.setMe c).blk = c.blk := congrArg Core.blk (s.me_setMe c)
@[simp] theorem State.me_l1_holdAll (s : State) (es : List Held) : (s.holdAll es).me.l1 = s.me.l1 := by simp [State.holdAll]

end Sys2Proof.Machine

namespace Sys2Proof.Proofs
open Sys2Proof Sys2Proof.Machine Sys2Proof.Says

/-- Settles O19: each form's clause is its answer by its function field; FENCE's copies go with those of an acquire. -/
theorem cacheMaintenanceForms : Obligations.CacheMaintenanceForms := by
  unfold Obligations.CacheMaintenanceForms
  intro s
  refine ⟨fun o => ⟨fun hr => (exec_pf o s).trans (plain_on _ hr.2), ?cflush, ?cinv, ?all, ?one, invalCb_misaligned⟩,
    fun o hr => ⟨?core, ?order, ?wide⟩⟩
  case cflush =>
    rw [← s.maintRange_eq o]
    exact maint_givesHeld (exec_cflush o s)
  case cinv =>
    rw [← s.maintRange_eq o]
    exact maint_givesHeld (exec_cinv o s)
  case all => exact fun hr all => ⟨_, exec_invalCb_all hr all, by simp, s.blk_setMe _, fun _ _ => rfl⟩
  case one =>
    exact fun hr one aligned => ⟨_, exec_invalCb_one hr one aligned, s.blk_setMe _, by simp, fun _ _ => rfl⟩
  case core =>
    intro hs acquire
    rw [exec_fence_core hr hs, if_pos acquire]
  case order =>
    intro hs release
    rw [exec_fence_core hr hs, if_neg release]
    exact ⟨_, rfl, holds_holdAll s [.order]⟩
  case wide =>
    intro hs
    have dropped : ∀ line, Sp.find? (s.l1DropAll s.cur).me.l1 line = none := by simp [State.me_l1DropAll]
    by_cases acquire : o.func = 1
    · refine ⟨_, exec_fence_acquire hr hs acquire, s.w_l1DropAll, ?_, fun _ => dropped, fun above => ?_⟩
      · simp [acquire]
      · simp [acquire] at above
    by_cases both : o.func = 0
    · obtain ⟨held, regs, -⟩ := holds_holdAll (s.l1DropAll s.cur) [.release (o.imm == 6), .acquire]
      refine ⟨_, exec_fence_rw hr hs both, regs.trans s.w_l1DropAll, ?_, fun _ => ?_, fun above => ?_⟩
      · rw [held, s.blk_l1DropAll, if_neg acquire, if_pos both]
      · rwa [State.me_l1_holdAll]
      · simp [both] at above
    · have release : 2 ≤ o.func.toNat := by
        rw [← BitVec.toNat_inj] at acquire both
        simp at acquire both
        omega
      obtain ⟨held, regs, -⟩ := holds_holdAll s [.release (o.imm == 6)]
      refine ⟨_, exec_fence_release hr hs release, regs, ?_, fun below => by omega, fun _ => ⟨fun _ _ => rfl, State.me_l1_holdAll ..⟩⟩
      rw [held, if_neg acquire, if_neg both]

end Sys2Proof.Proofs
end

section
/-!
PROOFS of family 06. CPY and CPY2 (06 R116): a command whose checks hold is held, and what a malformed one raises; the draught engine
(06 R112 to R114): the bytes that a command moves within the device.
-/
namespace Sys2Proof.Machine
open Sys2Proof.Says

/-! ## CPY and CPY2 at execute (06 R115, R116) -/

section
variable {o : RRR} {s : State} {c : EngCmd}

theorem cpy_givesHeld (form : flagForm (s.x o.c) = true) (len : (s.x o.b).toNat ≤ 2 ^ 20)
    (ok : s.checkCopy { EngCmd.start s o (s.x o.a) (s.x o.d) with rowbytes := (s.x o.b).toNat } = .ok c) :
    GivesHeld (.cpy o) o.g o.gs s [.engine c] := by
  rintro ⟨-, hg⟩
  have fits : ¬ (s.x o.b).toNat > 0x100000 := Nat.not_lt.2 len
  refine ⟨_, (exec_cpy o s).trans (checked_ok hg ?_), holds_holdAll ..⟩
  simp only [form, fits, ok]
  rfl

theorem cpy_bad_flag (hr : Runs (.cpy o) o.g o.gs s) (form : flagForm (s.x o.c) = false) :
    exec (.cpy o) s = .next (s.faultAt s.cur 0x2C 0 (s.x o.c)) :=
  (exec_cpy o s).trans (checked_fault hr.2 (by simp [form]))

theorem cpy_bad_length (hr : Runs (.cpy o) o.g o.gs s) (form : flagForm (s.x o.c) = true) (len : 2 ^ 20 < (s.x o.b).toNat) :
    exec (.cpy o) s = .next (s.faultAt s.cur 0x2D 0 (s.x o.b)) := by
  have long : (s.x o.b).toNat > 0x100000 := len
  exact (exec_cpy o s).trans (checked_fault hr.2 (by simp [form, long]))

/-- A control block that the core's cache holds is not read again (06 R109). -/
theorem State.controlBlock_cached {va : W64} {b : BitVec 256} (aligned : va.toNat % 32 = 0)
    (cached : s.me.cbc.find? (fun e => e.1 == va.toNat) = some (va.toNat, b)) : s.controlBlock va = .ok (s, b) := by
  simp [State.controlBlock, aligned, cached]

/-- The rows and bytes for each row that a CPY2 takes (06 Table 06.4). -/
structure RowsFit (rows rowbytes : Nat) : Prop where
  rows_pos : 0 < rows
  rows_le : rows ≤ 65536
  bytes_pos : 0 < rowbytes
  bytes_le : rowbytes ≤ 2 ^ 20
  total_le : rows * rowbytes ≤ 2 ^ 24

theorem cpy2_givesHeld {b : BitVec 256} (aligned : (s.x o.a).toNat % 32 = 0)
    (cached : s.me.cbc.find? (fun e => e.1 == (s.x o.a).toNat) = some ((s.x o.a).toNat, b)) (form : flagForm (s.x o.c) = true)
    (fit : RowsFit (cbFld b 159 128) (cbFld b 191 160))
    (ok : s.checkCopy { EngCmd.start s o (w64 (cbFld b 127 64)) (w64 (cbFld b 63 0)) with
      rowbytes := cbFld b 191 160, rows := cbFld b 159 128, sstride := (BitVec.ofNat 32 (cbFld b 255 224)).toInt,
      dstride := (BitVec.ofNat 32 (cbFld b 223 192)).toInt } = .ok c) : GivesHeld (.cpy2 o) o.g o.gs s [.engine c] := by
  rintro ⟨-, hg⟩
  obtain ⟨rows_pos, rows_le, bytes_pos, bytes_le, total_le⟩ := fit
  have shape : (cbFld b 159 128 == 0 || cbFld b 159 128 > 65536 || cbFld b 191 160 == 0 || cbFld b 191 160 > 0x100000 ||
      cbFld b 159 128 * cbFld b 191 160 > 2 ^ 24) = false := by
    simp only [Bool.or_eq_false_iff, beq_eq_false_iff_ne, decide_eq_false_iff_not, Nat.not_lt]
    omega
  refine ⟨_, (exec_cpy2 o s).trans (checked_ok hg ?_), holds_holdAll ..⟩
  simp only [State.controlBlock_cached aligned cached, form, shape, ok]
  rfl

end

/-! ## Pieces of a payload -/

/-- The bytes of pieces written one after another at their homes. -/
def State.writePieces (s : State) (ps : List (Tr × Byte × Bool)) : State :=
  ps.foldl (fun s p => s.writeByte p.1.key p.1.home p.2.1) s

theorem State.mem_writePieces_other {ps : List (Tr × Byte × Bool)} {a : Nat} (h : ∀ p ∈ ps, p.1.home ≠ a) (s : State) :
    Mem.read (s.writePieces ps).mem a = Mem.read s.mem a := by
  induction ps generalizing s with
  | nil => rfl
  | cons p t ih =>
    rw [State.writePieces, List.foldl_cons]
    exact (ih (fun q hq => h q (List.mem_cons_of_mem _ hq)) _).trans
      (State.mem_writeByte_ne _ _ _ (h p List.mem_cons_self).symm)

/-- Of pieces with different homes outside GDDR-7, each home takes its piece's byte. -/
theorem State.mem_writePieces {ps : List (Tr × Byte × Bool)} (apart : ps.Pairwise fun p q => p.1.home ≠ q.1.home)
    {p : Tr × Byte × Bool} (hp : p ∈ ps) (here : space p.1.home ≠ .gddr) (s : State) :
    Mem.read (s.writePieces ps).mem p.1.home = p.2.1 := by
  induction ps generalizing s with
  | nil => cases hp
  | cons q t ih =>
    obtain ⟨first, rest⟩ := List.pairwise_cons.1 apart
    rw [State.writePieces, List.foldl_cons]
    rcases List.mem_cons.1 hp with rfl | later
    · refine (State.mem_writePieces_other (fun r hr => (first r hr).symm) _).trans ?_
      rw [State.writeByte_mem _ _ here, Mem.read_write, if_pos rfl]
    · exact ih rest later _

/-! ## What the engine writes (06 R112, R113) -/

/-- For a command without `.fe`, pieces within the device outside GDDR-7 are written once the core's copies of their lines are given
up; markers and waiting WAITAs are no bytes of memory. -/
theorem State.mem_engineWrite {s : State} {n : Nat} {c : EngCmd} {ps : List (Tr × Byte × Bool)} (fe : c.fe = false)
    (here : ∀ p ∈ ps, space p.1.home ≠ .remote ∧ space p.1.home ≠ .gddr) : (s.engineWrite n c ps).mem =
      (((ps.map fun p => p.1.home / 128).eraseDups.foldl (fun s line => s.l1Drop n line) s).writePieces ps).mem := by
  have away : (ps.filter fun p => space p.1.home == .remote) = [] := by
    rw [List.filter_eq_nil_iff]
    exact fun p hp => by simp [(here p hp).1]
  have kept : (ps.filter fun p => space p.1.home != .remote && !(space p.1.home == .gddr && s.isRetired p.1.home)) = ps := by
    rw [List.filter_eq_self]
    exact fun p hp => by simp [(here p hp).1, (here p hp).2]
  simp only [State.engineWrite, away, kept, fe, remoteRuns, List.foldl_nil, Bool.false_eq_true, if_false]
  refine (State.foldl_mem _ (fun s p => s.padNotify_mem _ 1) _ _).trans (State.foldl_mem _ (fun s u => ?_) _ _)
  split
  · exact State.mark_mem ..
  · split
    · exact State.mark_mem ..
    · rfl

/-- The piece that places the byte of place k of a payload, with its poison, at its destination. -/
def State.piece (s : State) (c : EngCmd) (k : Nat) : Tr × Byte × Bool :=
  (c.dstAt k, s.readHome 0 (c.srcAt k).home, s.poisoned (c.srcAt k).home)

/-- Memory that the engine reads and writes at its home, without a key: floor or pad. -/
def Near (h : Nat) : Prop := space h = .floor ∨ space h = .pad

theorem Near.not_remote {h : Nat} (near : Near h) : space h ≠ .remote := by rcases near with e | e <;> simp [e]
theorem Near.not_gddr {h : Nat} (near : Near h) : space h ≠ .gddr := by rcases near with e | e <;> simp [e]

/-- What one command's payload needs to move at once, byte by byte: every byte in floor or pad, and no copy in the core's L1. -/
structure State.Movable (s : State) (n : Nat) (c : EngCmd) : Prop where
  copies : (s.core n).l1 = []
  src : ∀ k, k < c.total → Near (c.srcAt k).home
  dst : ∀ k, k < c.total → Near (c.dstAt k).home
  fe : c.fe = false
  apart : ∀ j k, j < c.total → k < c.total → j ≠ k → (c.dstAt j).home ≠ (c.dstAt k).home

section
variable {s : State} {n : Nat} {c : EngCmd}

/-- A byte of floor or pad as the engine reads it: the one at its home, where the core has no copy (06 R113). -/
theorem State.engineByte_near (copies : (s.core n).l1 = []) {t : Tr} (near : Near t.home) :
    s.engineByte n c t = some (s.readHome 0 t.home, s.poisoned t.home) := by
  have own : s.ownByte n t.key t.home = (s.readHome 0 t.home, s.poisoned t.home) := by
    simp only [State.ownByte, copies, Sp.find?_nil, State.readHome_mem _ near.not_gddr]
  rcases near with e | e <;> simp [State.engineByte, e, own]

theorem State.enginePieces_near (copies : (s.core n).l1 = []) {ks : List Nat} (near : ∀ k ∈ ks, Near (c.srcAt k).home) :
    s.enginePieces n c ks = some (ks.map (s.piece c)) := by
  induction ks with
  | nil => rfl
  | cons k t ih =>
    rw [State.enginePieces, State.engineByte_near copies (near k List.mem_cons_self),
      ih fun j hj => near j (List.mem_cons_of_mem _ hj)]
    rfl

/-- Pieces that are all there are written, and their places count as moved. -/
theorem State.engineMove_pieces {ks : List Nat} {ps : List (Tr × Byte × Bool)} (fe : c.fe = false)
    (fresh : ∀ k ∈ ks, k < c.total) (moved : c.moved = []) (hp : s.enginePieces n c ks = some ps) :
    s.engineMove n c ks = (s.engineWrite n c ps, { c with moved := ks ++ c.moved }, true) := by
  have left : (ks.filter fun k => k < c.total && !c.moved.contains k) = ks := by
    rw [List.filter_eq_self]
    exact fun k hk => by simp [fresh k hk, moved]
  simp only [State.engineMove, left, hp, fe, Bool.false_eq_true, if_false]
  rfl

/-- The state after the engine has written a whole payload. -/
def State.moveAll (s : State) (n : Nat) (c : EngCmd) : State := s.engineWrite n c ((List.range c.total).map (s.piece c))

variable (h : s.Movable n c)
include h

theorem State.Movable.engineMove (moved : c.moved = []) : s.engineMove n c (List.range c.total) =
    (s.moveAll n c, { c with moved := List.range c.total ++ c.moved }, true) :=
  State.engineMove_pieces h.fe (fun _ => List.mem_range.1) moved
    (State.enginePieces_near h.copies fun k hk => h.src k (List.mem_range.1 hk))

theorem State.Movable.mem_moveAll : (s.moveAll n c).mem =
    (((((List.range c.total).map (s.piece c)).map fun p => p.1.home / 128).eraseDups.foldl (fun s line => s.l1Drop n line) s).writePieces
      ((List.range c.total).map (s.piece c))).mem := by
  refine State.mem_engineWrite h.fe fun p hp => ?_
  obtain ⟨k, hk, rfl⟩ := List.mem_map.1 hp
  have near := h.dst k (List.mem_range.1 hk)
  exact ⟨near.not_remote, near.not_gddr⟩

/-- Each destination byte takes its source byte. -/
theorem State.Movable.moveAll_dst {k : Nat} (hk : k < c.total) :
    (s.moveAll n c).readHome 0 (c.dstAt k).home = s.readHome 0 (c.srcAt k).home := by
  have apart : ((List.range c.total).map (s.piece c)).Pairwise fun p q => p.1.home ≠ q.1.home := by
    rw [List.pairwise_map]
    exact List.Pairwise.imp_of_mem (fun hi hj => h.apart _ _ (List.mem_range.1 hi) (List.mem_range.1 hj)) List.nodup_range
  have near := (h.dst k hk).not_gddr
  rw [State.readHome_mem 0 near, h.mem_moveAll]
  exact State.mem_writePieces (p := s.piece c k) apart (List.mem_map_of_mem (List.mem_range.2 hk)) near _

/-- No other byte outside GDDR-7 changes. -/
theorem State.Movable.moveAll_other {a : Nat} (ha : space a ≠ .gddr) (other : ∀ k, k < c.total → (c.dstAt k).home ≠ a) :
    (s.moveAll n c).readHome 0 a = s.readHome 0 a := by
  have clean : s.L1Clean n a := by
    intro l found
    rw [h.copies] at found
    cases found
  rw [State.readHome_mem 0 ha, State.readHome_mem 0 ha, h.mem_moveAll]
  refine (State.mem_writePieces_other (fun p hp => ?_) _).trans (State.mem_l1Drops s n _ clean)
  obtain ⟨k, hk, rfl⟩ := List.mem_map.1 hp
  exact other k (List.mem_range.1 hk)

end

/-! ## The end of a command (06 R114) -/

/-- An engine whose first command moves at once, and names no flag, goes on to its next command. -/
theorem exec_engineCommand_all {s : State} {n : CoreNum} {c : EngCmd} {rest : List EngCmd} (eng : (s.core n.toNat).eng = c :: rest)
    (moved : c.moved = []) (flag : c.flag = 0) (scope : c.scope ≠ 6) (h : s.Movable n.toNat c) : exec (.engineCommand n) s =
      .next ((s.moveAll n.toNat c).setCore n.toNat { (s.moveAll n.toNat c).core n.toNat with eng := rest }) := by
  have ends : ((c.scope == 6 || c.flag.getLsbD 31) && (s.moveAll n.toNat c).unacked (.engine n.toNat)) = false := by
    simp [scope, flag]
  have unflagged : ∀ t : State, t.writeFlag c.flag = t := fun t => by simp [State.writeFlag, flag]
  rw [exec_engineCommand, execEngineCommand]
  simp only [eng, h.engineMove moved, ends, unflagged]
  rfl

end Sys2Proof.Machine

namespace Sys2Proof.Proofs
open Sys2Proof Sys2Proof.Machine Sys2Proof.Says

/-- Settles O26: the forms' answers at execute, and the engine's writes of a payload whose destinations lie apart. -/
theorem copyForms : Obligations.CopyForms := by
  unfold Obligations.CopyForms
  intro s
  refine ⟨fun o => ⟨?cpy, ?cpy2, cpy_bad_flag, cpy_bad_length⟩, ?engine⟩
  case cpy => exact fun c form len ok => cpy_givesHeld form len ok
  case cpy2 =>
    exact fun c b aligned cached form rows_pos rows_le bytes_pos bytes_le total_le ok =>
      cpy2_givesHeld aligned cached form ⟨rows_pos, rows_le, bytes_pos, bytes_le, total_le⟩ ok
  case engine =>
    intro n c rest eng moved fe flag scope copies near apart _
    have h : s.Movable n.toNat c := ⟨copies, fun k hk => (near k hk).1, fun k hk => (near k hk).2, fe, apart⟩
    refine ⟨_, exec_engineCommand_all eng moved flag scope h, ?_, fun k hk => h.moveAll_dst hk,
      fun a ha other => h.moveAll_other ha other⟩
    rw [State.core_setCore_self]

end Sys2Proof.Proofs
end

section
/-!
PROOFS of family 08. Tokens between links, entry sides, elements and ordered exit sides (08 R139, R143, R145, 09 R151, R170).
-/
namespace Sys2Proof.Machine

/-! ## Elements, queues and movement -/

theorem State.elem_setElem (s : State) (e f : Nat) (x : Elem) : (s.setElem e x).elem f = if f = e then x else s.elem f :=
  Sp.get_set ..
@[simp] theorem State.elem_setElem_self (s : State) (e : Nat) (x : Elem) : (s.setElem e x).elem e = x := Sp.get_set_self ..

/-- The doldrums counter that a movement restarts stands in the regions; what does not look at them is as it was (09 R164). -/
theorem State.moved_keeps {β : Type} (g : State → β) (hg : ∀ s r, g { s with regions := r } = g s) (s : State) (h c : Nat) :
    g (s.moved h c) = g s := by
  simp only [State.moved]
  split
  · rfl
  · exact hg _ _

theorem State.elem_moved (s : State) (h c e : Nat) : (s.moved h c).elem e = s.elem e :=
  State.moved_keeps (·.elem e) (fun _ _ => rfl) s h c
theorem State.readHome_moved (s : State) (h c key a : Nat) : (s.moved h c).readHome key a = s.readHome key a :=
  State.moved_keeps (·.readHome key a) (fun _ _ => rfl) s h c
theorem State.entryq_moved (s : State) (h c : Nat) : (s.moved h c).entryq = s.entryq :=
  State.moved_keeps (·.entryq) (fun _ _ => rfl) s h c
theorem State.exitq_moved (s : State) (h c : Nat) : (s.moved h c).exitq = s.exitq :=
  State.moved_keeps (·.exitq) (fun _ _ => rfl) s h c
theorem State.channels_moved (s : State) (h c : Nat) : (s.moved h c).channels = s.channels :=
  State.moved_keeps (·.channels) (fun _ _ => rfl) s h c
theorem State.egress_moved (s : State) (h c : Nat) : (s.moved h c).egress = s.egress :=
  State.moved_keeps (·.egress) (fun _ _ => rfl) s h c
theorem State.colour_moved (s : State) (h c k : Nat) : (s.moved h c).colour k = s.colour k :=
  State.moved_keeps (·.colour k) (fun _ _ => rfl) s h c

/-- An element with a token behind the last of queue i. -/
def Elem.pushed (x : Elem) (i : Nat) (t : Token) : Elem := { x with queues := x.queues.set i (x.queues.getD i [] ++ [t]) }

theorem Elem.pushed_queue (x : Elem) {i : Nat} (t : Token) (hi : i < x.queues.length) :
    (x.pushed i t).queues.getD i [] = x.queues.getD i [] ++ [t] := by
  simp [Elem.pushed, hi]

theorem Elem.pushed_queue_ne (x : Elem) {i j : Nat} (t : Token) (hj : j ≠ i) :
    (x.pushed i t).queues.getD j [] = x.queues.getD j [] := by
  simp [Elem.pushed, List.getElem?_set_ne hj.symm]

/-- The state after a token has entered queue i of element e. -/
def State.pushed (s : State) (e i : Nat) (t : Token) : State := s.setElem e ((s.elem e).pushed i t)

/-- A token that enters a queue is its last one, and nothing else of the state's elements and bytes differs. -/
theorem State.pushed_moved {s : State} {e i h c : Nat} {t : Token} (hq : (s.elem e).queues.length = 4) (hi : i < 4) :
    (((s.pushed e i t).moved h c).elem e).queues.getD i [] = (s.elem e).queues.getD i [] ++ [t] ∧
      (∀ j, j ≠ i → (((s.pushed e i t).moved h c).elem e).queues.getD j [] = (s.elem e).queues.getD j []) ∧
      (∀ f, f ≠ e → ((s.pushed e i t).moved h c).elem f = s.elem f) ∧
      ∀ key a, ((s.pushed e i t).moved h c).readHome key a = s.readHome key a := by
  refine ⟨?_, fun j hj => ?_, fun f hf => ?_, fun key a => State.readHome_moved ..⟩
  · rw [State.elem_moved, State.pushed, State.elem_setElem_self]
    exact Elem.pushed_queue _ t (hq ▸ hi)
  · rw [State.elem_moved, State.pushed, State.elem_setElem_self]
    exact Elem.pushed_queue_ne _ t hj
  · rw [State.elem_moved, State.pushed, State.elem_setElem, if_neg hf]

/-! ## Links (09 R151) -/

/-- The state with the link register of a source of element e empty. -/
def State.linkTaken (s : State) (e src : Nat) : State :=
  s.setElem e { s.elem e with links := Sp.erase (s.elem e).links src }

theorem State.elem_linkTaken (s : State) (e src : Nat) :
    (s.linkTaken e src).elem e = { s.elem e with links := Sp.erase (s.elem e).links src } := State.elem_setElem_self ..

theorem exec_linkTransfer_enters {s : State} {e : ElemNum} {src : BitVec 3} {sl : BitVec 2} {c : BitVec 8} {t : Token} {i : Nat}
    (link : Sp.find? (s.elem e.toNat).links src.toNat = some t) (slot : t.slot = sl) (colour : t.colour = c)
    (on : ((s.elem e.toNat).slot sl.toNat).op ≠ 0) (gen : ((s.elem e.toNat).slot sl.toNat).gen = t.gen)
    (input : ((s.elem e.toNat).slot sl.toNat).input src.toNat = some i) : exec (.linkTransfer e src sl c) s =
      .next (((s.linkTaken e.toNat src.toNat).pushed e.toNat i t).moved ((s.elem e.toNat).slot sl.toNat).region c.toNat) := by
  have here : (t.slot != sl || t.colour != c) = false := by simp [slot, colour]
  have configured : ((s.elem e.toNat).slot sl.toNat).on = true := bne_iff_ne.2 on
  have current : (((s.elem e.toNat).slot sl.toNat).gen != t.gen) = false := by simp [gen]
  rw [exec_linkTransfer, execLinkTransfer]
  simp only [link, here, configured, current, input]
  rfl

/-! ## Entry sides (08 R139, R143, R145) -/

/-- A colour's queue of an entry side whose head has been admitted and has room in the element that uses the side. -/
structure State.Admitted (s : State) (n port sl : Nat) (t : Token) (rest : List (Token × Bool)) (e i : Nat) : Prop where
  queue : Sp.find? s.entryq (sideKey n port sl t.colour.toNat) = some ((t, true) :: rest)
  user : s.sideUser n port sl true = some e
  input : (s.slot e sl).input 5 = some i
  plain : (s.slot e sl).held i = false
  room : s.roomIn e sl i (tagOf t) = true

/-- The state after the head of a colour's queue of an entry side has entered the element. -/
def State.headEntered (s : State) (n port sl : Nat) (t : Token) (rest : List (Token × Bool)) (e i : Nat) : State :=
  ((s.setEntryq (sideKey n port sl t.colour.toNat) rest).pushed e i
    { t with slot := BitVec.ofNat 2 sl, gen := (s.slot e sl).gen }).moved (s.slot e sl).region t.colour.toNat

section
variable {s : State} {n port sl e i : Nat} {t : Token} {rest : List (Token × Bool)}

theorem State.admitHead_admitted (h : s.Admitted n port sl t rest e i) :
    s.admitHead n port sl t.colour.toNat = s.headEntered n port sl t rest e i := by
  have head : Sp.get [] s.entryq (sideKey n port sl t.colour.toNat) = (t, true) :: rest := by simp [Sp.get, h.queue]
  have plain : ((s.setEntryq (sideKey n port sl t.colour.toNat) rest).elem e |>.slot sl).held i = false := h.plain
  simp only [State.admitHead, head, h.user, h.input, h.room, if_true, State.enter, plain]
  rfl

/-- The head is the last token of its input's queue, with the slot and generation of the element; other elements and all bytes are
as before. -/
theorem State.headEntered_frame (hq : (s.elem e).queues.length = 4) (hi : i < 4) :
    ((s.headEntered n port sl t rest e i).elem e).queues.getD i [] =
        (s.elem e).queues.getD i [] ++ [{ t with slot := BitVec.ofNat 2 sl, gen := (s.slot e sl).gen }] ∧
      (∀ f, f ≠ e → (s.headEntered n port sl t rest e i).elem f = s.elem f) ∧
      ∀ key a, (s.headEntered n port sl t rest e i).readHome key a = s.readHome key a := by
  obtain ⟨last, -, elems, bytes⟩ := State.pushed_moved (s := s.setEntryq (sideKey n port sl t.colour.toNat) rest) hq hi
  exact ⟨last, elems, bytes⟩

theorem State.entryq_headEntered : Sp.get [] (s.headEntered n port sl t rest e i).entryq (sideKey n port sl t.colour.toNat) = rest := by
  rw [State.headEntered, State.entryq_moved]
  exact Sp.get_set_self ..

theorem State.channels_headEntered : (s.headEntered n port sl t rest e i).channels = s.channels := State.channels_moved ..

end

section
variable {s : State} {n : CoreNum} {port : BitVec 4} {sl : BitVec 2} {t : Token} {rest : List (Token × Bool)} {e i : Nat}
  (h : s.Admitted n.toNat port.toNat sl.toNat t rest e i)
include h

/-- The side's own event takes the head of the only queue that it has. -/
theorem exec_entryPortAdmit_admitted (only : s.entryq.filter (fun q => q.1 / 256 == portKey n.toNat port.toNat sl.toNat) =
      [(sideKey n.toNat port.toNat sl.toNat t.colour.toNat, (t, true) :: rest)]) :
    exec (.entryPortAdmit n port sl) s = .next (s.headEntered n.toNat port.toNat sl.toNat t rest e i) := by
  have colour : sideKey n.toNat port.toNat sl.toNat t.colour.toNat % 256 = t.colour.toNat := by
    have := t.colour.isLt
    unfold sideKey
    omega
  rw [exec_entryPortAdmit, execEntryPortAdmit, only]
  simp only [List.map_cons, List.map_nil, List.foldl_cons, List.foldl_nil, colour, State.admitHead_admitted h]

/-- The colour's event takes it, and no receive end has places to give where there is no channel. -/
theorem exec_heldTokenAdmit_admitted (alone : s.channels = []) :
    exec (.heldTokenAdmit n port sl t.colour) s = .next (s.headEntered n.toNat port.toNat sl.toNat t rest e i) := by
  rw [exec_heldTokenAdmit, execHeldTokenAdmit]
  simp only [State.admitHead_admitted h, State.channels_headEntered, alone, List.filter_nil, List.foldl_nil]

end

/-! ## Exit sides (09 R149, R170) -/

section
variable {s : State} {n port sl c e p i : Nat} {t : Token}

/-- An ordered exit side has nothing to emit while no token is of the iteration expected of its context. -/
theorem State.exitPick_none (user : s.sideUser n port sl false = some e) (ordered : (s.slot e sl).cfg.ordx = true)
    (early : ∀ q ∈ Sp.get [] s.exitq (sideKey n port sl c),
      q.iter.toNat ≠ Sp.get 0 s.expect (expectKey n port sl c q.context.toNat)) :
    s.exitPick n port sl c = none := by
  have search : (List.range (Sp.get [] s.exitq (sideKey n port sl c)).length).find? (fun k =>
      ((Sp.get [] s.exitq (sideKey n port sl c))[k]?).any fun q => !(s.slot e sl).cfg.ordx ||
        q.iter.toNat == Sp.get 0 s.expect (expectKey n port sl c q.context.toNat)) = none := by
    rw [List.find?_eq_none]
    intro k hk
    have inside := List.mem_range.1 hk
    simpa [ordered, List.getElem?_eq_getElem inside] using early _ (List.getElem_mem inside)
  simp only [State.exitPick, user, search]

/-- The token that an exit side emits leaves its place in the buffer; of the rest only regions, expected iterations and the cores'
sections can differ. -/
theorem State.exitEmit_pick (pick : s.exitPick n port sl c = some (i, t)) (user : s.sideUser n port sl false = some e) :
    ∃ expect cores, s.exitEmit n port sl c = { State.moved { s with
      exitq := Sp.set [] s.exitq (sideKey n port sl c) ((Sp.get [] s.exitq (sideKey n port sl c)).eraseIdx i),
      expect := expect } (s.slot e sl).region c with cores := cores } := by
  have left : ∃ expect, s.exitLeave n port sl c = State.moved { s with
      exitq := Sp.set [] s.exitq (sideKey n port sl c) ((Sp.get [] s.exitq (sideKey n port sl c)).eraseIdx i),
      expect := expect } (s.slot e sl).region c := by
    simp only [State.exitLeave, pick, user]
    split
    · exact ⟨_, rfl⟩
    · exact ⟨s.expect, rfl⟩
  obtain ⟨expect, left⟩ := left
  simp only [State.exitEmit, pick, left]
  split
  · exact ⟨expect, _, rfl⟩
  · exact ⟨expect, _, rfl⟩

theorem State.egressTake_none (pick : s.exitPick n port sl c = none) : s.egressTake n port sl c = s := by
  simp only [State.egressTake, pick, ite_self]

/-- An egress appends the token that it takes, with the function of its colour. -/
theorem State.egressTake_pick (path : s.hostPath (s.partid n) false = true) (pick : s.exitPick n port sl c = some (i, t))
    (user : s.sideUser n port sl false = some e) : (s.egressTake n port sl c).egress = s.egress ++ [((s.colour c).vf, t)] ∧
      Sp.get [] (s.egressTake n port sl c).exitq (sideKey n port sl c) =
        (Sp.get [] s.exitq (sideKey n port sl c)).eraseIdx i := by
  obtain ⟨expect, cores, emit⟩ := State.exitEmit_pick pick user
  simp only [State.egressTake, path, pick, emit, Bool.not_true, Bool.false_eq_true, if_false]
  constructor
  · rw [State.egress_moved]
    congr 3
    exact congrArg (·.vf) (State.colour_moved ..)
  · rw [State.exitq_moved]
    exact Sp.get_set_self ..

/-- A side with no write stream and no send end is drained by the egress that is bound to its port. -/
theorem State.drainExit_egress (streams : (s.core n).streams = []) (channels : s.channels = []) (part : s.partOf n = some p)
    (bound : (s.sched p).ings.any (fun g => g.2.xen && g.2.core.toNat == n && g.2.xport.toNat == port) = true) :
    s.drainExit n port sl c = s.egressTake n port sl c := by
  simp [State.drainExit, streams, channels, part, bound]

end

theorem exec_exitReorderEmit_ordered {s : State} {n : CoreNum} {port : BitVec 4} {sl : BitVec 2} {c : BitVec 8} {e : Nat}
    (user : s.sideUser n.toNat port.toNat sl.toNat false = some e) (ordered : (s.slot e sl.toNat).cfg.ordx = true) :
    exec (.exitReorderEmit n port sl c) s = .next (s.drainExit n.toNat port.toNat sl.toNat c.toNat) := by
  simp only [exec_exitReorderEmit, execExitReorderEmit, user, ordered, if_true]

end Sys2Proof.Machine

namespace Sys2Proof.Proofs
open Sys2Proof Sys2Proof.Machine Sys2Proof.Says

/-- Settles O36: a link's token and an admitted head are pushed behind the queue of their input; an egress takes from an ordered exit
side what `exitPick` finds. -/
theorem tokensMove : Obligations.TokensMove := by
  unfold Obligations.TokensMove
  intro s
  refine ⟨?links, ?entries, ?exits⟩
  case links =>
    intro e src sl c t i x v link slot colour on gen input hi queues
    have taken := s.elem_linkTaken e.toNat src.toNat
    obtain ⟨last, others, elems, bytes⟩ := State.pushed_moved (s := s.linkTaken e.toNat src.toNat) (t := t) (h := v.region)
      (c := c.toNat) ((congrArg (·.queues.length) taken).trans queues) hi
    refine ⟨_, exec_linkTransfer_enters link slot colour on gen input, ?_, ?_, fun j hj => ?_, fun f hf => ?_, bytes⟩
    · rw [State.elem_moved, State.pushed, State.elem_setElem_self, taken, Elem.pushed, Sp.find?_erase, if_pos rfl]
    · rw [last, taken]
    · rw [others j hj, taken]
    · rw [elems f hf, State.linkTaken, State.elem_setElem, if_neg hf]
  case entries =>
    intro n port sl t rest e i k v x only queue user input hi queues plain room admits
    have h : s.Admitted n.toNat port.toNat sl.toNat t rest e i := ⟨queue, user, input, plain, room⟩
    obtain ⟨last, elems, bytes⟩ := s.headEntered_frame (n := n.toNat) (port := port.toNat) (sl := sl.toNat) (t := t) (rest := rest)
      queues hi
    rw [BitVec.ofNat_toNat, BitVec.setWidth_eq] at last
    have enters : ∀ ev, exec ev s = .next (s.headEntered n.toNat port.toNat sl.toNat t rest e i) → admits ev :=
      fun ev hx => ⟨_, hx, last, State.entryq_headEntered, elems, bytes⟩
    exact ⟨enters _ (exec_entryPortAdmit_admitted h only), fun alone => enters _ (exec_heldTokenAdmit_admitted h alone)⟩
  case exits =>
    intro n port sl c e p g i t user ordered streams channels part path ings
    have drained : exec (.exitReorderEmit n port sl c) s = .next (s.egressTake n.toNat port.toNat sl.toNat c.toNat) := by
      rw [exec_exitReorderEmit_ordered user ordered, State.drainExit_egress streams channels part (by simp [ings])]
    refine ⟨fun early => ?_, fun pick => ⟨_, drained, State.egressTake_pick path pick user⟩⟩
    rw [drained, State.egressTake_none (State.exitPick_none user ordered early)]

end Sys2Proof.Proofs
end

section
/-!
PROOFS of family 08. The region and colour forms (08 R147, 09 R158, R161, R166, R168, R172, R179): the handle's check, what each form
answers or holds, and the image and the descriptor that RLOAD and RARM read.
-/
namespace Sys2Proof.Machine
open Sys2Proof.Says

/-! ## What a form that may fault answers (04 R54, R57, R59) -/

section
variable {i : Instr} {g : BitVec 3} {gs : Bool} {s t : State} {f : State → Except XF State} {code lvl : Nat} {v : W64}

theorem givesX_of_checked {d : BitVec 6} (hx : exec i s = checked g gs s f) (hf : f s = .ok (s.setX d v)) : GivesX i g gs s d v :=
  fun hr => ⟨_, hx.trans (checked_ok hr.2 hf), wroteX_setX ..⟩

theorem givesHeld_of_checked {e : Held} (hx : exec i s = checked g gs s f) (hf : f s = .ok (s.hold e)) : GivesHeld i g gs s [e] :=
  fun hr => ⟨_, hx.trans (checked_ok hr.2 hf), holds_holdAll ..⟩

theorem faults_of_checked (hx : exec i s = checked g gs s f) (hf : f s = .error (.fault code lvl v)) (hr : Runs i g gs s) :
    exec i s = .next (s.faultAt s.cur code lvl v) := hx.trans (checked_fault hr.2 hf)

theorem checkedOpen_ok (hg : s.guard g gs = true) (hf : f s = .ok t) : checkedOpen g gs s f = .next t := by
  simp [checkedOpen, hg, hf]

/-- A fault of a form whose tval the manual may leave open uses the free value up. -/
theorem checkedOpen_fault (hg : s.guard g gs = true) (hf : f s = .error (.fault code lvl v)) :
    checkedOpen g gs s f = .next ({ s with free := s.free + 1 }.faultAt s.cur code lvl v) := by
  simp only [checkedOpen, hg, hf, if_true]
  rfl

end

/-! ## COLQ and RPURGE (08 R147, Table 08.5; 09 R166) -/

theorem Region.inUse_iff (r : Region) : r.inUse = true ↔ r.st = .resident ∨ r.st = .torn := by simp [Region.inUse]

section
variable {s : State} {w : W64}

theorem State.colourHandle_ok (mine : s.badHandle s.cur w = false) (inUse : (s.region w.toNat).inUse = true) :
    s.colourHandle w = .ok w.toNat := by
  simp [State.colourHandle, mine, inUse]

theorem State.colourHandle_bad (bad : ¬(s.badHandle s.cur w = false ∧ (s.region w.toNat).inUse = true)) :
    s.colourHandle w = .error (.fault 0x20 0 w) := by
  have refused : (s.badHandle s.cur w || !(s.region w.toNat).inUse) = true := by
    cases grid : s.badHandle s.cur w with
    | true => rfl
    | false => simpa [grid] using bad
  simp [State.colourHandle, refused]

/-- The word of Table 08.5, as the core may read it: at U of its own colour alone. -/
theorem State.colqWord_seen (s : State) (h c : Nat) : (if !s.me.lvlS && c != s.myColour then 0 else s.colqWord h c) =
    (if (s.me.lvlS = false ∧ c ≠ s.me.regs.colour.toNat) ∨ ((s.region h).colour c).quota = 0 then 0
      else BitVec.ofNat 64 (((s.region h).colour c).purged * 2 ^ 40 + (if ((s.region h).colour c).purging then 2 ^ 33 else 0) +
        (if ((s.region h).colour c).closed then 2 ^ 32 else 0) + ((s.region h).colour c).quota * 2 ^ 16 + (s.region h).live c)) := by
  have hidden : (!s.me.lvlS && c != s.myColour) = true ↔ s.me.lvlS = false ∧ c ≠ s.me.regs.colour.toNat := by simp [State.myColour]
  have bit : ∀ (b : Bool) (k : Nat), b2n b * k = if b then k else 0 := fun b k => by cases b <;> simp [b2n]
  by_cases other : s.me.lvlS = false ∧ c ≠ s.me.regs.colour.toNat
  · rw [if_pos (hidden.2 other), if_pos (.inl other)]
  · rw [if_neg (fun seen => other (hidden.1 seen)), State.colqWord]
    by_cases none : ((s.region h).colour c).quota = 0
    · simp [none]
    · rw [if_neg (by simpa using none), if_neg (by simp only [other, none, or_self, not_false_eq_true]), bit, bit, w64]

end

section
variable {i : Instr} {o : RRR} {s : State} {isOpen : Bool} {h : Nat}

theorem colq_givesHeld (hx : exec i s = colqForm o s isOpen) (handle : s.colourHandle (s.x o.a) = .ok h) :
    GivesHeld i o.g o.gs s [.colq h ((s.x o.b).setWidth 8) isOpen] :=
  givesHeld_of_checked hx (by simp only [handle])

theorem colq_bad_handle (hx : exec i s = colqForm o s isOpen) (handle : s.colourHandle (s.x o.a) = .error (.fault 0x20 0 (s.x o.a)))
    (hr : Runs i o.g o.gs s) : exec i s = .next (s.faultAt s.cur 0x20 0 (s.x o.a)) :=
  faults_of_checked hx (by simp only [handle]) hr

end

/-! ## RTEAR and RINJ (09 R161, R168) -/

section
variable {o : RRR} {s : State}

theorem rtear_givesHeld (mine : s.badHandle s.cur (s.x o.a) = false) :
    GivesHeld (.rtear o) o.g o.gs s [.tear (s.x o.a).toNat (o.func == 1)] :=
  givesHeld_of_checked (exec_rtear o s) (by simp [mine])

theorem rtear_bad_handle (bad : s.badHandle s.cur (s.x o.a) = true) (hr : Runs (.rtear o) o.g o.gs s) :
    exec (.rtear o) s = .next (s.faultAt s.cur 0x20 0 (s.x o.a)) :=
  faults_of_checked (exec_rtear o s) (by simp [bad]) hr

theorem rinj_givesHeld (mine : s.badHandle s.cur (s.x o.a) = false)
    (ok : s.injectOk (s.x o.a).toNat (s.x o.b) (s.x o.c) = true) :
    GivesHeld (.rinj o) o.g o.gs s [.inject (s.x o.a).toNat (s.x o.b) (s.x o.c)] :=
  givesHeld_of_checked (exec_rinj o s) (by simp [mine, ok])

theorem rinj_bad_injection (mine : s.badHandle s.cur (s.x o.a) = false)
    (bad : s.injectOk (s.x o.a).toNat (s.x o.b) (s.x o.c) = false) (hr : Runs (.rinj o) o.g o.gs s) :
    exec (.rinj o) s = .next (s.faultAt s.cur 0x26 0 (s.x o.c)) :=
  faults_of_checked (exec_rinj o s) (by simp [mine, bad]) hr

theorem rinj_bad_handle (bad : s.badHandle s.cur (s.x o.a) = true) (hr : Runs (.rinj o) o.g o.gs s) :
    exec (.rinj o) s = .next (s.faultAt s.cur 0x20 0 (s.x o.a)) :=
  faults_of_checked (exec_rinj o s) (by simp [bad]) hr

end

/-! ## RLOAD (09 R158, R179) -/

section
variable {o : RRR} {s : State}

theorem rload_misaligned (misaligned : (s.x o.a).toNat % 32 ≠ 0) (hr : Runs (.rload o) o.g o.gs s) :
    exec (.rload o) s = .next (s.faultAt s.cur 0x08 0 (s.x o.a)) := by
  simp [execRload, hr.2, misaligned, State.stopFor]

theorem rload_no_core (aligned : (s.x o.a).toNat % 32 = 0) (above : 1024 ≤ (s.x o.b).toNat) (hr : Runs (.rload o) o.g o.gs s) :
    exec (.rload o) s = .next (s.faultAt s.cur 0x21 0 (s.x o.b)) := by
  have outside : s.targetOk s.cur (s.x o.b) = false := by simp [State.targetOk, Nat.not_lt.2 above]
  simp [execRload, hr.2, aligned, outside, State.stopFor]

/-- The load that an RLOAD holds. -/
def State.rloadCmd (s : State) (o : RRR) (h : Nat) (img : Image) : LoadCmd :=
  { core := s.cur, target := (s.x o.b).toNat, handle := h, force := o.func == 1, loader := false, pin := false, img := img }

/-- An image whose checks hold: the handle is in its register, and the load is held. -/
theorem exec_rload_ok {h : Nat} {img : Image} (aligned : (s.x o.a).toNat % 32 = 0) (target : s.targetOk s.cur (s.x o.b) = true)
    (image : s.readImage s.cur (imageWord s) (s.x o.a) (s.x o.b).toNat = .ok (h, img)) (hr : Runs (.rload o) o.g o.gs s) :
    exec (.rload o) s = .next ((s.setX o.d (w64 h)).hold (.load (s.rloadCmd o h img))) := by
  have on : (!s.guard o.g o.gs) = false := by simp [hr.2]
  have line : ((s.x o.a).toNat % 32 != 0) = false := by simp [aligned]
  simp only [exec_rload, execRload, on, line, target, Bool.not_true, Bool.false_eq_true, if_false]
  -- the reader that `execRload` writes out is `imageWord` by unfolding
  erw [image]
  rfl

end

/-! ## RARM (09 R172) -/

/-- The dwords of a descriptor's snapshot are those of its block. -/
theorem sectDesc_eq (d : BitVec 256) : sectDesc d = (List.range 4).map fun k => BitVec.ofNat 64 (d.toNat / 2 ^ (64 * k)) := by
  refine List.map_congr_left fun k _ => BitVec.eq_of_toNat_eq ?_
  have width : 64 * k + 63 + 1 - 64 * k = 64 := by omega
  rw [cbFld, fld, width, w64, BitVec.toNat_ofNat, BitVec.toNat_ofNat, Nat.mod_mod]

/-- What RARM holds before its arm: a release orders the accesses of the section's streams behind the core's earlier ones (10 R186). -/
def State.armHeld (s : State) (t : Section) : State := if t.streams == 0 then s else s.hold (.release false)

/-- Holding the release keeps the registers, the level and every byte. -/
theorem State.armHeld_frame (s : State) (t : Section) :
    (s.armHeld t).blk.held = s.blk.held ++ (if t.streams = 0 then [] else [.release false]) ∧ (s.armHeld t).w = s.w ∧
      (s.armHeld t).me.lvlS = s.me.lvlS ∧ ∀ key a, (s.armHeld t).readHome key a = s.readHome key a := by
  by_cases none : t.streams = 0
  · simp [State.armHeld, none]
  · have released : s.armHeld t = s.hold (.release false) := by simp [State.armHeld, none]
    rw [released, if_neg none]
    exact ⟨State.held_hold .., State.w_hold .., State.me_lvlS_hold .., fun _ _ => rfl⟩

/-- The register that RARM will write is marked with the place of its arm among the held effects. -/
def State.markArm (s : State) (d : BitVec 6) (k : Nat) : State :=
  if d = 0 then s else s.setW { s.w with arms := Sp.put s.w.arms d.toNat k }

theorem State.markArm_frame (s : State) (d : BitVec 6) (k : Nat) :
    (s.markArm d k).blk.held = s.blk.held ∧ (∀ a, (s.markArm d k).x a = s.x a) ∧
      ∀ key a, (s.markArm d k).readHome key a = s.readHome key a := by
  unfold State.markArm
  split
  · exact ⟨rfl, fun _ => rfl, fun _ _ => rfl⟩
  · refine ⟨State.blk_held_setW .., fun a => ?_, fun _ _ => rfl⟩
    rw [State.x, State.w_setW]
    rfl

/-- The state after an RARM of a descriptor. -/
def State.armed (s : State) (o : RRR) (t : Section) : State :=
  let u := s.armHeld t
  (u.hold (.arm o.d u.blk.held.length t.desc (u.x o.a) u.me.lvlS)).markArm o.d u.blk.held.length

theorem exec_rarm_ok {o : RRR} {s : State} {d : BitVec 256} (hr : Runs (.rarm o) o.g o.gs s) (aligned : (s.x o.a).toNat % 32 = 0)
    (cached : s.me.cbc.find? (fun e => e.1 == (s.x o.a).toNat) = some ((s.x o.a).toNat, d))
    (ok : s.armCheck s.cur { Section.reset with desc := sectDesc d } s.armedHere (fun i => (s.streamSeen i).st == .bound) s.me.lvlS
      s.myColour = .ok ()) : exec (.rarm o) s = .next (s.armed o { Section.reset with desc := sectDesc d }) := by
  refine (exec_rarm o s).trans (checkedOpen_ok hr.2 ?_)
  simp only [State.controlBlock_cached aligned cached, ok]
  rfl

/-- An RARM holds its arm, behind the release of its streams, and changes no register that the block can read. -/
theorem State.armed_frame (s : State) (o : RRR) (t : Section) :
    let pre : List Held := if t.streams = 0 then [] else [.release false]
    (∀ a, (s.armed o t).x a = s.x a) ∧
      (s.armed o t).blk.held = s.blk.held ++ pre ++ [.arm o.d (s.blk.held.length + pre.length) t.desc (s.x o.a) s.me.lvlS] ∧
      ∀ key a, (s.armed o t).readHome key a = s.readHome key a := by
  intro pre
  obtain ⟨held, regs, level, bytes⟩ := s.armHeld_frame t
  have same : ∀ a, (s.armHeld t).x a = s.x a := fun a => congrArg (·.getX a) regs
  obtain ⟨markHeld, markX, markBytes⟩ :=
    ((s.armHeld t).hold (.arm o.d (s.armHeld t).blk.held.length t.desc ((s.armHeld t).x o.a) (s.armHeld t).me.lvlS)).markArm_frame
      o.d (s.armHeld t).blk.held.length
  refine ⟨fun a => (markX a).trans ?_, markHeld.trans ?_, fun key a => (markBytes key a).trans (bytes key a)⟩
  · rw [State.x, State.w_hold]
    exact same a
  · rw [State.held_hold, held, same, level, List.length_append]

/-! ## RCALM (09 R163, R179, Table 09.12) -/

/-- The wait of an RCALM. -/
def State.calmWait (s : State) (o : RRR) (a : Answer) : State :=
  s.waitOn (.rcalm o.func.toNat o.d.toNat (s.x o.a).toNat ((s.x o.b).setWidth 8) ((s.x o.b).toNat % 16)) a

theorem State.tryAnswer_calmWait_none (s : State) (o : RRR) : (s.calmWait o .none).tryAnswer = s.calmWait o .none := by
  simp [State.tryAnswer, State.calmWait, State.answerRcalm]

/-- The answer of a form other than `.sect` takes no copy away. -/
theorem State.tryAnswer_calmWait_val (s : State) {o : RRR} (form : o.func.toNat ≠ 2) (v : W64) :
    (s.calmWait o (.val v)).tryAnswer = (s.calmWait o (.val v)).answerX o.d.toNat v := by
  simp [State.tryAnswer, State.calmWait, State.answerRcalm, form]

theorem stateCode_eq_codeOf (st : RegionState) : stateCode st = codeOf st := by cases st <;> rfl

/-- The word of Table 09.12 without a colour: calm at two quiet sweeps, or where the region is not in use (log 38). -/
theorem State.regionWord_stat (s : State) (h : Nat) : s.regionWord h none =
    BitVec.ofNat 64 ((s.region h).supp * 2 ^ 40 + (s.region h).stale * 2 ^ 20 + min 15 (s.armedOn h) * 2 ^ 8 +
      codeOf (s.region h).st * 8 +
      (if ((s.region h).st = .resident ∨ (s.region h).st = .torn) ∧ (s.region h).quiet < 2 then 0 else 1)) := by
  have calm : b2n (!(s.region h).inUse || (s.region h).quiet ≥ 2) =
      if ((s.region h).st = .resident ∨ (s.region h).st = .torn) ∧ (s.region h).quiet < 2 then 0 else 1 := by
    by_cases used : (s.region h).st = .resident ∨ (s.region h).st = .torn
    · have inUse := (s.region h).inUse_iff.2 used
      by_cases quiet : (s.region h).quiet < 2
      · simp [b2n, inUse, used, quiet]
      · simp [b2n, inUse, quiet, Nat.not_lt.1 quiet]
    · have unused : (s.region h).inUse = false := by rwa [← Bool.not_eq_true, Region.inUse_iff]
      simp [b2n, used, unused]
  have uncoloured : b2n false * 2 = 0 := rfl
  simp only [State.regionWord, w64, calm, stateCode_eq_codeOf, uncoloured, Nat.add_zero]

section
variable {o : RRR} {s : State} (hr : Runs (.rcalm o) o.g o.gs s)
include hr

theorem exec_rcalm_stat (mine : s.badHandle s.cur (s.x o.a) = false) (form : o.func = 3) :
    exec (.rcalm o) s = .next (s.calmWait o (.val (s.regionWord (s.x o.a).toNat none))) :=
  (exec_rcalm o s).trans (checkedOpen_ok hr.2 (by simp [mine, form, State.calmWait]))

theorem exec_rcalm_reg (mine : s.badHandle s.cur (s.x o.a) = false) (form : o.func = 0)
    (inUse : (s.region (s.x o.a).toNat).inUse = true) : exec (.rcalm o) s = .next (s.calmWait o .none) :=
  (exec_rcalm o s).trans (checkedOpen_ok hr.2 (by simp [mine, form, inUse, State.calmWait]))

theorem rcalm_bad_handle (bad : s.badHandle s.cur (s.x o.a) = true) (form : o.func ≠ 2) :
    exec (.rcalm o) s = .next ({ s with free := s.free + 1 }.faultAt s.cur 0x20 0 (s.x o.a)) := by
  have other : (o.func == 2) = false := beq_eq_false_iff_ne.2 form
  refine (exec_rcalm o s).trans (checkedOpen_fault hr.2 ?_)
  simp only [other, bad]
  rfl

end

end Sys2Proof.Machine

namespace Sys2Proof.Proofs
open Sys2Proof Sys2Proof.Machine Sys2Proof.Says

/-- Settles O35: a handle that passes its check is the region's, and each form then reads or holds what its clause says. -/
theorem regionForms : Obligations.RegionForms := by
  unfold Obligations.RegionForms
  intro o s a b h col r q mine inUse stops
  have foreign : ¬mine → s.badHandle s.cur a = true := fun bad => Bool.not_eq_false _ ▸ bad
  refine ⟨?colour, ?noRegion, rtear_givesHeld, rinj_givesHeld, rinj_bad_injection,
    fun bad => ⟨rtear_bad_handle (foreign bad), rinj_bad_handle (foreign bad)⟩, ?load, rload_misaligned, rload_no_core, ?arm,
    ?stat, ?reg, fun bad form hr => rcalm_bad_handle hr (foreign bad) form⟩
  case colour =>
    intro ok used
    have handle : s.colourHandle (s.x o.a) = .ok h := State.colourHandle_ok ok (r.inUse_iff.2 used)
    refine ⟨?read, colq_givesHeld (exec_colqOpen o s) handle, colq_givesHeld (exec_colqClose o s) handle, ?purge⟩
    case read =>
      rw [← s.colqWord_seen h col]
      exact givesX_of_checked (exec_colqRd o s) (by simp only [handle]; rfl)
    case purge => exact givesHeld_of_checked (exec_rpurge o s) (by simp only [handle]; rfl)
  case noRegion =>
    intro bad
    have handle : s.colourHandle (s.x o.a) = .error (.fault 0x20 0 a) := State.colourHandle_bad (by rwa [Region.inUse_iff])
    exact ⟨faults_of_checked (exec_colqRd o s) (by simp only [handle]), colq_bad_handle (exec_colqOpen o s) handle,
      colq_bad_handle (exec_colqClose o s) handle, faults_of_checked (exec_rpurge o s) (by simp only [handle])⟩
  case load =>
    intro g img aligned low present same image hr
    have target : s.targetOk s.cur (s.x o.b) = true := by
      simp only [State.targetOk, Bool.and_eq_true, decide_eq_true_eq, beq_iff_eq]
      exact ⟨⟨low, present⟩, same⟩
    obtain ⟨written, others, -, -, -, -, -, held, bytes, -⟩ := wroteX_setX s o.d (w64 g)
    have regs : ∀ x, ((s.setX o.d (w64 g)).hold (.load (s.rloadCmd o g img))).x x = (s.setX o.d (w64 g)).x x :=
      fun x => congrArg (·.getX x) (State.w_hold ..)
    refine ⟨_, exec_rload_ok aligned target image hr, (regs o.d).trans written, fun x hx => (regs x).trans (others x hx), ?_, bytes⟩
    rw [State.held_hold, held]
    rfl
  case arm =>
    intro d aligned cached t0 pre ok hr
    have snapshot : t0 = { Section.reset with desc := sectDesc d } := by rw [sectDesc_eq]
    obtain ⟨regs, held, bytes⟩ := s.armed_frame o t0
    exact ⟨_, snapshot ▸ exec_rarm_ok hr aligned cached (snapshot ▸ ok), regs, held, bytes⟩
  case stat =>
    intro ok form hr
    have notSect : o.func.toNat ≠ 2 := by simp [form]
    refine ⟨_, ⟨_, exec_rcalm_stat hr ok form, exec_waitAnswer_cur (s.tryAnswer_calmWait_val notSect _) rfl⟩,
      State.wait_answerX .., ?_, fun x hx => ?_, fun _ _ => rfl⟩
    · rw [State.x_answerX, if_pos rfl, State.regionWord_stat]
    · rw [State.x_answerX, if_neg hx, State.calmWait, State.x_waitOn]
  case reg =>
    intro ok form used hr
    exact ⟨_, exec_rcalm_reg hr ok form (r.inUse_iff.2 used), by simp [State.calmWait],
      exec_waitAnswer_cur (s.tryAnswer_calmWait_none o) rfl⟩

end Sys2Proof.Proofs
end

section
/-!
PROOFS of family 10. One access of a running stream (10 R183 to R187, Table 10.1): the word that it reads or writes, where the word goes,
and the position behind it.
-/
namespace Sys2Proof.Machine

/-! ## Words of memory as bytes -/

/-- The bytes of a value that bytes make are those bytes. -/
theorem leBytes_bytesNat (bs : List Byte) : leBytes bs.length (bytesNat bs) = bs := by
  induction bs with
  | nil => rfl
  | cons b t ih =>
    have low : BitVec.ofNat 8 (b.toNat + 256 * bytesNat t) = b := by
      apply BitVec.eq_of_toNat_eq
      have := b.isLt
      rw [BitVec.toNat_ofNat]
      omega
    have rest : (b.toNat + 256 * bytesNat t) / 256 = bytesNat t := by
      have := b.isLt
      omega
    rw [List.length_cons, leBytes, bytesNat, low, rest, ih]

theorem leBytes_length (n v : Nat) : (leBytes n v).length = n := by simp [leBytes_eq_map]

theorem leBytes_getD {n i : Nat} (v : Nat) (hi : i < n) : (leBytes n v).getD i 0 = BitVec.ofNat 8 (v / 256 ^ i) := by
  simp [leBytes_eq_map, hi]

section
variable (s : State) (key h : Nat)

theorem State.readHomeN_getD {n i : Nat} (hi : i < n) : (s.readHomeN key h n).getD i 0 = s.readHome key (h + i) := by
  induction n generalizing h i with
  | zero => omega
  | succ n ih =>
    cases i with
    | zero => rfl
    | succ i =>
      rw [State.readHomeN, List.getD_cons_succ, ih (h + 1) (by omega)]
      congr 1
      omega

/-- A word that is read fits its 32 bits. -/
theorem State.toNat_w32_readVal : (w32 (s.readVal key h 4)).toNat = s.readVal key h 4 := by
  have word := bytesNat_lt (s.readHomeN key h 4)
  rw [s.readHomeN_length] at word
  rw [w32, BitVec.toNat_ofNat]
  exact Nat.mod_eq_of_lt word

/-- A word is stored as the bytes that it was read from. -/
theorem State.leBytes_readVal (n : Nat) : leBytes n (s.readVal key h n) = s.readHomeN key h n := by
  have bytes := leBytes_bytesNat (s.readHomeN key h n)
  rwa [s.readHomeN_length] at bytes

end

theorem space_padHome (n off : Nat) : space (padHome n off) = .pad := by
  have above : padHome n off ≥ padBase := by
    unfold padHome
    omega
  simp [space, above]

/-! ## Streams of a core -/

@[simp] theorem State.stream_setStream_self (s : State) (n i : Nat) (q : Stream) : ((s.setStream n i q).core n).stream i = q := by
  rw [State.setStream, State.core_setCore_self]
  exact Sp.get_set_self ..

/-- The pad word that a position names (10 R183). -/
def Stream.padWord (q : Stream) (n : Nat) : Nat := padHome n (4 * (q.toff + q.r * q.n0 + q.i0))

theorem Stream.targetHome_pad {q : Stream} (pad : q.target = 1) (n : Nat) : q.targetHome n = q.padWord n := by
  simp [Stream.targetHome, Stream.padWord, pad]

theorem Stream.space_padWord (q : Stream) (n i : Nat) : space (q.padWord n + i) ≠ .gddr := by
  rw [show q.padWord n + i = padHome n (4 * (q.toff + q.r * q.n0 + q.i0) + i) from Nat.add_assoc .., space_padHome]
  decide

/-! ## An access -/

/-- Stream i of core n, in state q, runs with a word left to move, waits for nothing, and its access at the position is permitted, to
the unpoisoned floor word that `tr` names. -/
structure State.Moves (s : State) (n i : Nat) (q : Stream) (tr : Tr) : Prop where
  stream : (s.core n).stream i = q
  running : q.st = .running
  free : q.hold = false
  sent : q.out = none
  taken : q.got = none
  words : q.n0 ≠ 0
  tiles : q.tile < q.tiles
  quiet : s.reading (.stream n i) = false
  access : s.access n q.colour.toNat q.addr 4 q.lvlS false (if q.write then .w else .r) = .ok tr
  floor : ∀ j, j < 4 → space (tr.home + j) = .floor
  clean : s.anyPoison tr.home 4 = false

section
variable {s : State} {n i : Nat} {q : Stream} {tr : Tr}

/-- The next access of a stream other than a port write is issued: a write stores the word of its target at its address, a read takes
the word there. -/
theorem State.Moves.streamAccess_issues (h : s.Moves n i q tr) (issues : (q.target == 0 && q.write) = false) : s.streamAccess n i =
    if q.write then (s.streamWrite n i q tr (w32 (s.readVal 0 (q.targetHome n) 4)) (s.anyPoison (q.targetHome n) 4)).setStream n i q.step
    else s.streamTake n i q (w32 (s.readVal tr.key tr.home 4)) false := by
  obtain ⟨rfl, running, free, sent, taken, words, tiles, quiet, access, floor, clean⟩ := h
  have here : space tr.home = .floor := floor 0 (by decide)
  have left : ((s.core n).stream i).spent = false := by simp [Stream.spent, Nat.not_le.2 tiles]
  have word : s.streamRead tr = some (w32 (s.readVal tr.key tr.home 4), false) := by simp [State.streamRead, here, clean]
  simp only [State.streamAccess, sent, issues, quiet, taken, running, free, left, beq_eq_false_iff_ne.2 words, access, word]
  rfl

/-- A read stream takes the word at its address. -/
theorem State.Moves.streamAccess_read (h : s.Moves n i q tr) (read : q.write = false) :
    s.streamAccess n i = s.streamTake n i q (w32 (s.readVal tr.key tr.home 4)) false := by
  rw [h.streamAccess_issues (by simp [read]), read]
  rfl

/-- A write stream to the pad stores its pad word at its address, and its position advances. -/
theorem State.Moves.streamAccess_write (h : s.Moves n i q tr) (write : q.write = true) (pad : q.target = 1)
    (clean : s.anyPoison (q.padWord n) 4 = false) :
    s.streamAccess n i = (s.write tr.key tr.home (s.readHomeN 0 (q.padWord n) 4)).setStream n i q.step := by
  have here : space tr.home = .floor := h.floor 0 (by decide)
  rw [h.streamAccess_issues (by simp [pad]), if_pos write, Stream.targetHome_pad pad, clean]
  simp [State.streamWrite, here, State.writeAs, State.toNat_w32_readVal, State.leBytes_readVal]

/-! ## Where a word goes -/

/-- With nothing got from another device, forgetting it changes nothing. -/
theorem Stream.got_none (taken : q.got = none) : { q with got := none } = q := by
  rw [← taken]

theorem State.streamTake_pad (taken : q.got = none) (pad : q.target = 1) (v : W32) :
    s.streamTake n i q v false = (s.write 0 (q.padWord n) (leBytes 4 v.toNat)).setStream n i q.step := by
  simp [State.streamTake, pad, Stream.got_none taken, Stream.targetHome_pad pad, State.writeAs]

/-- The token of a word that a port read takes (10 R183, Table 10.1). -/
def Stream.token (q : Stream) (v : W32) : Token :=
  { value := v, colour := q.colour, context := q.context, iter := BitVec.ofNat 14 q.tile, fmt := BitVec.ofNat 3 q.fmt,
    slot := BitVec.ofNat 2 q.slot, eor := q.i0 + 1 == q.n0, eos := q.i0 + 1 == q.n0 && q.lastRow, poison := false, bubble := false,
    gen := 0 }

theorem State.streamTake_port (taken : q.got = none) (port : q.target = 0) (v : W32) :
    s.streamTake n i q v false = s.setStream n i { q.step with out := some (q.token v), outPort := q.port } := by
  simp [State.streamTake, port, Stream.got_none taken, Stream.token]

theorem exec_streamAccess_of {n : CoreNum} {k : BitVec 4} {t : State} (moved : s.streamAccess n.toNat k.toNat = t) :
    exec (.streamAccess n k) s = .next t :=
  (exec_streamAccess n k s).trans (congrArg Host.Outcome.next moved)

/-! ## Bytes after an access -/

theorem State.readHome_write_word (v : Nat) {a : Nat} (ha : space a ≠ .gddr) :
    (s.write 0 (q.padWord n) (leBytes 4 v)).readHome 0 a =
      if q.padWord n ≤ a ∧ a < q.padWord n + 4 then BitVec.ofNat 8 (v / 256 ^ (a - q.padWord n)) else s.readHome 0 a := by
  rw [State.readHome_write _ _ _ _ _ _ (fun j _ => q.space_padWord n j) ha, leBytes_length]
  refine ite_congr rfl (fun inside => leBytes_getD v ?_) fun _ => rfl
  omega

theorem State.readHome_write_copy {key h src : Nat} (floor : ∀ j, j < 4 → space (h + j) = .floor) {a : Nat} (ha : space a ≠ .gddr) :
    (s.write key h (s.readHomeN 0 src 4)).readHome 0 a =
      if h ≤ a ∧ a < h + 4 then s.readHome 0 (src + (a - h)) else s.readHome 0 a := by
  have near : ∀ j, j < (s.readHomeN 0 src 4).length → space (h + j) ≠ .gddr := fun j hj => by
    rw [floor j (s.readHomeN_length 0 src 4 ▸ hj)]
    decide
  rw [State.readHome_write _ _ _ _ _ _ near ha, s.readHomeN_length]
  refine ite_congr rfl (fun inside => s.readHomeN_getD 0 src ?_) fun _ => rfl
  omega

end

end Sys2Proof.Machine

namespace Sys2Proof.Proofs
open Sys2Proof Sys2Proof.Machine Sys2Proof.Says

/-- Settles O30: the access of a read stream is the taking of its word, by the target, and that of a pad write a copy of its pad word; the
stream's new state is the step of its old one. -/
theorem streamAccessMovesOneWord : Obligations.StreamAccessMovesOneWord := by
  unfold Obligations.StreamAccessMovesOneWord
  intro n k s tr q w after running free sent taken words tiles quiet access floor clean
  have h : s.Moves n.toNat k.toNat q tr := ⟨rfl, running, free, sent, taken, words, tiles, quiet, access, floor, clean⟩
  refine ⟨fun read pad => ?pad, fun read port => ?port, fun write pad padClean => ?write⟩
  case pad =>
    refine ⟨_, exec_streamAccess_of ((h.streamAccess_read read).trans (State.streamTake_pad taken pad _)),
      State.stream_setStream_self .., fun a ha => ?_⟩
    rw [State.toNat_w32_readVal]
    exact State.readHome_write_word _ ha
  case port =>
    exact ⟨_, _, exec_streamAccess_of ((h.streamAccess_read read).trans (State.streamTake_port taken port _)),
      State.stream_setStream_self .., rfl, rfl, rfl, rfl, rfl, rfl, rfl, fun _ _ => rfl⟩
  case write =>
    exact ⟨_, exec_streamAccess_of (h.streamAccess_write write pad padClean), State.stream_setStream_self ..,
      fun a ha => State.readHome_write_copy floor ha⟩

end Sys2Proof.Proofs
end

section
/-!
PROOFS of family 10. The stream forms (10 R182, R186, R187, R191): what each form holds or reads, what it raises for a stream in the wrong
state, and the two waits of SBAR.
-/
namespace Sys2Proof.Machine
open Sys2Proof.Says

/-! ## The streams of a mask -/

theorem mem_maskBits {mask : BitVec 16} {k : Nat} : k ∈ maskBits mask.toNat ↔ k < 16 ∧ mask.getLsbD k = true := by
  have bit : bitAt mask.toNat k = mask.getLsbD k := by
    rw [BitVec.getLsbD, Nat.testBit_eq_decide_div_mod_eq, bitAt]
    rfl
  rw [maskBits, List.mem_filter, List.mem_range, bit]

/-! ## SBIND (10 R182) -/

section
variable {o : STR} {s : State} {d : BitVec 256}

/-- A binding names no port that another stream of the core, or a channel end, already has on that side (10 R182, 25 R346). -/
def State.sideFree (s : State) (i : Nat) (p : Stream) : Prop :=
  p.target ≠ 0 ∨ s.sideBound (some i) p.port p.write = false ∧ s.channelNames s.cur p.port (!p.write) = false

theorem sbind_unbinds (unreserved : (s.streamSeen o.sid.toNat).st ≠ .reserved) (resting : (s.streamSeen o.sid.toNat).st ≠ .running)
    (form : o.func = 1) : GivesHeld (.sbind o) o.g o.gs s [.stream o.sid.toNat none] :=
  givesHeld_of_checked (exec_sbind o s) (by simp [form, unreserved, resting])

theorem sbind_busy_unbind (busy : (s.streamSeen o.sid.toNat).st = .reserved ∨ (s.streamSeen o.sid.toNat).st = .running)
    (form : o.func = 1) (hr : Runs (.sbind o) o.g o.gs s) :
    exec (.sbind o) s = .next (s.faultAt s.cur 0x28 0 (BitVec.ofNat 64 o.sid.toNat)) :=
  faults_of_checked (exec_sbind o s) (by simp [form, busy, streamBusy, w64]) hr

section
variable (form : o.func ≠ 1) (aligned : (s.x o.a).toNat % 32 = 0)
  (cached : s.me.cbc.find? (fun e => e.1 == (s.x o.a).toNat) = some ((s.x o.a).toNat, d))
  (pattern : ((s.streamSeen o.sid.toNat).bindTo (some (d, s.x o.b))).patternOk = true)
include form aligned cached pattern

theorem sbind_binds (unreserved : (s.streamSeen o.sid.toNat).st ≠ .reserved) (resting : (s.streamSeen o.sid.toNat).st ≠ .running)
    (side : s.sideFree o.sid.toNat ((s.streamSeen o.sid.toNat).bindTo (some (d, s.x o.b)))) :
    GivesHeld (.sbind o) o.g o.gs s [.stream o.sid.toNat (some (d, s.x o.b))] := by
  have free : ∀ p, p = (s.streamSeen o.sid.toNat).bindTo (some (d, s.x o.b)) →
      ((s.streamSeen o.sid.toNat).st == .reserved || (s.streamSeen o.sid.toNat).st == .running ||
        p.target == 0 && (s.sideBound (some o.sid.toNat) p.port p.write || s.channelNames s.cur p.port (!p.write))) = false := by
    rintro p rfl
    rcases side with port | ⟨streams, channels⟩
    · simp [unreserved, resting, port]
    · simp [unreserved, resting, streams, channels]
  refine givesHeld_of_checked (exec_sbind o s) ?_
  simp only [beq_eq_false_iff_ne.2 form, State.controlBlock_cached aligned cached, pattern, free _ rfl]
  rfl

theorem sbind_busy_bind (busy : (s.streamSeen o.sid.toNat).st = .reserved ∨ (s.streamSeen o.sid.toNat).st = .running)
    (hr : Runs (.sbind o) o.g o.gs s) :
    exec (.sbind o) s = .next (s.faultAt s.cur 0x28 0 (BitVec.ofNat 64 o.sid.toNat)) := by
  have refused : ((s.streamSeen o.sid.toNat).st == .reserved || (s.streamSeen o.sid.toNat).st == .running) = true := by simpa using busy
  refine faults_of_checked (exec_sbind o s) ?_ hr
  simp only [beq_eq_false_iff_ne.2 form, State.controlBlock_cached aligned cached, pattern, refused, Bool.true_or]
  rfl

end

end

/-! ## SSTART and SCLOSE (10 R186, R191) -/

section
variable {o : STR} {s : State}

/-- A start is held behind a release, which orders it behind the core's earlier accesses (10 R186). -/
theorem sstart_givesHeld {resume : Bool} (form : (o.func == 1) = resume)
    (ready : ∀ k, k < 16 → o.smask.getLsbD k = true →
      (s.streamSeen k).st = .closed ∨ resume = false ∧ (s.streamSeen k).st = .bound)
    (word : resume = false → s.startOk (s.x o.a) = true) :
    GivesHeld (.sstart o) o.g o.gs s [.release false, .sstart o.smask.toNat resume (s.x o.a) s.me.lvlS] := by
  rintro ⟨-, hg⟩
  have found : (maskBits o.smask.toNat).find? (fun i =>
      !((s.streamSeen i).st == .closed || (!resume && (s.streamSeen i).st == .bound))) = none := by
    rw [List.find?_eq_none]
    intro k hk
    obtain ⟨inside, named⟩ := mem_maskBits.1 hk
    rcases ready k inside named with closed | ⟨fresh, bound⟩
    · simp [closed]
    · simp [fresh, bound]
  have started : (!resume && !s.startOk (s.x o.a)) = false := by
    cases resume
    · simp [word]
    · rfl
  refine ⟨_, (exec_sstart o s).trans (checked_ok hg ?_), holds_holdAll ..⟩
  simp only [form, found, started, State.hold_hold]
  rfl

theorem sclose_givesHeld : GivesHeld (.sclose o) o.g o.gs s [.sclose o.smask.toNat] :=
  fun hr => ⟨_, (exec_sclose o s).trans (plain_on _ hr.2), holds_holdAll ..⟩

/-! ## SPOS (10 R191) -/

theorem spos_position (form : o.func = 0) : GivesX (.spos o) o.g o.gs s o.d (s.me.stream o.sid.toNat).position :=
  givesX_of_checked (exec_spos o s) (by simp [form])

theorem spos_status (form : o.func = 2) : GivesX (.spos o) o.g o.gs s o.d (s.me.stream o.sid.toNat).status :=
  givesX_of_checked (exec_spos o s) (by simp [form])

theorem spos_givesHeld (form : o.func = 1)
    (resting : (s.streamSeen o.sid.toNat).st = .bound ∨ (s.streamSeen o.sid.toNat).st = .closed)
    (index : (s.streamSeen o.sid.toNat).indexOk (s.x o.a) = true) : GivesHeld (.spos o) o.g o.gs s [.spos o.sid.toNat (s.x o.a)] :=
  givesHeld_of_checked (exec_spos o s) (by rcases resting with st | st <;> simp [form, st, index])

/-! ## SDONE (10 R187) -/

theorem sdone_flag (form : o.func.getLsbD 3 = false) (flag : s.flagCheck s.cur (s.x o.a) = .ok ()) :
    GivesHeld (.sdone o) o.g o.gs s [.sdone o.sid.toNat
      (if (s.x o.a).getLsbD 31 then some { tok := false, scope := o.func.toNat % 8, arg := s.x o.a } else none)] :=
  givesHeld_of_checked (exec_sdone o s) (by simp only [form, flag]; rfl)

theorem sdone_token (form : o.func.getLsbD 3 = true) (bound : (s.streamSeen o.sid.toNat).st ≠ .unbound)
    (port : (s.streamSeen o.sid.toNat).target = 0) (inside : (s.x o.a).toNat < 16)
    (side : s.sideBound none (s.x o.a).toNat false = false) :
    GivesHeld (.sdone o) o.g o.gs s [.sdone o.sid.toNat (some { tok := true, scope := o.func.toNat % 8, arg := s.x o.a })] := by
  have refused : ((s.streamSeen o.sid.toNat).st == .unbound || (s.streamSeen o.sid.toNat).target != 0 || decide ((s.x o.a).toNat ≥ 16) ||
      s.sideBound none (s.x o.a).toNat false) = false := by
    simp [bound, port, inside, side]
  exact givesHeld_of_checked (exec_sdone o s) (by simp only [form, refused]; rfl)

end

/-! ## SBAR (10 R191) -/

theorem State.stream_setStream (s : State) (n i k : Nat) (q : Stream) :
    ((s.setStream n i q).core n).stream k = if k = i then q else (s.core n).stream k := by
  rw [State.setStream, State.core_setCore_self]
  exact Sp.get_set ..

/-- Streams of core n with their hold set or given up. -/
def State.setHolds (s : State) (n : Nat) (streams : List Nat) (b : Bool) : State :=
  streams.foldl (fun s i => s.setStream n i { (s.core n).stream i with hold := b }) s

theorem State.releaseStreams_eq_setHolds (s : State) (n mask : Nat) : s.releaseStreams n mask = s.setHolds n (maskBits mask) false := rfl

section
variable {s : State} {n : Nat} {streams : List Nat} {b : Bool}

/-- What does not look at the cores is as it was. -/
theorem State.setHolds_keeps {β : Type} (g : State → β) (hg : ∀ s c, g { s with cores := c } = g s) :
    g (s.setHolds n streams b) = g s :=
  State.foldl_keeps g (fun s _ => hg s _) _ s

theorem State.blk_core_setHolds : ((s.setHolds n streams b).core n).blk = (s.core n).blk :=
  State.foldl_keeps (fun s => (s.core n).blk) (fun s i => by rw [State.setStream, State.core_setCore_self]; rfl) _ s

theorem State.hold_core_setHolds (k : Nat) :
    (((s.setHolds n streams b).core n).stream k).hold = if k ∈ streams then b else ((s.core n).stream k).hold := by
  induction streams generalizing s with
  | nil => rfl
  | cons i t ih =>
    refine ih.trans ?_
    rw [State.stream_setStream]
    by_cases here : k = i <;> simp [here]

/-- SBAR sets the holds of the core whose turn it is. -/
theorem State.foldl_setMe_hold (turn : s.cur = n) :
    streams.foldl (fun s i => s.setMe (s.me.setStream i { s.me.stream i with hold := true })) s = s.setHolds n streams true := by
  induction streams generalizing s with
  | nil => rfl
  | cons i t ih =>
    subst turn
    exact ih rfl

section
variable (turn : s.cur = n)
include turn

theorem State.me_setHolds : (s.setHolds n streams b).me = (s.setHolds n streams b).core n :=
  congrArg (State.core _) ((State.setHolds_keeps State.cur fun _ _ => rfl).trans turn)

theorem State.blk_setHolds : (s.setHolds n streams b).blk = s.blk := by
  rw [State.blk, State.me_setHolds turn, State.blk_core_setHolds, ← turn]
  rfl

theorem State.hold_me_setHolds {k : Nat} (named : k ∈ streams) : ((s.setHolds n streams b).me.stream k).hold = b := by
  rw [State.me_setHolds turn, State.hold_core_setHolds, if_pos named]

end

end

/-! ### What a write-back leaves as it was -/

section
variable {β : Type} (g : State → β)
  (hg : ∀ (s : State) c h m t l k, g { s with cores := c, chans := h, mem := m, ltags := t, l2 := l, marks := k } = g s)
include hg

/-- A write-back changes cores, counts of channels, bytes and markers alone. -/
theorem State.l1WriteBack_keeps (s : State) (n line : Nat) : g (s.l1WriteBack n line) = g s := by
  have cores : ∀ (s : State) n c, g (s.setCore n c) = g s := fun s _ _ => hg s _ s.chans s.mem s.ltags s.l2 s.marks
  have marks : ∀ (s : State) h b, g (s.mark h b) = g s := by
    intro s h b
    unfold State.mark
    split
    · exact hg s s.cores s.chans s.mem s.ltags _ s.marks
    · exact hg s s.cores s.chans s.mem s.ltags s.l2 _
  have bytes : ∀ (s : State) key h b, g (s.writeByte key h b) = g s := by
    intro s key h b
    unfold State.writeByte
    split
    · split
      · exact hg s s.cores s.chans s.mem s.ltags _ s.marks
      · exact hg s s.cores s.chans _ _ s.l2 s.marks
    · exact hg s s.cores s.chans _ s.ltags s.l2 s.marks
  have counts : ∀ (s : State) c, g { s with chans := c } = g s := fun s _ => hg s s.cores _ s.mem s.ltags s.l2 s.marks
  have written : ∀ l, g (s.writeLine line l) = g s := fun l =>
    State.writeLine_keeps g counts marks (fun s i b _ => bytes s l.key (line * 128 + i) b) s
  unfold State.l1WriteBack
  split
  · rfl
  · dsimp only
    split <;> exact (cores ..).trans (written _)

theorem State.l1WriteBackAll_keeps (s : State) (n : Nat) : g (s.l1WriteBackAll n) = g s :=
  State.foldl_keeps g (fun s line => s.l1WriteBack_keeps g hg n line) _ s

end

theorem State.blk_core_l1WriteBackAll (s : State) (n : Nat) : ((s.l1WriteBackAll n).core n).blk = (s.core n).blk := by
  refine State.foldl_keeps (fun s => (s.core n).blk) (fun s line => ?_) _ s
  obtain ⟨copies, -, cores⟩ := s.core_l1WriteBack n line
  simp only [cores, if_true]

/-! ### The wait and its answer -/

/-- The wait of an SBAR. -/
def State.sbarWait (s : State) (o : STR) : State :=
  s.waitOn (.sbar o.smask.toNat (o.func.getLsbD 3) (o.func.toNat % 8 == 6)) .none

/-- The block goes on. -/
def State.goesOn (s : State) : State := s.setBlk { s.blk with wait := .none, ans := .none }

theorem State.goesOn_frame (s : State) : s.goesOn.blk.wait = .none ∧ s.goesOn.w = s.w ∧ s.goesOn.blk.held = s.blk.held := by
  rw [State.goesOn, State.w_setBlk, State.blk_setBlk]
  exact ⟨rfl, rfl, rfl⟩

/-- The streams of an SBAR `.hold`, held once the core's dirty lines are written back. -/
def State.sbarHeld (s : State) (o : STR) : State := (s.l1WriteBackAll s.cur).setHolds s.cur (maskBits o.smask.toNat) true

theorem State.stream_setBlk (s : State) (b : Blk) (k : Nat) : (s.setBlk b).me.stream k = s.me.stream k :=
  congrArg (Sp.get Stream.reset · k) (State.me_streams_setBlk s b)

section
variable {o : STR} {s : State}

theorem State.sbarWait_frame : (s.sbarWait o).w = s.w ∧ (s.sbarWait o).blk.held = s.blk.held := by
  rw [State.sbarWait, State.waitOn, State.w_setBlk, State.blk_setBlk]
  exact ⟨rfl, rfl⟩

theorem State.tryAnswer_sbarWait : (s.sbarWait o).tryAnswer =
    (s.sbarWait o).answerSbar o.smask.toNat (o.func.getLsbD 3) (o.func.toNat % 8 == 6) := by
  simp [State.tryAnswer, State.sbarWait]

theorem State.streamAway_sbarWait (k : Nat) : (s.sbarWait o).streamAway s.cur k = s.streamAway s.cur k := by
  have streams : ((s.sbarWait o).core s.cur).streams = (s.core s.cur).streams := State.me_streams_setBlk ..
  simp only [State.streamAway, Core.stream, streams]
  rfl

/-- An SBAR without `.hold` ends where no access of its streams is on its way. -/
theorem State.answerSbar_quiet (form : o.func.getLsbD 3 = false)
    (quiet : ∀ k, k < 16 → o.smask.getLsbD k = true → s.streamAway s.cur k = false ∧ s.unacked (.stream s.cur k) = false) :
    (s.sbarWait o).tryAnswer = ((s.sbarWait o).l1DropAll s.cur).goesOn := by
  have none : (maskBits o.smask.toNat).any (fun i => (s.sbarWait o).streamAway s.cur i ||
      ((o.func.toNat % 8 == 6) && (s.sbarWait o).unacked (.stream s.cur i))) = false := by
    rw [List.any_eq_false]
    intro k hk
    obtain ⟨inside, named⟩ := mem_maskBits.1 hk
    obtain ⟨home, acked⟩ := quiet k inside named
    have acked : (s.sbarWait o).unacked (.stream s.cur k) = false := acked
    simp [State.streamAway_sbarWait, home, acked]
  have fresh : (s.sbarWait o).blk.ans = .none := by simp [State.sbarWait]
  have cur : (s.sbarWait o).cur = s.cur := rfl
  rw [State.tryAnswer_sbarWait, State.answerSbar]
  simp only [fresh, form, cur, none]
  rfl

/-- An SBAR `.hold` ends where the core's writes are performed, and its streams go on. -/
theorem State.answerSbar_performed (form : o.func.getLsbD 3 = true) (performed : s.pending s.cur = false)
    (acked : s.unacked (.core s.cur) = false) :
    (s.sbarWait o).tryAnswer = ((s.sbarWait o).setHolds s.cur (maskBits o.smask.toNat) false).goesOn := by
  have fresh : (s.sbarWait o).blk.ans = .none := by simp [State.sbarWait]
  have settled : ((s.sbarWait o).bankOps.any (fun p => p.core == (s.sbarWait o).cur) ||
      (s.sbarWait o).banks.any (fun b => b.2.scq.any fun p => p.core == (s.sbarWait o).cur) ||
      ((o.func.toNat % 8 == 6) && (s.sbarWait o).unacked (.core (s.sbarWait o).cur))) = false := by
    have acked : (s.sbarWait o).unacked (.core (s.sbarWait o).cur) = false := acked
    have performed : (s.sbarWait o).pending (s.sbarWait o).cur = false := performed
    rw [State.pending] at performed
    rw [performed, acked, Bool.and_false, Bool.or_false]
  rw [State.tryAnswer_sbarWait, State.answerSbar]
  simp only [fresh, form, settled, State.releaseStreams_eq_setHolds]
  rfl

/-- Beside cores, counts of channels, bytes and markers the hold changes nothing. -/
theorem State.sbarHeld_keeps {β : Type} (g : State → β)
    (hg : ∀ (s : State) c h m t l k, g { s with cores := c, chans := h, mem := m, ltags := t, l2 := l, marks := k } = g s) :
    g (s.sbarHeld o) = g s :=
  (State.setHolds_keeps g fun s _ => hg s _ s.chans s.mem s.ltags s.l2 s.marks).trans (s.l1WriteBackAll_keeps g hg _)

theorem State.cur_l1WriteBackAll (n : Nat) : (s.l1WriteBackAll n).cur = s.cur :=
  s.l1WriteBackAll_keeps State.cur (fun _ _ _ _ _ _ _ => rfl) n
theorem State.curCore_sbarHeld : (s.sbarHeld o).curCore = s.curCore := State.sbarHeld_keeps State.curCore fun _ _ _ _ _ _ _ => rfl
theorem State.cur_sbarHeld : (s.sbarHeld o).cur = s.cur := congrArg BitVec.toNat State.curCore_sbarHeld

theorem State.blk_sbarHeld : (s.sbarHeld o).blk = s.blk := by
  rw [State.sbarHeld, State.blk_setHolds (State.cur_l1WriteBackAll s.cur), State.blk, State.me]
  exact (congrArg (fun n => ((s.l1WriteBackAll s.cur).core n).blk) (State.cur_l1WriteBackAll s.cur)).trans
    (s.blk_core_l1WriteBackAll s.cur)

/-- The state in which an SBAR `.hold` waits, and the one after its answer. -/
def State.sbarHolding (s : State) (o : STR) : State := (s.sbarHeld o).sbarWait o
def State.sbarReleased (s : State) (o : STR) : State := ((s.sbarHolding o).setHolds s.cur (maskBits o.smask.toNat) false).goesOn

theorem State.cur_sbarHolding : (s.sbarHolding o).cur = s.cur := State.cur_sbarHeld (s := s) (o := o)

theorem State.hold_sbarHolding {k : Nat} (inside : k < 16) (named : o.smask.getLsbD k = true) :
    ((s.sbarHolding o).me.stream k).hold = true := by
  rw [State.sbarHolding, State.sbarWait, State.waitOn, State.stream_setBlk]
  exact State.hold_me_setHolds (State.cur_l1WriteBackAll s.cur) (mem_maskBits.2 ⟨inside, named⟩)

theorem State.hold_sbarReleased {k : Nat} (inside : k < 16) (named : o.smask.getLsbD k = true) :
    ((s.sbarReleased o).me.stream k).hold = false := by
  rw [State.sbarReleased, State.goesOn, State.stream_setBlk]
  exact State.hold_me_setHolds State.cur_sbarHolding (mem_maskBits.2 ⟨inside, named⟩)

theorem State.sbarReleased_frame : (s.sbarReleased o).blk.wait = .none ∧ (s.sbarReleased o).w = s.w ∧
    (s.sbarReleased o).blk.held = s.blk.held := by
  obtain ⟨goes, regs, held⟩ := ((s.sbarHolding o).setHolds s.cur (maskBits o.smask.toNat) false).goesOn_frame
  obtain ⟨waitRegs, waitHeld⟩ := State.sbarWait_frame (o := o) (s := s.sbarHeld o)
  have blk : ((s.sbarHolding o).setHolds s.cur (maskBits o.smask.toNat) false).blk = (s.sbarHolding o).blk :=
    State.blk_setHolds State.cur_sbarHolding
  exact ⟨goes, regs.trans ((congrArg Blk.w blk).trans (waitRegs.trans (congrArg Blk.w State.blk_sbarHeld))),
    held.trans ((congrArg Blk.held blk).trans (waitHeld.trans (congrArg Blk.held State.blk_sbarHeld)))⟩

/-- The answer of an SBAR without `.hold` leaves the core no copy. -/
def State.sbarEnded (s : State) (o : STR) : State := ((s.sbarWait o).l1DropAll s.cur).goesOn

theorem State.sbarEnded_frame : (s.sbarEnded o).blk.wait = .none ∧ (s.sbarEnded o).w = s.w ∧ (s.sbarEnded o).blk.held = s.blk.held := by
  obtain ⟨goes, regs, held⟩ := ((s.sbarWait o).l1DropAll s.cur).goesOn_frame
  obtain ⟨waitRegs, waitHeld⟩ := State.sbarWait_frame (o := o) (s := s)
  have blk : ((s.sbarWait o).l1DropAll s.cur).blk = (s.sbarWait o).blk := State.blk_l1DropAll (s.sbarWait o)
  exact ⟨goes, regs.trans ((congrArg Blk.w blk).trans waitRegs), held.trans ((congrArg Blk.held blk).trans waitHeld)⟩

/-- An SBAR `.hold` is answered where the core's writes are performed. -/
theorem sbar_hold_answer (form : o.func.getLsbD 3 = true) (performed : s.pending s.cur = false)
    (acked : s.unacked (.core s.cur) = false) : exec (.waitAnswer s.curCore) (s.sbarHolding o) = .next (s.sbarReleased o) := by
  have cur := State.cur_sbarHeld (s := s) (o := o)
  have performed : (s.sbarHeld o).pending (s.sbarHeld o).cur = false := by
    rw [cur, State.sbarHeld_keeps (·.pending s.cur) fun _ _ _ _ _ _ _ => rfl, performed]
  have acked : (s.sbarHeld o).unacked (.core (s.sbarHeld o).cur) = false := by
    rw [cur, State.sbarHeld_keeps (·.unacked (.core s.cur)) fun _ _ _ _ _ _ _ => rfl, acked]
  have answer := State.answerSbar_performed form performed acked
  rw [cur] at answer
  rw [← State.curCore_sbarHeld (o := o)]
  exact exec_waitAnswer_cur answer (State.setHolds_keeps State.curCore fun _ _ => rfl)

variable (hr : Runs (.sbar o) o.g o.gs s)
include hr

theorem exec_sbar_waits (form : o.func.getLsbD 3 = false) : exec (.sbar o) s = .next (s.sbarWait o) :=
  (exec_sbar o s).trans ((plain_on _ hr.2).trans (by simp only [form, Bool.false_eq_true, if_false, State.sbarWait]))

theorem exec_sbar_holds (form : o.func.getLsbD 3 = true) : exec (.sbar o) s = .next (s.sbarHolding o) := by
  refine (exec_sbar o s).trans ((plain_on _ hr.2).trans ?_)
  simp only [form, if_true, State.foldl_setMe_hold (State.cur_l1WriteBackAll s.cur), State.sbarHolding, State.sbarHeld, State.sbarWait]

/-- An SBAR without `.hold` is answered at once where no access of its streams is on its way. -/
theorem sbar_answer (form : o.func.getLsbD 3 = false)
    (quiet : ∀ k, k < 16 → o.smask.getLsbD k = true → s.streamAway s.cur k = false ∧ s.unacked (.stream s.cur k) = false) :
    Answered (.sbar o) s (s.sbarEnded o) :=
  ⟨_, exec_sbar_waits hr form, exec_waitAnswer_cur (State.answerSbar_quiet form quiet) (State.curCore_l1DropAll ..)⟩

end

end Sys2Proof.Machine

namespace Sys2Proof.Proofs
open Sys2Proof Sys2Proof.Machine Sys2Proof.Says

/-- Settles O29: each form's clauses are its answer by its function field and the state of its streams; SBAR's two waits are answered in
the state that each leaves. -/
theorem streamForms : Obligations.StreamForms := by
  unfold Obligations.StreamForms
  intro o s i q a b resting in'
  refine ⟨fun unreserved idle form => sbind_unbinds unreserved idle form, ?bind, fun busy form hr => sbind_busy_unbind busy form hr,
    ?busy, ?start, ?resume, sclose_givesHeld, spos_position, spos_status, fun form rest index => spos_givesHeld form rest index,
    sdone_flag, fun form bound port inside side => sdone_token form bound port inside side, ?bar, ?hold⟩
  case bind =>
    intro d unreserved idle form aligned cached p pattern side
    exact sbind_binds form aligned cached pattern unreserved idle side
  case busy =>
    intro d busy form aligned cached pattern hr
    exact sbind_busy_bind form aligned cached pattern busy hr
  case start =>
    intro form ready word
    exact sstart_givesHeld (beq_eq_false_iff_ne.2 form)
      (fun k inside named => (ready k inside named).elim (fun st => .inr ⟨rfl, st⟩) .inl) fun _ => word
  case resume =>
    intro form ready
    exact sstart_givesHeld (beq_iff_eq.2 form) (fun k inside named => .inl (ready k inside named)) nofun
  case bar => exact fun form quiet hr => ⟨_, sbar_answer hr form quiet, State.sbarEnded_frame⟩
  case hold =>
    intro form performed acked hr
    obtain ⟨goes, regs, held⟩ := State.sbarReleased_frame (s := s) (o := o)
    exact ⟨_, _, exec_sbar_holds hr form, sbar_hold_answer form performed acked, goes, regs, held,
      fun k inside named => ⟨State.hold_sbarHolding inside named, State.hold_sbarReleased inside named⟩⟩

end Sys2Proof.Proofs
end

section
/-!
PROOFS of family 11. What the scheduler page, its ports and entries, and the bytes of a ring read after an update, and what a write at a
home leaves as it was.
-/
namespace Sys2Proof.Machine

/-! ## The scheduler page (Table 11.5) -/

@[simp] theorem State.sched_setSched_self (s : State) (p : Nat) (q : Sched) : (s.setSched p q).sched p = q := Sp.get_put_self ..
theorem State.setSched_setSched (s : State) (p : Nat) (q r : Sched) : (s.setSched p q).setSched p r = s.setSched p r := by
  simp only [State.setSched, Sp.put_put]
@[simp] theorem Sched.ing_setIng_self (q : Sched) (n : Nat) (g : Ing) : (q.setIng n g).ing n = g := Sp.get_put_self ..
@[simp] theorem Sched.entry_setEntry_self (q : Sched) (n : Nat) (t : Timed) : (q.setEntry n t).entry n = t := Sp.get_put_self ..
@[simp] theorem Sched.launches_setEntry (q : Sched) (n : Nat) (t : Timed) : (q.setEntry n t).launches = q.launches := rfl
@[simp] theorem State.region_setRegion_self (s : State) (h : Nat) (r : Region) : (s.setRegion h r).region h = r := Sp.get_set_self ..

/-- A count that rises by one stops at all ones. -/
theorem satAdd_one (w a : Nat) : satAdd w a 1 = min (2 ^ w - 1) (a + 1) := by
  unfold satAdd
  split <;> omega

/-! ## What a write at a home leaves as it was -/

section
variable {β : Type} (g : State → β)
  (hg : ∀ (s : State) c m t l k, g { s with cores := c, mem := m, ltags := t, l2 := l, marks := k } = g s)
include hg

theorem State.mark_keeps (s : State) (h : Nat) (b : Bool) : g (s.mark h b) = g s := by
  unfold State.mark
  split
  · exact hg s s.cores s.mem s.ltags _ s.marks
  · exact hg s s.cores s.mem s.ltags s.l2 _

theorem State.writeByte_keeps (s : State) (key h : Nat) (b : Byte) : g (s.writeByte key h b) = g s := by
  unfold State.writeByte
  split
  · split
    · exact hg s s.cores s.mem s.ltags _ s.marks
    · exact hg s s.cores _ _ s.l2 s.marks
  · exact hg s s.cores _ s.ltags s.l2 s.marks

theorem State.writeBytes_keeps (bs : List Byte) (s : State) (key h : Nat) : g (s.writeBytes key h bs) = g s := by
  induction bs generalizing s h with
  | nil => rfl
  | cons b t ih => rw [State.writeBytes, ih, State.writeByte_keeps g hg]

theorem State.clearMarks_keeps (s : State) (h n : Nat) : g (s.clearMarks h n) = g s := by
  refine State.foldl_keeps g (fun s i => ?_) _ s
  dsimp only
  split
  · exact State.mark_keeps g hg ..
  · rfl

theorem State.padNotify_keeps (s : State) (h n : Nat) : g (s.padNotify h n) = g s := by
  have cores : ∀ n c, g (s.setCore n c) = g s := fun _ _ => hg s _ s.mem s.ltags s.l2 s.marks
  unfold State.padNotify
  dsimp only
  split
  · rfl
  · split
    · split
      · exact cores _ _
      · rfl
    · rfl

/-- A write at a home changes cores, bytes and markers alone. -/
theorem State.write_keeps (s : State) (key h : Nat) (bs : List Byte) : g (s.write key h bs) = g s := by
  rw [State.write, State.padNotify_keeps g hg, State.clearMarks_keeps g hg, State.writeBytes_keeps g hg]

end

@[simp] theorem State.sched_write (s : State) (key h p : Nat) (bs : List Byte) : (s.write key h bs).sched p = s.sched p :=
  State.write_keeps (·.sched p) (fun _ _ _ _ _ _ => rfl) s key h bs

/-! ## Two words in a ring -/

theorem bytesNat_leBytes (n v : Nat) : bytesNat (leBytes n v) = v % 2 ^ (8 * n) := by
  induction n generalizing v with
  | zero => exact (Nat.mod_one v).symm
  | succ n ih => rw [leBytes, bytesNat, ih, BitVec.toNat_ofNat, Nat.mul_succ, Nat.add_comm (8 * n) 8, Nat.pow_add 2 8, Nat.mod_mul]

/-- What was written at a home outside GDDR-7 is read there. -/
theorem State.readHomeN_write {s : State} {h : Nat} {bs : List Byte} (key k : Nat) (here : ∀ i, i < bs.length → space (h + i) ≠ .gddr)
    {n off : Nat} (inside : off + n ≤ bs.length) : (s.write key h bs).readHomeN k (h + off) n = (bs.drop off).take n := by
  induction n generalizing off with
  | zero => rw [List.take_zero]; rfl
  | succ n ih =>
    have lt : off < bs.length := by omega
    rw [State.readHomeN, State.readHome_write _ _ _ _ _ _ here (here off lt), if_pos (by omega), Nat.add_sub_cancel_left,
      Nat.add_assoc, ih (by omega), List.drop_eq_getElem_cons lt, List.take_succ_cons, List.getD_eq_getElem?_getD,
      List.getElem?_eq_getElem lt, Option.getD_some]

/-- Two words that are written together are read one behind the other. -/
theorem State.readVal_write_words (s : State) (key k : Nat) {a : Nat} (here : ∀ i, i < 16 → space (a + i) ≠ .gddr) (u v : Nat) :
    (s.write key a (leBytes 8 u ++ leBytes 8 v)).readVal k a 8 = u % 2 ^ 64 ∧
      (s.write key a (leBytes 8 u ++ leBytes 8 v)).readVal k (a + 8) 8 = v % 2 ^ 64 := by
  have len : (leBytes 8 u ++ leBytes 8 v).length = 16 := by rw [List.length_append, leBytes_length, leBytes_length]
  have here := len.symm ▸ here
  have low := State.readHomeN_write (s := s) key k here (n := 8) (off := 0) (by omega)
  have high := State.readHomeN_write (s := s) key k here (n := 8) (off := 8) (by omega)
  rw [List.drop_zero, List.take_left' (leBytes_length ..)] at low
  rw [List.drop_left' (leBytes_length ..), List.take_of_length_le (Nat.le_of_eq (leBytes_length ..))] at high
  exact ⟨(congrArg bytesNat low).trans (bytesNat_leBytes ..), (congrArg bytesNat high).trans (bytesNat_leBytes ..)⟩

end Sys2Proof.Machine
end

section
/-!
PROOFS of family 11. Records at an ingress port (11 R192 to R194), triggers and admission (R196, R197), completions (R202, R203) and the
egress of a port (R192).
-/
namespace Sys2Proof.Machine

/-! ## Ingress (R192 to R194) -/

section
variable {s : State} {p : PartNum} {port : BitVec 3} {vf : BitVec 6} {w : W64} {c : BitVec 8} {r : IngRec}

/-- A function may send a record to a port: the port, the function, the record's colour and its fields permit it, and the port's queue
has a place (R194). -/
def State.mayIngress (s : State) (p : PartNum) (port : BitVec 3) (vf : BitVec 6) (w : W64) : Prop :=
  let g := (s.sched p.toNat).ing port.toNat
  let c := s.colour (w.toNat / 2 ^ 24 % 256)
  g.en = true ∧ s.ingVf p.toNat port.toNat = some vf.toNat ∧ (s.vf vf.toNat).st = .run ∧ c.valid = true ∧
    c.part = p ∧ c.vf = vf ∧ recOk w = true ∧ g.queue.length < 256 ∧
    (g.queue.filter fun r => recColour r.w == recColour w).length < 64

theorem recColour_toNat (w : W64) : (recColour w).toNat = w.toNat / 2 ^ 24 % 256 := by
  rw [recColour, BitVec.extractLsb'_toNat, Nat.shiftRight_eq_div_pow]

theorem exec_ingressRecord_noPath (path : s.hostPath p.toNat true = false) : exec (.ingressRecord p port vf w) s = .next s := by
  simp only [exec_ingressRecord, execIngressRecord, path, Bool.not_false, if_true]

/-- The scheduler with a record behind the last of a port's queue. -/
def Sched.queueRec (q : Sched) (port : Nat) (w : W64) : Sched :=
  q.setIng port { q.ing port with queue := (q.ing port).queue ++ [{ w := w, core := (q.ing port).core, eport := (q.ing port).eport }] }

theorem exec_ingressRecord_path [Decidable (s.mayIngress p port vf w)] (path : s.hostPath p.toNat true = true) :
    exec (.ingressRecord p port vf w) s = .next (s.setSched p.toNat (if s.mayIngress p port vf w
      then (s.sched p.toNat).queueRec port.toNat w
      else { s.sched p.toNat with refused := satAdd 16 (s.sched p.toNat).refused 1 })) := by
  simp only [exec_ingressRecord, execIngressRecord, path, Bool.not_true, Bool.false_eq_true, if_false]
  congr 3
  simp only [State.mayIngress, recColour_toNat, Bool.and_eq_true, beq_iff_eq, decide_eq_true_eq, and_assoc,
    BitVec.toNat_inj]

theorem exec_ingressRecord_queued (path : s.hostPath p.toNat true = true) (may : s.mayIngress p port vf w) :
    exec (.ingressRecord p port vf w) s = .next (s.setSched p.toNat ((s.sched p.toNat).queueRec port.toNat w)) := by
  classical rw [exec_ingressRecord_path path, if_pos may]

theorem exec_ingressRecord_refused (path : s.hostPath p.toNat true = true) (mayNot : ¬s.mayIngress p port vf w) :
    exec (.ingressRecord p port vf w) s = .next (s.setSched p.toNat
      { s.sched p.toNat with refused := satAdd 16 (s.sched p.toNat).refused 1 }) := by
  classical rw [exec_ingressRecord_path path, if_neg mayNot]

theorem exec_headRecordServed_head (first : ((s.sched p.toNat).ing port.toNat).first c = some r)
    (closed : (s.sched p.toNat).openOn port.toNat c = none) (head : recHead r.w = true) :
    exec (.headRecordServed p port c) s = .next ((s.setSched p.toNat ((s.sched p.toNat).setIng port.toNat
      (((s.sched p.toNat).ing port.toNat).pop c))).trigger p.toNat (fld r.w.toNat 39 32) c 0 (some port.toNat)) := by
  simp only [exec_headRecordServed, execHeadRecordServed, first, closed, head, if_true]

theorem exec_orphan_data (first : ((s.sched p.toNat).ing port.toNat).first c = some r)
    (closed : (s.sched p.toNat).openOn port.toNat c = none) (data : recHead r.w = false) :
    exec (.orphan p port c) s = .next (s.orphan p.toNat port.toNat c) := by
  simp only [exec_orphan, execOrphan, first, closed, data, Option.any_none, Bool.or_self, Bool.false_eq_true, if_false]

theorem State.orphan_frame (s : State) (p port : Nat) (c : BitVec 8) :
    ((s.orphan p port c).sched p).orphan = min (2 ^ 16 - 1) ((s.sched p).orphan + 1) ∧
      (((s.orphan p port c).sched p).ing port).queue = ((s.sched p).ing port).queue.eraseP fun k => recColour k.w == c := by
  rw [State.orphan, State.sched_setSched_self]
  exact ⟨satAdd_one .., congrArg Ing.queue (Sched.ing_setIng_self ..)⟩

end

/-! ## Triggers and admission (R196, R197) -/

/-- The scheduler with a launch admitted: running launches stand in the order of their admission. -/
def Sched.withRunning (q : Sched) (l : Launch) : Sched :=
  { q with launches := (q.launches.filter fun k => k.id != l.id) ++ [{ l with running := true }] }

theorem exec_admission_takes {s : State} {p : PartNum} {l : Launch} (next : (s.sched p.toNat).next = some l)
    (on : (s.sched p.toNat).en = true) (room : (s.sched p.toNat).runners.length ≤ (s.sched p.toNat).maxrun.toNat) :
    exec (.admission p) s = .next (s.setSched p.toNat ((s.sched p.toNat).withRunning l)) := by
  have takes : ((s.sched p.toNat).en && decide ((s.sched p.toNat).runners.length < (s.sched p.toNat).maxrun.toNat + 1)) = true := by
    rw [on, decide_eq_true (Nat.lt_succ_of_le room)]
    rfl
  simp only [exec_admission, execAdmission, next, takes, if_true]
  rfl

theorem exec_admission_off {s : State} {p : PartNum} (off : (s.sched p.toNat).en = false) : exec (.admission p) s = .next s := by
  simp only [exec_admission, execAdmission, off, Bool.false_and, Bool.false_eq_true, if_false]
  split <;> rfl

/-! ## Completion (R202, R203) -/

section
variable {s : State} {p : Nat} {l : Launch}

/-- The scheduler without a launch that has ended. -/
def Sched.without (q : Sched) (l : Launch) : Sched := { q with launches := q.launches.filter fun k => k.id != l.id }

/-- The ring of completion records: its size, its address, and where its next record goes (R203). -/
def Sched.ringSize (q : Sched) : Nat := 2 ^ (fld q.lcbase.toNat 55 52 + 4)
def Sched.ringBase (q : Sched) : Nat := fld q.lcbase.toNat 51 4 * 16
def Sched.ringAt (q : Sched) : Nat := q.ringBase + q.lcprod % q.ringSize * 16

/-- The ring has no place for a record. -/
def State.ringFull (s : State) (p : Nat) : Bool :=
  let q := s.sched p
  q.ringBase == 0 || !s.ringOk p q.ringAt || (q.lcprod + 2 ^ 32 - q.lccons.toNat) % 2 ^ 32 == q.ringSize

/-- The first word of a launch's completion record. -/
def Launch.doneWord (l : Launch) (st : Nat) : Nat :=
  l.index * 2 ^ 56 + l.colour.toNat * 2 ^ 48 + l.trigger * 2 ^ 40 + st * 2 ^ 32 + l.seq

theorem State.launchDone_eq (s : State) (p : Nat) (l : Launch) (st : Nat) : s.launchDone p l st =
    if s.ringFull p then s.setSched p { (s.sched p).without l with lost := satAdd 16 (s.sched p).lost 1 }
    else (s.setSched p { (s.sched p).without l with lcprod := ((s.sched p).lcprod + 1) % 2 ^ 32 }).write (Sp.get 0 s.partKey p)
      (s.sched p).ringAt (leBytes 8 (l.doneWord st) ++ leBytes 8 s.now.toNat) := rfl

/-- Of its scheduler a completion changes the launches, the ring's producer count and the lost count. -/
theorem State.sched_launchDone (s : State) (p : Nat) (l : Launch) (st : Nat) : ∃ prod lost,
    (s.launchDone p l st).sched p = { (s.sched p).without l with lcprod := prod, lost := lost } := by
  rw [State.launchDone_eq]
  split
  · exact ⟨_, _, State.sched_setSched_self ..⟩
  · exact ⟨_, _, (State.sched_write ..).trans (State.sched_setSched_self ..)⟩

/-- A launch whose ring is absent is counted as lost. -/
theorem State.launchDone_lost (st : Nat) (absent : (s.sched p).ringBase = 0) : (s.launchDone p l st).sched p =
    { (s.sched p).without l with lost := min (2 ^ 16 - 1) ((s.sched p).lost + 1) } := by
  have full : s.ringFull p = true := by simp only [State.ringFull, absent, beq_self_eq_true, Bool.true_or]
  rw [State.launchDone_eq, if_pos full, State.sched_setSched_self, satAdd_one]

/-- A launch whose ring has room leaves its record there: what became of it, and the time. -/
theorem State.launchDone_recorded (st : Nat) (room : s.ringFull p = false)
    (floor : ∀ i, i < 16 → space ((s.sched p).ringAt + i) = .floor) :
    (s.launchDone p l st).sched p = { (s.sched p).without l with lcprod := ((s.sched p).lcprod + 1) % 2 ^ 32 } ∧
      (s.launchDone p l st).readVal 0 (s.sched p).ringAt 8 = l.doneWord st % 2 ^ 64 ∧
      (s.launchDone p l st).readVal 0 ((s.sched p).ringAt + 8) 8 = s.now.toNat := by
  rw [State.launchDone_eq, room, if_neg Bool.false_ne_true]
  obtain ⟨low, high⟩ := State.readVal_write_words
    (s.setSched p { (s.sched p).without l with lcprod := ((s.sched p).lcprod + 1) % 2 ^ 32 }) (Sp.get 0 s.partKey p) 0
    (fun i hi => by rw [floor i hi]; decide) (l.doneWord st) s.now.toNat
  exact ⟨(State.sched_write ..).trans (State.sched_setSched_self ..), low, high.trans (Nat.mod_eq_of_lt s.now.isLt)⟩

/-- Of its scheduler a trigger changes the launches and the counts of launches and of records. -/
theorem State.sched_trigger (s : State) (p index : Nat) (colour : BitVec 8) (trig : Nat) (port : Option Nat) :
    ∃ launches prod lost seq, (s.trigger p index colour trig port).sched p =
      { s.sched p with launches := launches, lcprod := prod, lost := lost, nextId := (s.sched p).nextId + 1, seq := seq } := by
  have ends : ∀ (q : Sched) (l : Launch) (st : Nat), ∃ launches prod lost, (((s.setSched p q).launchDone p l st).sched p) =
      { q with launches := launches, lcprod := prod, lost := lost } := by
    intro q l st
    obtain ⟨prod, lost, h⟩ := (s.setSched p q).sched_launchDone p l st
    rw [State.sched_setSched_self] at h
    exact ⟨_, _, _, h⟩
  unfold State.trigger
  dsimp only
  split
  · obtain ⟨_, _, _, h⟩ := ends _ _ 6
    exact ⟨_, _, _, _, h⟩
  · split
    · obtain ⟨_, _, _, h⟩ := ends _ _ 7
      exact ⟨_, _, _, _, h⟩
    · rw [State.sched_setSched_self, State.sched_setSched_self]
      exact ⟨_, _, _, _, rfl⟩

theorem exec_launchCompletion_ended {p : PartNum} {id st : Nat} (found : s.launch? p.toNat id = some l) (ended : l.outcome = some st) :
    exec (.launchCompletion p id) s = .next (s.launchDone p.toNat l st) := by
  simp only [exec_launchCompletion, execLaunchCompletion, found, ended]

end

/-! ## Egress (R192) -/

section
variable {s : State} {p : PartNum} {port : BitVec 3}

theorem exec_hostEgressDelivery_off (off : ((s.sched p.toNat).ing port.toNat).xen = false) :
    exec (.hostEgressDelivery p port) s = .next s := by
  simp only [exec_hostEgressDelivery, execHostEgressDelivery, off, Bool.not_false, Bool.true_or, if_true]

theorem exec_hostEgressDelivery_ready {sl c : Nat} (on : ((s.sched p.toNat).ing port.toNat).xen = true)
    (mine : s.partOf ((s.sched p.toNat).ing port.toNat).core.toNat = some p.toNat)
    (ready : s.exitReady ((s.sched p.toNat).ing port.toNat).core.toNat ((s.sched p.toNat).ing port.toNat).xport.toNat = some (sl, c)) :
    exec (.hostEgressDelivery p port) s = .next (s.egressTake ((s.sched p.toNat).ing port.toNat).core.toNat
      ((s.sched p.toNat).ing port.toNat).xport.toNat sl c) := by
  simp only [exec_hostEgressDelivery, execHostEgressDelivery, on, mine, ready, bne_self_eq_false, Bool.not_true, Bool.or_self,
    Bool.false_eq_true, if_false]

/-- An exit side that emits has a user. -/
theorem State.sideUser_of_exitPick {n port sl c : Nat} {x : Nat × Token} (pick : s.exitPick n port sl c = some x) :
    ∃ e, s.sideUser n port sl false = some e := by
  unfold State.exitPick at pick
  split at pick
  · cases pick
  · exact ⟨_, ‹_›⟩

end

end Sys2Proof.Machine
end

section
/-!
PROOFS of family 11. The work for a running launch (11 R198, R200, R202): a resident image, the section armed, the root's pair.
-/
namespace Sys2Proof.Machine

section
variable {s : State} {p : Nat} {l : Launch}

/-! ## The loader (R198) -/

/-- The launch with its next image handled by region h. -/
def Launch.useImage (l : Launch) (h : Nat) : Launch :=
  { l with img := l.img + 1, uses := l.uses ++ [h], entryAt := none, waits := none, far := [] }

/-- Of two replacements of a launch the later stays. -/
theorem State.setLaunch_setLaunch (s : State) (p : Nat) {k l : Launch} (same : k.id = l.id) :
    (s.setLaunch p k).setLaunch p l = s.setLaunch p l := by
  simp only [State.setLaunch, State.sched_setSched_self, State.setSched_setSched, List.map_map]
  congr 3
  funext j
  by_cases h : j.id = l.id <;> simp [h, same]

/-- The state in which region h is the last that a launch has used. -/
def State.regionUsed (s : State) (h : Nat) : State :=
  { s with serial := s.serial + 1 }.setRegion h { s.region h with used := s.serial }

theorem State.useRegion_eq (s : State) (p : Nat) (l : Launch) (h : Nat) :
    s.useRegion p l h = (s.regionUsed h).setLaunch p (l.useImage h) := rfl

/-- An image entry that was kept for the launch is forgotten with the image. -/
theorem State.useRegion_setLaunch (s : State) (p : Nat) (l : Launch) (e : Option (W64 × W64)) (h : Nat) :
    (s.setLaunch p { l with entryAt := e }).useRegion p { l with entryAt := e } h = s.useRegion p l h := by
  rw [State.useRegion_eq, State.useRegion_eq]
  exact (s.regionUsed h).setLaunch_setLaunch p (k := { l with entryAt := e }) (l := l.useImage h) rfl

theorem State.useRegion_frame (s : State) (p : Nat) (l : Launch) (h : Nat) :
    ((s.useRegion p l h).sched p).launches = (s.sched p).launches.map (fun k => if k.id == l.id then l.useImage h else k) ∧
      ((s.useRegion p l h).region h).used = s.serial ∧ ∀ key a, (s.useRegion p l h).readHome key a = s.readHome key a :=
  ⟨congrArg Sched.launches (State.sched_setSched_self ..), congrArg Region.used (State.region_setRegion_self ..), fun _ _ => rfl⟩

theorem State.loaderImage_resident {img tgt : W64} {h : Nat} (at' : Nat) (aligned : img.toNat % 32 = 0)
    (target : s.targetOk l.core tgt = true) (resident : s.residentFrom p img tgt.toNat = some h) :
    s.loaderImage p l at' img tgt = s.useRegion p l h := by
  simp only [State.loaderImage, aligned, target, resident, bne_self_eq_false, Bool.not_true, Bool.false_eq_true, if_false]

/-- The entry that a launch is at, read before or now. -/
def State.entryIs (s : State) (l : Launch) (img tgt : W64) : Prop :=
  l.entryAt = some (img, tgt) ∨
    l.entryAt = none ∧ readWords (s.launchRead l true 0x09) (l.ilist + 16 * l.img) 2 = .ok [img, tgt]

/-- A launch whose image is resident uses the region that holds it. -/
theorem State.loaderEntry_resident {img tgt : W64} {h : Nat} (entry : s.entryIs l img tgt) (aligned : img.toNat % 32 = 0)
    (target : s.targetOk l.core tgt = true) (resident : s.residentFrom p img tgt.toNat = some h) :
    s.loaderEntry p l = s.useRegion p l h := by
  rcases entry with kept | ⟨unread, words⟩
  · simp only [State.loaderEntry, kept]
    exact State.loaderImage_resident _ aligned target resident
  · simp only [State.loaderEntry, unread, words, List.getD_cons_zero, List.getD_cons_succ]
    exact (State.loaderImage_resident (s := s.setLaunch p { l with entryAt := some (img, tgt) })
      (l := { l with entryAt := some (img, tgt) }) _ aligned target resident).trans (s.useRegion_setLaunch ..)

theorem exec_loaderImage_entry {p : PartNum} (first : (s.sched p.toNat).runners.find? (fun l => l.img < l.nimg) = some l)
    (free : l.waits = none) : exec (.loaderImage p) s = .next (s.loaderEntry p.toNat l) := by
  simp only [exec_loaderImage, execLoaderImage, first, free]

/-! ## Arming (R200) -/

/-- The entry that a section takes holds its descriptor, and the launch that armed it. -/
theorem State.sect_enterSection (s : State) (n e : Nat) (desc : SectDesc) (addr : W64) (lvlS : Bool) (launch : Option (Nat × Nat)) :
    let t := ((s.enterSection n e desc addr lvlS launch).core n).sect e
    t.used = true ∧ t.desc = desc ∧ t.launch = launch := by
  have armed : ∀ (s : State) (r : Section) (L : List Nat), (L.foldl (fun s h =>
      let q := s.region h
      if q.oneShot && q.here && !q.armed then
        s.setRegion h { q with armed := true, quiet := 0, inSect := some (r.colour, r.context, r.tiles) }
      else s) s).core n = s.core n :=
    fun s r L => State.foldl_keeps (·.core n) (fun s h => by dsimp only; split <;> rfl) L s
  have entered : ∀ (s : State) (t : Section), ((s.setSect n e t).core n).sect e = t := fun s t => by
    rw [State.setSect, State.core_setCore_self]
    exact Sp.get_put_self ..
  dsimp only [State.enterSection]
  rw [armed, entered]
  exact ⟨rfl, rfl, rfl⟩

/-- The launch with its section armed in an entry of the table. -/
def Launch.armed (l : Launch) (e : Nat) (d : SectDesc) : Launch :=
  { l with entry? := some e, regs := { Section.reset with desc := d }.regions, far := [] }

theorem exec_launchArm_arms {p : PartNum} {id e : Nat} {w : List W64} (found : s.launch? p.toNat id = some l) (ready : l.ready = true)
    (kind : l.kind ≠ 2) (named : l.sectAt ≠ 0) (aligned : l.sectAt % 32 = 0) (unarmed : l.entry? = none) (unended : l.sect = none)
    (free : (s.core l.core).freeEntry = some e) (room : (s.core l.core).armsDue < (s.core l.core).freeEntries)
    (words : readWords (s.armRead l) l.sectAt 4 = .ok w)
    (checks : s.armCheck l.core { Section.reset with desc := launchDesc w l.colour } (fun _ => false)
      (fun i => ((s.core l.core).stream i).st == .bound) false l.colour.toNat = .ok ()) :
    exec (.launchArm p id) s = .next ((s.setLaunch p.toNat (l.armed e (launchDesc w l.colour))).enterSection l.core e
      (launchDesc w l.colour) (w64 l.sectAt) false (some (p.toNat, id))) := by
  have mayArm : (!l.ready || l.kind == 2 || l.sectAt == 0 || l.entry?.isSome || l.sect.isSome) = false := by
    simp [ready, kind, named, unarmed, unended]
  simp only [exec_launchArm, execLaunchArm, found, mayArm, Nat.not_le.2 room, free, aligned, words, checks, bne_self_eq_false,
    Bool.false_eq_true, if_false]
  rfl

/-! ## Root launches (R202) -/

theorem exec_launchPairPush_root {p : PartNum} {id x : Nat} {s1 : State} (found : s.launch? p.toNat id = some l) (ready : l.ready = true)
    (kind : l.kind = 2) (aligned : l.sectAt % 64 = 0) (room : s.bagRoom l.core ≠ 0)
    (peer : (rootPeer { n := l.core, c := l.colour.toNat, lvlS := false } l.sectAt).runOn s = (.ok (some x), s1)) :
    exec (.launchPairPush p id) s = .next ((s1.pushTail l.core
      { a := w64 l.sectAt, b := w64 x, colour := l.colour, launch := false }).launchDone p.toNat l 0) := by
  simp only [exec_launchPairPush, execLaunchPairPush, found, ready, kind, Bool.not_true, Bool.false_eq_true, if_false, beq_self_eq_true,
    if_true, State.rootPush, aligned, bne_self_eq_false, beq_eq_false_iff_ne.2 room, peer]

end

end Sys2Proof.Machine
end

section
/-!
PROOFS of family 11. Device time and the timed table (11 R204 to R206): what a message of the selected domain leaves in the servo, how a
correction moves the clock, and the start of a slot.
-/
namespace Sys2Proof.Machine

/-! ## Device time (R204, R205) -/

section
variable {s : State} {port : BitVec 4} {domain : BitVec 8}

/-- The messages that the clock takes: of the selected domain, at the selected port, which is up. -/
def State.hears (s : State) (port : BitVec 4) (domain : BitVec 8) : Prop :=
  s.portUp port.toNat = true ∧ s.ptp.port = port ∧ s.ptp.domain = domain

theorem State.ptpHear_selected (h : s.hears port domain) (f : Ptp → Ptp) : s.ptpHear port domain f = { s with ptp := f s.ptp } := by
  obtain ⟨up, rfl, rfl⟩ := h
  simp only [State.ptpHear, up, bne_self_eq_false, Bool.not_true, Bool.or_self, Bool.false_eq_true, if_false]

theorem exec_ptpEventMessage_ignored (h : s.portUp port.toNat = false ∨ s.ptp.port ≠ port ∨ s.ptp.domain ≠ domain) (m : PtpMsg) :
    exec (.ptpEventMessage port domain m) s = .next s := by
  have other : (s.ptp.port != port || s.ptp.domain != domain || !s.portUp port.toNat) = true := by
    rcases h with h | h | h <;> simp [h]
  rw [exec_ptpEventMessage, execPtpEventMessage, State.ptpHear, if_pos other]

/-- The servo after a Sync that was sent at `t` and came at `now`: its offset is PTP time then, less device time. -/
def Ptp.synced (q : Ptp) (now t : W64) (d : Int) : Ptp :=
  { q with t2 := now, t1 := some t, measured := true, offset := t.toNat + d - now.toNat,
           locked := !q.first && Ptp.near (t.toNat + d - now.toNat) }

theorem exec_ptpEventMessage_sync {d : Int} (h : s.hears port domain) (t : W64) (delay : s.ptp.delay = some d) :
    exec (.ptpEventMessage port domain (.sync t)) s = .next { s with ptp := s.ptp.synced s.now t d } := by
  rw [exec_ptpEventMessage, execPtpEventMessage, State.ptpHear_selected h]
  simp only [Ptp.measure, Ptp.synced, delay]

theorem exec_ptpEventMessage_delayReq (h : s.hears port domain) : exec (.ptpEventMessage port domain .delayReq) s =
    .next { s with ptp := { s.ptp with t3 := some s.now } } := by
  rw [exec_ptpEventMessage, execPtpEventMessage, State.ptpHear_selected h]

theorem exec_servoCorrection_steps (measured : s.ptp.measured = true) (first : s.ptp.first = true) (ahead : 0 ≤ s.ptp.offset) :
    exec .servoCorrection s = .next { s with
      now := w64 (s.now.toNat + s.ptp.offset.toNat),
      ptp := { s.ptp with first := false, measured := false, locked := Ptp.near s.ptp.offset, rate := 0, t1 := none, t3 := none } } := by
  simp only [exec_servoCorrection, execServoCorrection, measured, first, ahead, decide_true, Bool.and_self, Bool.not_true,
    Bool.false_eq_true, if_false, if_true]

/-- The rate by which a correction slews the clock: an amount of at most 1,000 parts per million, towards PTP time. -/
def State.slewBy (s : State) : Int :=
  let r : Int := min 1000 (Config.slewRate s.ptp.offset s.free)
  if s.ptp.offset < 0 then -r else r

theorem State.slewBy_natAbs (s : State) : s.slewBy.natAbs ≤ 1000 := by
  simp only [State.slewBy]
  split <;> omega

theorem exec_servoCorrection_slews (measured : s.ptp.measured = true) (later : s.ptp.first = false) :
    exec .servoCorrection s = .next { s with
      free := s.free + 1,
      ptp := { s.ptp with first := false, measured := false, locked := Ptp.near s.ptp.offset, rate := s.slewBy } } := by
  simp only [exec_servoCorrection, execServoCorrection, measured, later, Bool.false_and, Bool.not_true, Bool.false_eq_true, if_false]
  rfl

end

/-! ## The timed table (R206) -/

section
variable {s : State} {p n : BitVec 4}

/-- The entry at its next slot, with what a write has left to take effect. -/
def Timed.toNext (t : Timed) (at' : W64) : Timed :=
  let t := { t with d0 := t.next0, d1 := t.next1 }
  { t with slot := if t.en then some (w64 (t.firstSlot (at'.toNat + 1))) else none }

/-- The state in which the entry of a slot that acts stands at its next slot. -/
def State.slotTaken (s : State) (p n : Nat) (at' : W64) : State :=
  s.setSched p ((s.sched p).setEntry n (((s.sched p).entry n).toNext at'))

theorem State.sched_slotTaken (s : State) (p n : Nat) (at' : W64) :
    (s.slotTaken p n at').sched p = (s.sched p).setEntry n (((s.sched p).entry n).toNext at') := State.sched_setSched_self ..
theorem State.entry_slotTaken (s : State) (p n : Nat) (at' : W64) :
    ((s.slotTaken p n at').sched p).entry n = ((s.sched p).entry n).toNext at' := by
  rw [State.sched_slotTaken, Sched.entry_setEntry_self]

/-- A slot whose time has come, and before which no other acts, is taken and starts. -/
theorem exec_timedSlotStart_due {at' : W64} (slot : ((s.sched p.toNat).entry n.toNat).slot = some at') (due : at'.toNat ≤ s.now.toNat)
    (turn : (s.sched p.toNat).before n.toNat at' = false) :
    exec (.timedSlotStart p n) s = .next ((s.slotTaken p.toNat n.toNat at').slotStart p.toNat n.toNat) := by
  simp only [exec_timedSlotStart, execTimedSlotStart, slot, turn, Nat.not_lt.2 due, decide_false, Bool.or_self, Bool.false_eq_true,
    if_false]
  rfl

end

section
variable {s : State} {p n : Nat}

/-- While the clock is not locked a slot is skipped: it is counted, and no launch is made. -/
theorem State.slotStart_unlocked (on : (s.sched p).ten = true) (enabled : ((s.sched p).entry n).en = true) (unlocked : s.ptp.locked = false) :
    (((s.slotStart p n).sched p).entry n).skipped = min (2 ^ 32 - 1) (((s.sched p).entry n).skipped + 1) ∧
      ((s.slotStart p n).sched p).launches = (s.sched p).launches := by
  simp only [State.slotStart, on, enabled, unlocked, Bool.not_true, Bool.or_self, Bool.false_eq_true, if_false, Bool.not_false, if_true,
    State.sched_setSched_self, Sched.entry_setEntry_self, Sched.launches_setEntry, satAdd_one, and_self]

/-- The state after the launch of entry n's slot has started. -/
def State.slotStarted (s : State) (p n : Nat) : State :=
  let t := (s.sched p).entry n
  let u := s.trigger p t.index t.colour 1 none
  u.setSched p ((u.sched p).setEntry n
    { (u.sched p).entry n with last := some (s.sched p).nextId, started := satAdd 32 ((u.sched p).entry n).started 1 })

theorem State.slotStart_eq_slotStarted (on : (s.sched p).ten = true) (enabled : ((s.sched p).entry n).en = true)
    (locked : s.ptp.locked = true) (fresh : ((s.sched p).entry n).last = none) : s.slotStart p n = s.slotStarted p n := by
  simp only [State.slotStart, on, enabled, locked, fresh, Option.bind_none, Bool.not_true, Bool.or_self, Bool.false_eq_true, if_false]
  rfl

/-- A slot's launch counts as started, and takes the next number. -/
theorem State.slotStarted_frame (s : State) (p n : Nat) :
    (((s.slotStarted p n).sched p).entry n).started = min (2 ^ 32 - 1) (((s.sched p).entry n).started + 1) ∧
      ((s.slotStarted p n).sched p).nextId = (s.sched p).nextId + 1 := by
  obtain ⟨launches, prod, lost, seq, triggered⟩ := s.sched_trigger p ((s.sched p).entry n).index ((s.sched p).entry n).colour 1 none
  simp only [State.slotStarted, State.sched_setSched_self, Sched.entry_setEntry_self, triggered, satAdd_one]
  exact ⟨rfl, rfl⟩

end

end Sys2Proof.Machine

namespace Sys2Proof.Proofs
open Sys2Proof Sys2Proof.Machine

/-- Settles O47: each event's clause is the state that its scheduler, its launch or the servo is left in. -/
theorem launchEvents : Obligations.LaunchEvents := by
  unfold Obligations.LaunchEvents
  refine ⟨fun p s => ⟨?ingress, ?ports, ?admission, exec_admission_off, ?loader, ?arm, ?push, ?completion,
    fun port => exec_hostEgressDelivery_off, ?egress⟩, fun s => ⟨?message, ?step, ?slew, ?slot⟩⟩
  case ingress =>
    intro port vf w g c fits path
    refine ⟨exec_ingressRecord_noPath, fun there may => ⟨_, exec_ingressRecord_queued there may, ?_⟩,
      fun there mayNot => ⟨_, exec_ingressRecord_refused there mayNot, ?_⟩⟩
    · dsimp only
      rw [State.sched_setSched_self]
      exact congrArg Ing.queue (Sched.ing_setIng_self ..)
    · dsimp only
      rw [State.sched_setSched_self]
      exact ⟨satAdd_one .., rfl⟩
  case ports =>
    intro port c r first closed
    exact ⟨exec_headRecordServed_head first closed, fun data => ⟨_, exec_orphan_data first closed data, State.orphan_frame ..⟩⟩
  case admission =>
    intro l next on room
    exact ⟨_, exec_admission_takes next on room, congrArg Sched.launches (State.sched_setSched_self ..)⟩
  case loader =>
    intro l h img tgt first free entry aligned target resident
    exact ⟨_, (exec_loaderImage_entry first free).trans (congrArg Host.Outcome.next
      (State.loaderEntry_resident entry aligned target resident)), s.useRegion_frame p.toNat l h⟩
  case arm =>
    intro id l e w found ready kind named aligned unarmed unended free room words checks
    exact ⟨_, exec_launchArm_arms found ready kind named aligned unarmed unended free room words checks, State.sect_enterSection ..⟩
  case push =>
    intro id l x s1 found ready kind aligned room peer
    exact exec_launchPairPush_root found ready kind aligned room peer
  case completion =>
    intro id l st found ended size base a
    refine ⟨fun absent => ⟨_, exec_launchCompletion_ended found ended, ?_⟩,
      fun present ring notFull floor => ⟨_, exec_launchCompletion_ended found ended, ?_⟩⟩
    · dsimp only
      rw [State.launchDone_lost st absent]
      exact ⟨rfl, rfl⟩
    · have room : s.ringFull p.toNat = false := by
        simp only [State.ringFull, Bool.or_eq_false_iff, beq_eq_false_iff_ne, Bool.not_eq_false']
        exact ⟨⟨present, ring⟩, notFull⟩
      obtain ⟨after, low, high⟩ := State.launchDone_recorded (l := l) st room floor
      dsimp only
      rw [after]
      exact ⟨rfl, low, high, rfl⟩
  case egress =>
    intro port sl c i t g on mine path ready pick
    obtain ⟨e, user⟩ := State.sideUser_of_exitPick pick
    exact ⟨_, exec_hostEgressDelivery_ready on mine ready, (State.egressTake_pick path pick user).1⟩
  case message =>
    intro port dom m
    refine ⟨?_, ?_, fun other => exec_ptpEventMessage_ignored other m⟩
    · rintro up selected domain t d rfl delay
      exact ⟨_, exec_ptpEventMessage_sync ⟨up, selected, domain⟩ t delay, rfl, rfl, rfl, rfl⟩
    · rintro up selected domain rfl
      exact ⟨_, exec_ptpEventMessage_delayReq ⟨up, selected, domain⟩, rfl, rfl⟩
  case step => exact fun measured first ahead => ⟨_, exec_servoCorrection_steps measured first ahead, rfl, rfl, rfl⟩
  case slew => exact fun measured later => ⟨_, exec_servoCorrection_slews measured later, rfl, s.slewBy_natAbs, rfl⟩
  case slot =>
    intro p n at' q t slot due turn kept _ on enabled
    have acts := exec_timedSlotStart_due slot due turn
    have entry := s.entry_slotTaken p.toNat n.toNat at'
    have on : ((s.slotTaken p.toNat n.toNat at').sched p.toNat).ten = true := (congrArg Sched.ten (s.sched_slotTaken ..)).trans on
    have enabled : (((s.slotTaken p.toNat n.toNat at').sched p.toNat).entry n.toNat).en = true := by
      rw [entry]
      exact (congrArg (·.getLsbD 63) kept).trans enabled
    refine ⟨fun unlocked => ⟨_, acts, ?_⟩, fun locked fresh => ⟨_, acts, ?_⟩⟩
    · obtain ⟨skipped, launches⟩ := State.slotStart_unlocked on enabled unlocked
      rw [skipped, launches, entry, State.sched_slotTaken]
      exact ⟨rfl, rfl⟩
    · obtain ⟨started, number⟩ := (s.slotTaken p.toNat n.toNat at').slotStarted_frame p.toNat n.toNat
      rw [State.slotStart_eq_slotStarted on enabled locked ((congrArg Timed.last entry).trans fresh), started, number, entry,
        State.sched_slotTaken]
      exact ⟨rfl, rfl⟩

end Sys2Proof.Proofs
end

section
/-!
PROOFS of family 13. The rows of an accumulator (13 R210, R216 to R219): what a write, a clearing and a product of rows leave in each
value, and what the island's commands and the rows of its streams leave as it was.
-/
namespace Sys2Proof.Machine

/-! ## Values and poison bits of an accumulator -/

@[simp] theorem State.island_setIsland (s : State) (n : Nat) (i : Island) : (s.setIsland n i).island n = i := by
  rw [State.island, State.setIsland, State.core_setCore_self]
  rfl

theorem Island.get_set (i : Island) (v : W32) {acc row col a r k : Nat} (hrow : row < 128) (hcol : col < 64) (hr : r < 128) (hk : k < 64) :
    (i.set acc row col v).get a r k = if a = acc ∧ r = row ∧ k = col then v else i.get a r k := by
  have same : a * 8192 + r * 64 + k = acc * 8192 + row * 64 + col ↔ a = acc ∧ r = row ∧ k = col := by omega
  simp only [Island.get, Island.set, Sp.get_set, same]

theorem Sp.find?_filter {α : Type} (p : Nat → Bool) (m : Sparse α) (k : Nat) :
    Sp.find? (m.filter fun c => p c.1) k = if p k then Sp.find? m k else none := by
  induction m with
  | nil => simp
  | cons c m ih =>
    obtain ⟨i, a⟩ := c
    by_cases here : i = k
    · subst here
      cases keep : p i <;> simp [keep, ih, Sp.find?]
    · cases keep : p i <;> simp [keep, ih, Sp.find?, here]

theorem Island.get_clearRow (i : Island) (acc row a r k : Nat) : (i.clearRow acc row).get a r k =
    if acc * 8192 + row * 64 ≤ a * 8192 + r * 64 + k ∧ a * 8192 + r * 64 + k < acc * 8192 + row * 64 + 64 then 0 else i.get a r k := by
  have found := Sp.find?_filter (fun c => decide (c < acc * 8192 + row * 64) || decide (c ≥ acc * 8192 + row * 64 + 64)) i.acc
    (a * 8192 + r * 64 + k)
  simp only [Island.get, Island.clearRow, Island.setBad, Sp.get, found, Bool.or_eq_true, decide_eq_true_eq]
  by_cases inside : acc * 8192 + row * 64 ≤ a * 8192 + r * 64 + k ∧ a * 8192 + r * 64 + k < acc * 8192 + row * 64 + 64
  · rw [if_pos inside, if_neg (by omega)]
    rfl
  · rw [if_neg inside, if_pos (by omega)]

theorem Island.bad_clearRow (i : Island) (acc row a r : Nat) :
    (i.clearRow acc row).bad a r = if a * 128 + r = acc * 128 + row then false else i.bad a r :=
  Sp.get_set false i.pois (acc * 128 + row) (a * 128 + r) false

@[simp] theorem Island.acc_addBad (i : Island) (acc row : Nat) (b : Bool) : (i.addBad acc row b).acc = i.acc := by
  cases b <;> rfl
@[simp] theorem Island.slots_addBad (i : Island) (acc row : Nat) (b : Bool) : (i.addBad acc row b).slots = i.slots := by
  cases b <;> rfl
@[simp] theorem Island.rows_addBad (i : Island) (acc row : Nat) (b : Bool) : (i.addBad acc row b).rows = i.rows := by
  cases b <;> rfl
@[simp] theorem Island.get_addBad (i : Island) (acc row : Nat) (b : Bool) (a r k : Nat) : (i.addBad acc row b).get a r k = i.get a r k := by
  rw [Island.get, Island.acc_addBad, Island.get]
theorem Island.bad_addBad_true (i : Island) (acc row : Nat) : (i.addBad acc row true).bad acc row = true :=
  Sp.get_set_self false i.pois (acc * 128 + row) true

/-! ## Rows that are written -/

/-- From i to j, rows start to start + count − 1 of an accumulator take new values, each from the value that stood there; every other value
of a row, the weight slots and the rows that wait are as they were. -/
structure Island.WroteRows (i j : Island) (acc start count : Nat) (f : Nat → Nat → W32 → W32) : Prop where
  values : ∀ a r k, r < 128 → k < 64 →
    j.get a r k = if a = acc ∧ start ≤ r ∧ r < start + count then f r k (i.get a r k) else i.get a r k
  slots : j.slots = i.slots
  rows : j.rows = i.rows

/-- The values read with the accumulator that is written named alone. -/
theorem Island.WroteRows.get_eq {i j : Island} {acc start count : Nat} {f : Nat → Nat → W32 → W32}
    (h : Island.WroteRows i j acc start count f) (a r k : Nat) (hr : r < 128) (hk : k < 64) :
    j.get a r k = if a = acc ∧ start ≤ r ∧ r < start + count then f r k (i.get acc r k) else i.get a r k := by
  rw [h.values a r k hr hk]
  exact ite_congr rfl (fun inside => by rw [inside.1]) fun _ => rfl

theorem Island.WroteRows.addBad {i j : Island} {acc start count : Nat} {f : Nat → Nat → W32 → W32}
    (h : Island.WroteRows i j acc start count f) (a r : Nat) (b : Bool) : Island.WroteRows i (j.addBad a r b) acc start count f :=
  ⟨fun _ _ _ hr hk => (Island.get_addBad ..).trans (h.values _ _ _ hr hk), (Island.slots_addBad ..).trans h.slots,
    (Island.rows_addBad ..).trans h.rows⟩

/-- Rows are written one behind another (13 R214). -/
theorem Island.wroteRows_foldl {i : Island} {g : Island → Nat → Island} {acc start count : Nat} {f : Nat → Nat → W32 → W32}
    (step : ∀ j r, j.slots = i.slots → start ≤ r → r < start + count → Island.WroteRows j (g j r) acc r 1 f) :
    Island.WroteRows i ((List.range count).foldl (fun j k => g j (start + k)) i) acc start count f := by
  induction count with
  | zero => exact ⟨fun a r k _ _ => (if_neg (by omega)).symm, rfl, rfl⟩
  | succ n ih =>
    obtain ⟨values, slots, rows⟩ := ih fun j r same low high => step j r same low (by omega)
    obtain ⟨values', slots', rows'⟩ := step _ (start + n) slots (by omega) (by omega)
    rw [List.range_succ, List.foldl_append]
    refine ⟨fun a r k hr hk => ?_, slots'.trans slots, rows'.trans rows⟩
    refine (values' a r k hr hk).trans ?_
    rw [values a r k hr hk]
    by_cases last : r = start + n
    · have before : ¬(a = acc ∧ start ≤ r ∧ r < start + n) := by omega
      have here : (a = acc ∧ start + n ≤ r ∧ r < start + n + 1) ↔ (a = acc ∧ start ≤ r ∧ r < start + (n + 1)) := by omega
      simp only [if_neg before, here]
    · have other : ¬(a = acc ∧ start + n ≤ r ∧ r < start + n + 1) := by omega
      have before : (a = acc ∧ start ≤ r ∧ r < start + n) ↔ (a = acc ∧ start ≤ r ∧ r < start + (n + 1)) := by omega
      simp only [if_neg other, before]

/-! ## Columns of one row -/

/-- Columns base to base + n − 1 of a row take the values v 0 to v (n − 1). -/
def Island.setCols (i : Island) (acc row base n : Nat) (v : Nat → W32) : Island :=
  (List.range n).foldl (fun i l => i.set acc row (base + l) (v l)) i

theorem Island.setCols_succ (i : Island) (acc row base n : Nat) (v : Nat → W32) :
    i.setCols acc row base (n + 1) v = (i.setCols acc row base n v).set acc row (base + n) (v n) := by
  rw [Island.setCols, List.range_succ, List.foldl_append]
  rfl

theorem Island.get_setCols (i : Island) (v : Nat → W32) {acc row base n a r k : Nat} (hrow : row < 128) (fits : base + n ≤ 64)
    (hr : r < 128) (hk : k < 64) : (i.setCols acc row base n v).get a r k =
      if a = acc ∧ r = row ∧ base ≤ k ∧ k < base + n then v (k - base) else i.get a r k := by
  induction n with
  | zero => exact (if_neg (by omega)).symm
  | succ n ih =>
    rw [Island.setCols_succ, Island.get_set _ _ hrow (by omega) hr hk, ih (by omega)]
    by_cases last : k = base + n
    · have before : ¬(a = acc ∧ r = row ∧ base ≤ k ∧ k < base + n) := by omega
      have here : (a = acc ∧ r = row ∧ k = base + n) ↔ (a = acc ∧ r = row ∧ base ≤ k ∧ k < base + (n + 1)) := by omega
      have first : k - base = n := by omega
      simp only [if_neg before, here, first]
    · have other : ¬(a = acc ∧ r = row ∧ k = base + n) := by omega
      have before : (a = acc ∧ r = row ∧ base ≤ k ∧ k < base + n) ↔ (a = acc ∧ r = row ∧ base ≤ k ∧ k < base + (n + 1)) := by omega
      simp only [if_neg other, before]

/-- Writing columns changes nothing but values. -/
theorem Island.setCols_frame (i : Island) (acc row base n : Nat) (v : Nat → W32) :
    (i.setCols acc row base n v).slots = i.slots ∧ (i.setCols acc row base n v).rows = i.rows ∧
      (i.setCols acc row base n v).pois = i.pois := by
  induction n with
  | zero => exact ⟨rfl, rfl, rfl⟩
  | succ n ih => exact Island.setCols_succ i acc row base n v ▸ ih

/-- Folds whose steps agree on the list's members agree. -/
theorem foldl_congr_mem {α β : Type} {f g : α → β → α} {L : List β} (same : ∀ a, ∀ b ∈ L, f a b = g a b) (a : α) :
    L.foldl f a = L.foldl g a := by
  induction L generalizing a with
  | nil => rfl
  | cons b t ih =>
    rw [List.foldl_cons, List.foldl_cons, same a b (List.mem_cons_self ..)]
    exact ih (fun a c hc => same a c (List.mem_cons_of_mem _ hc)) _

theorem Island.setRow_eq_setCols (i : Island) (acc row n : Nat) (v : Nat → W32) :
    i.setRow acc row ((List.range n).map v) = i.setCols acc row 0 n v := by
  rw [Island.setRow, Island.setCols, List.length_map, List.length_range]
  refine foldl_congr_mem (fun j l hl => ?_) i
  have value : ((List.range n).map v).getD l 0 = v l := by simp [List.mem_range.1 hl]
  rw [value, Nat.zero_add]

/-- A row whose values are all replaced, each by a value that its old one gives. -/
theorem Island.wroteRows_setRow {i : Island} {acc row : Nat} {v : Nat → W32} {f : Nat → Nat → W32 → W32} (hrow : row < 128)
    (new : ∀ k, k < 64 → v k = f row k (i.get acc row k)) :
    Island.WroteRows i (i.setRow acc row ((List.range 64).map v)) acc row 1 f := by
  rw [Island.setRow_eq_setCols]
  obtain ⟨slots, rows, -⟩ := i.setCols_frame acc row 0 64 v
  refine ⟨fun a r k hr hk => ?_, slots, rows⟩
  rw [Island.get_setCols i v hrow (by omega) hr hk]
  have here : (a = acc ∧ r = row ∧ 0 ≤ k ∧ k < 0 + 64) ↔ (a = acc ∧ row ≤ r ∧ r < row + 1) := by omega
  simp only [here]
  refine ite_congr rfl (fun inside => ?_) fun _ => rfl
  obtain ⟨rfl, low, high⟩ := inside
  obtain rfl : r = row := by omega
  exact new k hk

theorem Island.wroteRows_clearRow (i : Island) (acc : Nat) {row : Nat} (hrow : row < 128) :
    Island.WroteRows i (i.clearRow acc row) acc row 1 fun _ _ _ => 0 := by
  refine ⟨fun a r k hr hk => ?_, rfl, rfl⟩
  have here : (acc * 8192 + row * 64 ≤ a * 8192 + r * 64 + k ∧ a * 8192 + r * 64 + k < acc * 8192 + row * 64 + 64) ↔
      (a = acc ∧ row ≤ r ∧ r < row + 1) := by omega
  simp only [Island.get_clearRow, here]

/-! ## Rows that are cleared (13 R221, ACLR) -/

/-- A row at +0 with its poison bit clear. -/
def Island.Clear (i : Island) (acc row : Nat) : Prop := (∀ k, k < 64 → i.get acc row k = 0) ∧ i.bad acc row = false

theorem Island.clear_clearRow (i : Island) (acc row : Nat) : (i.clearRow acc row).Clear acc row := by
  refine ⟨fun k hk => ?_, by rw [Island.bad_clearRow, if_pos rfl]⟩
  rw [Island.get_clearRow, if_pos (by omega)]

theorem Island.Clear.clearRow {i : Island} {acc row : Nat} (h : i.Clear acc row) (a r : Nat) : (i.clearRow a r).Clear acc row := by
  obtain ⟨values, mark⟩ := h
  constructor
  · intro k hk
    rw [Island.get_clearRow, values k hk, ite_self]
  · rw [Island.bad_clearRow, mark, ite_self]

theorem Island.clear_foldl_clearRow (i : Island) {acc start count r : Nat} (low : start ≤ r) (high : r < start + count) :
    ((List.range count).foldl (fun j k => j.clearRow acc (start + k)) i).Clear acc r := by
  induction count with
  | zero => omega
  | succ n ih =>
    rw [List.range_succ, List.foldl_append]
    by_cases last : r = start + n
    · exact last ▸ Island.clear_clearRow ..
    · exact (ih (by omega)).clearRow ..

/-! ## Products (13 R216 to R219) -/

/-- A row of activations with a loaded weight slot. -/
theorem Island.wroteRows_mulRow {i : Island} {row k : Nat} (acc aty : Nat) (act : List Nat) (sa : W32) (bad : Bool) (hrow : row < 128)
    (loaded : (i.wslot k).st = .loaded) {f : Nat → Nat → W32 → W32} (new : ∀ j old, f row j old = columnValue (i.wslot k) aty act sa old j) :
    Island.WroteRows i (i.mulRow acc row aty act sa k bad) acc row 1 f := by
  have product : i.mulRow acc row aty act sa k bad = (i.addBad acc row bad).setRow acc row
      ((List.range 64).map fun j => columnValue (i.wslot k) aty act sa ((i.addBad acc row bad).get acc row j) j) := by
    have fresh : (bad || SlotState.loaded == .poisoned || SlotState.loaded == .faulted) = bad := by cases bad <;> rfl
    simp only [Island.mulRow, loaded, fresh]
    rfl
  obtain ⟨values, slots, rows⟩ := Island.wroteRows_setRow (i := i.addBad acc row bad) (acc := acc) (f := f) hrow
    (v := fun j => columnValue (i.wslot k) aty act sa ((i.addBad acc row bad).get acc row j) j) fun j _ => (new _ _).symm
  rw [product]
  exact ⟨by simpa using values, by simpa using slots, by simpa using rows⟩

/-- A poisoned row of activations marks the accumulator row (13 R219). -/
theorem Island.bad_mulRow_true (i : Island) (acc row aty : Nat) (act : List Nat) (sa : W32) (k : Nat) :
    (i.mulRow acc row aty act sa k true).bad acc row = true := by
  unfold Island.mulRow
  simp only [Bool.true_or]
  split
  · rw [Island.setRow_eq_setCols, Island.bad, (Island.setCols_frame ..).2.2]
    exact Island.bad_addBad_true ..
  · exact Island.bad_addBad_true ..

end Sys2Proof.Machine
end

section
/-!
PROOFS of family 13. The island performs its oldest command (13 R214): what each command of the queue leaves in the accumulators or in
the pad.
-/
namespace Sys2Proof.Machine

/-! ## Memory and the island apart -/

theorem State.readHomeN_cores (s : State) (c : Sparse Core) (key h m : Nat) :
    State.readHomeN { s with cores := c } key h m = s.readHomeN key h m := by
  induction m generalizing h with
  | zero => rfl
  | succ m ih => exact congrArg (s.readHome key h :: ·) (ih (h + 1))

theorem State.readHome_setIsland (s : State) (n : Nat) (i : Island) (key h : Nat) :
    (s.setIsland n i).readHome key h = s.readHome key h := rfl

theorem State.readVal_setIsland (s : State) (n : Nat) (i : Island) (key h m : Nat) :
    (s.setIsland n i).readVal key h m = s.readVal key h m := congrArg bytesNat (s.readHomeN_cores ..)

theorem State.padBytes_cores (s : State) (c : Sparse Core) (n off len : Nat) :
    State.padBytes { s with cores := c } n off len = s.padBytes n off len :=
  congrArg (·, s.anyPoison (padHome n off) len) (s.readHomeN_cores ..)

theorem State.padWord_cores (s : State) (c : Sparse Core) (n off : Nat) : State.padWord { s with cores := c } n off = s.padWord n off :=
  congrArg (fun bs => (w32 (bytesNat bs), s.anyPoison (padHome n off) 4)) (s.readHomeN_cores ..)

theorem space_padHome_add (n off i : Nat) : space (padHome n off + i) ≠ .gddr := by
  rw [show padHome n off + i = padHome n (off + i) from Nat.add_assoc .., space_padHome]
  decide

theorem State.island_padNotify (s : State) (h m n : Nat) : (s.padNotify h m).island n = s.island n := by
  unfold State.padNotify
  dsimp only
  split
  · rfl
  · split
    · split
      · rw [State.island, State.core_setCore]
        split
        · subst_vars; rfl
        · rfl
      · rfl
    · rfl

theorem State.cores_clearMarks (s : State) (h m : Nat) : (s.clearMarks h m).cores = s.cores := by
  refine State.foldl_keeps State.cores (fun s i => ?_) _ s
  dsimp only
  split
  · exact State.cores_mark ..
  · rfl

theorem State.cores_writeBytes (bs : List Byte) (s : State) (key h : Nat) : (s.writeBytes key h bs).cores = s.cores := by
  induction bs generalizing s h with
  | nil => rfl
  | cons b t ih => rw [State.writeBytes, ih, State.cores_writeByte]

/-- A write changes no island. -/
theorem State.island_write (s : State) (key h : Nat) (bs : List Byte) (n : Nat) : (s.write key h bs).island n = s.island n := by
  rw [State.write, State.island_padNotify, State.island, State.core, State.cores_clearMarks, State.cores_writeBytes]
  rfl

section
variable {s : State} {n : Nat}

/-! ## Rows one behind another (R214) -/

/-- Where the rows' new values do not hang on the cores, rows are written in the island alone. -/
theorem State.island_overRows {f : State → Island → Nat → Island} (apart : ∀ (s : State) c i r, f { s with cores := c } i r = f s i r)
    (start count : Nat) :
    (s.overRows n start count f).island n = (List.range count).foldl (fun i k => f s i (start + k)) (s.island n) := by
  induction count with
  | zero => rfl
  | succ m ih =>
    have fixed (i : Island) (r : Nat) : f (s.overRows n start m f) i r = f s i r :=
      State.foldl_keeps (fun s => f s i r) (fun s _ => apart s _ i r) _ s
    have step : s.overRows n start (m + 1) f = (s.overRows n start m f).setIsland n
        (f (s.overRows n start m f) ((s.overRows n start m f).island n) (start + m)) := by
      rw [State.overRows, List.range_succ, List.foldl_append]
      rfl
    rw [step, State.island_setIsland, fixed, ih, List.range_succ, List.foldl_append]
    rfl

/-- A command over rows writes each of them as its step says. -/
theorem State.wroteRows_overRows {f : State → Island → Nat → Island} {acc start count : Nat} {new : Nat → Nat → W32 → W32}
    (apart : ∀ (s : State) c i r, f { s with cores := c } i r = f s i r)
    (step : ∀ j r, j.slots = (s.island n).slots → start ≤ r → r < start + count → Island.WroteRows j (f s j r) acc r 1 new) :
    Island.WroteRows (s.island n) ((s.overRows n start count f).island n) acc start count new :=
  State.island_overRows apart start count ▸ Island.wroteRows_foldl step

/-! ## A command that is performed (R214) -/

/-- The island behind a command: the queue without it, one command less ahead of each row that waits. -/
def Island.commandDone (i : Island) (rest : List IslandCmd) : Island :=
  { i with queue := rest, remote := [], rows := i.rows.map fun r => { r with after := r.after - 1 } }

theorem exec_islandCommandPerform_does {n : CoreNum} {c : IslandCmd} {rest : List IslandCmd} {u : State}
    (oldest : (s.island n.toNat).queue = c :: rest) (free : c.accs.any (s.island n.toNat).emitting = false)
    (did : s.islandDo n.toNat c = some u) :
    exec (.islandCommandPerform n) s = .next (u.setIsland n.toNat ((u.island n.toNat).commandDone rest)) := by
  simp only [exec_islandCommandPerform, execIslandCommandPerform, oldest, free, did]
  rfl

/-! ## Commands over rows (ACLR, MSCL, MMA) -/

def State.aclrDone (s : State) (n acc start count : Nat) : State := s.overRows n start count fun _ i r => i.clearRow acc r

theorem State.islandDo_aclr (acc start count : Nat) : s.islandDo n (.aclr acc start count) = some (s.aclrDone n acc start count) := by
  simp only [State.islandDo, State.aclrDone]

theorem State.wroteRows_aclr {acc start count : Nat} (fits : start + count ≤ 128) :
    Island.WroteRows (s.island n) ((s.aclrDone n acc start count).island n) acc start count fun _ _ _ => 0 :=
  State.wroteRows_overRows (fun _ _ _ _ => rfl) fun j _ _ _ high => j.wroteRows_clearRow acc (by omega)

theorem State.clear_aclr (s : State) {acc start count r : Nat} (low : start ≤ r) (high : r < start + count) :
    ((s.aclrDone n acc start count).island n).Clear acc r := by
  rw [State.aclrDone, State.island_overRows fun _ _ _ _ => rfl]
  exact Island.clear_foldl_clearRow _ low high

/-- A value times a scale, rounded once (13, MSCL). -/
def scaled (v scale : W32) : W32 := raw32 (Fp.mul (val32 v) (val32 scale))

/-- MSCL on one row: the values times the row's scale from the pad. -/
def State.msclRow (s : State) (n acc start off : Nat) (i : Island) (r : Nat) : Island :=
  let q := s.padWord n (off + 4 * (r - start))
  (i.setRow acc r ((List.range 64).map fun j => scaled (i.get acc r j) q.1)).addBad acc r q.2

def State.msclDone (s : State) (n acc start count off : Nat) : State :=
  s.overRows n start count fun s => s.msclRow n acc start off

theorem State.islandDo_mscl (acc start count off : Nat) :
    s.islandDo n (.mscl acc start count off) = some (s.msclDone n acc start count off) := by
  simp only [State.islandDo, State.msclDone]
  rfl

theorem State.wroteRows_mscl {acc start count off : Nat} (fits : start + count ≤ 128) :
    Island.WroteRows (s.island n) ((s.msclDone n acc start count off).island n) acc start count
      fun r _ v => scaled v (w32 (s.readVal 0 (padHome n (off + 4 * (r - start))) 4)) :=
  State.wroteRows_overRows (fun s c _ _ => by simp only [State.msclRow, State.padWord_cores]) fun _ r _ _ high =>
    (Island.wroteRows_setRow (f := fun r _ v => scaled v (w32 (s.readVal 0 (padHome n (off + 4 * (r - start))) 4))) (by omega)
      fun _ _ => rfl).addBad acc r _

/-- MMA on one row of BF16 activations from the pad, which have no scale of their own (R217). -/
def State.mmaRow (s : State) (n acc w start off : Nat) (i : Island) (r : Nat) : Island :=
  let a := s.padBytes n (off + 256 * (r - start)) 256
  i.mulRow acc r 9 (activations 9 a.1) 0 w (a.2 || false)

def State.mmaDone (s : State) (n acc w start count off : Nat) : State :=
  s.overRows n start count fun s => s.mmaRow n acc w start off

theorem State.wroteRows_mma {acc w start count off : Nat} (fits : start + count ≤ 128) (loaded : ((s.island n).wslot w).st = .loaded) :
    Island.WroteRows (s.island n) ((s.mmaDone n acc w start count off).island n) acc start count fun r k v =>
      columnValue ((s.island n).wslot w) 9 (activations 9 (s.readHomeN 0 (padHome n (off + 256 * (r - start))) 256)) 0 v k := by
  refine State.wroteRows_overRows (fun s c _ _ => by simp only [State.mmaRow, State.padBytes_cores]) fun j r same _ high => ?_
  have slot : j.wslot w = (s.island n).wslot w := congrArg (Sp.get WSlot.reset · w) same
  exact Island.wroteRows_mulRow acc 9 _ 0 _ (by omega) (slot ▸ loaded) fun _ _ => by rw [slot, State.padBytes]

theorem isFp8_bf16 : isFp8 (9 : BitVec 5).toNat = false := rfl

theorem State.islandDo_mma (acc w start count off sa : Nat) :
    s.islandDo n (.mma acc w start count off sa 9) = some (s.mmaDone n acc w start count off) := by
  simp only [State.islandDo, State.mmaDone, isFp8_bf16, Bool.false_eq_true, if_false]
  rfl

/-! ## Half a row (AWR) -/

/-- The values of a line, from column 32 · half of a row. -/
def State.awrDone (s : State) (n acc row half : Nat) (v : Line) : State :=
  s.setIsland n ((s.island n).setCols acc row (32 * half) 32 (lane v))

theorem State.islandDo_awr (acc row half : Nat) (v : Line) :
    s.islandDo n (.awrV acc row half v) = some (s.awrDone n acc row half v) := by
  simp only [State.islandDo, State.awrDone, Island.setCols, lane]

theorem State.rows_awr (s : State) (n acc row half : Nat) (v : Line) : ((s.awrDone n acc row half v).island n).rows = (s.island n).rows := by
  rw [State.awrDone, State.island_setIsland]
  exact (Island.setCols_frame ..).2.1

theorem State.get_awr (s : State) (n acc : Nat) (v : Line) {row half a r k : Nat} (hrow : row < 128) (hhalf : half < 2) (hr : r < 128)
    (hk : k < 64) : ((s.awrDone n acc row half v).island n).get a r k =
      if a = acc ∧ r = row ∧ k / 32 = half then lane v (k % 32) else (s.island n).get a r k := by
  rw [State.awrDone, State.island_setIsland, Island.get_setCols _ _ hrow (by omega) hr hk]
  have here : (a = acc ∧ r = row ∧ 32 * half ≤ k ∧ k < 32 * half + 32) ↔ (a = acc ∧ r = row ∧ k / 32 = half) := by omega
  simp only [here]
  refine ite_congr rfl (fun inside => ?_) fun _ => rfl
  obtain ⟨-, -, rfl⟩ := inside
  congr 1
  omega

/-! ## A row to the pad (ARD) -/

/-- The bytes of a row, column 0 first. -/
def Island.rowBytes (i : Island) (acc row : Nat) : List Byte := (List.range 64).flatMap fun j => leBytes 4 (i.get acc row j).toNat

theorem flatMap_piece {α β : Type} {f : α → List β} {w : Nat} (wide : ∀ a, (f a).length = w) (L : List α) {k : Nat} {a : α}
    (at' : L[k]? = some a) : ((L.flatMap f).drop (w * k)).take w = f a := by
  induction L generalizing k with
  | nil => simp at at'
  | cons b t ih =>
    cases k with
    | zero =>
      obtain rfl : b = a := by simpa using at'
      rw [Nat.mul_zero, List.drop_zero, List.flatMap_cons, List.take_left' (wide _)]
    | succ k =>
      have skip : w * (k + 1) = (f b).length + w * k := by rw [wide, Nat.mul_succ, Nat.add_comm]
      rw [List.flatMap_cons, skip, List.drop_length_add_append]
      exact ih (by simpa using at')

theorem length_flatMap_pieces {α β : Type} {f : α → List β} {w : Nat} (wide : ∀ a, (f a).length = w) (L : List α) :
    (L.flatMap f).length = w * L.length := by
  induction L with
  | nil => rfl
  | cons b t ih => rw [List.flatMap_cons, List.length_append, wide, ih, List.length_cons, Nat.mul_succ, Nat.add_comm]

theorem Island.length_rowBytes (i : Island) (acc row : Nat) : (i.rowBytes acc row).length = 256 := by
  rw [Island.rowBytes, length_flatMap_pieces fun _ => leBytes_length .., List.length_range]

theorem Island.rowBytes_piece (i : Island) (acc row : Nat) {k : Nat} (hk : k < 64) :
    ((i.rowBytes acc row).drop (4 * k)).take 4 = leBytes 4 (i.get acc row k).toNat :=
  flatMap_piece (f := fun j => leBytes 4 (i.get acc row j).toNat) (fun _ => leBytes_length ..) (List.range 64) (by simp [hk])

def State.ardDone (s : State) (n acc row off : Nat) : State := s.write 0 (padHome n off) ((s.island n).rowBytes acc row)

theorem State.islandDo_ardPad (acc start count off : Nat) : s.islandDo n (.ardPad acc start count off) =
    some ((List.range count).foldl (fun s k => s.write 0 (padHome n (off + 256 * k)) ((s.island n).rowBytes acc (start + k))) s) := by
  simp only [State.islandDo, Island.rowBytes]

theorem State.islandDo_ard (acc row off : Nat) : s.islandDo n (.ardPad acc row 1 off) = some (s.ardDone n acc row off) := by
  rw [State.islandDo_ardPad, List.range_one, List.foldl_cons, List.foldl_nil, Nat.mul_zero]
  rfl

theorem State.island_ard (s : State) (n acc row off : Nat) : (s.ardDone n acc row off).island n = s.island n := State.island_write ..

theorem State.readVal_ard (s : State) (n acc row off : Nat) {k : Nat} (hk : k < 64) :
    BitVec.ofNat 32 ((s.ardDone n acc row off).readVal 0 (padHome n (off + 4 * k)) 4) = (s.island n).get acc row k := by
  have piece := State.readHomeN_write (s := s) (bs := (s.island n).rowBytes acc row) 0 0 (h := padHome n off)
    (fun i _ => space_padHome_add n off i) (n := 4) (off := 4 * k) (by rw [Island.length_rowBytes]; omega)
  rw [Island.rowBytes_piece _ _ _ hk] at piece
  rw [State.readVal, State.ardDone, show padHome n (off + 4 * k) = padHome n off + 4 * k from (Nat.add_assoc ..).symm, piece,
    bytesNat_leBytes, Nat.mod_eq_of_lt (BitVec.isLt _), BitVec.ofNat_toNat, BitVec.setWidth_eq]

theorem State.readHome_ard (s : State) (n acc row off : Nat) {a : Nat} (near : space a ≠ .gddr)
    (outside : a < padHome n off ∨ padHome n off + 256 ≤ a) : (s.ardDone n acc row off).readHome 0 a = s.readHome 0 a := by
  rw [State.ardDone, State.readHome_write _ _ _ _ _ _ (fun i _ => space_padHome_add n off i) near, Island.length_rowBytes,
    if_neg (by omega)]

end

end Sys2Proof.Machine
end

section
/-!
PROOFS of family 13. Rows of streams and emissions (13 R214, R220, R221): a row that arrives, a row that is performed, and the tokens that an
emission offers.
-/
namespace Sys2Proof.Machine

/-! ## A row arrives (R220) -/

section
variable {s : State} {n k : Nat}

/-- Stream k has got the last word of a row of the island's, and waits for nothing. -/
structure State.EndsRow (s : State) (n k : Nat) (q : Stream) (v : W32) (bad : Bool) : Prop where
  stream : (s.core n).stream k = q
  island : q.target = 2
  sent : q.out = none
  quiet : s.reading (.stream n k) = false
  got : ∃ h, q.got = some (h, v, bad)
  last : q.i0 + 1 = q.n0

variable {q : Stream} {v : W32} {bad : Bool}

theorem State.EndsRow.streamAccess_takes (h : s.EndsRow n k q v bad) : s.streamAccess n k = s.streamTake n k q v bad := by
  obtain ⟨rfl, island, sent, quiet, ⟨_, got⟩, -⟩ := h
  simp [State.streamAccess, sent, island, quiet, got]

/-- Without an attachment the row is lost. -/
theorem State.EndsRow.streamAccess_loses (h : s.EndsRow n k q v bad) (free : Sp.find? (s.island n).attach k = none) :
    s.streamAccess n k = s.setStream n k { { q with got := none }.step.lose with row := [] } := by
  have free : Sp.find? (s.core n).island.attach k = none := free
  simp [h.streamAccess_takes, State.streamTake, h.island, h.last, free]

/-- The row that a stream brings under an attachment, behind the commands in the queue. -/
def State.arrival (s : State) (n k : Nat) (q : Stream) (v : W32) (bad : Bool) (a : Attach) : IslandRow :=
  { stream := k, att := a, after := (s.island n).queue.length, words := q.row ++ [(v, bad)], tile := q.tile, r := q.r, last := q.lastRow,
    colour := q.colour, context := q.context }

theorem State.EndsRow.streamAccess_arrives (h : s.EndsRow n k q v bad) {a : Attach} (found : Sp.find? (s.island n).attach k = some a) :
    s.streamAccess n k =
      (s.setStream n k { { q with got := none }.step with row := [] }).rowArrives n (s.arrival n k q v bad a) := by
  have found : Sp.find? (s.core n).island.attach k = some a := found
  simp [h.streamAccess_takes, State.streamTake, h.island, h.last, found, State.arrival, State.island]

theorem State.island_setStream (s : State) (n k : Nat) (q : Stream) : (s.setStream n k q).island n = s.island n := by
  rw [State.island, State.setStream, State.core_setCore_self]
  rfl

theorem State.rows_rowArrives (s : State) (n : Nat) (r : IslandRow) :
    ((s.rowArrives n r).island n).rows = (s.island n).rows ++ [r] := by
  rw [State.island, State.rowArrives, State.core_setCore_self]
  rfl

theorem State.stream_rowArrives (s : State) (n k : Nat) (r : IslandRow) : ((s.rowArrives n r).core n).stream k = (s.core n).stream k := by
  rw [State.rowArrives, State.core_setCore_self]
  rfl

/-- A step of the position loses no row. -/
theorem Stream.lost_step (q : Stream) : q.step.lost = q.lost := by
  have advance : q.advance.lost = q.lost := by
    unfold Stream.advance Stream.nextRow
    split
    · rfl
    · split
      · rfl
      · split <;> rfl
  have tileEnd (p : Stream) : p.tileEnd.lost = p.lost := by
    unfold Stream.tileEnd
    dsimp only
    split
    · rfl
    · split
      · rfl
      · split <;> rfl
  unfold Stream.step
  split
  · exact (tileEnd _).trans advance
  · exact advance

end

/-! ## A row is performed (R214) -/

theorem takeWhile_ahead {α : Type} {p : α → Bool} {ahead : List α} {r : α} (more : List α) (other : ∀ x ∈ ahead, p x = true)
    (here : p r = false) : (ahead ++ r :: more).takeWhile p = ahead := by
  rw [List.takeWhile_append_of_pos other, List.takeWhile_cons_of_neg (by simp [here]), List.append_nil]

section
variable {i : Island} {k : Nat} {ahead more : List IslandRow} {r : IslandRow}

/-- What a stream's oldest row waits for: commands before it, an emission of its accumulator, earlier rows of its accumulator. -/
def Island.rowWaits (i : Island) (ahead : List IslandRow) (r : IslandRow) : Prop :=
  0 < r.after ∨ i.emitting r.att.acc = true ∨ ∃ x ∈ ahead, x.att.acc = r.att.acc

theorem Island.rowDue_eq (rows : i.rows = ahead ++ r :: more) (other : ∀ x ∈ ahead, x.stream ≠ k) (mine : r.stream = k) :
    i.rowDue k = if r.after > 0 || i.emitting r.att.acc || ahead.any (fun x => x.att.acc == r.att.acc) then none
      else some (r, ahead ++ more) := by
  have before : i.rows.takeWhile (fun r => r.stream != k) = ahead :=
    rows ▸ takeWhile_ahead more (fun x hx => by simpa using other x hx) (by simp [mine])
  have behind : i.rows.drop ahead.length = r :: more := by rw [rows, List.drop_left]
  simp only [Island.rowDue, before, behind]

variable (rows : i.rows = ahead ++ r :: more) (other : ∀ x ∈ ahead, x.stream ≠ k) (mine : r.stream = k)
include rows other mine

theorem Island.rowDue_none (waits : i.rowWaits ahead r) : i.rowDue k = none := by
  have waits : (decide (r.after > 0) || i.emitting r.att.acc || ahead.any fun x => x.att.acc == r.att.acc) = true := by
    simpa [Island.rowWaits, or_assoc] using waits
  rw [Island.rowDue_eq rows other mine, if_pos waits]

theorem Island.rowDue_some (free : ¬i.rowWaits ahead r) : i.rowDue k = some (r, ahead ++ more) := by
  have free : ¬(decide (r.after > 0) || i.emitting r.att.acc || ahead.any fun x => x.att.acc == r.att.acc) = true := by
    simpa [Island.rowWaits, or_assoc] using free
  rw [Island.rowDue_eq rows other mine, if_neg free]

end

/-- The island behind a row of BF16 activations. -/
def Island.rowDone (i : Island) (rows : List IslandRow) (r : IslandRow) : Island :=
  ({ i with rows := rows } : Island).mulRow r.att.acc (r.att.start + r.r) 9
    (activations 9 (r.words.flatMap fun w => leBytes 4 w.1.toNat)) 0 r.att.w (r.words.any (·.2))

theorem Island.wroteRows_rowDone (i : Island) (rows : List IslandRow) {r : IslandRow} (fits : r.att.start + r.r < 128)
    (loaded : (i.wslot r.att.w).st = .loaded) :
    Island.WroteRows { i with rows := rows } (i.rowDone rows r) r.att.acc (r.att.start + r.r) 1 fun _ j old =>
      columnValue (i.wslot r.att.w) 9 (activations 9 (r.words.flatMap fun x => leBytes 4 x.1.toNat)) 0 old j := by
  have slot : ({ i with rows := rows } : Island).wslot r.att.w = i.wslot r.att.w := rfl
  rw [← slot] at loaded
  unfold Island.rowDone
  refine Island.wroteRows_mulRow _ _ _ _ _ fits loaded fun j old => ?_
  rw [slot]

theorem Island.bad_rowDone {i : Island} {rows : List IslandRow} {r : IslandRow} (poisoned : r.words.any (·.2) = true) :
    (i.rowDone rows r).bad r.att.acc (r.att.start + r.r) = true := by
  rw [Island.rowDone, poisoned]
  exact Island.bad_mulRow_true ..

section
variable {s : State} {n : CoreNum} {k : BitVec 4}

theorem exec_islandRow_waits (waits : (s.island n.toNat).rowDue k.toNat = none) : exec (.islandRow n k) s = .next s := by
  simp only [exec_islandRow, execIslandRow, waits]

theorem exec_islandRow_performs {r : IslandRow} {rows : List IslandRow} (due : (s.island n.toNat).rowDue k.toNat = some (r, rows))
    (type : r.att.ty = 9) (silent : r.att.emit = false) :
    exec (.islandRow n k) s = .next (s.setIsland n.toNat ((s.island n.toNat).rowDone rows r)) := by
  simp only [exec_islandRow, execIslandRow, due, type, silent, Bool.and_false]
  rfl

end

/-! ## Emissions (R221) -/

/-- Element x has no row of the emission left. -/
def Emission.spent (e : Emission) (x : Nat) : Prop := ∃ p, e.places[x]? = some p ∧ e.stop ≤ p.1

section
variable {s u : State} {n x row col : Nat} {e : Emission}

theorem State.emitOne_spent (spent : e.spent x) : s.emitOne n e x = (s, e) := by
  obtain ⟨p, place, past⟩ := spent
  simp [State.emitOne, List.getD_eq_getElem?_getD, place, past]

theorem State.foldl_emitOne_spent {L : List Nat} (spent : ∀ x ∈ L, e.spent x) :
    L.foldl (fun (r : State × Emission) x => r.1.emitOne n r.2 x) (s, e) = (s, e) := by
  induction L with
  | nil => rfl
  | cons x t ih =>
    rw [List.foldl_cons, State.emitOne_spent (spent x (List.mem_cons_self ..))]
    exact ih fun y hy => spent y (List.mem_cons_of_mem _ hy)

/-- The emission whose element x has taken column `col` of its row. -/
def Emission.taken (e : Emission) (x row col : Nat) : Emission := { e with places := e.places.set x (row, col + 1) }

/-- A token that is taken moves the element's place on by a column (R221). -/
theorem State.emitOne_taken (place : e.places[x]? = some (row, col)) (left : row < e.stop) (inside : col < 63)
    (took : s.offerIsl (elemAt n x 7) e.slot ((s.island n).token e row col) = (u, .taken)) :
    s.emitOne n e x = (u, e.taken x row col) := by
  have more : (col == 63) = false := beq_eq_false_iff_ne.2 (by omega)
  simp [State.emitOne, List.getD_eq_getElem?_getD, place, Nat.not_le.2 left, took, more, Emission.taken]

/-- One element takes a token, and the others have no row left. -/
theorem State.foldl_emitOne_taken (hx : x < 8) (place : e.places[x]? = some (row, col)) (left : row < e.stop) (inside : col < 63)
    (others : ∀ y, y < 8 → y ≠ x → e.spent y)
    (took : s.offerIsl (elemAt n x 7) e.slot ((s.island n).token e row col) = (u, .taken)) :
    (List.range 8).foldl (fun (r : State × Emission) x => r.1.emitOne n r.2 x) (s, e) = (u, e.taken x row col) := by
  obtain ⟨before, behind, parts⟩ := List.append_of_mem (List.mem_range.2 hx)
  have once : (before ++ x :: behind).Nodup := parts ▸ List.nodup_range
  have inRange {y : Nat} (hy : y ∈ before ++ x :: behind) : y < 8 := List.mem_range.1 (parts ▸ hy)
  have apart : x ∉ before ∧ x ∉ behind := by
    obtain ⟨-, later, across⟩ := List.pairwise_append.1 once
    exact ⟨fun mem => across x mem x (List.mem_cons_self ..) rfl, fun mem => (List.pairwise_cons.1 later).1 x mem rfl⟩
  have first : ∀ y ∈ before, e.spent y := fun y hy =>
    others y (inRange (List.mem_append_left _ hy)) fun same => apart.1 (same ▸ hy)
  have last : ∀ y ∈ behind, (e.taken x row col).spent y := fun y hy => by
    have ne : y ≠ x := fun same => apart.2 (same ▸ hy)
    obtain ⟨p, at', past⟩ := others y (inRange (List.mem_append_right _ (List.mem_cons_of_mem _ hy))) ne
    exact ⟨p, (List.getElem?_set_ne ne.symm).trans at', past⟩
  rw [parts, List.foldl_append, State.foldl_emitOne_spent first, List.foldl_cons, State.emitOne_taken place left inside took]
  exact State.foldl_emitOne_spent last

/-- The island behind an emission whose rows are all sent. -/
def Island.emitted (i : Island) (e : Emission) : Island :=
  (List.range (e.stop - e.start)).foldl (fun (i : Island) j => i.clearRow e.acc (e.start + j)) { i with emits := i.emits.filter fun x => x != e }

theorem Island.emits_emitted (i : Island) (e : Emission) : (i.emitted e).emits = i.emits.filter fun x => x != e :=
  List.foldlRecOn (motive := fun (j : Island) => j.emits = i.emits.filter fun x => x != e) _ _ rfl fun _ same _ _ => same

theorem Island.not_mem_emitted (i : Island) (e : Emission) : e ∉ (i.emitted e).emits := by
  rw [Island.emits_emitted]
  simp

/-- The island with one emission moved on. -/
def Island.emitMoved (i : Island) (e f : Emission) : Island := { i with emits := i.emits.map fun x => if x == e then f else x }

theorem Island.mem_emitMoved {i : Island} (f : Emission) (mem : e ∈ i.emits) : f ∈ (i.emitMoved e f).emits :=
  List.mem_map.2 ⟨e, mem, by simp⟩

end

section
variable {s u : State} {n : CoreNum} {k : BitVec 4} {e f : Emission} (oldest : (s.island n.toNat).emits.find? (fun x => x.stream == k.toNat) = some e)
include oldest

theorem exec_islandEmit_ends
    (sent : (List.range 8).foldl (fun (r : State × Emission) x => r.1.emitOne n.toNat r.2 x) (s, e) = (s, e))
    (all : ∀ p ∈ e.places, e.stop ≤ p.1) :
    exec (.islandEmit n k) s = .next (s.setIsland n.toNat ((s.island n.toNat).emitted e)) := by
  have done : (e.places.all fun p => decide (p.1 ≥ e.stop)) = true := by simpa using all
  simp only [exec_islandEmit, execIslandEmit, oldest, sent, done]
  rfl

theorem exec_islandEmit_moves
    (sent : (List.range 8).foldl (fun (r : State × Emission) x => r.1.emitOne n.toNat r.2 x) (s, e) = (u, f))
    (left : ∃ p ∈ f.places, p.1 < e.stop) :
    exec (.islandEmit n k) s = .next (u.setIsland n.toNat ((u.island n.toNat).emitMoved e f)) := by
  have some_left : (f.places.all fun p => decide (p.1 ≥ e.stop)) = false := by simpa using left
  simp only [exec_islandEmit, execIslandEmit, oldest, sent, some_left]
  rfl

end

end Sys2Proof.Machine

namespace Sys2Proof.Proofs
open Sys2Proof Sys2Proof.Machine Sys2Proof.Says

/-- Settles O27: each command over rows writes them one by one, each from its own old values; a row of a stream and an emission by what the
island's own queues let them do. -/
theorem islandPerformsCommands : Obligations.IslandPerformsCommands := by
  unfold Obligations.IslandPerformsCommands
  refine ⟨fun n s c rest => ⟨?aclr, ?awr, ?mscl, ?mma, ?ard, ?arrives, ?row⟩, fun n k s e oldest eight => ⟨?ends, ?moves⟩⟩
  case aclr =>
    rintro acc start count rfl fits oldest free
    have wrote := State.wroteRows_aclr (s := s) (n := n.toNat) (acc := acc) fits
    refine ⟨_, exec_islandCommandPerform_does oldest free (State.islandDo_aclr ..), ?_⟩
    rw [State.island_setIsland]
    exact ⟨rfl, congrArg _ wrote.rows, wrote.values, fun r low high => (s.clear_aclr low high).2⟩
  case awr =>
    rintro acc row half v rfl hrow hhalf oldest free
    refine ⟨_, exec_islandCommandPerform_does oldest free (State.islandDo_awr ..), ?_⟩
    rw [State.island_setIsland]
    exact ⟨rfl, congrArg _ (s.rows_awr n.toNat acc row half v), fun a r k hr hk => s.get_awr n.toNat acc v hrow hhalf hr hk⟩
  case mscl =>
    rintro acc start count off rfl fits oldest free
    have wrote := State.wroteRows_mscl (s := s) (n := n.toNat) (acc := acc) (off := off) fits
    refine ⟨_, exec_islandCommandPerform_does oldest free (State.islandDo_mscl ..), ?_⟩
    rw [State.island_setIsland]
    exact ⟨rfl, congrArg _ wrote.rows, wrote.get_eq⟩
  case mma =>
    rintro acc w start count off sa rfl fits loaded oldest free
    have wrote := State.wroteRows_mma (acc := acc) (off := off) fits loaded
    refine ⟨_, exec_islandCommandPerform_does oldest free (State.islandDo_mma ..), ?_⟩
    rw [State.island_setIsland]
    exact ⟨rfl, congrArg _ wrote.rows, wrote.get_eq⟩
  case ard =>
    rintro acc start off rfl oldest free
    refine ⟨_, exec_islandCommandPerform_does oldest free (State.islandDo_ard ..), ?_⟩
    rw [State.island_setIsland, State.island_ard]
    exact ⟨rfl, rfl, rfl,
      fun k hk => (congrArg (BitVec.ofNat 32) (State.readVal_setIsland ..)).trans (s.readVal_ard n.toNat acc start off hk),
      fun a near outside => (State.readHome_setIsland ..).trans (s.readHome_ard n.toNat acc start off near outside)⟩
  case arrives =>
    intro k h v bad q island sent quiet got last
    have ends : s.EndsRow n.toNat k.toNat q v bad := ⟨rfl, island, sent, quiet, ⟨h, got⟩, last⟩
    refine ⟨_, exec_streamAccess n k s, fun free => ?_, fun a found => ?_⟩
    · rw [ends.streamAccess_loses free, State.stream_setStream_self]
      refine ⟨State.island_setStream .., ?_⟩
      rw [← satAdd_one]
      exact congrArg (satAdd 18 · 1) (Stream.lost_step _)
    · rw [ends.streamAccess_arrives found, State.rows_rowArrives, State.island_setStream, State.stream_rowArrives,
        State.stream_setStream_self]
      exact ⟨s.arrival n.toNat k.toNat q v bad a, rfl, rfl, rfl, rfl, rfl, rfl, rfl⟩
  case row =>
    intro k ahead r more rows other mine
    refine ⟨fun waits => exec_islandRow_waits (Island.rowDue_none rows other mine waits), fun free type loaded fits silent => ?_⟩
    refine ⟨_, exec_islandRow_performs (Island.rowDue_some rows other mine free) type silent, ?_⟩
    have bytes : (r.words.flatMap fun x => low 4 (x.1.setWidth 64)) = r.words.flatMap fun x => leBytes 4 x.1.toNat := by
      refine congrArg (List.flatMap · r.words) (funext fun x => ?_)
      rw [← leBytes_toNat, BitVec.toNat_setWidth_of_le (by decide)]
    rw [State.island_setIsland, bytes]
    have wrote := (s.island n.toNat).wroteRows_rowDone (ahead ++ more) fits loaded
    exact ⟨wrote.rows, wrote.get_eq, Island.bad_rowDone⟩
  case ends =>
    intro sent
    have spent : ∀ x ∈ List.range 8, e.spent x := fun x hx => by
      have inside : x < e.places.length := eight ▸ List.mem_range.1 hx
      exact ⟨_, List.getElem?_eq_getElem inside, sent _ (List.getElem_mem inside)⟩
    refine ⟨_, exec_islandEmit_ends oldest (State.foldl_emitOne_spent spent) sent, ?_⟩
    rw [State.island_setIsland]
    refine ⟨(s.island n.toNat).not_mem_emitted e, fun r c low high _ hc => ?_⟩
    obtain ⟨values, mark⟩ := Island.clear_foldl_clearRow
      { s.island n.toNat with emits := (s.island n.toNat).emits.filter fun x => x != e } (acc := e.acc) (count := e.stop - e.start) low
      (by omega)
    exact ⟨values c hc, mark⟩
  case moves =>
    intro x row col u hx place left others took same inside
    have spent : ∀ y, y < 8 → y ≠ x → e.spent y := fun y hy ne =>
      have at' := List.getElem?_eq_getElem (eight.symm ▸ hy : y < e.places.length)
      ⟨_, at', others y _ at' ne⟩
    have sent := State.foldl_emitOne_taken (s := s) (n := n.toNat) hx place left inside spent took
    have stays : (row, col + 1) ∈ (e.taken x row col).places :=
      List.mem_iff_getElem?.2 ⟨x, List.getElem?_set_self (eight.symm ▸ hx)⟩
    refine ⟨_, exec_islandEmit_moves oldest sent ⟨_, stays, left⟩, ?_⟩
    rw [State.island_setIsland, same]
    exact ⟨Island.mem_emitMoved _ (List.mem_of_find?_eq_some oldest), rfl, rfl⟩

end Sys2Proof.Proofs
end

section
/-!
PROOFS of family 13. The island forms (13 R214, R222, R223): what each form checks, what it holds, and what it reads at execute.
-/
namespace Sys2Proof.Machine
open Sys2Proof.Says

/-! ## Words put together from bits and lanes -/

theorem getLsbD_bits (f : Nat → Bool) {n k : Nat} (hk : k < n) :
    (BitVec.ofNat n ((List.range n).foldl (fun a i => a + b2n (f i) * 2 ^ i) 0)).getLsbD k = f k := by
  have bits : (List.range n).foldl (fun a i => a + b2n (f i) * 2 ^ i) 0 = digits 1 (fun i => b2n (f i)) n := by
    simp only [digits, Nat.one_mul]
  have small : ∀ i, b2n (f i) < 2 ^ 1 := fun i => by cases f i <;> decide
  have digit := extract_digits (m := n) (d := fun i => b2n (f i)) small (by omega) hk
  have bit := congrArg (·.getLsbD 0) digit
  rw [bits]
  cases hf : f k <;> simpa [hf, b2n] using bit

/-- A word at its place in a line is that lane alone. -/
theorem lane_setWidth_shiftLeft (v : W32) {n l : Nat} (hn : n < 32) (hl : l < 32) :
    lane (v.setWidth 1024 <<< (32 * n)) l = if l = n then v else 0 := by
  apply BitVec.eq_of_getLsbD_eq
  intro i hi
  rw [lane, BitVec.getLsbD_extractLsb', BitVec.getLsbD_shiftLeft, BitVec.getLsbD_setWidth]
  rcases Nat.lt_trichotomy l n with below | rfl | above
  · have before : 32 * l + i < 32 * n := by omega
    simp [Nat.ne_of_lt below, before]
  · have inside : 32 * l + i < 1024 ∧ i < 1024 := by omega
    simp [hi, inside]
  · have behind : 32 ≤ 32 * l + i - 32 * n := by omega
    simp [Nat.ne_of_gt above, BitVec.getLsbD_of_ge _ _ behind]

/-- The lanes of a line put together by shifts and ORs, as far as lane n. -/
theorem lane_foldl_or (f : Nat → W32) {n l : Nat} (hn : n ≤ 32) (hl : l < 32) :
    lane ((List.range n).foldl (fun (a : Line) i => a ||| ((f i).setWidth 1024 <<< (32 * i))) 0) l = if l < n then f l else 0 := by
  induction n with
  | zero => simp [lane]
  | succ n ih =>
    rw [List.range_succ, List.foldl_append, List.foldl_cons, List.foldl_nil, lane, BitVec.extractLsb'_or, ← lane, ← lane,
      ih (by omega), lane_setWidth_shiftLeft (f n) (by omega) hl]
    by_cases here : l = n
    · simp [here]
    · have other : l < n + 1 ↔ l < n := by omega
      simp [here, other]

theorem Island.lane_halfRow (i : Island) (acc row half : Nat) {l : Nat} (hl : l < 32) :
    lane (i.halfRow acc row half) l = i.get acc row (32 * half + l) := by
  rw [Island.halfRow, lane_foldl_or (fun l => i.get acc row (32 * half + l)) (Nat.le_refl 32) hl, if_pos hl]

/-! ## Operands of the island forms (R222, R223) -/

theorem padRangeOk_iff {off : W64} {align len : Nat} : padRangeOk off align len = true ↔ inPad off align len := by
  simp only [padRangeOk, inPad, Bool.and_eq_true, decide_eq_true_eq, beq_iff_eq]
  omega

theorem padRangeOk_false {off : W64} {align len : Nat} (h : ¬inPad off align len) : padRangeOk off align len = false :=
  Bool.eq_false_iff.2 fun ok => h (padRangeOk_iff.1 ok)

theorem isFp8_toNat (ty : BitVec 5) : isFp8 ty.toNat = decide (ty = 0xB ∨ ty = 0xC) := by
  revert ty
  decide

section
variable {o : MTX} {s : State}

/-! ## Forms that hold a command (R214) -/

theorem wload_givesHeld (aligned : (s.x o.a).toNat % 1024 = 0) (fits : (s.x o.a).toNat + 1024 * tileLines o.ty.toNat o.sp ≤ 0x600000)
    (free : (s.attached fun t => t.w == o.w.toNat) = false) : GivesHeld (.wload o) o.g o.gs s
      [.island (.wload o.w.toNat (s.x o.a).toNat ((s.x o.b).setWidth 32) o.ty o.sp (o.func == 1))] :=
  givesHeld_of_checked (exec_wload o s) (by simp [aligned, Nat.not_lt.2 fits, free])

theorem mscl_givesHeld (free : s.accBusy o.acc.toNat = false) (range : inPad (s.x o.a) 4 (4 * MTX.count o)) :
    GivesHeld (.mscl o) o.g o.gs s [.island (.mscl o.acc.toNat (MTX.start o) (MTX.count o) (s.x o.a).toNat)] :=
  givesHeld_of_checked (exec_mscl o s) (by simp [padRangeOk_iff.2 range, free])

theorem mma_givesHeld (free : s.accBusy o.acc.toNat = false) (shadow : s.shadowOk o.w.toNat o.ty = true)
    (rows : inPad (s.x o.a) 128 (MTX.count o * if o.ty = 0xB ∨ o.ty = 0xC then 128 else 256))
    (scales : o.ty = 0xB ∨ o.ty = 0xC → inPad (s.x o.b) 4 (4 * MTX.count o)) : GivesHeld (.mma o) o.g o.gs s
      [.island (.mma o.acc.toNat o.w.toNat (MTX.start o) (MTX.count o) (s.x o.a).toNat
        (if o.ty = 0xB ∨ o.ty = 0xC then (s.x o.b).toNat else 0) o.ty)] := by
  refine givesHeld_of_checked (exec_mma o s) ?_
  by_cases fp8 : o.ty = 0xB ∨ o.ty = 0xC
  · have type : isFp8 o.ty.toNat = true := (isFp8_toNat o.ty).trans (decide_eq_true fp8)
    rw [if_pos fp8] at rows ⊢
    simp [type, free, shadow, padRangeOk_iff.2 rows, padRangeOk_iff.2 (scales fp8)]
  · have type : isFp8 o.ty.toNat = false := (isFp8_toNat o.ty).trans (decide_eq_false fp8)
    rw [if_neg fp8] at rows ⊢
    simp [type, free, shadow, padRangeOk_iff.2 rows]

theorem mmas_givesHeld (free : s.accBusy o.acc.toNat = false) (shadow : s.shadowOk o.w.toNat o.ty = true)
    (resting : (s.streamSeen (o.func.toNat % 16)).st = .bound ∨ (s.streamSeen (o.func.toNat % 16)).st = .closed)
    (target : (s.streamSeen (o.func.toNat % 16)).target = 2)
    (words : (s.streamSeen (o.func.toNat % 16)).n0 = if o.ty = 0xB ∨ o.ty = 0xC then 33 else 64)
    (fits : MTX.start o + (s.streamSeen (o.func.toNat % 16)).tileRows ≤ 128) : GivesHeld (.mmas o) o.g o.gs s
      [.island (.attach (o.func.toNat % 16)
        { acc := o.acc.toNat, w := o.w.toNat, ty := o.ty, start := MTX.start o, slot := o.func.toNat / 16 % 4, emit := o.func.getLsbD 6 })] := by
  have state : ((s.streamSeen (o.func.toNat % 16)).st == .bound || (s.streamSeen (o.func.toNat % 16)).st == .closed) = true := by
    simpa using resting
  refine givesHeld_of_checked (exec_mmas o s) ?_
  rw [MTX.start] at fits
  simp [isFp8_toNat, state, free, shadow, target, words, Nat.not_lt.2 fits, MTX.start]

theorem aclr_givesHeld (free : s.accBusy o.acc.toNat = false) (form : o.func = 0) :
    GivesHeld (.aclr o) o.g o.gs s [.island (.aclr o.acc.toNat (MTX.start o) (MTX.count o))] :=
  givesHeld_of_checked (exec_aclr o s) (by simp [form, free])

theorem aclr_stat_givesHeld (form : o.func = 1) : GivesHeld (.aclr o) o.g o.gs s [.island .clrStat] :=
  givesHeld_of_checked (exec_aclr o s) (by simp [form])

theorem ard_pad_givesHeld (free : s.accBusy o.acc.toNat = false) (form : o.func = 1) (range : inPad (s.x o.a) 4 (256 * MTX.count o)) :
    GivesHeld (.ard o) o.g o.gs s [.island (.ardPad o.acc.toNat (MTX.start o) (MTX.count o) (s.x o.a).toNat)] :=
  givesHeld_of_checked (exec_ard o s) (by simp [form, padRangeOk_iff.2 range, free])

theorem awr_pad_givesHeld (free : s.accBusy o.acc.toNat = false) (form : o.func = 1) (range : inPad (s.x o.a) 4 (256 * MTX.count o)) :
    GivesHeld (.awr o) o.g o.gs s [.island (.awrPad o.acc.toNat (MTX.start o) (MTX.count o) (s.x o.a).toNat)] :=
  givesHeld_of_checked (exec_awr o s) (by simp [form, padRangeOk_iff.2 range, free])

theorem awr_half_givesHeld (free : s.accBusy o.acc.toNat = false) (form : o.func = 0) :
    GivesHeld (.awr o) o.g o.gs s [.island (.awrV o.acc.toNat (MTX.start o) (o.imm.toNat % 2) (s.v o.a))] :=
  givesHeld_of_checked (exec_awr o s) (by simp [form, MTX.start, free])

theorem asave_save_givesHeld {ps : List Page} (free : s.accBusy o.acc.toNat = false) (form : o.func = 0)
    (area : s.areaPages (s.x o.a) 32896 .w = .ok ps) :
    GivesHeld (.asave o) o.g o.gs s [.island (.save o.acc.toNat ps (s.x o.a).toNat)] :=
  givesHeld_of_checked (exec_asave o s) (by simp [form, area, free])

theorem asave_rest_givesHeld {ps : List Page} (free : s.accBusy o.acc.toNat = false) (form : o.func = 1)
    (area : s.areaPages (s.x o.a) 32896 .r = .ok ps) :
    GivesHeld (.asave o) o.g o.gs s [.island (.rest [(o.acc.toNat, (s.x o.a).toNat)] ps)] :=
  givesHeld_of_checked (exec_asave o s) (by simp [form, area, free])

/-! ## Forms that read the island at execute (ARD) -/

theorem exec_ard_half (free : s.accBusy o.acc.toNat = false) (form : o.func = 0) (hr : Runs (.ard o) o.g o.gs s) : exec (.ard o) s =
    .next (s.setV o.d (s.me.island.halfRow o.acc.toNat (MTX.start o) (o.imm.toNat % 2))) :=
  (exec_ard o s).trans (checked_ok hr.2 (by simp [form, MTX.start, free]))

/-- The poison bits of half the rows of an accumulator, row 0 of the half lowest. -/
def Island.poisonWord (i : Island) (acc half : Nat) : W64 :=
  w64 ((List.range 64).foldl (fun a k => a + b2n (i.bad acc (64 * half + k)) * 2 ^ k) 0)

theorem Island.getLsbD_poisonWord (i : Island) (acc half : Nat) {k : Nat} (hk : k < 64) :
    (i.poisonWord acc half).getLsbD k = i.bad acc (64 * half + k) :=
  getLsbD_bits (fun k => i.bad acc (64 * half + k)) hk

theorem exec_ard_pois (free : s.accBusy o.acc.toNat = false) (form : o.func = 2) (hr : Runs (.ard o) o.g o.gs s) :
    exec (.ard o) s = .next (s.setX o.d (s.me.island.poisonWord o.acc.toNat (o.imm.toNat % 2))) :=
  (exec_ard o s).trans (checked_ok hr.2 (by simp [form, Island.poisonWord, free]))

theorem ard_stat_givesX (form : o.func = 3) : GivesX (.ard o) o.g o.gs s o.d s.me.island.status :=
  givesX_of_checked (exec_ard o s) (by simp [form])

/-! ## Faults of MSCL (R222, R223) -/

theorem mscl_operand (hr : Runs (.mscl o) o.g o.gs s) (outside : ¬inPad (s.x o.a) 4 (4 * MTX.count o)) :
    exec (.mscl o) s = .next (s.faultAt s.cur 0x34 0 (s.x o.a)) :=
  faults_of_checked (exec_mscl o s) (by simp [padRangeOk_false outside, islandOperand]) hr

theorem mscl_busy (hr : Runs (.mscl o) o.g o.gs s) (range : inPad (s.x o.a) 4 (4 * MTX.count o)) (busy : s.accBusy o.acc.toNat = true) :
    exec (.mscl o) s = .next (s.faultAt s.cur 0x35 0 (BitVec.ofNat 64 o.acc.toNat)) :=
  faults_of_checked (exec_mscl o s) (by simp [padRangeOk_iff.2 range, busy, islandBusy, w64]) hr

end

end Sys2Proof.Machine
end

section
/-!
PROOFS of family 13. RSAVE and RREST (19 R297, R298): what they check and what they hold.
-/
namespace Sys2Proof.Machine
open Sys2Proof.Says

theorem bitAt_eq_testBit (m k : Nat) : bitAt m k = m.testBit k := by
  rw [Nat.testBit_eq_decide_div_mod_eq, bitAt]
  rfl

section
variable {o : SYS} {s : State}

theorem rsave_gate_givesHeld (form : o.func = 1) : GivesHeld (.rsave o) o.g o.gs s [.gate ((s.x o.b).toNat % 2 ^ 16)] :=
  givesHeld_of_checked (exec_rsave o s) (by simp [form])

theorem rsave_givesHeld {ps : List Page} (form : o.func ≠ 1) (area : s.areaPages (s.x o.a) 133760 .w = .ok ps)
    (free : s.saveBusy (s.x o.b).toNat = .ok ()) :
    GivesHeld (.rsave o) o.g o.gs s [.island (.saveRec ((s.x o.b).toNat % 2 ^ 20) [] ps (s.x o.a).toNat)] :=
  givesHeld_of_checked (exec_rsave o s) (by simp only [beq_eq_false_iff_ne.2 form, area, free]; rfl)

theorem rrest_givesHeld {ps : List Page} {l : List Held} (area : s.areaPages (s.x o.a) 133760 .r = .ok ps)
    (free : s.saveBusy (s.x o.b).toNat = .ok ()) (records : s.restRecords (s.x o.a) (maskBits (s.x o.b).toNat) = .ok l) :
    GivesHeld (.rrest o) o.g o.gs s (l ++ [.island (.rest
      (((List.range 4).filter fun k => (s.x o.b).toNat.testBit (16 + k)).map fun k => (k, (s.x o.a).toNat + 2176 + 32896 * k)) ps)]) :=
  fun hr => ⟨_, (exec_rrest o s).trans (checked_ok hr.2 (by simp only [area, free, records, bitAt_eq_testBit])), holds_holdAll ..⟩

end

/-- A list in rising order gives its least element of a kind. -/
theorem find?_least {L : List Nat} {p : Nat → Bool} {i : Nat} (rising : L.Pairwise (· < ·)) (mem : i ∈ L) (kind : p i = true) :
    ∃ k, L.find? p = some k ∧ k ≤ i := by
  obtain ⟨k, found⟩ := Option.isSome_iff_exists.1 (List.find?_isSome.2 ⟨i, mem, kind⟩)
  obtain ⟨-, before, behind, rfl, none_before⟩ := List.find?_eq_some_iff_append.1 found
  refine ⟨k, found, ?_⟩
  rcases List.mem_append.1 mem with early | late
  · exact absurd kind (by simpa using none_before i early)
  · rcases List.mem_cons.1 late with rfl | late
    · exact Nat.le_refl _
    · exact Nat.le_of_lt ((List.pairwise_cons.1 (List.pairwise_append.1 rising).2.1).1 i late)

/-- A named stream that runs makes the check fail at the lowest busy stream. -/
theorem State.saveBusy_running {s : State} {m i : Nat} (inside : i < 16) (named : m.testBit i = true)
    (runs : (s.streamSeen i).st = .running) : ∃ v, s.saveBusy m = .error (.fault 0x28 0 v) ∧ v.toNat ≤ i := by
  have rising : (maskBits m).Pairwise (· < ·) := List.pairwise_lt_range.filter _
  have mem : i ∈ maskBits m := List.mem_filter.2 ⟨List.mem_range.2 inside, (bitAt_eq_testBit m i).trans named⟩
  obtain ⟨k, found, least⟩ := find?_least (p := fun i => (s.streamSeen i).st == .reserved || (s.streamSeen i).st == .running) rising mem
    (by simp [runs])
  refine ⟨w64 k, by simp only [State.saveBusy, found, streamBusy], ?_⟩
  rw [w64, BitVec.toNat_ofNat, Nat.mod_eq_of_lt (by omega)]
  exact least

end Sys2Proof.Machine

namespace Sys2Proof.Proofs
open Sys2Proof Sys2Proof.Machine Sys2Proof.Says

/-- Settles O28: a form whose checks pass holds its command, and each check that fails names its fault. -/
theorem islandFormsQueueCommands : Obligations.IslandFormsQueueCommands := by
  unfold Obligations.IslandFormsQueueCommands
  refine ⟨fun o s => ⟨wload_givesHeld, mscl_givesHeld, mma_givesHeld, aclr_givesHeld, aclr_stat_givesHeld,
      fun free form range => ⟨ard_pad_givesHeld free form range, awr_pad_givesHeld free form range⟩, awr_half_givesHeld,
      fun _ => asave_save_givesHeld, fun _ => asave_rest_givesHeld, mmas_givesHeld, ?half, ?pois, ard_stat_givesX, mscl_operand,
      fun hr range busy => mscl_busy hr range (eq_true_of_ne_false busy)⟩,
    fun o s => ⟨rsave_gate_givesHeld, fun _ => rsave_givesHeld, fun _ _ => rrest_givesHeld, fun _ => State.saveBusy_running⟩⟩
  case half =>
    exact fun free form hr => ⟨_, _, exec_ard_half free form hr, wroteV_setV .., fun l hl => Island.lane_halfRow _ _ _ _ hl⟩
  case pois =>
    exact fun free form hr => ⟨_, _, exec_ard_pois free form hr, wroteX_setX .., fun k hk => Island.getLsbD_poisonWord _ _ _ hk⟩

end Sys2Proof.Proofs
end

section
/-!
PROOFS of family 19. System registers (19 R277, R281), and the forms that end or discard a block (19 R298).
-/
namespace Sys2Proof.Machine
open Sys2Proof.Says

/-! ## Forms that end the block (04 R60, 19 R298) -/

theorem State.exits_exitTo (s : State) (e : Exit) : Exits s (s.exitTo e) e s.w := by
  have blk : (s.exitTo e).blk = { s.blk with exit := e, idx := s.blk.words.length } := State.blk_setBlk ..
  refine ⟨by rw [blk], by simp [blk], (congrArg Blk.w blk :), by rw [blk], ⟨_, rfl⟩, fun _ _ => rfl, fun n hn => State.core_setMe_ne s _ n hn⟩

/-- A handler's address: below 2^57 and on 8 bytes. -/
theorem tvec_legal (v : W64) : (fld v.toNat 63 57 = 0 ∧ fld v.toNat 2 0 = 0) ↔ v.toNat < 2 ^ 57 ∧ v.toNat % 8 = 0 := by
  have := v.isLt
  simp only [fld]
  omega

section
variable {i : Instr} {o : SYS} {s : State}

theorem exits_of_plain {e : Exit} (hx : exec i s = plain o.g o.gs s fun s => s.exitTo e) (hr : Runs i o.g o.gs s) :
    ∃ t, exec i s = .next t ∧ Exits s t e s.w := ⟨_, hx.trans (plain_on _ hr.2), s.exits_exitTo e⟩

theorem exec_bkpt_disabled (hr : Runs (.bkpt o) o.g o.gs s) (off : s.w.tstat.getLsbD 5 = false) : exec (.bkpt o) s = .next s :=
  (exec_bkpt o s).trans (checked_ok hr.2 (by simp only [off]; rfl))

theorem exec_bkpt_enabled (hr : Runs (.bkpt o) o.g o.gs s) (on : s.w.tstat.getLsbD 5 = true) :
    exec (.bkpt o) s = .next (s.faultAt s.cur 7 0 (s.blk.hdr + BitVec.ofNat 64 (8 * s.blk.idx))) :=
  (exec_bkpt o s).trans (checked_fault hr.2 (by simp only [on]; rfl))

/-! ## Writes of system registers (R281) -/

section
variable {f : State → Except XF State} (hx : exec i s = checked o.g o.gs s f) (hr : Runs i o.g o.gs s)
include hx hr

theorem sets_of_checked {q : Regs} (hf : f s = .ok (s.setW q)) : ∃ t, exec i s = .next t ∧ t.w = q ∧ SameOutside s t :=
  ⟨_, hx.trans (checked_ok hr.2 hf), State.w_setW .., sameOutside_setW ..⟩

theorem holds_of_checked {e : Held} (hf : f s = .ok (s.hold e)) : ∃ t, exec i s = .next t ∧ Holds s t [e] :=
  ⟨_, hx.trans (checked_ok hr.2 hf), holds_holdAll ..⟩

end

variable (hr : Runs (.mts o) o.g o.gs s)
include hr

theorem mts_tcause (r : o.sreg = 0x000) (legal : fld (s.x o.a).toNat 63 16 = 0 ∧ fld (s.x o.a).toNat 11 8 = 0) :
    ∃ t, exec (.mts o) s = .next t ∧ t.w = { s.w with tcause := s.x o.a } ∧ SameOutside s t :=
  sets_of_checked (exec_mts o s) hr (by simp [r, legal])

theorem mts_tcause_bad (r : o.sreg = 0x000) (illegal : ¬(fld (s.x o.a).toNat 63 16 = 0 ∧ fld (s.x o.a).toNat 11 8 = 0)) :
    exec (.mts o) s = .next (s.faultAt s.cur 0x42 0 (s.x o.a)) :=
  faults_of_checked (exec_mts o s) (by simp [r, not_and_or.1 illegal]) hr

theorem mts_tval (r : o.sreg = 0x001) :
    ∃ t, exec (.mts o) s = .next t ∧ t.w = { s.w with tval := s.x o.a } ∧ SameOutside s t :=
  sets_of_checked (exec_mts o s) hr (by simp [r])

theorem mts_tblock (r : o.sreg = 0x002) :
    ∃ t, exec (.mts o) s = .next t ∧ t.w = { s.w with tblock := s.x o.a } ∧ SameOutside s t :=
  sets_of_checked (exec_mts o s) hr (by simp [r])

theorem mts_tstat (r : o.sreg = 0x003) (legal : (s.x o.a).toNat < 64) :
    ∃ t, exec (.mts o) s = .next t ∧ t.w = { s.w with tstat := (s.x o.a).setWidth 6 } ∧ SameOutside s t :=
  sets_of_checked (exec_mts o s) hr (by simp [r, legal])

theorem mts_tstat_bad (r : o.sreg = 0x003) (illegal : ¬(s.x o.a).toNat < 64) :
    exec (.mts o) s = .next (s.faultAt s.cur 0x42 0 (s.x o.a)) :=
  faults_of_checked (exec_mts o s) (by simp [r, Nat.le_of_not_lt illegal]) hr

theorem mts_tvec (r : o.sreg = 0x004) (legal : (s.x o.a).toNat < 2 ^ 57 ∧ (s.x o.a).toNat % 8 = 0) :
    ∃ t, exec (.mts o) s = .next t ∧ t.w = { s.w with tvec := s.x o.a } ∧ SameOutside s t :=
  sets_of_checked (exec_mts o s) hr (by simp [r, (tvec_legal _).2 legal])

theorem mts_tvec_bad (r : o.sreg = 0x004) (illegal : ¬((s.x o.a).toNat < 2 ^ 57 ∧ (s.x o.a).toNat % 8 = 0)) :
    exec (.mts o) s = .next (s.faultAt s.cur 0x42 0 (s.x o.a)) :=
  faults_of_checked (exec_mts o s) (by simp [r, not_and_or.1 (mt (tvec_legal _).1 illegal)]) hr

theorem mts_tscr (r : o.sreg = 0x005) :
    ∃ t, exec (.mts o) s = .next t ∧ t.w = { s.w with tscr := s.x o.a } ∧ SameOutside s t :=
  sets_of_checked (exec_mts o s) hr (by simp [r])

theorem mts_tpend (r : o.sreg = 0x006) (legal : (s.x o.a).toNat < 16) :
    ∃ t, exec (.mts o) s = .next t ∧ Holds s t [.wbits ((s.x o.a).setWidth 4)] :=
  holds_of_checked (exec_mts o s) hr (by simp [r, legal])

theorem mts_tmask (r : o.sreg = 0x007) (legal : (s.x o.a).toNat < 16) :
    ∃ t, exec (.mts o) s = .next t ∧ t.w = { s.w with tmask := (s.x o.a).setWidth 4 } ∧ SameOutside s t :=
  sets_of_checked (exec_mts o s) hr (by simp [r, legal])

theorem mts_bits_bad (r : o.sreg = 0x006 ∨ o.sreg = 0x007) (illegal : ¬(s.x o.a).toNat < 16) :
    exec (.mts o) s = .next (s.faultAt s.cur 0x42 0 (s.x o.a)) :=
  faults_of_checked (exec_mts o s) (by rcases r with r | r <;> simp [r, Nat.le_of_not_lt illegal]) hr

theorem mts_tpost (r : o.sreg = 0x008) (legal : fld (s.x o.a).toNat 63 26 = 0 ∧ fld (s.x o.a).toNat 15 4 = 0 ∧
      s.sameOwner s.cur (fld (s.x o.a).toNat 25 16) = true) :
    ∃ t, exec (.mts o) s = .next t ∧ Holds s t [.post (fld (s.x o.a).toNat 25 16) ((s.x o.a).setWidth 4)] :=
  holds_of_checked (exec_mts o s) hr (by simp [r, legal])

theorem mts_tpost_bad (r : o.sreg = 0x008) (illegal : ¬(fld (s.x o.a).toNat 63 26 = 0 ∧ fld (s.x o.a).toNat 15 4 = 0 ∧
      s.sameOwner s.cur (fld (s.x o.a).toNat 25 16) = true)) :
    exec (.mts o) s = .next (s.faultAt s.cur 0x42 0 (s.x o.a)) := by
  have some_wrong : (fld (s.x o.a).toNat 63 26 ≠ 0 ∨ fld (s.x o.a).toNat 15 4 ≠ 0) ∨
      s.sameOwner s.cur (fld (s.x o.a).toNat 25 16) = false := by
    rw [← Bool.not_eq_true, or_assoc]
    exact (not_and_or.1 illegal).imp_right not_and_or.1
  exact faults_of_checked (exec_mts o s) (by simp [r, some_wrong]) hr

theorem mts_colour (r : o.sreg = 0x010) (legal : (s.x o.a).toNat < 256 ∧ s.bound (s.partid s.cur) (s.x o.a).toNat = true) :
    ∃ t, exec (.mts o) s = .next t ∧ t.w = { s.w with colour := (s.x o.a).setWidth 8 } ∧ SameOutside s t :=
  sets_of_checked (exec_mts o s) hr (by simp [r, legal])

theorem mts_colour_bad (r : o.sreg = 0x010)
    (illegal : ¬((s.x o.a).toNat < 256 ∧ s.bound (s.partid s.cur) (s.x o.a).toNat = true)) :
    exec (.mts o) s = .next (s.faultAt s.cur 0x42 0 (s.x o.a)) := by
  have some_wrong : 256 ≤ (s.x o.a).toNat ∨ s.bound (s.partid s.cur) (s.x o.a).toNat = false := by
    rw [← Bool.not_eq_true, ← Nat.not_lt]
    exact not_and_or.1 illegal
  exact faults_of_checked (exec_mts o s) (by simp [r, some_wrong]) hr

end

/-! ## Capability word 0 (28 R387) -/

theorem countOf_false (n : Nat) : countOf n (fun _ => false) = 0 := by
  induction n with
  | zero => rfl
  | succ n ih => rw [countOf, List.range_succ, List.foldl_append, ← countOf, ih]; rfl

theorem countOf_true {n : Nat} {f : Nat → Bool} (all : ∀ i, i < n → f i = true) : countOf n f = n := by
  induction n with
  | zero => rfl
  | succ n ih =>
    rw [countOf, List.range_succ, List.foldl_append, ← countOf, ih fun i hi => all i (by omega), List.foldl_cons, List.foldl_nil,
      all n (by omega)]
    rfl

/-- A full module of which the boot ROM has refused the firmware: no port is present (28 R385). -/
def refusedModule : State := { State.reset with refused := true }

theorem capWord_refusedModule :
    refusedModule.capWord 0 = w64 (0x0B4A * 2 ^ 48 + 0xA2 * 2 ^ 40 + 1024 * 2 ^ 16 + 128 * 2 ^ 8 + 6) := by
  have cores : countOf 1024 refusedModule.corePresent = 1024 := countOf_true fun i hi => by
    simp [State.corePresent, refusedModule, State.reset, Lacks.none, hi]
  have chans : countOf 128 refusedModule.chanPresent = 128 := countOf_true fun i hi => by
    simp [State.chanPresent, refusedModule, State.reset, Lacks.none, hi]
  have ports : countOf 16 refusedModule.portPresent = 0 := by
    rw [← countOf_false 16]
    exact congrArg _ (funext fun i => by simp [State.portPresent, refusedModule])
  have bridges : countOf 6 refusedModule.bridgePresent = 6 := countOf_true fun i hi => by
    simp [State.bridgePresent, refusedModule, State.reset, Lacks.none, hi]
  simp only [State.capWord, cores, chans, ports, bridges]
  rfl

end Sys2Proof.Machine

namespace Sys2Proof.Proofs
open Sys2Proof Sys2Proof.Machine Sys2Proof.Says

/-- Settles O16: each form records its exit, and a form that discards its block names its fault. -/
theorem trapAndExitForms : Obligations.TrapAndExitForms := by
  unfold Obligations.TrapAndExitForms
  refine fun o s => ⟨exits_of_plain (exec_sysc o s), exits_of_plain (exec_eret o s), exits_of_plain (exec_halt o s),
    fun hr => (exec_trap o s).trans (checked_fault hr.2 rfl), fun hr => ?_⟩
  by_cases on : s.w.tstat.getLsbD 5 = true
  · rw [if_pos on]
    exact exec_bkpt_enabled hr on
  · rw [if_neg on]
    exact exec_bkpt_disabled hr (eq_false_of_ne_true on)

/-- Refutes O23: where the boot ROM has refused the firmware no port is present, and capability word 0 counts 0 ports on a module that
lacks none (28 R385, R387). -/
theorem not_systemRegisterRead : ¬ Obligations.SystemRegisterRead := by
  unfold Obligations.SystemRegisterRead
  intro h
  obtain ⟨-, -, -, -, -, -, -, -, -, -, -, -, -, -, cap⟩ :=
    (h refusedModule).1 { g := 0, gs := false, d := 1, a := 0, b := 0, sreg := 0x014, func := 0, imm := 0 }
  obtain ⟨t, ht, wrote, -⟩ := cap rfl rfl rfl rfl ⟨by decide, by decide⟩
  rw [exec_mfs, execMfs, plain_on _ (by decide)] at ht
  have same := Host.Outcome.next.inj ht
  subst same
  rw [(wroteX_setX ..).1] at wrote
  have word : refusedModule.capWord 0 = _ := wrote
  rw [capWord_refusedModule] at word
  exact absurd word (by decide)

/-- Settles O24: each register's clause is what MTS does at its number, for a legal value and for any other. -/
theorem systemRegisterWrite : Obligations.SystemRegisterWrite := by
  unfold Obligations.SystemRegisterWrite
  refine fun o s hr => ⟨fun r => ⟨mts_tcause hr r, mts_tcause_bad hr r⟩, mts_tval hr, mts_tblock hr, fun r => ?tstat,
    fun r => ⟨mts_tvec hr r, mts_tvec_bad hr r⟩, mts_tscr hr, fun r => ?tpend, fun r => ?tmask,
    fun r => ⟨mts_tpost hr r, mts_tpost_bad hr r⟩, fun r => ⟨mts_colour hr r, mts_colour_bad hr r⟩⟩
  case tstat => split <;> [exact mts_tstat hr r ‹_›; exact mts_tstat_bad hr r ‹_›]
  case tpend => split <;> [exact mts_tpend hr r ‹_›; exact mts_bits_bad hr (.inl r) ‹_›]
  case tmask => split <;> [exact mts_tmask hr r ‹_›; exact mts_bits_bad hr (.inr r) ‹_›]

end Sys2Proof.Proofs
end

section
/-!
PROOFS of family 27. Events of the module: patrol, clock, power and cold reset (27 R376, R377, R379, 28 R383 to R385), and what a cold
reset leaves.
-/
namespace Sys2Proof.Machine

/-! ## Patrol (27 R376, R377) -/

section
variable {s : State} {sector : BitVec 47} (channel : space (sector.toNat * 32) = .gddr)
  (present : s.chanPresent (chanOf (sector.toNat * 32)) = true)
include channel present

theorem State.memError_gddr : s.memError (sector.toNat * 32) =
    { s with marks := Sp.set false s.marks (unitBase (sector.toNat * 32)) true }.countUe (sector.toNat * 32) := by
  simp [State.memError, channel, present]

theorem exec_patrol_bad : exec (.patrol sector true) s = .next (s.memError (sector.toNat * 32)) := by
  rw [exec_patrol, execPatrol]
  simp [channel, present]

theorem State.poisoned_memError (home : Sp.find? s.l2 (sector.toNat * 32 / 128) = none) :
    (s.memError (sector.toNat * 32)).poisoned (sector.toNat * 32) = true := by
  rw [State.memError_gddr channel present]
  simp [State.poisoned, State.countUe, channel, home]

theorem State.ue_memError : ((s.memError (sector.toNat * 32)).chan (chanOf (sector.toNat * 32))).ue =
    min (2 ^ 16 - 1) ((s.chan (chanOf (sector.toNat * 32))).ue + 1) := by
  rw [State.memError_gddr channel present, ← satAdd_one 16]
  simp [State.countUe, State.chan]

theorem State.readHome_memError (key a : Nat) : (s.memError (sector.toNat * 32)).readHome key a = s.readHome key a := by
  rw [State.memError_gddr channel present]
  rfl

end

theorem exec_patrol_good (sector : BitVec 47) (s : State) : exec (.patrol sector false) s = .next s := by
  rw [exec_patrol, execPatrol]
  simp

/-! ## The clock (28 R383) -/

theorem exec_throttle_slows {s : State} (full : s.clock = 0) :
    exec .throttle s = .next { s with excess := some (s.excess.getD s.now), clock := 1, clockAt := s.now } := by
  simp only [exec_throttle, execThrottle, full]

/-- A second step, where the excess has lasted 10 ms. -/
def State.throttledAgain (s : State) : State :=
  if 10000000 ≤ (s.now - s.excess.getD s.now).toNat then
    { s with excess := some (s.excess.getD s.now), clock := 2, clockAt := s.now }
  else { s with excess := some (s.excess.getD s.now) }

theorem exec_throttle_again {s : State} (slow : s.clock = 1) : exec .throttle s = .next s.throttledAgain := by
  simp only [exec_throttle, execThrottle, slow, State.throttledAgain, ge_iff_le]

theorem State.throttledAgain_excess (s : State) : s.throttledAgain.excess = some (s.excess.getD s.now) := by
  unfold State.throttledAgain
  split <;> rfl

theorem State.throttledAgain_clock {s : State} (slow : s.clock = 1) :
    s.throttledAgain.clock = if 10000000 ≤ (s.now - s.excess.getD s.now).toNat then 2 else 1 := by
  unfold State.throttledAgain
  split
  · rfl
  · exact slow

theorem exec_throttleRestore_clock (s : State) : ∃ t, exec .throttleRestore s = .next t ∧ t.clock =
    if s.clock ≠ 0 ∧ s.excess = none ∧ 100000000 ≤ (s.now - s.clockEx).toNat ∧ 100000000 ≤ (s.now - s.clockAt).toNat then s.clock - 1
    else s.clock := by
  refine ⟨_, by rw [exec_throttleRestore, execThrottleRestore], ?_⟩
  simp only [Bool.and_eq_true, bne_iff_ne, Option.isNone_iff_eq_none, decide_eq_true_eq, and_assoc, ge_iff_le]
  split <;> rfl

/-! ## Without power (28 R384) -/

theorem step_noPower {s : State} (off : s.powered = false) (idle : s.agenda = []) : step s = .fault .noPower := by
  simp [step, State.advanceWorld, idle, off]

theorem Turn.event_wakes {i : Instr} (other : i ≠ .coldReset) : (Turn.event i).wakes = false := by
  unfold Turn.wakes
  split
  case h_1 h => exact absurd (Turn.event.inj h) other
  case h_2 h => cases h
  case h_3 => rfl

theorem step_event_off {s : State} {i : Instr} {rest : List Turn} (off : s.powered = false) (due : s.agenda = .event i :: rest)
    (other : i ≠ .coldReset) : step s = .next { s with agenda := rest } := by
  simp [step, State.advanceWorld, due, off, Turn.event_wakes other]

/-- A floor, crown or pad byte of a cold package reads as zero. -/
theorem State.readHome_reset {h : Nat} (space_h : space h ≠ .gddr) : State.reset.readHome 0 h = 0 :=
  State.readHome_mem 0 space_h

end Sys2Proof.Machine

namespace Sys2Proof.Proofs
open Sys2Proof Sys2Proof.Machine

/-- Settles O46: each event's clause is the state that it leaves. -/
theorem moduleEvents : Obligations.ModuleEvents := by
  unfold Obligations.ModuleEvents
  refine fun s => ⟨fun sector channel present home => ⟨⟨_, exec_patrol_bad channel present, State.poisoned_memError channel present home,
      State.ue_memError channel present, State.readHome_memError channel present⟩, exec_patrol_good sector s⟩,
    fun full => ⟨_, exec_throttle_slows full, rfl, rfl⟩,
    fun slow => ⟨_, exec_throttle_again slow, State.throttledAgain_excess s, State.throttledAgain_clock slow⟩,
    exec_throttleRestore_clock s, ⟨_, exec_thermalTrip s, rfl, rfl, rfl⟩,
    ⟨_, exec_coldReset s, rfl, rfl, rfl, rfl, rfl, rfl, rfl, fun n => ⟨rfl, rfl⟩⟩, step_noPower, fun i rest => step_event_off⟩

/-- Settles O59: every map of the state after reset lists nothing, so that each entry reads as its reset value. -/
theorem resetState : Obligations.ResetState := by
  unfold Obligations.ResetState
  exact ⟨fun n => ⟨rfl, rfl, rfl, fun r => ite_self _, rfl, rfl, rfl, rfl, rfl, rfl, rfl, rfl, rfl, rfl⟩, fun _ => rfl,
    fun _ => ⟨rfl, rfl⟩, fun _ => ⟨rfl, rfl⟩, fun _ => rfl, fun _ => rfl, fun _ => rfl, fun _ => rfl,
    fun h => State.readHome_reset, fun _ => rfl, rfl⟩

end Sys2Proof.Proofs
end

section
/-!
PROOFS: the canonical form of memory (log 2). What an answer must satisfy for the form to be kept, and the rules for composing operations.
-/
namespace Sys2Proof.Machine

/-! ## Answers whose state has its memory in canonical form -/

/-- The memory of a state has its canonical form. -/
def State.Wf (s : State) : Prop := Mem.wf s.mem = true

/-- A checked operation keeps the form where it does not end in an error. -/
def OkWf {ε : Type} (r : Except ε State) : Prop := ∀ t, r = .ok t → t.Wf
def SomeWf (r : Option State) : Prop := ∀ t, r = some t → t.Wf
def OutWf (r : Out) : Prop := ∀ t, r = .next t → t.Wf

variable {s t : State}

theorem OkWf.ok {ε : Type} (w : t.Wf) : OkWf (.ok t : Except ε State) := fun _ e => Except.ok.inj e ▸ w
theorem OkWf.error {ε : Type} (x : ε) : OkWf (.error x) := fun _ e => nomatch e
theorem SomeWf.some {t : State} (w : t.Wf) : SomeWf (some t) := fun _ e => Option.some.inj e ▸ w
theorem SomeWf.none : SomeWf none := fun _ e => nomatch e
theorem OutWf.next (w : t.Wf) : OutWf (.next t) := fun _ e => Host.Outcome.next.inj e ▸ w

theorem OkWf.ite {ε : Type} {c : Prop} [Decidable c] {a b : Except ε State} (yes : OkWf a) (no : OkWf b) : OkWf (if c then a else b) := by
  split <;> assumption
theorem SomeWf.ite {c : Prop} [Decidable c] {a b : Option State} (yes : SomeWf a) (no : SomeWf b) : SomeWf (if c then a else b) := by
  split <;> assumption
theorem OutWf.ite {c : Prop} [Decidable c] {a b : Out} (yes : OutWf a) (no : OutWf b) : OutWf (if c then a else b) := by
  split <;> assumption
theorem State.ite_wf {c : Prop} [Decidable c] {a b : State} (yes : a.Wf) (no : b.Wf) :
    (if c then a else b).Wf := by
  split <;> assumption

/-- What a record update does to the other fields does not matter: its memory is what counts. -/
theorem State.mk_wf
    {lacks cores mem marks fe tags banks bankOps presOps token walk l2 ltags chans retired chanHeld disable untrained parts vfs
    colours lperm partKey sealed trust superLog flog netp net channels links rccc domains elems regions loaders gens ctxs entryq
    exitq expect stamp egress relays scheds ptp now frac cycle clock clockAt excess clockEx serial powered booting refused free
    agenda agent curCore curElem curSlot}
    (wf : Mem.wf mem = true) :
    (State.mk
      lacks cores mem marks fe tags banks bankOps presOps token walk l2 ltags chans retired chanHeld disable untrained parts vfs
      colours lperm partKey sealed trust superLog flog netp net channels links rccc domains elems regions loaders gens ctxs
      entryq exitq expect stamp egress relays scheds ptp now frac cycle clock clockAt excess clockEx serial powered booting
      refused free agenda agent curCore curElem curSlot).Wf := wf

theorem State.Wf.write {key h : Nat} {bs : List Byte} (wf : s.Wf) : (s.write key h bs).Wf := State.write_wf s key h bs wf
theorem State.Wf.writeBytes {key h : Nat} {bs : List Byte} (wf : s.Wf) : (s.writeBytes key h bs).Wf := State.writeBytes_wf bs s key h wf
theorem State.Wf.writeByte {key h : Nat} {b : Byte} (wf : s.Wf) : (s.writeByte key h b).Wf := State.writeByte_wf s key h b wf
theorem State.Wf.clearPad {n : Nat} (wf : s.Wf) : (s.clearPad n).Wf := State.clearPad_wf s n wf
theorem State.Wf.zeroFrame {f key : Nat} (wf : s.Wf) : (s.zeroFrame f key).Wf := State.zeroFrame_wf s f key wf
theorem State.Wf.l2Evict {line : Nat} (wf : s.Wf) : (s.l2Evict line).Wf := State.l2Evict_wf s line wf

/-- The state of a pair that an operation answers. -/
theorem fst_wf {α : Type} {p : State × α} {a : α} (e : p = (t, a)) (w : p.1.Wf) : t.Wf := by
  rwa [e] at w
theorem snd_wf {α : Type} {p : α × State} {a : α} (e : p = (a, t)) (w : p.2.Wf) : t.Wf := by
  rwa [e] at w

theorem State.foldl_wf {α : Type} {f : State → α → State} {l : List α} (step : ∀ s a, s.Wf → (f s a).Wf)
    (w : s.Wf) : (l.foldl f s).Wf := by
  induction l generalizing s with
  | nil => exact w
  | cons a t ih => exact ih (step _ _ w)

theorem State.foldl_fst_wf {α β : Type} {f : State × α → β → State × α} {l : List β} {p : State × α}
    (step : ∀ r b, r.1.Wf → (f r b).1.Wf) (w : p.1.Wf) :
    (l.foldl f p).1.Wf := by
  induction l generalizing p with
  | nil => exact w
  | cons b l ih => exact ih (step _ _ w)

theorem SomeWf.map {α : Type} {f : α → State} {o : Option α} (each : ∀ a, (f a).Wf) : SomeWf (o.map f) := by
  cases o with
  | none => exact .none
  | some a => exact .some (each a)

theorem SomeWf.getD {o : Option State} (some : SomeWf o) (wf : s.Wf) : (o.getD s).Wf := by
  cases o with
  | none => exact wf
  | some t => exact some t rfl

theorem SomeWf.findSome? {α : Type} {f : α → Option State} {l : List α} (each : ∀ a, SomeWf (f a)) : SomeWf (l.findSome? f) := by
  intro t e
  obtain ⟨a, -, found⟩ := List.exists_of_findSome?_eq_some e
  exact each a t found

/-! ## Computations on nets (`NetM`) -/

section
variable {α β : Type} {m : NetM α}

theorem NetM.runOn_bind (m : NetM α) (f : α → NetM β) (s : State) : (m >>= f).runOn s =
    match m.runOn s with
    | (.ok a, t) => (f a).runOn t
    | (.error e, t) => (.error e, t) := by
  simp only [NetM.runOn, ExceptT.run_bind, StateT.run_bind]
  rcases (ExceptT.run m).run s with ⟨e | a, t⟩ <;> rfl

theorem NetM.runOn_tryCatch (m : NetM α) (f : XF → NetM α) (s : State) : (tryCatch m f).runOn s =
    match m.runOn s with
    | (.ok a, t) => (.ok a, t)
    | (.error e, t) => (f e).runOn t := by
  simp only [NetM.runOn, MonadExcept.tryCatch, tryCatchThe, MonadExceptOf.tryCatch, ExceptT.tryCatch, ExceptT.run_mk, StateT.run_bind]
  have same : StateT.run (m : StateT State Id (Except XF α)) s = (ExceptT.run m).run s := rfl
  rw [same]
  rcases (ExceptT.run m).run s with ⟨e | a, t⟩ <;> rfl

/-- Whatever it ends in, a computation leaves a canonical memory canonical. -/
def NetM.KeepsWf (m : NetM α) : Prop := ∀ s, s.Wf → (m.runOn s).2.Wf

theorem NetM.runOn_wf (keeps : m.KeepsWf) (w : s.Wf) : (m.runOn s).2.Wf := keeps s w

theorem NetM.KeepsWf.pure (a : α) : NetM.KeepsWf (Pure.pure a : NetM α) := fun _ w => w
theorem NetM.KeepsWf.throw (e : XF) : NetM.KeepsWf (MonadExcept.throw e : NetM α) := fun _ w => w
theorem NetM.KeepsWf.get : NetM.KeepsWf (MonadState.get : NetM State) := fun _ w => w
theorem NetM.KeepsWf.get_bind {f : State → NetM β} (rest : ∀ t, t.Wf → (f t).KeepsWf) :
    NetM.KeepsWf (MonadState.get >>= f) := fun s w => rest s w s w
theorem NetM.KeepsWf.set (w : t.Wf) : NetM.KeepsWf (MonadStateOf.set t : NetM PUnit) := fun _ _ => w
theorem NetM.KeepsWf.update {f : State → State} (step : ∀ s, s.Wf → (f s).Wf) :
    NetM.KeepsWf (modify f : NetM PUnit) := fun s w => step s w

theorem NetM.KeepsWf.bind {f : α → NetM β} (first : m.KeepsWf) (rest : ∀ a, (f a).KeepsWf) : NetM.KeepsWf (m >>= f) := by
  intro s w
  have next := first s w
  rw [NetM.runOn_bind]
  split
  case h_1 a t e => exact rest a t (by rwa [e] at next)
  case h_2 a t e => rwa [e] at next

theorem NetM.KeepsWf.tryCatch {f : XF → NetM α} (first : m.KeepsWf) (rest : ∀ e, (f e).KeepsWf) :
    NetM.KeepsWf (MonadExcept.tryCatch m f) := by
  intro s w
  have next := first s w
  rw [NetM.runOn_tryCatch]
  split
  case h_1 a t e => rwa [e] at next
  case h_2 a t e => exact rest a t (by rwa [e] at next)

theorem NetM.KeepsWf.forM {l : List α} {f : α → NetM PUnit} (each : ∀ a, (f a).KeepsWf) : NetM.KeepsWf (ForM.forM l f) := by
  induction l with
  | nil => exact .pure _
  | cons a l ih => exact .bind (each a) fun _ => ih

theorem NetM.KeepsWf.mapM {l : List α} {f : α → NetM β} (each : ∀ a, (f a).KeepsWf) : NetM.KeepsWf (l.mapM f) := by
  induction l with
  | nil => exact .pure _
  | cons a l ih =>
    rw [List.mapM_cons]
    exact .bind (each a) fun _ => .bind ih fun _ => .pure _

end

end Sys2Proof.Machine
end

section
/-!
PROOFS: every operation of the model keeps the canonical form of memory. One lemma for each function, along its branches.
-/
namespace Sys2Proof.Machine
section
variable {s t : State}

theorem nextOr_wf {o : Out} (next : OutWf o) (wf : s.Wf) : (nextOr s o).Wf := by
  unfold nextOr
  split
  · exact next _ rfl
  · exact wf

theorem State.setCore_wf {n : Nat} {c : Core} (wf : s.Wf) : (s.setCore n c).Wf := State.mk_wf wf

theorem execBankReply_wf {n : CoreNum} (wf : s.Wf) : OutWf (execBankReply n s) := by
  unfold execBankReply
  refine .next ?_
  dsimp only
  split
  · exact wf
  · exact State.ite_wf (State.setCore_wf wf) (State.setCore_wf wf)

theorem State.padNotify_wf {h n : Nat} (wf : s.Wf) : (s.padNotify h n).Wf := by
  unfold State.padNotify
  refine State.ite_wf wf ?_
  dsimp only
  split
  · exact State.ite_wf (State.setCore_wf wf) wf
  · exact wf

theorem State.mark_wf {h : Nat} {b : Bool} (wf : s.Wf) : (s.mark h b).Wf := by
  unfold State.mark
  dsimp only
  split <;> exact State.mk_wf wf

theorem State.clearMarks_wf {h n : Nat} (wf : s.Wf) : (s.clearMarks h n).Wf :=
  State.foldl_wf (fun _ _ w => State.ite_wf (State.mark_wf w) w) wf

theorem State.amoAt_wf {h n : Nat} {f : Nat → Nat} (wf : s.Wf) : (s.amoAt h n f).1.Wf := by
  unfold State.amoAt
  dsimp only
  split
  · exact wf
  · exact State.Wf.write wf

theorem State.bankReply_wf {o : BankOp} {v : W64} {poison : Bool} (wf : s.Wf) : (s.bankReply o v poison).Wf := by
  unfold State.bankReply
  dsimp only
  split
  · exact wf
  · exact State.setCore_wf wf

theorem State.setBank_wf {b : Nat} {k : Bank} (wf : s.Wf) : (s.setBank b k).Wf := State.mk_wf wf

theorem State.bankDrop_wf {h : Nat} (wf : s.Wf) : (s.bankDrop h).Wf := State.setBank_wf wf

theorem State.amoReply_wf {o : BankOp} {ty : Nat} {f : Nat → Nat} (wf : s.Wf) : (s.amoReply o ty f).Wf := by
  unfold State.amoReply
  dsimp only
  split
  · exact State.bankReply_wf (State.amoAt_wf wf)
  · exact State.ite_wf (State.bankReply_wf (State.amoAt_wf wf)) (State.bankDrop_wf (State.amoAt_wf wf))

theorem State.answerCore_wf {n : Nat} {a2 : Answer} (wf : s.Wf) : (s.answerCore n a2).Wf := State.setCore_wf wf

theorem State.tellLaunch_wf {t : Section} {st : Nat} (wf : s.Wf) : (s.tellLaunch t st).Wf := by
  unfold State.tellLaunch
  dsimp only
  split
  · exact State.mk_wf wf
  · exact wf

theorem State.freeSection_wf {n e st : Nat} (wf : s.Wf) : (s.freeSection n e st).Wf := State.tellLaunch_wf (State.setCore_wf wf)

theorem State.answerPres_wf {w : Requester} {a2 : Answer} (wf : s.Wf) : (s.answerPres w a2).Wf := by
  unfold State.answerPres
  dsimp only
  split
  · exact State.answerCore_wf wf
  · split
    · exact State.freeSection_wf wf
    · exact State.setCore_wf wf

theorem State.setTag_wf {h : Nat} {b : Bool} (wf : s.Wf) : (s.setTag h b).Wf := State.mk_wf wf

theorem State.presPerform_wf {r : PresReq} (wf : s.Wf) : (s.presPerform r).Wf := by
  unfold State.presPerform
  split
  · exact State.answerPres_wf (State.setTag_wf (State.Wf.write wf))
  · exact State.ite_wf (State.answerPres_wf wf) (State.answerPres_wf (State.setTag_wf wf))
  · exact State.ite_wf (State.answerPres_wf wf) (State.answerPres_wf wf)

theorem State.serve_wf {w k : Nat} (wf : s.Wf) : (s.serve w k).Wf := by
  induction k generalizing s with
  | zero => exact wf
  | succ k ih =>
    unfold State.serve
    dsimp only
    split
    · exact wf
    · exact State.ite_wf wf (ih (State.presPerform_wf (State.setBank_wf wf)))

theorem State.serveWord_wf {w : Nat} (wf : s.Wf) : (s.serveWord w).Wf := State.serve_wf wf

theorem State.tagRange_wf {h len : Nat} {b : Bool} (wf : s.Wf) : (s.tagRange h len b).Wf :=
  State.foldl_wf (fun _ _ w => State.serveWord_wf (State.setTag_wf w)) wf

theorem State.bankPerform_wf {o : BankOp} (wf : s.Wf) : (s.bankPerform o).Wf := by
  unfold State.bankPerform
  dsimp only
  split
  · exact State.amoReply_wf wf
  · exact State.amoReply_wf wf
  · exact State.amoReply_wf wf
  · exact State.foldl_wf (fun _ _ w => State.ite_wf (State.ite_wf (State.bankDrop_wf (State.amoAt_wf w)) (State.amoAt_wf w)) w) wf
  · exact State.ite_wf (State.foldl_wf (fun _ _ => State.Wf.write) wf) (State.tagRange_wf (State.foldl_wf (fun _ _ => State.Wf.write) wf))
  · exact State.serveWord_wf (State.setTag_wf wf)
  · exact State.Wf.write wf
  · exact State.ite_wf (State.answerCore_wf wf) (State.answerCore_wf wf)

theorem execBankOperation_wf {k : Nat} (wf : s.Wf) : OutWf (execBankOperation k s) := by
  unfold execBankOperation
  refine .next ?_
  split
  · exact wf
  · exact State.ite_wf wf (State.bankPerform_wf (State.mk_wf wf))

theorem State.presArrive_wf {r : PresReq} (wf : s.Wf) : (s.presArrive r).Wf :=
  State.ite_wf (State.serveWord_wf (State.presPerform_wf wf)) (State.ite_wf (State.answerPres_wf (State.setBank_wf wf))
    (State.setBank_wf wf))

theorem execPresenceArrive_wf {k : Nat} (wf : s.Wf) : OutWf (execPresenceArrive k s) := by
  unfold execPresenceArrive
  refine .next ?_
  split
  · exact wf
  · exact State.presArrive_wf (State.mk_wf wf)

theorem execTradeTokenArrival_wf (wf : s.Wf) : OutWf (execTradeTokenArrival s) := by
  unfold execTradeTokenArrival
  refine .next ?_
  dsimp only
  split
  · exact wf
  · exact State.foldl_wf (fun _ _ => State.bankPerform_wf) (State.setBank_wf (State.mk_wf wf))

theorem execPresenceCancel_wf {n : CoreNum} (wf : s.Wf) : OutWf (execPresenceCancel n s) := by
  unfold execPresenceCancel
  refine .next ?_
  dsimp only
  split
  · exact State.ite_wf (State.answerCore_wf (State.setBank_wf wf)) wf
  · exact wf

theorem State.ownWork_wf {n : Nat} (wf : s.Wf) : (s.ownWork n).Wf := by
  unfold State.ownWork
  refine State.ite_wf (nextOr_wf (execBankReply_wf wf) wf) ?_
  split
  · exact nextOr_wf (execBankOperation_wf wf) wf
  · split
    · exact nextOr_wf (execPresenceArrive_wf wf) wf
    · exact State.ite_wf (nextOr_wf (execTradeTokenArrival_wf wf) wf) (State.ite_wf (nextOr_wf (execPresenceCancel_wf wf) wf) wf)

theorem State.post_wf {n : Nat} {bits : BitVec 4} (wf : s.Wf) : (s.post n bits).Wf := State.setCore_wf wf

theorem State.record_wf {p : Nat} {r : FaultRec} (wf : s.Wf) : (s.record p r).Wf :=
  State.ite_wf (State.mk_wf wf) (State.ite_wf (State.post_wf (State.mk_wf (State.Wf.write wf))) (State.mk_wf (State.Wf.write wf)))

theorem State.recordAt_wf {n : Nat} {r : FaultRec} (wf : s.Wf) : (s.recordAt n r).Wf := by
  unfold State.recordAt
  split
  · exact State.record_wf wf
  · exact wf

theorem State.doubleFault_wf {n : Nat} {t : Trap} {code lvl : Nat} (wf : s.Wf) : (s.doubleFault n t code lvl).Wf :=
  State.recordAt_wf (State.mk_wf (State.setCore_wf wf))

theorem State.openHandler_wf {n : Nat} {t : Trap} (wf : s.Wf) : (s.openHandler n t).Wf := by
  unfold State.openHandler
  dsimp only
  split
  · exact State.ite_wf (State.setCore_wf wf) (State.setCore_wf wf)
  · exact State.doubleFault_wf wf
  · exact State.setCore_wf wf
  · exact State.setCore_wf wf

theorem State.dropReads_wf {n : Nat} (wf : s.Wf) : (s.dropReads n).Wf := State.mk_wf wf

theorem State.undo_wf {n : Nat} (wf : s.Wf) : (s.undo n).Wf := by
  unfold State.undo
  refine State.foldl_wf ?_ (State.ite_wf wf (State.setCore_wf wf))
  intro _ _ w
  dsimp only
  split
  · exact State.setCore_wf (State.Wf.write w)
  · exact State.setCore_wf w
  · exact w

theorem State.discard_wf {n : Nat} (wf : s.Wf) : (s.discard n).Wf := State.setCore_wf (State.dropReads_wf (State.undo_wf wf))

theorem State.takeTrap_wf {n : Nat} {t : Trap} (wf : s.Wf) : (s.takeTrap n t).Wf :=
  State.ite_wf (State.setCore_wf (State.dropReads_wf (State.undo_wf wf))) (State.openHandler_wf
    (State.setCore_wf (State.dropReads_wf (State.undo_wf wf))))

theorem State.takeInterrupt_wf {n : Nat} (wf : s.Wf) : (s.takeInterrupt n).Wf := by
  unfold State.takeInterrupt
  dsimp only
  split
  · exact wf
  · exact State.ite_wf wf (State.ite_wf (State.discard_wf wf) (State.ite_wf (State.takeTrap_wf wf) wf))

theorem State.giveUp_wf {who : Who} (wf : s.Wf) : (s.giveUp who).Wf := State.mk_wf wf

theorem State.faultAt_wf {n code lvl : Nat} {tval : W64} (wf : s.Wf) : (s.faultAt n code lvl tval).Wf := State.takeTrap_wf wf

theorem execRemoteLoadTimeout_wf {n : CoreNum} (wf : s.Wf) : OutWf (execRemoteLoadTimeout n s) := by
  unfold execRemoteLoadTimeout
  refine .next ?_
  split
  · exact State.ite_wf (State.doubleFault_wf (State.dropReads_wf wf)) (State.faultAt_wf wf)
  · exact wf

theorem State.sendPacket_wf {who : Who} {h : Header} {payload : List Byte} {word : W64} (wf : s.Wf) : (s.sendPacket who h payload word).Wf
  :=
  State.mk_wf wf

theorem State.sendRead_wf {who : Who} {colour home len : Nat} (wf : s.Wf) : (s.sendRead who colour home len).Wf :=
  State.mk_wf (State.sendPacket_wf wf)

theorem State.fetchRemote_wf {n h k : Nat} (wf : s.Wf) : (s.fetchRemote n h k).Wf :=
  State.ite_wf (State.setCore_wf wf) (State.ite_wf (State.setCore_wf (State.giveUp_wf wf))
    (State.ite_wf (nextOr_wf (execRemoteLoadTimeout_wf wf) wf) (State.ite_wf (State.ownWork_wf wf) (State.sendRead_wf wf))))

theorem State.bagAppend_wf {n : Nat} {p : Pair} (wf : s.Wf) : (s.bagAppend n p).Wf :=
  State.ite_wf (State.setCore_wf wf) (State.ite_wf (State.setCore_wf wf) (State.setCore_wf (State.Wf.write wf)))

theorem State.bagRefill_wf {n : Nat} (wf : s.Wf) : (s.bagRefill n).Wf := by
  unfold State.bagRefill
  dsimp only
  split
  · exact State.ite_wf (State.setCore_wf wf) wf
  · exact State.ite_wf (State.setCore_wf (State.bagAppend_wf (State.setCore_wf (State.ite_wf (State.setCore_wf wf) wf))))
      (State.ite_wf (State.setCore_wf wf) wf)

theorem State.bagCount_wf {n k : Nat} (wf : s.Wf) : (s.bagCount n k).Wf := State.setCore_wf wf

theorem State.netRecord_wf {n c code lvl n1 n2 : Nat} (wf : s.Wf) : (s.netRecord n c code lvl n1 n2).Wf :=
  State.bagCount_wf (State.recordAt_wf wf)

theorem State.launchBody_wf {n : Nat} {node : W64} {bad : Bool} (wf : s.Wf) : (s.launchBody n node bad).Wf := by
  unfold State.launchBody
  dsimp only
  split
  · exact wf
  · exact State.mk_wf wf

theorem State.writeLine_wf {line : Nat} {l : L1Line} (wf : s.Wf) : (s.writeLine line l).Wf :=
  State.ite_wf wf (State.ite_wf (State.mk_wf wf) (State.foldl_wf (fun _ _ w2 => State.ite_wf (State.mark_wf w2)
    (State.ite_wf (State.mark_wf w2) w2)) (State.foldl_wf (fun _ _ w5 => State.ite_wf (State.Wf.writeByte w5) w5) wf)))

theorem State.l1WriteBack_wf {n line : Nat} (wf : s.Wf) : (s.l1WriteBack n line).Wf := by
  unfold State.l1WriteBack
  dsimp only
  split
  · exact wf
  · exact State.ite_wf (State.setCore_wf (State.writeLine_wf wf)) (State.setCore_wf (State.writeLine_wf wf))

theorem State.l1Drop_wf {n line : Nat} (wf : s.Wf) : (s.l1Drop n line).Wf := State.setCore_wf (State.l1WriteBack_wf wf)

theorem State.l1DropRange_wf {n h len : Nat} (wf : s.Wf) : (s.l1DropRange n h len).Wf := State.foldl_wf (fun _ _ => State.l1Drop_wf) wf

theorem netRead_wf {k : NetCtx} {va : Nat} : (netRead k va).KeepsWf := by
  unfold netRead
  refine .get_bind ?_
  intro _ w
  dsimp only
  split
  · exact .throw _
  · refine .bind (.set (State.l1DropRange_wf w)) fun _ => ?_
    split
    · exact .throw _
    · exact .pure _

theorem State.farDone_wf {n : Nat} (wf : s.Wf) : (s.farDone n).Wf := State.setCore_wf wf

theorem State.dispatchStop_wf {n : Nat} {e : XF} {fail : State} (wf_s : s.Wf) (wf_fail : fail.Wf) : (s.dispatchStop n e fail).Wf := by
  unfold State.dispatchStop
  dsimp only
  split
  · exact State.setCore_wf wf_s
  · exact State.setCore_wf wf_s
  · exact State.farDone_wf wf_fail

theorem State.runBody_wf {n : Nat} {p : Pair} {b x1 x2 : Nat} {ports : List Nat} (wf : s.Wf) : (s.runBody n p b x1 x2 ports).Wf :=
  State.setCore_wf wf

theorem netPut_wf {k : NetCtx} {va v : Nat} : (netPut k va v).KeepsWf := by
  unfold netPut
  refine .get_bind ?_
  intro _ w
  split
  · exact .throw _
  · exact .bind (.set (State.Wf.write (State.l1DropRange_wf w))) (fun _ => .pure _)

theorem netWrite_wf {k : NetCtx} {va v : Nat} : (netWrite k va v).KeepsWf := by
  unfold netWrite
  exact .bind netPut_wf (fun _ => .pure _)

theorem netCas_wf {k : NetCtx} {va old new : Nat} : (netCas k va old new).KeepsWf := by
  unfold netCas
  refine .bind netRead_wf fun _ => ?_
  split
  · exact .bind netWrite_wf (fun _ => .pure _)
  · exact .pure _

theorem reachAll_wf {l : List (NetM Unit)} (each : ∀ m ∈ l, m.KeepsWf) : (reachAll l).KeepsWf := by
  induction l with
  | nil => exact .pure _
  | cons m l ih =>
    unfold reachAll
    refine .bind (.tryCatch (.bind (each m (.head l)) fun _ => .pure _) fun _ => .pure _) fun e =>
      .bind (ih fun m mem => each m (.tail _ mem)) fun _ => ?_
    split
    · exact .pure _
    · exact .throw _

theorem relayEnd_wf {h : Nat} : (relayEnd h).KeepsWf := by
  unfold relayEnd
  exact .update (fun _ => State.mk_wf)

theorem poolPush_wf {k : NetCtx} {node : Nat} : (poolPush k node).KeepsWf := by
  unfold poolPush
  exact .bind netWrite_wf (fun _ => .get_bind (fun _ _ => .bind netWrite_wf (fun _ => .update (fun _ => State.setCore_wf))))

theorem checkFree_wf {k : NetCtx} {node : Nat} : (checkFree k node).KeepsWf := by
  unfold checkFree
  refine .bind netRead_wf fun _ => ?_
  refine .bind (.mapM (fun _ => netRead_wf)) fun _ => ?_
  split
  · exact poolPush_wf
  · exact .pure _

theorem netNil_wf {k : NetCtx} {p : Nat} : (netNil k p).KeepsWf := by
  unfold netNil
  exact .bind netPut_wf (fun _ => .bind relayEnd_wf (fun _ => checkFree_wf))

theorem take_wf {k : NetCtx} {f o : Nat} : (take k f o).KeepsWf := by
  induction f generalizing o with
  | zero => exact .throw _
  | succ f ih =>
    have follow (p : Nat) : NetM.KeepsWf (do
        let v ← netRead k p
        if linkState v == sHole && linkPeer v == p then return (NetEnd.port p, f)
        else take k f p) := by
      refine .bind netRead_wf fun v => ?_
      split
      · exact .pure _
      · exact ih
    unfold take
    refine .bind netRead_wf fun w => ?_
    split
    · exact .bind netNil_wf fun _ => follow _
    · split
      · exact ih
      · refine .bind netRead_wf fun v => ?_
        dsimp only
        split
        · refine .bind netCas_wf fun done => ?_
          split
          · exact .bind netNil_wf fun _ => .pure _
          · exact ih
        · split
          · exact .pure _
          · split
            · exact .bind netNil_wf fun _ => .bind netNil_wf fun _ => follow _
            · exact ih

theorem joinEnd_wf {k : NetCtx} {f : Nat} {q : Nat × Bool} : (joinEnd k f q).KeepsWf := by
  unfold joinEnd
  split
  · exact take_wf
  · exact .pure _

theorem wordPlace_wf {k : NetCtx} {p : Nat} : (wordPlace k p).KeepsWf := by
  unfold wordPlace
  refine .get_bind fun _ _ => ?_
  split
  · exact .pure _
  · exact .throw _

theorem relayBegin_wf {h : Nat} : (relayBegin h).KeepsWf := by
  unfold relayBegin
  exact .update (fun _ => State.mk_wf)

theorem State.pushTail_wf {n : Nat} {p : Pair} (wf : s.Wf) : (s.pushTail n p).Wf :=
  State.ite_wf (State.bagAppend_wf wf) (State.setCore_wf wf)

/-- A join through an open end, given that the joins it continues with keep the form. -/
theorem join.open'_wf {k : NetCtx} {f a o e : Nat} {other : NetEnd} (rest : ∀ x y, (join k f x y).KeepsWf) :
    (join.open' k f a o e other).KeepsWf := by
  have rule (tgt : Nat) : NetM.KeepsWf (do
      let done ← netCas k a (linkWord sHole (if a == o then e else o)) (linkWord sRedir tgt)
      if done then
        match other with
        | .port _ => pure ()
        | .opened .. => relayBegin (← wordPlace k tgt)
        if a != o then netNil k o
      else
        let r ← take k f o
        join k f r.1 other) := by
    refine .bind netCas_wf fun done => ?_
    split
    · cases other with
      | port _ =>
        dsimp only
        split
        · exact netNil_wf
        · exact .pure _
      | opened _ _ _ =>
        refine .bind wordPlace_wf fun _ => .bind relayBegin_wf fun _ => ?_
        split
        · exact netNil_wf
        · exact .pure _
    · exact .bind take_wf fun r => rest _ _
  unfold join.open'
  cases other with
  | port q => exact .bind netPut_wf fun h => .bind relayBegin_wf fun _ => rule q
  | opened a' o' e' => exact rule o'

theorem join_wf {k : NetCtx} {f : Nat} {x y : NetEnd} : (join k f x y).KeepsWf := by
  induction f generalizing x y with
  | zero =>
    unfold join
    exact .throw _
  | succ f ih =>
    unfold join
    split
    · refine .bind netPut_wf fun hp => .bind netPut_wf fun hq => .bind relayEnd_wf fun _ => .bind relayEnd_wf fun _ => ?_
      split
      · exact .update fun s => State.pushTail_wf
      · exact .pure _
    · exact join.open'_wf fun _ _ => ih
    · exact join.open'_wf fun _ _ => ih
    · split
      · exact .bind netNil_wf fun _ => netNil_wf
      · exact join.open'_wf fun _ _ => ih

theorem restorePort_wf {k : NetCtx} {p : Nat} : (restorePort k p).KeepsWf := by
  unfold restorePort
  refine .bind netRead_wf fun _ => ?_
  split
  · refine .bind netRead_wf fun _ => ?_
    split
    · exact .bind netWrite_wf (fun _ => .pure _)
    · exact .pure _
  · exact .pure _

theorem nlink_wf {k : NetCtx} {a1 b : Nat × Bool} : (nlink k a1 b).KeepsWf := by
  unfold nlink
  dsimp only
  split
  · refine .bind restorePort_wf fun _ => ?_
    split
    · exact .pure _
    · exact .bind joinEnd_wf (fun _ => .bind joinEnd_wf (fun _ => join_wf))
  · exact .bind joinEnd_wf (fun _ => .bind joinEnd_wf (fun _ => join_wf))

theorem releasePort_wf {k : NetCtx} {p : Nat} : (releasePort k p).KeepsWf := by
  unfold releasePort
  exact nlink_wf

theorem releasePort_wf_of_mem {k : NetCtx} {ps : List Nat} : ∀ m ∈ ps.map (releasePort k), m.KeepsWf := by
  intro m mem
  obtain ⟨p, -, rfl⟩ := List.mem_map.1 mem
  exact releasePort_wf

theorem releasePair_wf {k : NetCtx} {n1 n2 : Nat} {claims : List Nat} : (releasePair k n1 n2 claims).KeepsWf := by
  unfold releasePair
  refine reachAll_wf fun m mem => ?_
  rcases List.mem_append.1 mem with ports | words
  · exact releasePort_wf_of_mem m ports
  · rcases List.mem_pair.1 words with rfl | rfl
    · exact netWrite_wf
    · exact netWrite_wf

theorem probe.netRead'_wf {k : NetCtx} {va : Nat} : (probe.netRead' k va).KeepsWf := by
  unfold probe.netRead'
  refine .get_bind fun _ _ => ?_
  split
  · exact .throw _
  · split
    · exact .throw _
    · split
      · exact .throw _
      · exact .pure _

theorem probe_wf {k : NetCtx} {base n kmin kmax i left : Nat} : (probe k base n kmin kmax i left).KeepsWf := by
  induction left generalizing i with
  | zero => exact .pure _
  | succ left ih =>
    unfold probe
    refine .bind probe.netRead'_wf fun d0 => ?_
    split
    · exact .pure _
    · split
      · refine .bind probe.netRead'_wf fun d1 => ?_
        split
        · exact .pure _
        · exact .pure _
      · exact ih

theorem lookupRule_wf {k : NetCtx} {ka kb : Nat} : (lookupRule k ka kb).KeepsWf := by
  unfold lookupRule
  refine .get_bind fun _ _ => ?_
  dsimp only
  split
  · exact .pure _
  · split
    · exact .pure _
    · refine .bind probe_wf fun _ => ?_
      split
      · exact .bind (.update (fun _ => State.setCore_wf)) (fun _ => .pure _)
      · exact .pure _

theorem claimPort_wf {k : NetCtx} {p : Nat} : (claimPort k p).KeepsWf := by
  unfold claimPort
  refine .bind netRead_wf fun _ => ?_
  dsimp only
  split
  · exact .throw _
  · split
    · exact .pure _
    · refine .bind netRead_wf fun _ => ?_
      split
      · exact .throw _
      · exact netCas_wf

theorem claimAll_wf {k : NetCtx} {got l : List Nat} : (claimAll k got l).KeepsWf := by
  induction l generalizing got with
  | nil => exact .pure _
  | cons p l ih =>
    have release : (reachAll (got.map (releasePort k))).KeepsWf := reachAll_wf releasePort_wf_of_mem
    unfold claimAll
    refine .bind (.tryCatch claimPort_wf fun e => .bind (.tryCatch release fun _ => .pure _) fun _ => .throw _) fun ok => ?_
    split
    · exact ih
    · exact .pure _

theorem eraseJoin_wf {k : NetCtx} {a1 b : Nat × Bool} : (eraseJoin k a1 b).KeepsWf := by
  unfold eraseJoin
  refine .tryCatch nlink_wf fun _ => ?_
  split
  · exact .update (fun _ => State.netRecord_wf)
  · exact .throw _

theorem freeNode_wf {k : NetCtx} {node : Nat} {later : List Nat} : (freeNode k node later).KeepsWf := by
  unfold freeNode
  refine .bind netRead_wf fun _ => ?_
  refine .bind netWrite_wf fun _ => ?_
  refine .bind ?_ ?_
  · refine .forM fun _ => ?_
    refine .bind netRead_wf fun _ => ?_
    refine .bind wordPlace_wf fun _ => ?_
    refine .get_bind fun _ _ => ?_
    split
    · exact netWrite_wf
    · exact .pure _
  · intro _
    split
    · exact .pure _
    · exact checkFree_wf

theorem poolPop_wf {k : NetCtx} : (poolPop k).KeepsWf := by
  unfold poolPop
  refine .get_bind fun _ _ => ?_
  dsimp only
  split
  · exact .pure _
  · exact .bind netRead_wf (fun _ => .bind (.update (fun _ => State.setCore_wf)) (fun _ => .pure _))

theorem eraseClaimed_wf {k : NetCtx} {era node h arity : Nat} {ports : List Nat} : (eraseClaimed k era node h arity ports).KeepsWf := by
  unfold eraseClaimed
  dsimp only
  split
  · refine .bind poolPop_wf fun _ => ?_
    split
    · exact .pure _
    · split
      · refine .bind (.forM (fun _ => netWrite_wf)) fun _ => ?_
        refine .bind netWrite_wf fun _ => ?_
        refine .bind netWrite_wf fun _ => ?_
        refine .bind netNil_wf fun _ => ?_
        refine .bind netNil_wf fun _ => ?_
        refine .bind (.forM (fun _ => eraseJoin_wf)) fun _ => ?_
        split
        · exact .bind freeNode_wf (fun _ => .bind freeNode_wf (fun _ => .pure _))
        · split
          · exact .bind freeNode_wf (fun _ => .pure _)
          · exact .pure _
      · refine .bind netWrite_wf fun _ => ?_
        refine .bind netNil_wf fun _ => ?_
        refine .bind netNil_wf fun _ => ?_
        refine .bind (.forM (fun _ => eraseJoin_wf)) fun _ => ?_
        split
        · exact .bind freeNode_wf (fun _ => .bind freeNode_wf (fun _ => .pure _))
        · split
          · exact .bind freeNode_wf (fun _ => .pure _)
          · exact .pure _
  · refine .bind (.pure _) fun _ => ?_
    split
    · exact .pure _
    · split
      · refine .bind (.forM (fun _ => netWrite_wf)) fun _ => ?_
        refine .bind netWrite_wf fun _ => ?_
        refine .bind netWrite_wf fun _ => ?_
        refine .bind netNil_wf fun _ => ?_
        refine .bind netNil_wf fun _ => ?_
        refine .bind (.forM (fun _ => eraseJoin_wf)) fun _ => ?_
        split
        · exact .bind freeNode_wf (fun _ => .bind freeNode_wf (fun _ => .pure _))
        · split
          · exact .bind freeNode_wf (fun _ => .pure _)
          · exact .pure _
      · refine .bind netWrite_wf fun _ => ?_
        refine .bind netNil_wf fun _ => ?_
        refine .bind netNil_wf fun _ => ?_
        refine .bind (.forM (fun _ => eraseJoin_wf)) fun _ => ?_
        split
        · exact .bind freeNode_wf (fun _ => .bind freeNode_wf (fun _ => .pure _))
        · split
          · exact .bind freeNode_wf (fun _ => .pure _)
          · exact .pure _

theorem builtinErase_wf {k : NetCtx} {era node : Nat} : (builtinErase k era node).KeepsWf := by
  unfold builtinErase
  refine .bind netRead_wf fun _ => ?_
  refine .bind claimAll_wf fun _ => ?_
  split
  · exact .pure _
  · exact .get_bind (fun _ w => .bind (.tryCatch eraseClaimed_wf (fun _ => .bind (.set w)
      (fun _ => .bind (.tryCatch (reachAll_wf releasePort_wf_of_mem) (fun _ => .pure _)) (fun _ => .throw _)))) (fun _ => .pure _))

theorem dispatchPair_wf {k : NetCtx} {a1 b : Nat} : (dispatchPair k a1 b).KeepsWf := by
  unfold dispatchPair
  refine .bind netRead_wf fun _ => ?_
  refine .bind netRead_wf fun _ => ?_
  refine .bind netCas_wf fun _ => ?_
  dsimp only
  split
  · exact .pure _
  · refine .tryCatch ?_ (fun _ => .bind (.tryCatch releasePair_wf (fun _ => .pure _)) (fun _ => .throw _))
    refine .bind netWrite_wf fun _ => ?_
    split
    · split
      · exact .throw _
      · refine .bind lookupRule_wf fun _ => ?_
        split
        · split
          · split
            · refine .bind builtinErase_wf fun _ => ?_
              split
              · exact .bind releasePair_wf (fun _ => .pure _)
              · exact .pure _
            · refine .bind builtinErase_wf fun _ => ?_
              split
              · exact .bind releasePair_wf (fun _ => .pure _)
              · exact .pure _
          · exact .throw _
        · refine .get_bind fun _ _ => ?_
          split
          · exact .throw _
          · exact .throw _
          · refine .bind claimAll_wf fun _ => ?_
            split
            · exact .pure _
            · exact .bind releasePair_wf (fun _ => .pure _)
    · split
      · exact .throw _
      · refine .bind lookupRule_wf fun _ => ?_
        split
        · split
          · split
            · refine .bind builtinErase_wf fun _ => ?_
              split
              · exact .bind releasePair_wf (fun _ => .pure _)
              · exact .pure _
            · refine .bind builtinErase_wf fun _ => ?_
              split
              · exact .bind releasePair_wf (fun _ => .pure _)
              · exact .pure _
          · exact .throw _
        · refine .get_bind fun _ _ => ?_
          split
          · exact .throw _
          · exact .throw _
          · refine .bind claimAll_wf fun _ => ?_
            split
            · exact .pure _
            · exact .bind releasePair_wf (fun _ => .pure _)

theorem State.dispatchEntry_wf {s0 : State} {n : Nat} {p : Pair} (wf_s : s.Wf) (wf_s0 : s0.Wf) : (s.dispatchEntry s0 n p).Wf := by
  unfold State.dispatchEntry
  refine State.ite_wf (State.ite_wf (State.launchBody_wf (State.netRecord_wf wf_s)) (State.netRecord_wf wf_s)) ?_
  refine State.ite_wf ?_ ?_
  · split
    · rename_i e0
      exact State.launchBody_wf (State.netRecord_wf (snd_wf e0 (NetM.runOn_wf netRead_wf wf_s)))
    · rename_i e1
      split
      · exact State.dispatchStop_wf wf_s0 (State.launchBody_wf (State.netRecord_wf (snd_wf e1 (NetM.runOn_wf netRead_wf wf_s))))
      · exact State.farDone_wf (State.launchBody_wf (State.netRecord_wf (snd_wf e1 (NetM.runOn_wf netRead_wf wf_s))))
      · exact State.farDone_wf (State.runBody_wf (snd_wf e1 (NetM.runOn_wf netRead_wf wf_s)))
  · split
    · rename_i e2
      exact State.dispatchStop_wf wf_s0 (State.netRecord_wf (snd_wf e2 (NetM.runOn_wf dispatchPair_wf wf_s)))
    · rename_i e3
      exact State.farDone_wf (snd_wf e3 (NetM.runOn_wf dispatchPair_wf wf_s))
    · rename_i e4
      exact State.farDone_wf (State.bagCount_wf (snd_wf e4 (NetM.runOn_wf dispatchPair_wf wf_s)))
    · rename_i e5
      exact State.farDone_wf (State.ite_wf (State.bagCount_wf (State.pushTail_wf (snd_wf e5 (NetM.runOn_wf dispatchPair_wf wf_s))))
        (State.pushTail_wf (snd_wf e5 (NetM.runOn_wf dispatchPair_wf wf_s))))
    · rename_i e6
      exact State.farDone_wf (State.runBody_wf (snd_wf e6 (NetM.runOn_wf dispatchPair_wf wf_s)))

theorem State.l1DropAll_wf {n : Nat} (wf : s.Wf) : (s.l1DropAll n).Wf := State.foldl_wf (fun _ _ => State.l1Drop_wf) wf

theorem State.popHead_wf {n : Nat} {p : Pair} (e : s.popHead n = some (p, t)) (wf : s.Wf) : t.Wf := by
  unfold State.popHead at e
  split at e
  · cases e
  · cases e
    exact State.bagRefill_wf (State.setCore_wf wf)

theorem State.dispatchStep_wf {n : Nat} (wf : s.Wf) : (s.dispatchStep n).Wf := by
  unfold State.dispatchStep
  split
  · next p t e => exact State.dispatchEntry_wf (State.l1DropAll_wf (State.popHead_wf e wf)) wf
  · split
    · exact wf
    · next m _ =>
      split
      · exact wf
      · next p t e => exact State.dispatchEntry_wf (State.l1DropAll_wf (State.bagCount_wf (State.popHead_wf e wf))) wf

theorem State.dispatch_wf {n : Nat} (wf : s.Wf) : (s.dispatch n).Wf := State.ite_wf (State.dispatchStep_wf wf) wf

theorem State.between_wf {n : Nat} (wf : s.Wf) : (s.between n).Wf := by
  unfold State.between
  dsimp only
  split
  · exact State.takeTrap_wf (State.setCore_wf wf)
  · refine State.ite_wf (State.ite_wf (State.ownWork_wf wf) (State.takeInterrupt_wf wf)) ?_
    split
    · split
      · exact State.setCore_wf wf
      · exact State.faultAt_wf wf
      · exact State.setCore_wf wf
      · exact State.setCore_wf wf
    · exact State.ite_wf (State.dispatch_wf wf) (State.ite_wf (State.farDone_wf wf) (State.ownWork_wf wf))
    · exact State.ownWork_wf wf

theorem State.tlbiBlock_wf {m : Nat} (wf : s.Wf) : (s.tlbiBlock m).Wf :=
  State.mk_wf (State.foldl_wf (fun _ _ w => State.ite_wf (State.setCore_wf w) w) wf)

theorem State.bodyDone_wf {n : Nat} (wf : s.Wf) : (s.bodyDone n).Wf := by
  unfold State.bodyDone
  dsimp only
  split
  · exact wf
  · refine State.ite_wf (State.launchBody_wf (State.setCore_wf wf)) ?_
    split
    · rename_i e0
      refine snd_wf e0 ?_
      refine NetM.runOn_wf ?_ (State.setCore_wf wf)
      refine .bind ?_ ?_
      · refine .bind netRead_wf fun _ => ?_
        split
        · exact netNil_wf
        · exact .pure _
      · intro _
        refine .bind netRead_wf fun _ => ?_
        split
        · exact netNil_wf
        · exact .pure _
    · rename_i e4
      refine State.netRecord_wf ?_
      refine snd_wf e4 ?_
      refine NetM.runOn_wf ?_ (State.setCore_wf wf)
      refine .bind ?_ ?_
      · refine .bind netRead_wf fun _ => ?_
        split
        · exact netNil_wf
        · exact .pure _
      · intro _
        refine .bind netRead_wf fun _ => ?_
        split
        · exact netNil_wf
        · exact .pure _

theorem State.finish_wf {n : Nat} (wf : s.Wf) : (s.finish n).Wf := by
  unfold State.finish
  refine State.ite_wf (State.bodyDone_wf (State.setCore_wf (State.tlbiBlock_wf wf))) ?_
  dsimp only
  split
  · exact State.takeTrap_wf (State.setCore_wf (State.tlbiBlock_wf wf))
  · exact State.setCore_wf (State.tlbiBlock_wf wf)

theorem State.setFe_wf {h n : Nat} {b : Bool} (wf : s.Wf) : (s.setFe h n b).Wf := State.foldl_wf (fun _ _ => State.mk_wf) wf

theorem State.l1Room_wf {n line : Nat} (wf : s.Wf) : (s.l1Room n line).Wf := State.ite_wf wf (State.l1Drop_wf wf)

theorem State.l1Fill_wf {n line key : Nat} (wf : s.Wf) : (s.l1Fill n line key).Wf :=
  State.setCore_wf (State.l1Room_wf wf)

theorem State.l1Store_wf {n key h : Nat} {bs : List Byte} (wf : s.Wf) : (s.l1Store n key h bs).Wf :=
  State.setCore_wf (State.ite_wf wf (State.l1Fill_wf wf))

theorem State.homeWrite_wf {n key h : Nat} {bs : List Byte} (wf : s.Wf) : (s.homeWrite n key h bs).Wf :=
  State.ite_wf wf (State.Wf.write (State.l1DropRange_wf wf))

theorem execBkctlWrite_wf {die : BitVec 2} {bank : BitVec 7} {v : W64} (wf : s.Wf) : OutWf (execBkctlWrite die bank v s) :=
  .next (State.ite_wf wf (State.setBank_wf wf))

theorem State.setSched_wf {p : Nat} {q : Sched} (wf : s.Wf) : (s.setSched p q).Wf := State.mk_wf wf

theorem execLschedWrite_wf {p : PartNum} {v : W64} (wf : s.Wf) : OutWf (execLschedWrite p v s) := .next (State.setSched_wf wf)

theorem execLcbaseWrite_wf {p : PartNum} {v : W64} (wf : s.Wf) : OutWf (execLcbaseWrite p v s) :=
  .next (State.ite_wf wf (State.setSched_wf wf))

theorem State.launchDone_wf {p : Nat} {l : Launch} {st : Nat} (wf : s.Wf) : (s.launchDone p l st).Wf :=
  State.ite_wf (State.setSched_wf wf) (State.Wf.write (State.setSched_wf wf))

theorem State.trigger_wf {p index : Nat} {colour : BitVec 8} {trig : Nat} {port : Option Nat} (wf : s.Wf) :
  (s.trigger p index colour trig port).Wf :=
  State.ite_wf (State.launchDone_wf (State.setSched_wf wf)) (State.ite_wf (State.launchDone_wf (State.setSched_wf wf))
    (State.setSched_wf (State.setSched_wf wf)))

theorem execLrootWrite_wf {p : PartNum} {v : W64} (wf : s.Wf) : OutWf (execLrootWrite p v s) := .next (State.trigger_wf wf)

theorem execTtctlWrite_wf {p : PartNum} {v : W64} (wf : s.Wf) : OutWf (execTtctlWrite p v s) := .next (State.setSched_wf wf)

theorem execIngWrite_wf {p : PartNum} {n : BitVec 3} {v : W64} (wf : s.Wf) : OutWf (execIngWrite p n v s) :=
  .next (State.ite_wf (State.foldl_wf (fun _ _ => State.launchDone_wf) (State.setSched_wf wf)) (State.setSched_wf wf))

theorem execTtWrite_wf {p : PartNum} {n : BitVec 4} {hi : Bool} {v : W64} (wf : s.Wf) : OutWf (execTtWrite p n hi v s) :=
  .next (State.ite_wf wf (State.setSched_wf wf))

theorem State.writeSchedField_wf {p off : Nat} {v : W64} (wf : s.Wf) : (s.writeSchedField p off v).Wf :=
  State.ite_wf (State.setSched_wf wf) (State.ite_wf (State.setSched_wf wf) (State.ite_wf (State.setSched_wf wf)
    (State.ite_wf (State.setSched_wf wf) wf)))

theorem State.writeBag_wf {n off : Nat} {v : W64} (wf : s.Wf) : (s.writeBag n off v).Wf := by
  unfold State.writeBag
  dsimp only
  split
  · exact State.setCore_wf wf
  · exact State.setCore_wf wf
  · exact wf

theorem State.writeFault_wf {p off : Nat} {v : W64} (wf : s.Wf) : (s.writeFault p off v).Wf := by
  unfold State.writeFault
  dsimp only
  split
  · exact State.mk_wf wf
  · exact State.mk_wf wf
  · exact State.mk_wf wf
  · exact wf

theorem State.setNet_wf {p : Nat} {q : NetPage} (wf : s.Wf) : (s.setNet p q).Wf := State.mk_wf wf

theorem State.writeSmap_wf {p : Nat} {v : W64} (wf : s.Wf) : (s.writeSmap p v).Wf := State.ite_wf (State.setNet_wf wf) wf

theorem State.writeNet_wf {p off : Nat} {v : W64} (wf : s.Wf) : (s.writeNet p off v).Wf :=
  State.ite_wf (State.writeSmap_wf wf) (State.ite_wf (State.setNet_wf wf) (State.ite_wf (State.setNet_wf wf)
    (State.ite_wf (State.setNet_wf wf) (State.ite_wf (State.setNet_wf wf) wf))))

theorem State.fieldWrite_wf {pa : Nat} {v : W64} (wf : s.Wf) : (s.fieldWrite pa v).Wf :=
  State.ite_wf (State.ite_wf (State.setBank_wf wf) wf) (State.ite_wf (State.writeSchedField_wf wf)
    (State.ite_wf (State.writeBag_wf wf) (State.ite_wf (State.writeFault_wf wf) (State.ite_wf (State.writeNet_wf wf) wf))))

theorem execBagctlWrite_wf {n : CoreNum} {v : W64} (wf : s.Wf) : OutWf (execBagctlWrite n v s) := .next (State.setCore_wf wf)

theorem execBagspillWrite_wf {n : CoreNum} {v : W64} (wf : s.Wf) : OutWf (execBagspillWrite n v s) :=
  .next (State.ite_wf wf (State.foldl_wf (fun _ _ => State.bagRefill_wf) (State.setCore_wf wf)))

theorem execFlbaseWrite_wf {p : PartNum} {v : W64} (wf : s.Wf) : OutWf (execFlbaseWrite p v s) := .next (State.ite_wf wf (State.mk_wf wf))

theorem State.rehash_wf {p : Nat} (wf : s.Wf) : (s.rehash p).Wf := State.setNet_wf (State.foldl_wf (fun _ _ => State.Wf.l2Evict) wf)

theorem execNetctlWrite_wf {p : PartNum} {v : W64} (wf : s.Wf) : OutWf (execNetctlWrite p v s) :=
  .next (State.ite_wf wf (State.ite_wf (State.rehash_wf (State.setNet_wf wf)) (State.setNet_wf wf)))

theorem State.setEnd_wf {k : Nat} {e : ChanEnd} (wf : s.Wf) : (s.setEnd k e).Wf := State.mk_wf wf

theorem State.putFrame_wf {p : Packet} (wf : s.Wf) : (s.putFrame p).Wf := State.mk_wf wf

theorem State.sendFrame_wf {e : ChanEnd} {kind colour count : Nat} {toks : List Token} (wf : s.Wf) :
  (s.sendFrame e kind colour count toks).Wf :=
  State.putFrame_wf wf

theorem State.endLeaves_wf {k : Nat} {e : ChanEnd} {st : EndState} (wf : s.Wf) : (s.endLeaves k e st).Wf :=
  State.ite_wf (State.sendFrame_wf (State.setEnd_wf wf)) (State.setEnd_wf wf)

theorem State.follow_wf {k : Nat} (wf : s.Wf) : (s.follow k).Wf := by
  unfold State.follow
  refine State.ite_wf wf ?_
  dsimp only
  split
  · exact State.ite_wf (State.setEnd_wf wf) wf
  · exact State.setEnd_wf wf
  · exact State.ite_wf wf (State.ite_wf (State.setEnd_wf wf) (State.setEnd_wf (State.endLeaves_wf wf)))
  · exact wf

theorem execChannelEntryWrite_wf {p : PartNum} {ch : BitVec 6} {hi : Bool} {v : W64} (wf : s.Wf) : OutWf (execChannelEntryWrite p ch hi v s)
  :=
  .next (State.ite_wf (State.setEnd_wf wf) (State.ite_wf (State.ite_wf wf (State.sendFrame_wf (State.setEnd_wf wf)))
    (State.ite_wf wf (State.follow_wf (State.setEnd_wf wf)))))

theorem State.regWrite_wf {pa : Nat} {v : W64} (wf : s.Wf) : (s.regWrite pa v).Wf := by
  unfold State.regWrite
  extract_lets off get part
  have keep {o : Out} (next : OutWf o) : (get o).Wf := by
    cases o with
    | next t => exact next t rfl
    | _ => exact wf
  refine State.ite_wf (keep (execBkctlWrite_wf wf)) (State.ite_wf ?_ (State.ite_wf ?_ (State.ite_wf (keep (execFlbaseWrite_wf wf))
    (State.ite_wf (keep (execNetctlWrite_wf wf)) (State.ite_wf (keep (execChannelEntryWrite_wf wf)) (State.fieldWrite_wf wf))))))
  · refine State.ite_wf (keep (execLschedWrite_wf wf)) (State.ite_wf (keep (execLcbaseWrite_wf wf)) ?_)
    refine State.ite_wf (keep (execLrootWrite_wf wf)) (State.ite_wf (keep (execTtctlWrite_wf wf)) ?_)
    exact State.ite_wf (keep (execIngWrite_wf wf)) (State.ite_wf (keep (execTtWrite_wf wf)) (State.fieldWrite_wf wf))
  · exact keep (.ite (execBagctlWrite_wf wf) (execBagspillWrite_wf wf))

theorem State.regStore_wf {h : Nat} {bs : List Byte} (wf : s.Wf) : (s.regStore h bs).Wf := State.foldl_wf (fun _ _ => State.regWrite_wf) wf

theorem State.sendWrite_wf {who : Who} {colour home : Nat} {bytes : List Byte} {poison : Bool} (wf : s.Wf) :
  (s.sendWrite who colour home bytes poison).Wf :=
  State.sendPacket_wf wf

theorem State.deliverStore_wf {n h : Nat} {bs : List Byte} {how : StoreHow} {key : Nat} (wf : s.Wf) : (s.deliverStore n h bs how key).Wf :=
  by
  unfold State.deliverStore
  split
  · exact State.Wf.write wf
  · exact State.setFe_wf (State.Wf.write wf)
  · exact State.l1Store_wf wf
  · exact State.homeWrite_wf wf
  · exact State.regStore_wf wf
  · exact State.sendWrite_wf wf

theorem State.l1WriteBackAll_wf {n : Nat} (wf : s.Wf) : (s.l1WriteBackAll n).Wf := State.foldl_wf (fun _ _ => State.l1WriteBack_wf) wf

theorem State.flush_wf {n colour : Nat} {lvlS : Bool} {start len : Nat} {all inv : Bool} (wf : s.Wf) :
  (s.flush n colour lvlS start len all inv).Wf :=
  State.ite_wf (State.setCore_wf (State.foldl_wf (fun _ _ w2 => State.ite_wf (State.l1Drop_wf w2) (State.l1WriteBack_wf w2)) wf))
    (State.foldl_wf (fun _ _ w5 => State.ite_wf (State.l1Drop_wf w5) (State.l1WriteBack_wf w5)) wf)

theorem State.sendBank_wf {o : BankOp} (wf : s.Wf) : (s.sendBank o).Wf :=
  State.ite_wf (State.setBank_wf (State.l1DropRange_wf wf)) (State.mk_wf (State.l1DropRange_wf wf))

theorem State.setIsland_wf {n : Nat} {i : Island} (wf : s.Wf) : (s.setIsland n i).Wf := State.setCore_wf wf

theorem State.islandDeliver_wf {n : Nat} {c : IslandCmd} (wf : s.Wf) : (s.islandDeliver n c).Wf := by
  unfold State.islandDeliver
  dsimp only
  split <;> exact State.setIsland_wf wf

theorem State.tlbiRemove_wf {p n : Nat} {c : TlbiCmd} (wf : s.Wf) : (s.tlbiRemove p n c).1.Wf :=
  State.mk_wf (State.foldl_wf (fun _ _ => State.setCore_wf) wf)

theorem State.tlbiDeliver_wf {n : Nat} {c : TlbiCmd} (wf : s.Wf) : (s.tlbiDeliver n c).Wf := by
  unfold State.tlbiDeliver
  dsimp only
  split
  · exact wf
  · exact State.setCore_wf (State.tlbiRemove_wf wf)

theorem State.setRegion_wf {h : Nat} {r : Region} (wf : s.Wf) : (s.setRegion h r).Wf := State.mk_wf wf

theorem State.colqDeliver_wf {h c : Nat} {isOpen : Bool} (wf : s.Wf) : (s.colqDeliver h c isOpen).Wf :=
  State.ite_wf wf (State.ite_wf (State.ite_wf (State.setRegion_wf wf) (State.setRegion_wf wf)) (State.setRegion_wf wf))

theorem State.setElem_wf {e : Nat} {x : Elem} (wf : s.Wf) : (s.setElem e x).Wf := State.mk_wf wf

theorem State.discardIn_wf {h : Nat} {hit : BitVec 8 → Bool} (wf : s.Wf) : (s.discardIn h hit).1.Wf :=
  State.mk_wf (State.foldl_fst_wf (p := (s, 0)) (fun _ _ => State.setElem_wf) wf)

theorem State.addPurged_wf {h c n : Nat} (wf : s.Wf) : (s.addPurged h c n).Wf := State.setRegion_wf wf

theorem State.purge_wf {h c : Nat} (wf : s.Wf) : (s.purge h c).Wf :=
  State.ite_wf wf (State.setRegion_wf (State.addPurged_wf (State.discardIn_wf (State.setRegion_wf wf))))

theorem State.setSect_wf {n e : Nat} {t : Section} (wf : s.Wf) : (s.setSect n e t).Wf := State.setCore_wf wf

theorem State.enterSection_wf {n e : Nat} {desc : SectDesc} {addr : W64} {lvlS : Bool} {launch : Option (Nat × Nat)} (wf : s.Wf) :
  (s.enterSection n e desc addr lvlS launch).Wf :=
  State.foldl_wf (fun _ _ w => State.ite_wf (State.setRegion_wf w) w) (State.setSect_wf (State.setCore_wf (State.mk_wf wf)))

theorem State.armDeliver_wf {n : Nat} {d : BitVec 6} {k : Nat} {desc : SectDesc} {addr : W64} {lvlS : Bool} (wf : s.Wf) :
  (s.armDeliver n d k desc addr lvlS).Wf := by
  unfold State.armDeliver
  dsimp only
  split
  · exact wf
  · exact State.ite_wf (State.setCore_wf (State.enterSection_wf wf)) (State.enterSection_wf wf)

theorem State.markSections_wf {f : Section → Option Nat} (wf : s.Wf) : (s.markSections f).Wf := State.mk_wf wf

theorem State.tornArmed_wf {h : Nat} (wf : s.Wf) : (s.tornArmed h).Wf := State.markSections_wf wf

theorem State.answerCalm_wf {h : Nat} (wf : s.Wf) : (s.answerCalm h).Wf := State.mk_wf wf

theorem State.setSlot_wf {e sl : Nat} {v : ElemSlot} (wf : s.Wf) : (s.setSlot e sl v).Wf := State.setElem_wf wf

theorem State.freeSlot_wf {e sl : Nat} (wf : s.Wf) : (s.freeSlot e sl).Wf := State.setSlot_wf wf

theorem State.endsFollow_wf (wf : s.Wf) : s.endsFollow.Wf := State.foldl_wf (fun _ _ => State.follow_wf) wf

theorem State.emptyRegion_wf {h : Nat} (wf : s.Wf) : (s.emptyRegion h).Wf :=
  State.endsFollow_wf (State.setRegion_wf (State.mk_wf (State.foldl_wf (fun _ _ => State.freeSlot_wf) wf)))

theorem State.tornEmpty_wf {h : Nat} (wf : s.Wf) : (s.tornEmpty h).Wf := State.markSections_wf (State.emptyRegion_wf wf)

theorem State.addStale_wf {h n : Nat} (wf : s.Wf) : (s.addStale h n).Wf := State.setRegion_wf wf

theorem State.tearForce_wf {h : Nat} (wf : s.Wf) : (s.tearForce h).Wf :=
  State.ite_wf (State.answerCalm_wf (State.tornEmpty_wf (State.addStale_wf (State.discardIn_wf (State.tornArmed_wf wf))))) wf

theorem State.tear_wf {h : Nat} (wf : s.Wf) : (s.tear h).Wf := by
  unfold State.tear
  dsimp only
  split
  · exact State.tornEmpty_wf (State.tornArmed_wf wf)
  · exact State.endsFollow_wf (State.setRegion_wf (State.tornArmed_wf wf))
  · exact wf

theorem State.msendDeliver_wf {n cls : Nat} {dst : W64} {off len : Nat} {colour : BitVec 8} (wf : s.Wf) :
  (s.msendDeliver n cls dst off len colour).Wf :=
  State.sendPacket_wf wf

theorem State.setFlight_wf {l : List Packet} (wf : s.Wf) : (s.setFlight l).Wf := State.mk_wf wf

theorem State.ack_wf {p : Packet} {nack : Bool} {code : Nat} (wf : s.Wf) : (s.ack p nack code).Wf := State.ite_wf wf (State.setFlight_wf wf)

theorem State.ringDeliver_wf {n : Nat} {w : W64} (wf : s.Wf) : (s.ringDeliver n w).Wf :=
  State.foldl_wf (fun _ _ => State.ack_wf) (State.setCore_wf (State.mk_wf wf))

theorem State.portsDone_wf {n : Nat} {ps : List Nat} (wf : s.Wf) : (s.portsDone n ps).Wf := by
  unfold State.portsDone
  dsimp only
  split
  · exact State.ite_wf wf (State.setCore_wf wf)
  · exact wf

theorem State.nfreeDeliver_wf {n : Nat} {node : W64} {c : BitVec 8} {lvlS : Bool} (wf : s.Wf) : (s.nfreeDeliver n node c lvlS).Wf := by
  unfold State.nfreeDeliver
  dsimp only
  split
  · rename_i e0
    exact State.portsDone_wf (snd_wf e0 (NetM.runOn_wf freeNode_wf wf))
  · rename_i e1
    exact State.netRecord_wf (snd_wf e1 (NetM.runOn_wf freeNode_wf wf))

theorem State.nlinkDeliver_wf {n : Nat} {a2 b : Nat × Bool} {c : BitVec 8} {lvlS : Bool} (wf : s.Wf) : (s.nlinkDeliver n a2 b c lvlS).Wf :=
  by
  unfold State.nlinkDeliver
  dsimp only
  split
  · rename_i e0
    exact State.portsDone_wf (snd_wf e0 (NetM.runOn_wf nlink_wf wf))
  · rename_i e1
    exact State.netRecord_wf (snd_wf e1 (NetM.runOn_wf nlink_wf wf))

theorem State.nrelDeliver_wf {n : Nat} {lvlS : Bool} (wf : s.Wf) : (s.nrelDeliver n lvlS).Wf := by
  unfold State.nrelDeliver
  dsimp only
  split
  · exact wf
  · refine State.ite_wf (State.pushTail_wf (State.setCore_wf wf)) ?_
    split
    · rename_i e0
      exact State.pushTail_wf (snd_wf e0 (NetM.runOn_wf releasePair_wf (State.setCore_wf wf)))
    · rename_i e1
      exact State.netRecord_wf (snd_wf e1 (NetM.runOn_wf releasePair_wf (State.setCore_wf wf)))

theorem State.nruleDeliver_wf {n : Nat} {base : W64} {size : Nat} (wf : s.Wf) : (s.nruleDeliver n base size).Wf :=
  State.foldl_wf (fun _ _ => State.setCore_wf) wf

theorem State.nruleInvDeliver_wf {n : Nat} (wf : s.Wf) : (s.nruleInvDeliver n).Wf :=
  State.foldl_wf (fun _ _ w => State.ite_wf w (State.setCore_wf w)) wf

theorem State.streamDeliver_wf {n : Nat} {h : Held} (wf : s.Wf) : (s.streamDeliver n h).Wf := State.setCore_wf wf

theorem State.deliver_wf {n : Nat} {h : Held} (wf : s.Wf) : SomeWf (s.deliver n h) := by
  unfold State.deliver
  refine .ite .none ?_
  cases h with
  | store => exact .some (State.deliverStore_wf wf)
  | release => exact .ite (.some (State.l1WriteBackAll_wf wf)) .none
  | order => exact .ite (.some wf) .none
  | acquire => exact .ite .none (.some (State.l1DropAll_wf wf))
  | flush => exact .some (State.flush_wf wf)
  | bank => exact .some (State.sendBank_wf wf)
  | engine => exact .some (State.setCore_wf (State.mk_wf wf))
  | island => exact .some (State.islandDeliver_wf wf)
  | wbits => exact .some (State.setCore_wf wf)
  | post => exact .some (State.post_wf wf)
  | tlbi => exact .some (State.tlbiDeliver_wf wf)
  | colq => exact .some (State.colqDeliver_wf wf)
  | purge => exact .some (State.purge_wf wf)
  | load => exact .some (State.mk_wf wf)
  | arm => exact .some (State.armDeliver_wf wf)
  | tear => exact .some (State.ite_wf (State.tearForce_wf wf) (State.tear_wf wf))
  | inject => exact .some (State.mk_wf wf)
  | vane => exact .some (State.setCore_wf wf)
  | send => exact .some (State.msendDeliver_wf wf)
  | mask => exact .some (State.setCore_wf wf)
  | ringCfg => exact .some (State.ringDeliver_wf wf)
  | ringPop => exact .some (State.setCore_wf wf)
  | ringFree => exact .some (State.setCore_wf wf)
  | nalloc => exact .some (State.homeWrite_wf wf)
  | nfree => exact .some (State.nfreeDeliver_wf wf)
  | npush => exact .some (State.pushTail_wf wf)
  | nlink => exact .some (State.nlinkDeliver_wf wf)
  | nrel => exact .some (State.nrelDeliver_wf wf)
  | npop => exact .some (State.bagRefill_wf wf)
  | nruleSet => exact .some (State.nruleDeliver_wf wf)
  | nruleInv => exact .some (State.nruleInvDeliver_wf wf)
  | node => exact .some (State.homeWrite_wf wf)
  | stream => exact .ite .none (.some (State.streamDeliver_wf wf))
  | sstart => exact .ite .none (.some (State.streamDeliver_wf wf))
  | sclose => exact .ite .none (.some (State.streamDeliver_wf wf))
  | spos => exact .ite .none (.some (State.streamDeliver_wf wf))
  | sdone => exact .ite .none (.some (State.streamDeliver_wf wf))
  | gate => exact .ite .none (.some (State.streamDeliver_wf wf))
  | restStream => exact .ite .none (.some (State.streamDeliver_wf wf))

theorem State.deliverNext_wf {n : Nat} (wf : s.Wf) : (s.deliverNext n).Wf := by
  unfold State.deliverNext
  dsimp only
  split
  · exact State.finish_wf wf
  · split
    · rename_i e0
      exact State.deliver_wf (State.setCore_wf wf) _ e0
    · exact State.ownWork_wf wf

theorem execWaitCancel_wf {n : CoreNum} (wf : s.Wf) : OutWf (execWaitCancel n s) := .next (State.ite_wf (State.setCore_wf wf) wf)

theorem State.setMe_wf {c : Core} (wf : s.Wf) : (s.setMe c).Wf := State.setCore_wf wf

theorem State.setBlk_wf {b : Blk} (wf : s.Wf) : (s.setBlk b).Wf := State.setMe_wf wf

theorem State.setW_wf {r : Regs} (wf : s.Wf) : (s.setW r).Wf := State.setBlk_wf wf

theorem State.setX_wf {d : BitVec 6} {v : W64} (wf : s.Wf) : (s.setX d v).Wf := State.setW_wf wf

theorem State.answerX_wf {d : Nat} {v : W64} (wf : s.Wf) : (s.answerX d v).Wf := State.setBlk_wf (State.setX_wf wf)

theorem State.answerLdf_wf {d home n ty : Nat} {clr : Bool} (wf : s.Wf) : (s.answerLdf d home n ty clr).Wf := by
  unfold State.answerLdf
  refine State.ite_wf wf ?_
  dsimp only
  split
  · exact State.faultAt_wf wf
  · exact State.answerX_wf (State.ite_wf (State.setFe_wf wf) wf)

theorem State.answerWaita_wf {d home ty : Nat} {acq : Bool} (wf : s.Wf) : (s.answerWaita d home ty acq).Wf := by
  unfold State.answerWaita
  cases s.blk.ans with
  | val v => exact State.answerX_wf (State.ite_wf (State.l1DropAll_wf wf) wf)
  | poisoned => exact State.faultAt_wf wf
  | _ => exact wf

theorem State.answerPresence_wf {kind : PresKind} {d : Nat} {va : W64} {ty : Nat} {acq : Bool} (wf : s.Wf) :
  (s.answerPresence kind d va ty acq).Wf := by
  unfold State.answerPresence
  dsimp only
  split
  · exact State.ite_wf (State.setBlk_wf (State.ite_wf (State.l1DropAll_wf wf) wf))
      (State.answerX_wf (State.ite_wf (State.l1DropAll_wf wf) wf))
  · exact State.faultAt_wf wf
  · exact State.faultAt_wf wf
  · exact State.discard_wf wf
  · exact wf

theorem State.answerRcalm_wf {fn d : Nat} (wf : s.Wf) : (s.answerRcalm fn d).Wf := by
  unfold State.answerRcalm
  cases s.blk.ans with
  | val v => exact State.answerX_wf (State.ite_wf (State.l1DropAll_wf wf) wf)
  | cancelled => exact State.discard_wf wf
  | _ => exact wf

theorem State.setStream_wf {n i : Nat} {q : Stream} (wf : s.Wf) : (s.setStream n i q).Wf := State.setCore_wf wf

theorem State.releaseStreams_wf {n mask : Nat} (wf : s.Wf) : (s.releaseStreams n mask).Wf :=
  State.foldl_wf (fun _ _ => State.setStream_wf) wf

theorem State.answerSbar_wf {mask : Nat} {hold sys : Bool} (wf : s.Wf) : (s.answerSbar mask hold sys).Wf :=
  State.ite_wf (State.discard_wf (State.ite_wf (State.releaseStreams_wf wf) wf))
    (State.ite_wf (State.ite_wf wf (State.setBlk_wf (State.releaseStreams_wf wf)))
    (State.ite_wf wf (State.setBlk_wf (State.l1DropAll_wf wf))))

theorem State.answerLdsc_wf {d ty addr : Nat} {va : W64} (wf : s.Wf) : (s.answerLdsc d ty addr va).Wf := by
  unfold State.answerLdsc
  cases s.blk.ans with
  | val v => exact State.answerX_wf (State.l1DropAll_wf wf)
  | poisoned => exact State.faultAt_wf wf
  | _ => exact wf

theorem State.tryAnswer_wf (wf : s.Wf) : s.tryAnswer.Wf := by
  unfold State.tryAnswer
  split
  · exact wf
  · exact State.ite_wf (State.discard_wf wf) (State.answerLdf_wf wf)
  · exact State.ite_wf (State.discard_wf wf) (State.answerWaita_wf wf)
  · exact State.answerPresence_wf wf
  · exact State.answerRcalm_wf wf
  · exact State.answerSbar_wf wf
  · exact State.answerLdsc_wf wf

theorem State.waitStep_wf (wf : s.Wf) : s.waitStep.Wf :=
  State.ite_wf (nextOr_wf (execWaitCancel_wf wf) wf) (State.ite_wf (State.ownWork_wf (State.tryAnswer_wf wf)) (State.tryAnswer_wf wf))

theorem plain_wf {g : BitVec 3} {gs : Bool} {f : State → State} (step : ∀ s, s.Wf → (f s).Wf) (wf : s.Wf) : OutWf (plain g gs s f) :=
  .next (State.ite_wf (step _ wf) wf)

theorem intForm_wf {o : RRR} {f : ℤ → ℤ → W64} (wf : s.Wf) : OutWf (intForm o s f) := plain_wf (fun _ => State.setX_wf) wf

theorem shiftForm_wf {o : RRR} {f : Nat → Nat → Nat → Nat} (wf : s.Wf) : OutWf (shiftForm o s f) := plain_wf (fun _ => State.setX_wf) wf

theorem State.setP_wf {d : BitVec 6} {v : W32} (wf : s.Wf) : (s.setP d v).Wf := State.setW_wf wf

theorem execPmov_wf {o : RRR} (wf : s.Wf) : OutWf (execPmov o s) := by
  unfold execPmov
  refine plain_wf ?_ wf
  intro _ w
  split
  · exact State.setP_wf w
  · exact State.setX_wf w
  · exact State.setX_wf w
  · exact State.setX_wf w

theorem State.stopFor_wf {e : XF} (wf : s.Wf) : (s.stopFor e).Wf := by
  unfold State.stopFor
  dsimp only
  split
  · exact State.faultAt_wf wf
  · exact State.setMe_wf wf
  · exact State.setMe_wf wf

theorem checked_wf {g : BitVec 3} {gs : Bool} {f : State → Except XF State} (step : ∀ s, s.Wf → OkWf (f s)) (wf : s.Wf) : OutWf
  (checked g gs s f) := by
  unfold checked
  refine .next ?_
  refine State.ite_wf ?_ wf
  split
  · rename_i e0
    exact step _ wf _ e0
  · exact State.stopFor_wf wf

theorem execLreg_wf {o : RRR} (wf : s.Wf) : OutWf (execLreg o s) := by
  unfold execLreg
  refine checked_wf ?_ wf
  intro _ w
  dsimp only
  split
  · exact .ok (State.setX_wf w)
  · exact .ok (State.setX_wf w)
  · exact .ok (State.setX_wf w)
  · exact .ok (State.setX_wf w)
  · exact .ok (State.setW_wf w)
  · exact .ite (.error _) (.ok (State.setW_wf w))
  · exact .ite (.error _) (.ok (State.setW_wf w))
  · exact .ite (.error _) (.ok (State.setW_wf w))

theorem fpForm_wf {o : RRR} {f : Fp.Val → Fp.Val → Fp.Val × Bool} (wf : s.Wf) : OutWf (fpForm o s f) := plain_wf (fun _ => State.setX_wf) wf

theorem State.count_wf {k : Option Nat} (wf : s.Wf) : (s.count k).Wf := State.setW_wf wf

theorem cvtForm_wf {o : RRR} {f : Nat → W64 × Option Nat} (wf : s.Wf) : OutWf (cvtForm o s f) :=
  plain_wf (fun _ w => State.count_wf (State.setX_wf w)) wf

theorem State.hold_wf {h : Held} (wf : s.Wf) : (s.hold h).Wf := State.setBlk_wf wf

theorem execCpy_wf {o : RRR} (wf : s.Wf) : OutWf (execCpy o s) := by
  unfold execCpy
  refine checked_wf ?_ wf
  intro _ w
  refine .ite (.error _) ?_
  refine .ite (.error _) ?_
  dsimp only
  split
  · exact .error _
  · exact .ok (State.hold_wf w)

/-- Reading a control block changes the core's cache of them alone. -/
theorem State.controlBlock_wf {va : W64} {b : BitVec 256} (e : s.controlBlock va = .ok (t, b)) (wf : s.Wf) :
    t.Wf := by
  unfold State.controlBlock at e
  split at e
  · cases e
  · split at e
    · cases e
      exact wf
    · split at e
      · cases e
      · cases e
        exact State.setMe_wf wf

theorem execCpy2_wf {o : RRR} (wf : s.Wf) : OutWf (execCpy2 o s) := by
  refine checked_wf (fun s wf => ?_) wf
  dsimp only
  split
  · exact .error _
  · next t b e =>
    refine .ite (.error _) (.ite (.error _) ?_)
    split
    · exact .error _
    · exact .ok (State.hold_wf (State.controlBlock_wf e wf))

theorem execMfc_wf {o : RRR} (wf : s.Wf) : OutWf (execMfc o s) := by
  unfold execMfc
  refine plain_wf ?_ wf
  intro _ w
  dsimp only
  split <;> exact State.setX_wf w

theorem execColqRd_wf {o : RRR} (wf : s.Wf) : OutWf (execColqRd o s) := by
  unfold execColqRd
  refine checked_wf ?_ wf
  intro _ w
  dsimp only
  split
  · exact .error _
  · exact .ok (State.setX_wf w)

theorem colqForm_wf {o : RRR} {isOpen : Bool} (wf : s.Wf) : OutWf (colqForm o s isOpen) := by
  unfold colqForm
  refine checked_wf ?_ wf
  intro _ w
  split
  · exact .error _
  · exact .ok (State.hold_wf w)

theorem execRpurge_wf {o : RRR} (wf : s.Wf) : OutWf (execRpurge o s) := by
  unfold execRpurge
  refine checked_wf ?_ wf
  intro _ w
  split
  · exact .error _
  · exact .ok (State.hold_wf w)

theorem State.loadRecord_wf {n h code : Nat} {f : ImageFault} (wf : s.Wf) : (s.loadRecord n h code f).Wf := State.recordAt_wf wf

theorem execRload_wf {o : RRR} (wf : s.Wf) : OutWf (execRload o s) := by
  unfold execRload
  refine .next ?_
  refine State.ite_wf wf ?_
  refine State.ite_wf (State.stopFor_wf wf) ?_
  refine State.ite_wf (State.stopFor_wf wf) ?_
  split
  · exact State.stopFor_wf wf
  · exact State.stopFor_wf wf
  · exact State.stopFor_wf (State.loadRecord_wf wf)
  · exact State.hold_wf (State.setX_wf wf)

theorem checkedOpen_wf {g : BitVec 3} {gs : Bool} {f : State → Except XF State} (step : ∀ s, s.Wf → OkWf (f s)) (wf : s.Wf) : OutWf
  (checkedOpen g gs s f) := by
  unfold checkedOpen
  refine .next ?_
  refine State.ite_wf ?_ wf
  split
  · rename_i e0
    exact step _ wf _ e0
  · exact State.stopFor_wf (State.mk_wf wf)

theorem execRarm_wf {o : RRR} (wf : s.Wf) : OutWf (execRarm o s) := by
  refine checkedOpen_wf (fun s wf => ?_) wf
  split
  · exact .error _
  · next t b e =>
    dsimp only
    split
    · exact .error _
    · have kept := State.controlBlock_wf e wf
      refine .ok (State.ite_wf ?_ (State.setW_wf ?_))
      · exact State.hold_wf (State.ite_wf kept (State.hold_wf kept))
      · exact State.hold_wf (State.ite_wf kept (State.hold_wf kept))

theorem State.waitOn_wf {w : Wait} {a2 : Answer} (wf : s.Wf) : (s.waitOn w a2).Wf := State.setBlk_wf wf

theorem execRcalm_wf {o : RRR} (wf : s.Wf) : OutWf (execRcalm o s) :=
  checkedOpen_wf (fun _ w => .ite (.ok (State.waitOn_wf w)) (.ite (.error _) (.ite (.error _)
    (.ite (.ok (State.waitOn_wf w)) (.ok (State.waitOn_wf w)))))) wf

theorem execVnset_wf {o : RRR} (wf : s.Wf) : OutWf (execVnset o s) := by
  unfold execVnset
  refine checked_wf ?_ wf
  intro _ w
  dsimp only
  split
  · exact .ite (.error _) (.ite (.error _) (.ok (State.hold_wf w)))
  · exact .ite (.error _) (.ite (.error _) (.ok (State.hold_wf w)))
  · refine .ite (.error _) ?_
    split
    · exact .error _
    · exact .ok (State.hold_wf w)

theorem execSteerset_wf {o : RRR} (wf : s.Wf) : OutWf (execSteerset o s) := by
  unfold execSteerset
  refine checked_wf ?_ wf
  intro _ w
  refine .ite (.error _) ?_
  refine .ite (.ok (State.hold_wf w)) ?_
  split
  · exact .error _
  · exact .ok (State.hold_wf w)

theorem execMsend_wf {o : RRR} (wf : s.Wf) : OutWf (execMsend o s) := by
  unfold execMsend
  refine checked_wf ?_ wf
  intro _ w
  dsimp only
  split
  · exact .error _
  · exact .ok (State.hold_wf w)

theorem immForm_wf {o : RRI} {f : W64 → W64 → W64} (wf : s.Wf) : OutWf (immForm o s f) := plain_wf (fun _ => State.setX_wf) wf

theorem State.exitTo_wf {e : Exit} (wf : s.Wf) : (s.exitTo e).Wf := State.setBlk_wf wf

theorem transfer_wf {o : BRX} {link : Bool} {target : W64} (wf : s.Wf) : (transfer o s link target).Wf :=
  State.exitTo_wf (State.ite_wf (State.setX_wf wf) wf)

theorem State.setV_wf {d : BitVec 6} {v : Line} (wf : s.Wf) : (s.setV d v).Wf := State.setW_wf wf

theorem State.lanesDone_wf (wf : s.Wf) : s.lanesDone.Wf := State.setBlk_wf wf

theorem vloadForm_wf {o : MEM} {addr : State → Nat → W64} (wf : s.Wf) : OutWf (vloadForm o s addr) := by
  unfold vloadForm
  refine checked_wf ?_ wf
  intro _ w
  split
  · exact .error _
  · exact .ok (State.setV_wf (State.lanesDone_wf w))

theorem State.holdAll_wf {l : List Held} (wf : s.Wf) : (s.holdAll l).Wf := State.setBlk_wf wf

theorem vstoreForm_wf {o : MEM} {addr : State → Nat → W64} (wf : s.Wf) : OutWf (vstoreForm o s addr) := by
  unfold vstoreForm
  refine checked_wf ?_ wf
  intro _ w
  split
  · exact .error _
  · exact .ok (State.holdAll_wf w)

theorem loadForm_wf {o : MEM} (wf : s.Wf) : OkWf (loadForm o s) := by
  unfold loadForm
  split
  · exact .error _
  · exact .ok (State.setX_wf wf)

theorem State.holdStore_wf {t : Tr} {full : Bool} {bs : List Byte} (wf : s.Wf) : (s.holdStore t full bs).Wf := State.hold_wf wf

theorem execSt_wf {o : MEM} (wf : s.Wf) : OutWf (execSt o s) := by
  unfold execSt
  refine checked_wf ?_ wf
  intro _ w
  dsimp only
  split
  · exact .error _
  · exact .ite (.error _) (.ok (State.holdStore_wf w))

theorem execStl_wf {o : MEM} (wf : s.Wf) : OutWf (execStl o s) := by
  unfold execStl
  refine checked_wf ?_ wf
  intro _ w
  dsimp only
  split
  · exact .error _
  · exact .ite (.ok (State.hold_wf (State.hold_wf w))) (.ok (State.holdStore_wf (State.hold_wf w)))

theorem execLdf_wf {o : MEM} (wf : s.Wf) : OutWf (execLdf o s) := by
  unfold execLdf
  refine checked_wf ?_ wf
  intro _ w
  dsimp only
  split
  · exact .error _
  · exact .ok (State.waitOn_wf w)

theorem maintForm_wf {o : MEM} {inv : Bool} (wf : s.Wf) : OutWf (maintForm o s inv) := plain_wf (fun _ => State.hold_wf) wf

theorem execWaita_wf {o : MEM} (wf : s.Wf) : OutWf (execWaita o s) := by
  unfold execWaita
  refine checked_wf ?_ wf
  intro _ w
  dsimp only
  split
  · exact .error _
  · exact .ok (State.waitOn_wf w)

theorem State.scFence_wf {o : MEM} (wf : s.Wf) : (s.scFence o).Wf := State.ite_wf (State.l1DropAll_wf wf) wf

theorem bankForm_wf {o : MEM} {reply : Bool} {kind : State → BankKind} (wf : s.Wf) : OutWf (bankForm o s reply kind) := by
  unfold bankForm
  refine checked_wf ?_ wf
  intro _ w
  dsimp only
  split
  · exact .error _
  · exact .ok (State.holdAll_wf (State.scFence_wf w))

theorem execBupd_wf {o : MEM} (wf : s.Wf) : OutWf (execBupd o s) := by
  unfold execBupd
  refine checked_wf ?_ wf
  intro _ w
  dsimp only
  split
  · exact .error _
  · exact .ok (State.holdAll_wf w)

theorem execBfill_wf {o : MEM} (wf : s.Wf) : OutWf (execBfill o s) := by
  unfold execBfill
  refine checked_wf ?_ wf
  intro _ w
  dsimp only
  split
  · exact .error _
  · refine .ite (.error _) ?_
    split
    · exact .error _
    · exact .ok (State.holdAll_wf w)

theorem presForm_wf {o : MEM} {kind : PresKind} {wr : Bool} (wf : s.Wf) : OutWf (presForm o s kind wr) := by
  unfold presForm
  refine checked_wf ?_ wf
  intro _ w
  dsimp only
  split
  · exact .error _
  · exact .ok (State.waitOn_wf (State.mk_wf (State.l1DropRange_wf (State.ite_wf (State.l1WriteBackAll_wf w) w))))

theorem execClrp_wf {o : MEM} (wf : s.Wf) : OutWf (execClrp o s) := by
  unfold execClrp
  refine checked_wf ?_ wf
  intro _ w
  dsimp only
  split
  · exact .error _
  · exact .ok (State.holdAll_wf w)

theorem execPstat_wf {o : MEM} (wf : s.Wf) : OutWf (execPstat o s) := by
  unfold execPstat
  refine checked_wf ?_ wf
  intro _ w
  dsimp only
  split
  · exact .error _
  · exact .ok (State.setX_wf (State.l1DropRange_wf w))

theorem execLdsc_wf {o : MEM} (wf : s.Wf) : OutWf (execLdsc o s) := by
  unfold execLdsc
  refine checked_wf ?_ wf
  intro _ w
  dsimp only
  split
  · exact .error _
  · exact .ok (State.waitOn_wf (State.holdAll_wf (State.sendBank_wf (State.l1DropAll_wf w))))

theorem execStsc_wf {o : MEM} (wf : s.Wf) : OutWf (execStsc o s) := by
  unfold execStsc
  refine checked_wf ?_ wf
  intro _ w
  dsimp only
  split
  · exact .error _
  · exact .ok (State.holdAll_wf (State.scFence_wf w))

theorem laneForm_wf {o : VEC} {f : State → Nat → W32} (wf : s.Wf) : OutWf (laneForm o s f) := plain_wf (fun _ => State.setV_wf) wf

theorem vintForm_wf {o : VEC} {f : ℤ → ℤ → ℤ} (wf : s.Wf) : OutWf (vintForm o s f) := laneForm_wf wf

theorem vshiftForm_wf {o : VEC} {f : Nat → Nat → Nat → Nat} (wf : s.Wf) : OutWf (vshiftForm o s f) := laneForm_wf wf

theorem vfpForm_wf {o : VEC} {f : Fp.Val → Fp.Val → Fp.Val → Fp.Val} (wf : s.Wf) : OutWf (vfpForm o s f) := laneForm_wf wf

theorem vseedForm_wf {o : VEC} {f : Nat → Nat × Option Nat} (wf : s.Wf) : OutWf (vseedForm o s f) :=
  plain_wf (fun _ w => State.setV_wf (State.setW_wf w)) wf

theorem execArd_wf {o : MTX} (wf : s.Wf) : OutWf (execArd o s) := by
  unfold execArd
  refine checked_wf ?_ wf
  intro _ w
  dsimp only
  split
  · exact .ite (.error _) (.ok (State.setV_wf w))
  · exact .ite (.error _) (.ite (.error _) (.ok (State.hold_wf w)))
  · exact .ite (.error _) (.ok (State.setX_wf w))
  · exact .ok (State.setX_wf w)

theorem execAsave_wf {o : MTX} (wf : s.Wf) : OutWf (execAsave o s) := by
  unfold execAsave
  refine checked_wf ?_ wf
  intro _ w
  dsimp only
  split
  · exact .error _
  · exact .ite (.error _) (.ok (State.hold_wf w))

theorem execSbind_wf {o : STR} (wf : s.Wf) : OutWf (execSbind o s) := by
  refine checked_wf (fun s wf => ?_) wf
  refine .ite (.ite (.error _) (.ok (State.hold_wf wf))) ?_
  split
  · exact .error _
  · next t d e => exact .ite (.error _) (.ite (.error _) (.ok (State.hold_wf (State.controlBlock_wf e wf))))

theorem execSstart_wf {o : STR} (wf : s.Wf) : OutWf (execSstart o s) := by
  unfold execSstart
  refine checked_wf ?_ wf
  intro _ w
  dsimp only
  split
  · exact .error _
  · exact .ite (.error _) (.ok (State.hold_wf (State.hold_wf w)))

theorem execSdone_wf {o : STR} (wf : s.Wf) : OutWf (execSdone o s) := by
  unfold execSdone
  refine checked_wf ?_ wf
  intro _ w
  refine .ite (.ite (.error _) (.ok (State.hold_wf w))) ?_
  split
  · exact .error _
  · exact .ok (State.hold_wf w)

theorem State.nodeHome_wf {t : Tr} (wf : s.Wf) : (s.nodeHome t).Wf := State.l1DropRange_wf wf

theorem execNalloc_wf {o : NET} (wf : s.Wf) : OutWf (execNalloc o s) := by
  unfold execNalloc
  refine checked_wf ?_ wf
  intro _ w
  refine .ite (.error _) ?_
  refine .ite (.error _) ?_
  dsimp only
  split
  · exact .error _
  · split
    · exact .error _
    · exact .ok (State.setX_wf (State.hold_wf (State.setMe_wf (State.nodeHome_wf w))))

theorem execNfree_wf {o : NET} (wf : s.Wf) : OutWf (execNfree o s) := by
  unfold execNfree
  refine checked_wf ?_ wf
  intro _ w
  dsimp only
  split
  · exact .error _
  · split
    · exact .error _
    · exact .ite (.error _) (.ok (State.hold_wf (State.nodeHome_wf w)))

theorem execNld_wf {o : NET} (wf : s.Wf) : OutWf (execNld o s) := by
  unfold execNld
  refine checked_wf ?_ wf
  intro _ w
  dsimp only
  split
  · exact .error _
  · split
    · exact .error _
    · exact .ok (State.setX_wf (State.nodeHome_wf w))

theorem execNst_wf {o : NET} (wf : s.Wf) : OutWf (execNst o s) := by
  unfold execNst
  refine checked_wf ?_ wf
  intro _ w
  dsimp only
  split
  · exact .error _
  · refine .ite (.ite (.error _) (.ok (State.hold_wf (State.nodeHome_wf w)))) ?_
    refine .ite ?_ (.ok (State.hold_wf (State.nodeHome_wf w)))
    refine .ite (.error _) ?_
    split
    · exact .error _
    · exact .ite (.error _) (.ite (.error _) (.ok (State.hold_wf (State.nodeHome_wf w))))

theorem execNlink_wf {o : NET} (wf : s.Wf) : OutWf (execNlink o s) := by
  unfold execNlink
  refine checked_wf ?_ wf
  intro _ w
  dsimp only
  split
  · exact .error _
  · exact .error _
  · refine .ite (.error _) ?_
    refine .ite (.error _) ?_
    split
    · exact .error _
    · split
      · exact .error _
      · exact .ok (State.holdAll_wf (State.nodeHome_wf (State.nodeHome_wf w)))

theorem execNpush_wf {o : NET} (wf : s.Wf) : OutWf (execNpush o s) := by
  unfold execNpush
  refine checked_wf ?_ wf
  intro _ w
  refine .ite (.ite (.error _) (.ok (State.setW_wf (State.holdAll_wf w)))) ?_
  split
  · exact .error _
  · exact .error _
  · exact .ok (State.holdAll_wf w)

theorem execNpop_wf {o : NET} (wf : s.Wf) : OutWf (execNpop o s) := by
  unfold execNpop
  refine checked_wf ?_ wf
  intro _ w
  dsimp only
  split
  · exact .ok (State.setX_wf (State.setX_wf w))
  · split
    · exact .error _
    · exact .ok (State.setX_wf (State.setX_wf (State.hold_wf (State.l1DropAll_wf (State.setMe_wf w)))))

theorem execNruleLook_wf {o : NET} (wf : s.Wf) : OutWf (execNruleLook o s) := by
  unfold execNruleLook
  refine checked_wf ?_ wf
  intro _ w
  dsimp only
  split
  · exact .error _
  · rename_i e3
    exact .ok (State.setX_wf (snd_wf e3 (NetM.runOn_wf lookupRule_wf w)))

theorem execNruleSet_wf {o : NET} (wf : s.Wf) : OutWf (execNruleSet o s) := by
  unfold execNruleSet
  refine checked_wf ?_ wf
  intro _ w
  refine .ite (.error _) ?_
  split
  · exact .error _
  · exact .ok (State.hold_wf w)

theorem execFence_wf {o : SYS} (wf : s.Wf) : OutWf (execFence o s) :=
  plain_wf (fun _ w => State.ite_wf (State.ite_wf w (State.hold_wf w)) (State.ite_wf (State.ite_wf (State.l1DropAll_wf w) w)
    (State.ite_wf (State.holdAll_wf (State.ite_wf (State.l1DropAll_wf w) w)) (State.hold_wf (State.ite_wf (State.l1DropAll_wf w) w))))) wf

theorem execTlbi_wf {o : SYS} (wf : s.Wf) : OutWf (execTlbi o s) := by
  unfold execTlbi
  refine checked_wf ?_ wf
  intro _ w
  dsimp only
  split
  · exact .error _
  · split
    · exact .error _
    · exact .ok (State.hold_wf w)

theorem execMts_wf {o : SYS} (wf : s.Wf) : OutWf (execMts o s) := by
  unfold execMts
  refine checked_wf ?_ wf
  intro _ w
  dsimp only
  split
  · exact .ite (.error _) (.ok (State.setW_wf w))
  · exact .ok (State.setW_wf w)
  · exact .ok (State.setW_wf w)
  · exact .ite (.error _) (.ok (State.setW_wf w))
  · exact .ite (.error _) (.ok (State.setW_wf w))
  · exact .ok (State.setW_wf w)
  · exact .ite (.error _) (.ok (State.hold_wf w))
  · exact .ite (.error _) (.ok (State.setW_wf w))
  · exact .ite (.error _) (.ok (State.hold_wf w))
  · exact .ite (.error _) (.ok (State.setW_wf w))
  · exact .ok w

theorem execRsave_wf {o : SYS} (wf : s.Wf) : OutWf (execRsave o s) := by
  unfold execRsave
  refine checked_wf ?_ wf
  intro _ w
  refine .ite (.ok (State.hold_wf w)) ?_
  split
  · exact .error _
  · split
    · exact .error _
    · exact .ok (State.hold_wf w)

theorem execRrest_wf {o : SYS} (wf : s.Wf) : OutWf (execRrest o s) := by
  unfold execRrest
  refine checked_wf ?_ wf
  intro _ w
  dsimp only
  split
  · exact .error _
  · split
    · exact .error _
    · split
      · exact .error _
      · exact .ok (State.holdAll_wf w)

theorem State.moved_wf {h c : Nat} (wf : s.Wf) : (s.moved h c).Wf := State.ite_wf wf (State.setRegion_wf wf)

theorem State.acceptHead_wf {e i : Nat} (wf : s.Wf) : (s.acceptHead e i).Wf := by
  unfold State.acceptHead
  dsimp only
  split
  · exact wf
  · exact State.ite_wf (State.setElem_wf (State.mk_wf wf)) (State.moved_wf (State.setElem_wf (State.mk_wf wf)))

theorem State.acceptAll_wf {e : Nat} (wf : s.Wf) : (s.acceptAll e).Wf := State.foldl_wf (fun _ _ => State.acceptHead_wf) wf

theorem State.bear_wf {h : Nat} {k : Key} (wf : s.Wf) : (s.bear h k).Wf := State.ite_wf wf (State.moved_wf (State.setRegion_wf wf))

theorem State.send_wf {e sl : Nat} {m : BitVec 6} {t : Token} (wf : s.Wf) : (s.send e sl m t).Wf := by
  unfold State.send
  refine State.moved_wf ?_
  refine State.ite_wf ?_ ?_
  · refine State.mk_wf ?_
    refine State.foldl_wf ?_ wf
    intro _ _ w
    dsimp only
    split
    · exact w
    · split
      · exact State.ite_wf (State.bear_wf (State.setElem_wf w)) (State.setElem_wf w)
      · exact State.setElem_wf w
  · refine State.foldl_wf ?_ wf
    intro _ _ w
    dsimp only
    split
    · exact w
    · split
      · exact State.ite_wf (State.bear_wf (State.setElem_wf w)) (State.setElem_wf w)
      · exact State.setElem_wf w

theorem State.output_wf {e sl : Nat} {out1 : Bool} {t : Token} (wf : s.Wf) : (s.output e sl out1 t).Wf :=
  State.ite_wf (State.setSlot_wf (State.ite_wf wf (State.send_wf wf))) (State.ite_wf wf (State.send_wf wf))

theorem State.leave_wf {e sl i : Nat} (wf : s.Wf) : (s.leave e sl i).Wf := by
  unfold State.leave
  dsimp only
  split
  · exact wf
  · exact State.output_wf (State.ite_wf (State.bear_wf (State.setSlot_wf wf)) (State.setSlot_wf wf))

theorem elemTurn_wf {op : BitVec 8} {o : ElemCfg} {extra : State → Nat → Nat → Option State} {fire : State → Nat → Nat → Entry → State} 
    (extra_wf : ∀ s e sl, s.Wf → SomeWf (extra s e sl))
    (fire_wf : ∀ s e sl ent, s.Wf → (fire s e sl ent).Wf) (wf : s.Wf) : OutWf (elemTurn op o s extra fire) := by
  unfold elemTurn
  refine .next ?_
  refine State.ite_wf ?_ wf
  dsimp only
  split
  · exact State.leave_wf (State.acceptAll_wf wf)
  · split
    · rename_i e0
      exact SomeWf.ite .none (extra_wf _ _ _ (State.acceptAll_wf wf)) _ e0
    · split
      · exact fire_wf _ _ _ _ (State.setElem_wf (State.acceptAll_wf wf))
      · exact State.acceptAll_wf wf

theorem noExtra_wf {e sl : Nat} : SomeWf (noExtra s e sl) := .none

theorem State.owe_wf {e sl : Nat} {l : List (Bool × Token)} (wf : s.Wf) : (s.owe e sl l).Wf := State.setSlot_wf wf

theorem State.outputs_wf {e sl : Nat} {a3 : List (Bool × Token)} (wf : s.Wf) : (s.outputs e sl a3).Wf := by
  unfold State.outputs
  dsimp only
  split
  · exact wf
  · exact State.output_wf wf
  · exact State.ite_wf (State.foldl_wf (fun _ _ => State.output_wf) (State.output_wf wf)) (State.owe_wf (State.output_wf wf))

theorem State.consume_wf {e sl : Nat} {k : Key} (wf : s.Wf) : (s.consume e sl k).Wf := by
  unfold State.consume
  dsimp only
  split
  · exact wf
  · exact State.moved_wf (State.setSlot_wf (State.mk_wf wf))

theorem State.fireOut_wf {e sl : Nat} {ent : Entry} {l : List (Bool × Token)} (wf : s.Wf) : (s.fireOut e sl ent l).Wf :=
  State.outputs_wf (State.consume_wf wf)

theorem State.freshBubble_wf {t : Token} (wf : s.Wf) : (s.freshBubble t).1.Wf := State.mk_wf wf

theorem State.elemFault_wf {e sl code : Nat} {ops : List Token} {hold : Bool} {addr : W64} {lvl detail : Nat} (wf : s.Wf) :
  (s.elemFault e sl code ops hold addr lvl detail).Wf :=
  State.ite_wf (State.setSlot_wf (State.recordAt_wf wf)) (State.recordAt_wf wf)

theorem State.fireFault_wf {e sl : Nat} {ent : Entry} {code : Nat} {addr : W64} {lvl : Nat} (wf : s.Wf) :
  (s.fireFault e sl ent code addr lvl).Wf :=
  State.elemFault_wf (State.consume_wf wf)

theorem execSteerE_wf {o : ElemCfg} (wf : s.Wf) : OutWf (execSteerE o s) :=
  elemTurn_wf (fun _ _ _ _ => noExtra_wf) (fun _ _ _ _ w => State.ite_wf (State.fireOut_wf (State.freshBubble_wf w))
    (State.ite_wf (State.fireFault_wf w) (State.fireOut_wf w))) wf

theorem State.consumeAt_wf {e sl : Nat} {k : Key} {i n : Nat} (wf : s.Wf) : (s.consumeAt e sl k i n).Wf :=
  State.moved_wf (State.setSlot_wf (State.mk_wf wf))

theorem execMergeE_wf {o : ElemCfg} (wf : s.Wf) : OutWf (execMergeE o s) := by
  unfold execMergeE
  refine elemTurn_wf (fun _ _ _ _ => noExtra_wf) ?_ wf
  intro _ _ _ _ w
  dsimp only
  split
  · exact w
  · exact State.ite_wf (State.elemFault_wf (State.consumeAt_wf w)) (State.output_wf (State.consumeAt_wf w))

theorem State.loopIssue_wf {e sl : Nat} (wf : s.Wf) : SomeWf (s.loopIssue e sl) := by
  unfold State.loopIssue
  dsimp only
  split
  · exact .none
  · split
    · exact .none
    · exact .ite (.some (State.output_wf (State.bear_wf (State.setSlot_wf wf)))) (.some (State.output_wf (State.setSlot_wf wf)))

theorem execLoopE_wf {o : ElemCfg} (wf : s.Wf) : OutWf (execLoopE o s) :=
  elemTurn_wf (fun _ _ _ => State.loopIssue_wf) (fun _ _ _ _ w8 => State.ite_wf (State.fireOut_wf (State.freshBubble_wf w8))
    (State.ite_wf (State.fireFault_wf w8) (State.setSlot_wf (State.consume_wf w8)))) wf

theorem execCallE_wf {o : ElemCfg} (wf : s.Wf) : OutWf (execCallE o s) := by
  unfold execCallE
  refine elemTurn_wf (fun _ _ _ _ => noExtra_wf) ?_ wf
  intro _ _ _ _ w
  refine State.ite_wf (State.fireOut_wf (State.freshBubble_wf w)) ?_
  dsimp only
  split
  · exact w
  · exact State.output_wf (State.bear_wf (State.mk_wf (State.consume_wf w)))

theorem execRetE_wf {o : ElemCfg} (wf : s.Wf) : OutWf (execRetE o s) := by
  unfold execRetE
  refine elemTurn_wf (fun _ _ _ _ => noExtra_wf) ?_ wf
  intro _ _ _ _ w
  refine State.ite_wf (State.fireOut_wf (State.freshBubble_wf w)) ?_
  dsimp only
  split
  · exact State.fireFault_wf w
  · exact State.ite_wf (State.fireFault_wf w) (State.output_wf (State.mk_wf (State.consume_wf w)))

theorem State.fireValue_wf {e sl : Nat} {ent : Entry} {f : ElemSlot → List Token → Nat × Nat} (wf : s.Wf) : (s.fireValue e sl ent f).Wf :=
  State.ite_wf (State.fireOut_wf (State.freshBubble_wf wf)) (State.ite_wf (State.fireFault_wf wf) (State.fireOut_wf wf))

theorem intElem_wf {op : BitVec 8} {o : ElemCfg} {f : Nat → Nat → Nat → Nat} (wf : s.Wf) : OutWf (intElem op o s f) :=
  elemTurn_wf (fun _ _ _ _ => noExtra_wf) (fun _ _ _ _ => State.fireValue_wf) wf

theorem State.convResult_wf {e sl : Nat} {ops : List Token} {t : Token} {raws : List Nat} {kinds : List (Option Nat)} (wf : s.Wf) :
  (s.convResult e sl ops t raws kinds).1.Wf := by
  unfold State.convResult
  dsimp only
  split
  · exact wf
  · split
    · exact State.elemFault_wf (State.setSlot_wf wf)
    · exact State.setSlot_wf wf

theorem State.fireConv_wf {e sl : Nat} {ent : Entry} {f : ElemSlot → List Nat → Nat × Option Nat} (wf : s.Wf) : (s.fireConv e sl ent f).Wf
  :=
  State.ite_wf (State.fireOut_wf (State.freshBubble_wf wf)) (State.ite_wf (State.fireFault_wf wf)
    (State.fireOut_wf (State.convResult_wf wf)))

theorem minMaxElem_wf {op : BitVec 8} {o : ElemCfg} {f : Fp.Val → Fp.Val → Fp.Val} (wf : s.Wf) : OutWf (minMaxElem op o s f) :=
  elemTurn_wf (fun _ _ _ _ => noExtra_wf) (fun _ _ _ _ => State.fireValue_wf) wf

theorem State.closeGroup_wf {e sl : Nat} {ops : List Token} {g : Machine.Group} {eor eos : Bool} (wf : s.Wf) :
  (s.closeGroup e sl ops g eor eos).1.Wf := by
  unfold State.closeGroup
  dsimp only
  split
  · exact State.elemFault_wf (State.setSlot_wf wf)
  · exact State.setSlot_wf wf

theorem State.leaveFirst_wf {e sl : Nat} (wf : s.Wf) : (s.leaveFirst e sl).Wf := by
  unfold State.leaveFirst
  split
  · exact State.leave_wf wf
  · exact wf

theorem State.cvtTokens_wf {e sl n k : Nat} {ops : List Token} {q : Token} {lanesOut : List (Nat × Option Nat)} (wf : s.Wf) :
    (s.cvtTokens e sl ops q n lanesOut k).1.Wf := by
  induction k with
  | zero => exact wf
  | succ k ih => exact State.convResult_wf ih

theorem execCvtE_wf {o : ElemCfg} (wf : s.Wf) : OutWf (execCvtE o s) := by
  unfold execCvtE
  refine elemTurn_wf (fun _ _ _ _ => noExtra_wf) ?_ wf
  intro _ _ _ _ w
  refine State.ite_wf (State.fireFault_wf w) ?_
  refine State.ite_wf ?_ (State.ite_wf (State.leaveFirst_wf (State.owe_wf (State.cvtTokens_wf (State.consume_wf w))))
    (State.ite_wf (State.setSlot_wf (State.ite_wf (State.elemFault_wf (State.consume_wf w)) (State.consume_wf w)))
    (State.leaveFirst_wf (State.owe_wf (State.closeGroup_wf (State.ite_wf (State.elemFault_wf (State.consume_wf w))
    (State.consume_wf w)))))))
  refine State.leaveFirst_wf ?_
  refine State.owe_wf ?_
  refine State.freshBubble_wf ?_
  dsimp only
  split
  · exact State.closeGroup_wf (State.consume_wf w)
  · exact State.consume_wf w

theorem State.setRow_wf {e sl : Nat} {k : Key} {r : RowState} (wf : s.Wf) : (s.setRow e sl k r).Wf := State.setSlot_wf wf

theorem execAccE_wf {o : ElemCfg} (wf : s.Wf) : OutWf (execAccE o s) := by
  unfold execAccE
  refine elemTurn_wf (fun _ _ _ _ => noExtra_wf) ?_ wf
  intro _ _ _ _ w
  refine State.ite_wf (State.fireFault_wf w) ?_
  dsimp only
  split
  · exact State.setRow_wf (State.consume_wf w)
  · exact State.ite_wf (State.output_wf (State.freshBubble_wf (State.setRow_wf (State.consume_wf w))))
      (State.ite_wf (State.output_wf (State.convResult_wf (State.setRow_wf (State.consume_wf w))))
      (State.output_wf (State.setRow_wf (State.consume_wf w))))

theorem State.pushReq_wf {e : Nat} {r : MReq} (wf : s.Wf) : (s.pushReq e r).Wf :=
  State.setElem_wf (State.mk_wf (State.ite_wf (State.bear_wf wf) wf))

theorem State.countSink_wf {sink c x : Nat} (wf : s.Wf) : (s.countSink sink c x).Wf := State.mk_wf wf

theorem State.sinkOf_wf {e sl : Nat} {ops : List Token} (wf : s.Wf) : (s.sinkOf e sl ops).Wf := State.ite_wf (State.countSink_wf wf) wf

theorem State.noAccess_wf {e sl : Nat} {ent : Entry} {l : List (Bool × Token)} (wf : s.Wf) : (s.noAccess e sl ent l).Wf :=
  State.ite_wf (State.pushReq_wf (State.consume_wf wf)) (State.sinkOf_wf (State.outputs_wf (State.consume_wf wf)))

theorem State.addSupp_wf {h n : Nat} (wf : s.Wf) : (s.addSupp h n).Wf := State.setRegion_wf wf

theorem State.openValue_wf {t : Token} (wf : s.Wf) : (s.openValue t).1.Wf := State.mk_wf wf

theorem State.issue_wf {e sl : Nat} {ent : Entry} {kind : MKind} {scope va len : Nat} {t : Tr} (wf : s.Wf) :
  (s.issue e sl ent kind scope va len t).Wf := by
  unfold State.issue
  refine State.ite_wf ?_ (State.pushReq_wf (State.consume_wf wf))
  dsimp only
  split
  · exact State.sendWrite_wf (State.pushReq_wf (State.consume_wf wf))
  · exact State.sendRead_wf (State.pushReq_wf (State.consume_wf wf))

theorem memElem_wf {op : BitVec 8} {o : ElemCfg} {rd wr : Bool} {kind : ElemSlot → W32 → MKind} {scope : Nat} (wf : s.Wf) : OutWf
  (memElem op o s rd wr kind scope) := by
  unfold memElem
  refine elemTurn_wf (fun _ _ _ _ => noExtra_wf) ?_ wf
  intro _ _ _ _ w
  refine State.ite_wf (State.noAccess_wf (State.freshBubble_wf w)) ?_
  refine State.ite_wf (State.fireFault_wf w) ?_
  refine State.ite_wf ?_ ?_
  · refine State.noAccess_wf ?_
    split
    · exact State.ite_wf (State.addSupp_wf w) w
    · exact State.openValue_wf (State.ite_wf (State.addSupp_wf w) w)
  · dsimp only
    split
    · exact State.fireFault_wf w
    · exact State.ite_wf (State.fireFault_wf w) (State.issue_wf w)

theorem execStatE_wf {o : ElemCfg} (wf : s.Wf) : OutWf (execStatE o s) :=
  elemTurn_wf (fun _ _ _ _ => noExtra_wf) (fun _ _ _ _ w => State.ite_wf (State.fireOut_wf (State.freshBubble_wf w))
    (State.ite_wf (State.fireFault_wf w) (State.fireOut_wf w))) wf

theorem State.dropCommit_wf {e sl : Nat} {k : Key} {j : Nat} (wf : s.Wf) : (s.dropCommit e sl k j).Wf :=
  State.moved_wf (State.setSlot_wf wf)

theorem State.writeDesc_wf {q : SeqDesc} {off n v : Nat} (wf : s.Wf) : (s.writeDesc q off n v).Wf := State.Wf.write wf

theorem State.addRefused_wf {q : SeqDesc} {n : Nat} (wf : s.Wf) : (s.addRefused q n).Wf := State.writeDesc_wf wf

/- In the lemmas below whose match is on a long computation, that computation is made a variable (`named`) first: else the kernel
evaluates it to compare the goal before and after a rewriting. -/

theorem State.commitArrive_wf {e sl : Nat} {x : Entry} {j : Nat} {t : Token} (wf : s.Wf) : (s.commitArrive e sl x j t).Wf := by
  generalize body : @State.commitArrive = f
  delta State.commitArrive at body
  subst body
  obtain ⟨readDesc, named⟩ : ∃ f, f = @State.readDesc := exists_eq
  rw [← named]
  dsimp only
  split
  · exact State.elemFault_wf (State.dropCommit_wf wf)
  · exact State.ite_wf (State.addRefused_wf (State.elemFault_wf (State.dropCommit_wf wf)))
      (State.ite_wf (State.addRefused_wf (State.dropCommit_wf wf)) (State.ite_wf
      (State.ite_wf (State.addRefused_wf (State.dropCommit_wf wf)) (State.moved_wf (State.setRow_wf wf)))
      (State.moved_wf (State.setRow_wf wf))))

theorem State.countId_wf {e sl : Nat} {q : SeqDesc} {t : Token} {id : Nat} (wf : s.Wf) : (s.countId e sl q t id).Wf := by
  unfold State.countId
  refine State.ite_wf wf ?_
  dsimp only
  split
  · exact State.elemFault_wf wf
  · refine State.ite_wf (State.elemFault_wf wf) ?_
    split
    · exact State.amoAt_wf wf
    · exact State.bankDrop_wf (State.amoAt_wf wf)

theorem State.setPos_wf {q : SeqDesc} {v : Nat} (wf : s.Wf) : (s.setPos q v).Wf := State.writeDesc_wf wf

theorem State.setHalf_wf {q : SeqDesc} {step : Nat} {isOpen : Bool} (wf : s.Wf) : (s.setHalf q step isOpen).Wf := State.writeDesc_wf wf

theorem State.retirePlain_wf {e sl : Nat} {c : BitVec 8} {x : BitVec 10} (wf : s.Wf) : SomeWf (s.retirePlain e sl c x) := by
  generalize body : @State.retirePlain = f
  delta State.retirePlain at body
  subst body
  obtain ⟨readDesc, named⟩ : ∃ f, f = @State.readDesc := exists_eq
  rw [← named]
  obtain ⟨retirable, named⟩ : ∃ f, f = @State.retirable := exists_eq
  rw [← named]
  dsimp only
  split
  · exact .map (fun _ => State.elemFault_wf (State.dropCommit_wf wf))
  · refine .ite (.map (fun _ => State.addRefused_wf (State.elemFault_wf (State.dropCommit_wf wf)))) ?_
    refine .ite .none ?_
    split
    · exact .none
    · exact .ite (.some (State.addRefused_wf (State.dropCommit_wf wf))) (.ite (.some
        (State.ite_wf (State.setHalf_wf (State.setPos_wf (State.output_wf (State.countId_wf (State.dropCommit_wf wf)))))
        (State.setPos_wf (State.output_wf (State.countId_wf (State.dropCommit_wf wf)))))) .none)

theorem State.treeBegin_wf {e sl : Nat} {c : BitVec 8} {x : BitVec 10} {q : SeqDesc} (wf : s.Wf) : SomeWf (s.treeBegin e sl c x q) :=
  .ite .none (.ite .none (.some (State.setRow_wf wf)))

theorem State.treeRetire_wf {e sl : Nat} {c : BitVec 8} {x : BitVec 10} {q : SeqDesc} {k : Key} {r : TreeRun} {n : Nat} {rest : List Nat}
  (wf : s.Wf) : SomeWf (s.treeRetire e sl c x q k r n rest) := by
  unfold State.treeRetire
  dsimp only
  split
  · exact .some (State.setRow_wf wf)
  · exact .ite (.some (State.setRow_wf wf)) (.ite .none (.some (State.setRow_wf
      (State.setPos_wf (State.output_wf (State.countId_wf (State.dropCommit_wf wf)))))))

theorem State.treeRefuse_wf {e sl : Nat} {c : BitVec 8} {x : BitVec 10} {q : SeqDesc} {k : Key} {r : TreeRun} (wf : s.Wf) : SomeWf
  (s.treeRefuse e sl c x q k r) := by
  unfold State.treeRefuse
  dsimp only
  split
  · exact .ite .none (.some (State.setRow_wf (State.output_wf (State.dropCommit_wf wf))))
  · exact .some (State.setRow_wf (State.ite_wf (State.setHalf_wf (State.addRefused_wf (State.writeDesc_wf (State.setHalf_wf wf))))
      (State.addRefused_wf (State.writeDesc_wf (State.setHalf_wf wf)))))

theorem State.treeStep_wf {e sl : Nat} {c : BitVec 8} {x : BitVec 10} (wf : s.Wf) : SomeWf (s.treeStep e sl c x) := by
  generalize body : @State.treeStep = f
  delta State.treeStep at body
  subst body
  obtain ⟨readDesc, named⟩ : ∃ f, f = @State.readDesc := exists_eq
  rw [← named]
  dsimp only
  split
  · exact .none
  · exact State.treeBegin_wf wf
  · exact .ite (.some (State.setRow_wf wf)) .none
  · refine .ite (.ite (.some (State.setRow_wf wf)) .none) ?_
    split
    · exact State.treeRetire_wf wf
    · exact State.treeRefuse_wf wf

theorem State.commitTurn_wf {e sl : Nat} (wf : s.Wf) : SomeWf (s.commitTurn e sl) := by
  unfold State.commitTurn
  split
  · exact .some (State.commitArrive_wf wf)
  · refine .findSome? fun _ => ?_
    split
    · rename_i e1
      exact .some (State.retirePlain_wf wf _ e1)
    · exact State.treeStep_wf wf

theorem State.spaddDrain_wf {e sl : Nat} {ent : Entry} (wf : s.Wf) : (s.spaddDrain e sl ent).Wf := by
  unfold State.spaddDrain
  dsimp only
  split
  · exact wf
  · exact State.ite_wf (State.setRow_wf (State.consumeAt_wf wf)) (State.consumeAt_wf wf)

theorem execSpaddE_wf {o : ElemCfg} (wf : s.Wf) : OutWf (execSpaddE o s) := by
  unfold execSpaddE
  refine elemTurn_wf (fun _ _ _ _ => noExtra_wf) ?_ wf
  intro _ _ _ _ w
  dsimp only
  split
  · exact State.spaddDrain_wf w
  · exact w
  · exact State.ite_wf (State.output_wf (State.ite_wf (State.elemFault_wf (State.setRow_wf
      (State.consumeAt_wf (State.ite_wf (State.consumeAt_wf w) w)))) (State.setRow_wf
      (State.consumeAt_wf (State.ite_wf (State.consumeAt_wf w) w))))) (State.ite_wf
      (State.elemFault_wf (State.ite_wf (State.elemFault_wf (State.setRow_wf (State.consumeAt_wf
      (State.ite_wf (State.consumeAt_wf (State.ite_wf (State.consumeAt_wf w) w)) (State.ite_wf (State.consumeAt_wf w) w)))))
      (State.setRow_wf (State.consumeAt_wf (State.ite_wf (State.consumeAt_wf (State.ite_wf (State.consumeAt_wf w) w))
      (State.ite_wf (State.consumeAt_wf w) w)))))) (State.output_wf (State.ite_wf
      (State.elemFault_wf (State.setRow_wf (State.consumeAt_wf (State.ite_wf (State.consumeAt_wf (State.ite_wf (State.consumeAt_wf w) w))
      (State.ite_wf (State.consumeAt_wf w) w))))) (State.setRow_wf (State.consumeAt_wf
      (State.ite_wf (State.consumeAt_wf (State.ite_wf (State.consumeAt_wf w) w)) (State.ite_wf (State.consumeAt_wf w) w)))))))

theorem execTopkE_wf {o : ElemCfg} (wf : s.Wf) : OutWf (execTopkE o s) := by
  unfold execTopkE
  refine elemTurn_wf (fun _ _ _ _ => noExtra_wf) ?_ wf
  intro _ _ _ _ w
  refine State.ite_wf (State.fireFault_wf w) ?_
  dsimp only
  split
  · exact State.setRow_wf (State.consume_wf w)
  · exact State.ite_wf (State.leaveFirst_wf (State.leaveFirst_wf (State.owe_wf
      (State.freshBubble_wf (State.setRow_wf (State.consume_wf w)))))) (State.leaveFirst_wf
      (State.leaveFirst_wf (State.owe_wf (State.setRow_wf (State.consume_wf w)))))

theorem execCumsE_wf {o : ElemCfg} (wf : s.Wf) : OutWf (execCumsE o s) := by
  unfold execCumsE
  refine elemTurn_wf (fun _ _ _ _ => noExtra_wf) ?_ wf
  intro _ _ _ _ w
  refine State.ite_wf (State.output_wf (State.ite_wf (State.setRow_wf (State.consume_wf w)) (State.consume_wf w))) ?_
  refine State.ite_wf (State.fireFault_wf w) ?_
  dsimp only
  split <;> exact State.output_wf (State.setRow_wf (State.consume_wf w))

theorem execAdptE_wf {o : ElemCfg} (wf : s.Wf) : OutWf (execAdptE o s) := by
  unfold execAdptE
  refine elemTurn_wf (fun _ _ _ _ => noExtra_wf) ?_ wf
  intro _ _ _ _ w
  refine State.ite_wf (State.setRow_wf (State.noAccess_wf w)) ?_
  refine State.ite_wf (State.setRow_wf (State.fireFault_wf w)) ?_
  obtain ⟨mAccess, named⟩ : ∃ f, f = @State.mAccess := exists_eq
  rw [← named]
  dsimp only
  split
  · exact State.setRow_wf (State.fireFault_wf w)
  · exact State.setRow_wf (State.issue_wf w)

theorem State.emitRow_wf {e sl : Nat} {k : Key} {poison : Bool} {toks : List Token} (wf : s.Wf) : (s.emitRow e sl k poison toks).Wf :=
  State.owe_wf (State.setRow_wf wf)

theorem State.vaneCount_wf {n v : Nat} {scored crossed unscored : Bool} (wf : s.Wf) : (s.vaneCount n v scored crossed unscored).Wf :=
  State.setCore_wf wf

theorem State.vaneReport_wf {e sl : Nat} {t : Token} {w : VaneView} {x : Crossing} (wf : s.Wf) : (s.vaneReport e sl t w x).Wf :=
  State.post_wf (State.recordAt_wf wf)

theorem State.vaneHalt_wf {e sl : Nat} {t : Token} {w : VaneView} {q : SeqDesc} {x : Crossing} (wf : s.Wf) : (s.vaneHalt e sl t w q x).Wf :=
  State.vaneCount_wf (State.vaneReport_wf (State.amoAt_wf wf))

theorem State.rowEnd_wf {e sl : Nat} {k : Key} {w : VaneView} {toks : List Token} {far : Sparse (Byte × Bool)} {late : Bool} (wf : s.Wf) :
  (s.rowEnd e sl k w toks far late).Wf := by
  generalize body : @State.rowEnd = f
  delta State.rowEnd at body
  subst body
  obtain ⟨vaneDesc, named⟩ : ∃ f, f = @State.vaneDesc := exists_eq
  rw [← named]
  obtain ⟨readSteer, named⟩ : ∃ f, f = @State.readSteer := exists_eq
  rw [← named]
  dsimp only
  split
  · split
    · exact State.ite_wf (State.emitRow_wf (State.vaneCount_wf (State.vaneReport_wf wf)))
        (State.sendRead_wf (State.setRow_wf (State.mk_wf wf)))
    · exact State.emitRow_wf (State.vaneCount_wf (State.vaneReport_wf wf))
  · refine State.ite_wf (State.emitRow_wf (State.vaneCount_wf (State.vaneReport_wf wf))) ?_
    split
    · exact State.emitRow_wf wf
    · refine State.ite_wf (State.emitRow_wf wf) ?_
      split
      · split
        · exact State.ite_wf (State.emitRow_wf (State.vaneCount_wf (State.vaneReport_wf wf)))
            (State.sendRead_wf (State.setRow_wf (State.mk_wf wf)))
        · exact State.emitRow_wf (State.vaneCount_wf (State.vaneReport_wf wf))
      · refine State.ite_wf ?_ ?_
        · split
          · exact State.emitRow_wf (State.vaneCount_wf (State.vaneReport_wf wf))
          · exact State.ite_wf (State.emitRow_wf (State.vaneCount_wf (State.vaneReport_wf wf))) (State.emitRow_wf (State.vaneHalt_wf wf))
        · split
          · exact State.emitRow_wf (State.vaneCount_wf wf)
          · split
            · exact State.emitRow_wf (State.vaneCount_wf (State.vaneReport_wf wf))
            · exact State.ite_wf (State.emitRow_wf (State.vaneCount_wf (State.vaneReport_wf wf)))
                (State.emitRow_wf (State.vaneHalt_wf (State.vaneCount_wf wf)))

theorem State.vaneTurn_wf {e sl : Nat} (wf : s.Wf) : SomeWf (s.vaneTurn e sl) := by
  unfold State.vaneTurn
  refine .findSome? fun _ => ?_
  split
  · exact .map (fun _ => State.rowEnd_wf (State.giveUp_wf wf))
  · exact .none

theorem execVaneE_wf {o : ElemCfg} (wf : s.Wf) : OutWf (execVaneE o s) := by
  unfold execVaneE
  refine elemTurn_wf (fun _ _ _ => State.vaneTurn_wf) ?_ wf
  intro _ _ _ _ w
  refine State.ite_wf (State.fireFault_wf w) ?_
  dsimp only
  split
  · exact State.setRow_wf (State.fireOut_wf w)
  · exact State.ite_wf (State.rowEnd_wf (State.consume_wf w)) (State.setRow_wf (State.consume_wf w))

theorem State.wload_wf {n w off : Nat} {sb : W32} {ty : BitVec 5} {sp mz : Bool} (wf : s.Wf) : (s.wload n w off sb ty sp mz).Wf := by
  unfold State.wload
  dsimp only
  split
  · exact State.recordAt_wf (State.setIsland_wf wf)
  · exact State.setIsland_wf wf

theorem State.overRows_wf {n start count : Nat} {f : State → Island → Nat → Island} (wf : s.Wf) : (s.overRows n start count f).Wf :=
  State.foldl_wf (fun _ _ => State.setIsland_wf) wf

theorem State.areaWrite_wf {n : Nat} {pages : List Page} {va : Nat} {bs : List Byte} (wf : s.Wf) : (s.areaWrite n pages va bs).Wf :=
  State.foldl_wf (fun _ _ w2 => State.ite_wf (State.foldl_wf (fun _ _ => State.sendWrite_wf) w2) (State.homeWrite_wf w2)) wf

theorem State.areaLoad_wf {n : Nat} {pages : List Page} {acc va : Nat} (wf : s.Wf) : (s.areaLoad n pages acc va).Wf := State.setIsland_wf wf

theorem State.islandDo_wf {n : Nat} {a2 : IslandCmd} (wf : s.Wf) : SomeWf (s.islandDo n a2) := by
  unfold State.islandDo
  dsimp only
  split
  · exact .some (State.wload_wf wf)
  · exact .some (State.overRows_wf wf)
  · exact .some (State.overRows_wf wf)
  · exact .some wf
  · exact .some (State.overRows_wf wf)
  · exact .some (State.setIsland_wf wf)
  · exact .some (State.foldl_wf (fun _ _ => State.Wf.write) wf)
  · exact .some (State.setIsland_wf wf)
  · exact .some (State.overRows_wf wf)
  · exact .some (State.areaWrite_wf wf)
  · split
    · exact .none
    · exact .some (State.foldl_wf (fun _ _ => State.areaLoad_wf) wf)
  · exact .some (State.foldl_wf (fun _ _ => State.areaWrite_wf) (State.foldl_wf (fun _ _ => State.areaWrite_wf) (State.areaWrite_wf wf)))

theorem execIslandCommandPerform_wf {n : CoreNum} (wf : s.Wf) : OutWf (execIslandCommandPerform n s) := by
  unfold execIslandCommandPerform
  refine .next ?_
  dsimp only
  split
  · exact wf
  · refine State.ite_wf wf ?_
    split
    · rename_i e0
      exact State.setIsland_wf (State.islandDo_wf wf _ e0)
    · split
      · split
        · exact State.setIsland_wf (State.giveUp_wf wf)
        · refine State.ite_wf wf ?_
          split
          · exact State.sendRead_wf wf
          · exact wf
      · exact wf

theorem State.asCore_wf {n : CoreNum} {f : State → State} (step : ∀ s, s.Wf → (f s).Wf) (wf : s.Wf) : (s.asCore n f).Wf :=
  State.mk_wf (step _ (State.mk_wf wf))

theorem execL1WriteBack_wf {n : CoreNum} {line : BitVec 45} (wf : s.Wf) : OutWf (execL1WriteBack n line s) := by
  unfold execL1WriteBack
  refine .next ?_
  split
  · exact State.ite_wf wf (State.setCore_wf wf)
  · exact wf

theorem State.engineWrite_wf {n : Nat} {c : EngCmd} {ps : List (Tr × Byte × Bool)} (wf : s.Wf) : (s.engineWrite n c ps).Wf :=
  State.foldl_wf (fun _ _ => State.sendWrite_wf) (State.foldl_wf (fun _ _ => State.padNotify_wf)
    (State.ite_wf (State.foldl_wf (fun _ _ w8 => State.ite_wf (State.setFe_wf w8) w8)
    (State.foldl_wf (fun _ _ w11 => State.ite_wf (State.mark_wf w11) (State.ite_wf (State.mark_wf w11) w11))
    (State.foldl_wf (fun _ _ => State.Wf.writeByte) (State.foldl_wf (fun _ _ => State.l1Drop_wf) wf))))
    (State.foldl_wf (fun _ _ w20 => State.ite_wf (State.mark_wf w20) (State.ite_wf (State.mark_wf w20) w20))
    (State.foldl_wf (fun _ _ => State.Wf.writeByte) (State.foldl_wf (fun _ _ => State.l1Drop_wf) wf)))))

theorem State.setTags_wf {ws : List Nat} (wf : s.Wf) : (s.setTags ws).Wf := State.foldl_wf (fun _ _ => State.setTag_wf) wf

theorem State.engineMove_wf {n : Nat} {c : EngCmd} {ks : List Nat} (wf : s.Wf) : (s.engineMove n c ks).1.Wf := by
  unfold State.engineMove
  dsimp only
  split
  · exact State.foldl_wf (fun _ _ => State.serveWord_wf) (State.setTags_wf (State.engineWrite_wf wf))
  · split
    · split
      · exact State.giveUp_wf wf
      · split
        · exact wf
        · exact State.sendRead_wf wf
    · exact wf

theorem State.padWrite32_wf {n off v : Nat} (wf : s.Wf) : (s.padWrite32 n off v).Wf := State.Wf.write wf

theorem State.writeFlag_wf {d : W64} (wf : s.Wf) : (s.writeFlag d).Wf := State.ite_wf (State.padWrite32_wf wf) wf

theorem execEngineCommand_wf {n : CoreNum} (wf : s.Wf) : OutWf (execEngineCommand n s) := by
  unfold execEngineCommand
  refine .next ?_
  dsimp only
  split
  · exact wf
  · exact State.ite_wf (State.setCore_wf (State.engineMove_wf wf)) (State.writeFlag_wf (State.setCore_wf (State.engineMove_wf wf)))

theorem execLineWrite_wf {n : CoreNum} {line : BitVec 45} (wf : s.Wf) : OutWf (execLineWrite n line s) := by
  unfold execLineWrite
  refine .next ?_
  split
  · exact State.ite_wf (State.l1WriteBack_wf wf) wf
  · exact wf

theorem State.enter_wf {e sl i : Nat} {t : Token} (wf : s.Wf) : (s.enter e sl i t).Wf :=
  State.moved_wf (State.ite_wf (State.bear_wf (State.setElem_wf wf)) (State.setElem_wf wf))

theorem State.setEntryq_wf {k : Nat} {q : List (Token × Bool)} (wf : s.Wf) : (s.setEntryq k q).Wf := State.mk_wf wf

theorem State.portRecord_wf {n port h code : Nat} {t : Token} (wf : s.Wf) : (s.portRecord n port h code t).Wf := State.recordAt_wf wf

theorem State.screen_wf {h n port : Nat} {t : Token} (wf : s.Wf) : SomeWf (s.screen h n port t) :=
  .ite (.some (State.portRecord_wf (State.addPurged_wf wf))) (.ite (.some (State.portRecord_wf (State.addPurged_wf wf)))
    (.ite (.some (State.addPurged_wf wf)) .none))

theorem State.admitHead_wf {n port sl c : Nat} (wf : s.Wf) : (s.admitHead n port sl c).Wf := by
  unfold State.admitHead
  dsimp only
  split
  · refine State.ite_wf ?_ ?_
    · split
      · exact State.ite_wf (State.enter_wf (State.setEntryq_wf wf)) (State.setEntryq_wf wf)
      · exact wf
    · split
      · rename_i e0
        exact State.setEntryq_wf (State.screen_wf wf _ e0)
      · refine State.ite_wf ?_ wf
        split
        · exact State.ite_wf (State.enter_wf (State.setEntryq_wf (State.moved_wf (State.bear_wf wf))))
            (State.setEntryq_wf (State.moved_wf (State.bear_wf wf)))
        · exact State.moved_wf (State.bear_wf wf)
  · exact wf

theorem State.offer_wf {n port sl : Nat} {t : Token} (wf : s.Wf) : (s.offer n port sl t).1.Wf := by
  unfold State.offer
  dsimp only
  split
  · exact wf
  · split
    · exact wf
    · split
      · rename_i e0
        exact State.screen_wf wf _ e0
      · split
        · exact wf
        · exact State.mk_wf wf

theorem State.admitPlace_wf {k c : Nat} (wf : s.Wf) : (s.admitPlace k c).1.Wf := by
  unfold State.admitPlace
  dsimp only
  split
  · split
    · rename_i e0
      exact State.putFrame_wf (State.setEnd_wf (State.screen_wf wf _ e0))
    · split
      · split
        · rename_i e1
          exact State.putFrame_wf (State.setEnd_wf (State.admitHead_wf (fst_wf e1 (State.offer_wf wf))))
        · rename_i e2
          exact fst_wf e2 (State.offer_wf wf)
      · exact wf
  · exact wf

theorem State.admitPlaces_wf {k c n : Nat} (wf : s.Wf) : (s.admitPlaces k c n).Wf := by
  induction n generalizing s with
  | zero => exact wf
  | succ n ih =>
    unfold State.admitPlaces
    split
    · next t e => exact ih (fst_wf e (State.admitPlace_wf wf))
    · next t e => exact fst_wf e (State.admitPlace_wf wf)

theorem execLinkTransfer_wf {e : ElemNum} {src : BitVec 3} {sl : BitVec 2} {c : BitVec 8} (wf : s.Wf) : OutWf
  (execLinkTransfer e src sl c s) := by
  unfold execLinkTransfer
  refine .next ?_
  dsimp only
  split
  · exact wf
  · refine State.ite_wf wf ?_
    refine State.ite_wf (State.setElem_wf wf) ?_
    refine State.ite_wf (State.addStale_wf (State.setElem_wf wf)) ?_
    split
    · exact State.addStale_wf (State.setElem_wf wf)
    · exact State.moved_wf (State.setElem_wf (State.setElem_wf wf))

theorem State.exitLeave_wf {n port sl c : Nat} (wf : s.Wf) : (s.exitLeave n port sl c).Wf := by
  unfold State.exitLeave
  dsimp only
  split
  · exact State.moved_wf (State.ite_wf (State.mk_wf wf) (State.mk_wf wf))
  · exact wf

theorem State.exitEmit_wf {n port sl c : Nat} (wf : s.Wf) : (s.exitEmit n port sl c).Wf := by
  unfold State.exitEmit
  dsimp only
  split
  · exact State.ite_wf (State.countSink_wf (State.exitLeave_wf wf)) (State.exitLeave_wf wf)
  · exact wf

theorem State.streamFault_wf {n i : Nat} {q : Stream} {code lvl : Nat} (wf : s.Wf) : (s.streamFault n i q code lvl).Wf :=
  State.recordAt_wf (State.setStream_wf wf)

theorem State.markRange_wf {h n : Nat} (wf : s.Wf) : (s.markRange h n).Wf := State.foldl_wf (fun _ _ => State.mark_wf) wf

theorem State.writeAs_wf {key h : Nat} {bs : List Byte} {bad : Bool} (wf : s.Wf) : (s.writeAs key h bs bad).Wf :=
  State.ite_wf (State.padNotify_wf (State.markRange_wf (State.clearMarks_wf (State.Wf.writeBytes wf)))) (State.Wf.write wf)

theorem State.streamWrite_wf {n i : Nat} {q : Stream} {t : Tr} {v : W32} {bad : Bool} (wf : s.Wf) : (s.streamWrite n i q t v bad).Wf :=
  State.ite_wf (State.sendWrite_wf wf) (State.writeAs_wf wf)

theorem State.portWrite_wf {n i : Nat} (wf : s.Wf) : (s.portWrite n i).Wf := by
  unfold State.portWrite
  refine State.ite_wf wf ?_
  refine State.ite_wf (State.setStream_wf wf) ?_
  dsimp only
  split
  · exact wf
  · refine State.ite_wf (State.setStream_wf (State.exitEmit_wf wf)) ?_
    refine State.ite_wf (State.setStream_wf (State.exitEmit_wf wf)) ?_
    refine State.ite_wf (State.setStream_wf (State.exitEmit_wf wf)) ?_
    split
    · exact State.streamFault_wf wf
    · exact State.setStream_wf (State.exitEmit_wf (State.streamWrite_wf wf))

theorem State.channelSend_wf {k c : Nat} (wf : s.Wf) : (s.channelSend k c).Wf := by
  unfold State.channelSend
  refine State.ite_wf (State.follow_wf wf) ?_
  dsimp only
  split
  · exact State.follow_wf wf
  · exact State.sendFrame_wf (State.setEnd_wf (State.exitLeave_wf (State.follow_wf wf)))

theorem State.egressTake_wf {n port sl c : Nat} (wf : s.Wf) : (s.egressTake n port sl c).Wf := by
  unfold State.egressTake
  refine State.ite_wf wf ?_
  dsimp only
  split
  · exact State.mk_wf (State.exitEmit_wf wf)
  · exact wf

theorem State.drainExit_wf {n port sl c : Nat} (wf : s.Wf) : (s.drainExit n port sl c).Wf := by
  unfold State.drainExit
  dsimp only
  split
  · exact State.portWrite_wf wf
  · exact State.channelSend_wf wf
  · exact State.ite_wf (State.egressTake_wf wf) wf

theorem execExitReorderEmit_wf {n : CoreNum} {port : BitVec 4} {sl : BitVec 2} {c : BitVec 8} (wf : s.Wf) : OutWf
  (execExitReorderEmit n port sl c s) := by
  unfold execExitReorderEmit
  refine .next ?_
  split
  · exact State.ite_wf (State.drainExit_wf wf) wf
  · exact wf

theorem execCountTokens_wf {e : ElemNum} (wf : s.Wf) : OutWf (execCountTokens e s) := by
  unfold execCountTokens
  refine .next ?_
  split
  · exact wf
  · split
    · exact State.leave_wf wf
    · exact wf

theorem State.reqEmit_wf {e k : Nat} {r : MReq} {l : List (Bool × Token)} (wf : s.Wf) : (s.reqEmit e k r l).Wf :=
  State.ite_wf (State.setElem_wf wf) (State.ite_wf wf (State.ite_wf (State.sinkOf_wf (State.outputs_wf (State.setElem_wf wf))) wf))

theorem State.reqPerform_wf {e : Nat} {r : MReq} (wf : s.Wf) : (s.reqPerform e r).1.Wf := by
  unfold State.reqPerform
  dsimp only
  split
  · split <;> exact wf
  · split <;> exact wf
  · split
    · exact wf
    · exact State.Wf.write wf
  · split
    · exact State.amoAt_wf wf
    · dsimp only
      exact State.openValue_wf (State.ite_wf (State.bankDrop_wf (State.amoAt_wf wf)) (State.amoAt_wf wf))

theorem execMElementReply_wf {e : ElemNum} {k : Nat} (wf : s.Wf) : OutWf (execMElementReply e k s) := by
  unfold execMElementReply
  refine .next ?_
  dsimp only
  split
  · exact wf
  · split
    · exact State.reqEmit_wf wf
    · refine State.ite_wf wf ?_
      refine State.ite_wf (State.ite_wf (State.setElem_wf wf) (State.elemFault_wf (State.setElem_wf wf))) ?_
      split
      · exact State.reqPerform_wf wf
      · exact State.reqEmit_wf (State.setElem_wf (State.reqPerform_wf wf))

theorem execRetire_wf {e : ElemNum} {sl : BitVec 2} {c : BitVec 8} {x : BitVec 10} (wf : s.Wf) : OutWf (execRetire e sl c x s) := by
  unfold execRetire
  refine .next ?_
  exact State.ite_wf (SomeWf.getD (State.retirePlain_wf wf) wf) wf

theorem execTreeStep_wf {e : ElemNum} {sl : BitVec 2} {c : BitVec 8} {x : BitVec 10} (wf : s.Wf) : OutWf (execTreeStep e sl c x s) := by
  unfold execTreeStep
  refine .next ?_
  exact State.ite_wf (SomeWf.getD (State.treeStep_wf wf) wf) wf

theorem State.vaneAsk_wf {n : Nat} {ps : List Page} {va : Nat} (wf : s.Wf) : (s.vaneAsk n ps va).Wf := by
  unfold State.vaneAsk
  dsimp only
  split
  · exact State.setCore_wf (State.giveUp_wf wf)
  · refine State.ite_wf wf ?_
    split
    · exact wf
    · exact State.sendRead_wf wf

theorem execVaneCommandPerform_wf {n : CoreNum} (wf : s.Wf) : OutWf (execVaneCommandPerform n s) := by
  unfold execVaneCommandPerform
  refine .next ?_
  split
  · exact wf
  · split
    · exact State.setCore_wf wf
    · split
      · exact State.vaneAsk_wf wf
      · exact State.vaneAsk_wf wf
      · exact wf

theorem State.freeTags_wf {h : Nat} {gone : List Key} (wf : s.Wf) : (s.freeTags h gone).Wf :=
  State.foldl_wf (fun _ _ w => State.ite_wf w (State.setSlot_wf w)) wf

theorem State.sweepRegion_wf {h : Nat} (wf : s.Wf) : (s.sweepRegion h).Wf := State.setRegion_wf (State.freeTags_wf wf)

theorem State.sweepContexts_wf {grid : Nat} (wf : s.Wf) : (s.sweepContexts grid).Wf := State.mk_wf wf

theorem execCalmSweep_wf {quad : Bool} {n : CoreNum} (wf : s.Wf) : OutWf (execCalmSweep quad n s) :=
  .next (State.foldl_wf (fun _ _ w2 => State.answerCalm_wf (State.ite_wf (State.tornEmpty_wf w2) w2))
    (State.sweepContexts_wf (State.foldl_wf (fun _ _ => State.sweepRegion_wf) wf)))

theorem execRemoteTimeout_wf {e : ElemNum} {k : Nat} (wf : s.Wf) : OutWf (execRemoteTimeout e k s) := by
  unfold execRemoteTimeout
  refine .next ?_
  dsimp only
  split
  · exact wf
  · exact State.ite_wf (State.elemFault_wf (State.setElem_wf wf)) wf

theorem State.deliverLoad_wf {c : LoadCmd} (wf : s.Wf) : (s.deliverLoad c).Wf := by
  unfold State.deliverLoad
  dsimp only
  split
  · exact State.ite_wf (State.loadRecord_wf (State.ite_wf (State.foldl_wf (fun _ _ => State.tearForce_wf) wf) wf))
      (State.markSections_wf (State.setRegion_wf (State.loadRecord_wf (State.ite_wf (State.foldl_wf (fun _ _ => State.tearForce_wf) wf)
      wf))))
  · exact State.setRegion_wf (State.mk_wf (State.ite_wf (State.foldl_wf (fun _ _ => State.tearForce_wf) wf) wf))

theorem State.deliverInject_wf {h : Nat} {b c : W64} (wf : s.Wf) : SomeWf (s.deliverInject h b c) := by
  unfold State.deliverInject
  dsimp only
  split
  · exact .some wf
  · exact .ite (.some wf) (.ite (.some (State.addPurged_wf wf)) (.ite (.some (State.ite_wf
      (State.countSink_wf (State.output_wf (State.setSlot_wf (State.bear_wf wf)))) (State.output_wf (State.setSlot_wf (State.bear_wf wf)))))
      .none))

theorem execLoadDelivery_wf {quad : Bool} {n : CoreNum} (wf : s.Wf) : OutWf (execLoadDelivery quad n s) := by
  unfold execLoadDelivery
  refine .next ?_
  dsimp only
  split
  · exact wf
  · exact State.deliverLoad_wf (State.mk_wf wf)
  · split
    · rename_i e0
      exact State.mk_wf (State.deliverInject_wf wf _ e0)
    · exact wf

theorem execElementWrite_wf {h : Handle} (wf : s.Wf) : OutWf (execElementWrite h s) := by
  unfold execElementWrite
  refine .next ?_
  refine State.ite_wf wf ?_
  dsimp only
  split
  · exact wf
  · exact State.ite_wf (State.endsFollow_wf (State.setRegion_wf (State.setSlot_wf (State.ite_wf (State.mk_wf wf) wf))))
      (State.setRegion_wf (State.setSlot_wf (State.ite_wf (State.mk_wf wf) wf)))

theorem execOneShotFree_wf {e : ElemNum} {sl : BitVec 2} (wf : s.Wf) : OutWf (execOneShotFree e sl s) :=
  .next (State.ite_wf (State.ite_wf (State.answerCalm_wf (State.markSections_wf
    (State.emptyRegion_wf (State.setRegion_wf (State.freeSlot_wf wf))))) (State.setRegion_wf (State.freeSlot_wf wf))) wf)

theorem State.takeNode_wf {n c : Nat} (wf : s.Wf) : (s.takeNode n c).1.Wf := by
  unfold State.takeNode
  split
  · rename_i e0
    exact snd_wf e0 (NetM.runOn_wf poolPop_wf wf)
  · rename_i e1
    exact snd_wf e1 (NetM.runOn_wf poolPop_wf wf)

theorem State.launchStarts_wf {t : Section} (wf : s.Wf) : (s.launchStarts t).Wf := by
  unfold State.launchStarts
  dsimp only
  split
  · exact wf
  · exact State.mk_wf wf

theorem execSectionStart_wf {n : CoreNum} {e : BitVec 4} (wf : s.Wf) : OutWf (execSectionStart n e s) := by
  unfold execSectionStart
  refine .next ?_
  refine State.ite_wf wf ?_
  refine State.ite_wf ?_ ?_
  · split
    · exact State.takeNode_wf wf
    · exact wf
  · refine State.launchStarts_wf ?_
    refine State.setSect_wf ?_
    refine State.setCore_wf ?_
    split
    · exact State.takeNode_wf wf
    · exact wf

theorem State.sectionStreams_wf {n e : Nat} {early : Bool} (wf : s.Wf) : (s.sectionStreams n e early).Wf := State.setCore_wf wf

theorem State.sendPut_wf {n e : Nat} {t : Section} {home st : Nat} (wf : s.Wf) : (s.sendPut n e t home st).Wf :=
  State.setSect_wf (State.mk_wf wf)

theorem State.completionRecord_wf {n : Nat} {t : Section} {code lvl : Nat} (wf : s.Wf) : (s.completionRecord n t code lvl).Wf :=
  State.recordAt_wf wf

theorem State.giveNode_wf {n c node : Nat} (wf : s.Wf) : (s.giveNode n c node).Wf := by
  unfold State.giveNode
  dsimp only
  split
  · rename_i e0
    exact snd_wf e0 (NetM.runOn_wf poolPush_wf wf)
  · refine State.setCore_wf ?_
    split
    · exact State.ite_wf wf (State.Wf.write (State.Wf.write wf))
    · exact wf

theorem fillNode_wf {k : NetCtx} {node hdr : Nat} {payload : List Nat} : (fillNode k node hdr payload).KeepsWf := by
  unfold fillNode
  exact .bind netWrite_wf (fun _ => .bind (.forM (fun _ => netWrite_wf)) (fun _ => .forM (fun _ => netWrite_wf)))

theorem doneNode_wf {k : NetCtx} {node target p tiles status entry : Nat} : (doneNode k node target p tiles status entry).KeepsWf := by
  unfold doneNode
  refine .bind fillNode_wf fun _ => ?_
  refine .bind netWrite_wf fun _ => ?_
  refine .bind netCas_wf fun _ => ?_
  dsimp only
  split
  · split
    · exact .bind (.update (fun _ => State.pushTail_wf)) (fun _ => .pure _)
    · exact .pure _
  · exact .pure _

theorem State.sendDone_wf {n e : Nat} {t : Section} {node st : Nat} (wf : s.Wf) : (s.sendDone n e t node st).Wf := by
  unfold State.sendDone
  refine State.ite_wf (State.freeSection_wf (State.giveNode_wf (State.completionRecord_wf wf))) ?_
  split
  · rename_i e0
    exact State.freeSection_wf (snd_wf e0 (NetM.runOn_wf doneNode_wf wf))
  · rename_i e1
    exact State.freeSection_wf (State.recordAt_wf (State.giveNode_wf (snd_wf e1 (NetM.runOn_wf doneNode_wf wf))))
  · rename_i e2
    exact State.freeSection_wf (State.giveNode_wf (State.completionRecord_wf (snd_wf e2 (NetM.runOn_wf doneNode_wf wf))))

theorem State.finishSection_wf {n e st : Nat} (wf : s.Wf) : (s.finishSection n e st).Wf := by
  unfold State.finishSection
  refine State.ite_wf ?_ ?_
  · split
    · exact State.takeNode_wf (State.tellLaunch_wf wf)
    · exact State.tellLaunch_wf wf
  · dsimp only
    split
    · split
      · refine State.sendPut_wf ?_
        refine State.foldl_wf (fun _ _ w => State.ite_wf (State.setRegion_wf w) w) ?_
        refine State.sectionStreams_wf ?_
        split
        · exact State.takeNode_wf (State.tellLaunch_wf wf)
        · exact State.tellLaunch_wf wf
      · refine State.freeSection_wf ?_
        refine State.completionRecord_wf ?_
        refine State.foldl_wf (fun _ _ w => State.ite_wf (State.setRegion_wf w) w) ?_
        refine State.sectionStreams_wf ?_
        split
        · exact State.takeNode_wf (State.tellLaunch_wf wf)
        · exact State.tellLaunch_wf wf
    · refine State.sendDone_wf ?_
      refine State.foldl_wf (fun _ _ w => State.ite_wf (State.setRegion_wf w) w) ?_
      refine State.sectionStreams_wf ?_
      split
      · exact State.takeNode_wf (State.tellLaunch_wf wf)
      · exact State.tellLaunch_wf wf
    · refine State.freeSection_wf ?_
      refine State.foldl_wf (fun _ _ w => State.ite_wf (State.setRegion_wf w) w) ?_
      refine State.sectionStreams_wf ?_
      split
      · exact State.takeNode_wf (State.tellLaunch_wf wf)
      · exact State.tellLaunch_wf wf

theorem execSectionEarlyEnd_wf {n : CoreNum} {e : BitVec 4} (wf : s.Wf) : OutWf (execSectionEarlyEnd n e s) := by
  unfold execSectionEarlyEnd
  refine .next ?_
  split
  · exact State.ite_wf (State.finishSection_wf wf) wf
  · exact wf

theorem execCompletionPutRetry_wf {n : CoreNum} {e : BitVec 4} (wf : s.Wf) : OutWf (execCompletionPutRetry n e s) := by
  unfold execCompletionPutRetry
  refine .next ?_
  split
  · exact State.ite_wf (State.sendPut_wf wf) wf
  · exact wf

theorem State.rowArrives_wf {n : Nat} {r : IslandRow} (wf : s.Wf) : (s.rowArrives n r).Wf := State.setCore_wf wf

theorem State.streamTake_wf {n i : Nat} {q : Stream} {v : W32} {bad : Bool} (wf : s.Wf) : (s.streamTake n i q v bad).Wf := by
  unfold State.streamTake
  dsimp only
  split
  · exact State.setStream_wf wf
  · refine State.ite_wf ?_ (State.setStream_wf wf)
    split
    · exact State.setStream_wf wf
    · exact State.rowArrives_wf (State.setStream_wf wf)
  · exact State.setStream_wf (State.writeAs_wf wf)

theorem State.emptyRow_wf {n i : Nat} {q : Stream} (wf : s.Wf) : (s.emptyRow n i q).Wf :=
  State.ite_wf (State.setStream_wf (State.freshBubble_wf wf)) (State.setStream_wf wf)

theorem State.streamAccess_wf {n i : Nat} (wf : s.Wf) : (s.streamAccess n i).Wf := by
  unfold State.streamAccess
  refine State.ite_wf wf ?_
  refine State.ite_wf (State.ite_wf (State.streamFault_wf (State.giveUp_wf wf)) wf) ?_
  dsimp only
  split
  · exact State.streamTake_wf wf
  · refine State.ite_wf wf ?_
    refine State.ite_wf (State.setStream_wf wf) ?_
    refine State.ite_wf (State.emptyRow_wf wf) ?_
    split
    · exact State.streamFault_wf wf
    · refine State.ite_wf (State.setStream_wf (State.streamWrite_wf wf)) ?_
      split
      · exact State.streamTake_wf wf
      · exact State.sendRead_wf wf

theorem execPortReadDelivery_wf {n : CoreNum} {i : BitVec 4} (wf : s.Wf) : OutWf (execPortReadDelivery n i s) := by
  unfold execPortReadDelivery
  refine .next ?_
  dsimp only
  split
  · exact wf
  · split
    · rename_i e0
      exact State.setStream_wf (fst_wf e0 (State.offer_wf wf))
    · rename_i e1
      exact State.setStream_wf (fst_wf e1 (State.offer_wf wf))
    · rename_i e2
      exact fst_wf e2 (State.offer_wf wf)

theorem execDoneAction_wf {n : CoreNum} {i : BitVec 4} (wf : s.Wf) : OutWf (execDoneAction n i s) := by
  unfold execDoneAction
  refine .next ?_
  dsimp only
  split
  · exact wf
  · refine State.ite_wf wf ?_
    refine State.ite_wf (State.padWrite32_wf (State.setStream_wf wf)) ?_
    split
    · rename_i e0
      exact State.setStream_wf (fst_wf e0 (State.offer_wf wf))
    · rename_i e1
      exact State.setStream_wf (State.setStream_wf (fst_wf e1 (State.offer_wf wf)))
    · rename_i e2
      exact fst_wf e2 (State.offer_wf wf)

theorem execIslandRow_wf {n : CoreNum} {k : BitVec 4} (wf : s.Wf) : OutWf (execIslandRow n k s) := by
  unfold execIslandRow
  refine .next ?_
  dsimp only
  split
  · exact wf
  · exact State.setIsland_wf wf

theorem State.offerIsl_wf {e sl : Nat} {t : Token} (wf : s.Wf) : (s.offerIsl e sl t).1.Wf := by
  unfold State.offerIsl
  dsimp only
  split
  · exact wf
  · split
    · exact wf
    · split
      · rename_i e0
        exact State.screen_wf wf _ e0
      · split
        · split
          · exact State.enter_wf (State.bear_wf wf)
          · exact wf
        · exact wf

theorem State.emitOne_wf {n : Nat} {e : Emission} {x : Nat} (wf : s.Wf) : (s.emitOne n e x).1.Wf := by
  unfold State.emitOne
  dsimp only
  split
  · exact wf
  · split
    · rename_i e0
      exact fst_wf e0 (State.offerIsl_wf wf)
    · rename_i e1
      exact State.setStream_wf (fst_wf e1 (State.offerIsl_wf wf))
    · rename_i e2
      exact fst_wf e2 (State.offerIsl_wf wf)

theorem execIslandEmit_wf {n : CoreNum} {k : BitVec 4} (wf : s.Wf) : OutWf (execIslandEmit n k s) := by
  refine .next ?_
  dsimp only
  split
  · exact wf
  · next e _ =>
    have sent : ((List.range 8).foldl (fun (r : State × Emission) x => r.1.emitOne n.toNat r.2 x) (s, e)).1.Wf :=
      State.foldl_fst_wf (fun _ _ => State.emitOne_wf) wf
    exact State.ite_wf (State.setIsland_wf sent) (State.setIsland_wf sent)

theorem State.orphan_wf {p port : Nat} {c : BitVec 8} (wf : s.Wf) : (s.orphan p port c).Wf := State.setSched_wf wf

theorem execHeadRecordServed_wf {p : PartNum} {port : BitVec 3} {c : BitVec 8} (wf : s.Wf) : OutWf (execHeadRecordServed p port c s) := by
  unfold execHeadRecordServed
  refine .next ?_
  dsimp only
  split
  · exact wf
  · exact State.ite_wf (State.trigger_wf (State.setSched_wf wf)) wf
  · refine State.ite_wf wf ?_
    refine State.ite_wf (State.orphan_wf wf) ?_
    split
    · rename_i e0
      exact State.setSched_wf (fst_wf e0 (State.offer_wf wf))
    · rename_i e1
      exact State.orphan_wf (fst_wf e1 (State.offer_wf wf))
    · rename_i e2
      exact fst_wf e2 (State.offer_wf wf)

theorem execOrphan_wf {p : PartNum} {port : BitVec 3} {c : BitVec 8} (wf : s.Wf) : OutWf (execOrphan p port c s) := by
  unfold execOrphan
  refine .next ?_
  split
  · exact State.ite_wf wf (State.orphan_wf wf)
  · exact wf

theorem State.abortLaunch_wf {p : Nat} {l : Launch} (wf : s.Wf) : (s.abortLaunch p l).Wf := by
  unfold State.abortLaunch
  refine State.launchDone_wf ?_
  dsimp only
  split
  · refine State.ite_wf ?_ ?_
    · refine State.foldl_wf (fun _ _ => State.purge_wf) ?_
      split
      · exact State.ite_wf (State.tear_wf (State.mk_wf wf)) (State.mk_wf wf)
      · exact wf
    · refine State.setSect_wf ?_
      refine State.foldl_wf (fun _ _ => State.purge_wf) ?_
      split
      · exact State.ite_wf (State.tear_wf (State.mk_wf wf)) (State.mk_wf wf)
      · exact wf
  · refine State.foldl_wf (fun _ _ => State.purge_wf) ?_
    split
    · exact State.ite_wf (State.tear_wf (State.mk_wf wf)) (State.mk_wf wf)
    · exact wf

theorem State.slotStart_wf {p n : Nat} (wf : s.Wf) : (s.slotStart p n).Wf := by
  unfold State.slotStart
  refine State.ite_wf wf ?_
  refine State.ite_wf (State.setSched_wf wf) ?_
  dsimp only
  split
  · exact State.ite_wf (State.setSched_wf (State.trigger_wf (State.abortLaunch_wf wf))) (State.setSched_wf wf)
  · exact State.setSched_wf (State.trigger_wf wf)

theorem execTimedSlotStart_wf {p : PartNum} {n : BitVec 4} (wf : s.Wf) : OutWf (execTimedSlotStart p n s) := by
  unfold execTimedSlotStart
  refine .next ?_
  dsimp only
  split
  · exact wf
  · exact State.ite_wf wf (State.slotStart_wf (State.setSched_wf wf))

theorem execAdmission_wf {p : PartNum} (wf : s.Wf) : OutWf (execAdmission p s) := by
  unfold execAdmission
  refine .next ?_
  split
  · exact State.ite_wf (State.setSched_wf wf) wf
  · exact wf

theorem State.setLaunch_wf {p : Nat} {l : Launch} (wf : s.Wf) : (s.setLaunch p l).Wf := State.setSched_wf wf

theorem State.useRegion_wf {p : Nat} {l : Launch} {h : Nat} (wf : s.Wf) : (s.useRegion p l h).Wf :=
  State.setLaunch_wf (State.setRegion_wf (State.mk_wf wf))

theorem State.loaderWait_wf {p : Nat} {l : Launch} {h : Nat} (wf : s.Wf) : (s.loaderWait p l h).Wf := by
  unfold State.loaderWait
  refine State.ite_wf wf ?_
  dsimp only
  split
  · exact State.launchDone_wf wf
  · exact State.ite_wf wf (State.launchDone_wf wf)
  · exact State.ite_wf (State.useRegion_wf wf) (State.ite_wf (State.tear_wf wf) (State.launchDone_wf wf))
  · exact State.ite_wf wf (State.launchDone_wf wf)
  · exact State.setLaunch_wf wf

theorem State.loaderFault_wf {p : Nat} {l : Launch} {e : XF} {addr : Option Nat} (wf : s.Wf) : (s.loaderFault p l e addr).Wf :=
  State.launchDone_wf (State.record_wf wf)

theorem State.launchAsk_wf {p : Nat} {l : Launch} {h : Nat} (wf : s.Wf) : SomeWf (s.launchAsk p l h) :=
  .ite .none (.ite (.some wf) (.some (State.sendRead_wf wf)))

theorem State.loaderStop_wf {p : Nat} {l : Launch} {e : XF} (wf : s.Wf) : (s.loaderStop p l e).Wf := by
  unfold State.loaderStop
  split
  · split
    · rename_i e0
      exact State.launchAsk_wf wf _ e0
    · exact State.loaderFault_wf (State.giveUp_wf wf)
  · exact State.loaderFault_wf wf

theorem State.loaderDeliver_wf {p : Nat} {l : Launch} {target h : Nat} {img : Image} (wf : s.Wf) : (s.loaderDeliver p l target h img).Wf :=
  by
  unfold State.loaderDeliver
  refine State.ite_wf (State.ite_wf wf (State.setLaunch_wf (State.mk_wf wf))) ?_
  dsimp only
  split
  · exact State.tear_wf wf
  · exact wf

theorem State.loaderImage_wf {p : Nat} {l : Launch} {at_ : Nat} {img tgt : W64} (wf : s.Wf) : (s.loaderImage p l at_ img tgt).Wf := by
  unfold State.loaderImage
  refine State.ite_wf (State.loaderFault_wf wf) ?_
  refine State.ite_wf (State.loaderFault_wf wf) ?_
  split
  · exact State.useRegion_wf wf
  · split
    · exact State.loaderStop_wf wf
    · exact State.loaderFault_wf wf
    · exact State.launchDone_wf (State.loadRecord_wf wf)
    · exact State.loaderDeliver_wf wf

theorem State.loaderEntry_wf {p : Nat} {l : Launch} (wf : s.Wf) : (s.loaderEntry p l).Wf := by
  unfold State.loaderEntry
  dsimp only
  split
  · exact State.loaderImage_wf wf
  · split
    · exact State.loaderStop_wf wf
    · exact State.loaderImage_wf (State.setLaunch_wf wf)

theorem execLoaderImage_wf {p : PartNum} (wf : s.Wf) : OutWf (execLoaderImage p s) := by
  unfold execLoaderImage
  refine .next ?_
  split
  · exact wf
  · split
    · exact State.loaderWait_wf wf
    · exact State.loaderEntry_wf wf

theorem execLaunchArm_wf {p : PartNum} {id : Nat} (wf : s.Wf) : OutWf (execLaunchArm p id s) := by
  unfold execLaunchArm
  refine .next ?_
  dsimp only
  split
  · exact wf
  · refine State.ite_wf wf ?_
    split
    · exact wf
    · refine State.ite_wf (State.launchDone_wf wf) ?_
      split
      · split
        · rename_i e0
          exact State.launchAsk_wf wf _ e0
        · exact State.launchDone_wf (State.giveUp_wf wf)
      · exact State.launchDone_wf wf
      · split
        · exact State.launchDone_wf wf
        · exact State.enterSection_wf (State.setLaunch_wf wf)

theorem rootPeer_wf {k : NetCtx} {root : Nat} : (rootPeer k root).KeepsWf := by
  unfold rootPeer
  exact .bind netRead_wf (fun _ => .pure _)

theorem State.rootPush_wf {p : Nat} {l : Launch} (wf : s.Wf) : (s.rootPush p l).Wf := by
  unfold State.rootPush
  refine State.ite_wf (State.launchDone_wf wf) ?_
  refine State.ite_wf wf ?_
  split
  · rename_i e0
    exact State.launchDone_wf (State.pushTail_wf (snd_wf e0 (NetM.runOn_wf rootPeer_wf wf)))
  · rename_i e1
    exact State.launchDone_wf (snd_wf e1 (NetM.runOn_wf rootPeer_wf wf))

theorem State.launchPair_wf {p : Nat} {l : Launch} (wf : s.Wf) : (s.launchPair p l).Wf := by
  unfold State.launchPair
  dsimp only
  split
  · rename_i e0
    exact fst_wf e0 (State.takeNode_wf wf)
  · rename_i e1
    split
    · rename_i e2
      exact State.setLaunch_wf (State.pushTail_wf (snd_wf e2 (NetM.runOn_wf fillNode_wf (fst_wf e1 (State.takeNode_wf wf)))))
    · rename_i e3
      exact State.launchDone_wf (State.giveNode_wf (State.netRecord_wf (snd_wf e3
        (NetM.runOn_wf fillNode_wf (fst_wf e1 (State.takeNode_wf wf))))))

theorem execLaunchPairPush_wf {p : PartNum} {id : Nat} (wf : s.Wf) : OutWf (execLaunchPairPush p id s) := by
  unfold execLaunchPairPush
  refine .next ?_
  split
  · exact wf
  · exact State.ite_wf wf (State.ite_wf (State.rootPush_wf wf) (State.ite_wf wf (State.launchPair_wf wf)))

theorem execLaunchCompletion_wf {p : PartNum} {id : Nat} (wf : s.Wf) : OutWf (execLaunchCompletion p id s) := by
  unfold execLaunchCompletion
  refine .next ?_
  split
  · exact wf
  · split
    · exact State.launchDone_wf wf
    · exact wf

theorem State.ptpHear_wf {port : BitVec 4} {domain : BitVec 8} {f : Ptp → Ptp} (wf : s.Wf) : (s.ptpHear port domain f).Wf :=
  State.ite_wf wf (State.mk_wf wf)

theorem State.channelFault_wf {k : Nat} {e : ChanEnd} (wf : s.Wf) : (s.channelFault k e).Wf := State.record_wf (State.endLeaves_wf wf)

theorem State.refuse_wf {p : Packet} (wf : s.Wf) : (s.refuse p).Wf := by
  unfold State.refuse
  refine State.ite_wf ?_ (State.ite_wf (State.setFlight_wf wf) wf)
  dsimp only
  split
  · exact State.channelFault_wf wf
  · exact wf

theorem State.dropFlight_wf {k : Nat} (wf : s.Wf) : (s.dropFlight k).Wf := State.setFlight_wf wf

theorem State.countShear_wf {p : Packet} {port : Nat} {shear again : Bool} (wf : s.Wf) : (s.countShear p port shear again).Wf :=
  State.setNet_wf wf

theorem State.pass_wf {p : Packet} {port queued : Nat} (wf : s.Wf) : (s.pass p port queued).1.Wf := by
  unfold State.pass
  dsimp only
  split
  · exact wf
  · exact State.ite_wf (State.countShear_wf wf) wf

theorem State.setDomain_wf {p d : Nat} {q : Domain} (wf : s.Wf) : (s.setDomain p d q).Wf := State.mk_wf wf

theorem execPacketForward_wf {k : Nat} {queued : BitVec 7} (wf : s.Wf) : OutWf (execPacketForward k queued s) := by
  unfold execPacketForward
  refine .next ?_
  dsimp only
  split
  · exact wf
  · refine State.ite_wf wf ?_
    split
    · exact State.refuse_wf (State.dropFlight_wf wf)
    · split
      · exact wf
      · split
        · exact State.ite_wf (State.refuse_wf (State.dropFlight_wf wf)) (State.setFlight_wf (State.pass_wf wf))
        · exact State.ite_wf wf (State.ite_wf (State.refuse_wf (State.dropFlight_wf wf))
            (State.ite_wf wf (State.mk_wf (State.setDomain_wf (State.dropFlight_wf (State.pass_wf wf))))))

theorem State.resend_wf {key : Nat} {f : Sent → Bool} (wf : s.Wf) : (s.resend key f).Wf := by
  unfold State.resend
  dsimp only
  split
  · exact wf
  · exact State.ite_wf wf (State.setFlight_wf (State.mk_wf wf))

theorem State.ackAgain_wf {p : Packet} (wf : s.Wf) : (s.ackAgain p).Wf := State.ite_wf wf (State.ack_wf wf)

theorem State.fillHole_wf {p : Packet} (wf : s.Wf) : (s.fillHole p).Wf := State.mk_wf wf

theorem State.setWindow_wf {p : Packet} {w : Window} (wf : s.Wf) : (s.setWindow p w).Wf := State.mk_wf wf

theorem State.addHole_wf {p : Packet} (wf : s.Wf) : (s.addHole p).Wf := State.mk_wf wf

theorem State.accept_wf {p : Packet} (wf : s.Wf) : (s.accept p).1.Wf := by
  unfold State.accept
  dsimp only
  split
  · exact State.ack_wf wf
  · split
    · exact State.addHole_wf wf
    · exact State.mk_wf wf

theorem State.drainWindow_wf {p : Packet} {n : Nat} (wf : s.Wf) : (s.drainWindow p n).Wf := by
  induction n generalizing s with
  | zero => exact wf
  | succ n ih =>
    unfold State.drainWindow
    dsimp only
    split
    · exact wf
    · split
      · next t e => exact ih (State.setWindow_wf (fst_wf e (State.accept_wf (State.setWindow_wf wf))))
      · next t e => exact fst_wf e (State.accept_wf (State.setWindow_wf wf))

theorem execPacketArrival_wf {k : Nat} (wf : s.Wf) : OutWf (execPacketArrival k s) := by
  unfold execPacketArrival
  refine .next ?_
  dsimp only
  split
  · exact wf
  · refine State.ite_wf wf ?_
    refine State.ite_wf (State.resend_wf (State.dropFlight_wf wf)) ?_
    refine State.ite_wf (State.dropFlight_wf wf) ?_
    refine State.ite_wf (State.ackAgain_wf (State.dropFlight_wf wf)) ?_
    refine State.ite_wf (State.drainWindow_wf (State.setWindow_wf (State.ack_wf (State.fillHole_wf (State.dropFlight_wf wf))))) ?_
    refine State.ite_wf (State.addHole_wf (State.fillHole_wf (State.dropFlight_wf wf))) ?_
    refine State.ite_wf (State.ite_wf (State.fillHole_wf (State.dropFlight_wf wf))
      (State.setWindow_wf (State.fillHole_wf (State.dropFlight_wf wf)))) ?_
    split
    · rename_i e0
      exact State.drainWindow_wf (State.setWindow_wf (fst_wf e0 (State.accept_wf (State.fillHole_wf (State.dropFlight_wf wf)))))
    · rename_i e1
      exact fst_wf e1 (State.accept_wf (State.fillHole_wf (State.dropFlight_wf wf)))

theorem execShearedHeader_wf {k : Nat} (wf : s.Wf) : OutWf (execShearedHeader k s) := by
  unfold execShearedHeader
  refine .next ?_
  dsimp only
  split
  · exact wf
  · exact State.ite_wf wf (State.ite_wf (State.ackAgain_wf (State.dropFlight_wf wf))
      (State.ite_wf (State.dropFlight_wf wf) (State.addHole_wf (State.dropFlight_wf wf))))

theorem execReRequest_wf {n : CoreNum} (wf : s.Wf) : OutWf (execReRequest n s) := by
  unfold execReRequest
  refine .next ?_
  dsimp only
  split
  · exact wf
  · exact State.setFlight_wf (State.mk_wf wf)

theorem State.freePlaces_wf {key : Nat} {gone : Sent → Bool} (wf : s.Wf) : (s.freePlaces key gone).Wf := State.mk_wf wf

theorem execAcknowledgement_wf {k : Nat} (wf : s.Wf) : OutWf (execAcknowledgement k s) := by
  unfold execAcknowledgement
  refine .next ?_
  dsimp only
  split
  · exact wf
  · refine State.ite_wf wf ?_
    split
    · exact State.ite_wf (State.record_wf (State.dropFlight_wf wf)) (State.dropFlight_wf wf)
    · exact State.ite_wf (State.record_wf (State.freePlaces_wf (State.dropFlight_wf wf))) (State.freePlaces_wf (State.dropFlight_wf wf))

theorem execRetransmitTimeout_wf {k : Nat} (wf : s.Wf) : OutWf (execRetransmitTimeout k s) := by
  unfold execRetransmitTimeout
  refine .next ?_
  dsimp only
  split
  · exact wf
  · exact State.ite_wf wf (State.ite_wf (State.resend_wf wf) (State.record_wf (State.freePlaces_wf wf)))

theorem State.dropDue_wf {k : Nat} (wf : s.Wf) : (s.dropDue k).Wf := State.mk_wf wf

theorem execRemoteRead_wf {k : Nat} (wf : s.Wf) : OutWf (execRemoteRead k s) := by
  unfold execRemoteRead
  refine .next ?_
  dsimp only
  split
  · exact wf
  · refine State.ite_wf wf ?_
    split
    · exact State.dropDue_wf wf
    · exact State.sendPacket_wf (State.dropDue_wf wf)

theorem execRemoteWrite_wf {k : Nat} (wf : s.Wf) : OutWf (execRemoteWrite k s) := by
  unfold execRemoteWrite
  refine .next ?_
  dsimp only
  split
  · exact wf
  · refine State.ite_wf wf ?_
    split
    · exact State.ack_wf (State.dropDue_wf wf)
    · exact State.ack_wf (State.writeAs_wf (State.dropDue_wf wf))

theorem State.giveReply_wf {r : RRead} {p : Packet} (wf : s.Wf) : (s.giveReply r p).Wf := by
  unfold State.giveReply
  dsimp only
  split
  · exact State.setCore_wf wf
  · split
    · exact wf
    · exact State.setCore_wf wf
  · exact State.setStream_wf wf
  · exact State.setCore_wf wf
  · exact State.setIsland_wf wf
  · exact State.setElem_wf wf
  · exact State.setSlot_wf wf
  · exact wf
  · exact State.mk_wf wf

theorem execReadReply_wf {k : Nat} (wf : s.Wf) : OutWf (execReadReply k s) := by
  unfold execReadReply
  refine .next ?_
  dsimp only
  split
  · exact wf
  · refine State.ite_wf wf ?_
    split
    · exact State.ack_wf (State.dropDue_wf wf)
    · exact State.giveReply_wf (State.mk_wf (State.ack_wf (State.dropDue_wf wf)))

theorem execRouteClassDelivery_wf {k : Nat} (wf : s.Wf) : OutWf (execRouteClassDelivery k s) := by
  unfold execRouteClassDelivery
  refine .next ?_
  dsimp only
  split
  · exact wf
  · exact State.ite_wf wf (State.ack_wf (State.padWrite32_wf (State.setCore_wf (State.writeAs_wf (State.Wf.write (State.dropDue_wf wf))))))

theorem State.sendReady_wf {k : Nat} (wf : s.Wf) : (s.sendReady k).Wf := State.sendFrame_wf (State.setEnd_wf wf)

theorem State.peerColours_wf {k : Nat} {e : ChanEnd} (wf : s.Wf) : (s.peerColours k e).1.Wf := by
  unfold State.peerColours
  split
  · exact State.mk_wf wf
  · exact wf

theorem execReadyFrame_wf {k : Nat} (wf : s.Wf) : OutWf (execReadyFrame k s) := by
  unfold execReadyFrame
  refine .next ?_
  dsimp only
  split
  · exact wf
  · refine State.ite_wf (State.follow_wf (State.dropFlight_wf wf)) ?_
    refine State.ite_wf (State.channelFault_wf (State.follow_wf (State.dropFlight_wf wf))) ?_
    refine State.ite_wf (State.follow_wf (State.dropFlight_wf wf)) ?_
    refine State.setEnd_wf ?_
    split
    · exact State.ite_wf (State.follow_wf (State.dropFlight_wf wf)) (State.sendReady_wf (State.follow_wf (State.dropFlight_wf wf)))
    · exact State.peerColours_wf (State.ite_wf (State.follow_wf (State.dropFlight_wf wf))
        (State.sendReady_wf (State.follow_wf (State.dropFlight_wf wf))))

theorem execTokenFrame_wf {k : Nat} (wf : s.Wf) : OutWf (execTokenFrame k s) := by
  unfold execTokenFrame
  refine .next ?_
  dsimp only
  split
  · exact wf
  · exact State.ite_wf (State.setEnd_wf (State.follow_wf (State.dropFlight_wf wf)))
      (State.foldl_wf (fun _ _ => State.admitPlaces_wf) (State.setEnd_wf (State.follow_wf (State.dropFlight_wf wf))))

theorem execCreditFrame_wf {k : Nat} (wf : s.Wf) : OutWf (execCreditFrame k s) := by
  unfold execCreditFrame
  refine .next ?_
  dsimp only
  split
  · exact wf
  · exact State.ite_wf (State.dropFlight_wf wf) (State.foldl_wf (fun _ _ w => State.ite_wf (State.countSink_wf w) w)
      (State.setEnd_wf (State.dropFlight_wf wf)))

theorem execCloseFrame_wf {k : Nat} (wf : s.Wf) : OutWf (execCloseFrame k s) := by
  unfold execCloseFrame
  refine .next ?_
  dsimp only
  split
  · exact wf
  · exact State.ite_wf (State.setEnd_wf (State.follow_wf (State.dropFlight_wf wf))) (State.follow_wf (State.dropFlight_wf wf))

theorem State.setLink_wf {p : Nat} {l : LinkState} (wf : s.Wf) : (s.setLink p l).Wf := State.mk_wf wf

theorem State.accept'_wf {slot : Option Nat} {m : TrustMsg} (wf : s.Wf) : (s.accept' slot m).Wf := State.mk_wf wf

theorem State.spdm_wf {m : Spdm} {req : SpdmReq} {f : State → State} (step : ∀ s, s.Wf → (f s).Wf) (wf : s.Wf) : OutWf (s.spdm m req f) :=
  .next (State.ite_wf wf (State.ite_wf (State.accept'_wf wf) (State.ite_wf (State.accept'_wf wf) (step _ wf))))

theorem State.reply'_wf {m : Spdm} {req : SpdmReq} {slot : Option Nat} {body : List Byte} (wf : s.Wf) : (s.reply' m req slot body).Wf :=
  State.accept'_wf wf

theorem State.refuse'_wf {m : Spdm} {req : SpdmReq} {e : SpdmError} (wf : s.Wf) : (s.refuse' m req e).Wf := State.accept'_wf wf

theorem State.seedKeys_wf {port : Nat} {secret : BitVec 256} (wf : s.Wf) : (s.seedKeys port secret).Wf :=
  State.foldl_wf (fun _ _ => State.setDomain_wf) wf

theorem State.setVf_wf {v : Nat} {q : Vf} (wf : s.Wf) : (s.setVf v q).Wf := State.mk_wf wf

theorem execFinish_wf {m : Spdm} (wf : s.Wf) : OutWf (execFinish m s) := by
  unfold execFinish
  refine State.spdm_wf ?_ wf
  intro _ w
  dsimp only
  split
  · exact State.refuse'_wf w
  · exact State.ite_wf (State.ite_wf (State.refuse'_wf (State.mk_wf w)) (State.ite_wf (State.reply'_wf (State.mk_wf w))
      (State.ite_wf (State.reply'_wf (State.seedKeys_wf (State.setLink_wf (State.mk_wf w)))) (State.reply'_wf (State.mk_wf w)))))
      (State.reply'_wf (State.setVf_wf (State.mk_wf w)))

theorem State.within_wf {m : Spdm} {req : SpdmReq} {f : State → State} (step : ∀ s, s.Wf → (f s).Wf) (wf : s.Wf) : (s.within m req f).Wf :=
  State.ite_wf (step _ wf) (State.refuse'_wf wf)

theorem execEndSession_wf {m : Spdm} (wf : s.Wf) : OutWf (execEndSession m s) :=
  State.spdm_wf (fun _ w1 => State.within_wf (fun _ w3 => State.ite_wf (State.ite_wf (State.reply'_wf (State.mk_wf (State.mk_wf w3)))
    (State.reply'_wf (State.ite_wf (State.setLink_wf w3) w3))) (State.reply'_wf (State.mk_wf (State.setVf_wf w3)))) w1) wf

theorem State.writeSlot_wf {w : Nat × Bool × List Byte} (wf : s.Wf) : (s.writeSlot w).Wf := State.mk_wf wf

theorem State.slotWrite_wf {w : Nat × Bool × List Byte} (wf : s.Wf) : (s.slotWrite w).Wf :=
  State.ite_wf (State.mk_wf wf) (State.writeSlot_wf wf)

theorem execGetCsr_wf {m : Spdm} (wf : s.Wf) : OutWf (execGetCsr m s) :=
  State.spdm_wf (fun _ w => State.ite_wf (State.reply'_wf w) (State.ite_wf (State.refuse'_wf w)
    (State.reply'_wf (State.slotWrite_wf (State.mk_wf w))))) wf

theorem State.tell_wf {v : Nat} {ok : Bool} {body : List Byte} (wf : s.Wf) : (s.tell v ok body).Wf := State.mk_wf wf

theorem State.tdispDo_wf {v : BitVec 6} {f : State → Vf → State} (step : ∀ s q, s.Wf → (f s q).Wf) (wf : s.Wf) : OutWf (s.tdispDo v f) :=
  .next (State.ite_wf wf (State.ite_wf (State.tell_wf wf) (step _ _ wf)))

theorem State.tdisp_wf {v : BitVec 6} {f : State → Vf → Option (State × List Byte)}
    (step : ∀ s q t b, f s q = some (t, b) → s.Wf → t.Wf) (wf : s.Wf) : OutWf (s.tdisp v f) := by
  refine State.tdispDo_wf (fun s q wf => ?_) wf
  split
  · next t b e => exact State.tell_wf (step s q t b e wf)
  · exact State.tell_wf wf

theorem execGetTdispVersion_wf {v : BitVec 6} (wf : s.Wf) : OutWf (execGetTdispVersion v s) :=
  State.tdisp_wf (fun _ _ _ _ e w => by cases e; exact w) wf

theorem execGetTdispCapabilities_wf {v : BitVec 6} (wf : s.Wf) : OutWf (execGetTdispCapabilities v s) :=
  State.tdisp_wf (fun _ _ _ _ e w => by cases e; exact w) wf

theorem execLockInterfaceRequest_wf {v : BitVec 6} (wf : s.Wf) : OutWf (execLockInterfaceRequest v s) := by
  refine State.tdisp_wf (fun s q t b e w => ?_) wf
  dsimp only at e
  split at e
  · cases e
    exact w
  · cases e

theorem execGetDeviceInterfaceReport_wf {v : BitVec 6} (wf : s.Wf) : OutWf (execGetDeviceInterfaceReport v s) :=
  State.tdisp_wf (fun _ _ _ _ e w => by cases e; exact w) wf

theorem execGetDeviceInterfaceState_wf {v : BitVec 6} (wf : s.Wf) : OutWf (execGetDeviceInterfaceState v s) :=
  State.tdisp_wf (fun _ _ _ _ e w => by cases e; exact w) wf

theorem execStartInterfaceRequest_wf {v : BitVec 6} {nonce : BitVec 256} (wf : s.Wf) : OutWf (execStartInterfaceRequest v nonce s) := by
  refine State.tdisp_wf (fun s q t b e w => ?_) wf
  split at e
  · cases e
    exact w
  · cases e

theorem State.scrubBegin_wf {c : Nat} (wf : s.Wf) : (s.scrubBegin c).1.Wf := by
  unfold State.scrubBegin
  dsimp only
  exact State.tlbiRemove_wf (State.foldl_wf (fun _ _ w => State.ite_wf (State.purge_wf w) w) (State.mk_wf wf))

theorem State.answer_wf {ok : Bool} (wf : s.Wf) : (s.answer ok).Wf := State.mk_wf wf

theorem State.stopEnd_wf {x : Stop} (wf : s.Wf) : (s.stopEnd x).Wf :=
  State.ite_wf (State.answer_wf (State.ite_wf (State.setVf_wf wf) (State.mk_wf (State.setVf_wf wf))))
    (State.tell_wf (State.ite_wf (State.setVf_wf wf) (State.mk_wf (State.setVf_wf wf))))

theorem State.stop_wf {v : Nat} {byManagement : Bool} (wf : s.Wf) : (s.stop v byManagement).Wf :=
  State.ite_wf (State.stopEnd_wf wf)
    (State.mk_wf (State.foldl_fst_wf (f := fun (r : State × List Scrub) c => ((r.1.scrubBegin c).1, r.2 ++ [(r.1.scrubBegin c).2]))
      (p := (s, [])) (fun _ _ => State.scrubBegin_wf) wf))

theorem State.managed_wf {f : State → State} (step : ∀ s, s.Wf → (f s).Wf) (wf : s.Wf) : (s.managed f).Wf := State.ite_wf (step _ wf) wf

theorem State.joined_wf {n : Nat} {q : Machine.Part} (wf : s.Wf) : (s.joined n q).Wf := State.ite_wf wf (State.mk_wf wf)

theorem State.thaw_wf {f : Nat → Vf → Bool} (wf : s.Wf) : (s.thaw f).Wf := State.mk_wf wf

theorem execPartWrite_wf {n : PartNum} {v : BitVec 256} (wf : s.Wf) : OutWf (execPartWrite n v s) :=
  .next (State.managed_wf (fun _ w => State.ite_wf (State.answer_wf w) (State.answer_wf
    (State.mk_wf (State.joined_wf (State.ite_wf w (State.thaw_wf w)))))) wf)

theorem execColourTableWrite_wf {c : BitVec 8} {v : BitVec 128} (wf : s.Wf) : OutWf (execColourTableWrite c v s) :=
  .next (State.managed_wf (fun _ w => State.ite_wf w (State.ite_wf (State.answer_wf w)
    (State.answer_wf (State.mk_wf (State.ite_wf w (State.thaw_wf w)))))) wf)

theorem State.dropAgentReads_wf {n : Nat} (wf : s.Wf) : (s.dropAgentReads n).Wf := State.mk_wf wf

theorem State.retag_wf {n : Nat} {tag : BitVec 16} (wf : s.Wf) : (s.retag n tag).Wf := by
  unfold State.retag
  refine State.ite_wf ?_ ?_
  · refine State.ite_wf (State.setCore_wf (State.dropAgentReads_wf (State.Wf.clearPad (State.l1DropAll_wf wf)))) ?_
    dsimp only
    split
    · exact State.mk_wf (State.setCore_wf (State.dropAgentReads_wf (State.Wf.clearPad (State.l1DropAll_wf wf))))
    · exact State.setCore_wf (State.dropAgentReads_wf (State.Wf.clearPad (State.l1DropAll_wf wf)))
  · refine State.thaw_wf ?_
    refine State.ite_wf (State.setCore_wf (State.dropAgentReads_wf (State.Wf.clearPad (State.l1DropAll_wf wf)))) ?_
    dsimp only
    split
    · exact State.mk_wf (State.setCore_wf (State.dropAgentReads_wf (State.Wf.clearPad (State.l1DropAll_wf wf))))
    · exact State.setCore_wf (State.dropAgentReads_wf (State.Wf.clearPad (State.l1DropAll_wf wf)))

theorem State.resetCore_wf {n : Nat} (wf : s.Wf) : (s.resetCore n).Wf :=
  State.setCore_wf (State.mk_wf (State.ringDeliver_wf (State.dropAgentReads_wf (State.Wf.clearPad (State.l1DropAll_wf wf)))))

theorem execOwnerTagWrite_wf {n : CoreNum} {tag : BitVec 16} (wf : s.Wf) : OutWf (execOwnerTagWrite n tag s) :=
  .next (State.managed_wf (fun _ w => State.ite_wf (State.answer_wf w) (State.answer_wf
    (State.ite_wf (State.resetCore_wf (State.retag_wf w)) (State.retag_wf w)))) wf)

theorem State.dropFrameLines_wf {frame : Nat} (wf : s.Wf) : (s.dropFrameLines frame).Wf := State.mk_wf wf

theorem execRetireCommand_wf {frame : BitVec 40} (wf : s.Wf) : OutWf (execRetireCommand frame s) :=
  .next (State.managed_wf (fun _ w => State.ite_wf (State.answer_wf w) (State.ite_wf (State.answer_wf w)
    (State.answer_wf (State.dropFrameLines_wf (State.mk_wf w))))) wf)

theorem State.takeKey_wf {n : Nat} {key : BitVec 512} (wf : s.Wf) : (s.takeKey n key).Wf := State.mk_wf (State.ite_wf (State.thaw_wf wf) wf)

theorem execKeyLoad_wf {shared : Bool} {n : BitVec 8} {key : BitVec 512} {session : Bool} (wf : s.Wf) : OutWf
  (execKeyLoad shared n key session s) := by
  unfold execKeyLoad
  refine .next ?_
  refine State.ite_wf ?_ (State.managed_wf (fun _ w => State.ite_wf w (State.ite_wf (State.answer_wf w)
    (State.ite_wf (State.ite_wf (State.answer_wf (State.mk_wf w)) (State.answer_wf w))
    (State.ite_wf (State.answer_wf w) (State.answer_wf (State.takeKey_wf w)))))) wf)
  split
  · exact wf
  · exact State.ite_wf wf (State.ite_wf (State.tell_wf wf) (State.tell_wf (State.takeKey_wf wf)))

theorem execSealRange_wf {colour : BitVec 8} {va len : W64} (wf : s.Wf) : OutWf (execSealRange colour va len s) := by
  unfold execSealRange
  refine .next ?_
  refine State.managed_wf ?_ wf
  intro _ w
  refine State.ite_wf (State.answer_wf w) ?_
  dsimp only
  split
  · exact State.answer_wf w
  · exact State.answer_wf (State.mk_wf w)

theorem State.countUe_wf {h : Nat} (wf : s.Wf) : (s.countUe h).Wf := State.mk_wf wf

theorem State.memError_wf {h : Nat} (wf : s.Wf) : (s.memError h).Wf :=
  State.ite_wf wf (State.ite_wf (State.countUe_wf (State.mk_wf wf)) (State.mk_wf wf))

theorem State.kept_wf (wf : t.Wf) : (s.kept t).Wf := State.mk_wf wf

theorem execThrottle_wf (wf : s.Wf) : OutWf (execThrottle s) := by
  unfold execThrottle
  refine .next ?_
  split
  · exact State.mk_wf (State.mk_wf wf)
  · exact State.ite_wf (State.mk_wf (State.mk_wf wf)) (State.mk_wf wf)
  · exact State.mk_wf wf

theorem State.retireNow_wf {f : Nat} (wf : s.Wf) : (s.retireNow f).Wf :=
  State.dropFrameLines_wf (State.ite_wf (State.mk_wf wf) (State.mk_wf wf))

theorem execReleaseScrub_wf {channel : Bool} {n : BitVec 7} (wf : s.Wf) : OutWf (execReleaseScrub channel n s) :=
  .next (State.managed_wf (fun _ w1 => State.ite_wf (State.answer_wf (State.mk_wf
    (Mem.filter_wf _ _ (State.foldl_wf (fun _ _ => State.retireNow_wf) w1)))) (State.ite_wf (State.answer_wf w1)
    (State.answer_wf (State.mk_wf (Mem.filter_wf _ _ w1))))) wf)

theorem execHostEgressDelivery_wf {p : PartNum} {port : BitVec 3} (wf : s.Wf) : OutWf (execHostEgressDelivery p port s) := by
  unfold execHostEgressDelivery
  refine .next ?_
  refine State.ite_wf wf ?_
  split
  · exact State.egressTake_wf wf
  · exact wf

theorem exec_wf {i : Instr} (wf : s.Wf) : OutWf (exec i s) := by
  unfold exec
  cases i with
  | add => exact intForm_wf wf
  | sub => exact intForm_wf wf
  | mul => exact intForm_wf wf
  | mulh => exact intForm_wf wf
  | div => exact intForm_wf wf
  | rem => exact intForm_wf wf
  | and => exact plain_wf (fun _ => State.setX_wf) wf
  | or => exact plain_wf (fun _ => State.setX_wf) wf
  | xor => exact plain_wf (fun _ => State.setX_wf) wf
  | shl => exact shiftForm_wf wf
  | shr => exact shiftForm_wf wf
  | sar => exact shiftForm_wf wf
  | min => exact intForm_wf wf
  | max => exact intForm_wf wf
  | cmp => exact intForm_wf wf
  | sel => exact plain_wf (fun _ => State.setX_wf) wf
  | pcmp => exact plain_wf (fun _ => State.setP_wf) wf
  | plog => exact plain_wf (fun _ => State.setP_wf) wf
  | pmov => exact execPmov_wf wf
  | lreg => exact execLreg_wf wf
  | fadd => exact fpForm_wf wf
  | fsub => exact fpForm_wf wf
  | fmul => exact fpForm_wf wf
  | fdiv => exact fpForm_wf wf
  | fma => exact fpForm_wf wf
  | fmin => exact fpForm_wf wf
  | fmax => exact fpForm_wf wf
  | fcmp => exact plain_wf (fun _ => State.setX_wf) wf
  | fcvt => exact cvtForm_wf wf
  | frsqs => exact cvtForm_wf wf
  | frcps => exact cvtForm_wf wf
  | cpy => exact execCpy_wf wf
  | cpy2 => exact execCpy2_wf wf
  | mfc => exact execMfc_wf wf
  | colqRd => exact execColqRd_wf wf
  | colqOpen => exact colqForm_wf wf
  | colqClose => exact colqForm_wf wf
  | rpurge => exact execRpurge_wf wf
  | rload => exact execRload_wf wf
  | rarm => exact execRarm_wf wf
  | rcalm => exact execRcalm_wf wf
  | rtear => exact checked_wf (fun _ w => .ite (.error _) (.ok (State.hold_wf w))) wf
  | rinj => exact checked_wf (fun _ w => .ite (.error _) (.ite (.error _) (.ok (State.hold_wf w)))) wf
  | vnset => exact execVnset_wf wf
  | steerset => exact execSteerset_wf wf
  | vnrd => exact checked_wf (fun _ w => .ite (.error _) (.ok (State.setX_wf w))) wf
  | msend => exact execMsend_wf wf
  | mmask => exact plain_wf (fun _ => State.hold_wf) wf
  | munmask => exact plain_wf (fun _ => State.hold_wf) wf
  | mrecvPop => exact plain_wf (fun _ w => State.hold_wf (State.setX_wf w)) wf
  | mrecvCfg => exact checked_wf (fun _ w => .ite (.ok (State.hold_wf w)) (.error _)) wf
  | mrecvSt => exact plain_wf (fun _ => State.setX_wf) wf
  | mrecvFree => exact plain_wf (fun _ => State.hold_wf) wf
  | addi => exact immForm_wf wf
  | andi => exact immForm_wf wf
  | ori => exact immForm_wf wf
  | xori => exact immForm_wf wf
  | shli => exact immForm_wf wf
  | shri => exact immForm_wf wf
  | sari => exact immForm_wf wf
  | movi => exact immForm_wf wf
  | movhi => exact plain_wf (fun _ => State.setX_wf) wf
  | br => exact plain_wf (fun _ => transfer_wf) wf
  | brr => exact plain_wf (fun _ => transfer_wf) wf
  | call => exact plain_wf (fun _ => transfer_wf) wf
  | callr => exact plain_wf (fun _ => transfer_wf) wf
  | ret => exact plain_wf (fun _ => transfer_wf) wf
  | loop => exact checked_wf (fun _ w => .ite (.error _) (.ite (.ok (State.exitTo_wf w))
    (.ite (.error _) (.ok (State.exitTo_wf (State.setW_wf w)))))) wf
  | lea => exact plain_wf (fun _ => State.setX_wf) wf
  | vld => exact vloadForm_wf wf
  | vst => exact vstoreForm_wf wf
  | vgath => exact vloadForm_wf wf
  | vscat => exact vstoreForm_wf wf
  | ld => exact checked_wf (fun _ => loadForm_wf) wf
  | st => exact execSt_wf wf
  | lda => exact checked_wf (fun _ w => loadForm_wf (State.ite_wf (State.l1DropAll_wf w) w)) wf
  | stl => exact execStl_wf wf
  | ldf => exact execLdf_wf wf
  | pf => exact plain_wf (fun _ w => w) wf
  | cflush => exact maintForm_wf wf
  | cinv => exact maintForm_wf wf
  | invalCb => exact checked_wf (fun _ w => .ite (.ok (State.setMe_wf w)) (.ite (.error _) (.ok (State.setMe_wf w)))) wf
  | waita => exact execWaita_wf wf
  | amo => exact bankForm_wf wf
  | amof => exact bankForm_wf wf
  | cas => exact bankForm_wf wf
  | red => exact bankForm_wf wf
  | redf => exact bankForm_wf wf
  | bupd => exact execBupd_wf wf
  | bfill => exact execBfill_wf wf
  | take => exact presForm_wf wf
  | put => exact presForm_wf wf
  | rdf => exact presForm_wf wf
  | clrp => exact execClrp_wf wf
  | pstat => exact execPstat_wf wf
  | ldsc => exact execLdsc_wf wf
  | stsc => exact execStsc_wf wf
  | amoSc => exact bankForm_wf wf
  | casSc => exact bankForm_wf wf
  | vadd => exact vintForm_wf wf
  | vsub => exact vintForm_wf wf
  | vmul => exact vintForm_wf wf
  | vmin => exact vintForm_wf wf
  | vmax => exact vintForm_wf wf
  | vand => exact laneForm_wf wf
  | vor => exact laneForm_wf wf
  | vxor => exact laneForm_wf wf
  | vshl => exact vshiftForm_wf wf
  | vshr => exact vshiftForm_wf wf
  | vsar => exact vshiftForm_wf wf
  | vfadd => exact vfpForm_wf wf
  | vfsub => exact vfpForm_wf wf
  | vfmul => exact vfpForm_wf wf
  | vfma => exact vfpForm_wf wf
  | vfmin => exact vfpForm_wf wf
  | vfmax => exact vfpForm_wf wf
  | vcmp => exact plain_wf (fun _ => State.setP_wf) wf
  | vsel => exact plain_wf (fun _ => State.setV_wf) wf
  | vred => exact plain_wf (fun _ => State.setX_wf) wf
  | vperm => exact laneForm_wf wf
  | vbcast => exact laneForm_wf wf
  | vext => exact plain_wf (fun _ => State.setX_wf) wf
  | vins => exact plain_wf (fun _ => State.setV_wf) wf
  | vcvt => exact plain_wf (fun _ w => State.setV_wf (State.setW_wf w)) wf
  | vrsqs => exact vseedForm_wf wf
  | vrcps => exact vseedForm_wf wf
  | wload => exact checked_wf (fun _ w => .ite (.error _) (.ite (.error _) (.ok (State.hold_wf w)))) wf
  | mscl => exact checked_wf (fun _ w => .ite (.error _) (.ite (.error _) (.ok (State.hold_wf w)))) wf
  | mma => exact checked_wf (fun _ w => .ite (.error _) (.ite (.error _) (.ite (.error _) (.ite (.error _) (.ok (State.hold_wf w)))))) wf
  | mmas => exact checked_wf (fun _ w => .ite (.error _) (.ite (.error _) (.ite (.error _) (.ok (State.hold_wf w))))) wf
  | aclr => exact checked_wf (fun _ w => .ite (.ok (State.hold_wf w)) (.ite (.error _) (.ok (State.hold_wf w)))) wf
  | ard => exact execArd_wf wf
  | awr => exact checked_wf (fun _ w => .ite (.ite (.error _) (.ok (State.hold_wf w)))
    (.ite (.error _) (.ite (.error _) (.ok (State.hold_wf w))))) wf
  | asave => exact execAsave_wf wf
  | sbind => exact execSbind_wf wf
  | sstart => exact execSstart_wf wf
  | sclose => exact plain_wf (fun _ => State.hold_wf) wf
  | sbar => exact plain_wf (fun _ w1 => State.waitOn_wf (State.ite_wf (State.foldl_wf (fun _ _ => State.setMe_wf)
    (State.l1WriteBackAll_wf w1)) w1)) wf
  | spos => exact checked_wf (fun _ w => .ite (.ok (State.setX_wf w)) (.ite (.ok (State.setX_wf w))
    (.ite (.error _) (.ite (.error _) (.ok (State.hold_wf w)))))) wf
  | sdone => exact execSdone_wf wf
  | nalloc => exact execNalloc_wf wf
  | nfree => exact execNfree_wf wf
  | nld => exact execNld_wf wf
  | nst => exact execNst_wf wf
  | nlink => exact execNlink_wf wf
  | npush => exact execNpush_wf wf
  | npop => exact execNpop_wf wf
  | nruleLook => exact execNruleLook_wf wf
  | nruleSet => exact execNruleSet_wf wf
  | nruleInv => exact plain_wf (fun _ => State.hold_wf) wf
  | statrd => exact plain_wf (fun _ w => State.ite_wf (State.setW_wf (State.setX_wf w)) (State.setX_wf w)) wf
  | fence => exact execFence_wf wf
  | tlbi => exact execTlbi_wf wf
  | tlbw => exact checked_wf (fun _ w => .ite (.error _) (.ok (State.setX_wf w))) wf
  | trap => exact checked_wf (fun _ _ => .error _) wf
  | eret => exact plain_wf (fun _ => State.exitTo_wf) wf
  | mfs => exact plain_wf (fun _ => State.setX_wf) wf
  | mts => exact execMts_wf wf
  | sysc => exact plain_wf (fun _ => State.exitTo_wf) wf
  | bkpt => exact checked_wf (fun _ w => .ite (.error _) (.ok w)) wf
  | halt => exact plain_wf (fun _ => State.exitTo_wf) wf
  | rsave => exact execRsave_wf wf
  | rrest => exact execRrest_wf wf
  | passE => exact elemTurn_wf (fun _ _ _ _ => noExtra_wf) (fun _ _ _ _ => State.fireOut_wf) wf
  | constE => exact elemTurn_wf (fun _ _ _ _ => noExtra_wf) (fun _ _ _ _ w => State.ite_wf (State.fireOut_wf (State.freshBubble_wf w))
    (State.fireOut_wf w)) wf
  | steerE => exact execSteerE_wf wf
  | mergeE => exact execMergeE_wf wf
  | loopE => exact execLoopE_wf wf
  | callE => exact execCallE_wf wf
  | retE => exact execRetE_wf wf
  | addE => exact intElem_wf wf
  | subE => exact intElem_wf wf
  | mulE => exact intElem_wf wf
  | minE => exact intElem_wf wf
  | maxE => exact intElem_wf wf
  | andE => exact intElem_wf wf
  | orE => exact intElem_wf wf
  | xorE => exact intElem_wf wf
  | shlE => exact intElem_wf wf
  | shrE => exact intElem_wf wf
  | cmpE => exact intElem_wf wf
  | selE => exact elemTurn_wf (fun _ _ _ _ => noExtra_wf) (fun _ _ _ _ => State.fireValue_wf) wf
  | faddE => exact elemTurn_wf (fun _ _ _ _ => noExtra_wf) (fun _ _ _ _ => State.fireConv_wf) wf
  | fsubE => exact elemTurn_wf (fun _ _ _ _ => noExtra_wf) (fun _ _ _ _ => State.fireConv_wf) wf
  | fmulE => exact elemTurn_wf (fun _ _ _ _ => noExtra_wf) (fun _ _ _ _ => State.fireConv_wf) wf
  | fmaE => exact elemTurn_wf (fun _ _ _ _ => noExtra_wf) (fun _ _ _ _ => State.fireConv_wf) wf
  | fminE => exact minMaxElem_wf wf
  | fmaxE => exact minMaxElem_wf wf
  | fcmpE => exact elemTurn_wf (fun _ _ _ _ => noExtra_wf) (fun _ _ _ _ => State.fireValue_wf) wf
  | cvtE => exact execCvtE_wf wf
  | accE => exact execAccE_wf wf
  | mloadE => exact memElem_wf wf
  | mstoreE => exact memElem_wf wf
  | mrmwE => exact memElem_wf wf
  | sdivE => exact elemTurn_wf (fun _ _ _ _ => noExtra_wf) (fun _ _ _ _ => State.fireConv_wf) wf
  | sexp2E => exact elemTurn_wf (fun _ _ _ _ => noExtra_wf) (fun _ _ _ _ => State.fireConv_wf) wf
  | slog2E => exact elemTurn_wf (fun _ _ _ _ => noExtra_wf) (fun _ _ _ _ => State.fireConv_wf) wf
  | ssinE => exact elemTurn_wf (fun _ _ _ _ => noExtra_wf) (fun _ _ _ _ => State.fireConv_wf) wf
  | stabE => exact elemTurn_wf (fun _ _ _ _ => noExtra_wf) (fun _ _ _ _ => State.fireValue_wf) wf
  | statE => exact execStatE_wf wf
  | commitE => exact elemTurn_wf (fun _ _ _ => State.commitTurn_wf) (fun _ _ _ _ w8 => w8) wf
  | routeE => exact elemTurn_wf (fun _ _ _ _ => noExtra_wf) (fun _ _ _ _ w => State.outputs_wf (State.setRow_wf (State.consume_wf w))) wf
  | spaddE => exact execSpaddE_wf wf
  | topkE => exact execTopkE_wf wf
  | cumsE => exact execCumsE_wf wf
  | drawE => exact elemTurn_wf (fun _ _ _ _ => noExtra_wf) (fun _ _ _ _ => State.fireValue_wf) wf
  | penalE => exact elemTurn_wf (fun _ _ _ _ => noExtra_wf) (fun _ _ _ _ => State.fireValue_wf) wf
  | adptE => exact execAdptE_wf wf
  | vaneE => exact execVaneE_wf wf
  | islandCommandPerform => exact execIslandCommandPerform_wf wf
  | waitAnswer => exact .next (State.asCore_wf (fun _ => State.tryAnswer_wf) wf)
  | waitCancel => exact execWaitCancel_wf wf
  | bankReply => exact execBankReply_wf wf
  | interruptTaken => exact .next (State.takeInterrupt_wf wf)
  | remoteLoadTimeout => exact execRemoteLoadTimeout_wf wf
  | l1WriteBack => exact execL1WriteBack_wf wf
  | engineCommand => exact execEngineCommand_wf wf
  | bankOperation => exact execBankOperation_wf wf
  | presenceArrive => exact execPresenceArrive_wf wf
  | presenceCancel => exact execPresenceCancel_wf wf
  | tradeTokenArrival => exact execTradeTokenArrival_wf wf
  | lineWrite => exact execLineWrite_wf wf
  | entryPortAdmit => exact .next (State.foldl_wf (fun _ _ => State.admitHead_wf) wf)
  | heldTokenAdmit => exact .next (State.foldl_wf (fun _ _ => State.admitPlaces_wf) (State.admitHead_wf wf))
  | linkTransfer => exact execLinkTransfer_wf wf
  | exitReorderEmit => exact execExitReorderEmit_wf wf
  | countTokens => exact execCountTokens_wf wf
  | mElementReply => exact execMElementReply_wf wf
  | retire => exact execRetire_wf wf
  | treeStep => exact execTreeStep_wf wf
  | vaneCommandPerform => exact execVaneCommandPerform_wf wf
  | calmSweep => exact execCalmSweep_wf wf
  | doldrums => exact .next (State.ite_wf (State.purge_wf (State.setRegion_wf (State.recordAt_wf wf))) wf)
  | purgeEnd => exact .next (State.ite_wf (State.markSections_wf (State.setRegion_wf (State.mk_wf wf))) wf)
  | remoteTimeout => exact execRemoteTimeout_wf wf
  | loadDelivery => exact execLoadDelivery_wf wf
  | elementWrite => exact execElementWrite_wf wf
  | oneShotFree => exact execOneShotFree_wf wf
  | sectionStart => exact execSectionStart_wf wf
  | sectionRelease => exact .next (State.ite_wf (State.finishSection_wf wf) wf)
  | sectionEarlyEnd => exact execSectionEarlyEnd_wf wf
  | completionPutRetry => exact execCompletionPutRetry_wf wf
  | streamAccess => exact .next (State.streamAccess_wf wf)
  | portWriteToken => exact .next (State.portWrite_wf wf)
  | portReadDelivery => exact execPortReadDelivery_wf wf
  | doneAction => exact execDoneAction_wf wf
  | islandRow => exact execIslandRow_wf wf
  | islandEmit => exact execIslandEmit_wf wf
  | ingressRecord => exact .next (State.ite_wf wf (State.setSched_wf wf))
  | headRecordServed => exact execHeadRecordServed_wf wf
  | orphan => exact execOrphan_wf wf
  | timedSlotStart => exact execTimedSlotStart_wf wf
  | admission => exact execAdmission_wf wf
  | loaderImage => exact execLoaderImage_wf wf
  | launchArm => exact execLaunchArm_wf wf
  | launchPairPush => exact execLaunchPairPush_wf wf
  | launchCompletion => exact execLaunchCompletion_wf wf
  | ptpEventMessage => exact .next (State.ptpHear_wf wf)
  | servoCorrection => exact .next (State.ite_wf wf (State.ite_wf (State.mk_wf wf) (State.mk_wf wf)))
  | dispatch => exact .next (State.dispatch_wf wf)
  | packetForward => exact execPacketForward_wf wf
  | packetArrival => exact execPacketArrival_wf wf
  | shearedHeader => exact execShearedHeader_wf wf
  | reRequest => exact execReRequest_wf wf
  | acknowledgement => exact execAcknowledgement_wf wf
  | retransmitTimeout => exact execRetransmitTimeout_wf wf
  | remoteRead => exact execRemoteRead_wf wf
  | remoteWrite => exact execRemoteWrite_wf wf
  | readReply => exact execReadReply_wf wf
  | routeClassDelivery => exact execRouteClassDelivery_wf wf
  | readyFrame => exact execReadyFrame_wf wf
  | readyResend => exact .next (State.ite_wf (State.sendReady_wf (State.follow_wf wf)) (State.follow_wf wf))
  | tokenFrame => exact execTokenFrame_wf wf
  | creditFrame => exact execCreditFrame_wf wf
  | closeFrame => exact execCloseFrame_wf wf
  | channelTokenSend => exact .next (State.channelSend_wf wf)
  | authfail => exact .next (State.ite_wf wf (State.setDomain_wf wf))
  | linkTrained => exact .next (State.ite_wf (State.setLink_wf wf) wf)
  | lossOfSignal => exact .next (State.ite_wf (State.mk_wf (State.setLink_wf wf)) (State.setLink_wf wf))
  | getVersion => exact State.spdm_wf (fun _ => State.reply'_wf) wf
  | getCapabilities => exact State.spdm_wf (fun _ => State.reply'_wf) wf
  | negotiateAlgorithms => exact State.spdm_wf (fun _ w => State.ite_wf (State.reply'_wf w) (State.refuse'_wf w)) wf
  | getDigests => exact State.spdm_wf (fun _ => State.reply'_wf) wf
  | getCertificate => exact State.spdm_wf (fun _ => State.reply'_wf) wf
  | challenge => exact State.spdm_wf (fun _ => State.reply'_wf) wf
  | getMeasurements => exact State.spdm_wf (fun _ => State.reply'_wf) wf
  | keyExchange => exact State.spdm_wf (fun _ w => State.ite_wf (State.refuse'_wf w)
    (State.ite_wf (State.refuse'_wf w) (State.reply'_wf (State.mk_wf w)))) wf
  | finish => exact execFinish_wf wf
  | heartbeat => exact State.spdm_wf (fun _ w1 => State.within_wf (fun _ => State.reply'_wf) w1) wf
  | keyUpdate => exact State.spdm_wf (fun _ w1 => State.within_wf (fun _ => State.reply'_wf) w1) wf
  | endSession => exact execEndSession_wf wf
  | setCertificate => exact State.spdm_wf (fun _ w => State.ite_wf (State.refuse'_wf w) (State.reply'_wf (State.slotWrite_wf w))) wf
  | getCsr => exact execGetCsr_wf wf
  | chunkSend => exact State.spdm_wf (fun _ => State.reply'_wf) wf
  | chunkGet => exact State.spdm_wf (fun _ => State.reply'_wf) wf
  | vendorDefinedRequest => exact State.spdm_wf (fun _ w => State.ite_wf (State.mk_wf w) (State.refuse'_wf w)) wf
  | getTdispVersion => exact execGetTdispVersion_wf wf
  | getTdispCapabilities => exact execGetTdispCapabilities_wf wf
  | lockInterfaceRequest => exact execLockInterfaceRequest_wf wf
  | getDeviceInterfaceReport => exact execGetDeviceInterfaceReport_wf wf
  | getDeviceInterfaceState => exact execGetDeviceInterfaceState_wf wf
  | startInterfaceRequest => exact execStartInterfaceRequest_wf wf
  | stopInterfaceRequest => exact State.tdispDo_wf (fun _ _ w => State.ite_wf (State.tell_wf w) (State.stop_wf w)) wf
  | frozenSetChange => exact .next (State.ite_wf (State.setVf_wf wf) wf)
  | partWrite => exact execPartWrite_wf wf
  | vfWrite => exact .next (State.managed_wf (fun _ w => State.answer_wf (State.setVf_wf (State.ite_wf w (State.thaw_wf w)))) wf)
  | lpermWrite => exact .next (State.managed_wf (fun _ w => State.answer_wf (State.mk_wf (State.ite_wf w (State.thaw_wf w)))) wf)
  | colourTableWrite => exact execColourTableWrite_wf wf
  | ownerTagWrite => exact execOwnerTagWrite_wf wf
  | startCommand => exact .next (State.managed_wf (fun _ w => State.ite_wf (State.answer_wf w)
    (State.answer_wf (State.setCore_wf (State.retag_wf w)))) wf)
  | coreReset => exact .next (State.managed_wf (fun _ w => State.ite_wf (State.answer_wf (State.resetCore_wf w)) (State.answer_wf w)) wf)
  | retireCommand => exact execRetireCommand_wf wf
  | keyLoad => exact execKeyLoad_wf wf
  | linkKeyLoad => exact .next (State.managed_wf (fun _ w => State.ite_wf (State.answer_wf w) (State.answer_wf (State.setDomain_wf w))) wf)
  | lkstatWrite => exact .next (State.managed_wf (fun _ w => State.answer_wf (State.setDomain_wf w)) wf)
  | sealRange => exact execSealRange_wf wf
  | setPre => exact .next (State.managed_wf (fun _ w => State.ite_wf (State.answer_wf (State.post_wf w)) (State.answer_wf w)) wf)
  | patrol => exact .next (State.ite_wf (State.memError_wf wf) wf)
  | coldReset => exact .next (State.kept_wf (State.mk_wf State.reset_wf))
  | throttle => exact execThrottle_wf wf
  | throttleRestore => exact .next (State.ite_wf (State.mk_wf wf) wf)
  | thermalTrip => exact .next (State.kept_wf (State.mk_wf State.reset_wf))
  | lschedWrite => exact execLschedWrite_wf wf
  | lcbaseWrite => exact execLcbaseWrite_wf wf
  | lrootWrite => exact execLrootWrite_wf wf
  | ttctlWrite => exact execTtctlWrite_wf wf
  | ttWrite => exact execTtWrite_wf wf
  | ingWrite => exact execIngWrite_wf wf
  | bkctlWrite => exact execBkctlWrite_wf wf
  | bagctlWrite => exact execBagctlWrite_wf wf
  | bagspillWrite => exact execBagspillWrite_wf wf
  | flbaseWrite => exact execFlbaseWrite_wf wf
  | netctlWrite => exact execNetctlWrite_wf wf
  | channelEntryWrite => exact execChannelEntryWrite_wf wf
  | registerWrite => exact .next (State.fieldWrite_wf wf)
  | releaseScrub => exact execReleaseScrub_wf wf
  | hostEgressDelivery => exact execHostEgressDelivery_wf wf

theorem State.begun_wf {i : Instr} {on : Bool} (wf : s.Wf) : (s.begun i on).Wf := State.setBlk_wf wf

theorem State.runWord_wf {w : W64} (wf : s.Wf) : OutWf (s.runWord w) := by
  unfold State.runWord
  dsimp only
  split
  · exact .next (State.faultAt_wf wf)
  · split
    · exact .next (State.faultAt_wf wf)
    · exact .ite (.next (State.ownWork_wf wf)) (exec_wf (State.begun_wf wf))

theorem State.close_wf (wf : s.Wf) : s.close.Wf := by
  unfold State.close
  dsimp only
  split
  · exact State.faultAt_wf wf
  · exact State.setMe_wf wf
  · exact State.setMe_wf wf
  · exact State.ite_wf (State.setMe_wf wf) wf

theorem State.coreStep_wf (wf : s.Wf) : OutWf s.coreStep := by
  unfold State.coreStep
  refine .ite (.next (State.ownWork_wf wf)) ?_
  split
  · exact .next (State.ite_wf (State.ownWork_wf wf) (State.openHandler_wf (State.setCore_wf wf)))
  · split
    · exact .next (State.ite_wf (State.takeInterrupt_wf wf) (State.fetchRemote_wf wf))
    · refine .ite (.next (State.ite_wf (State.ownWork_wf wf) (State.setCore_wf wf))) ?_
      refine .ite (.next (State.openHandler_wf wf)) ?_
      refine .ite (.next (State.between_wf wf)) ?_
      refine .ite (.next (State.deliverNext_wf wf)) ?_
      refine .ite (.next (State.waitStep_wf wf)) ?_
      split
      · exact .ite (.next (State.takeInterrupt_wf wf)) (State.runWord_wf wf)
      · exact .next (State.ite_wf (State.ite_wf (State.takeInterrupt_wf wf) (State.ownWork_wf wf)) (State.close_wf wf))

theorem State.elemStep_wf (wf : s.Wf) : OutWf s.elemStep := by
  unfold State.elemStep
  dsimp only
  split
  · exact exec_wf wf
  · exact .next wf

theorem State.writeBackOld_wf (wf : s.Wf) : s.writeBackOld.Wf :=
  State.foldl_wf (fun _ _ w2 => State.foldl_wf (fun _ _ w5 => State.ite_wf (State.l1WriteBack_wf w5) w5) w2) wf

theorem State.tickDoldrums_wf {n : Nat} (wf : s.Wf) : (s.tickDoldrums n).Wf := State.mk_wf wf

theorem State.advance_wf {n : Nat} (wf : s.Wf) : (s.advance n).Wf := State.mk_wf wf

theorem State.tick_wf {n : Nat} (wf : s.Wf) : (s.tick n).Wf := State.writeBackOld_wf (State.tickDoldrums_wf (State.advance_wf wf))

theorem State.enginePart_wf {n from' len : Nat} (wf : s.Wf) : (s.enginePart n from' len).Wf := by
  unfold State.enginePart
  dsimp only
  split
  · exact wf
  · exact State.setCore_wf (State.engineMove_wf wf)

theorem State.loadAhead_wf {o : MEM} {addr : State → Nat → W64} {l : Nat} (wf : s.Wf) : (s.loadAhead o addr l).Wf := by
  unfold State.loadAhead
  refine State.ite_wf wf ?_
  dsimp only
  split
  · exact wf
  · exact State.setBlk_wf wf

theorem State.lanePart_wf {n : CoreNum} {l : Fin 32} (wf : s.Wf) : (s.lanePart n l).Wf := by
  unfold State.lanePart
  refine State.asCore_wf ?_ wf
  intro _ w
  refine State.ite_wf w ?_
  dsimp only
  split
  · exact w
  · split
    · exact State.ite_wf (State.loadAhead_wf w) w
    · exact State.ite_wf (State.loadAhead_wf w) w
    · exact w

theorem State.wloadPart_wf {n w line : Nat} (wf : s.Wf) : (s.wloadPart n w line).Wf := by
  unfold State.wloadPart
  dsimp only
  split
  · exact State.ite_wf (State.setIsland_wf wf) wf
  · exact wf

theorem State.tlbiDone_wf {n : Nat} (wf : s.Wf) : (s.tlbiDone n).Wf := by
  unfold State.tlbiDone
  dsimp only
  split
  · exact wf
  · exact State.ite_wf (State.writeFlag_wf (State.ite_wf (State.l1WriteBackAll_wf (State.setCore_wf wf)) (State.setCore_wf wf))) wf

theorem State.fillL1_wf {n : Nat} {va : W64} (wf : s.Wf) : (s.fillL1 n va).Wf := by
  unfold State.fillL1
  split
  · exact State.ite_wf (State.l1Fill_wf wf) wf
  · exact wf

theorem State.l2Install_wf {line key place : Nat} (wf : s.Wf) : (s.l2Install line key place).Wf := State.ite_wf wf (State.mk_wf wf)

theorem State.l2Fill_wf {slice line key way : Nat} (wf : s.Wf) : (s.l2Fill slice line key way).Wf := by
  unfold State.l2Fill
  refine State.ite_wf wf ?_
  refine State.l2Install_wf ?_
  split
  · exact State.Wf.l2Evict wf
  · exact wf

theorem State.fillL2_wf {n : Nat} {c : BitVec 8} {va : W64} {way : BitVec 4} (wf : s.Wf) : (s.fillL2 n c va way).Wf := by
  unfold State.fillL2
  dsimp only
  split
  · exact State.ite_wf (State.l2Fill_wf wf) wf
  · exact wf

theorem State.fillTable_wf {n : Nat} {c : BitVec 8} {va : W64} {k : Nat} {way : BitVec 4} (wf : s.Wf) : (s.fillTable n c va k way).Wf := by
  unfold State.fillTable
  refine State.ite_wf wf ?_
  split
  · exact State.ite_wf (State.l2Fill_wf wf) wf
  · exact wf

theorem State.fillFetch_wf {n : Nat} {va : W64} (wf : s.Wf) : (s.fillFetch n va).Wf := by
  unfold State.fillFetch
  dsimp only
  split
  · exact State.ite_wf (State.setCore_wf wf) wf
  · exact wf

theorem State.dropFetch_wf {n line : Nat} (wf : s.Wf) : (s.dropFetch n line).Wf := State.setCore_wf wf

theorem State.fillTlb_wf {n : Nat} {c : BitVec 8} {va : W64} {cont : Bool} (wf : s.Wf) : (s.fillTlb n c va cont).Wf := by
  unfold State.fillTlb
  refine State.ite_wf wf ?_
  dsimp only
  split
  · exact wf
  · split
    · exact wf
    · exact State.setCore_wf wf

theorem State.dropTlb_wf {n k : Nat} (wf : s.Wf) : (s.dropTlb n k).Wf := State.setCore_wf wf

theorem State.fillWalk_wf {n : Nat} {c : BitVec 8} {va : W64} (wf : s.Wf) : (s.fillWalk n c va).Wf := by
  unfold State.fillWalk
  refine State.ite_wf wf ?_
  dsimp only
  split
  · exact wf
  · split
    · exact wf
    · exact State.mk_wf wf

theorem State.dropWalk_wf {n k : Nat} (wf : s.Wf) : (s.dropWalk n k).Wf := State.mk_wf wf

theorem State.dropBlock_wf {n k : Nat} (wf : s.Wf) : (s.dropBlock n k).Wf := State.setCore_wf wf

theorem State.dropRule_wf {n k : Nat} (wf : s.Wf) : (s.dropRule n k).Wf := State.setCore_wf wf

theorem State.regError_wf {n r : Nat} (wf : s.Wf) : (s.regError n r).Wf := State.ite_wf wf (State.setCore_wf wf)

theorem State.corrected_wf {h : Nat} (wf : s.Wf) : (s.corrected h).Wf := State.ite_wf (State.mk_wf wf) wf

theorem State.l1Error_wf {n line unit : Nat} (wf : s.Wf) : (s.l1Error n line unit).Wf := by
  unfold State.l1Error
  dsimp only
  split
  · exact wf
  · exact State.ite_wf (State.ite_wf (State.setCore_wf wf) (State.l1Fill_wf wf)) (State.setCore_wf wf)

theorem State.l1TagError_wf {n line : Nat} (wf : s.Wf) : (s.l1TagError n line).Wf := by
  unfold State.l1TagError
  dsimp only
  split
  · exact wf
  · exact State.l1Drop_wf (State.setCore_wf wf)

theorem State.l2Error_wf {line sector : Nat} (wf : s.Wf) : (s.l2Error line sector).Wf := by
  unfold State.l2Error
  split
  · exact wf
  · exact State.ite_wf (State.mk_wf wf) (State.mk_wf wf)

theorem State.l2TagError_wf {line : Nat} (wf : s.Wf) : (s.l2TagError line).Wf := by
  unfold State.l2TagError
  split
  · exact wf
  · exact State.Wf.l2Evict (State.mk_wf wf)

theorem State.linkError_wf {e src : Nat} (wf : s.Wf) : (s.linkError e src).Wf := by
  unfold State.linkError
  dsimp only
  split
  · exact State.setElem_wf wf
  · exact wf

theorem State.queueError_wf {e i : Nat} (wf : s.Wf) : (s.queueError e i).Wf := by
  unfold State.queueError
  dsimp only
  split
  · exact State.setElem_wf wf
  · exact wf

theorem State.storeError_wf {e sl k i : Nat} (wf : s.Wf) : (s.storeError e sl k i).Wf := by
  unfold State.storeError
  dsimp only
  split
  · exact wf
  · exact State.setSlot_wf wf

theorem State.sideError_wf {exit : Bool} {key k : Nat} (wf : s.Wf) : (s.sideError exit key k).Wf :=
  State.ite_wf (State.ite_wf wf (State.mk_wf wf)) (State.ite_wf wf (State.mk_wf wf))

theorem State.placeError_wf {i c k : Nat} (wf : s.Wf) : (s.placeError i c k).Wf := State.ite_wf wf (State.setEnd_wf wf)

theorem State.egressError_wf {k : Nat} (wf : s.Wf) : (s.egressError k).Wf := State.mk_wf wf

theorem State.stopVf_wf {v : BitVec 6} (wf : s.Wf) : (s.stopVf v).Wf :=
  State.ite_wf wf (State.ite_wf (State.answer_wf wf) (State.stop_wf wf))

theorem State.scrubFrame_wf {f key : Nat} (wf : s.Wf) : (s.scrubFrame f key).1.Wf := by
  unfold State.scrubFrame
  split
  · exact State.Wf.zeroFrame wf
  · split
    · exact State.retireNow_wf (State.Wf.zeroFrame wf)
    · exact State.Wf.zeroFrame wf

theorem State.say_wf {m : TrustMsg} (wf : s.Wf) : (s.say m).Wf := State.mk_wf wf

/-- One frame of a scrub, zeroed unless it is shared. -/
theorem State.scrubStep_wf {r : State × List (Nat × Nat)} {f : Nat × Nat} {key : Nat} (wf : r.1.Wf) :
    (if f.2 == 3 then (r.1, r.2 ++ [f]) else ((r.1.scrubFrame f.1 key).1, r.2 ++ [(f.1, (r.1.scrubFrame f.1 key).2)])).1.Wf := by
  split
  · exact wf
  · exact State.scrubFrame_wf wf

theorem State.scrubEnd_wf {x : Scrub} (wf : s.Wf) : (s.scrubEnd x).Wf := by
  unfold State.scrubEnd
  exact State.mk_wf (State.say_wf (State.mk_wf (State.foldl_fst_wf (fun _ _ => State.scrubStep_wf)
    (State.foldl_fst_wf (p := (s, [])) (fun _ _ => State.scrubStep_wf) wf))))

theorem State.scrub_wf {k : Nat} (wf : s.Wf) : (s.scrub k).Wf := by
  unfold State.scrub
  dsimp only
  split
  · exact wf
  · split
    · exact wf
    · exact State.ite_wf (State.ite_wf (State.stopEnd_wf (State.mk_wf (State.scrubEnd_wf wf))) (State.mk_wf (State.scrubEnd_wf wf))) wf

theorem State.coldRefused_wf : s.coldRefused.Wf := State.kept_wf (State.mk_wf State.reset_wf)

theorem State.belowLimits_wf (wf : s.Wf) : s.belowLimits.Wf := State.ite_wf (State.mk_wf wf) wf

theorem State.lkcntWrite_wf {port : BitVec 4} {dom : BitVec 6} {v : W64} (wf : s.Wf) : (s.lkcntWrite port dom v).Wf :=
  State.answer_wf (State.setDomain_wf wf)

theorem State.chstatWrite_wf {c : BitVec 7} {v : W64} (wf : s.Wf) : (s.chstatWrite c v).Wf := State.answer_wf (State.mk_wf wf)

theorem State.reads_wf {v : W64} (wf : s.Wf) : (s.reads v).Wf := State.mk_wf wf

theorem State.installAnchor_wf {a1 : List Byte} (wf : s.Wf) : (s.installAnchor a1).Wf := State.answer_wf (State.mk_wf wf)

theorem State.otherRequest_wf {m : Spdm} (wf : s.Wf) : OutWf (s.otherRequest m) := State.spdm_wf (fun _ => State.refuse'_wf) wf

theorem State.ptpFollowUp_wf {port : BitVec 4} {domain : BitVec 8} {t1 : W64} (wf : s.Wf) : (s.ptpFollowUp port domain t1).Wf :=
  State.ptpHear_wf wf

theorem State.ptpDelayResp_wf {port : BitVec 4} {domain : BitVec 8} {t4 : W64} (wf : s.Wf) : (s.ptpDelayResp port domain t4).Wf :=
  State.ptpHear_wf wf

theorem State.respond_wf (wf : s.Wf) : s.respond.Wf := by
  unfold State.respond
  dsimp only
  split
  · exact wf
  · exact State.foldl_wf (fun _ _ => State.writeSlot_wf) (State.mk_wf (State.say_wf (State.mk_wf wf)))

theorem State.fromOutside_wf {port dom : Nat} {phase frame : Bool} {words : List W64} (wf : s.Wf) :
  (s.fromOutside port dom phase frame words).Wf :=
  State.ite_wf wf (State.ite_wf (State.setDomain_wf wf) (State.ite_wf (State.ite_wf wf (State.countShear_wf wf))
    (State.ite_wf wf (State.ite_wf (State.refuse_wf wf) (State.setFlight_wf wf)))))

theorem State.uetAgain_wf {k : Nat} (wf : s.Wf) : (s.uetAgain k).Wf := by
  unfold State.uetAgain
  dsimp only
  split
  · exact wf
  · exact State.ite_wf (State.mk_wf (State.setDomain_wf wf)) wf

theorem State.ccSelect_wf {port : BitVec 4} {rccc : Bool} (wf : s.Wf) : (s.ccSelect port rccc).Wf := State.mk_wf wf

theorem State.turn_wf {t : Turn} (wf : s.Wf) : OutWf (s.turn t) := by
  unfold State.turn
  dsimp only
  split
  · exact State.coreStep_wf (State.mk_wf wf)
  · exact State.elemStep_wf (State.mk_wf wf)
  · exact .ite (exec_wf wf) (.next wf)
  · exact .next (State.tick_wf wf)
  · exact .next (State.enginePart_wf wf)
  · exact .next (State.lanePart_wf wf)
  · exact .next (State.wloadPart_wf wf)
  · exact .next (State.ite_wf (State.setBank_wf wf) wf)
  · exact .next (State.tlbiDone_wf wf)
  · exact .next (State.fillL1_wf wf)
  · exact .next (State.l1Drop_wf wf)
  · exact .next (State.fillL2_wf wf)
  · exact .next (State.fillTable_wf wf)
  · exact .next (State.Wf.l2Evict wf)
  · exact .next (State.fillFetch_wf wf)
  · exact .next (State.dropFetch_wf wf)
  · exact .next (State.fillTlb_wf wf)
  · exact .next (State.dropTlb_wf wf)
  · exact .next (State.fillWalk_wf wf)
  · exact .next (State.dropWalk_wf wf)
  · exact .next (State.dropBlock_wf wf)
  · exact .next (State.dropRule_wf wf)
  · exact .next (State.regError_wf wf)
  · exact .next (State.memError_wf wf)
  · exact .next (State.corrected_wf wf)
  · exact .next (State.l1Error_wf wf)
  · exact .next (State.l1TagError_wf wf)
  · exact .next (State.l2Error_wf wf)
  · exact .next (State.l2TagError_wf wf)
  · exact .next (State.linkError_wf wf)
  · exact .next (State.queueError_wf wf)
  · exact .next (State.storeError_wf wf)
  · exact .next (State.sideError_wf wf)
  · exact .next (State.placeError_wf wf)
  · exact .next (State.egressError_wf wf)
  · exact .next (State.managed_wf (fun _ => State.stopVf_wf) wf)
  · exact .next (State.scrub_wf wf)
  · exact .next (State.ite_wf wf (State.mk_wf wf))
  · exact .next (State.coldRefused_wf)
  · exact .next (State.belowLimits_wf wf)
  · exact .next (State.managed_wf (fun _ => State.lkcntWrite_wf) wf)
  · exact .next (State.managed_wf (fun _ => State.chstatWrite_wf) wf)
  · exact .next (State.managed_wf (fun _ => State.reads_wf) wf)
  · exact .next (State.managed_wf (fun _ => State.installAnchor_wf) wf)
  · exact State.otherRequest_wf wf
  · exact .next (State.managed_wf (fun _ w => State.answer_wf (State.mk_wf w)) wf)
  · exact .next (State.ptpFollowUp_wf wf)
  · exact .next (State.ptpDelayResp_wf wf)
  · exact .next (State.mk_wf wf)
  · exact .next (State.mk_wf wf)
  · exact .next (State.respond_wf wf)
  · exact .next (State.fromOutside_wf wf)
  · exact .next (State.uetAgain_wf wf)
  · exact .next (State.managed_wf (fun _ w => State.answer_wf (State.ccSelect_wf w)) wf)

theorem State.advanceWorld_wf (wf : s.Wf) : OutWf s.advanceWorld := by
  unfold State.advanceWorld
  split
  · exact .ite (State.turn_wf (State.mk_wf wf)) (.next (State.mk_wf wf))
  · refine .ite (fun _ e => nomatch e) ?_
    split
    · exact State.coreStep_wf wf
    · exact State.elemStep_wf wf

theorem step_wf (wf : s.Wf) : OutWf (step s) := State.advanceWorld_wf wf

end
end Sys2Proof.Machine

namespace Sys2Proof.Proofs
open Sys2Proof Sys2Proof.Machine

/-- Settles O60: each function that a step is made of keeps the form, along the branches of its definition. -/
theorem stepKeepsMemoryCanonical : Obligations.StepKeepsMemoryCanonical := by
  unfold Obligations.StepKeepsMemoryCanonical
  exact fun s t wf next => step_wf wf t next

end Sys2Proof.Proofs
end

section
/-!
PROOFS of family 24. The forms of MSEND and of the receive ring (24 R340, R343).
-/
namespace Sys2Proof.Machine
open Sys2Proof.Says

/-- A form that holds one effect and cannot fault. -/
theorem givesHeld_of_plain {i : Instr} {g : BitVec 3} {gs : Bool} {s : State} {f : State → Held}
    (hx : exec i s = plain g gs s fun s => s.hold (f s)) : GivesHeld i g gs s [f s] :=
  fun hr => ⟨_, hx.trans (plain_on _ hr.2), holds_holdAll ..⟩

section
variable {o : RRR} {s : State}

/-! ## MSEND (R340, R343) -/

theorem State.msendCheck_ok {len dst src : W64} {cls : Nat} (whole : len.toNat % 8 = 0) (short : len.toNat ≤ 256) (aligned : src.toNat % 8 = 0)
    (inPad : padLocal ≤ src.toNat) (inside : src.toNat + len.toNat ≤ 2 ^ 57) (top : dst.toNat < 2 ^ 52)
    (mid : dst.toNat / 2 ^ 32 % 2 ^ 9 = 0) (low : dst.toNat / 2 ^ 10 % 2 ^ 6 = 0) (may : (s.rcls (s.partid s.cur) cls).getLsbD 63 = true)
    (here : dst.toNat / 2 ^ 51 % 2 = 0 →
      s.corePresent (dst.toNat % 2 ^ 10) = true ∧ s.partOf (dst.toNat % 2 ^ 10) = s.partOf s.cur) :
    s.msendCheck len dst src cls = .ok () := by
  have length : (len.toNat % 8 != 0 || decide (len.toNat > 256)) = false := by simp [whole, short]
  have place : (src.toNat % 8 != 0 || decide (src.toNat < padLocal) || decide (src.toNat + len.toNat > vaLimit)) = false := by
    simp [aligned, inPad, vaLimit]
    omega
  have reserved : (fld dst.toNat 63 52 != 0 || fld dst.toNat 40 32 != 0 || fld dst.toNat 15 10 != 0) = false := by
    have upper : fld dst.toNat 63 52 = 0 := by simp only [fld]; omega
    have middle : fld dst.toNat 40 32 = 0 := mid
    have lower : fld dst.toNat 15 10 = 0 := low
    simp [upper, middle, lower]
  have core : fld dst.toNat 9 0 = dst.toNat % 2 ^ 10 := by simp [fld]
  have target : (!bitAt dst.toNat 51 && (!s.corePresent (fld dst.toNat 9 0) || s.partOf (fld dst.toNat 9 0) != s.partOf s.cur)) = false := by
    rcases Nat.mod_two_eq_zero_or_one (dst.toNat / 2 ^ 51) with near | far
    · obtain ⟨present, owned⟩ := here near
      rw [core, present, owned, bne_self_eq_false]
      exact Bool.and_false _
    · have outside : bitAt dst.toNat 51 = true := by simp only [bitAt, far, beq_self_eq_true]
      rw [outside]
      rfl
  simp only [State.msendCheck, length, place, reserved, may, target, Bool.not_true, Bool.false_eq_true, if_false]

theorem msend_length_fault (hr : Runs (.msend o) o.g o.gs s) (bad : (s.x o.d).toNat % 8 ≠ 0 ∨ 256 < (s.x o.d).toNat) :
    exec (.msend o) s = .next (s.faultAt s.cur 0x2D 0 (s.x o.d)) := by
  have check : s.msendCheck (s.x o.d) (s.x o.a) (s.x o.b) (o.func.toNat % 16) = .error (.fault 0x2D 0 (s.x o.d)) := by
    simp [State.msendCheck, bad]
  exact faults_of_checked (exec_msend o s) (by simp [check]) hr

/-! ## The receive ring (R343) -/

/-- A pad address is not 0, so that `.pop` answers 0 for an empty ring alone. -/
theorem Ring.pop_address (r : Ring) (n h : Nat) (hn : n = if r.taken then r.count - 1 else r.count)
    (hh : h = if r.taken then (r.head + 1) % r.slots else r.head) :
    r.pop.2 = if n = 0 then 0 else padLocal + r.base + h * 512 := by
  subst hn hh
  by_cases taken : r.taken = true
  · simp only [Ring.pop, taken, if_true, beq_iff_eq, apply_ite Prod.snd]
    rfl
  · simp only [Ring.pop, taken, beq_iff_eq, apply_ite Prod.snd]
    rfl

theorem padLocal_add_ne_zero (a : Nat) : padLocal + a ≠ 0 := by
  have : 0 < padLocal := by decide
  omega

/-- What `.pop` took is told by the count of slots that it found. -/
theorem Ring.pop_took (r : Ring) (n h : Nat) (hn : n = if r.taken then r.count - 1 else r.count)
    (hh : h = if r.taken then (r.head + 1) % r.slots else r.head) : (r.pop.2 != 0) = decide (n ≠ 0) := by
  rw [r.pop_address n h hn hh]
  by_cases empty : n = 0
  · simp [empty]
  · have address := padLocal_add_ne_zero (r.base + h * 512)
    rw [← Nat.add_assoc] at address
    simp only [empty, if_false, ne_eq, not_false_eq_true, decide_true, bne_iff_ne, address]

/-- A form that writes one register and holds one effect. -/
theorem State.setX_hold (s : State) (d : BitVec 6) (v : W64) (e : Held) : ((s.setX d v).hold e).blk.held = s.blk.held ++ [e] ∧
    ((s.setX d v).hold e).x d = (if d = 0 then 0 else v) ∧ (∀ a, a ≠ d → ((s.setX d v).hold e).x a = s.x a) ∧
    ∀ key a, ((s.setX d v).hold e).readHome key a = s.readHome key a := by
  obtain ⟨written, others, -, -, -, -, -, held, -, -⟩ := wroteX_setX s d v
  obtain ⟨effect, regs, -⟩ := holds_holdAll (s.setX d v) [e]
  have same (a : BitVec 6) : ((s.setX d v).hold e).x a = (s.setX d v).x a := congrArg (Regs.getX · a) regs
  exact ⟨effect.trans (by rw [held]), (same d).trans written, fun a other => (same a).trans (others a other), fun _ _ => rfl⟩

end

end Sys2Proof.Machine

namespace Sys2Proof.Proofs
open Sys2Proof Sys2Proof.Machine Sys2Proof.Says

/-- Settles O33: each form by its own check, MRECV.pop by the address that the ring answers. -/
theorem networkForms : Obligations.NetworkForms := by
  unfold Obligations.NetworkForms
  intro o s
  refine ⟨fun whole short aligned inPad inside top mid low may here => givesHeld_of_checked (exec_msend o s) ?_, msend_length_fault,
    givesHeld_of_plain (exec_mmask o s), givesHeld_of_plain (exec_munmask o s), givesHeld_of_plain (exec_mrecvFree o s),
    fun legal => givesHeld_of_checked (exec_mrecvCfg o s) (by simp [legal]),
    fun illegal => faults_of_checked (exec_mrecvCfg o s) (by simp [illegal]),
    givesX_of_plain (exec_mrecvSt o s) fun _ => ?_, fun hr => ⟨_, (exec_mrecvPop o s).trans (plain_on _ hr.2), ?_⟩⟩
  · simp only [State.msendCheck_ok whole short aligned inPad inside top mid low may here]
  · cases s.ringSeen.taken with
    | false => simp [b2n, w64]
    | true => simp [b2n, w64]
  · obtain ⟨held, written, others, memory⟩ := s.setX_hold o.d (w64 s.ringSeen.pop.2) (.ringPop (s.ringSeen.pop.2 != 0) _)
    refine ⟨held.trans ?_, written.trans ?_, others, memory⟩
    · rw [s.ringSeen.pop_took _ _ rfl rfl]
    · rw [s.ringSeen.pop_address _ _ rfl rfl, apply_ite w64]
      simp only [ite_or, w64]
      rfl

end Sys2Proof.Proofs
end

section
/-!
PROOFS of family 17. The delivery of a store to a pad or to its home (17 R250, R252, 06 R98).
-/
namespace Sys2Proof.Machine

section
variable {s : State} {n h key : Nat} {bs : List Byte}

/-! ## What a write leaves of a core -/

/-- A write may answer a core that waits for its word; the effects that a core holds stay. -/
theorem State.held_padNotify (s : State) (h m n : Nat) : ((s.padNotify h m).core n).blk.held = (s.core n).blk.held := by
  unfold State.padNotify
  dsimp only
  split
  · rfl
  · split
    · split
      · rw [State.core_setCore]
        split
        · subst_vars
          rfl
        · rfl
      · rfl
    · rfl

theorem State.held_write (s : State) (key h n : Nat) (bs : List Byte) : ((s.write key h bs).core n).blk.held = (s.core n).blk.held := by
  rw [State.write, State.held_padNotify, State.core, State.core, State.cores_clearMarks, State.cores_writeBytes]

/-! ## A core without copies -/

theorem Sp.eq_nil_of_find? {α : Type} {m : Sparse α} (none : ∀ k, Sp.find? m k = .none) : m = [] := by
  cases m with
  | nil => rfl
  | cons e m => simpa [Sp.find?] using none e.1

/-- Where the core has no copy, a write to the home is a write. -/
theorem State.homeWrite_uncached (space_h : ∀ i, i < bs.length → space (h + i) ≠ .gddr) (uncached : ∀ line, Sp.find? (s.core n).l1 line = none) :
    s.homeWrite n key h bs = s.write key h bs ∨ bs = [] ∧ s.homeWrite n key h bs = s := by
  have copies : (s.core n).l1 = [] := Sp.eq_nil_of_find? uncached
  have undropped : s.l1DropRange n h bs.length = s := by rw [State.l1DropRange, copies]; rfl
  rw [State.homeWrite, undropped]
  split
  next retired =>
    right
    refine ⟨?_, rfl⟩
    cases bs with
    | nil => rfl
    | cons b bs =>
      have outside := space_h 0 (Nat.succ_pos _)
      simp_all
  next => exact .inl rfl

/-! ## Full bits -/

theorem Sp.get_foldl_set_true {f : Nat → Nat} {l : List Nat} {m : Sparse Bool} {k : Nat}
    (marked : k ∈ l.map f ∨ Sp.get false m k = true) :
    Sp.get false (l.foldl (fun m i => Sp.set false m (f i) true) m) k = true := by
  induction l generalizing m with
  | nil => simpa using marked
  | cons a l ih =>
    refine ih ?_
    rw [Sp.get_set]
    by_cases first : k = f a
    · simp [first]
    · simpa [first] using marked

/-- After `.full`, the words of the store read full. -/
theorem State.fe_setFe_true {m i : Nat} (aligned : h % 4 = 0) (hi : i < m) :
    Sp.get false (s.setFe h m true).fe (h + i - (h + i) % 4) = true := by
  rw [State.fe_setFe]
  refine Sp.get_foldl_set_true (.inl (List.mem_map.2 ⟨i / 4, List.mem_range.2 (by omega), ?_⟩))
  omega

theorem State.setFe_readHome (k a : Nat) (b : Bool) (m : Nat) : (s.setFe h m b).readHome k a = s.readHome k a :=
  State.setFe_keeps (·.readHome k a) (fun _ _ => rfl) s h m b
theorem State.setFe_core (m : Nat) (b : Bool) : (s.setFe h m b).core n = s.core n :=
  State.setFe_keeps (·.core n) (fun _ _ => rfl) s h m b

/-! ## The delivery -/

/-- The core with its oldest effect taken from the list. -/
def State.taken (s : State) (n : Nat) (rest : List Held) : State := s.setCore n { s.core n with blk := { (s.core n).blk with held := rest } }

theorem State.deliverNext_store {how : StoreHow} {rest : List Held} (oldest : (s.core n).blk.held = .store h bs how key :: rest) :
    s.deliverNext n = (s.taken n rest).deliverStore n h bs how key := by
  rw [State.deliverNext, oldest]
  rfl

theorem State.held_taken (s : State) (n : Nat) (rest : List Held) : ((s.taken n rest).core n).blk.held = rest := by
  rw [State.taken, State.core_setCore_self]

/-- What a write is to do: the bytes from `h` up, and the core's list of effects. -/
def State.WritesBytes (s t : State) (n h : Nat) (bs : List Byte) (rest : List Held) : Prop :=
  (∀ k a, space a ≠ .gddr → t.readHome k a = if h ≤ a ∧ a < h + bs.length then bs.getD (a - h) 0 else s.readHome k a) ∧
    (t.core n).blk.held = rest

theorem State.writesBytes_write {rest : List Held} (space_h : ∀ i, i < bs.length → space (h + i) ≠ .gddr) :
    s.WritesBytes ((s.taken n rest).write key h bs) n h bs rest :=
  ⟨fun k a space_a => State.readHome_write _ key h k a bs space_h space_a, (State.held_write ..).trans (s.held_taken n rest)⟩

theorem State.writesBytes_nil (s : State) (n h : Nat) (rest : List Held) : s.WritesBytes (s.taken n rest) n h [] rest :=
  ⟨fun k a _ => (if_neg (by simp)).symm, s.held_taken n rest⟩

theorem State.writesBytes_homeWrite {rest : List Held} (space_h : ∀ i, i < bs.length → space (h + i) ≠ .gddr)
    (uncached : ∀ line, Sp.find? (s.core n).l1 line = none) :
    s.WritesBytes ((s.taken n rest).homeWrite n key h bs) n h bs rest := by
  have uncached' : ∀ line, Sp.find? ((s.taken n rest).core n).l1 line = none := by simpa [State.taken] using uncached
  rcases State.homeWrite_uncached (key := key) space_h uncached' with write | ⟨rfl, same⟩
  · rw [write]
    exact State.writesBytes_write space_h
  · rw [same]
    exact s.writesBytes_nil n h rest

end

end Sys2Proof.Machine

namespace Sys2Proof.Proofs
open Sys2Proof Sys2Proof.Machine

/-- Settles O14: each of the three paths is a write of the bytes, `.full` sets the words' bits behind it. -/
theorem heldStoreWritesItsBytes : Obligations.HeldStoreWritesItsBytes := by
  unfold Obligations.HeldStoreWritesItsBytes
  intro s n h key bs rest how paths space_h uncached oldest
  rw [State.deliverNext_store oldest]
  rcases paths with rfl | rfl | rfl
  · obtain ⟨reads, held⟩ := State.writesBytes_write (s := s) (n := n) (key := 0) (rest := rest) space_h
    exact ⟨reads, held, nofun⟩
  · obtain ⟨reads, held⟩ := State.writesBytes_write (s := s) (n := n) (key := 0) (rest := rest) space_h
    refine ⟨fun k a space_a => (State.setFe_readHome ..).trans (reads k a space_a), ?_, fun _ aligned i hi => State.fe_setFe_true aligned hi⟩
    exact (congrArg (·.blk.held) (State.setFe_core ..)).trans held
  · obtain ⟨reads, held⟩ := State.writesBytes_homeWrite (key := key) (rest := rest) space_h (uncached rfl)
    exact ⟨reads, held, nofun⟩

end Sys2Proof.Proofs
end

section
/-!
PROOFS of family 23. A vector that the vane unit copies reads a byte of a retired frame as zero (27 R379), so that it need not hold the word
that stands there.
-/
namespace Sys2Proof.Machine

theorem Sp.find?_eq_none {α : Type} {m : Sparse α} {k : Nat} (absent : ∀ e ∈ m, e.1 ≠ k) : Sp.find? m k = none := by
  induction m with
  | nil => rfl
  | cons e m ih =>
    rw [Sp.find?, if_neg (absent e List.mem_cons_self)]
    exact ih fun e mem => absent e (List.mem_cons_of_mem _ mem)

/-- A bank of vectors lists no zero. -/
theorem get_putVector_zero {m : Sparse (BitVec 16)} {k i : Nat} {l : List (BitVec 16)} (hi : i < 4096) (zero : l[i]? = some 0) :
    Sp.get 0 (putVector m k l) (k * 4096 + i) = 0 := by
  have absent : ∀ e ∈ putVector m k l, e.1 ≠ k * 4096 + i := by
    intro e mem
    simp only [putVector, List.mem_append, List.mem_filter, decide_eq_true_eq, List.mem_filterMap] at mem
    rcases mem with (⟨-, below⟩ | ⟨j, -, entry⟩) | ⟨-, above⟩
    · omega
    · rintro same
      split at entry
      · next v at_j =>
        split at entry
        · cases entry
        · next nonzero =>
          cases entry
          obtain rfl : j = i := Nat.add_left_cancel same
          exact nonzero (Option.some.inj (at_j.symm.trans zero))
      · cases entry
    · omega
  rw [Sp.get, Sp.find?_eq_none absent]
  rfl

theorem getD_map_range {α : Type} (f : Nat → Option α) {n k : Nat} (hk : k < n) : ((List.range n).map f).getD k none = f k := by
  rw [List.getD_eq_getElem?_getD, List.getElem?_map, List.getElem?_range hk]
  rfl

section
variable {s : State} {n va : Nat} {ps : List Page}

theorem State.vaneByte_isSome {k : Nat} (near : space (pageHome ps (va + k)).home ≠ .remote) : (s.vaneByte n ps va k).isSome = true := by
  have : (space (pageHome ps (va + k)).home == .remote) = false := by simpa using near
  simp only [State.vaneByte, this, Bool.false_eq_true, if_false]
  split <;> rfl

/-- Two bytes of a vector's area as the unit sees them. -/
def State.vaneWord (s : State) (n : Nat) (ps : List Page) (va i : Nat) : BitVec 16 :=
  ((s.vaneByte n ps va (2 * i + 1)).getD (0, false)).1 ++ ((s.vaneByte n ps va (2 * i)).getD (0, false)).1

theorem State.vaneArea_near (near : ∀ i, i < 8192 → space (pageHome ps (va + i)).home ≠ .remote) :
    ∃ poison, s.vaneArea n ps va = some ((List.range 4096).map (s.vaneWord n ps va), poison) := by
  obtain ⟨bs, all⟩ : ∃ bs, bs = (List.range 8192).map fun k => s.vaneByte n ps va k := exists_eq
  have come : bs.all (·.isSome) = true := by
    rw [all, List.all_map, List.all_eq_true]
    exact fun k hk => State.vaneByte_isSome (near k (List.mem_range.1 hk))
  have byte (k : Nat) (hk : k < 8192) : bs.getD k none = s.vaneByte n ps va k := by rw [all, getD_map_range _ hk]
  have words (i : Nat) (hi : i ∈ List.range 4096) :
      ((bs.getD (2 * i + 1) none).getD (0, false)).1 ++ ((bs.getD (2 * i) none).getD (0, false)).1 = s.vaneWord n ps va i := by
    have := List.mem_range.1 hi
    rw [byte _ (by omega), byte _ (by omega), State.vaneWord]
  refine ⟨bs.any fun b => (b.getD (0, false)).2, ?_⟩
  unfold State.vaneArea
  rw [← all]
  simp only [come, if_true]
  rw [List.map_congr_left words]

/-- A word of a retired frame reads as zero. -/
theorem State.vaneWord_retired {i : Nat} (gddr : ∀ j, j < 2 → space (pageHome ps (va + (2 * i + j))).home = .gddr)
    (retired : ∀ j, j < 2 → s.isRetired (pageHome ps (va + (2 * i + j))).home = true) : s.vaneWord n ps va i = 0 := by
  have byte (j : Nat) (hj : j < 2) : s.vaneByte n ps va (2 * i + j) = some (0, true) := by
    simp [State.vaneByte, gddr j hj, retired j hj]
  rw [State.vaneWord, byte 1 (by omega), show 2 * i = 2 * i + 0 from rfl, byte 0 (by omega)]
  rfl

/-- The performance of a `.vec` whose bytes are there. -/
theorem probe_vaneCommandPerform {t : State} {n : CoreNum} {k : Nat} {l : List (BitVec 16)} {poison : Bool} {rest : List VaneCmd}
    (oldest : (s.core n.toNat).vane.queue = .vec k ps va :: rest) (area : s.vaneArea n.toNat ps va = some (l, poison))
    (next : exec (.vaneCommandPerform n) s = .next t) :
    (t.core n.toNat).vane.probe = putVector (s.core n.toNat).vane.probe k l := by
  rw [exec_vaneCommandPerform] at next
  simp only [execVaneCommandPerform, oldest, State.vaneApply, area, Option.map_some, Host.Outcome.next.injEq] at next
  rw [← next, State.core_setCore_self]

end

end Sys2Proof.Machine

namespace Sys2Proof.Proofs
open Sys2Proof Sys2Proof.Machine

/-- One page of a GDDR-7 frame. -/
def retiredPage : List Page := [{ vpage := 0, home := gddrBase, key := 0, pres := false }]

/-- A retired frame whose first byte is 1, and the command that copies the vector at it. -/
def retiredVector : State :=
  { State.reset with
    mem := [(gddrBase, 1)], retired := [gddrBase / 4096]
    cores := [(0, { Core.reset with vane := { VaneUnit.reset with queue := [.vec 0 retiredPage 0] } })] }

theorem space_gddr {h : Nat} (low : gddrBase ≤ h) (high : h < 0x13000000000) : space h = .gddr := by
  unfold gddrBase at low
  have notPad : ¬ h ≥ padBase := by unfold padBase; omega
  have notRemote : ¬ h ≥ 2 ^ 51 := by omega
  have notFloor : (floorBase ≤ h && h < 0x1180000000) = false := by simp; omega
  have notCrown : (crownBase ≤ h && h < 0x1980000000) = false := by simp; omega
  have notReg : (regBase ≤ h && h < 0x2000000000) = false := by simp; omega
  have gddr : (gddrBase ≤ h && h < 0x13000000000) = true := by simp [gddrBase, low, high]
  rw [space, if_neg notPad, if_neg notRemote, notFloor, notCrown, notReg, gddr]
  rfl

theorem pageHome_retiredPage (i : Nat) : (pageHome retiredPage (0 + i)).home = if i < 4096 then gddrBase + i else 0 := by
  by_cases inside : i < 4096
  · have page : i / 4096 = 0 := Nat.div_eq_of_lt inside
    simp [pageHome, retiredPage, page, inside, Nat.mod_eq_of_lt inside]
  · have page : i / 4096 ≠ 0 := by omega
    simp [pageHome, retiredPage, inside, Ne.symm page]

/-- Refutes O34: the vector at a retired frame is copied as zeros, whatever word stands there. -/
theorem not_vaneForms : ¬ Obligations.VaneForms := by
  unfold Obligations.VaneForms
  rintro ⟨-, performs⟩
  obtain ⟨-, -, vector, -⟩ := performs 0 retiredVector (.vec 0 retiredPage 0) []
  have gddr (i : Nat) (hi : i < 4096) : space (pageHome retiredPage (0 + i)).home = .gddr := by
    rw [pageHome_retiredPage, if_pos hi]
    exact space_gddr (Nat.le_add_right ..) (by unfold gddrBase; omega)
  have near (i : Nat) (_ : i < 8192) : space (pageHome retiredPage (0 + i)).home ≠ .remote := by
    by_cases inside : i < 4096
    · rw [gddr i inside]
      decide
    · rw [pageHome_retiredPage, if_neg inside]
      decide
  obtain ⟨t, answers, -, ⟨words, -⟩, -⟩ := vector 0 retiredPage 0 rfl near rfl
  obtain ⟨poison, area⟩ := State.vaneArea_near (s := retiredVector) (n := 0) near
  have retired (j : Nat) (hj : j < 2) : retiredVector.isRetired (pageHome retiredPage (0 + (2 * 0 + j))).home = true := by
    have frame : (gddrBase + (2 * 0 + j)) / 4096 = gddrBase / 4096 := by unfold gddrBase; omega
    rw [pageHome_retiredPage, if_pos (by omega), State.isRetired, frame]
    rfl
  have zero := State.vaneWord_retired (s := retiredVector) (n := 0) (fun j hj => gddr _ (by omega)) retired
  have copied : Sp.get 0 (t.core 0).vane.probe (0 * 4096 + 0) = 0 := by
    have probe := probe_vaneCommandPerform (n := 0) rfl area answers
    refine (congrArg (Sp.get 0 · (0 * 4096 + 0)) probe).trans (get_putVector_zero (by decide) ?_)
    rw [List.getElem?_map, List.getElem?_range (by decide)]
    exact congrArg some zero
  have stands : Sp.get 0 (t.core 0).vane.probe (0 * 4096 + 0) = 1 := words 0 (by decide)
  rw [copied] at stands
  exact absurd stands (by decide)

end Sys2Proof.Proofs
end

section
/-!
PROOFS of family 18. TLBI and TLBW (18 R276, Tables 18.4, 18.5): their operands, what a delivered TLBI removes and waits for, and the answer
of a walk for inspection.
-/
namespace Sys2Proof.Machine
open Sys2Proof.Says

section
variable {o : SYS} {s : State}

/-! ## The operands of TLBI -/

/-- A flag word that is zero, or valid and aligned and naming a core of the same owner tag. -/
theorem State.flagCheck_ok {b : W64} (flag : b = 0 ∨ (b.getLsbD 31 = true ∧ b.toNat / 2 ^ 29 % 4 = 0 ∧ b.toNat % 4 = 0 ∧
    s.sameOwner s.cur (b.toNat / 2 ^ 19 % 1024) = true)) : s.flagCheck s.cur b = .ok () := by
  rcases flag with rfl | ⟨valid, reserved, aligned, owner⟩
  · simp [State.flagCheck, flagForm, State.flagTarget, fld]
  · have core : flagCore b = b.toNat / 2 ^ 19 % 1024 := rfl
    have form : flagForm b = true := by
      have upper : fld b.toNat 30 29 = 0 := reserved
      have lower : fld b.toNat 1 0 = 0 := by simpa [fld] using aligned
      simp [flagForm, upper, lower, valid]
    have target : s.flagTarget s.cur b = true := by rw [State.flagTarget, core, owner, Bool.or_true]
    simp [State.flagCheck, form, target]

/-- The first operand of a range names a colour of the partition, or every colour. -/
def State.tlbiNames (s : State) (a : W64) : Prop :=
  a.toNat < 2 ^ 57 ∧ a.toNat / 2 ^ 9 % 8 = 0 ∧ (a.getLsbD 8 = true ∨ s.bound (s.partid s.cur) (a.toNat % 256) = true)

theorem State.tlbiNames_iff (s : State) (a : W64) : (fld a.toNat 63 57 != 0 || fld a.toNat 11 9 != 0 ||
    (!a.getLsbD 8 && !s.bound (s.partid s.cur) (a.toNat % 256))) = false ↔ s.tlbiNames a := by
  have upper : fld a.toNat 63 57 = 0 ↔ a.toNat < 2 ^ 57 := by
    have := a.isLt
    simp only [fld]
    omega
  have middle : fld a.toNat 11 9 = a.toNat / 2 ^ 9 % 8 := rfl
  simp [State.tlbiNames, upper, middle, and_assoc, ← Bool.not_eq_true, imp_iff_not_or]

/-- The length of a range is a number of pages. -/
theorem tlbiLength_iff (len : Nat) : (len == 0 || len % 4096 != 0 || decide (len > 2 ^ 57)) = false ↔
    0 < len ∧ len % 4096 = 0 ∧ len ≤ 2 ^ 57 := by
  simp only [Bool.or_eq_false_iff, beq_eq_false_iff_ne, bne_eq_false_iff_eq, decide_eq_false_iff_not, and_assoc]
  omega

theorem tlbi_all (flag : s.flagCheck s.cur (s.x o.b) = .ok ()) (all : o.func = 0) :
    GivesHeld (.tlbi o) o.g o.gs s [.tlbi { kind := 0, colour := none, base := 0, len := 0, flag := s.x o.b }] :=
  givesHeld_of_checked (exec_tlbi o s) (by simp [all, flag])

theorem tlbi_colour (flag : s.flagCheck s.cur (s.x o.b) = .ok ()) (one : o.func = 1) (small : (s.x o.a).toNat < 256)
    (bound : s.bound (s.partid s.cur) (s.x o.a).toNat = true) : GivesHeld (.tlbi o) o.g o.gs s
      [.tlbi { kind := 1, colour := some ((s.x o.a).setWidth 8), base := 0, len := 0, flag := s.x o.b }] :=
  givesHeld_of_checked (exec_tlbi o s) (by simp [one, flag, Nat.not_le.2 small, bound])

theorem tlbi_range (flag : s.flagCheck s.cur (s.x o.b) = .ok ()) (range : o.func = 2) (named : s.tlbiNames (s.x o.a))
    (len : 0 < (s.x o.d).toNat ∧ (s.x o.d).toNat % 4096 = 0 ∧ (s.x o.d).toNat ≤ 2 ^ 57) : GivesHeld (.tlbi o) o.g o.gs s
      [.tlbi { kind := 2, colour := if (s.x o.a).getLsbD 8 then none else some ((s.x o.a).setWidth 8),
               base := (s.x o.a).toNat / 2 ^ 12 % 2 ^ 45 * 4096, len := (s.x o.d).toNat, flag := s.x o.b }] :=
  givesHeld_of_checked (exec_tlbi o s) (by
    simp only [range, (s.tlbiNames_iff _).2 named, (tlbiLength_iff _).2 len, flag, BitVec.ofNat_toNat]
    rfl)

theorem tlbi_colour_fault (hr : Runs (.tlbi o) o.g o.gs s) (one : o.func = 1)
    (bad : ¬((s.x o.a).toNat < 256 ∧ s.bound (s.partid s.cur) (s.x o.a).toNat = true)) :
    exec (.tlbi o) s = .next (s.faultAt s.cur 0x41 0 (s.x o.a)) := by
  have unbound : 256 ≤ (s.x o.a).toNat ∨ s.bound (s.partid s.cur) (s.x o.a).toNat = false := by
    rw [← Bool.not_eq_true, ← Nat.not_lt]
    exact not_and_or.1 bad
  exact faults_of_checked (exec_tlbi o s) (by simp [one, unbound]) hr

theorem tlbi_name_fault (hr : Runs (.tlbi o) o.g o.gs s) (range : o.func = 2) (unnamed : ¬s.tlbiNames (s.x o.a)) :
    exec (.tlbi o) s = .next (s.faultAt s.cur 0x41 0 (s.x o.a)) := by
  have bad := Bool.eq_true_of_not_eq_false (mt (s.tlbiNames_iff (s.x o.a)).1 unnamed)
  exact faults_of_checked (exec_tlbi o s) (by simp only [range, bad]; rfl) hr

theorem tlbi_length_fault (hr : Runs (.tlbi o) o.g o.gs s) (range : o.func = 2) (named : s.tlbiNames (s.x o.a))
    (bad : ¬(0 < (s.x o.d).toNat ∧ (s.x o.d).toNat % 4096 = 0 ∧ (s.x o.d).toNat ≤ 2 ^ 57)) :
    exec (.tlbi o) s = .next (s.faultAt s.cur 0x41 0 (s.x o.d)) := by
  have badLen := Bool.eq_true_of_not_eq_false (mt (tlbiLength_iff (s.x o.d).toNat).1 bad)
  exact faults_of_checked (exec_tlbi o s) (by simp only [range, (s.tlbiNames_iff _).2 named, badLen]; rfl) hr

theorem tlbi_flag_fault {code lvl : Nat} {v : W64} (hr : Runs (.tlbi o) o.g o.gs s) (all : o.func = 0)
    (bad : s.flagCheck s.cur (s.x o.b) = .error (.fault code lvl v)) :
    exec (.tlbi o) s = .next (s.faultAt s.cur code lvl v) :=
  faults_of_checked (exec_tlbi o s) (by simp [all, bad]) hr

/-! ## The answer of TLBW (Table 18.5) -/

theorem tlbw_gives (small : (s.x o.b).toNat < 256) (bound : s.bound (s.partid s.cur) (s.x o.b).toNat = true) :
    GivesX (.tlbw o) o.g o.gs s o.d (s.tlbwResult (s.partid s.cur) (s.x o.b).toNat (s.x o.a).toNat) :=
  givesX_of_checked (exec_tlbw o s) (by simp [small, bound])

theorem tlbw_fault (hr : Runs (.tlbw o) o.g o.gs s)
    (bad : ¬((s.x o.b).toNat < 256 ∧ s.bound (s.partid s.cur) (s.x o.b).toNat = true)) :
    exec (.tlbw o) s = .next (s.faultAt s.cur 0x41 0 (s.x o.b)) := by
  have unbound : 256 ≤ (s.x o.b).toNat ∨ s.bound (s.partid s.cur) (s.x o.b).toNat = false := by
    rw [← Bool.not_eq_true, ← Nat.not_lt]
    exact not_and_or.1 bad
  exact faults_of_checked (exec_tlbw o s) (by simp [unbound]) hr

end

section
variable {s : State} {p c va : Nat}

theorem State.tlbwResult_above (above : 2 ^ 57 ≤ va) : s.tlbwResult p c va = BitVec.ofNat 64 (2 ^ 63 + 2 ^ 56) := by
  simp only [State.tlbwResult, vaLimit, ge_iff_le, above, if_true]
  rfl

theorem State.tlbwResult_pad (pad : padRemote ≤ va) (inside : va < 2 ^ 57) : s.tlbwResult p c va = 0 := by
  simp only [State.tlbwResult, vaLimit, ge_iff_le, Nat.not_le.2 inside, pad, if_true, if_false]

theorem padRemote_le : padRemote ≤ 2 ^ 57 := by decide

theorem tlbwCause_eq (code : Nat) : tlbwCause code =
    if code = 0x10 then 1 else if code = 0x11 then 2 else if code = 0x12 then 3 else if code = 0x1D then 5 else 4 := by
  unfold tlbwCause
  split
  · rfl
  · rfl
  · rfl
  · rfl
  · next not10 not11 not12 not1D => rw [if_neg not10, if_neg not11, if_neg not12, if_neg not1D]

/-- Below the pads the walk decides. -/
theorem State.tlbwResult_bad {code lvl : Nat} (below : va < padRemote) (walk : s.walkVa p c va [] = .bad code lvl) :
    s.tlbwResult p c va = BitVec.ofNat 64 (2 ^ 63 + lvl * 2 ^ 60 +
      (if code = 0x10 then 1 else if code = 0x11 then 2 else if code = 0x12 then 3 else if code = 0x1D then 5 else 4) * 2 ^ 56) := by
  have inside : ¬ va ≥ vaLimit := Nat.not_le.2 (Nat.lt_of_lt_of_le below padRemote_le)
  rw [State.tlbwResult, if_neg inside, if_neg (Nat.not_le.2 below), walk, ← tlbwCause_eq]
  rfl

/-- The leaf's first byte. -/
def leafBase (e : W64) (lvl : Nat) : Nat :=
  let frame := e.toNat / 2 ^ 12 % 2 ^ 40 * 4096
  frame - frame % 2 ^ (3 + 9 * lvl)

section
variable {e : W64} {lvl : Nat} (below : va < padRemote) (walk : s.walkVa p c va [] = .leaf e lvl)
include below walk

theorem State.tlbwResult_split (floor : space (leafBase e lvl) = .floor)
    (banks : bankOf (leafBase e lvl) ≠ bankOf (leafBase e lvl + 2 ^ (3 + 9 * lvl) - 1)) :
    s.tlbwResult p c va = BitVec.ofNat 64 (2 ^ 63 + lvl * 2 ^ 60 + 5 * 2 ^ 56) := by
  have inside : ¬ va ≥ vaLimit := Nat.not_le.2 (Nat.lt_of_lt_of_le below padRemote_le)
  have split : (space (leafBase e lvl) == .floor &&
      bankOf (leafBase e lvl) != bankOf (leafBase e lvl + leafSize lvl - 1)) = true := by
    rw [floor, beq_self_eq_true, Bool.true_and, bne_iff_ne]
    exact banks
  rw [State.tlbwResult, if_neg inside, if_neg (Nat.not_le.2 below), walk]
  exact if_pos split

theorem State.tlbwResult_leaf (whole : ¬(space (leafBase e lvl) = .floor ∧
      bankOf (leafBase e lvl) ≠ bankOf (leafBase e lvl + 2 ^ (3 + 9 * lvl) - 1))) :
    s.tlbwResult p c va = BitVec.ofNat 64
      ((if lvl = 3 then 3 else if lvl = 2 then 2 else if e.getLsbD 11 then 1 else 0) * 2 ^ 54 +
        (if e.getLsbD 63 then 2 ^ 53 else 0) + (leafBase e lvl + va % 2 ^ (3 + 9 * lvl) / 4096 * 4096) + e.toNat % 4096) := by
  have inside : ¬ va ≥ vaLimit := Nat.not_le.2 (Nat.lt_of_lt_of_le below padRemote_le)
  have notSplit : ¬ (space (leafBase e lvl) == .floor &&
      bankOf (leafBase e lvl) != bankOf (leafBase e lvl + leafSize lvl - 1)) = true := by
    rw [Bool.and_eq_true, beq_iff_eq, bne_iff_ne]
    exact whole
  have huge : b2n (e.getLsbD 63) * 2 ^ 53 = if e.getLsbD 63 then 2 ^ 53 else 0 := by cases e.getLsbD 63 <;> rfl
  rw [State.tlbwResult, if_neg inside, if_neg (Nat.not_le.2 below), walk, ← huge]
  refine (if_neg notSplit).trans ?_
  dsimp only
  split
  · rfl
  · rfl
  · next not3 not2 =>
    rw [if_neg not3, if_neg not2]
    rfl

end

end

/-! ## What a delivered TLBI removes -/

/-- A core without the translations and control blocks that a command names. -/
def TlbiCmd.clean (c : TlbiCmd) (k : Core) : Core :=
  { k with tlb := k.tlb.filter fun e => !c.matches e.colour e.base e.size,
           cbc := k.cbc.filter fun e => !c.matches (Sp.get k.regs.colour k.cbcColour e.1) e.1 32 }

/-- The cores of a partition that the state lists. -/
def State.listed (s : State) (p : Nat) : List Nat := (s.cores.map (·.1)).filter fun m => s.partOf m == some p

section
variable {s : State} {c : TlbiCmd} {n p : Nat}

theorem TlbiCmd.clean_clean (c : TlbiCmd) (k : Core) : c.clean (c.clean k) = c.clean k := by
  simp [TlbiCmd.clean, List.filter_filter]

theorem State.core_clean (l : List Nat) (s : State) (m : Nat) :
    (l.foldl (fun s m => s.setCore m (c.clean (s.core m))) s).core m = if m ∈ l then c.clean (s.core m) else s.core m := by
  induction l generalizing s with
  | nil => rfl
  | cons a l ih =>
    rw [List.foldl_cons, ih, State.core_setCore]
    by_cases first : m = a
    · subst first
      simp [TlbiCmd.clean_clean]
    · simp [first]

theorem State.core_unlisted {m : Nat} (mine : s.partOf m = some p) (unlisted : m ∉ s.listed p) : s.core m = Core.reset := by
  have absent : ∀ e ∈ s.cores, e.1 ≠ m := by
    rintro e mem rfl
    exact unlisted (List.mem_filter.2 ⟨List.mem_map.2 ⟨e, mem, rfl⟩, by simp [mine]⟩)
  rw [State.core, Sp.get, Sp.find?_eq_none absent]
  rfl

theorem TlbiCmd.clean_reset (c : TlbiCmd) : c.clean Core.reset = Core.reset := rfl

theorem State.mem_listed {m : Nat} (mem : m ∈ s.listed p) : s.partOf m = some p := by
  simpa using (List.mem_filter.1 mem).2

/-- Every core of the partition is clean, and no other one has changed. -/
theorem State.core_tlbiRemove (s : State) (p n : Nat) (c : TlbiCmd) (m : Nat) :
    (s.tlbiRemove p n c).1.core m = if s.partOf m = some p then c.clean (s.core m) else s.core m := by
  refine (State.core_clean (s.listed p) s m).trans ?_
  by_cases mine : s.partOf m = some p
  · by_cases listed : m ∈ s.listed p
    · rw [if_pos listed, if_pos mine]
    · rw [if_neg listed, if_pos mine, State.core_unlisted mine listed, TlbiCmd.clean_reset]
  · rw [if_neg (mt State.mem_listed mine), if_neg mine]

theorem State.walk_tlbiRemove {w : Nat × List WalkEntry} (mem : w ∈ (s.tlbiRemove p n c).1.walk) : s.partOf (w.1 * 16) ≠ some p := by
  have other : (((s.listed p).foldl (fun s m => s.setCore m (c.clean (s.core m))) s).partOf (w.1 * 16) != some p) = true :=
    (List.mem_filter.1 mem).2
  rw [State.foldl_keeps (f := fun s m => s.setCore m (c.clean (s.core m))) (·.partOf (w.1 * 16)) (fun _ _ => rfl)] at other
  simpa using other

/-! ## What its flag waits for -/

/-- Engine commands of core m on a page that a command names. -/
def State.tlbiCmds (s : State) (m : Nat) (c : TlbiCmd) : List (Nat × Nat) :=
  ((s.core m).eng.filter fun e => e.pages.any fun q => c.matches e.colour (q.vpage * 4096) 4096).map fun e => (m, e.id)

theorem State.foldl_tlbiUses (l : List Nat) (w : TlbiWait) : (l.foldl (fun w m => s.tlbiUses n m c w) w).cmd = w.cmd ∧
    (l.foldl (fun w m => s.tlbiUses n m c w) w).cmds = w.cmds ++ l.flatMap fun m => s.tlbiCmds m c := by
  induction l generalizing w with
  | nil => simp
  | cons m l ih =>
    obtain ⟨cmd, cmds⟩ := ih (s.tlbiUses n m c w)
    refine ⟨cmd, cmds.trans ?_⟩
    rw [List.flatMap_cons, ← List.append_assoc]
    rfl

theorem State.tlbiRemove_waits {m : Nat} {e : EngCmd} (mine : s.partOf m = some p) (mem : e ∈ (s.core m).eng)
    (uses : ∃ q ∈ e.pages, c.matches e.colour (q.vpage * 4096) 4096 = true) : (m, e.id) ∈ (s.tlbiRemove p n c).2.cmds := by
  have listed : m ∈ s.listed p := by
    by_contra unlisted
    rw [State.core_unlisted mine unlisted] at mem
    cases mem
  have cmds : (s.tlbiRemove p n c).2.cmds = [] ++ (s.listed p).flatMap fun m => s.tlbiCmds m c :=
    (State.foldl_tlbiUses (s.listed p) _).2
  rw [cmds, List.nil_append, List.mem_flatMap]
  exact ⟨m, listed, List.mem_map.2 ⟨e, List.mem_filter.2 ⟨mem, by simpa using uses⟩, rfl⟩⟩

theorem State.tlbiRemove_cmd : (s.tlbiRemove p n c).2.cmd = c := (State.foldl_tlbiUses (s.listed p) _).1

theorem State.tlbiDeliver_eq (mine : s.partOf n = some p) : s.tlbiDeliver n c = (s.tlbiRemove p n c).1.setCore n
    { (s.tlbiRemove p n c).1.core n with tlbi := ((s.tlbiRemove p n c).1.core n).tlbi ++ [(s.tlbiRemove p n c).2] } := by
  rw [State.tlbiDeliver, mine]

theorem State.core_tlbiDeliver (mine : s.partOf n = some p) (m : Nat) : (s.tlbiDeliver n c).core m =
    if m = n then { c.clean (s.core n) with tlbi := (s.core n).tlbi ++ [(s.tlbiRemove p n c).2] }
    else if s.partOf m = some p then c.clean (s.core m) else s.core m := by
  rw [State.tlbiDeliver_eq mine, State.core_setCore, State.core_tlbiRemove, State.core_tlbiRemove, if_pos mine]
  rfl

/-- What a clean core holds, its list of TLBIs aside. -/
theorem TlbiCmd.clean_caches {c : TlbiCmd} {k : Core} {l : List TlbiWait} :
    (∀ e ∈ ({ c.clean k with tlbi := l } : Core).tlb, c.matches e.colour e.base e.size = false) ∧
    ∀ e ∈ ({ c.clean k with tlbi := l } : Core).cbc,
      c.matches (Sp.get ({ c.clean k with tlbi := l } : Core).regs.colour ({ c.clean k with tlbi := l } : Core).cbcColour e.1) e.1 32 = false :=
  ⟨fun e mem => by simpa using (List.mem_filter.1 mem).2, fun e mem => by simpa [TlbiCmd.clean] using (List.mem_filter.1 mem).2⟩

/-- A core of the partition as the delivery leaves it. -/
theorem State.core_tlbiDeliver_clean (mine : s.partOf n = some p) {m : Nat} (inPart : s.partOf m = some p) :
    ∃ l, (s.tlbiDeliver n c).core m = { c.clean (s.core m) with tlbi := l } := by
  rw [State.core_tlbiDeliver mine]
  by_cases same : m = n
  · subst same
    exact ⟨_, if_pos rfl⟩
  · exact ⟨(s.core m).tlbi, by rw [if_neg same, if_pos inPart]; rfl⟩

end

end Sys2Proof.Machine

namespace Sys2Proof.Proofs
open Sys2Proof Sys2Proof.Machine

/-- Settles O25: the operands' checks in their order, the walk's answer by its end, and the cores after the removal. -/
theorem translationForms : Obligations.TranslationForms := by
  unfold Obligations.TranslationForms
  refine ⟨fun o s => ⟨fun flag => ?_, fun hr one bad => tlbi_colour_fault hr one bad, fun hr range => ⟨tlbi_name_fault hr range,
    tlbi_length_fault hr range⟩, fun code lvl v hr all bad => tlbi_flag_fault hr all bad, fun small bound => ?_, tlbw_fault⟩,
    fun s n p c mine => ?_⟩
  · have ok := State.flagCheck_ok flag
    refine ⟨tlbi_all ok, tlbi_colour ok, fun range a57 low one bound pos whole max => ?_, fun range a57 low every pos whole max => ?_⟩
    · have form := tlbi_range ok range ⟨a57, low, .inr bound⟩ ⟨pos, whole, max⟩
      rwa [one] at form
    · have form := tlbi_range ok range ⟨a57, low, .inl every⟩ ⟨pos, whole, max⟩
      rwa [every] at form
  · have answer := tlbw_gives (o := o) small bound
    refine ⟨fun hr => ?_, fun above => ?_, fun pad inside => ?_, fun code lvl below walk => ?_,
      fun e lvl below walk => ⟨fun ⟨floor, banks⟩ => ?_, fun whole => ?_⟩⟩
    · obtain ⟨t, next, wrote⟩ := answer hr
      exact ⟨t, _, next, wrote⟩
    · rwa [State.tlbwResult_above above] at answer
    · rwa [State.tlbwResult_pad pad inside] at answer
    · rwa [State.tlbwResult_bad below walk] at answer
    · rwa [State.tlbwResult_split below walk floor banks] at answer
    · rwa [State.tlbwResult_leaf below walk whole] at answer
  · refine ⟨fun m inPart => ?_, fun m other => ?_, fun w mem => ?_, (s.tlbiRemove p n c).2, ?_, State.tlbiRemove_cmd,
      fun m e inPart => State.tlbiRemove_waits inPart⟩
    · obtain ⟨l, core⟩ := State.core_tlbiDeliver_clean (c := c) mine inPart
      rw [core]
      exact TlbiCmd.clean_caches
    · rw [State.core_tlbiDeliver mine, if_neg (by rintro rfl; exact other mine), if_neg other]
    · rw [State.tlbiDeliver_eq mine] at mem
      exact State.walk_tlbiRemove (n := n) mem
    · rw [State.core_tlbiDeliver mine, if_pos rfl]

end Sys2Proof.Proofs
end

section
/-!
PROOFS of family 15. Nets (15): the joins of NLINK, and the forms of nodes, bags and the rule table.
-/
namespace Sys2Proof.Machine
open Sys2Proof.Says

/-! ## Computations on a net -/

section
variable {α β : Type} {m : NetM α} {f : α → NetM β} {s t : State} {a : α} {k : NetCtx}

theorem NetM.runOn_bind_ok (h : m.runOn s = (.ok a, t)) : (m >>= f).runOn s = (f a).runOn t := by
  rw [NetM.runOn_bind, h]

theorem NetM.runOn_get (s : State) : (get : NetM State).runOn s = (.ok s, s) := rfl
theorem NetM.runOn_set_pure (s t : State) (a : α) : (do set t; return a : NetM α).runOn s = (.ok a, t) := rfl

/-- A word is written at its bank, behind the core's own copy of its line (15 R229). -/
theorem netPut_runOn {va v : Nat} {tr : Tr} (h : s.nodeTr k va .w = .ok tr) :
    (netPut k va v).runOn s = (.ok tr.home, (s.l1DropRange k.n tr.home 8).write tr.key tr.home (leBytes 8 v)) := by
  rw [netPut, NetM.runOn_bind_ok (NetM.runOn_get s), h]
  exact NetM.runOn_set_pure ..

theorem relayEnd_runOn (h : Nat) : (relayEnd h).runOn s = (.ok (), { s with relays := s.relays.filter (· != h) }) := rfl

end

/-! ## The join of two ports (15 R242) -/

/-- The state after the join of two ports: each link word names the other port, and no join uses the two any more. -/
theorem join_ports_runOn (k : NetCtx) (f : Nat) {s s1 s2 : State} {p q : Nat} {tp tq : Tr}
    (hp : s.nodeTr k p .w = .ok tp) (h1 : s1 = (s.l1DropRange k.n tp.home 8).write tp.key tp.home (leBytes 8 (linkWord sBound q)))
    (hq : s1.nodeTr k q .w = .ok tq) (h2 : s2 = (s1.l1DropRange k.n tq.home 8).write tq.key tq.home (leBytes 8 (linkWord sBound p))) :
    (join k (f + 1) (.port p) (.port q)).runOn s = (.ok (),
      if portIndex p = 0 ∧ portIndex q = 0 then
        { s2 with relays := (s2.relays.filter (· != tp.home)).filter (· != tq.home) }.pushTail k.n
          { a := w64 (portNode p), b := w64 (portNode q), colour := BitVec.ofNat 8 k.c, launch := false }
      else { s2 with relays := (s2.relays.filter (· != tp.home)).filter (· != tq.home) }) := by
  subst h1 h2
  rw [join, NetM.runOn_bind_ok (netPut_runOn hp), NetM.runOn_bind_ok (netPut_runOn hq), NetM.runOn_bind_ok (relayEnd_runOn _),
    NetM.runOn_bind_ok (relayEnd_runOn _)]
  by_cases principal : portIndex p = 0 ∧ portIndex q = 0
  · rw [if_pos principal, if_pos (by simp [principal])]
    rfl
  · rw [if_neg principal, if_neg (by simpa using principal)]
    rfl

theorem nlink_ports_runOn (k : NetCtx) (s : State) (p q : Nat) :
    (nlink k (p, false) (q, false)).runOn s = (join k 65 (.port p) (.port q)).runOn s := by
  simp only [nlink, bne_self_eq_false, Bool.and_false, Bool.false_eq_true, if_false]
  rfl

/-- The delivery of a join of two ports. -/
theorem State.nlinkDeliver_ports (s : State) (n p q : Nat) (c : BitVec 8) (lvlS : Bool) {s' : State}
    (h : (join { n := n, c := c.toNat, lvlS := lvlS } 65 (.port p) (.port q)).runOn s = (.ok (), s')) :
    s.nlinkDeliver n (p, false) (q, false) c lvlS = s'.portsDone n [p, q] := by
  simp only [State.nlinkDeliver, nlink_ports_runOn, h]
  rfl

/-! ## A node's line behind the core's own copies (07 R123) -/

section
variable (s : State) (t : Tr)

@[simp] theorem State.curCore_nodeHome : (s.nodeHome t).curCore = s.curCore := State.curCore_l1Drops ..
@[simp] theorem State.cur_nodeHome : (s.nodeHome t).cur = s.cur := congrArg BitVec.toNat (s.curCore_nodeHome t)

theorem State.me_nodeHome : ∃ copies, (s.nodeHome t).me = { s.me with l1 := copies } := by
  rw [State.me, State.curCore_nodeHome, State.nodeHome, State.l1DropRange, State.core_l1Drops]
  exact ⟨_, if_pos rfl⟩

@[simp] theorem State.blk_nodeHome : (s.nodeHome t).blk = s.blk := by
  obtain ⟨copies, own⟩ := s.me_nodeHome t
  rw [State.blk, own, State.blk]
@[simp] theorem State.claim_nodeHome : (s.nodeHome t).me.claim = s.me.claim := by
  obtain ⟨copies, own⟩ := s.me_nodeHome t
  rw [own]
@[simp] theorem State.regs_nodeHome : (s.nodeHome t).me.regs = s.me.regs := by
  obtain ⟨copies, own⟩ := s.me_nodeHome t
  rw [own]
@[simp] theorem State.lvlS_nodeHome : (s.nodeHome t).me.lvlS = s.me.lvlS := by
  obtain ⟨copies, own⟩ := s.me_nodeHome t
  rw [own]
@[simp] theorem State.w_nodeHome : (s.nodeHome t).w = s.w := congrArg Blk.w (s.blk_nodeHome t)
@[simp] theorem State.x_nodeHome (a : BitVec 6) : (s.nodeHome t).x a = s.x a := congrArg (·.getX a) (s.w_nodeHome t)
@[simp] theorem State.heldPorts_nodeHome : (s.nodeHome t).heldPorts = s.heldPorts := by simp [State.heldPorts]
@[simp] theorem State.principals_nodeHome : (s.nodeHome t).principals = s.principals := by simp [State.principals]
@[simp] theorem State.rolesUsed_nodeHome (wire : Bool) : (s.nodeHome t).rolesUsed wire = s.rolesUsed wire := by simp [State.rolesUsed]

end

/-! ## NLINK -/

section
variable {o : NET} {s : State} {ta tb : Tr} {p q : Nat}

/-- The two ports stand, and each may be used in its role: the join is held (15 R241). -/
theorem nlink_holds (hr : Runs (.nlink o) o.g o.gs s) {wa wb : Bool} (hwa : (o.func == 1 || o.func == 3) = wa)
    (hwb : (o.func == 2 || o.func == 3) = wb) (ha : s.linkPort (s.x o.a) o.pa.toNat = .ok (ta, p))
    (hb : s.linkPort (s.x o.b) o.pb.toNat = .ok (tb, q)) {wires : List Nat}
    (hwires : wires = (if wa then [p] else []) ++ (if wb then [q] else []) ++ s.rolesUsed true)
    (wireA : wa = true → p ∈ s.heldPorts ∧ p ∉ s.rolesUsed true)
    (wireB : wb = true → q ∈ s.heldPorts ∧ q ∉ s.rolesUsed true ∧ (wa = true → q ≠ p))
    (portA : wa = false → s.portRole ta p wires (s.rolesUsed false) = .ok ())
    (portB : wb = false → s.portRole tb q wires (if wa then s.rolesUsed false else p :: s.rolesUsed false) = .ok ()) :
    ∃ t, exec (.nlink o) s = .next t ∧ Holds ((s.nodeHome ta).nodeHome tb) t
      [.release false, .nlink (p, wa) (q, wb) s.me.regs.colour s.me.lvlS] := by
  subst hwires
  refine ⟨_, (exec_nlink o s).trans (checked_ok hr.2 ?_), holds_holdAll ..⟩
  have freeA : (wa && (!s.heldPorts.contains p || (s.rolesUsed true).contains p)) = false := by
    cases wa with
    | false => rfl
    | true => simp [wireA rfl]
  have freeB : (wb && (!s.heldPorts.contains q || (if wa then p :: s.rolesUsed true else s.rolesUsed true).contains q)) = false := by
    cases wb with
    | false => rfl
    | true =>
      obtain ⟨own, unused, other⟩ := wireB rfl
      cases wa <;> simp [own, unused, other]
  have roleA : (if wa = true then .ok () else s.portRole ta p _ (s.rolesUsed false)) = Except.ok () := ite_eq_left_iff.2 fun h =>
    portA (Bool.eq_false_of_not_eq_true h)
  have roleB : (if wb = true then .ok () else s.portRole tb q _ (if wa then s.rolesUsed false else p :: s.rolesUsed false)) =
    Except.ok () := ite_eq_left_iff.2 fun h => portB (Bool.eq_false_of_not_eq_true h)
  simp only [hwa, hwb, ha, hb, freeA, freeB, roleA, roleB, Bool.false_eq_true, if_false]

/-- A wire role needs a held port (code 0x3D). -/
theorem nlink_wire_fault (hr : Runs (.nlink o) o.g o.gs s) (ha : s.linkPort (s.x o.a) o.pa.toNat = .ok (ta, p))
    (hb : s.linkPort (s.x o.b) o.pb.toNat = .ok (tb, q)) (wire : o.func = 1 ∨ o.func = 3) (free : p ∉ s.heldPorts) :
    exec (.nlink o) s = .next (s.faultAt s.cur 0x3D 0 (w64 p)) := by
  refine faults_of_checked (exec_nlink o s) ?_ hr
  have lacks : ((o.func == 1 || o.func == 3) && (!s.heldPorts.contains p || (s.rolesUsed true).contains p)) = true := by
    simpa [free] using wire
  simp only [ha, hb, lacks, if_true]

end

end Sys2Proof.Machine

namespace Sys2Proof.Proofs
open Sys2Proof Sys2Proof.Machine Sys2Proof.Says

/-- Settles O32: the join is held behind its checks; its delivery writes the two link words at their banks. -/
theorem netJoin : Obligations.NetJoin := by
  unfold Obligations.NetJoin
  constructor
  · intro o s ta tb p q wa wb used taken s1 wires hr ha hb
    have formA : (o.func == 1 || o.func == 3) = decide wa := (Bool.decide_or _ _).symm
    have formB : (o.func == 2 || o.func == 3) = decide wb := (Bool.decide_or _ _).symm
    refine ⟨fun wireA wireB portA portB => ?_, nlink_wire_fault hr ha hb⟩
    refine nlink_holds hr formA formB ha hb (wires := wires) (by simp [wires, used]) ?_ ?_ ?_ ?_
    · simpa using wireA
    · simpa using wireB
    · simpa using portA
    · simpa using portB
  · intro s n p q c lvlS tp tq k s1 s2 s3 pair hp hq
    refine State.nlinkDeliver_ports s n p q c lvlS ((join_ports_runOn k 64 hp rfl hq rfl).trans ?_)
    simp only [s3, s2, s1, pair, k, BitVec.ofNat_toNat, BitVec.setWidth_eq]
    rfl

end Sys2Proof.Proofs
end

section
/-!
PROOFS of family 15. The forms of nodes, bags and the rule table (15 R245, Table 15.8).
-/
namespace Sys2Proof.Machine
open Sys2Proof.Says

/-! ## Giving copies up does not depend on the rest of a core -/

/-- The state outside its cores. -/
def State.bare (s : State) : State := { s with cores := [] }

theorem State.bare_writeByte (s : State) (key h : Nat) (b : Byte) : (s.writeByte key h b).bare = s.bare.writeByte key h b := by
  by_cases dram : (space h == .gddr) = true
  · simp only [State.writeByte, State.bare, dram, if_true]
    cases Sp.find? s.l2 (h / 128) <;> rfl
  · simp only [State.writeByte, State.bare, dram]
    rfl

theorem State.bare_mark (s : State) (h : Nat) (b : Bool) : (s.mark h b).bare = s.bare.mark h b := by
  unfold State.mark State.bare
  dsimp only
  split <;> rfl

theorem State.bare_foldl {α : Type} {f : State → α → State} (apart : ∀ s a, (f s a).bare = f s.bare a) (l : List α) (s : State) :
    (l.foldl f s).bare = l.foldl f s.bare := (List.foldl_hom State.bare fun s a => (apart s a).symm).symm

theorem State.bare_writeLine (s : State) (line : Nat) (l : L1Line) : (s.writeLine line l).bare = s.bare.writeLine line l := by
  unfold State.writeLine
  by_cases clean : l.dirty = 0
  · simp only [clean, if_true]
  · by_cases retired : (space (line * 128) == .gddr && s.isRetired (line * 128)) = true
    · have same : (space (line * 128) == .gddr && s.bare.isRetired (line * 128)) = true := retired
      simp only [clean, if_false, retired, same, if_true]
      rfl
    · have same : ¬(space (line * 128) == .gddr && s.bare.isRetired (line * 128)) = true := retired
      simp only [clean, if_false, retired, same, Bool.false_eq_true]
      rw [State.bare_foldl, State.bare_foldl]
      · intro s i
        split
        · exact s.bare_writeByte ..
        · rfl
      · intro s i
        split
        · exact s.bare_mark ..
        · split
          · exact s.bare_mark ..
          · rfl

theorem State.bare_l1Drop (s : State) (n line : Nat) : (s.l1Drop n line).bare =
    ((Sp.find? (s.core n).l1 line).map (s.bare.writeLine line)).getD s.bare := by
  unfold State.l1Drop State.l1WriteBack
  cases Sp.find? (s.core n).l1 line with
  | none => rfl
  | some l =>
    rw [Option.map_some, Option.getD_some, ← State.bare_writeLine]
    dsimp only
    split <;> rfl

/-- Two states that agree but for their cores, and in the copies of core n, agree after copies of core n are given up. -/
theorem State.bare_l1Drops {n : Nat} (lines : List Nat) {s t : State} (same : t.bare = s.bare) (copies : (t.core n).l1 = (s.core n).l1) :
    (lines.foldl (fun s line => s.l1Drop n line) t).bare = (lines.foldl (fun s line => s.l1Drop n line) s).bare := by
  induction lines generalizing s t with
  | nil => exact same
  | cons line rest ih =>
    refine ih ?_ ?_
    · rw [State.bare_l1Drop, State.bare_l1Drop, same, copies]
    · rw [State.core_l1Drop, State.core_l1Drop, if_pos rfl, if_pos rfl, copies]

theorem State.readHome_of_bare {s t : State} (same : t.bare = s.bare) (key h : Nat) : t.readHome key h = s.readHome key h :=
  congrArg (fun u => u.readHome key h) same

theorem State.readHome_l1DropAll_setMe {s : State} {c : Core} (copies : c.l1 = s.me.l1) (key h : Nat) :
    ((s.setMe c).l1DropAll s.cur).readHome key h = (s.l1DropAll s.cur).readHome key h := by
  have own : ((s.setMe c).core s.cur).l1 = (s.core s.cur).l1 := (congrArg Core.l1 (State.me_setMe s c)).trans copies
  refine State.readHome_of_bare ?_ key h
  rw [State.l1DropAll, State.l1DropAll, own]
  exact State.bare_l1Drops _ rfl own

/-! ## The words of a node -/

theorem State.readHomeN_eq_map (s : State) (key h n : Nat) : s.readHomeN key h n = (List.range n).map fun i => s.readHome key (h + i) := by
  induction n generalizing h with
  | zero => rfl
  | succ n ih => simp [State.readHomeN, ih, List.range_succ_eq_map, List.map_map, Function.comp_def, Nat.add_assoc, Nat.add_comm 1]

/-- A node that no held effect touches and whose bytes are sound is read as its bank holds it. -/
theorem State.nodeWord_clean {s : State} {t : Tr} (va : Nat) {off : Nat} (held : ∀ i, i < 64 → heldByte s.blk.held (t.home + i) = none)
    (sound : s.anyPoison t.home 64 = false) (inside : off + 8 ≤ 64) :
    s.nodeWord t va off = .ok (s.readVal t.key (t.home + off) 8) := by
  have own (i : Nat) (hi : i < 8) : ((List.range 8).map fun i => heldByte s.blk.held (t.home + off + i)).getD i none = none := by
    rw [getD_map_range _ hi, Nat.add_assoc]
    exact held _ (by omega)
  have good : ((List.range 8).any fun i => (((List.range 8).map fun i => heldByte s.blk.held (t.home + off + i)).getD i none).isNone &&
      s.poisoned (t.home + off + i)) = false := by
    rw [List.any_eq_false]
    intro i hi
    have unmarked := List.any_eq_false.1 sound (off + i) (List.mem_range.2 (by have := List.mem_range.1 hi; omega))
    rw [← Nat.add_assoc] at unmarked
    simp [unmarked]
  have bytes : ((List.range 8).map fun i => (((List.range 8).map fun i => heldByte s.blk.held (t.home + off + i)).getD i none).getD
      (s.readHome t.key (t.home + off + i))) = s.readHomeN t.key (t.home + off) 8 := by
    rw [State.readHomeN_eq_map]
    refine List.map_congr_left fun i hi => ?_
    rw [own i (List.mem_range.1 hi)]
    rfl
  rw [State.nodeWord]
  simp only [good, bytes, Bool.false_eq_true, if_false]
  rfl

/-- What a form of a live node leaves of its operand's checks. -/
theorem State.liveNode_operand {s : State} {va : W64} {wr : Bool} {t : Tr} {h : Nat} (live : s.liveNode va wr = .ok (t, h)) :
    s.nodeOperand va wr = .ok t := by
  rw [State.liveNode] at live
  cases operand : s.nodeOperand va wr with
  | error e => rw [operand] at live; cases live
  | ok t' =>
    rw [operand] at live
    dsimp only at live
    cases word : (s.nodeHome t').nodeWord t' va.toNat 0 with
    | error e => rw [word] at live; cases live
    | ok h' =>
      rw [word] at live
      dsimp only at live
      split at live
      · cases live
      · cases live
        rfl

theorem nodePort_sub (va i : Nat) : nodePort va i - va = 8 * (i + 1) := by simp [nodePort]

section
variable {o : NET} {s : State} {tr : Tr} {h : Nat}

/-- No held effect of the block touches the node, and its bytes at the bank are sound. -/
def State.CleanNode (s : State) (tr : Tr) : Prop :=
  (∀ k, k < 64 → heldByte s.blk.held (tr.home + k) = none) ∧ (s.nodeHome tr).anyPoison tr.home 64 = false

theorem State.CleanNode.word (clean : s.CleanNode tr) (va : Nat) {off : Nat} (inside : off + 8 ≤ 64) :
    (s.nodeHome tr).nodeWord tr va off = .ok ((s.nodeHome tr).readVal tr.key (tr.home + off) 8) :=
  State.nodeWord_clean va (by rw [State.blk_nodeHome]; exact clean.1) clean.2 inside

/-! ## NLD, NST -/

theorem nld_gives (hr : Runs (.nld o) o.g o.gs s) (operand : s.nodeOperand (s.x o.a) false = .ok tr) (clean : s.CleanNode tr) :
    ∃ t, exec (.nld o) s = .next t ∧
      WroteX (s.nodeHome tr) t o.d (w64 ((s.nodeHome tr).readVal tr.key (tr.home + 8 * o.func.toNat) 8)) := by
  have small : o.func.toNat < 8 := by
    have wf := hr.1
    simp only [Instr.wf, NET.ok, Bool.and_eq_true, decide_eq_true_eq] at wf
    exact wf.2
  refine ⟨_, (exec_nld o s).trans (checked_ok hr.2 ?_), wroteX_setX ..⟩
  simp only [operand, clean.word (s.x o.a).toNat (off := 8 * o.func.toNat) (by omega)]

/-- The write of NST that its checks let pass. -/
theorem nst_holds (hr : Runs (.nst o) o.g o.gs s) (live : s.liveNode (s.x o.a) true = .ok (tr, h)) (clean : s.CleanNode tr)
    (header : o.func.toNat = 0 → fld (s.x o.b).toNat 41 32 = 0 ∧ kindOk (hdrKind (s.x o.b).toNat) (hdrArity (s.x o.b).toNat) = true)
    (link : 1 ≤ o.func.toNat → o.func.toNat ≤ 4 → o.func.toNat ≤ hdrArity h + 1 ∧
      nodePort (s.x o.a).toNat (o.func.toNat - 1) ∉ s.heldPorts ++ s.principals ∧
      linkState ((s.nodeHome tr).readVal tr.key (tr.home + 8 * o.func.toNat) 8) ≠ sHole ∧
      fld (s.x o.b).toNat 61 57 = 0 ∧ fld (s.x o.b).toNat 5 2 = 0) :
    ∃ t, exec (.nst o) s = .next t ∧ Holds (s.nodeHome tr) t [.node (tr.home + 8 * o.func.toNat) (s.x o.b) tr.key] := by
  refine ⟨_, (exec_nst o s).trans (checked_ok hr.2 ?_), holds_holdAll ..⟩
  rcases Nat.eq_zero_or_pos o.func.toNat with first | later
  · obtain ⟨reserved, kind⟩ := header first
    simp [live, first, reserved, kind, State.hold, State.holdAll]
  · by_cases low : o.func.toNat ≤ 4
    · obtain ⟨arity, other, open', upper, lower⟩ := link later low
      have port : ((s.heldPorts ++ s.principals).contains (nodePort (s.x o.a).toNat (o.func.toNat - 1)) ||
          linkState ((s.nodeHome tr).readVal tr.key (tr.home + 8 * o.func.toNat) 8) == sHole) = false := by
        rw [Bool.or_eq_false_iff]
        exact ⟨by simpa using other, by simpa using open'⟩
      have index : ¬o.func.toNat - 1 > hdrArity h := by omega
      simp only [live, beq_iff_eq, Nat.ne_of_gt later, low, index, clean.word (s.x o.a).toNat (off := 8 * o.func.toNat) (by omega),
        State.heldPorts_nodeHome, State.principals_nodeHome, port, upper, lower, bne_self_eq_false, Bool.or_self, Bool.false_eq_true,
        if_false, if_true]
      rfl
    · simp only [live, beq_iff_eq, Nat.ne_of_gt later, low, if_false]
      rfl

/-- A link word of a port past the node's arity is refused (code 0x3A). -/
theorem nst_arity_fault (hr : Runs (.nst o) o.g o.gs s) (live : s.liveNode (s.x o.a) true = .ok (tr, h)) (later : 1 ≤ o.func.toNat)
    (low : o.func.toNat ≤ 4) (past : hdrArity h + 1 < o.func.toNat) :
    exec (.nst o) s = .next (s.faultAt s.cur 0x3A 0 (w64 (nodePort (s.x o.a).toNat (o.func.toNat - 1)))) := by
  refine faults_of_checked (exec_nst o s) ?_ hr
  have index : o.func.toNat - 1 > hdrArity h := by omega
  simp only [live, beq_iff_eq, Nat.ne_of_gt later, low, index, if_false, if_true]

/-- A port of the current pair, or one whose word reads HOLE, is refused (code 0x3E). -/
theorem nst_port_fault (hr : Runs (.nst o) o.g o.gs s) (live : s.liveNode (s.x o.a) true = .ok (tr, h)) (clean : s.CleanNode tr)
    (later : 1 ≤ o.func.toNat) (low : o.func.toNat ≤ 4) (arity : o.func.toNat ≤ hdrArity h + 1)
    (busy : nodePort (s.x o.a).toNat (o.func.toNat - 1) ∈ s.heldPorts ++ s.principals ∨
      linkState ((s.nodeHome tr).readVal tr.key (tr.home + 8 * o.func.toNat) 8) = sHole) :
    exec (.nst o) s = .next (s.faultAt s.cur 0x3E 0 (w64 (nodePort (s.x o.a).toNat (o.func.toNat - 1)))) := by
  refine faults_of_checked (exec_nst o s) ?_ hr
  have port : ((s.heldPorts ++ s.principals).contains (nodePort (s.x o.a).toNat (o.func.toNat - 1)) ||
      linkState ((s.nodeHome tr).readVal tr.key (tr.home + 8 * o.func.toNat) 8) == sHole) = true := by
    rw [Bool.or_eq_true]
    exact busy.imp (by simp) (by simp)
  have index : ¬o.func.toNat - 1 > hdrArity h := by omega
  simp only [live, beq_iff_eq, Nat.ne_of_gt later, low, index, clean.word (s.x o.a).toNat (off := 8 * o.func.toNat) (by omega),
    State.heldPorts_nodeHome, State.principals_nodeHome, port, if_false, if_true]

/-! ## NALLOC, NFREE (R230) -/

/-- A held effect, then a register: what may be read of the state. -/
theorem State.hold_setX (s : State) (d : BitVec 6) (v : W64) (e : Held) : ((s.hold e).setX d v).blk.held = s.blk.held ++ [e] ∧
    ((s.hold e).setX d v).x d = (if d = 0 then 0 else v) ∧ (∀ a, a ≠ d → ((s.hold e).setX d v).x a = s.x a) ∧
    ∀ key a, ((s.hold e).setX d v).readHome key a = s.readHome key a := by
  obtain ⟨written, others, -, -, -, -, -, held, -, -⟩ := wroteX_setX (s.hold e) d v
  obtain ⟨effect, regs, -⟩ := holds_holdAll s [e]
  exact ⟨held.trans effect, written, fun a other => (others a other).trans (congrArg (Regs.getX · a) regs), fun _ _ => rfl⟩

theorem nalloc_empty_fault (hr : Runs (.nalloc o) o.g o.gs s) (kind : kindOk o.kind.toNat o.pa.toNat = true) (empty : s.me.nodehead = 0) :
    exec (.nalloc o) s = .next (s.faultAt s.cur 0x38 0 0) := by
  refine faults_of_checked (exec_nalloc o s) ?_ hr
  simp [kind, empty]

theorem nfree_words (clean : s.CleanNode tr) (va : Nat) {i : Nat} (hi : i ≤ 3) :
    (s.nodeHome tr).nodeWord tr va (nodePort va i - va) = .ok ((s.nodeHome tr).readVal tr.key (tr.home + 8 * (i + 1)) 8) := by
  rw [nodePort_sub]
  exact clean.word va (by omega)

theorem nfree_ports (va : Nat) {p : Nat} (hp : p ∈ (List.range (hdrArity h + 1)).map (nodePort va)) :
    ∃ i, i ≤ hdrArity h ∧ nodePort va i = p := by
  obtain ⟨i, hi, port⟩ := List.mem_map.1 hp
  exact ⟨i, Nat.lt_succ_iff.1 (List.mem_range.1 hi), port⟩

theorem hdrArity_le : hdrArity h ≤ 3 := Nat.le_of_lt_succ (Nat.mod_lt _ (by decide))

/-- No word of a clean node answers a fault. -/
theorem nfree_sound (clean : s.CleanNode tr) (va : Nat) {f : Except XF Nat → Option XF} (read : ∀ w, f (.ok w) = none) :
    (((List.range (hdrArity h + 1)).map (nodePort va)).map fun p => (s.nodeHome tr).nodeWord tr va (p - va)).findSome? f = none := by
  rw [List.findSome?_eq_none_iff]
  intro w hw
  obtain ⟨p, hp, word⟩ := List.mem_map.1 hw
  obtain ⟨i, hi, port⟩ := nfree_ports va hp
  rw [← word, ← port, nfree_words clean va (hi.trans hdrArity_le), read]

/-- Ports that are not bound to a port of another rule, and that no port role of the block names: the node is freed at the commit. -/
theorem nfree_holds (hr : Runs (.nfree o) o.g o.gs s) (live : s.liveNode (s.x o.a) true = .ok (tr, h)) (clean : s.CleanNode tr)
    (once : ∀ e ∈ s.blk.held, ∀ n q l, e = .nfree n q l → n ≠ s.x o.a)
    (free : ∀ i, i ≤ hdrArity h → (linkState ((s.nodeHome tr).readVal tr.key (tr.home + 8 * (i + 1)) 8) = sBound →
      nodePort (s.x o.a).toNat i ∈ s.heldPorts ++ s.principals) ∧ nodePort (s.x o.a).toNat i ∉ s.rolesUsed false) :
    ∃ t, exec (.nfree o) s = .next t ∧ Holds (s.nodeHome tr) t [.nfree (s.x o.a) s.me.regs.colour s.me.lvlS] := by
  refine ⟨_, (exec_nfree o s).trans (checked_ok (t := (s.nodeHome tr).hold _) hr.2 ?_), holds_holdAll ..⟩
  dsimp only
  rw [live]
  dsimp only
  rw [nfree_sound clean _ fun _ => rfl, if_neg, State.regs_nodeHome, State.lvlS_nodeHome]
  · simp only [Bool.or_eq_true, not_or, List.any_eq_true, not_exists, not_and, Bool.not_eq_true, State.heldPorts_nodeHome,
      State.principals_nodeHome, State.rolesUsed_nodeHome, State.blk_nodeHome]
    refine ⟨⟨fun p hp => ?_, fun p hp => ?_⟩, fun e he => ?_⟩
    · obtain ⟨i, hi, port⟩ := nfree_ports _ hp
      rw [← port, nfree_words clean _ (hi.trans hdrArity_le)]
      have own := (free i hi).1
      simp only [Bool.and_eq_false_iff, beq_eq_false_iff_ne, Bool.not_eq_false', List.contains_iff_mem]
      exact or_iff_not_imp_left.2 fun bound => own (not_not.1 bound)
    · obtain ⟨i, hi, port⟩ := nfree_ports _ hp
      rw [← port]
      simpa using (free i hi).2
    · split
      next n q l => simpa using once _ he n q l rfl
      next => rfl

/-- A port bound to another rule's keeps its node (code 0x3C). -/
theorem nfree_bound_fault (hr : Runs (.nfree o) o.g o.gs s) (live : s.liveNode (s.x o.a) true = .ok (tr, h)) (clean : s.CleanNode tr)
    {i : Nat} (hi : i ≤ hdrArity h) (bound : linkState ((s.nodeHome tr).readVal tr.key (tr.home + 8 * (i + 1)) 8) = sBound)
    (other : nodePort (s.x o.a).toNat i ∉ s.heldPorts ++ s.principals) :
    exec (.nfree o) s = .next (s.faultAt s.cur 0x3C 0 (s.x o.a)) := by
  refine faults_of_checked (exec_nfree o s) ?_ hr
  dsimp only
  rw [live]
  dsimp only
  rw [nfree_sound clean _ fun _ => rfl, if_pos]
  simp only [Bool.or_eq_true, List.any_eq_true]
  refine .inl (.inl ⟨nodePort (s.x o.a).toNat i, List.mem_map.2 ⟨i, List.mem_range.2 (Nat.lt_succ_of_le hi), rfl⟩, ?_⟩)
  rw [nfree_words clean _ (hi.trans hdrArity_le), State.heldPorts_nodeHome, State.principals_nodeHome]
  simpa [bound] using other

/-- The pool of the core after NALLOC has taken the node at `tr`: the node's next is its head. -/
def State.poolNext (s : State) (tr : Tr) : State :=
  (s.nodeHome tr).setMe { (s.nodeHome tr).me with
    nodehead := w64 (fld ((s.nodeHome tr).readVal tr.key (tr.home + 40) 8) 56 6 * 64) }

theorem State.blk_poolNext : (s.poolNext tr).blk = s.blk := by
  rw [State.blk, State.poolNext, State.me_setMe]
  exact s.blk_nodeHome tr

/-- The head of the pool is taken, and the node's header is written at the commit. -/
theorem nalloc_takes (hr : Runs (.nalloc o) o.g o.gs s) (kind : kindOk o.kind.toNat o.pa.toNat = true) (full : s.me.nodehead ≠ 0)
    (operand : s.nodeOperand s.me.nodehead true = .ok tr) (clean : s.CleanNode tr) :
    ∃ t, exec (.nalloc o) s = .next t ∧ t.x o.d = (if o.d = 0 then 0 else s.me.nodehead) ∧ (∀ r, r ≠ o.d → t.x r = s.x r) ∧
      t.me.nodehead = w64 (fld ((s.nodeHome tr).readVal tr.key (tr.home + 40) 8) 56 6 * 64) ∧
      t.blk.held = s.blk.held ++
        [.nalloc s.me.nodehead tr.home tr.key (w64 (nodeHdr o.kind.toNat s.me.regs.colour.toNat o.pa.toNat))] ∧
      ∀ key q, t.readHome key q = (s.nodeHome tr).readHome key q := by
  obtain ⟨held, written, others, memory⟩ := (s.poolNext tr).hold_setX o.d s.me.nodehead
    (.nalloc s.me.nodehead tr.home tr.key (w64 (nodeHdr o.kind.toNat s.me.regs.colour.toNat o.pa.toNat)))
  refine ⟨_, (exec_nalloc o s).trans (checked_ok hr.2 ?_), written, fun r other => (others r other).trans ?_, ?_,
    held.trans (by rw [State.blk_poolNext]), memory⟩
  · simp only [kind, full, operand, clean.word s.me.nodehead.toNat (off := 40) (by omega), Bool.not_true, Bool.false_eq_true, if_false]
    rfl
  · exact congrArg (fun b : Blk => b.w.getX r) State.blk_poolNext
  · simp [State.poolNext, State.hold, State.setX, State.setW, State.setBlk]

/-! ## NPUSH, NPOP (R234, R235, R240) -/

theorem npush_holds (plainForm : o.func ≠ 1) {ta tb : Tr × Nat} (ha : s.liveNode (s.x o.a) false = .ok ta)
    (hb : s.liveNode (s.x o.b) false = .ok tb) : GivesHeld (.npush o) o.g o.gs s
    [.release false, .npush { a := s.x o.a, b := s.x o.b, colour := s.me.regs.colour, launch := false }] := by
  refine fun hr => ⟨_, (exec_npush o s).trans (checked_ok hr.2 ?_), holds_holdAll ..⟩
  have form : (o.func == 1) = false := by simpa using plainForm
  simp only [form, ha, hb, Bool.false_eq_true, if_false]

theorem released_iff : s.released = true ↔ ∃ l, .nrel l ∈ s.blk.held := by
  rw [State.released, List.any_eq_true]
  constructor
  · rintro ⟨e, he, rel⟩
    split at rel
    next l => exact ⟨l, he⟩
    next => cases rel
  · exact fun ⟨l, he⟩ => ⟨_, he, rfl⟩

/-- NPUSH.rel of a pair that the block still has: tstat.pair is clear for the rest of the block. -/
theorem npush_rel_holds (form : o.func = 1) (claimed : s.me.claim ≠ none) (first : ∀ e ∈ s.blk.held, ∀ l, e ≠ .nrel l)
    (hr : Runs (.npush o) o.g o.gs s) :
    ∃ t, exec (.npush o) s = .next (t.setW { s.w with tstat := s.w.tstat &&& 0b101111 }) ∧
      Holds s t [.release false, .nrel s.me.lvlS] := by
  refine ⟨_, (exec_npush o s).trans (checked_ok hr.2 ?_), holds_holdAll ..⟩
  have kept : s.released = false := Bool.eq_false_iff.2 fun rel => by
    obtain ⟨l, he⟩ := released_iff.1 rel
    exact first _ he l rfl
  have pair : s.me.claim.isNone = false := by simpa [Option.isSome_iff_ne_none] using claimed
  simp [form, kept, pair]

theorem npush_rel_fault (form : o.func = 1) (lacking : s.me.claim = none ∨ ∃ l, .nrel l ∈ s.blk.held) (hr : Runs (.npush o) o.g o.gs s) :
    exec (.npush o) s = .next (s.faultAt s.cur 0x3D 0 0) := by
  refine faults_of_checked (exec_npush o s) ?_ hr
  have none : (s.me.claim.isNone || s.released) = true := by
    rw [Bool.or_eq_true]
    exact lacking.imp (fun h => by rw [h]; rfl) released_iff.2
  simp only [form, none, beq_self_eq_true, if_true]

theorem npop_empty (hr : Runs (.npop o) o.g o.gs s) (empty : s.me.bag = []) :
    ∃ t, exec (.npop o) s = .next t ∧ t.x o.d = 0 ∧ t.x o.a = 0 ∧ (∀ r, r ≠ o.d → r ≠ o.a → t.x r = s.x r) ∧
      t.blk.held = s.blk.held ∧ ∀ key q, t.readHome key q = s.readHome key q := by
  obtain ⟨first, others, -, -, -, -, -, held, -, -⟩ := wroteX_setX s o.d 0
  obtain ⟨second, others', -, -, -, -, -, held', -, -⟩ := wroteX_setX (s.setX o.d 0) o.a 0
  rw [ite_self] at first second
  refine ⟨_, (exec_npop o s).trans (checked_ok hr.2 ?_), ?_, second, fun r hd ha => (others' r ha).trans (others r hd), held'.trans held,
    fun _ _ => rfl⟩
  · simp only [empty]
  · by_cases same : o.d = o.a
    · exact (congrArg _ same).trans second
    · exact (others' o.d same).trans first

/-- The core after NPOP has taken the head of its bag: an acquire. -/
def State.bagNext (s : State) (rest : List Pair) : State := (s.setMe { s.me with bag := rest }).l1DropAll s.cur

theorem State.me_bagNext (rest : List Pair) : (s.bagNext rest).me = { s.me with bag := rest, l1 := [] } := by
  refine (State.me_l1DropAll (s.setMe { s.me with bag := rest })).trans ?_
  rw [State.me_setMe]

theorem State.blk_bagNext (rest : List Pair) : (s.bagNext rest).blk = s.blk := by rw [State.blk, State.me_bagNext, State.blk]

theorem npop_takes {p : Pair} {rest : List Pair} (hr : Runs (.npop o) o.g o.gs s) (bag : s.me.bag = p :: rest) (sound : p.mark = none) :
    ∃ t, exec (.npop o) s = .next t ∧ t.me.bag = rest ∧ t.blk.held = s.blk.held ++ [.npop p] ∧
      (o.d ≠ o.a → t.x o.d = if o.d = 0 then 0 else p.a) ∧ t.x o.a = (if o.a = 0 ∨ p.launch then 0 else p.b) ∧
      (∀ r, r ≠ o.d → r ≠ o.a → t.x r = s.x r) ∧ ∀ key q, t.readHome key q = (s.l1DropAll s.cur).readHome key q := by
  obtain ⟨held, first, others, memory⟩ := (s.bagNext rest).hold_setX o.d p.a (.npop p)
  obtain ⟨second, others', -, -, -, -, -, held', -, -⟩ :=
    wroteX_setX (((s.bagNext rest).hold (.npop p)).setX o.d p.a) o.a (if p.launch then 0 else p.b)
  refine ⟨_, (exec_npop o s).trans (checked_ok hr.2 ?_), ?_, held'.trans (held.trans (by rw [State.blk_bagNext])), fun other =>
    (others' o.d other).trans first, second.trans ?_, fun r hd ha => (others' r ha).trans ((others r hd).trans ?_), fun key q =>
    (memory key q).trans (State.readHome_l1DropAll_setMe (c := { s.me with bag := rest }) rfl key q)⟩
  · simp only [bag, sound]
    rfl
  · simp [State.hold, State.setX, State.setW, State.setBlk, State.me_bagNext]
  · rw [ite_or]
  · exact congrArg (fun b : Blk => b.w.getX r) (State.blk_bagNext rest)

/-! ## NRULE (R232, R233) -/

/-- Who looks a rule up for the core: at S (18 R268). -/
def State.ruleCtx (s : State) : NetCtx := { n := s.cur, c := s.myColour, lvlS := true }

/-- What NRULE.look answers is the mask's block, or 0. -/
theorem nruleLook_runs {r : Option (Nat × Nat)} {t : State} (hr : Runs (.nruleLook o) o.g o.gs s)
    (found : (lookupRule s.ruleCtx ((s.x o.a).toNat % 4096) ((s.x o.b).toNat % 4096)).runOn s = (.ok r, t)) :
    exec (.nruleLook o) s = .next (t.setX o.d ((r.map fun q => w64 q.1).getD 0)) := by
  refine (exec_nruleLook o s).trans (checked_ok hr.2 ?_)
  have look : (lookupRule { n := s.cur, c := s.myColour, lvlS := true } ((s.x o.a).toNat % 4096) ((s.x o.b).toNat % 4096)).runOn s =
    (.ok r, t) := found
  simp only [look]
  cases r <;> rfl

theorem lookupRule_cached {k : NetCtx} {ka kb : Nat} {e : Nat × W64 × W64}
    (hit : (s.core k.n).rcache.find? (fun e => e.1 == max ka kb * 4096 + min ka kb) = some e) :
    (lookupRule k ka kb).runOn s = (.ok (some (e.2.1.toNat, e.2.2.toNat)), s) := by
  have found : (s.core k.n).rcache.find? (fun e => e.1 == Nat.max ka kb * 4096 + Nat.min ka kb) = some e := hit
  rw [lookupRule, NetM.runOn_bind_ok (NetM.runOn_get s), found]
  rfl

theorem lookupRule_bare {k : NetCtx} {ka kb : Nat}
    (miss : (s.core k.n).rcache.find? (fun e => e.1 == max ka kb * 4096 + min ka kb) = none) (bare : (s.core k.n).rtab = none) :
    (lookupRule k ka kb).runOn s = (.ok none, s) := by
  have missed : (s.core k.n).rcache.find? (fun e => e.1 == Nat.max ka kb * 4096 + Nat.min ka kb) = none := miss
  rw [lookupRule, NetM.runOn_bind_ok (NetM.runOn_get s), missed]
  dsimp only
  rw [State.ruleTable, bare]
  rfl

/-- A word of the table in this package, permitted and sound, is read where it stands. -/
theorem probe_read {k : NetCtx} {va : Nat} {t : Tr} (here : s.access k.n k.c va 8 k.lvlS true .r = .ok t)
    (sound : s.anyPoison t.home 8 = false) (near : space t.home ≠ .remote) (walked : s.walkHeld k.n k.c va = false) :
    (probe.netRead' k va).runOn s = (.ok (s.readVal t.key t.home 8), s) := by
  have far : (space t.home == .remote) = false := by simpa using near
  have word : s.farWord k.n t va = .ok (s.readVal t.key t.home 8) := by
    simp only [State.farWord, far, sound, Bool.false_eq_true, if_false]
  rw [probe.netRead', NetM.runOn_bind_ok (NetM.runOn_get s)]
  simp only [walked, here, word, Bool.false_eq_true, if_false]
  rfl

/-- A probe whose entry names the pair, and is legal (Table 15.5), ends with its block and mask. -/
theorem probe_hit {k : NetCtx} {base n kmin kmax i left d0 d1 : Nat}
    (word0 : (probe.netRead' k (base + i % 2 ^ n * 16)).runOn s = (.ok d0, s))
    (word1 : (probe.netRead' k (base + i % 2 ^ n * 16 + 8)).runOn s = (.ok d1, s)) (valid : d0 / 2 ^ 63 % 2 = 1) (low : d0 % 4096 = kmin)
    (high : d0 / 4096 % 4096 = kmax) (zero0 : d0 / 2 ^ 56 % 2 ^ 7 = 0) (zero0' : d0 / 2 ^ 24 % 2 ^ 24 = 0) (zero1 : d1 / 2 ^ 57 % 2 ^ 7 = 0) :
    (probe k base n kmin kmax i (left + 1)).runOn s = (.ok (some (d1 % 2 ^ 57, fld d0 55 48)), s) := by
  have top : bitAt d0 63 = true := by
    rw [bitAt, valid]
    rfl
  have lower : fld d0 11 0 = kmin := by rwa [fld, Nat.pow_zero, Nat.div_one]
  have upper : fld d0 23 12 = kmax := high
  have count : fld d0 62 56 = 0 := zero0
  have rest : fld d0 47 24 = 0 := zero0'
  have rest1 : fld d1 63 57 = 0 := zero1
  have block : fld d1 56 0 = d1 % 2 ^ 57 := by rw [fld, Nat.pow_zero, Nat.div_one]
  rw [probe, NetM.runOn_bind_ok word0]
  simp only [top, lower, upper, beq_self_eq_true, Bool.and_self, Bool.not_true, Bool.false_eq_true, if_false, if_true]
  rw [NetM.runOn_bind_ok word1]
  simp only [count, rest, rest1, block, bne_self_eq_false, Bool.or_self, Bool.false_eq_true, if_false]
  rfl

/-- A lookup in the table fills the core's cached entries. -/
theorem lookupRule_table {k : NetCtx} {ka kb n : Nat} {base : W64} {q : Nat × Nat}
    (miss : (s.core k.n).rcache.find? (fun e => e.1 == max ka kb * 4096 + min ka kb) = none) (table : (s.core k.n).rtab = some (base, n))
    (hit : (probe k base.toNat n (min ka kb) (max ka kb) (ruleHash n (min ka kb) (max ka kb)) (2 ^ n)).runOn s = (.ok (some q), s)) :
    (lookupRule k ka kb).runOn s = (.ok (some q), s.setCore k.n { s.core k.n with
      rcache := (max ka kb * 4096 + min ka kb, w64 q.1, w64 q.2) :: (s.core k.n).rcache }) := by
  have missed : (s.core k.n).rcache.find? (fun e => e.1 == Nat.max ka kb * 4096 + Nat.min ka kb) = none := miss
  have probed : (probe k base.toNat n (Nat.min ka kb) (Nat.max ka kb) (ruleHash n (Nat.min ka kb) (Nat.max ka kb)) (2 ^ n)).runOn s =
    (.ok (some q), s) := hit
  have installed : s.ruleTable k.n = some (base.toNat, n) := by
    rw [State.ruleTable, table]
    rfl
  rw [lookupRule, NetM.runOn_bind_ok (NetM.runOn_get s), missed]
  dsimp only
  rw [installed]
  dsimp only
  rw [NetM.runOn_bind_ok probed]
  rfl

/-- NRULE.look through the table answers the entry's block, and reads memory alone. -/
theorem nruleLook_table {n : Nat} {base : W64} {q : Nat × Nat} {kmin kmax : Nat} (hr : Runs (.nruleLook o) o.g o.gs s)
    (low : kmin = min ((s.x o.a).toNat % 4096) ((s.x o.b).toNat % 4096)) (high : kmax = max ((s.x o.a).toNat % 4096) ((s.x o.b).toNat % 4096))
    (miss : s.me.rcache.find? (fun e => e.1 == kmax * 4096 + kmin) = none) (table : s.me.rtab = some (base, n))
    (hit : (probe s.ruleCtx base.toNat n kmin kmax (ruleHash n kmin kmax) (2 ^ n)).runOn s = (.ok (some q), s)) :
    ∃ u, exec (.nruleLook o) s = .next u ∧ u.x o.d = (if o.d = 0 then 0 else w64 q.1) ∧ (∀ r, r ≠ o.d → u.x r = s.x r) ∧
      ∀ key a, u.readHome key a = s.readHome key a := by
  subst low high
  have looked := lookupRule_table (s := s) (k := s.ruleCtx) miss table hit
  obtain ⟨written, others, -⟩ := wroteX_setX (s.setMe { s.me with
    rcache := (max ((s.x o.a).toNat % 4096) ((s.x o.b).toNat % 4096) * 4096 + min ((s.x o.a).toNat % 4096) ((s.x o.b).toNat % 4096),
      w64 q.1, w64 q.2) :: s.me.rcache }) o.d (w64 q.1)
  refine ⟨_, nruleLook_runs hr looked, written, fun r other => (others r other).trans ?_, fun _ _ => rfl⟩
  exact (congrArg (fun c : Core => c.blk.w.getX r) (State.me_setMe s _)).trans rfl

theorem nruleSet_holds (small : 4 ≤ (s.x o.b).toNat) (large : (s.x o.b).toNat ≤ 11) (aligned : (s.x o.a).toNat % (16 * 2 ^ (s.x o.b).toNat) = 0)
    (permitted : s.ruleTableSealed (s.x o.a).toNat (s.x o.b).toNat = .ok ()) :
    GivesHeld (.nruleSet o) o.g o.gs s [.nruleSet (s.x o.a) (s.x o.b).toNat] := by
  refine givesHeld_of_checked (exec_nruleSet o s) ?_
  have size : (s.x o.b).toNat % 16 = (s.x o.b).toNat := Nat.mod_eq_of_lt (by omega)
  have legal : (decide ((s.x o.b).toNat ≥ 16) || decide ((s.x o.b).toNat < 4) || decide ((s.x o.b).toNat > 11) ||
      (s.x o.a).toNat % (16 * 2 ^ (s.x o.b).toNat) != 0) = false := by
    simp only [aligned, bne_self_eq_false, Bool.or_false, Bool.or_eq_false_iff, decide_eq_false_iff_not]
    omega
  simp only [size, legal, permitted, Bool.false_eq_true, if_false]

theorem nruleSet_fault (hr : Runs (.nruleSet o) o.g o.gs s) (bad : (s.x o.b).toNat < 4 ∨ 11 < (s.x o.b).toNat) :
    exec (.nruleSet o) s = .next (s.faultAt s.cur 0x40 0 (s.x o.b)) := by
  refine faults_of_checked (exec_nruleSet o s) ?_ hr
  have illegal : (decide ((s.x o.b).toNat ≥ 16) || decide ((s.x o.b).toNat % 16 < 4) || decide ((s.x o.b).toNat % 16 > 11) ||
      (s.x o.a).toNat % (16 * 2 ^ ((s.x o.b).toNat % 16)) != 0) = true := by
    simp only [Bool.or_eq_true, decide_eq_true_eq]
    omega
  simp only [illegal, if_true]

end

end Sys2Proof.Machine

namespace Sys2Proof.Proofs
open Sys2Proof Sys2Proof.Machine Sys2Proof.Says

/-- Settles O31: each form by what its checks leave, the words of the node read at its bank. -/
theorem netForms : Obligations.NetForms := by
  unfold Obligations.NetForms
  intro o s tr a b c s1 dword clean port mine holdsNode w kmin kmax
  refine ⟨fun hr operand sound => nld_gives hr operand sound, fun h hr live sound => ⟨fun later => ?_, fun first reserved kind => ?_,
      fun later low arity other open' upper lower => ?_, fun later low arity busy => ?_, nst_arity_fault hr live⟩,
    fun hr kind full operand sound => ?_, nalloc_empty_fault, fun h hr live sound once => ⟨nfree_holds hr live sound once, fun i hi bound other =>
      nfree_bound_fault hr live sound hi bound other⟩,
    fun form ⟨ta, ha⟩ ⟨tb, hb⟩ => npush_holds form ha hb, npush_rel_holds, npush_rel_fault, npop_empty, fun p rest => npop_takes,
    fun q hit hr => ?_, fun miss bare hr => ?_, ?_, ⟨fun _ small large => nruleSet_holds small large, nruleSet_fault⟩,
    givesHeld_of_plain (exec_nruleInv o s)⟩
  · exact nst_holds hr live sound (fun first => absurd first (by omega)) (fun _ low => absurd low (by omega))
  · have held := nst_holds hr live sound (fun _ => ⟨reserved, ?_⟩) (fun later _ => absurd later (by omega))
    · rwa [show o.func.toNat = 0 from first] at held
    · have top : hdrKind b.toNat = b.toNat / 2 ^ 52 := by
        simp only [hdrKind, fld]
        exact Nat.mod_eq_of_lt (by omega)
      rw [show hdrKind (s.x o.b).toNat = b.toNat / 2 ^ 52 from top]
      exact kind
  · exact nst_holds hr live sound (fun first => absurd first (by omega)) fun _ _ => ⟨arity, other, open', upper, lower⟩
  · exact nst_port_fault hr live sound later low arity busy
  · have taken := nalloc_takes hr kind full operand sound
    have next (v : Nat) : fld v 56 6 = v / 2 ^ 6 % 2 ^ 51 := rfl
    have header : nodeHdr o.kind.toNat c.toNat o.pa.toNat = o.kind.toNat * 2 ^ 52 + c.toNat * 2 ^ 44 + o.pa.toNat * 2 ^ 42 := by
      rw [nodeHdr, Nat.mod_eq_of_lt c.isLt, Nat.mod_eq_of_lt o.pa.isLt]
    rwa [next, header] at taken
  · exact ⟨_, nruleLook_runs hr (lookupRule_cached hit), by simpa [w64] using wroteX_setX s o.d q.2.1⟩
  · exact ⟨_, nruleLook_runs hr (lookupRule_bare miss bare), wroteX_setX ..⟩
  · intro base n t0 t1 miss table e here0 here1 sound0 sound1 near0 near1 walked0 walked1 d0 d1 valid low high zero0 zero0' zero1 hr
    have place : base.toNat + ruleHash n kmin kmax % 2 ^ n * 16 = e := rfl
    have word0 := probe_read (k := s.ruleCtx) here0 sound0 near0 walked0
    have word1 := probe_read (k := s.ruleCtx) here1 sound1 near1 walked1
    rw [← place] at word0 word1
    have hit := probe_hit (left := 2 ^ n - 1) word0 word1 valid low high zero0 zero0' zero1
    rw [Nat.sub_add_cancel Nat.one_le_two_pow] at hit
    exact nruleLook_table (q := (d1 % 2 ^ 57, fld d0 55 48)) hr rfl rfl miss table hit

end Sys2Proof.Proofs
end

section
/-!
PROOFS of family 25. Channel ends: ready, close, token and credit frames (25 R347 to R351).
-/
namespace Sys2Proof.Machine

/-! ## An end, and the frames on their way -/

section
variable (s : State) (k : Nat) (e : ChanEnd)

@[simp] theorem State.chanEnd_setEnd : (s.setEnd k e).chanEnd k = e := Sp.get_put_self ..
@[simp] theorem State.chanEnd_putFrame (p : Packet) : (s.putFrame p).chanEnd k = s.chanEnd k := rfl
@[simp] theorem State.chanEnd_sendFrame (kind colour count : Nat) (toks : List Token) :
    (s.sendFrame e kind colour count toks).chanEnd k = s.chanEnd k := rfl
theorem State.flight_sendFrame (kind colour count : Nat) (toks : List Token) :
    (s.sendFrame e kind colour count toks).net.flight = s.net.flight ++ [e.frame kind colour count toks] := rfl
theorem State.net_setEnd : (s.setEnd k e).net = s.net := rfl

/-- A sum that stops at all ones is the least of the two (any count of the model). -/
theorem satAdd_eq_min (w a b : Nat) : satAdd w a b = min (2 ^ w - 1) (a + b) := by
  rw [satAdd]
  split <;> omega

/-- A fold whose steps change nothing leaves the state. -/
theorem State.foldl_same {α : Type} (f : State → α → State) (l : List α) (same : ∀ a ∈ l, ∀ s, f s a = s) (s : State) :
    l.foldl f s = s := by
  induction l generalizing s with
  | nil => rfl
  | cons a l ih =>
    rw [List.foldl_cons, same a List.mem_cons_self]
    exact ih (fun b hb => same b (List.mem_cons_of_mem a hb)) s

theorem State.exitLeave_keeps {β : Type} (g : State → β)
    (apart : ∀ (s : State) q x r, g { s with exitq := q, expect := x, regions := r } = g s) (n port sl c : Nat) :
    g (s.exitLeave n port sl c) = g s := by
  unfold State.exitLeave
  split
  · dsimp only
    rw [State.moved_keeps g fun s r => apart s s.exitq s.expect r]
    split
    · exact apart s _ _ s.regions
    · exact apart s _ s.expect s.regions
  · rfl

theorem State.channels_exitLeave (n port sl c : Nat) : (s.exitLeave n port sl c).channels = s.channels :=
  s.exitLeave_keeps State.channels (fun _ _ _ _ => rfl) n port sl c
theorem State.net_exitLeave (n port sl c : Nat) : (s.exitLeave n port sl c).net = s.net :=
  s.exitLeave_keeps State.net (fun _ _ _ _ => rfl) n port sl c

theorem ChanEnd.frame_token (t : Token) : (e.frame 0 c 0 [t]).payload.length = 16 := by
  simp [ChanEnd.frame, leBytes_length]

end

/-! ## READY_RESEND, READY_FRAME, CLOSE_FRAME (R347) -/

section
variable {s : State} {k i : Nat} {p : Packet}

theorem State.sendReady_says (u : State) (k : Nat) :
    (u.sendReady k).net.flight = u.net.flight ++ [(u.chanEnd k).frame 2 0 (if (u.chanEnd k).recv then (u.chanEnd k).depth.toNat else 0) []] ∧
      (u.sendReady k).chanEnd k = { u.chanEnd k with readied := true, readyAt := u.cycle } := by
  refine ⟨rfl, ?_⟩
  rw [State.sendReady, State.chanEnd_sendFrame, State.chanEnd_setEnd]

theorem readyResend_sends {part : PartNum} {ch : BitVec 6} (waits : ((s.follow (part.toNat * 64 + ch.toNat)).chanEnd
      (part.toNat * 64 + ch.toNat)).st = .wait) (due : ((s.follow (part.toNat * 64 + ch.toNat)).chanEnd (part.toNat * 64 + ch.toNat)).readied =
      false ∨ 2 ^ 16 ≤ (s.follow (part.toNat * 64 + ch.toNat)).cycle -
        ((s.follow (part.toNat * 64 + ch.toNat)).chanEnd (part.toNat * 64 + ch.toNat)).readyAt) :
    exec (.readyResend part ch) s = .next ((s.follow (part.toNat * 64 + ch.toNat)).sendReady (part.toNat * 64 + ch.toNat)) := by
  rw [exec_readyResend, execReadyResend]
  congr 1
  refine if_pos ?_
  rw [Bool.and_eq_true, Bool.or_eq_true, waits]
  exact ⟨rfl, due.imp (by simp [·]) decide_eq_true⟩

theorem readyResend_rests {part : PartNum} {ch : BitVec 6} (quiet : ((s.follow (part.toNat * 64 + ch.toNat)).chanEnd
      (part.toNat * 64 + ch.toNat)).st ≠ .wait ∨ ((s.follow (part.toNat * 64 + ch.toNat)).chanEnd (part.toNat * 64 + ch.toNat)).readied = true ∧
      (s.follow (part.toNat * 64 + ch.toNat)).cycle -
        ((s.follow (part.toNat * 64 + ch.toNat)).chanEnd (part.toNat * 64 + ch.toNat)).readyAt < 2 ^ 16) :
    exec (.readyResend part ch) s = .next (s.follow (part.toNat * 64 + ch.toNat)) := by
  rw [exec_readyResend, execReadyResend]
  congr 1
  refine if_neg ?_
  rw [Bool.and_eq_true, Bool.or_eq_true, beq_iff_eq, decide_eq_true_eq, Bool.not_eq_true']
  rintro ⟨waits, due⟩
  rcases quiet with other | ⟨sent, early⟩
  · exact other waits
  · rcases due with unsent | late
    · exact absurd (sent.symm.trans unsent) (by decide)
    · exact absurd early (Nat.not_lt.2 late)

/-- A ready frame of its own peer opens an end in WAIT, which has sent its own by then (R347, R349). -/
theorem readyFrame_opens {u : State} {e : ChanEnd} (arrived : s.frameAt k 2 = some (p, i)) (hu : u = (s.dropFlight k).follow i)
    (he : e = u.chanEnd i) (enabled : e.en = true) (waits : e.st = .wait) (peer : e.peerOf p = true) :
    ∃ t, exec (.readyFrame k) s = .next t ∧ (t.chanEnd i).st = .opened ∧ (t.chanEnd i).window = (if e.recv then 0 else p.fCount) ∧
      (t.chanEnd i).spent = [] ∧ (t.chanEnd i).places = [] ∧
      t.net.flight = if e.readied then u.net.flight else u.net.flight ++ [e.frame 2 0 (if e.recv then e.depth.toNat else 0) []] := by
  subst hu he
  generalize hu : (s.dropFlight k).follow i = u at *
  have run : exec (.readyFrame k) s = .next (
      let v := if (u.chanEnd i).readied then u else u.sendReady i
      let q := if (u.chanEnd i).recv then (v, 0) else v.peerColours i (u.chanEnd i)
      q.1.setEnd i { q.1.chanEnd i with
        st := .opened, window := if (u.chanEnd i).recv then 0 else p.fCount, colours := q.2, spent := [], places := [] }) := by
    rw [exec_readyFrame, execReadyFrame, arrived]
    dsimp only
    rw [hu, if_neg (by simp [enabled, waits]), if_neg (by simp [peer]), if_neg (by simp [waits])]
  have sent : (if (u.chanEnd i).readied then u else u.sendReady i).net.flight = if (u.chanEnd i).readied then u.net.flight
      else u.net.flight ++ [(u.chanEnd i).frame 2 0 (if (u.chanEnd i).recv then (u.chanEnd i).depth.toNat else 0) []] := by
    split <;> rfl
  refine ⟨_, run, ?_⟩
  dsimp only
  rw [State.chanEnd_setEnd, State.net_setEnd]
  refine ⟨rfl, rfl, rfl, rfl, (congrArg Net.flight ?_).trans sent⟩
  split
  · rfl
  · rw [State.peerColours]
    split <;> rfl

theorem readyFrame_rests {u : State} {e : ChanEnd} (arrived : s.frameAt k 2 = some (p, i)) (hu : u = (s.dropFlight k).follow i)
    (he : e = u.chanEnd i) (quiet : (e.en = false ∨ e.st = .fault) ∨ e.st ≠ .wait ∧ e.peerOf p = true) :
    exec (.readyFrame k) s = .next u := by
  subst hu he
  rw [exec_readyFrame, execReadyFrame, arrived]
  dsimp only
  generalize (s.dropFlight k).follow i = u at *
  by_cases closed : (!(u.chanEnd i).en || (u.chanEnd i).st == .fault) = true
  · rw [if_pos closed]
  · obtain ⟨other, peer⟩ := quiet.resolve_left fun off => closed (by simpa using off)
    rw [if_neg closed, peer, if_neg (by decide), if_pos (by simpa using other)]

/-- A ready frame of another peer puts an enabled end into FAULT. -/
theorem readyFrame_faults {u : State} {e : ChanEnd} (arrived : s.frameAt k 2 = some (p, i)) (hu : u = (s.dropFlight k).follow i)
    (he : e = u.chanEnd i) (enabled : e.en = true) (sound : e.st ≠ .fault) (other : e.peerOf p = false) :
    exec (.readyFrame k) s = .next (u.channelFault i e) := by
  subst hu he
  rw [exec_readyFrame, execReadyFrame, arrived]
  dsimp only
  rw [if_neg (by simp [enabled, sound]), other, if_pos (by decide)]

theorem ChanEnd.stale_leave (e : ChanEnd) (st : EndState) :
    (e.leave st).stale = min (2 ^ 32 - 1) (e.stale + (e.places.map fun q => q.2.length).sum) := by
  rw [ChanEnd.leave, satAdd_eq_min, ← List.foldl_map (f := fun q : Nat × List Token => q.2.length) (g := fun a n => a + n),
    List.sum_eq_foldl]

theorem closeFrame_closes {u : State} {e : ChanEnd} (arrived : s.frameAt k 3 = some (p, i)) (hu : u = (s.dropFlight k).follow i)
    (he : e = u.chanEnd i) (opened : e.st = .opened) (peer : e.peerOf p = true) :
    exec (.closeFrame k) s = .next (u.setEnd i { e.leave .wait with region := e.region }) := by
  subst hu he
  rw [exec_closeFrame, execCloseFrame, arrived]
  dsimp only
  rw [if_pos (by simp [opened, peer])]

theorem closeFrame_rests {u : State} {e : ChanEnd} (arrived : s.frameAt k 3 = some (p, i)) (hu : u = (s.dropFlight k).follow i)
    (he : e = u.chanEnd i) (quiet : e.st ≠ .opened ∨ e.peerOf p = false) : exec (.closeFrame k) s = .next u := by
  subst hu he
  rw [exec_closeFrame, execCloseFrame, arrived]
  dsimp only
  rw [if_neg (by simpa [imp_iff_not_or] using quiet)]

/-! ## Tokens and credits (R349, R350) -/

/-- A send end that has a credit and a token of the colour sends the token. -/
theorem channelTokenSend_sends {part : PartNum} {ch : BitVec 6} {c : BitVec 8} {j : Nat} {tok : Token} {u : State} {e : ChanEnd}
    (hu : u = s.follow (part.toNat * 64 + ch.toNat)) (he : e = u.chanEnd (part.toNat * 64 + ch.toNat)) (opened : e.st = .opened)
    (sends : e.recv = false) (picked : u.exitPick e.core.toNat e.port.toNat e.slot.toNat c.toNat = some (j, tok))
    (named : e.colours.getLsbD c.toNat = true) (credit : (Sp.get [] e.spent c.toNat).length < e.window) :
    exec (.channelTokenSend part ch c) s = .next (((u.exitLeave e.core.toNat e.port.toNat e.slot.toNat c.toNat).setEnd
      (part.toNat * 64 + ch.toNat) { e.count 1 with spent := Sp.put e.spent c.toNat (Sp.get [] e.spent c.toNat ++ [tok]) }).sendFrame
      (e.count 1) 0 0 0 [tok]) := by
  subst hu he
  have same (n port sl c : Nat) : ((s.follow (part.toNat * 64 + ch.toNat)).exitLeave n port sl c).chanEnd (part.toNat * 64 + ch.toNat) =
      (s.follow (part.toNat * 64 + ch.toNat)).chanEnd (part.toNat * 64 + ch.toNat) := by
    rw [State.chanEnd, State.channels_exitLeave, State.chanEnd]
  rw [exec_channelTokenSend, execChannelTokenSend, State.channelSend]
  dsimp only
  rw [if_neg (by simp [opened, sends, named, credit]), picked]
  dsimp only
  rw [same]
  rfl

theorem channelTokenSend_rests {part : PartNum} {ch : BitVec 6} {c : BitVec 8} {u : State} {e : ChanEnd}
    (hu : u = s.follow (part.toNat * 64 + ch.toNat)) (he : e = u.chanEnd (part.toNat * 64 + ch.toNat))
    (held : e.colours.getLsbD c.toNat = false ∨ e.window ≤ (Sp.get [] e.spent c.toNat).length) :
    exec (.channelTokenSend part ch c) s = .next u := by
  subst hu he
  rw [exec_channelTokenSend, execChannelTokenSend, State.channelSend]
  dsimp only
  rw [if_pos]
  rw [Bool.or_eq_true, Bool.or_eq_true]
  exact held.imp (fun unnamed => .inr (by simp [unnamed])) decide_eq_true

/-- Credits whose tokens count at no sink change the end alone. -/
theorem creditFrame_returns {e : ChanEnd} (arrived : s.frameAt k 1 = some (p, i)) (he : e = s.chanEnd i) (opened : e.st = .opened)
    (sends : e.recv = false) (plain : ∀ t ∈ (Sp.get [] e.spent p.fColour).take p.fCount, t.eos = false ∨ p.fgone = true) :
    exec (.creditFrame k) s = .next ((s.dropFlight k).setEnd i
      { e with spent := Sp.set [] e.spent p.fColour ((Sp.get [] e.spent p.fColour).drop p.fCount) }) := by
  subst he
  have same : (s.dropFlight k).chanEnd i = s.chanEnd i := rfl
  rw [exec_creditFrame, execCreditFrame, arrived]
  dsimp only
  rw [same, if_neg (by simp [opened, sends])]
  refine congrArg Host.Outcome.next (State.foldl_same _ _ (fun t ht u => if_neg ?_) _)
  rcases plain t ht with unfinished | gone
  · simp [unfinished]
  · simp [gone]

theorem tokenFrame_stale {u : State} {e : ChanEnd} (arrived : s.frameAt k 0 = some (p, i)) (hu : u = (s.dropFlight k).follow i)
    (he : e = u.chanEnd i) (shut : e.st ≠ .opened ∨ e.recv = false) :
    exec (.tokenFrame k) s = .next (u.setEnd i { e with stale := satAdd 32 e.stale p.fNtok }) := by
  subst hu he
  rw [exec_tokenFrame, execTokenFrame, arrived]
  dsimp only
  rw [if_pos (by simpa using shut)]

/-- One token of a colour whose places are free takes the first, and is admitted from there. -/
theorem tokenFrame_places {u : State} {e : ChanEnd} {tok : Token} (arrived : s.frameAt k 0 = some (p, i))
    (hu : u = (s.dropFlight k).follow i) (he : e = u.chanEnd i) (opened : e.st = .opened) (receives : e.recv = true)
    (one : p.tokens = [tok]) (free : Sp.get [] e.places tok.colour.toNat = []) (deep : 0 < e.depth.toNat) :
    exec (.tokenFrame k) s =
      .next ((u.setEnd i { e with places := Sp.put e.places tok.colour.toNat [tok] }).admitPlaces i tok.colour.toNat 64) := by
  subst hu he
  rw [exec_tokenFrame, execTokenFrame, arrived]
  dsimp only
  rw [if_neg (by simp [opened, receives]), one]
  simp only [List.foldl_cons, List.foldl_nil, ChanEnd.place, free, List.length_nil, deep, if_true, List.nil_append]
  rfl

theorem State.admitPlace_none {c : Nat} (empty : Sp.get [] (s.chanEnd k).places c = []) : s.admitPlace k c = (s, false) := by
  simp only [State.admitPlace, empty]

theorem State.admitPlaces_waits {c : Nat} (n : Nat) (waits : s.admitPlace k c = (s, false)) : s.admitPlaces k c (n + 1) = s := by
  rw [State.admitPlaces, waits]

theorem State.admitPlaces_takes {c : Nat} {t : State} (n : Nat) (takes : s.admitPlace k c = (t, true))
    (empty : Sp.get [] (t.chanEnd k).places c = []) : s.admitPlaces k c (n + 2) = t := by
  rw [State.admitPlaces, takes]
  exact State.admitPlaces_waits n (State.admitPlace_none empty)

end

end Sys2Proof.Machine

namespace Sys2Proof.Proofs
open Sys2Proof Sys2Proof.Machine

/-- Settles O50: each event by the branches of its end's state. -/
theorem channelEvents : Obligations.ChannelEvents := by
  unfold Obligations.ChannelEvents
  intro s
  refine ⟨fun part ch => ?_, fun k p i arrived => ?_, fun k p i arrived => ?_, fun k p i arrived opened sends => ?_,
    fun k p i arrived => ?_⟩
  · intro key u e
    refine ⟨fun waits due => ⟨_, readyResend_sends waits due, State.sendReady_says u key⟩, readyResend_rests, fun c j tok opened sends picked =>
      ⟨fun unnamed => channelTokenSend_rests rfl rfl (.inl unnamed), fun named credit =>
        ⟨_, channelTokenSend_sends rfl rfl opened sends picked named credit, ?_, ?_, (e.count 1).frame 0 0 0 [tok], ?_, ?_, rfl⟩,
      fun spent => channelTokenSend_rests rfl rfl (.inr spent)⟩⟩
    · rw [State.chanEnd_sendFrame, State.chanEnd_setEnd, Sp.get_put_self]
    · rw [State.chanEnd_sendFrame, State.chanEnd_setEnd]
      exact satAdd_one ..
    · rw [State.flight_sendFrame, State.net_setEnd, State.net_exitLeave]
    · exact ChanEnd.frame_token (e.count 1) tok
  · intro u e
    refine ⟨fun off => readyFrame_rests arrived rfl rfl (.inl off), readyFrame_faults arrived rfl rfl, fun other peer =>
      readyFrame_rests arrived rfl rfl (.inr ⟨?_, peer⟩), readyFrame_opens arrived rfl rfl⟩
    rcases other with opened | closed
    · rw [opened]
      decide
    · rw [closed]
      decide
  · intro u e
    refine ⟨fun opened peer => ⟨_, closeFrame_closes arrived rfl rfl opened peer, ?_⟩, closeFrame_rests arrived rfl rfl⟩
    rw [State.chanEnd_setEnd]
    exact ⟨rfl, rfl, rfl, rfl, e.stale_leave .wait⟩
  · intro l plain
    refine ⟨_, creditFrame_returns arrived rfl opened sends plain, ?_, fun c other => ?_⟩
    · rw [State.chanEnd_setEnd, Sp.get_set_self]
    · rw [State.chanEnd_setEnd, Sp.get_set, if_neg other]
  · intro u e
    refine ⟨fun shut => ⟨_, tokenFrame_stale arrived rfl rfl shut, ?_, ?_, rfl⟩, ?_⟩
    · rw [State.chanEnd_setEnd]
      exact satAdd_eq_min ..
    · rw [State.chanEnd_setEnd]
    · intro tok opened receives one free deep held
      have run := tokenFrame_places arrived rfl rfl opened receives one free deep
      exact ⟨fun waits => run.trans (congrArg _ (State.admitPlaces_waits 63 waits)), fun t takes empty =>
        run.trans (congrArg _ (State.admitPlaces_takes 62 takes empty))⟩

end Sys2Proof.Proofs
end

section
/-!
PROOFS of family 22. COMMIT (22 R304 to R309): arrival, retirement in order, and the steps of a draft tree.
-/
namespace Sys2Proof.Machine

/-! ## Words of a sequence descriptor (R304) -/

section
variable (s : State) {q : SeqDesc}

/-- The descriptor lies in floor memory. -/
def SeqDesc.InFloor (q : SeqDesc) : Prop := ∀ i, i < 128 → space (q.tr.home + i) = .floor

theorem SeqDesc.InFloor.written (floor : q.InFloor) {off n : Nat} (v : Nat) (inside : off + n ≤ 128) :
    ∀ i, i < (leBytes n v).length → space (q.tr.home + off + i) ≠ .gddr := by
  intro i hi
  rw [leBytes_length] at hi
  rw [Nat.add_assoc, floor (off + i) (by omega)]
  decide

theorem State.readVal_writeDesc_same (floor : q.InFloor) {off n : Nat} (v : Nat) (inside : off + n ≤ 128) :
    (s.writeDesc q off n v).readVal q.tr.key (q.tr.home + off) n = v % 2 ^ (8 * n) := by
  have bytes := State.readHomeN_write (s := s) q.tr.key q.tr.key (floor.written v inside) (n := n) (off := 0) (by rw [leBytes_length]; omega)
  rw [List.drop_zero, List.take_of_length_le (Nat.le_of_eq (leBytes_length ..))] at bytes
  exact (congrArg bytesNat bytes).trans (bytesNat_leBytes ..)

theorem State.readHome_writeDesc_apart (floor : q.InFloor) {off n a : Nat} (v key : Nat) (inside : off + n ≤ 128) (ha : space a ≠ .gddr)
    (apart : a < q.tr.home + off ∨ q.tr.home + off + n ≤ a) : (s.writeDesc q off n v).readHome key a = s.readHome key a := by
  rw [State.writeDesc, State.readHome_write _ _ _ _ _ _ (floor.written v inside) ha, leBytes_length, if_neg (by omega)]

theorem State.readVal_congr {s t : State} {key : Nat} (same : ∀ a, t.readHome key a = s.readHome key a) (a n : Nat) :
    t.readVal key a n = s.readVal key a n := by
  rw [State.readVal, State.readVal, State.readHomeN_eq_map, State.readHomeN_eq_map, funext fun i => same (a + i)]

theorem State.readVal_writeDesc_apart (floor : q.InFloor) {off n at' m : Nat} (v : Nat) (inside : off + n ≤ 128) (inside' : at' + m ≤ 128)
    (apart : at' + m ≤ off ∨ off + n ≤ at') :
    (s.writeDesc q off n v).readVal q.tr.key (q.tr.home + at') m = s.readVal q.tr.key (q.tr.home + at') m := by
  rw [State.readVal, State.readVal, State.readHomeN_eq_map, State.readHomeN_eq_map]
  refine congrArg bytesNat (List.map_congr_left fun i hi => ?_)
  have := List.mem_range.1 hi
  refine s.readHome_writeDesc_apart floor v _ inside ?_ (by omega)
  rw [Nat.add_assoc, floor (at' + i) (by omega)]
  decide

theorem State.elems_writeDesc (off n v : Nat) : (s.writeDesc q off n v).elems = s.elems :=
  State.write_keeps State.elems (fun _ _ _ _ _ _ => rfl) ..
theorem State.exitq_writeDesc (off n v : Nat) : (s.writeDesc q off n v).exitq = s.exitq :=
  State.write_keeps State.exitq (fun _ _ _ _ _ _ => rfl) ..

/-- step and open in their half of the dword (Table 22.1). -/
theorem half_fields {step : Nat} (d : Nat) (small : step < 256) :
    fld (setFld (setFld d 49 42 step) 63 63 1) 63 32 / 2 ^ 10 % 256 = step ∧ fld (setFld (setFld d 49 42 step) 63 63 1) 63 32 / 2 ^ 31 = 1 := by
  simp only [fld, setFld]
  omega

/-! ## What COMMIT's own acts leave of the rest -/

theorem State.setSlot_keeps {β : Type} (g : State → β) (apart : ∀ (s : State) x, g { s with elems := x } = g s) (e sl : Nat) (v : ElemSlot) :
    g (s.setSlot e sl v) = g s := apart ..
theorem State.setRow_keeps {β : Type} (g : State → β) (apart : ∀ (s : State) x, g { s with elems := x } = g s) (e sl : Nat) (k : Key)
    (r : RowState) : g (s.setRow e sl k r) = g s := apart ..

/-- Elements and regions apart, a token that leaves its store changes nothing. -/
theorem State.dropCommit_keeps {β : Type} (g : State → β) (apart : ∀ (s : State) x r, g { s with elems := x, regions := r } = g s)
    (e sl : Nat) (k : Key) (j : Nat) : g (s.dropCommit e sl k j) = g s := by
  rw [State.dropCommit]
  exact (State.moved_keeps g (fun s r => apart s s.elems r) _ _ _).trans (apart s _ s.regions)

theorem State.bear_keeps {β : Type} (g : State → β) (apart : ∀ (s : State) r, g { s with regions := r } = g s) (h : Nat) (k : Key) :
    g (s.bear h k) = g s := by
  rw [State.bear]
  split
  · rfl
  · exact (State.moved_keeps g apart _ _ _).trans (apart s _)

/-- A token that an element sends changes elements, regions and exit queues alone. -/
theorem State.send_keeps {β : Type} (g : State → β) (apart : ∀ (s : State) x r q, g { s with elems := x, regions := r, exitq := q } = g s)
    (e sl : Nat) (m : BitVec 6) (t : Token) : g (s.send e sl m t) = g s := by
  have element (s : State) x : g { s with elems := x } = g s := apart s x s.regions s.exitq
  have region (s : State) r : g { s with regions := r } = g s := apart s s.elems r s.exitq
  have queue (s : State) q : g { s with exitq := q } = g s := apart s s.elems s.regions q
  rw [State.send]
  dsimp only
  rw [State.moved_keeps g region]
  generalize links : List.foldl _ s (maskDirs m) = u
  have linked : g u = g s := by
    rw [← links]
    refine State.foldl_keeps g (fun s d => ?_) _ s
    split
    · rfl
    · split
      · split
        · exact (State.bear_keeps _ g region _ _).trans (element s _)
        · exact element s _
      · exact element s _
  split
  · exact (queue u _).trans linked
  · exact linked

/-- An element's emission changes elements, regions and exit queues alone. -/
theorem State.output_keeps {β : Type} (g : State → β) (apart : ∀ (s : State) x r q, g { s with elems := x, regions := r, exitq := q } = g s)
    (e sl : Nat) (out1 : Bool) (t : Token) : g (s.output e sl out1 t) = g s := by
  have sent (m : BitVec 6) : g (if m = 0 then s else s.send e sl m t) = g s := by
    split
    · rfl
    · exact s.send_keeps g apart e sl m t
  rw [State.output]
  split
  · exact (State.setSlot_keeps _ g (fun s x => apart s x s.regions s.exitq) e sl _).trans (sent _)
  · exact sent _

theorem State.readHome_dropCommit (e sl : Nat) (k : Key) (j key a : Nat) : (s.dropCommit e sl k j).readHome key a = s.readHome key a :=
  s.dropCommit_keeps (fun s => s.readHome key a) (fun _ _ _ => rfl) e sl k j
theorem State.exitq_dropCommit (e sl : Nat) (k : Key) (j : Nat) : (s.dropCommit e sl k j).exitq = s.exitq :=
  s.dropCommit_keeps State.exitq (fun _ _ _ => rfl) e sl k j
theorem State.readHome_output (e sl : Nat) (out1 : Bool) (t : Token) (key a : Nat) :
    (s.output e sl out1 t).readHome key a = s.readHome key a :=
  s.output_keeps (fun s => s.readHome key a) (fun _ _ _ _ => rfl) e sl out1 t
theorem State.readVal_dropCommit (e sl : Nat) (k : Key) (j key a n : Nat) : (s.dropCommit e sl k j).readVal key a n = s.readVal key a n :=
  State.readVal_congr (fun a => s.readHome_dropCommit e sl k j key a) a n

theorem State.countId_none {e sl : Nat} (t : Token) (id : Nat) (uncounted : q.ctab = 0) : s.countId e sl q t id = s := by
  rw [State.countId, uncounted]
  rfl

end

/-! ## The turns of COMMIT -/

section
variable {s : State} {q : SeqDesc} {e sl : Nat} {c : BitVec 8} {x : BitVec 10}

theorem State.acceptAll_empty (empty : (s.elem e).queues = [[], [], [], []]) : s.acceptAll e = s := by
  have none (i : Nat) (hi : i < 4) : (s.elem e).queues.getD i [] = [] := by
    rw [empty]
    rcases i with _ | _ | _ | _ | i
    iterate 4 rfl
    omega
  have heads (l : List Nat) (small : ∀ i ∈ l, i < 4) : l.foldl (fun s i => s.acceptHead e i) s = s := by
    induction l with
    | nil => rfl
    | cons i l ih =>
      have head : s.acceptHead e i = s := by simp only [State.acceptHead, none i (small i List.mem_cons_self)]
      rw [List.foldl_cons, head]
      exact ih fun j hj => small j (List.mem_cons_of_mem i hj)
  exact heads _ fun i hi => List.mem_range.1 hi

/-- The arrival at an open plain sequence gets its position (R306). -/
theorem State.commitArrive_plain {ent : Entry} {j : Nat} {t : Token}
    (read : s.readDesc e (s.slot e sl).cfg.const.toNat t.colour.toNat t.context.toNat true = .ok q) (sound : q.poison = false)
    (legal : q.reserved = false) (opened : q.isOpen = true) (plain : q.tree = false) :
    s.commitArrive e sl ent j t = (s.setRow e sl ent.key (.commit (ent.positions ++ [plainPos q.pos t.iter.toNat]))).moved
      (s.slot e sl).region t.colour.toNat := by
  generalize body : @State.commitArrive = f
  delta State.commitArrive at body
  subst body
  obtain ⟨readDesc, named⟩ : ∃ f, f = @State.readDesc := exists_eq
  rw [← named] at read ⊢
  simp only [read, sound, legal, opened, plain, Bool.or_self, Bool.not_true, Bool.false_eq_true, if_false]

theorem commitE_arrives {o : ElemCfg} {ent : Entry} {j : Nat} {t : Token} {s' : State}
    (op : (s.slot s.curElem.toNat s.curSlot.toNat).op = 0x40) (cfg : (s.slot s.curElem.toNat s.curSlot.toNat).cfg = o)
    (empty : (s.elem s.curElem.toNat).queues = [[], [], [], []]) (free : s.nextOwed s.curElem.toNat s.curSlot.toNat = none)
    (idle : (s.elem s.curElem.toNat).counting = false) (next : s.nextArrival s.curElem.toNat s.curSlot.toNat = some (ent, j, t))
    (arrive : s.commitArrive s.curElem.toNat s.curSlot.toNat ent j t = s') : exec (.commitE o) s = .next s' := by
  have mine : ((s.slot s.curElem.toNat s.curSlot.toNat).op == 0x40 && (s.slot s.curElem.toNat s.curSlot.toNat).cfg == o) = true := by
    rw [op, cfg]
    simp
  rw [exec_commitE, execCommitE, elemTurn]
  simp only [mine, State.acceptAll_empty empty, free, idle, State.commitTurn, next, arrive, Bool.false_eq_true, if_false, if_true]

/-- What the retirement of a plain token does, where its descriptor can be read (R306). -/
theorem State.retirePlain_eq {k : Key} {j : Nat} {t : Token}
    (read : s.readDesc e (s.slot e sl).cfg.const.toNat c.toNat x.toNat true = .ok q) (sound : q.poison = false)
    (legal : q.reserved = false) (plain : q.tree = false) (held : s.retirable e sl c x q.pos = some (k, j, t)) :
    s.retirePlain e sl c x = (if !q.isOpen || q.pos ≥ q.halt then some ((s.dropCommit e sl k j).addRefused q 1)
      else if s.room e sl (s.slot e sl).cfg.out0 k then
        some (if t.eos then State.setHalf (((State.output ((s.dropCommit e sl k j).countId e sl q t t.value.toNat) e sl false
          { t with gen := (s.slot e sl).gen })).setPos q ((q.pos + 1) % 2 ^ 32)) q q.step false
        else ((State.output ((s.dropCommit e sl k j).countId e sl q t t.value.toNat) e sl false
          { t with gen := (s.slot e sl).gen })).setPos q ((q.pos + 1) % 2 ^ 32))
      else none) := by
  generalize body : @State.retirePlain = f
  delta State.retirePlain at body
  subst body
  obtain ⟨readDesc, named⟩ : ∃ f, f = @State.readDesc := exists_eq
  rw [← named] at read ⊢
  obtain ⟨retirable, named⟩ : ∃ f, f = @State.retirable := exists_eq
  rw [← named] at held ⊢
  simp only [read, sound, legal, plain, held, Bool.or_self, Bool.false_eq_true, if_false]

/-! ## The steps of a draft tree (R308) -/

section
variable (read : s.readDesc e (s.slot e sl).cfg.const.toNat c.toNat x.toNat true = .ok q)
include read

theorem State.treeStep_begin (idle : (s.slot e sl).treeRun c x = none) : s.treeStep e sl c x = s.treeBegin e sl c x q := by
  generalize body : @State.treeStep = f
  delta State.treeStep at body
  subst body
  obtain ⟨readDesc, named⟩ : ∃ f, f = @State.readDesc := exists_eq
  rw [← named] at read ⊢
  simp only [read, idle]

variable {k : Key} {r : TreeRun} (runs : (s.slot e sl).treeRun c x = some (k, r)) (sound : q.poison = false) (legal : q.reserved = false)
include runs sound legal

theorem State.treeStep_retires {n : Nat} {rest : List Nat} (todo : r.todo = n :: rest) :
    s.treeStep e sl c x = s.treeRetire e sl c x q k r n rest := by
  generalize body : @State.treeStep = f
  delta State.treeStep at body
  subst body
  obtain ⟨readDesc, named⟩ : ∃ f, f = @State.readDesc := exists_eq
  rw [← named] at read ⊢
  simp only [read, runs, sound, legal, todo, Bool.or_self, Bool.false_eq_true, if_false]

theorem State.treeStep_refuses (todo : r.todo = []) : s.treeStep e sl c x = s.treeRefuse e sl c x q k r := by
  generalize body : @State.treeStep = f
  delta State.treeStep at body
  subst body
  obtain ⟨readDesc, named⟩ : ∃ f, f = @State.readDesc := exists_eq
  rw [← named] at read ⊢
  simp only [read, runs, sound, legal, todo, Bool.or_self, Bool.false_eq_true, if_false]

end

/-- A step of one node begins with its root as the path. -/
theorem State.treeBegin_root {t : Token} (sound : q.poison = false) (legal : q.reserved = false) (opened : q.isOpen = true)
    (tree : q.tree = true) (single : q.nm1 = 0) (root : s.nodeTok e sl c x q.step 0 = some t) (number : t.fmt = 1) :
    s.treeBegin e sl c x q = some (s.setRow e sl (nodeKey c x q.step 0)
      (.tree { nodes := 1, step := q.step, todo := [0], done := [], eos := false, refused := 0 })) := by
  have toks : (List.range (q.nm1 + 1)).filterMap (fun n => s.nodeTok e sl c x q.step n) = [t] := by
    rw [single]
    simp [List.range_succ, root]
  rw [State.treeBegin, toks]
  simp [sound, legal, opened, tree, single, number, acceptedPath]

/-- The next node of a path retires (R306, R308). -/
theorem State.treeRetire_node {k : Key} {r : TreeRun} {n : Nat} {rest : List Nat} {t : Token} (opened : q.isOpen = true)
    (node : s.nodeTok e sl c x r.step n = some t) (below : q.pos < q.halt) (uncounted : q.ctab = 0)
    (room : s.room e sl (s.slot e sl).cfg.out0 (tagOf t) = true) :
    s.treeRetire e sl c x q k r n rest = some ((((s.dropCommit e sl (nodeKey c x r.step n) 0).output e sl false
      { t with value := t.value &&& 0x7FFFFFFF, eor := t.eor || rest.isEmpty || decide (q.halt ≤ (q.pos + 1) % 2 ^ 32),
               gen := (s.slot e sl).gen }).setPos q ((q.pos + 1) % 2 ^ 32)).setRow e sl k
      (.tree { r with todo := rest, done := r.done ++ [n], eos := r.eos || t.eos })) := by
  have goes : (!q.isOpen || decide (q.pos ≥ q.halt)) = false := by
    rw [opened, Bool.not_true, Bool.false_or, decide_eq_false_iff_not]
    omega
  rw [State.treeRetire]
  simp only [node, goes, room, State.countId_none _ t _ uncounted, Bool.not_true, Bool.false_eq_true, if_false]

/-- The end of a step all of whose tokens are gone: step, verdict and refused are written. -/
theorem State.treeRefuse_end {k : Key} {r : TreeRun} (gone : ∀ n, n < r.nodes → s.nodeTok e sl c x r.step n = none)
    (unfinished : r.eos = false) (root : r.done = [0]) :
    s.treeRefuse e sl c x q k r = some ((((s.setHalf q ((r.step + 1) % 256) q.isOpen).writeDesc q 24 8 1).addRefused q r.refused).setRow
      e sl k .none) := by
  have none : (List.range r.nodes).filterMap (fun n => (s.nodeTok e sl c x r.step n).map fun t => (n, t)) = [] := by
    rw [List.filterMap_eq_nil_iff]
    intro n hn
    rw [gone n (List.mem_range.1 hn)]
    rfl
  rw [State.treeRefuse, none, unfinished, root]
  rfl

theorem retire_runs {n : ElemNum} {slot : BitVec 2} {t : State} (op : (s.slot n.toNat slot.toNat).op = 0x40)
    (acts : s.retirePlain n.toNat slot.toNat c x = some t) : exec (.retire n slot c x) s = .next t := by
  rw [exec_retire, execRetire, op, acts]
  rfl

theorem treeStep_runs {n : ElemNum} {slot : BitVec 2} {t : State} (op : (s.slot n.toNat slot.toNat).op = 0x40)
    (acts : s.treeStep n.toNat slot.toNat c x = some t) : exec (.treeStep n slot c x) s = .next t := by
  rw [exec_treeStep, execTreeStep, op, acts]
  rfl

/-- What a write of the position changes: its word alone. -/
theorem State.setPos_says (floor : q.InFloor) (v : Nat) (small : v < 2 ^ 32) (s : State) :
    (s.setPos q v).readVal q.tr.key (q.tr.home + 4) 4 = v ∧
      (∀ key a, space a ≠ .gddr → a < q.tr.home + 4 ∨ q.tr.home + 8 ≤ a → (s.setPos q v).readHome key a = s.readHome key a) ∧
      (s.setPos q v).exitq = s.exitq ∧ (s.setPos q v).elems = s.elems :=
  ⟨(s.readVal_writeDesc_same floor v (by omega)).trans (Nat.mod_eq_of_lt small),
    fun key a ha apart => s.readHome_writeDesc_apart floor v key (by omega) ha apart, s.exitq_writeDesc .., s.elems_writeDesc ..⟩

/-- What the end of a step writes of the descriptor. -/
theorem State.treeEnd_says (floor : q.InFloor) (step n : Nat) (s : State) :
    (((s.setHalf q step true).writeDesc q 24 8 1).addRefused q n).readVal q.tr.key (q.tr.home + 24) 8 = 1 ∧
      (((s.setHalf q step true).writeDesc q 24 8 1).addRefused q n).readVal q.tr.key (q.tr.home + 12) 4 =
        fld (setFld (setFld (q.d 1) 49 42 step) 63 63 1) 63 32 := by
  constructor
  · refine (State.readVal_writeDesc_apart _ floor _ (by omega) (by omega) (by omega)).trans ?_
    exact State.readVal_writeDesc_same _ floor 1 (by omega)
  · refine (State.readVal_writeDesc_apart _ floor _ (by omega) (by omega) (by omega)).trans ?_
    refine (State.readVal_writeDesc_apart _ floor _ (by omega) (by omega) (by omega)).trans ?_
    exact (State.readVal_writeDesc_same _ floor _ (by omega)).trans (Nat.mod_mod _ _)

theorem State.setRow_says (k : Key) (r : RowState) (s : State) : (s.setRow e sl k r).exitq = s.exitq ∧
    ∀ key a n, (s.setRow e sl k r).readVal key a n = s.readVal key a n :=
  ⟨s.setRow_keeps State.exitq (fun _ _ => rfl) e sl k r, fun key a n =>
    State.readVal_congr (fun a => s.setRow_keeps (fun s => s.readHome key a) (fun _ _ => rfl) e sl k r) a n⟩

end

end Sys2Proof.Machine

namespace Sys2Proof.Proofs
open Sys2Proof Sys2Proof.Machine

/-- Settles O44: the arrival, the retirement in order and the steps of a tree, each by the branch its descriptor takes. -/
theorem commitRetires : Obligations.CommitRetires := by
  unfold Obligations.CommitRetires
  intro s e sl q c x
  dsimp only
  intro op sound legal opened floor
  have next : (q.pos + 1) % 2 ^ 32 < 2 ^ 32 := Nat.mod_lt _ (by decide)
  refine ⟨?_, fun read => ⟨fun k j t plain held below uncounted unfinished room => ?_, fun k j t plain held reached => ?_,
    fun t tree single idle root number => ?_, fun k r n rest t runs todo node below uncounted room => ?_,
    fun k r runs todo gone small unfinished root => ?_⟩⟩
  · rintro o ent j t rfl rfl cfg empty free idle arrival read plain
    rw [← cfg] at read
    exact commitE_arrives op cfg empty free idle arrival (State.commitArrive_plain read sound legal opened plain)
  · have goes : (!q.isOpen || decide (q.pos ≥ q.halt)) = false := by
      rw [opened, Bool.not_true, Bool.false_or, decide_eq_false_iff_not]
      omega
    have acts := State.retirePlain_eq read sound legal plain held
    rw [goes, if_neg (by decide), if_pos room, if_neg (by simp [unfinished]), State.countId_none _ t _ uncounted] at acts
    obtain ⟨word, apart, exits, elems⟩ := State.setPos_says floor _ next ((s.dropCommit e.toNat sl.toNat k j).output e.toNat sl.toNat false
      { t with gen := (s.slot e.toNat sl.toNat).gen })
    refine ⟨_, retire_runs op acts, word, fun a ha outside => (apart 0 a ha outside).trans ?_, exits, elems⟩
    rw [State.readHome_output, State.readHome_dropCommit]
  · have stops : (!q.isOpen || decide (q.pos ≥ q.halt)) = true := by
      rw [Bool.or_eq_true, decide_eq_true_eq]
      exact .inr reached
    have acts := State.retirePlain_eq read sound legal plain held
    rw [stops, if_pos rfl] at acts
    refine ⟨_, retire_runs op acts, ?_, ?_, ?_⟩
    · refine (State.readVal_writeDesc_same _ floor _ (by omega)).trans ?_
      rw [satAdd_one]
      omega
    · exact (State.readVal_writeDesc_apart _ floor _ (by omega) (by omega) (by omega)).trans (State.readVal_dropCommit ..)
    · exact (State.exitq_writeDesc ..).trans (State.exitq_dropCommit ..)
  · exact treeStep_runs op ((State.treeStep_begin read idle).trans (State.treeBegin_root sound legal opened tree single root number))
  · have acts := State.treeStep_retires read runs sound legal todo
    obtain ⟨word, -, exits, -⟩ := State.setPos_says floor _ next ((s.dropCommit e.toNat sl.toNat (nodeKey c x r.step n) 0).output
      e.toNat sl.toNat false
      { t with value := t.value &&& 0x7FFFFFFF, eor := t.eor || rest.isEmpty || decide (q.halt ≤ (q.pos + 1) % 2 ^ 32),
               gen := (s.slot e.toNat sl.toNat).gen })
    refine ⟨_, treeStep_runs op (acts.trans (State.treeRetire_node opened node below uncounted room)), ?_, ?_⟩
    · exact ((State.setRow_says ..).2 ..).trans word
    · exact (State.setRow_says ..).1.trans exits
  · have acts := State.treeStep_refuses read runs sound legal todo
    obtain ⟨step, open'⟩ := half_fields (q.d 1) (Nat.mod_lt (r.step + 1) (by decide : 0 < 256))
    obtain ⟨verdict, fields⟩ := State.treeEnd_says floor ((r.step + 1) % 256) r.refused s
    have same := (State.setRow_says (e := e.toNat) (sl := sl.toNat) k .none (((s.setHalf q ((r.step + 1) % 256) true).writeDesc q 24 8
      1).addRefused q r.refused)).2
    have ends := State.treeRefuse_end gone unfinished root (q := q) (k := k)
    rw [opened] at ends
    refine ⟨_, treeStep_runs op (acts.trans ends), (same ..).trans verdict, ?_, ?_⟩
    · rw [same, fields]
      exact step
    · rw [same, fields]
      exact open'

end Sys2Proof.Proofs
end

section
/-!
PROOFS of family 26. Requests of the management session (26 R356 to R362, R366, R368, 28 R386): tables, cores, frames, keys, links, seals and
release scrubs.
-/
namespace Sys2Proof.Machine

/-! ## A management request is answered -/

section
variable {s t : State} {i : Instr} {f : State → State}

/-- The request is performed: P holds of the state it leaves, and its answer stands behind the earlier ones. -/
def State.Performs (s : State) (i : Instr) (P : State → Prop) : Prop :=
  ∃ t, exec i s = .next t ∧ t.trust.outbox = s.trust.outbox ++ [.answer true] ∧
    t.trust.calls = s.trust.calls.eraseP (fun p => p.kind == 2) ∧ P t

/-- No message has left and no request has been answered in between. -/
def State.Quiet (s t : State) : Prop := t.trust.outbox = s.trust.outbox ∧ t.trust.calls = s.trust.calls

theorem State.managed_of (reached : s.reached = true) : s.managed f = f s := if_pos reached
theorem State.managed_unreached (unreached : s.reached = false) : s.managed f = s := if_neg (by rw [unreached]; decide)

theorem performs_of {P : State → Prop} (reached : s.reached = true) (hx : exec i s = .next (s.managed f)) (hf : f s = t.answer true)
    (quiet : s.Quiet t) (holds : P (t.answer true)) : s.Performs i P := by
  obtain ⟨outbox, calls⟩ := quiet
  refine ⟨t.answer true, hx.trans ?_, ?_, ?_, holds⟩
  · rw [State.managed_of reached, hf]
  · exact congrArg (· ++ [_]) outbox
  · exact congrArg (List.eraseP _) calls

theorem refuses_of (reached : s.reached = true) (hx : exec i s = .next (s.managed f)) (hf : f s = s.answer false) :
    exec i s = .next (s.answer false) := by rw [hx, State.managed_of reached, hf]

theorem State.scrubbing_iff {c : Nat} : s.scrubbing c = true ↔ ∃ q ∈ s.trust.stops, ∃ r ∈ q.scrubs, r.colour = c := by
  simp [State.scrubbing]

/-! ## The frozen set: what is written beside it -/

theorem State.Quiet.trans {u : State} (first : s.Quiet t) (second : t.Quiet u) : s.Quiet u :=
  ⟨second.1.trans first.1, second.2.trans first.2⟩

theorem State.quiet_thawIf (c : Prop) [Decidable c] (q : Nat → Vf → Bool) : s.Quiet (if c then s else s.thaw q) := by
  split <;> exact ⟨rfl, rfl⟩

theorem State.quiet_joined (n : Nat) (q : Part) : s.Quiet (s.joined n q) := by
  rw [State.joined]
  dsimp only
  split <;> exact ⟨rfl, rfl⟩

theorem Sp.find?_map {α : Type} (m : Sparse α) (f : Nat → α → α) (k : Nat) :
    Sp.find? (m.map fun q => (q.1, f q.1 q.2)) k = (Sp.find? m k).map (f k) := by
  induction m with
  | nil => rfl
  | cons c m ih =>
    obtain ⟨i, a⟩ := c
    by_cases hi : i = k
    · simp [Sp.find?, hi]
    · simpa [Sp.find?, hi] using ih

/-- What a thaw makes of a function. -/
theorem State.vf_thaw (q : Nat → Vf → Bool) (n : Nat) :
    (s.thaw q).vf n = if (s.vf n).serving && q n (s.vf n) then { s.vf n with st := .error } else s.vf n := by
  rw [State.vf, State.thaw, Sp.get, Sp.find?_map _ fun k f => if f.serving && q k f then { f with st := .error } else f, State.vf, Sp.get]
  cases Sp.find? s.vfs n with
  | none => rfl
  | some v => rfl

theorem Vf.serving_iff {q : Vf} : q.serving = true ↔ q.st = .locked ∨ q.st = .run := by simp [Vf.serving]

theorem State.vf_setVf (n m : Nat) (q : Vf) : (s.setVf n q).vf m = if m = n then q else s.vf m := Sp.get_set ..

end

/-! ## PARTn, VFn, LPERMn and the colour table -/

section
variable {s : State} (reached : s.reached = true)
include reached

theorem partWrite_refuses {n : PartNum} {v : BitVec 256} (bad : s.partRefused n.toNat
      { valid := v.getLsbD 63, smask := v.extractLsb' 64 16, chmask := v.extractLsb' 128 128 } = true) :
    exec (.partWrite n v) s = .next (s.answer false) :=
  refuses_of reached (exec_partWrite n v s) (if_pos bad)

theorem partWrite_performs {n : PartNum} {v : BitVec 256} (good : s.partRefused n.toNat
      { valid := v.getLsbD 63, smask := v.extractLsb' 64 16, chmask := v.extractLsb' 128 128 } = false) :
    s.Performs (.partWrite n v) fun t => t.part n.toNat =
      { valid := v.getLsbD 63, smask := v.extractLsb' 64 16, chmask := v.extractLsb' 128 128 } := by
  refine performs_of reached (exec_partWrite n v s) (if_neg (by rw [good]; decide)) ?_ (Sp.get_set_self ..)
  exact (State.quiet_thawIf _ _).trans (State.quiet_joined _ _)

omit reached in
/-- The writable fields of VFn take those of the word (Table 26.2). -/
def Vf.written (q : Vf) (v : W64) : Vf :=
  { q with waymask := v.extractLsb' 48 16, ctxid := v.extractLsb' 32 16, ingmask := v.extractLsb' 24 8, part := v.extractLsb' 20 4,
           en := v.getLsbD 16 }

theorem vfWrite_performs (n : BitVec 6) (v : W64) : s.Performs (.vfWrite n v) fun t => t.vf n.toNat =
    { (s.vf n.toNat).written v with
      st := if s.vf n.toNat ≠ (s.vf n.toNat).written v ∧ ((s.vf n.toNat).st = .locked ∨ (s.vf n.toNat).st = .run) then .error
        else (s.vf n.toNat).st } := by
  refine performs_of reached (exec_vfWrite n v s) rfl (State.quiet_thawIf _ _) ?_
  refine (State.vf_setVf ..).trans ((if_pos rfl).trans ?_)
  refine congrArg (fun st => { (s.vf n.toNat).written v with st := st }) ?_
  change ((if (s.vf n.toNat == (s.vf n.toNat).written v) = true then s else s.thaw fun k _ => k == n.toNat).vf n.toNat).st = _
  by_cases same : s.vf n.toNat = (s.vf n.toNat).written v
  · rw [if_pos (beq_iff_eq.2 same), if_neg fun h => h.1 same]
  · rw [if_neg (fun h => same (beq_iff_eq.1 h)), State.vf_thaw, beq_self_eq_true, Bool.and_true]
    by_cases serving : (s.vf n.toNat).serving = true
    · rw [if_pos serving, if_pos ⟨same, Vf.serving_iff.1 serving⟩]
    · rw [if_neg serving, if_neg fun h => serving (Vf.serving_iff.2 h.2)]

theorem lpermWrite_performs (n : PartNum) (v : W64) :
    s.Performs (.lpermWrite n v) fun t => t.lpermOf n.toNat = v &&& 0x00000FFFFFFFFFFF :=
  performs_of reached (exec_lpermWrite n v s) rfl (State.quiet_thawIf _ _) (Sp.get_set_self ..)

/-- The entry of the colour table that a write leaves (Table 08.2). -/
def Colour.written (q : Colour) (v : BitVec 128) : Colour :=
  { q with valid := v.getLsbD 127, part := v.extractLsb' 123 4, vf := v.extractLsb' 117 6, root := v.extractLsb' 64 40,
           epoch := if v.getLsbD 127 then q.epoch + 1 else q.epoch }

theorem colourTableWrite_waits {c : BitVec 8} {v : BitVec 128} (scrubbed : s.scrubbing c.toNat = true) :
    exec (.colourTableWrite c v) s = .next s := by
  rw [exec_colourTableWrite, execColourTableWrite, State.managed_of reached, if_pos scrubbed]

theorem colourTableWrite_ignored {c : BitVec 8} {v : BitVec 128} (free : s.scrubbing c.toNat = false) (valid : v.getLsbD 127 = true)
    (other : (s.vf (v.extractLsb' 117 6).toNat).part ≠ v.extractLsb' 123 4) : exec (.colourTableWrite c v) s = .next (s.answer true) := by
  rw [exec_colourTableWrite, execColourTableWrite, State.managed_of reached, if_neg (by rw [free]; decide),
    if_pos (Bool.and_eq_true_iff.2 ⟨valid, bne_iff_ne.2 other⟩)]

theorem colourTableWrite_performs {c : BitVec 8} {v : BitVec 128} (free : s.scrubbing c.toNat = false)
    (owns : v.getLsbD 127 = false ∨ (s.vf (v.extractLsb' 117 6).toNat).part = v.extractLsb' 123 4) :
    s.Performs (.colourTableWrite c v) fun t => t.colour c.toNat = (s.colour c.toNat).written v := by
  refine performs_of reached (exec_colourTableWrite c v s) ((if_neg (by rw [free]; decide)).trans (if_neg ?_)) (State.quiet_thawIf _ _)
    (Sp.get_set_self ..)
  rw [Bool.and_eq_true, bne_iff_ne]
  rintro ⟨valid, other⟩
  rcases owns with unset | own
  · exact absurd (unset.symm.trans valid) (by decide)
  · exact other own

/-! ## Retirement (27 R378) -/

theorem retireCommand_refuses {f : BitVec 40} (bad : ¬(space (f.toNat * 4096) = .gddr ∧ s.chanPresent (chanOf (f.toNat * 4096)) = true ∧
    s.retired.length < 4032)) : exec (.retireCommand f) s = .next (s.answer false) := by
  refine refuses_of reached (exec_retireCommand f s) (if_pos ?_)
  rw [Bool.or_eq_true, Bool.or_eq_true, bne_iff_ne, Bool.not_eq_true', decide_eq_true_eq]
  by_contra good
  rw [not_or, not_or, not_not, Bool.not_eq_false] at good
  exact bad ⟨good.1.1, good.1.2, Nat.lt_of_not_le good.2⟩

variable {f : BitVec 40} (mine : space (f.toNat * 4096) = .gddr ∧ s.chanPresent (chanOf (f.toNat * 4096)) = true ∧ s.retired.length < 4032)
include mine

omit reached in
theorem retire_allowed :
    ¬(space (f.toNat * 4096) != .gddr || !s.chanPresent (chanOf (f.toNat * 4096)) || decide (s.retired.length ≥ 4032)) = true := by
  obtain ⟨dram, present, few⟩ := mine
  simp [dram, present, few]

theorem retireCommand_again (before : f.toNat ∈ s.retired) : exec (.retireCommand f) s = .next (s.answer true) := by
  rw [exec_retireCommand, execRetireCommand, State.managed_of reached, if_neg (retire_allowed mine), if_pos (by simpa using before)]

theorem retireCommand_performs (first : f.toNat ∉ s.retired) : s.Performs (.retireCommand f) fun t =>
    t.retired = s.retired ++ [f.toNat] ∧ ∀ l ∈ t.l2, l.1 / 32 ≠ f.toNat := by
  refine performs_of reached (exec_retireCommand f s) ((if_neg (retire_allowed mine)).trans (if_neg (by simpa using first))) ⟨rfl, rfl⟩
    ⟨rfl, fun l hl => ?_⟩
  simpa using (List.mem_filter.1 hl).2

end

end Sys2Proof.Machine
end

section
/-!
PROOFS of family 26. Keys, links, seals and release scrubs (26 R356, R362, R366, R368, 25 R354).
-/
namespace Sys2Proof.Machine

/-! ## Keys (R362) -/

section
variable {s : State} {n : BitVec 8} {key : BitVec 512} {session : Bool}

/-- The two halves of a key are equal, or the same as no key (R362). -/
def twinKey (key : BitVec 512) : Bool := key.extractLsb' 0 256 == key.extractLsb' 256 256

theorem State.quiet_takeKey (n : Nat) (key : BitVec 512) : s.Quiet (s.takeKey n key) := by
  rw [State.takeKey]
  split <;> exact ⟨rfl, rfl⟩

theorem State.colour_takeKey (n : Nat) (key : BitVec 512) :
    (s.takeKey n key).colour n = { s.colour n with keyed := true, key := key.toNat } := Sp.get_set_self ..

/-- A request inside a function's session, from the function it belongs to. -/
theorem keyLoad_session_some {v : Nat} (caller : s.keyCaller (s.colour n.toNat) = some v) (free : s.scrubbing n.toNat = false) :
    exec (.keyLoad false n key true) s = .next (
      if twinKey key || !(s.colour n.toNat).valid || (s.colour n.toNat).vf.toNat != v || !(s.vf v).sess || !(s.vf v).en then s.tell v false []
      else (s.takeKey n.toNat key).tell v true []) := by
  rw [exec_keyLoad, execKeyLoad]
  simp only [caller, free, Bool.not_false, Bool.and_self, Bool.false_eq_true, if_true, if_false]
  rfl

theorem keyLoad_session_none (caller : s.keyCaller (s.colour n.toNat) = none) : exec (.keyLoad false n key true) s = .next s := by
  rw [exec_keyLoad, execKeyLoad]
  simp only [caller, Bool.not_false, Bool.and_self, if_true]

/-- A request of the management session, and one for a partition's key. -/
theorem keyLoad_managed (reached : s.reached = true) {shared : Bool} (form : (session && !shared) = false) :
    exec (.keyLoad shared n key session) s = .next (
      if !shared && s.scrubbing n.toNat then s else if twinKey key then s.answer false
      else if shared then
        if n.toNat < 16 then { s with partKey := Sp.put s.partKey n.toNat key.toNat }.answer true else s.answer false
      else if (s.colour n.toNat).valid && (s.vf (s.colour n.toNat).vf.toNat).st != .unlocked then s.answer false
      else (s.takeKey n.toNat key).answer true) := by
  rw [exec_keyLoad, execKeyLoad]
  simp only [form, Bool.false_eq_true, if_false]
  rw [State.managed_of reached]
  rfl

theorem answered_performs {i : Instr} {t : State} {P : State → Prop} (hx : exec i s = .next (t.answer true)) (quiet : s.Quiet t)
    (holds : P (t.answer true)) : s.Performs i P :=
  ⟨t.answer true, hx, congrArg (· ++ [_]) quiet.1, congrArg (List.eraseP _) quiet.2, holds⟩

/-- The management session's request for a colour's key: what it waits for, and what it is refused for. -/
theorem keyLoad_colour (reached : s.reached = true) (free : s.scrubbing n.toNat = false) (sound : twinKey key = false) :
    exec (.keyLoad false n key false) s = .next (
      if (s.colour n.toNat).valid && (s.vf (s.colour n.toNat).vf.toNat).st != .unlocked then s.answer false
      else (s.takeKey n.toNat key).answer true) := by
  rw [keyLoad_managed reached rfl]
  simp only [free, sound, Bool.and_false, Bool.false_eq_true, if_false]

theorem keyLoad_partition (reached : s.reached = true) (sound : twinKey key = false) :
    exec (.keyLoad true n key session) s = .next (
      if n.toNat < 16 then { s with partKey := Sp.put s.partKey n.toNat key.toNat }.answer true else s.answer false) := by
  rw [keyLoad_managed reached (Bool.and_false _)]
  simp only [sound, Bool.not_true, Bool.false_and, Bool.false_eq_true, if_false, if_true]

theorem keyLoad_twin (reached : s.reached = true) {shared : Bool} (form : (session && !shared) = false)
    (free : shared = false → s.scrubbing n.toNat = false) (twin : twinKey key = true) :
    exec (.keyLoad shared n key session) s = .next (s.answer false) := by
  rw [keyLoad_managed reached form, twin, if_neg, if_pos rfl]
  cases shared with
  | true => exact Bool.false_ne_true
  | false => rw [free rfl]; exact Bool.false_ne_true

/-- A colour that is scrubbed keeps every request for its key waiting. -/
theorem keyLoad_scrubbed (scrubbed : s.scrubbing n.toNat = true) : exec (.keyLoad false n key session) s = .next s := by
  rw [exec_keyLoad, execKeyLoad]
  cases session with
  | true =>
    rw [if_pos (show (true && !false) = true from rfl)]
    split
    · rfl
    · rw [if_pos scrubbed]
  | false =>
    simp only [Bool.not_false, Bool.and_true, Bool.false_eq_true, if_false, State.managed, scrubbed, if_true, ite_self]

theorem State.keyCaller_own (valid : (s.colour n.toNat).valid = true)
    (calls : ∃ p : Peer, p ∈ s.trust.calls ∧ p.kind = 1 ∧ p.vf = (s.colour n.toNat).vf.toNat) :
    s.keyCaller (s.colour n.toNat) = some (s.colour n.toNat).vf.toNat := by
  obtain ⟨p, mem, kind, vf⟩ := calls
  refine if_pos (Bool.and_eq_true_iff.2 ⟨valid, List.any_eq_true.2 ⟨p, mem, ?_⟩⟩)
  rw [Peer.tenant, kind, vf]
  exact Bool.and_eq_true_iff.2 ⟨rfl, beq_self_eq_true _⟩

theorem State.keyCaller_none {q : Colour} (quiet : ∀ v : Nat, ¬∃ p : Peer, p ∈ s.trust.calls ∧ p.kind = 1 ∧ p.vf = v) :
    s.keyCaller q = none := by
  have other (p : Peer) (hp : p ∈ s.trust.calls) : (p.kind == 1) = false := by
    rw [beq_eq_false_iff_ne]
    exact fun kind => quiet p.vf ⟨p, hp, kind, rfl⟩
  rw [State.keyCaller, if_neg, List.find?_eq_none.2 fun p hp => by rw [other p hp]; exact Bool.false_ne_true]
  · rfl
  · rw [Bool.and_eq_true, List.any_eq_true]
    rintro ⟨-, p, hp, tenant⟩
    rw [Peer.tenant, other p hp] at tenant
    cases tenant

theorem State.keyCaller_other {q : Colour} {p : Peer} (one : s.trust.calls = [p]) (kind : p.kind = 1) (going : s.stopping p.vf = false)
    (foreign : q.valid = false ∨ q.vf.toNat ≠ p.vf) : s.keyCaller q = some p.vf := by
  rw [State.keyCaller, one, if_neg]
  · simp [kind, going]
  · rcases foreign with invalid | other
    · rw [invalid]
      exact Bool.false_ne_true
    · simp [Peer.tenant, other.symm]

end

/-! ## Link keys and the accept bits (25 R354) -/

section
variable {s : State} {port : BitVec 4} {dom : BitVec 6} {phase : Bool}

theorem State.domain_setDomain (p d : Nat) (q : Domain) : (s.setDomain p d q).domain p d = q := Sp.get_set_self ..

theorem linkKeyLoad_refuses (reached : s.reached = true) {key : BitVec 256} (used : (s.domain port.toNat dom.toNat).tx = phase ∨
    (if phase then (s.domain port.toNat dom.toNat).rx1 else (s.domain port.toNat dom.toNat).rx0) = true) :
    exec (.linkKeyLoad port dom phase key) s = .next (s.answer false) := by
  refine refuses_of reached (exec_linkKeyLoad port dom phase key s) (if_pos ?_)
  rw [Bool.or_eq_true]
  exact used.imp beq_iff_eq.2 id

theorem linkKeyLoad_performs (reached : s.reached = true) {key : BitVec 256} (idle : (s.domain port.toNat dom.toNat).tx ≠ phase)
    (shut : (if phase then (s.domain port.toNat dom.toNat).rx1 else (s.domain port.toNat dom.toNat).rx0) = false) :
    s.Performs (.linkKeyLoad port dom phase key) fun t =>
      (if phase then (t.domain port.toNat dom.toNat).key1 else (t.domain port.toNat dom.toNat).key0) = some key ∧
        (t.domain port.toNat dom.toNat).tx = (s.domain port.toNat dom.toNat).tx := by
  refine performs_of reached (exec_linkKeyLoad port dom phase key s) (if_neg ?_) ⟨rfl, rfl⟩ ?_
  · rw [Bool.or_eq_true, shut]
    simpa using idle
  · have after (q : Domain) : ((s.setDomain port.toNat dom.toNat q).answer true).domain port.toNat dom.toNat = q := State.domain_setDomain ..
    rw [after]
    cases phase <;> exact ⟨rfl, rfl⟩

theorem lkstatWrite_performs (reached : s.reached = true) {v : W64} {P : Domain → Prop}
    (holds : P ((s.domain port.toNat dom.toNat).write v)) :
    s.Performs (.lkstatWrite port dom v) fun t => P (t.domain port.toNat dom.toNat) := by
  refine performs_of reached (exec_lkstatWrite port dom v s) rfl ⟨rfl, rfl⟩ ?_
  have after (q : Domain) : ((s.setDomain port.toNat dom.toNat q).answer true).domain port.toNat dom.toNat = q := State.domain_setDomain ..
  rw [after]
  exact holds

theorem Domain.write_refused {d : Domain} {v : W64} (turn : v.getLsbD 59 ≠ d.tx) (empty : (if v.getLsbD 59 then d.key1 else d.key0) = none) :
    d.write v = d := by
  have none : (d.key (v.getLsbD 59)).isNone = true := by
    rw [Domain.key, empty]
    rfl
  exact if_pos (Bool.and_eq_true_iff.2 ⟨bne_iff_ne.2 turn, none⟩)

/-- A write that turns the domain to a phase with a key. -/
theorem Domain.write_turns {d : Domain} {v : W64} (turn : v.getLsbD 59 ≠ d.tx) (key : (if v.getLsbD 59 then d.key1 else d.key0) ≠ none) :
    (d.write v).tx = v.getLsbD 59 ∧ (d.write v).txcount = 0 ∧ (d.write v).stall = false ∧ (d.write v).rx0 = v.getLsbD 57 ∧
      (d.write v).rx1 = v.getLsbD 58 := by
  have some : (d.key (v.getLsbD 59)).isNone = false := by
    rw [Domain.key, Option.isNone_eq_false_iff, Option.isSome_iff_ne_none]
    exact key
  have turns : (v.getLsbD 59 != d.tx) = true := bne_iff_ne.2 turn
  rw [Domain.write]
  simp only [some, turns, Bool.and_false, Bool.false_eq_true, if_false, if_true, and_self]

/-- A write that keeps the phase: the accept bits, and the keys that a cleared bit erases. -/
theorem Domain.write_keeps {d : Domain} {v : W64} (keep : v.getLsbD 59 = d.tx) :
    (d.write v).txcount = d.txcount ∧ (d.write v).rx0 = v.getLsbD 57 ∧ (d.write v).rx1 = v.getLsbD 58 ∧
      (v.getLsbD 59 = true → d.rx0 = true → v.getLsbD 57 = false → (d.write v).key0 = none) ∧
      (v.getLsbD 59 = false → d.rx0 = true → v.getLsbD 57 = false → (d.write v).key0 = d.key0) ∧
      (v.getLsbD 57 = true → (d.write v).key0 = d.key0) := by
  have same : (v.getLsbD 59 != d.tx) = false := by rw [keep, bne_self_eq_false]
  rw [Domain.write]
  simp only [same, Bool.false_and, Bool.false_eq_true, if_false]
  refine ⟨trivial, trivial, trivial, fun tx rx clear => ?_, fun tx rx clear => ?_, fun set => ?_⟩
  · simp only [tx, rx, clear, Bool.not_false, Bool.and_self, Bool.or_true, if_true]
  · simp only [tx, Bool.and_false, Bool.false_eq_true, if_false]
  · simp only [set, Bool.not_true, Bool.and_false, Bool.false_and, Bool.false_eq_true, if_false]

theorem authfail_rests (quiet : (if phase then (s.domain port.toNat dom.toNat).rx1 else (s.domain port.toNat dom.toNat).rx0) = true ∧
    (if phase then (s.domain port.toNat dom.toNat).key1 else (s.domain port.toNat dom.toNat).key0) ≠ none ∨ s.portUp port.toNat = false) :
    exec (.authfail port dom phase) s = .next s := by
  rw [exec_authfail, execAuthfail, if_pos]
  rw [Bool.or_eq_true, Bool.not_eq_true']
  refine quiet.imp_left fun ⟨accepts, key⟩ => Bool.and_eq_true_iff.2 ⟨accepts, ?_⟩
  rw [Domain.key, Option.isSome_iff_ne_none]
  exact key

theorem authfail_counts (up : s.portUp port.toNat = true)
    (closed : (if phase then (s.domain port.toNat dom.toNat).rx1 else (s.domain port.toNat dom.toNat).rx0) = false ∨
      ¬(if phase then (s.domain port.toNat dom.toNat).key1 else (s.domain port.toNat dom.toNat).key0) ≠ none) :
    exec (.authfail port dom phase) s = .next (s.setDomain port.toNat dom.toNat { s.domain port.toNat dom.toNat with
      authfail := satAdd 32 (s.domain port.toNat dom.toNat).authfail 1 }) := by
  rw [exec_authfail, execAuthfail, if_neg]
  rw [Bool.or_eq_true, up, Domain.opens, Bool.and_eq_true, Domain.key, Option.isSome_iff_ne_none]
  rintro (⟨accepts, key⟩ | down)
  · rcases closed with shut | none
    · exact absurd (shut.symm.trans accepts) (by decide)
    · exact none key
  · cases down

theorem State.link_setLink (p : Nat) (l : LinkState) : (s.setLink p l).link p = l := Sp.get_set_self ..

end

/-! ## Seals (R368) -/

section
variable {s : State} {col : BitVec 8} {va len : W64}

/-- The pages of the range, as the colour's tables map them. -/
def State.rangePages (s : State) (col : BitVec 8) (va len : W64) : Option (List (Nat × Nat)) :=
  s.sealPages col.toNat (va.toNat - va.toNat % 4096) ((va.toNat % 4096 + len.toNat + 4095) / 4096)

theorem sealRange_refuses (reached : s.reached = true) (bad : (s.colour col.toNat).valid = false ∨
    (s.vf (s.colour col.toNat).vf.toNat).ctxid = 0 ∨ s.rangePages col va len = none) :
    exec (.sealRange col va len) s = .next (s.answer false) := by
  rw [exec_sealRange, execSealRange, State.managed_of reached]
  by_cases unbound : (!(s.colour col.toNat).valid || decide ((s.vf (s.colour col.toNat).vf.toNat).ctxid = 0)) = true
  · rw [if_pos unbound]
  · have pages : s.sealPages col.toNat (va.toNat - va.toNat % 4096) ((va.toNat % 4096 + len.toNat + 4095) / 4096) = none := by
      rw [Bool.or_eq_true, Bool.not_eq_true', decide_eq_true_eq, not_or] at unbound
      exact (bad.resolve_left unbound.1).resolve_left unbound.2
    rw [if_neg unbound, pages]

theorem sealRange_performs (reached : s.reached = true) {ps : List (Nat × Nat)} (valid : (s.colour col.toNat).valid = true)
    (context : (s.vf (s.colour col.toNat).vf.toNat).ctxid ≠ 0) (pages : s.rangePages col va len = some ps) :
    s.Performs (.sealRange col va len) fun t =>
      t.sealed = s.sealed ++ ps.map (fun (p : Nat × Nat) => ((s.vf (s.colour col.toNat).vf.toNat).ctxid, p.1 / 4096)) ∧
      Sp.get [] t.trust.ranges (s.vf (s.colour col.toNat).vf.toNat).ctxid.toNat =
        Sp.get [] s.trust.ranges (s.vf (s.colour col.toNat).vf.toNat).ctxid.toNat ++ [(va, len)] ∧
      Sp.find? t.trust.measure (s.vf (s.colour col.toNat).vf.toNat).ctxid.toNat = some (Config.sha3 (leBytes 32
        (Sp.get 0 s.trust.measure (s.vf (s.colour col.toNat).vf.toNat).ctxid.toNat).toNat ++ leBytes 8 va.toNat ++ leBytes 8 len.toNat ++
        leBytes 32 (Config.sha3 (((ps.flatMap fun (p : Nat × Nat) => s.readHomeN p.2 p.1 4096).drop (va.toNat % 4096)).take
          len.toNat)).toNat)) := by
  have bound : ¬(!(s.colour col.toNat).valid || decide ((s.vf (s.colour col.toNat).vf.toNat).ctxid = 0)) = true := by
    rw [valid, decide_eq_false context]
    exact Bool.false_ne_true
  have mapped : s.sealPages col.toNat (va.toNat - va.toNat % 4096) ((va.toNat % 4096 + len.toNat + 4095) / 4096) = some ps := pages
  have run := exec_sealRange col va len s
  rw [execSealRange, State.managed_of reached, if_neg bound, mapped] at run
  exact answered_performs run ⟨rfl, rfl⟩ ⟨rfl, Sp.get_put_self .., (Sp.find?_put ..).trans (if_pos rfl)⟩

end

/-! ## Release scrubs (R356) -/

section
variable {s : State} {n : BitVec 7}

theorem Mem.read_filter (p : Nat → Bool) (m : Memory) (a : Nat) : Mem.read (m.filter fun c => p c.1) a = if p a then Mem.read m a else 0 := by
  rw [Mem.read, Sp.get, Sp.find?_filter, Mem.read, Sp.get]
  split <;> rfl

theorem releaseScrub_sector_refuses (reached : s.reached = true) (past : 16 ≤ n.toNat) :
    exec (.releaseScrub false n) s = .next (s.answer false) := by
  rw [exec_releaseScrub, execReleaseScrub, State.managed_of reached, if_neg (by decide), if_pos past]

theorem releaseScrub_sector (reached : s.reached = true) (inside : n.toNat < 16) :
    s.Performs (.releaseScrub false n) fun t => t.trust.cleanSectors.getLsbD n.toNat = true ∧
      ∀ a, space a = .floor → t.readHome 0 a = if floorDie a * 4 + floorSector (floorOff a) = n.toNat then 0 else s.readHome 0 a := by
  have run := exec_releaseScrub false n s
  rw [execReleaseScrub, State.managed_of reached, if_neg (by decide), if_neg (by omega)] at run
  refine answered_performs run ⟨rfl, rfl⟩ ⟨?_, fun a floor => ?_⟩
  · simp [State.answer, Trust.answered, inside]
  · have near : space a ≠ .gddr := by rw [floor]; decide
    rw [State.readHome_mem 0 near, State.readHome_mem 0 near]
    refine (Mem.read_filter (fun h => space h != .floor || floorDie h * 4 + floorSector (floorOff h) != n.toNat) s.mem a).trans ?_
    by_cases mine : floorDie a * 4 + floorSector (floorOff a) = n.toNat <;> simp [floor, mine]

/-- A GDDR-7 address and the base of its line, or of its unit, lie in one channel. -/
theorem gddr_aligned {a m : Nat} (dram : space a = .gddr) (unit : m = 32 ∨ m = 128) :
    space (a - a % m) = .gddr ∧ chanOf (a - a % m) = chanOf a := by
  have bounds : gddrBase ≤ a ∧ a < 0x13000000000 := by
    unfold space at dram
    split at dram
    · cases dram
    split at dram
    · cases dram
    split at dram
    · cases dram
    split at dram
    · cases dram
    split at dram
    · cases dram
    split at dram
    next inside => simpa using inside
    next => cases dram
  obtain ⟨low, high⟩ := bounds
  refine ⟨Sys2Proof.Proofs.space_gddr ?_ (by omega), ?_⟩
  · unfold gddrBase at low ⊢
    rcases unit with rfl | rfl <;> omega
  · unfold chanOf gddrBase
    unfold gddrBase at low
    rcases unit with rfl | rfl <;> omega

theorem State.retireNow_keeps {β : Type} (g : State → β)
    (apart : ∀ (s : State) r c d l, g { s with retired := r, chanHeld := c, disable := d, l2 := l } = g s) (f : Nat) :
    g (s.retireNow f) = g s := by
  rw [State.retireNow]
  split
  · exact apart s _ s.chanHeld s.disable _
  · exact apart s s.retired _ _ _

/-- The frames of a channel that fail in its scrub are retired (R372). -/
def State.retireFailing (s : State) (k : Nat) : State :=
  (s.trust.failing.filter fun f => space (f * 4096) == .gddr && chanOf (f * 4096) == k && !s.isRetired (f * 4096)).foldl
    (fun s f => s.retireNow f) s

theorem State.retireFailing_keeps {β : Type} (g : State → β)
    (apart : ∀ (s : State) r c d l, g { s with retired := r, chanHeld := c, disable := d, l2 := l } = g s) (k : Nat) :
    g (s.retireFailing k) = g s := State.foldl_keeps g (fun _ f => State.retireNow_keeps g apart f) _ s

/-- The addresses that the release scrub of a channel leaves. -/
def outsideChannel (k h : Nat) : Bool := space h != .gddr || chanOf h != k

/-- The state after the release scrub of a channel. -/
def State.scrubChannel (s : State) (k : Nat) : State :=
  { s with mem := s.mem.filter (fun c => outsideChannel k c.1), marks := s.marks.filter (fun c => outsideChannel k c.1),
           l2 := s.l2.filter (fun l => outsideChannel k (l.1 * 128)), ltags := s.ltags.filter (fun l => outsideChannel k (l.1 * 128)),
           trust := { s.trust with cleanChans := s.trust.cleanChans ||| (1#128 <<< k) } }

theorem State.poisoned_scrubChannel {k a : Nat} (dram : space a = .gddr) (mine : chanOf a = k) : (s.scrubChannel k).poisoned a = false := by
  have inside (m : Nat) (unit : m = 32 ∨ m = 128) : outsideChannel k (a - a % m) = false := by
    obtain ⟨space, chan⟩ := gddr_aligned dram unit
    rw [outsideChannel, space, chan, mine, bne_self_eq_false, bne_self_eq_false]
    rfl
  have base : a / 128 * 128 = a - a % 128 := by omega
  have line : Sp.find? (s.scrubChannel k).l2 (a / 128) = none := by
    refine (Sp.find?_filter (fun l => outsideChannel k (l * 128)) s.l2 (a / 128)).trans (if_neg ?_)
    rw [base, inside 128 (.inr rfl)]
    exact Bool.false_ne_true
  have unit : Sp.find? (s.scrubChannel k).marks (unitBase a) = none := by
    refine (Sp.find?_filter (outsideChannel k) s.marks (unitBase a)).trans (if_neg ?_)
    rw [unitBase, unitSize, dram, inside 32 (.inl rfl)]
    exact Bool.false_ne_true
  rw [State.poisoned, dram, if_pos (show (Space.gddr == Space.gddr) = true from rfl), line]
  dsimp only
  rw [Sp.get, unit]
  rfl

theorem releaseScrub_channel (reached : s.reached = true) : s.Performs (.releaseScrub true n) fun t =>
    t.trust.cleanChans.getLsbD n.toNat = true ∧ (∀ a, space a = .gddr → chanOf a = n.toNat → t.poisoned a = false) ∧
      ∀ a, space a = .floor → t.readHome 0 a = s.readHome 0 a := by
  have run : exec (.releaseScrub true n) s = .next (((s.retireFailing n.toNat).scrubChannel n.toNat).answer true) := by
    rw [exec_releaseScrub, execReleaseScrub, State.managed_of reached, if_pos rfl]
    rfl
  refine answered_performs run ⟨State.retireFailing_keeps (·.trust.outbox) (fun _ _ _ _ _ => rfl) _,
    State.retireFailing_keeps (·.trust.calls) (fun _ _ _ _ _ => rfl) _⟩ ⟨?_, fun a dram mine => State.poisoned_scrubChannel dram mine,
    fun a floor => ?_⟩
  · have small : n.toNat < 128 := n.isLt
    simp [State.answer, Trust.answered, State.scrubChannel, small]
  · have near : space a ≠ .gddr := by rw [floor]; decide
    rw [State.readHome_mem 0 near, State.readHome_mem 0 near]
    refine (Mem.read_filter (outsideChannel n.toNat) _ a).trans ((if_pos ?_).trans ?_)
    · rw [outsideChannel, floor]
      rfl
    · exact congrArg (fun m => Mem.read m a) (State.retireFailing_keeps State.mem (fun _ _ _ _ _ => rfl) _)

end

end Sys2Proof.Machine
end

section
/-!
PROOFS of family 26. Owner tags, start commands and resets of cores (26 R359, R360, 19 R281, R284).
-/
namespace Sys2Proof.Machine

section
variable {s : State} {n : Nat} {tag : BitVec 16}

/-! ## What a core gives up -/

theorem State.l1DropAll_keeps {β : Type} (g : State → β)
    (apart : ∀ (s : State) c h m t l k, g { s with cores := c, chans := h, mem := m, ltags := t, l2 := l, marks := k } = g s)
    (s : State) (n : Nat) : g (s.l1DropAll n) = g s := by
  refine State.foldl_keeps g (fun s line => ?_) _ s
  exact (apart _ _ (s.l1WriteBack n line).chans _ _ _ _).trans (State.l1WriteBack_keeps g apart s n line)

theorem State.l1DropAll_none (none : (s.core n).l1 = []) : s.l1DropAll n = s := by
  rw [State.l1DropAll, none]
  rfl

theorem space_gddr_below {a : Nat} (dram : space a = .gddr) : a < padBase := by
  by_contra above
  rw [space, if_pos (Nat.le_of_not_lt above)] at dram
  cases dram

theorem space_pad_of_le {a : Nat} (above : padBase ≤ a) : space a = .pad := if_pos above

/-- The pad of a core reads as zero once it is cleared, and every other byte as before. -/
theorem State.readHome_clearPad (key a : Nat) :
    (s.clearPad n).readHome key a = if padHome n 0 ≤ a ∧ a < padHome n 0 + 2 ^ 19 then 0 else s.readHome key a := by
  have kept := Mem.read_filter (fun h => decide (h < padHome n 0) || decide (padHome n 0 + 2 ^ 19 ≤ h)) s.mem a
  have memory : (s.clearPad n).mem = s.mem.filter fun c => decide (c.1 < padHome n 0) || decide (padHome n 0 + 2 ^ 19 ≤ c.1) := rfl
  rw [← memory] at kept
  have base : padBase ≤ padHome n 0 := by unfold padHome; omega
  by_cases mine : padHome n 0 ≤ a ∧ a < padHome n 0 + 2 ^ 19
  · have pad : space a ≠ .gddr := by
      rw [space_pad_of_le (base.trans mine.1)]
      decide
    rw [if_pos mine, State.readHome_mem key pad, kept, if_neg]
    simp only [Bool.or_eq_true, decide_eq_true_eq]
    omega
  · rw [if_neg mine]
    have out : (decide (a < padHome n 0) || decide (padHome n 0 + 2 ^ 19 ≤ a)) = true := by
      simp only [Bool.or_eq_true, decide_eq_true_eq]
      omega
    rw [if_pos out] at kept
    unfold State.readHome
    rw [kept]
    rfl

/-- A core with a new tag, or none: what R359 clears. -/
structure State.Cleared (s : State) (n : Nat) (tag : BitVec 16) (t : State) : Prop where
  owner : (t.core n).owner = tag
  bag : (t.core n).bag = []
  tlb : (t.core n).tlb = []
  copies : (t.core n).l1 = []
  streams : (t.core n).streams = []
  pad : ∀ off, off < 2 ^ 19 → t.readHome 0 (padHome n off) = 0
  memory : ∀ key a, a < padHome n 0 ∨ padHome n 0 + 2 ^ 19 ≤ a → t.readHome key a = (s.l1DropAll n).readHome key a

/-- Where the memory of the core's pad has been cleared, its bytes and the others are as R359 asks. -/
theorem State.Cleared.of_clearPad {t : State} (owner : (t.core n).owner = tag) (bag : (t.core n).bag = []) (tlb : (t.core n).tlb = [])
    (copies : (t.core n).l1 = []) (streams : (t.core n).streams = [])
    (memory : ∀ key a, t.readHome key a = ((s.l1DropAll n).clearPad n).readHome key a) : s.Cleared n tag t where
  owner := owner
  bag := bag
  tlb := tlb
  copies := copies
  streams := streams
  pad off hoff := by
    rw [memory, State.readHome_clearPad, if_pos]
    unfold padHome
    omega
  memory key a out := by
    rw [memory, State.readHome_clearPad, if_neg]
    omega

/-! ## The change of the tag -/

/-- The core after its tag has changed. -/
def Core.retagged (c : Core) (tag : BitVec 16) : Core :=
  { c with owner := tag, bag := [], bagWait := [], spillProd := 0, spillCons := 0, claim := none, tlb := [], cbc := [], cbcColour := [],
           rcache := [], rtab := none, mask := 0, regs := { c.regs with counts := [] }, streams := [], island := Island.reset,
           vane := VaneUnit.reset }

/-- Beside the frozen sets and the scrubs, a change of the tag leaves the core so. -/
theorem State.retag_keeps {β : Type} (g : State → β) (apart : ∀ (s : State) t v, g { s with trust := t, vfs := v } = g s) :
    g (s.retag n tag) = g ((((s.l1DropAll n).clearPad n).dropAgentReads n).setCore n
      (((((s.l1DropAll n).clearPad n).dropAgentReads n).core n).retagged tag)) := by
  have trust (u : State) (t : Trust) : g { u with trust := t } = g u := apart u t u.vfs
  have thaw (u : State) (f : Nat → Vf → Bool) (c : Prop) [Decidable c] : g (if c then u else u.thaw f) = g u := by
    split
    · rfl
    · exact apart u u.trust _
  rw [State.retag]
  dsimp only
  rw [thaw]
  split
  · rfl
  · split
    · exact trust _ _
    · rfl

theorem State.core_retag : (s.retag n tag).core n = ({ s.core n with l1 := [] } : Core).retagged tag := by
  have own : ((((s.l1DropAll n).clearPad n).dropAgentReads n).core n) = { s.core n with l1 := [] } := State.core_l1DropAll s n
  rw [State.retag_keeps (fun s => s.core n) (fun _ _ _ => rfl), State.core_setCore_self, own]

theorem State.readHome_retag (key a : Nat) : (s.retag n tag).readHome key a = ((s.l1DropAll n).clearPad n).readHome key a :=
  State.retag_keeps (fun s => s.readHome key a) (fun _ _ _ => rfl)

theorem State.quiet_l1DropAll : s.Quiet (s.l1DropAll n) :=
  ⟨State.l1DropAll_keeps (·.trust.outbox) (fun _ _ _ _ _ _ _ => rfl) s n, State.l1DropAll_keeps (·.trust.calls) (fun _ _ _ _ _ _ _ => rfl) s n⟩

theorem State.quiet_retag : s.Quiet (s.retag n tag) := by
  obtain ⟨outbox, calls⟩ := State.quiet_l1DropAll (s := s) (n := n)
  rw [State.retag]
  refine State.Quiet.trans ?_ (State.quiet_thawIf _ _)
  split
  · exact ⟨outbox, calls⟩
  · split <;> exact ⟨outbox, calls⟩

theorem State.cleared_retag : s.Cleared n tag (s.retag n tag) := by
  refine .of_clearPad ?_ ?_ ?_ ?_ ?_ fun key a => State.readHome_retag key a
  all_goals rw [State.core_retag]; rfl

/-! ## Resets -/

theorem State.ack_keeps {β : Type} (g : State → β) (apart : ∀ (s : State) v, g { s with net := v } = g s) (p : Packet) (nack : Bool)
    (code : Nat) : g (s.ack p nack code) = g s := by
  rw [State.ack]
  split
  · rfl
  · exact apart _ _

/-- Beside the network, a ring that is configured anew changes its core alone. -/
theorem State.ringDeliver_keeps {β : Type} (g : State → β) (apart : ∀ (s : State) v, g { s with net := v } = g s) (w : W64) :
    g (s.ringDeliver n w) = g (s.setCore n { s.core n with ring := { Ring.reset with cfg := w } }) := by
  rw [State.ringDeliver]
  dsimp only
  rw [State.foldl_keeps g fun s p => s.ack_keeps g apart p false 0x1B]
  exact apart (s.setCore n { s.core n with ring := { Ring.reset with cfg := w } }) _

/-- The core after its reset: it keeps its tag and the pairs of its bag. -/
theorem State.core_resetCore : ((s.resetCore n).core n).run = .reset ∧ ((s.resetCore n).core n).regs = Regs.reset ∧
    ((s.resetCore n).core n).owner = (s.core n).owner ∧ ((s.resetCore n).core n).bag = (s.core n).bag ∧ ((s.resetCore n).core n).tlb = [] ∧
    ((s.resetCore n).core n).l1 = [] ∧ ((s.resetCore n).core n).streams = [] := by
  have own : ((((s.l1DropAll n).clearPad n).dropAgentReads n).ringDeliver n 0).core n =
      { s.core n with l1 := [], ring := { Ring.reset with cfg := 0 } } := by
    have before : (((s.l1DropAll n).clearPad n).dropAgentReads n).core n = { s.core n with l1 := [] } := State.core_l1DropAll s n
    rw [State.ringDeliver_keeps (fun s => s.core n) (fun _ _ => rfl), State.core_setCore_self, before]
  rw [State.resetCore]
  dsimp only
  rw [State.core_setCore_self]
  exact ⟨rfl, rfl, (congrArg Core.owner own).trans rfl, (congrArg Core.bag own).trans rfl, rfl, rfl, rfl⟩

theorem State.readHome_resetCore (key a : Nat) : (s.resetCore n).readHome key a = ((s.l1DropAll n).clearPad n).readHome key a :=
  (State.ringDeliver_keeps (s := ((s.l1DropAll n).clearPad n).dropAgentReads n) (fun s => s.readHome key a) (fun _ _ => rfl) 0).trans rfl

theorem State.quiet_resetCore : s.Quiet (s.resetCore n) := by
  obtain ⟨outbox, calls⟩ := State.quiet_l1DropAll (s := s) (n := n)
  exact ⟨(State.ringDeliver_keeps (s := ((s.l1DropAll n).clearPad n).dropAgentReads n) (·.trust.outbox) (fun _ _ => rfl) 0).trans outbox,
    (State.ringDeliver_keeps (s := ((s.l1DropAll n).clearPad n).dropAgentReads n) (·.trust.calls) (fun _ _ => rfl) 0).trans calls⟩

/-- A core that loses its owner is held in reset, and cleared as R359 asks. -/
theorem State.cleared_reset : s.Cleared n tag ((s.retag n tag).resetCore n) := by
  obtain ⟨-, -, owner, bag, tlb, copies, streams⟩ := State.core_resetCore (s := s.retag n tag) (n := n)
  have tagged := State.core_retag (s := s) (n := n) (tag := tag)
  refine .of_clearPad (owner.trans (by rw [tagged]; rfl)) (bag.trans (by rw [tagged]; rfl)) tlb copies streams fun key a => ?_
  have dropped : (s.retag n tag).l1DropAll n = s.retag n tag := State.l1DropAll_none (by rw [tagged]; rfl)
  rw [State.readHome_resetCore, dropped, State.readHome_clearPad, State.readHome_retag, State.readHome_clearPad]
  split <;> rfl

/-! ## The requests -/

/-- The core stands still (R359). -/
theorem Core.stopped_iff {c : Core} :
    c.stopped = true ↔ c.run = .reset ∨ c.run = .stopped ∨ c.run = .halted ∧ c.bagctl.getLsbD 63 = false := by
  rw [Core.stopped]
  cases c.run <;> simp

@[simp] theorem State.core_answer (u : State) (ok : Bool) (k : Nat) : (u.answer ok).core k = u.core k := rfl

theorem State.Cleared.answer {t : State} (c : s.Cleared n tag t) : s.Cleared n tag (t.answer true) := by
  obtain ⟨owner, bag, tlb, copies, streams, pad, memory⟩ := c
  exact ⟨owner, bag, tlb, copies, streams, pad, memory⟩

variable {m : CoreNum} (reached : s.reached = true)
include reached

theorem ownerTagWrite_refuses (bad : ¬(s.corePresent m.toNat = true ∧ (s.core m.toNat).stopped = true)) :
    exec (.ownerTagWrite m tag) s = .next (s.answer false) := by
  refine refuses_of reached (exec_ownerTagWrite m tag s) (if_pos ?_)
  rw [Bool.or_eq_true, Bool.not_eq_true', Bool.not_eq_true', ← Bool.not_eq_true, ← Bool.not_eq_true, ← not_and_or]
  exact bad

theorem ownerTagWrite_performs (present : s.corePresent m.toNat = true) (still : (s.core m.toNat).stopped = true) :
    s.Performs (.ownerTagWrite m tag) fun t => s.Cleared m.toNat tag t ∧
      (t.core m.toNat).run = if tag = 0 then .reset else (s.core m.toNat).run := by
  have run := exec_ownerTagWrite m tag s
  rw [execOwnerTagWrite, State.managed_of reached, if_neg (by rw [present, still]; decide)] at run
  dsimp only at run
  by_cases none : tag = 0
  · rw [if_pos none] at run
    refine answered_performs run (State.quiet_retag.trans State.quiet_resetCore) ⟨State.cleared_reset.answer, ?_⟩
    rw [State.core_answer, if_pos none]
    exact State.core_resetCore.1
  · rw [if_neg none] at run
    refine answered_performs run State.quiet_retag ⟨State.cleared_retag.answer, ?_⟩
    rw [State.core_answer, if_neg none, State.core_retag]
    rfl

theorem startCommand_refuses {col : BitVec 8} {block arg : W64} (bad : ¬(s.corePresent m.toNat = true ∧ (s.core m.toNat).run = .reset ∧
    tag ≠ 0 ∧ s.boundAt m.toNat col.toNat = true ∧ block.toNat % 8 = 0)) :
    exec (.startCommand m tag col block arg) s = .next (s.answer false) := by
  refine refuses_of reached (exec_startCommand m tag col block arg s) (if_pos ?_)
  rw [Bool.not_eq_true']
  by_contra good
  refine bad ?_
  simpa [Bool.and_eq_true, and_assoc] using good

theorem startCommand_performs {col : BitVec 8} {block arg : W64} (present : s.corePresent m.toNat = true) (held : (s.core m.toNat).run = .reset)
    (owned : tag ≠ 0) (bound : s.boundAt m.toNat col.toNat = true) (aligned : block.toNat % 8 = 0) :
    s.Performs (.startCommand m tag col block arg) fun t => s.Cleared m.toNat tag t ∧ (t.core m.toNat).run = .running ∧
      (t.core m.toNat).lvlS = true ∧ (t.core m.toNat).pc = block ∧ (t.core m.toNat).regs.colour = col ∧
      (t.core m.toNat).regs.getX 2 = w64 m.toNat ∧ (t.core m.toNat).regs.getX 3 = arg ∧
      ∀ r, r ≠ 2 → r ≠ 3 → (t.core m.toNat).regs.getX r = 0 := by
  have allowed : (s.corePresent m.toNat && (s.core m.toNat).run == .reset && tag != 0 && s.boundAt m.toNat col.toNat &&
      block.toNat % 8 == 0) = true := by
    simp only [Bool.and_eq_true, beq_iff_eq, bne_iff_ne]
    exact ⟨⟨⟨⟨present, held⟩, owned⟩, bound⟩, aligned⟩
  have run := exec_startCommand m tag col block arg s
  rw [execStartCommand, State.managed_of reached, if_neg (by rw [allowed]; decide)] at run
  have own (c : Core) : (((s.retag m.toNat tag).setCore m.toNat c).answer true).core m.toNat = c := State.core_setCore_self ..
  obtain ⟨owner, bag, tlb, copies, streams, pad, memory⟩ := State.cleared_retag (s := s) (n := m.toNat) (tag := tag)
  refine answered_performs run State.quiet_retag ⟨⟨?_, ?_, ?_, ?_, ?_, pad, memory⟩, ?_, ?_, ?_, ?_, ?_, ?_, fun r two three => ?_⟩
  · rw [own]
    exact owner
  · rw [own]
    exact bag
  · rw [own]
    exact tlb
  · rw [own]
    exact copies
  · rw [own]
    exact streams
  · rw [own]
  · rw [own]
  · rw [own]
  · rw [own]
  · rw [own]
    rfl
  · rw [own]
    rfl
  · rw [own]
    by_cases zero : r = 0
    · exact if_pos zero
    · have second : ¬2 = r.toNat := fun same => two (BitVec.eq_of_toNat_eq same.symm)
      have third : ¬3 = r.toNat := fun same => three (BitVec.eq_of_toNat_eq same.symm)
      refine (if_neg zero).trans ?_
      rw [Sp.get, Sp.find?, if_neg second, Sp.find?, if_neg third]
      rfl

theorem coreReset_performs (stopped : (s.core m.toNat).run = .stopped) :
    s.Performs (.coreReset m) fun t => (t.core m.toNat).run = .reset ∧ (t.core m.toNat).regs = Regs.reset := by
  obtain ⟨run, regs, -⟩ := State.core_resetCore (s := s) (n := m.toNat)
  exact performs_of reached (exec_coreReset m s) (if_pos (by rw [stopped]; rfl)) State.quiet_resetCore ⟨run, regs⟩

theorem coreReset_refuses (going : (s.core m.toNat).run ≠ .stopped) : exec (.coreReset m) s = .next (s.answer false) :=
  refuses_of reached (exec_coreReset m s) (if_neg (by simpa using going))

theorem setPre_performs (present : s.corePresent m.toNat = true) :
    s.Performs (.setPre m) fun t => (t.core m.toNat).tpend = (s.core m.toNat).tpend ||| 1 :=
  performs_of reached (exec_setPre m s) (if_pos present) ⟨rfl, rfl⟩ (congrArg Core.tpend (State.core_setCore_self ..))

theorem setPre_refuses (absent : s.corePresent m.toNat = false) : exec (.setPre m) s = .next (s.answer false) :=
  refuses_of reached (exec_setPre m s) (if_neg (by rw [absent]; decide))

end

end Sys2Proof.Machine

namespace Sys2Proof.Proofs
open Sys2Proof Sys2Proof.Machine

section
variable {s : State}

/-- No request reaches the management function outside its session. -/
theorem unreached_rests (unreached : s.reached = false) (n : BitVec 4) (w : BitVec 256) (v x : W64) (f : BitVec 6) (c : BitVec 8)
    (e : BitVec 128) (k : CoreNum) (tag : BitVec 16) (h : BitVec 40) (key : BitVec 512) (b : Bool) :
    ∀ i ∈ [Instr.partWrite n w, .vfWrite f v, .lpermWrite n v, .colourTableWrite c e, .ownerTagWrite k tag, .startCommand k tag c v x,
      .coreReset k, .setPre k, .retireCommand h, .keyLoad true c key b, .keyLoad false c key false, .linkKeyLoad n f b w,
      .lkstatWrite n f v, .sealRange c v x, .releaseScrub b (c.setWidth 7)], exec i s = .next s := by
  have rests {f : State → State} : s.managed f = s := State.managed_unreached unreached
  have keyed : exec (.keyLoad true c key b) s = .next s := by
    rw [exec_keyLoad, execKeyLoad, if_neg (by rw [Bool.not_true, Bool.and_false]; decide), rests]
  have coloured : exec (.keyLoad false c key false) s = .next s := by
    rw [exec_keyLoad, execKeyLoad, if_neg (by decide), rests]
  intro i hi
  simp only [List.mem_cons, List.not_mem_nil, or_false] at hi
  rcases hi with rfl | rfl | rfl | rfl | rfl | rfl | rfl | rfl | rfl | rfl | rfl | rfl | rfl | rfl | rfl
  case inr.inr.inr.inr.inr.inr.inr.inr.inr.inl => exact keyed
  case inr.inr.inr.inr.inr.inr.inr.inr.inr.inr.inl => exact coloured
  all_goals exact congrArg Host.Outcome.next rests

end

end Sys2Proof.Proofs
end

section
/-!
PROOFS of family 26. The requests of the management session, put together (26, 25 R354, 27 R378, 28 R386).
-/
namespace Sys2Proof.Machine

/-! ## When a write of PARTn is refused (R356) -/

section
variable {s : State} {n : Nat} {q : Part}

/-- No other valid entry shares a sector or a channel with the entry to be written. -/
def State.Apart (s : State) (n : Nat) (q : Part) : Prop :=
  ∀ m r, (m, r) ∈ s.parts → m ≠ n → r.valid = true → r.smask &&& q.smask = 0 ∧ r.chmask &&& q.chmask = 0

/-- Another entry shares a sector or a channel. -/
def State.partShared (s : State) (n : Nat) (q : Part) : Bool :=
  s.parts.any fun p => p.1 != n && p.2.valid && (p.2.smask &&& q.smask != 0 || p.2.chmask &&& q.chmask != 0)

theorem State.partShared_iff : s.partShared n q = true ↔ ¬s.Apart n q := by
  rw [State.partShared, State.Apart, List.any_eq_true]
  push Not
  constructor
  · rintro ⟨⟨m, r⟩, mem, shares⟩
    simp only [Bool.and_eq_true, Bool.or_eq_true, bne_iff_ne] at shares
    obtain ⟨⟨other, valid⟩, both⟩ := shares
    exact ⟨m, r, mem, other, valid, fun sectors => both.resolve_left (not_not.2 sectors)⟩
  · rintro ⟨m, r, mem, other, valid, both⟩
    refine ⟨(m, r), mem, ?_⟩
    simp only [Bool.and_eq_true, Bool.or_eq_true, bne_iff_ne]
    exact ⟨⟨other, valid⟩, or_iff_not_imp_left.2 fun sectors => both (not_not.1 sectors)⟩

/-- Sectors and channels that leave an entry. -/
def leaving {w : Nat} (old q : Part) (f : Part → BitVec w) : BitVec w :=
  if old.valid then f old &&& ~~~f q ||| (if q.valid then 0 else f old) else 0

theorem State.partRefused_eq : s.partRefused n q = (s.partShared n q || (q.valid && q.smask == 0) ||
    (List.range 128).any (fun c => q.chmask.getLsbD c && !s.chanPresent c) ||
    ((leaving (s.part n) q Part.smask != 0 || leaving (s.part n) q Part.chmask != 0) && s.ownedCore n) ||
    leaving (s.part n) q Part.smask &&& ~~~s.trust.cleanSectors != 0 ||
    leaving (s.part n) q Part.chmask &&& ~~~s.trust.cleanChans != 0) := rfl

theorem State.partRefused_shared (shares : ¬s.Apart n q) : s.partRefused n q = true := by
  rw [State.partRefused_eq, State.partShared_iff.2 shares]
  rfl

theorem State.partRefused_empty (valid : q.valid = true) (empty : q.smask = 0) : s.partRefused n q = true := by
  rw [State.partRefused_eq, valid, empty]
  simp

theorem State.partRefused_absent {c : Nat} (small : c < 128) (names : q.chmask.getLsbD c = true) (absent : s.chanPresent c = false) :
    s.partRefused n q = true := by
  have some : (List.range 128).any (fun c => q.chmask.getLsbD c && !s.chanPresent c) = true :=
    List.any_eq_true.2 ⟨c, List.mem_range.2 small, by rw [names, absent]; rfl⟩
  rw [State.partRefused_eq, some]
  simp

theorem State.partRefused_dirty {i : Nat} (small : i < 16) (valid : (s.part n).valid = true) (had : (s.part n).smask.getLsbD i = true)
    (leaves : q.smask.getLsbD i = false) (dirty : s.trust.cleanSectors.getLsbD i = false) : s.partRefused n q = true := by
  have some : (leaving (s.part n) q Part.smask &&& ~~~s.trust.cleanSectors != 0) = true := by
    rw [bne_iff_ne]
    intro none
    have bit := congrArg (fun v : BitVec 16 => v.getLsbD i) none
    rw [BitVec.getLsbD_eq_getElem small] at had leaves dirty
    simp [leaving, valid, small, had, leaves, dirty] at bit
  rw [State.partRefused_eq, some]
  simp

theorem State.partRefused_none (alone : s.Apart n q) (valid : q.valid = true) (full : q.smask ≠ 0)
    (present : ∀ c, c < 128 → q.chmask.getLsbD c = true → s.chanPresent c = true) (sectors : (s.part n).smask &&& ~~~q.smask = 0)
    (channels : (s.part n).chmask &&& ~~~q.chmask = 0) : s.partRefused n q = false := by
  have unshared : s.partShared n q = false := Bool.eq_false_iff.2 fun shares => State.partShared_iff.1 shares alone
  have stays : leaving (s.part n) q Part.smask = 0 := by simp [leaving, valid, sectors]
  have stays' : leaving (s.part n) q Part.chmask = 0 := by simp [leaving, valid, channels]
  have all : (List.range 128).any (fun c => q.chmask.getLsbD c && !s.chanPresent c) = false := by
    rw [List.any_eq_false]
    intro c hc
    rw [Bool.and_eq_true, Bool.not_eq_true', not_and, Bool.not_eq_false]
    exact present c (List.mem_range.1 hc)
  have filled : (q.valid && q.smask == 0) = false := by
    rw [valid, beq_eq_false_iff_ne.2 full]
    rfl
  rw [State.partRefused_eq, unshared, filled, stays, stays', all]
  simp

end

/-- A port that loses its signal; the clock that follows it is no longer locked (11 R205). -/
theorem lossOfSignal_says {s : State} (port : BitVec 4) : ∃ t, exec (.lossOfSignal port) s = .next t ∧ t.link port.toNat = .untrained ∧
    t.ptp.locked = (if s.ptp.port = port then false else s.ptp.locked) := by
  have untrained : (s.setLink port.toNat .untrained).link port.toNat = .untrained := State.link_setLink ..
  refine ⟨_, exec_lossOfSignal port s, ?_⟩
  by_cases mine : s.ptp.port = port
  · have same : ((s.setLink port.toNat .untrained).ptp.port == port) = true := beq_iff_eq.2 mine
    rw [if_pos mine, if_pos same]
    exact ⟨untrained, rfl⟩
  · have other : ¬((s.setLink port.toNat .untrained).ptp.port == port) = true := fun h => mine (beq_iff_eq.1 h)
    rw [if_neg mine, if_neg other]
    exact ⟨untrained, rfl⟩

end Sys2Proof.Machine

namespace Sys2Proof.Proofs
open Sys2Proof Sys2Proof.Machine

/-- Settles O51: each request by its refusals and by what it leaves, its answer behind the earlier ones. -/
theorem managementRequests : Obligations.ManagementRequests := by
  unfold Obligations.ManagementRequests
  intro s refused denied scrubbed done
  have scrubs (c : BitVec 8) : s.scrubbing c.toNat = true ↔ scrubbed c := State.scrubbing_iff
  have free (c : BitVec 8) (rests : ¬scrubbed c) : s.scrubbing c.toNat = false := Bool.eq_false_iff.2 fun busy => rests ((scrubs c).1 busy)
  refine ⟨unreached_rests, fun reached n v => ?_, fun reached n v => ?_, fun reached n v => lpermWrite_performs reached n v,
    fun reached c v => ?_, fun reached n tag => ?_, fun reached f => ?_, fun n key session => ?_, fun port dom phase => ?_,
    fun reached col va len => ?_, fun reached n => ⟨releaseScrub_sector_refuses reached, releaseScrub_sector reached,
      releaseScrub_channel reached⟩⟩
  · intro q old apart
    exact ⟨fun shares => partWrite_refuses reached (State.partRefused_shared shares), fun valid empty =>
      partWrite_refuses reached (State.partRefused_empty valid empty), fun c small names absent =>
      partWrite_refuses reached (State.partRefused_absent small names absent), fun i small valid had leaves dirty =>
      partWrite_refuses reached (State.partRefused_dirty small valid had leaves dirty), fun alone valid full present sectors channels =>
      partWrite_performs reached (State.partRefused_none alone valid full present sectors channels)⟩
  · exact vfWrite_performs reached n v
  · intro owns
    refine ⟨fun busy => colourTableWrite_waits reached ((scrubs c).2 busy), fun rests other => ?_, fun rests own => ?_⟩
    · obtain ⟨valid, foreign⟩ := not_or.1 other
      exact colourTableWrite_ignored reached (free c rests) (Bool.eq_true_of_not_eq_false valid) foreign
    · obtain ⟨t, run, outbox, calls, after⟩ := colourTableWrite_performs reached (free c rests) own
      refine ⟨t, run, outbox, calls, after.trans ?_⟩
      rw [Colour.written]
      split <;> simp
  · intro c halted cleared
    have still : halted ↔ s.corePresent n.toNat = true ∧ c.stopped = true := by rw [Core.stopped_iff]
    refine ⟨fun going => ownerTagWrite_refuses reached fun h => going (still.2 h), fun rests => ?_, fun col block arg => ?_,
      coreReset_performs reached,
      coreReset_refuses reached, setPre_performs reached, setPre_refuses reached⟩
    · obtain ⟨present, stands⟩ := still.1 rests
      obtain ⟨t, run, outbox, calls, ⟨owner, bag, tlb, copies, streams, pad, memory⟩, state⟩ := ownerTagWrite_performs reached present stands
      exact ⟨t, run, outbox, calls, ⟨owner, bag, tlb, copies, streams, pad, memory⟩, state⟩
    · refine ⟨startCommand_refuses reached, fun ⟨present, held, owned, bound, aligned⟩ => ?_⟩
      obtain ⟨t, run, outbox, calls, ⟨owner, bag, tlb, copies, streams, pad, memory⟩, rest⟩ :=
        startCommand_performs reached (arg := arg) present held owned bound aligned
      exact ⟨t, run, outbox, calls, ⟨owner, bag, tlb, copies, streams, pad, memory⟩, rest⟩
  · intro mine
    exact ⟨retireCommand_refuses reached, retireCommand_again reached, retireCommand_performs reached⟩
  · intro q bad f calls mine way
    have twin : bad ↔ twinKey key = true := beq_iff_eq.symm
    have sound (good : ¬bad) : twinKey key = false := Bool.eq_false_iff.2 fun h => good (twin.2 h)
    refine ⟨fun busy => keyLoad_scrubbed ((scrubs n).2 busy), fun inside quiet => ?_, fun equal => ⟨fun ⟨outside, reached, rests⟩ => ?_,
      fun reached => ?_⟩, fun ⟨inside, valid, caller, rests⟩ wrong => ?_, fun p inside one kind going foreign rests => ?_,
      fun ⟨inside, valid, caller, rests⟩ good sess en => ?_, fun reached good past => ?_, fun reached good small => ?_,
      fun ⟨outside, reached, rests⟩ good valid locked => ?_, fun ⟨outside, reached, rests⟩ good allowed => ?_⟩
    · subst inside
      exact keyLoad_session_none (State.keyCaller_none quiet)
    · exact keyLoad_twin reached (by rw [outside]; rfl) (fun _ => free n rests) (twin.1 equal)
    · exact keyLoad_twin reached (Bool.and_false _) (fun h => nomatch h) (twin.1 equal)
    · subst inside
      refine (keyLoad_session_some (State.keyCaller_own valid caller) (free n rests)).trans (congrArg _ (if_pos ?_))
      simp only [Bool.or_eq_true, Bool.not_eq_true']
      rcases wrong with equal | closed | off
      · exact .inl (.inl (.inl (.inl (twin.1 equal))))
      · exact .inl (.inr closed)
      · exact .inr off
    · subst inside
      refine (keyLoad_session_some (State.keyCaller_other one kind going foreign) (free n rests)).trans (congrArg _ (if_pos ?_))
      simp only [Bool.or_eq_true, Bool.not_eq_true', bne_iff_ne]
      rcases foreign with invalid | other
      · exact .inl (.inl (.inl (.inr invalid)))
      · exact .inl (.inl (.inr other))
    · subst inside
      refine ⟨s.takeKey n.toNat key, (keyLoad_session_some (State.keyCaller_own valid caller) (free n rests)).trans
        (congrArg _ (if_neg ?_)), (State.quiet_takeKey ..).2, State.colour_takeKey ..⟩
      rw [sound good, show (s.colour n.toNat).valid = true from valid, show (s.vf (s.colour n.toNat).vf.toNat).sess = true from sess,
        show (s.vf (s.colour n.toNat).vf.toNat).en = true from en, bne_self_eq_false]
      decide
    · exact (keyLoad_partition reached (sound good)).trans (congrArg _ (if_neg (Nat.not_lt.2 past)))
    · refine answered_performs ((keyLoad_partition reached (sound good)).trans (congrArg _ (if_pos small))) ⟨rfl, rfl⟩ ?_
      exact (Sp.find?_put ..).trans (if_pos rfl)
    · subst outside
      exact (keyLoad_colour reached (free n rests) (sound good)).trans (congrArg _ (if_pos (Bool.and_eq_true_iff.2 ⟨valid, bne_iff_ne.2 locked⟩)))
    · subst outside
      refine answered_performs ((keyLoad_colour reached (free n rests) (sound good)).trans (congrArg _ (if_neg ?_))) (State.quiet_takeKey ..)
        (State.colour_takeKey ..)
      rw [Bool.and_eq_true, bne_iff_ne]
      rintro ⟨valid, locked⟩
      rcases allowed with invalid | unlocked
      · exact absurd (invalid.symm.trans valid) (by decide)
      · exact locked unlocked
  · intro d after accepts has
    refine ⟨fun reached key => ⟨linkKeyLoad_refuses reached, fun idle shut => linkKeyLoad_performs reached idle shut⟩, fun reached v => ?_,
      fun open' key => authfail_rests (.inl ⟨open', key⟩), fun down => authfail_rests (.inr down), fun up closed =>
        ⟨_, authfail_counts up closed, ?_, rfl⟩, fun present => ⟨s.setLink port.toNat .trained, ?_, State.link_setLink ..⟩, fun absent => ?_,
      lossOfSignal_says port⟩
    · intro tx
      exact ⟨fun turn empty => lkstatWrite_performs (P := (· = d)) reached (Domain.write_refused turn empty), fun turn key =>
        lkstatWrite_performs (P := fun e => e.tx = tx ∧ e.txcount = 0 ∧ e.stall = false ∧ e.rx0 = v.getLsbD 57 ∧ e.rx1 = v.getLsbD 58) reached
          (Domain.write_turns turn key), fun keep =>
        lkstatWrite_performs (P := fun e => e.txcount = d.txcount ∧ e.rx0 = v.getLsbD 57 ∧ e.rx1 = v.getLsbD 58 ∧
          (tx = true → d.rx0 = true → v.getLsbD 57 = false → e.key0 = none) ∧
          (tx = false → d.rx0 = true → v.getLsbD 57 = false → e.key0 = d.key0) ∧ (v.getLsbD 57 = true → e.key0 = d.key0)) reached
          (Domain.write_keeps keep)⟩
    · exact (State.domain_setDomain ..).trans (by rw [satAdd_one])
    · rw [exec_linkTrained, execLinkTrained, if_pos present]
    · rw [exec_linkTrained, execLinkTrained, if_neg (by rw [absent]; decide)]
  · intro q ctx off pages
    exact ⟨sealRange_refuses reached, fun ps valid context mapped => sealRange_performs reached valid context mapped⟩

end Sys2Proof.Proofs
end

section
/-!
PROOFS of family 26, the attestation half: an SPDM request is discarded, refused or answered (26 R363 to R366, R370, R371, 28 R385,
R386).
-/
namespace Sys2Proof.Machine

/-- The binding record is one the device takes. -/
def SpdmTaken (m : Spdm) : Prop :=
  m.ver = 1 ∧ m.kind.toNat ≤ 2 ∧ m.rsvZero = true ∧ m.lenOk = true ∧ (m.kind = 2 → m.vf = 0)

/-- The port of a request carries it. -/
def State.Carried (s : State) (m : Spdm) : Prop :=
  if m.kind = 2 then s.portUp m.port.toNat = true else s.portAuth m.port.toNat = true

/-- One of the seventeen SPDM requests, with the binding record m. -/
def IsSpdm (m : Spdm) (i : Instr) : Prop :=
  i ∈ [.getVersion m, .getCapabilities m, .negotiateAlgorithms m, .getDigests m, .getCertificate m, .challenge m,
    .getMeasurements m, .keyExchange m, .finish m, .heartbeat m, .keyUpdate m, .endSession m, .setCertificate m, .getCsr m,
    .chunkSend m, .chunkGet m, .vendorDefinedRequest m]

/-- A request is taken and its response or error waits to be sent. -/
def State.Sends (s : State) (i : Instr) (msg : TrustMsg) (slot : Option Nat) (P : State → Prop) : Prop :=
  ∃ t, exec i s = .next t ∧ P t ∧ t.trust.pending = s.trust.pending ++ [{ slot := slot, msg := msg }]

/-- The functions, the ports and the certificate chains stand as they were. -/
def State.SameSlots (s t : State) : Prop := t.vfs = s.vfs ∧ t.links = s.links ∧ t.trust.chains = s.trust.chains

section
variable {s : State} {m : Spdm}

theorem bindingTaken_iff : bindingTaken m = true ↔ SpdmTaken m := by
  have two : m.kind ≤ 2 ↔ m.kind.toNat ≤ 2 := by rw [BitVec.le_def]; rfl
  simp only [bindingTaken, SpdmTaken, Bool.and_eq_true, beq_iff_eq, decide_eq_true_eq, two, Bool.or_eq_true, bne_iff_ne, and_assoc]
  tauto

theorem SpdmTaken.kind_cases (taken : SpdmTaken m) : m.kind = 2 ∨ m.kind ≠ 2 ∧ m.kind.toNat ≤ 1 := by
  obtain ⟨-, small, -⟩ := taken
  by_cases link : m.kind = 2
  · exact .inl link
  · have : m.kind.toNat ≠ 2 := fun h => link (BitVec.eq_of_toNat_eq h)
    exact .inr ⟨link, by omega⟩

theorem State.carries_iff (taken : SpdmTaken m) : s.carries m = true ↔ s.Carried m := by
  rcases taken.kind_cases with link | ⟨tenant, small⟩
  · simp [State.carries, State.Carried, link]
  · have kind : m.kind ≤ 1 := by rw [BitVec.le_def]; exact small
    rw [State.carries, State.Carried, if_pos kind, if_neg tenant]

theorem State.spdm_discards {req : SpdmReq} {f : State → State} (bad : ¬(SpdmTaken m ∧ s.Carried m)) : s.spdm m req f = .next s := by
  refine congrArg Host.Outcome.next (if_pos ?_)
  rw [Bool.or_eq_true, Bool.not_eq_true', Bool.not_eq_true', ← Bool.not_eq_true, ← Bool.not_eq_true, bindingTaken_iff]
  by_cases taken : SpdmTaken m
  · exact .inr fun carried => bad ⟨taken, (State.carries_iff taken).1 carried⟩
  · exact .inl taken

section
variable (taken : SpdmTaken m) (carried : s.Carried m)
include taken carried

theorem State.spdm_reaches : (!bindingTaken m || !s.carries m) = false := by
  rw [bindingTaken_iff.2 taken, (State.carries_iff taken).2 carried]; rfl

theorem State.spdm_busy {req : SpdmReq} {f : State → State} (booting : s.booting = true) :
    s.spdm m req f = .next (s.refuse' m req .busy) := by
  rw [State.spdm, State.spdm_reaches taken carried, booting]; rfl

theorem State.spdm_disabled {req : SpdmReq} {f : State → State} (idle : s.booting = false) (tenant : m.kind.toNat ≤ 1)
    (off : (s.vf m.vf.toNat).en = false) : s.spdm m req f = .next (s.refuse' m req .invalidRequest) := by
  have kind : m.kind ≤ 1 := by rw [BitVec.le_def]; exact tenant
  rw [State.spdm, State.spdm_reaches taken carried, idle, decide_eq_true kind, off]; rfl

theorem State.spdm_opens (idle : s.booting = false) (on : m.kind = 2 ∨ (s.vf m.vf.toNat).en = true) (req : SpdmReq) (f : State → State) :
    s.spdm m req f = .next (f s) := by
  have enabled : (decide (m.kind ≤ 1) && !(s.vf m.vf.toNat).en) = false := by
    rcases on with link | en
    · rw [link]; rfl
    · rw [en, Bool.not_true, Bool.and_false]
  rw [State.spdm, State.spdm_reaches taken carried, idle, enabled]; rfl

end

theorem exec_spdm {i : Instr} (request : IsSpdm m i) : ∃ req f, exec i s = s.spdm m req f := by
  simp only [IsSpdm, List.mem_cons, List.not_mem_nil, or_false] at request
  rcases request with rfl | rfl | rfl | rfl | rfl | rfl | rfl | rfl | rfl | rfl | rfl | rfl | rfl | rfl | rfl | rfl | rfl
  exacts [⟨_, _, show execGetVersion m s = _ from rfl⟩,
    ⟨_, _, show execGetCapabilities m s = _ from rfl⟩,
    ⟨_, _, show execNegotiateAlgorithms m s = _ from rfl⟩,
    ⟨_, _, show execGetDigests m s = _ from rfl⟩,
    ⟨_, _, show execGetCertificate m s = _ from rfl⟩,
    ⟨_, _, show execChallenge m s = _ from rfl⟩,
    ⟨_, _, show execGetMeasurements m s = _ from rfl⟩,
    ⟨_, _, show execKeyExchange m s = _ from rfl⟩,
    ⟨_, _, show execFinish m s = _ from rfl⟩,
    ⟨_, _, show execHeartbeat m s = _ from rfl⟩,
    ⟨_, _, show execKeyUpdate m s = _ from rfl⟩,
    ⟨_, _, show execEndSession m s = _ from rfl⟩,
    ⟨_, _, show execSetCertificate m s = _ from rfl⟩,
    ⟨_, _, show execGetCsr m s = _ from rfl⟩,
    ⟨_, _, show execChunkSend m s = _ from rfl⟩,
    ⟨_, _, show execChunkGet m s = _ from rfl⟩,
    ⟨_, _, show execVendorDefinedRequest m s = _ from rfl⟩]

theorem State.sends_error {i : Instr} {req : SpdmReq} {e : SpdmError} (hx : exec i s = .next (s.refuse' m req e)) :
    s.Sends i (.error (peerOf m) req e) none fun t => t.vfs = s.vfs ∧ t.links = s.links :=
  ⟨_, hx, ⟨rfl, rfl⟩, rfl⟩

theorem State.sends_response {i : Instr} {req : SpdmReq} {slot : Option Nat} {body : List Byte}
    (hx : exec i s = .next (s.reply' m req slot body)) : s.Sends i (.response (peerOf m) req body) slot s.SameSlots :=
  ⟨_, hx, ⟨rfl, rfl, rfl⟩, rfl⟩

end

/-! ## Requests that reach their handler -/

section
variable {s : State} {m : Spdm} (opened : ∀ req f, s.spdm m req f = .next (f s))
include opened

theorem exec_of_opened {i : Instr} {req : SpdmReq} {f : State → State} {t : State} (hx : exec i s = s.spdm m req f) (hf : f s = t) :
    exec i s = .next t := by rw [hx, opened, hf]

theorem negotiateAlgorithms_answers (offers : offersBoth m.body = true) :
    s.Sends (.negotiateAlgorithms m) (.response (peerOf m) .negotiateAlgorithms algorithms) none s.SameSlots :=
  State.sends_response (exec_of_opened opened (show execNegotiateAlgorithms m s = _ from rfl) (if_pos offers))

theorem negotiateAlgorithms_refuses (lacks : offersBoth m.body = false) :
    s.Sends (.negotiateAlgorithms m) (.error (peerOf m) .negotiateAlgorithms .unsupportedRequest) none fun t => t.vfs = s.vfs ∧ t.links = s.links :=
  State.sends_error (exec_of_opened opened (show execNegotiateAlgorithms m s = _ from rfl) (if_neg (by rw [lacks]; decide)))

/-! ### KEY_EXCHANGE -/

/-- The handshake of a KEY_EXCHANGE. -/
def State.handshake (s : State) (m : Spdm) : Handshake :=
  { peer := sessionOf m, mgmt := decide (m.kind = 2) && Config.verifies Config.managementAnchor m.body,
    secret := Config.sharedSecret m.body s.free }

theorem keyExchange_size (size : m.body.length ≠ 1184) :
    s.Sends (.keyExchange m) (.error (peerOf m) .keyExchange .invalidRequest) none fun t => t.vfs = s.vfs ∧ t.links = s.links :=
  State.sends_error (exec_of_opened opened (show execKeyExchange m s = _ from rfl) (if_pos (bne_iff_ne.2 size)))

theorem keyExchange_busy (size : m.body.length = 1184) (link : m.kind = 2)
    (managed : Config.verifies Config.managementAnchor m.body = true) (taken : s.trust.mgmt ≠ none ∨ ∃ h ∈ s.trust.hands, h.mgmt = true) :
    s.Sends (.keyExchange m) (.error (peerOf m) .keyExchange .busy) none fun t => t.vfs = s.vfs ∧ t.links = s.links := by
  have second : (s.trust.mgmt.isSome || s.trust.hands.any (·.mgmt)) = true := by
    rw [Bool.or_eq_true, List.any_eq_true, Option.isSome_iff_ne_none]; exact taken
  exact State.sends_error (exec_of_opened opened (show execKeyExchange m s = _ from rfl) (by simp [size, link, managed, second]))

theorem keyExchange_answers (size : m.body.length = 1184) (first : m.kind ≠ 2 ∨ Config.verifies Config.managementAnchor m.body = false ∨
      s.trust.mgmt = none ∧ ∀ h ∈ s.trust.hands, h.mgmt = false) :
    let c := leBytes 1088 (Config.ciphertext m.body s.free).toNat
    s.Sends (.keyExchange m) (.response (peerOf m) .keyExchange (c ++ s.signAs m.slot.toNat c)) (some m.slot.toNat) fun t =>
      s.SameSlots t ∧ s.handshake m ∈ t.trust.hands := by
  intro c
  have admitted : (m.kind == 2 && Config.verifies Config.managementAnchor m.body &&
      (s.trust.mgmt.isSome || s.trust.hands.any (·.mgmt))) = false := by
    rcases first with tenant | other | ⟨none, unmanaged⟩
    · rw [beq_false_of_ne tenant]; rfl
    · rw [other, Bool.and_false, Bool.false_and]
    · rw [none, List.any_eq_false.2 fun h mem => by rw [unmanaged h mem]; decide, Option.isSome_none, Bool.or_false, Bool.and_false]
  refine ⟨_, exec_of_opened opened (show execKeyExchange m s = _ from rfl)
    ((if_neg (by simp [size])).trans (if_neg (by rw [admitted]; decide))), ⟨⟨rfl, rfl, rfl⟩, ?_⟩, rfl⟩
  exact List.mem_append_right _ (List.mem_singleton.2 rfl)

/-! ### FINISH -/

omit opened in
/-- The requester's handshake is used up. -/
def State.unhand (s : State) (m : Spdm) : State :=
  { s with trust := { s.trust with hands := s.trust.hands.filter fun (h : Handshake) => h.peer != sessionOf m } }

omit opened in
theorem State.find?_hands {h : Handshake} (one : s.trust.hands = [h]) (mine : h.peer = sessionOf m) :
    s.trust.hands.find? (fun (h : Handshake) => h.peer == sessionOf m) = some h := by
  rw [one]
  exact List.find?_cons_of_pos (beq_iff_eq.2 mine)

omit opened in
theorem State.not_mem_unhand {h : Handshake} (mem : h ∈ (s.unhand m).trust.hands) : h.peer ≠ sessionOf m :=
  bne_iff_ne.1 (List.mem_filter.1 mem).2

theorem finish_unknown (unknown : ∀ h ∈ s.trust.hands, h.peer ≠ sessionOf m) :
    s.Sends (.finish m) (.error (peerOf m) .finish .invalidRequest) none fun t => t.vfs = s.vfs ∧ t.links = s.links := by
  have none : s.trust.hands.find? (fun (h : Handshake) => h.peer == sessionOf m) = none :=
    List.find?_eq_none.2 fun h mem => by rw [beq_iff_eq]; exact unknown h mem
  exact State.sends_error (exec_of_opened opened (show execFinish m s = _ from rfl) (by simp only [none]))

theorem finish_tenant (tenant : m.kind ≠ 2) (known : ∃ h ∈ s.trust.hands, h.peer = sessionOf m) :
    s.Sends (.finish m) (.response (peerOf m) .finish []) none fun t => t.vf m.vf.toNat = { s.vf m.vf.toNat with sess := true } ∧
      ∀ h ∈ t.trust.hands, h.peer ≠ sessionOf m := by
  obtain ⟨h, found⟩ : ∃ h, s.trust.hands.find? (fun (h : Handshake) => h.peer == sessionOf m) = some h := by
    obtain ⟨h, mem, mine⟩ := known
    exact Option.isSome_iff_exists.1 (List.find?_isSome.2 ⟨h, mem, beq_iff_eq.2 mine⟩)
  have step : exec (.finish m) s = .next (((s.unhand m).setVf m.vf.toNat { s.vf m.vf.toNat with sess := true }).reply' m .finish none []) :=
    exec_of_opened opened (show execFinish m s = _ from rfl) (by simp only [found]; exact if_neg (by rw [beq_iff_eq]; exact tenant))
  exact ⟨_, step, ⟨Sp.get_set_self .., fun h mem => State.not_mem_unhand mem⟩, rfl⟩

omit opened in
/-- The trust anchor under which a link's handshake is verified. -/
def State.anchorOf (s : State) (h : Handshake) : Option (List Byte) := if h.mgmt then some Config.managementAnchor else s.trust.anchor

section
variable {h : Handshake} (link : m.kind = 2) (one : s.trust.hands = [h]) (mine : h.peer = sessionOf m)
include link one mine

theorem finish_unverified (bad : ¬∃ a, s.anchorOf h = some a ∧ Config.verifies a m.body = true) :
    s.Sends (.finish m) (.error (peerOf m) .finish .invalidRequest) none fun t => t.vfs = s.vfs ∧ t.links = s.links := by
  have unverified : (s.anchorOf h).any (fun a => Config.verifies a m.body) = false := by
    rw [← Bool.not_eq_true, Option.any_eq_true]; exact bad
  have step : exec (.finish m) s = .next ((s.unhand m).refuse' m .finish .invalidRequest) :=
    exec_of_opened opened (show execFinish m s = _ from rfl) (by
      simp only [State.find?_hands one mine]
      exact (if_pos (beq_iff_eq.2 link)).trans (if_pos (by rw [Bool.not_eq_true']; exact unverified)))
  exact ⟨_, step, ⟨rfl, rfl⟩, rfl⟩

section
variable (good : ∃ a, s.anchorOf h = some a ∧ Config.verifies a m.body = true)
include good

theorem finish_management (managed : h.mgmt = true) :
    s.Sends (.finish m) (.response (peerOf m) .finish []) none fun t => t.trust.mgmt = some m.port.toNat ∧ t.links = s.links := by
  have verified : (!(s.anchorOf h).any (fun a => Config.verifies a m.body)) = false := by
    rw [Bool.not_eq_false', Option.any_eq_true]; exact good
  let opens : State := { s.unhand m with trust := { (s.unhand m).trust with mgmt := some m.port.toNat } }
  have step : exec (.finish m) s = .next (opens.reply' m .finish none []) :=
    exec_of_opened opened (show execFinish m s = _ from rfl) (by
      simp only [State.find?_hands one mine]
      exact (if_pos (beq_iff_eq.2 link)).trans ((if_neg (ne_true_of_eq_false verified)).trans (if_pos managed)))
  exact ⟨_, step, ⟨rfl, rfl⟩, rfl⟩

theorem finish_link (unmanaged : h.mgmt = false) (trained : s.link m.port.toNat = .trained) :
    exec (.finish m) s = .next ((((s.unhand m).setLink m.port.toNat .auth).seedKeys m.port.toNat h.secret).reply' m .finish none []) := by
  have verified : (!(s.anchorOf h).any (fun a => Config.verifies a m.body)) = false := by
    rw [Bool.not_eq_false', Option.any_eq_true]; exact good
  refine exec_of_opened opened (show execFinish m s = _ from rfl) ?_
  simp only [State.find?_hands one mine]
  exact (if_pos (beq_iff_eq.2 link)).trans ((if_neg (ne_true_of_eq_false verified)).trans
    ((if_neg (ne_true_of_eq_false unmanaged)).trans (if_pos (beq_iff_eq.2 trained))))

end
end

end

end Sys2Proof.Machine
end

section
/-!
PROOFS of family 26: the sessions end, slots are written, and a vendor request waits (26 R363 to R367, R371, 28 R386).
-/
namespace Sys2Proof.Machine

/-! ### The keys of a link session -/

section
variable {s : State}

/-- Where I holds throughout a fold, what one step brings about under I, and no step takes away, holds after it. -/
theorem State.foldl_gains {α : Type} {I P : State → Prop} {f : State → α → State} {l : List α} {a : α} (mem : a ∈ l)
    (inv : ∀ s b, I s → I (f s b)) (gain : ∀ s, I s → P (f s a)) (keep : ∀ s b, P s → P (f s b)) (s : State) (start : I s) :
    P (l.foldl f s) := by
  induction l generalizing s with
  | nil => cases mem
  | cons b l ih =>
    rw [List.foldl_cons]
    rcases List.mem_cons.1 mem with rfl | later
    · exact List.foldlRecOn l f (gain s start) fun s hs b _ => keep s b hs
    · exact ih later _ (inv s b start)

/-- The key of the phase in which a domain does not transmit is k. -/
def Domain.Seeded (q : Domain) (k : BitVec 256) : Prop := (if q.tx then q.key1 else q.key0) = some k

theorem State.domain_setDomain_of (p d e : Nat) (q : Domain) : (s.setDomain p d q).domain p e = if e = d then q else s.domain p e := by
  have same : p * 64 + e = p * 64 + d ↔ e = d := by omega
  rw [State.domain, State.setDomain, Sp.get_set]
  simp only [same]
  rfl

theorem State.seedKeys_keeps {β : Type} (g : State → β) (apart : ∀ (s : State) v, g { s with domains := v } = g s) (port : Nat)
    (secret : BitVec 256) : g (s.seedKeys port secret) = g s :=
  State.foldl_keeps g (fun _ _ => apart _ _) _ s

/-- The keys of the phase in which each domain transmits come from the session. -/
theorem State.domain_seedKeys (port d : Nat) (secret : BitVec 256) (small : d < 64) :
    ((s.seedKeys port secret).domain port d).Seeded (Config.linkKey secret d) := by
  have gain (s : State) : (let q := s.domain port d
      if q.tx then { q with key1 := some (Config.linkKey secret d) } else { q with key0 := some (Config.linkKey secret d) } : Domain).Seeded
        (Config.linkKey secret d) := by
    unfold Domain.Seeded
    by_cases tx : (s.domain port d).tx = true
    · simp only [if_pos tx]
    · simp only [if_neg tx]
  refine State.foldl_gains (I := fun _ => True) (P := fun s => (s.domain port d).Seeded (Config.linkKey secret d)) (List.mem_range.2 small)
    (fun _ _ => id) (fun s _ => ?_) (fun s e seeded => ?_) s trivial
  · rw [State.domain_setDomain]
    exact gain s
  · rw [State.domain_setDomain_of]
    split
    case isTrue same => subst same; exact gain s
    case isFalse => exact seeded

end

section
variable {s : State} {m : Spdm}

/-- FINISH of a link session brings its trained port into AUTH, with the keys of the session (R366). -/
theorem finish_trained (opened : ∀ req f, s.spdm m req f = .next (f s)) {h : Handshake} (link : m.kind = 2) (one : s.trust.hands = [h])
    (mine : h.peer = sessionOf m) (good : ∃ a, s.anchorOf h = some a ∧ Config.verifies a m.body = true) (unmanaged : h.mgmt = false)
    (trained : s.link m.port.toNat = .trained) :
    s.Sends (.finish m) (.response (peerOf m) .finish []) none fun t => t.link m.port.toNat = .auth ∧ t.trust.mgmt = s.trust.mgmt ∧
      ∀ d, d < 64 → (t.domain m.port.toNat d).Seeded (Config.linkKey h.secret d) := by
  have kept {β : Type} (g : State → β) (apart : ∀ (s : State) v, g { s with domains := v } = g s) :=
    State.seedKeys_keeps (s := (s.unhand m).setLink m.port.toNat .auth) g apart m.port.toNat h.secret
  have seeded (d : Nat) (small : d < 64) := State.domain_seedKeys (s := (s.unhand m).setLink m.port.toNat .auth) m.port.toNat d h.secret small
  have step := finish_link opened link one mine good unmanaged trained
  generalize ((s.unhand m).setLink m.port.toNat .auth).seedKeys m.port.toNat h.secret = u at step kept seeded
  have linked : u.link m.port.toNat = .auth := (kept (·.link m.port.toNat) fun _ _ => rfl).trans (State.link_setLink ..)
  have mgmt : u.trust.mgmt = s.trust.mgmt := kept (·.trust.mgmt) fun _ _ => rfl
  have pending : u.trust.pending = s.trust.pending := kept (·.trust.pending) fun _ _ => rfl
  exact ⟨_, step, ⟨linked, mgmt, seeded⟩, congrArg (· ++ _) pending⟩

end

/-! ### Sessions end -/

section
variable {s : State} {m : Spdm} (opened : ∀ req f, s.spdm m req f = .next (f s))
include opened

theorem heartbeat_answers (session : m.kind ≠ 0) :
    s.Sends (.heartbeat m) (.response (peerOf m) .heartbeat []) none s.SameSlots :=
  State.sends_response (exec_of_opened opened (show execHeartbeat m s = _ from rfl) (if_pos (bne_iff_ne.2 session)))

theorem keyUpdate_answers (session : m.kind ≠ 0) :
    s.Sends (.keyUpdate m) (.response (peerOf m) .keyUpdate []) none s.SameSlots :=
  State.sends_response (exec_of_opened opened (show execKeyUpdate m s = _ from rfl) (if_pos (bne_iff_ne.2 session)))

section
variable (bare : m.kind = 0)
include bare

omit opened in
theorem not_inSession : ¬inSession m = true := by rw [inSession, bare]; decide

theorem heartbeat_refuses : s.Sends (.heartbeat m) (.error (peerOf m) .heartbeat .invalidRequest) none fun t =>
    t.vfs = s.vfs ∧ t.links = s.links :=
  State.sends_error (exec_of_opened opened (show execHeartbeat m s = _ from rfl) (if_neg (not_inSession bare)))

theorem keyUpdate_refuses : s.Sends (.keyUpdate m) (.error (peerOf m) .keyUpdate .invalidRequest) none fun t =>
    t.vfs = s.vfs ∧ t.links = s.links :=
  State.sends_error (exec_of_opened opened (show execKeyUpdate m s = _ from rfl) (if_neg (not_inSession bare)))

theorem endSession_refuses : s.Sends (.endSession m) (.error (peerOf m) .endSession .invalidRequest) none fun t =>
    t.vfs = s.vfs ∧ t.links = s.links :=
  State.sends_error (exec_of_opened opened (show execEndSession m s = _ from rfl) (if_neg (not_inSession bare)))

end

omit opened in
/-- The requests that f names wait no longer. -/
def State.hangUp (s : State) (f : Peer → Bool) : State := { s with trust := { s.trust with calls := s.trust.calls.filter fun p => !f p } }

theorem endSession_tenant (tenant : m.kind = 1) :
    let q := s.vf m.vf.toNat
    s.Sends (.endSession m) (.response (peerOf m) .endSession []) none fun t => t.vf m.vf.toNat =
      { q with sess := false, st := if q.st = .locked ∨ q.st = .run then .error else q.st } := by
  intro q
  have step : exec (.endSession m) s = .next (((s.setVf m.vf.toNat { q with sess := false, st := if q.serving then .error else q.st }).hangUp
      (·.tenant m.vf.toNat)).reply' m .endSession none []) :=
    exec_of_opened opened (show execEndSession m s = _ from rfl)
      ((if_pos (by rw [inSession, tenant]; decide)).trans (if_neg (by rw [tenant]; decide)))
  refine ⟨_, step, ?_, rfl⟩
  calc _ = ({ q with sess := false, st := if q.serving then .error else q.st } : Vf) := Sp.get_set_self ..
    _ = _ := by simp only [Vf.serving_iff]

theorem endSession_management (link : m.kind = 2) (managing : s.trust.mgmt = some m.port.toNat) :
    s.Sends (.endSession m) (.response (peerOf m) .endSession []) none fun t => t.trust.mgmt = none ∧ t.links = s.links := by
  let closed : State := { s with trust := { s.trust with mgmt := none } }
  have step : exec (.endSession m) s = .next ((closed.hangUp Peer.manages).reply' m .endSession none []) :=
    exec_of_opened opened (show execEndSession m s = _ from rfl)
      ((if_pos (by rw [inSession, link]; decide)).trans ((if_pos (by rw [link]; decide)).trans (if_pos (beq_iff_eq.2 managing))))
  exact ⟨_, step, ⟨rfl, rfl⟩, rfl⟩

theorem endSession_link (link : m.kind = 2) (other : s.trust.mgmt ≠ some m.port.toNat) (auth : s.link m.port.toNat = .auth) :
    s.Sends (.endSession m) (.response (peerOf m) .endSession []) none fun t => t.link m.port.toNat = .trained := by
  have step : exec (.endSession m) s = .next ((s.setLink m.port.toNat .trained).reply' m .endSession none []) :=
    exec_of_opened opened (show execEndSession m s = _ from rfl)
      ((if_pos (by rw [inSession, link]; decide)).trans ((if_pos (by rw [link]; decide)).trans
        ((if_neg (by rw [beq_iff_eq]; exact other)).trans (by rw [auth]; rfl))))
  have linked : (s.setLink m.port.toNat .trained).link m.port.toNat = .trained := State.link_setLink ..
  exact ⟨_, step, linked, rfl⟩

/-! ### Certificate slots -/

omit opened in
/-- A write of slot k waits behind a response, or behind another write, that names it. -/
def State.slotWaits (s : State) (k : Nat) : Bool :=
  (s.trust.pending.any fun p => p.slot == some k) || s.trust.deferred.any fun d => d.1 == k

omit opened in
theorem State.slotWrite_now {w : Nat × Bool × List Byte} (free : s.slotWaits w.1 = false) : s.slotWrite w = s.writeSlot w :=
  if_neg (ne_true_of_eq_false free)

omit opened in
theorem State.slotWrite_later {w : Nat × Bool × List Byte} (waits : s.slotWaits w.1 = true) :
    s.slotWrite w = { s with trust := { s.trust with deferred := s.trust.deferred ++ [w] } } :=
  if_pos waits

omit opened in
theorem State.pending_slotWrite (w : Nat × Bool × List Byte) : (s.slotWrite w).trust.pending = s.trust.pending := by
  unfold State.slotWrite State.writeSlot
  split
  · rfl
  · cases w.2.1 <;> rfl

theorem setCertificate_refuses (first : m.slot = 0) : s.Sends (.setCertificate m) (.error (peerOf m) .setCertificate .invalidRequest) none fun t =>
    t.vfs = s.vfs ∧ t.links = s.links :=
  State.sends_error (exec_of_opened opened (show execSetCertificate m s = _ from rfl) (if_pos first))

theorem setCertificate_writes (other : m.slot ≠ 0) {P : State → Prop}
    (holds : P ((s.slotWrite (m.slot.toNat, false, m.body)).reply' m .setCertificate none [])) :
    s.Sends (.setCertificate m) (.response (peerOf m) .setCertificate []) none P :=
  ⟨_, exec_of_opened opened (show execSetCertificate m s = _ from rfl) (if_neg other), holds,
    congrArg (· ++ _) (State.pending_slotWrite _)⟩

theorem getCsr_bare (bare : m.body = []) :
    s.Sends (.getCsr m) (.response (peerOf m) .getCsr (Sp.get [] s.trust.keys m.slot.toNat)) (some m.slot.toNat) s.SameSlots :=
  State.sends_response (exec_of_opened opened (show execGetCsr m s = _ from rfl) (if_pos (by rw [bare]; rfl)))

theorem getCsr_refuses (full : m.body ≠ []) (first : m.slot = 0) : s.Sends (.getCsr m) (.error (peerOf m) .getCsr .invalidRequest) none fun t =>
    t.vfs = s.vfs ∧ t.links = s.links :=
  State.sends_error (exec_of_opened opened (show execGetCsr m s = _ from rfl)
    ((if_neg (by rw [List.isEmpty_iff]; exact full)).trans (if_pos first)))

theorem getCsr_writes (full : m.body ≠ []) (other : m.slot ≠ 0) :
    let k := leBytes 1312 (Config.newKey s.free).toNat
    s.Sends (.getCsr m) (.response (peerOf m) .getCsr k) none fun t =>
      if s.slotWaits m.slot.toNat then t.trust.deferred = s.trust.deferred ++ [(m.slot.toNat, true, k)]
      else Sp.get [] t.trust.keys m.slot.toNat = k := by
  intro k
  let u : State := { s with free := s.free + 1 }
  have step : exec (.getCsr m) s = .next ((u.slotWrite (m.slot.toNat, true, k)).reply' m .getCsr none k) :=
    exec_of_opened opened (show execGetCsr m s = _ from rfl) ((if_neg (by rw [List.isEmpty_iff]; exact full)).trans (if_neg other))
  refine ⟨_, step, ?_, congrArg (· ++ _) (State.pending_slotWrite (s := u) _)⟩
  split
  case isTrue waits => rw [State.slotWrite_later (s := u) (w := (m.slot.toNat, true, k)) waits]; rfl
  case isFalse free =>
    rw [State.slotWrite_now (s := u) (w := (m.slot.toNat, true, k)) (Bool.eq_false_of_not_eq_true free)]
    exact Sp.get_put_self ..

/-! ### Vendor requests -/

omit opened in
/-- A vendor request comes inside the management session, or a function's own. -/
def State.Inside (s : State) (m : Spdm) : Prop :=
  if m.kind = 2 then s.trust.mgmt = some m.port.toNat else m.kind = 1 ∧ (s.vf m.vf.toNat).sess = true

omit opened in
theorem State.inside_iff (taken : SpdmTaken m) : (if m.kind == 2 then s.trust.mgmt == some m.port.toNat else
    inSession m && (s.vf m.vf.toNat).sess) = true ↔ s.Inside m := by
  rcases taken.kind_cases with link | ⟨tenant, small⟩
  · rw [if_pos (beq_iff_eq.2 link), State.Inside, if_pos link, beq_iff_eq]
  · have one : inSession m = true ↔ m.kind = 1 := by
      rw [inSession, bne_iff_ne]
      constructor
      · intro some
        have : m.kind.toNat ≠ 0 := fun h => some (BitVec.eq_of_toNat_eq h)
        exact BitVec.eq_of_toNat_eq (show m.kind.toNat = 1 by omega)
      · intro one none
        rw [one] at none
        exact absurd none (by decide)
    rw [if_neg (by rw [beq_iff_eq]; exact tenant), State.Inside, if_neg tenant, Bool.and_eq_true, one]

theorem vendorDefined_waits (taken : SpdmTaken m) (inside : s.Inside m) : ∃ t, exec (.vendorDefinedRequest m) s = .next t ∧ s.SameSlots t ∧
    t.trust.calls = s.trust.calls ++ [peerOf m] ∧ t.trust.pending = s.trust.pending :=
  ⟨_, exec_of_opened opened (show execVendorDefinedRequest m s = _ from rfl) (if_pos ((State.inside_iff taken).2 inside)), ⟨rfl, rfl, rfl⟩,
    rfl, rfl⟩

theorem vendorDefined_refuses (taken : SpdmTaken m) (outside : ¬s.Inside m) :
    s.Sends (.vendorDefinedRequest m) (.error (peerOf m) .vendorDefined .invalidRequest) none fun t => t.vfs = s.vfs ∧ t.links = s.links :=
  State.sends_error (exec_of_opened opened (show execVendorDefinedRequest m s = _ from rfl)
    (if_neg fun inside => outside ((State.inside_iff taken).1 inside)))

end

end Sys2Proof.Machine
end

section
/-!
PROOFS of family 26: a stopped function's colours are unbound at once, and scrubbed one after another (26 R367, R372).
-/
namespace Sys2Proof.Machine

section
variable {s : State} {c : Nat}

/-- What no step of a fold over a state and a result changes stands after the fold. -/
theorem State.foldl_fst_keeps {α β γ : Type} (g : State → β) {f : State × γ → α → State × γ}
    (h : ∀ r a, g (f r a).1 = g r.1) (l : List α) (r : State × γ) : g (l.foldl f r).1 = g r.1 := by
  induction l generalizing r with
  | nil => rfl
  | cons a l ih => rw [List.foldl_cons, ih, h]

/-! ### A scrub begins -/

theorem State.discardIn_keeps {β : Type} (g : State → β)
    (apart : ∀ (s : State) es en ex q, g { s with elems := es, entryq := en, exitq := ex, expect := q } = g s) (h : Nat)
    (hit : BitVec 8 → Bool) : g (s.discardIn h hit).1 = g s := by
  rw [State.discardIn]
  refine (apart _ (State.elems _) _ _ _).trans (State.foldl_fst_keeps g (fun r a => ?_) _ _)
  exact apart r.1 _ r.1.entryq r.1.exitq r.1.expect

theorem State.purge_keeps {β : Type} (g : State → β)
    (apart : ∀ (s : State) rs es en ex q, g { s with regions := rs, elems := es, entryq := en, exitq := ex, expect := q } = g s) (h c : Nat) :
    g (s.purge h c) = g s := by
  have regions (s : State) (r : Region) (h : Nat) : g (s.setRegion h r) = g s := apart s _ s.elems s.entryq s.exitq s.expect
  rw [State.purge]
  split
  · rfl
  · exact (regions ..).trans ((regions ..).trans ((State.discardIn_keeps g (fun s => apart s s.regions) _ _).trans (regions ..)))

theorem State.tlbiRemove_keeps {β : Type} (g : State → β) (apart : ∀ (s : State) cs w, g { s with cores := cs, walk := w } = g s) (p n : Nat)
    (cmd : TlbiCmd) : g (s.tlbiRemove p n cmd).1 = g s := by
  rw [State.tlbiRemove]
  exact (apart _ (State.cores _) _).trans (State.foldl_keeps g (fun s _ => apart s _ s.walk) _ s)

/-- A colour is taken from its partition, and its purges begin. -/
def State.unbind (s : State) (c : Nat) : State :=
  let u := { s with colours := Sp.put s.colours c { s.colour c with valid := false } }
  (u.regions.map (·.1)).foldl (fun t h => if (t.region h).part == (s.colour c).part.toNat then t.purge h c else t) u

/-- The TLBI of a colour's scrub. -/
def scrubTlbi (c : Nat) : TlbiCmd := { kind := 1, colour := some (BitVec.ofNat 8 c), base := 0, len := 0, flag := 0 }

theorem State.scrubBegin_fst : (s.scrubBegin c).1 = ((s.unbind c).tlbiRemove (s.colour c).part.toNat 1024 (scrubTlbi c)).1 := rfl

theorem State.unbind_keeps {β : Type} (g : State → β)
    (apart : ∀ (s : State) rs es en ex q, g { s with regions := rs, elems := es, entryq := en, exitq := ex, expect := q } = g s) :
    g (s.unbind c) = g { s with colours := Sp.put s.colours c { s.colour c with valid := false } } := by
  refine State.foldl_keeps g (fun t h => ?_) _ _
  split
  · exact State.purge_keeps g apart h c
  · rfl

theorem State.scrubBegin_keeps {β : Type} (g : State → β)
    (apart : ∀ (s : State) rs es en ex q, g { s with regions := rs, elems := es, entryq := en, exitq := ex, expect := q } = g s)
    (cores : ∀ (s : State) cs w, g { s with cores := cs, walk := w } = g s) :
    g (s.scrubBegin c).1 = g { s with colours := Sp.put s.colours c { s.colour c with valid := false } } := by
  rw [State.scrubBegin_fst, State.tlbiRemove_keeps g cores, State.unbind_keeps g apart]

theorem State.colour_scrubBegin (d : Nat) : (s.scrubBegin c).1.colour d = if d = c then { s.colour c with valid := false } else s.colour d := by
  rw [State.scrubBegin_keeps (·.colour d) (fun _ _ _ _ _ _ => rfl) (fun _ _ _ => rfl)]
  exact Sp.get_put ..

theorem State.partOf_scrubBegin (n : Nat) : (s.scrubBegin c).1.partOf n = s.partOf n :=
  State.scrubBegin_keeps (·.partOf n) (fun _ _ _ _ _ _ => rfl) (fun _ _ _ => rfl)

theorem State.core_scrubBegin (n : Nat) : (s.scrubBegin c).1.core n =
    if s.partOf n = some (s.colour c).part.toNat then (scrubTlbi c).clean (s.core n) else s.core n := by
  rw [State.scrubBegin_fst, State.core_tlbiRemove, State.unbind_keeps (·.core n) (fun _ _ _ _ _ _ => rfl),
    State.unbind_keeps (·.partOf n) (fun _ _ _ _ _ _ => rfl)]
  rfl

/-- No TLB of a core holds a translation of a colour. -/
def State.Untranslated (s : State) (n c : Nat) : Prop := ∀ e ∈ (s.core n).tlb, e.colour ≠ BitVec.ofNat 8 c

theorem State.untranslated_scrubBegin {n : Nat} (mine : s.partOf n = some (s.colour c).part.toNat) : (s.scrubBegin c).1.Untranslated n c := by
  intro e mem same
  rw [State.core_scrubBegin, if_pos mine] at mem
  have other := (List.mem_filter.1 mem).2
  rw [scrubTlbi, TlbiCmd.matches, same] at other
  simp at other

theorem State.untranslated_keeps {n d : Nat} (clean : s.Untranslated n d) : (s.scrubBegin c).1.Untranslated n d := by
  intro e mem
  rw [State.core_scrubBegin] at mem
  split at mem
  · exact clean e (List.mem_of_mem_filter mem)
  · exact clean e mem

/-! ### The scrubs of a stopped function begin -/

/-- The scrubs of a list of colours begin, one after another. -/
def State.scrubsBegin (s : State) (cs : List Nat) (l : List Scrub) : State × List Scrub :=
  cs.foldl (fun (r : State × List Scrub) c => ((r.1.scrubBegin c).1, r.2 ++ [(r.1.scrubBegin c).2])) (s, l)

theorem State.scrubsBegin_fst (cs : List Nat) (l : List Scrub) : (s.scrubsBegin cs l).1 = cs.foldl (fun t c => (t.scrubBegin c).1) s := by
  unfold State.scrubsBegin
  induction cs generalizing s l with
  | nil => rfl
  | cons b cs ih => exact ih _

theorem State.scrubsBegin_cons (b : Nat) (cs : List Nat) (l : List Scrub) :
    s.scrubsBegin (b :: cs) l = (s.scrubBegin b).1.scrubsBegin cs (l ++ [(s.scrubBegin b).2]) := rfl

theorem State.scrubsBegin_subset (cs : List Nat) (l : List Scrub) : l ⊆ (s.scrubsBegin cs l).2 := by
  induction cs generalizing s l with
  | nil => exact fun r mem => mem
  | cons b cs ih => exact fun r mem => ih _ (List.mem_append_left _ mem)

theorem State.scrubsBegin_keeps {β : Type} (g : State → β)
    (apart : ∀ (s : State) cs rs es en ex q, g { s with colours := cs, regions := rs, elems := es, entryq := en, exitq := ex, expect := q } = g s)
    (cores : ∀ (s : State) cs w, g { s with cores := cs, walk := w } = g s) (cs : List Nat) (l : List Scrub) :
    g (s.scrubsBegin cs l).1 = g s :=
  State.foldl_fst_keeps (γ := List Scrub) g (fun r _ => (State.scrubBegin_keeps g (fun t => apart t t.colours) cores).trans
    (apart r.1 _ r.1.regions r.1.elems r.1.entryq r.1.exitq r.1.expect)) cs (s, l)

/-- Each colour of the list has a scrub, which keeps the colour as it stood. -/
theorem State.mem_scrubsBegin {cs : List Nat} (mem : c ∈ cs) (l : List Scrub) :
    ∃ r ∈ (s.scrubsBegin cs l).2, r.colour = c ∧ r.was = s.colour c ∧ r.t1 = s.now := by
  induction cs generalizing s l with
  | nil => cases mem
  | cons b cs ih =>
    rw [State.scrubsBegin_cons]
    by_cases first : c = b
    · exact ⟨_, State.scrubsBegin_subset _ _ (List.mem_append_right _ (List.mem_singleton.2 rfl)), first.symm, by rw [first]; rfl, rfl⟩
    · obtain ⟨r, listed, colour, was, t1⟩ := ih (s := (s.scrubBegin b).1) ((List.mem_cons.1 mem).resolve_left first) (l ++ [(s.scrubBegin b).2])
      refine ⟨r, listed, colour, ?_, ?_⟩
      · rw [was, State.colour_scrubBegin, if_neg first]
      · exact t1.trans (State.scrubBegin_keeps (·.now) (fun _ _ _ _ _ _ => rfl) (fun _ _ _ => rfl))

theorem State.unbound_scrubsBegin {cs : List Nat} (mem : c ∈ cs) (l : List Scrub) : ((s.scrubsBegin cs l).1.colour c).valid = false := by
  rw [State.scrubsBegin_fst]
  refine State.foldl_gains (I := fun _ => True) (P := fun t => (t.colour c).valid = false) mem (fun _ _ => id) (fun t _ => ?_)
    (fun t b unbound => ?_) s trivial
  · rw [State.colour_scrubBegin, if_pos rfl]
  · rw [State.colour_scrubBegin]
    split
    · rfl
    · exact unbound

theorem State.untranslated_scrubsBegin {cs : List Nat} {n : Nat} (mem : c ∈ cs) (mine : s.partOf n = some (s.colour c).part.toNat)
    (l : List Scrub) : (s.scrubsBegin cs l).1.Untranslated n c := by
  rw [State.scrubsBegin_fst]
  refine State.foldl_gains (I := fun t => t.partOf n = some (t.colour c).part.toNat) (P := (State.Untranslated · n c)) mem (fun t b inPart => ?_)
    (fun t => State.untranslated_scrubBegin) (fun t b => State.untranslated_keeps) s mine
  rw [State.partOf_scrubBegin, State.colour_scrubBegin, inPart]
  split
  case isTrue same => rw [same]
  case isFalse => rfl

/-- The colours of a function that its stop scrubs. -/
def State.coloursOf (s : State) (v : Nat) : List Nat := (s.colours.filter fun c => c.2.vf.toNat == v && (c.2.valid || c.2.keyed)).map (·.1)

theorem State.stop_eq (v : Nat) (byManagement : Bool) : s.stop v byManagement =
    let r := s.scrubsBegin (s.coloursOf v) []
    let x : Stop := { vf := v, managed := byManagement, scrubs := r.2 }
    if r.2.isEmpty then s.stopEnd x else { r.1 with trust := { r.1.trust with stops := r.1.trust.stops ++ [x] } } := rfl

theorem State.stop_bare {v : Nat} (bare : s.coloursOf v = []) (byManagement : Bool) :
    s.stop v byManagement = s.stopEnd { vf := v, managed := byManagement, scrubs := [] } := by
  rw [State.stop_eq, bare]
  rfl

theorem State.stop_begins {v : Nat} (mem : c ∈ s.coloursOf v) (byManagement : Bool) : s.stop v byManagement =
    let r := s.scrubsBegin (s.coloursOf v) []
    { r.1 with trust := { r.1.trust with stops := r.1.trust.stops ++ [{ vf := v, managed := byManagement, scrubs := r.2 }] } } := by
  obtain ⟨r, listed, -⟩ := State.mem_scrubsBegin (s := s) mem []
  rw [State.stop_eq]
  exact if_neg (by rw [List.isEmpty_iff]; exact List.ne_nil_of_mem listed)

theorem State.mem_coloursOf {v : Nat} (mine : (s.colour c).vf.toNat = v) (held : (s.colour c).valid = true ∨ (s.colour c).keyed = true) :
    c ∈ s.coloursOf v := by
  have found : Sp.find? s.colours c = some (s.colour c) := by
    cases h : Sp.find? s.colours c with
    | some q => rw [State.colour, Sp.get, h]; rfl
    | none =>
      have blank : s.colour c = Colour.reset := by rw [State.colour, Sp.get, h]; rfl
      rw [blank] at held
      exact absurd held (by decide)
  refine List.mem_map.2 ⟨(c, s.colour c), List.mem_filter.2 ⟨Sp.mem_of_find? found, ?_⟩, rfl⟩
  rw [Bool.and_eq_true, beq_iff_eq, Bool.or_eq_true]
  exact ⟨mine, held⟩

/-! ### A scrub ends -/

theorem State.zeroFrame_keeps {β : Type} (g : State → β)
    (apart : ∀ (s : State) m k t l c, g { s with mem := m, marks := k, tags := t, l2 := l, ltags := c } = g s) (f key : Nat) :
    g (s.zeroFrame f key) = g s := by
  rw [State.zeroFrame]
  dsimp only
  split
  · exact apart s _ _ _ _ _
  · exact apart s _ _ _ s.l2 s.ltags

/-- What a fact of the state rests on besides the frames that scrubs overwrite and retire. -/
theorem State.scrubFrame_keeps {β : Type} (g : State → β)
    (memory : ∀ (s : State) m k t l c, g { s with mem := m, marks := k, tags := t, l2 := l, ltags := c } = g s)
    (frames : ∀ (s : State) r c d l, g { s with retired := r, chanHeld := c, disable := d, l2 := l } = g s) (f key : Nat) :
    g (s.scrubFrame f key).1 = g s := by
  rw [State.scrubFrame]
  split
  · exact State.zeroFrame_keeps g memory f key
  · split
    · exact (State.retireNow_keeps g frames f).trans (State.zeroFrame_keeps g memory f key)
    · exact State.zeroFrame_keeps g memory f key

/-- A scrub's end erases its colour's key and says its receipt. -/
theorem State.scrubEnd_ends (x : Scrub) : ∃ (u : State) (body : List Byte), u.vfs = s.vfs ∧ u.trust = s.trust ∧
    s.scrubEnd x = { u with
      colours := Sp.put u.colours x.colour { u.colour x.colour with key := 0, keyed := false }
      trust := { u.trust with
        outbox := u.trust.outbox ++ [.receipt (if (u.vf x.was.vf.toNat).sess then some x.was.vf.toNat else none) body]
        receiptSeq := (u.trust.receiptSeq + 1) % 2 ^ 32 } } := by
  have folds {β : Type} (g : State → β)
      (memory : ∀ (s : State) m k t l c, g { s with mem := m, marks := k, tags := t, l2 := l, ltags := c } = g s)
      (frames : ∀ (s : State) r c d l, g { s with retired := r, chanHeld := c, disable := d, l2 := l } = g s)
      (l : List (Nat × Nat)) (key : Nat) (r : State × List (Nat × Nat)) :
      g (l.foldl (fun r f => if f.2 == 3 then (r.1, r.2 ++ [f]) else ((r.1.scrubFrame f.1 key).1, r.2 ++ [(f.1, (r.1.scrubFrame f.1 key).2)]))
        r).1 = g r.1 := by
    refine State.foldl_fst_keeps g (fun r f => ?_) l r
    split
    · rfl
    · exact State.scrubFrame_keeps g memory frames f.1 key
  unfold State.scrubEnd
  dsimp only [State.say]
  refine ⟨_, _, ?_, ?_, rfl⟩
  · exact (folds (·.vfs) (fun _ _ _ _ _ _ => rfl) (fun _ _ _ _ _ => rfl) _ _ _).trans
      (folds (·.vfs) (fun _ _ _ _ _ _ => rfl) (fun _ _ _ _ _ => rfl) _ _ _)
  · exact (folds (·.trust) (fun _ _ _ _ _ _ => rfl) (fun _ _ _ _ _ => rfl) _ _ _).trans
      (folds (·.trust) (fun _ _ _ _ _ _ => rfl) (fun _ _ _ _ _ => rfl) _ _ _)

end

end Sys2Proof.Machine
end

section
/-!
PROOFS of family 26: TDISP moves a function inside its own session only, and a stop ends with its last scrub (26 R367, R370, R372).
-/
namespace Sys2Proof.Machine

/-- A request of the function's session waits, and the function is not being stopped. -/
def State.Authed (s : State) (v : BitVec 6) : Prop :=
  (∃ p ∈ s.trust.calls, p.kind = 1 ∧ p.vf = v.toNat) ∧ ∀ x ∈ s.trust.stops, x.vf ≠ v.toNat

/-- One of the TDISP messages of a function. -/
def IsTdisp (v : BitVec 6) (nonce : BitVec 256) (i : Instr) : Prop :=
  i ∈ [Instr.getTdispVersion v, .getTdispCapabilities v, .lockInterfaceRequest v, .getDeviceInterfaceReport v,
    .getDeviceInterfaceState v, .startInterfaceRequest v nonce, .stopInterfaceRequest v]

/-- A TDISP message is answered as performed. -/
def State.Tells (s : State) (v : BitVec 6) (i : Instr) (body : List Byte) (P : State → Prop) : Prop :=
  ∃ t, exec i s = .next (t.tell v.toNat true body) ∧ P t ∧ t.trust.pending = s.trust.pending ∧ t.trust.calls = s.trust.calls

section
variable {s : State} {v : BitVec 6} {nonce : BitVec 256}

theorem State.exists_tdispDo (f : State → Vf → Option (State × List Byte)) : ∃ g, s.tdisp v f = s.tdispDo v g ∧
    (∀ t q u body, f t q = some (u, body) → g t q = u.tell v.toNat true body) ∧ ∀ t q, f t q = none → g t q = t.tell v.toNat false [] := by
  unfold State.tdisp
  refine ⟨_, rfl, fun t q u body performed => ?_, fun t q refused => ?_⟩
  · simp only [performed]
  · simp only [refused]

theorem exec_tdisp {i : Instr} (message : IsTdisp v nonce i) : ∃ f, exec i s = s.tdispDo v f := by
  have answered (f : State → Vf → Option (State × List Byte)) (hx : exec i s = s.tdisp v f) : ∃ f, exec i s = s.tdispDo v f := by
    obtain ⟨g, same, -⟩ := State.exists_tdispDo (s := s) (v := v) f
    exact ⟨g, hx.trans same⟩
  simp only [IsTdisp, List.mem_cons, List.not_mem_nil, or_false] at message
  rcases message with rfl | rfl | rfl | rfl | rfl | rfl | rfl
  exacts [answered _ (show execGetTdispVersion v s = _ from rfl), answered _ (show execGetTdispCapabilities v s = _ from rfl),
    answered _ (show execLockInterfaceRequest v s = _ from rfl), answered _ (show execGetDeviceInterfaceReport v s = _ from rfl),
    answered _ (show execGetDeviceInterfaceState v s = _ from rfl), answered _ (show execStartInterfaceRequest v nonce s = _ from rfl),
    ⟨_, show execStopInterfaceRequest v s = _ from rfl⟩]

theorem State.authed_iff : (!s.trust.calls.any (·.tenant v.toNat) || s.stopping v.toNat) = false ↔ s.Authed v := by
  rw [Bool.or_eq_false_iff, Bool.not_eq_false', State.stopping, List.any_eq_true, List.any_eq_false]
  simp only [Peer.tenant, Bool.and_eq_true, beq_iff_eq]
  rfl

theorem State.tdispDo_rests {f : State → Vf → State} (alone : ¬s.Authed v) : s.tdispDo v f = .next s := by
  rw [← State.authed_iff, Bool.not_eq_false] at alone
  exact congrArg Host.Outcome.next (if_pos alone)

section
variable (authed : s.Authed v)
include authed

theorem State.tdispDo_refuses {f : State → Vf → State} (closed : (s.vf v.toNat).sess = false ∨ (s.vf v.toNat).en = false) :
    s.tdispDo v f = .next (s.tell v.toNat false []) := by
  have shut : (!(s.vf v.toNat).sess || !(s.vf v.toNat).en) = true := by
    rcases closed with sess | en
    · rw [sess]; rfl
    · rw [en, Bool.not_false, Bool.or_true]
  exact congrArg Host.Outcome.next ((if_neg (ne_true_of_eq_false (State.authed_iff.2 authed))).trans (if_pos shut))

theorem State.tdispDo_runs (sess : (s.vf v.toNat).sess = true) (en : (s.vf v.toNat).en = true) (f : State → Vf → State) :
    s.tdispDo v f = .next (f s (s.vf v.toNat)) :=
  congrArg Host.Outcome.next ((if_neg (ne_true_of_eq_false (State.authed_iff.2 authed))).trans (if_neg (by rw [sess, en]; decide)))

end

/-! ### Messages of an open session -/

section
variable (runs : ∀ f, s.tdispDo v f = .next (f s (s.vf v.toNat)))
include runs

theorem exec_of_runs {i : Instr} {f : State → Vf → State} {t : State} (hx : exec i s = s.tdispDo v f) (hf : f s (s.vf v.toNat) = t) :
    exec i s = .next t := by rw [hx, runs, hf]

theorem exec_performs {i : Instr} {f : State → Vf → Option (State × List Byte)} {u : State} {body : List Byte} (hx : exec i s = s.tdisp v f)
    (hf : f s (s.vf v.toNat) = some (u, body)) : exec i s = .next (u.tell v.toNat true body) := by
  obtain ⟨g, same, performed, -⟩ := State.exists_tdispDo (s := s) (v := v) f
  rw [hx, same, runs, performed _ _ _ _ hf]

theorem exec_refuses {i : Instr} {f : State → Vf → Option (State × List Byte)} (hx : exec i s = s.tdisp v f)
    (hf : f s (s.vf v.toNat) = none) : exec i s = .next (s.tell v.toNat false []) := by
  obtain ⟨g, same, -, refused⟩ := State.exists_tdispDo (s := s) (v := v) f
  rw [hx, same, runs, refused _ _ hf]

theorem getTdispVersion_tells : s.Tells v (.getTdispVersion v) [] (· = s) :=
  ⟨s, exec_performs runs (show execGetTdispVersion v s = _ from rfl) rfl, rfl, rfl, rfl⟩

theorem getTdispCapabilities_tells : s.Tells v (.getTdispCapabilities v) [] (· = s) :=
  ⟨s, exec_performs runs (show execGetTdispCapabilities v s = _ from rfl) rfl, rfl, rfl, rfl⟩

theorem getDeviceInterfaceState_tells : s.Tells v (.getDeviceInterfaceState v) [BitVec.ofNat 8 (vfCode (s.vf v.toNat).st)] (· = s) :=
  ⟨s, exec_performs runs (show execGetDeviceInterfaceState v s = _ from rfl) rfl, rfl, rfl, rfl⟩

theorem getDeviceInterfaceReport_tells : ∃ body, s.Tells v (.getDeviceInterfaceReport v) (s.frozenSet v.toNat ++ body) (· = s) :=
  ⟨_, s, exec_performs runs (show execGetDeviceInterfaceReport v s = _ from rfl) (congrArg (fun b => some (s, b)) (List.append_assoc ..)),
    rfl, rfl, rfl⟩

omit runs in
/-- Every valid colour of the function has its key. -/
def State.Keyed (s : State) (v : BitVec 6) : Prop := ∀ c ∈ s.colours, c.2.valid = true → c.2.vf = v → c.2.keyed = true

omit runs in
theorem State.keyed_iff : (s.colours.all fun c => !(c.2.valid && c.2.vf == v) || c.2.keyed) = true ↔ s.Keyed v := by
  rw [List.all_eq_true]
  refine forall_congr' fun c => forall_congr' fun _ => ?_
  rw [Bool.or_eq_true, Bool.not_eq_true', Bool.and_eq_false_iff, beq_eq_false_iff_ne, ← Bool.not_eq_true]
  tauto

section
variable (en : (s.vf v.toNat).en = true)
include en

omit runs in
/-- What LOCK_INTERFACE_REQUEST checks of a function that is enabled. -/
theorem State.lockable_iff : ((s.vf v.toNat).st == .unlocked && (s.vf v.toNat).en && (s.vf v.toNat).ctxid != 0 &&
      (s.colours.all fun c => !(c.2.valid && c.2.vf == v) || c.2.keyed) &&
      (Sp.find? s.trust.measure (s.vf v.toNat).ctxid.toNat).isSome) = true ↔
    (s.vf v.toNat).st = .unlocked ∧ (s.vf v.toNat).ctxid ≠ 0 ∧ s.Keyed v ∧
      (Sp.find? s.trust.measure (s.vf v.toNat).ctxid.toNat).isSome = true := by
  simp only [Bool.and_eq_true, beq_iff_eq, bne_iff_ne, State.keyed_iff, en, and_true, and_assoc]

theorem lockInterfaceRequest_tells (unlocked : (s.vf v.toNat).st = .unlocked) (ctx : (s.vf v.toNat).ctxid ≠ 0) (keyed : s.Keyed v)
    (measured : (Sp.find? s.trust.measure (s.vf v.toNat).ctxid.toNat).isSome = true) :
    s.Tells v (.lockInterfaceRequest v) (leBytes 32 (Config.nonce s.free).toNat) fun t =>
      t.vf v.toNat = { s.vf v.toNat with st := .locked, nonce := Config.nonce s.free } := by
  let u : State := { s with free := s.free + 1 }
  let q := { s.vf v.toNat with st := .locked, nonce := Config.nonce s.free }
  have step : exec (.lockInterfaceRequest v) s = .next ((u.setVf v.toNat q).tell v.toNat true (leBytes 32 (Config.nonce s.free).toNat)) :=
    exec_performs runs (show execLockInterfaceRequest v s = _ from rfl)
      (if_pos ((State.lockable_iff en).2 ⟨unlocked, ctx, keyed, measured⟩))
  exact ⟨_, step, Sp.get_set_self .., rfl, rfl⟩

theorem lockInterfaceRequest_refuses (bad : (s.vf v.toNat).st ≠ .unlocked ∨ (s.vf v.toNat).ctxid = 0 ∨ ¬s.Keyed v ∨
      Sp.find? s.trust.measure (s.vf v.toNat).ctxid.toNat = none) :
    exec (.lockInterfaceRequest v) s = .next (s.tell v.toNat false []) := by
  have shut := mt (State.lockable_iff en).1 fun ⟨unlocked, ctx, keyed, measured⟩ => by
    rcases bad with st | zero | open_ | absent
    · exact st unlocked
    · exact ctx zero
    · exact open_ keyed
    · rw [absent] at measured; cases measured
  exact exec_refuses runs (show execLockInterfaceRequest v s = _ from rfl) (if_neg shut)

end

omit runs in
theorem State.startable_iff : ((s.vf v.toNat).st == .locked && (s.vf v.toNat).nonce == nonce) = true ↔
    (s.vf v.toNat).st = .locked ∧ (s.vf v.toNat).nonce = nonce := by rw [Bool.and_eq_true, beq_iff_eq, beq_iff_eq]

theorem startInterfaceRequest_tells (locked : (s.vf v.toNat).st = .locked) (same : (s.vf v.toNat).nonce = nonce) :
    s.Tells v (.startInterfaceRequest v nonce) [] fun t => t.vf v.toNat = { s.vf v.toNat with st := .run } := by
  let q := { s.vf v.toNat with st := .run }
  have step : exec (.startInterfaceRequest v nonce) s = .next ((s.setVf v.toNat q).tell v.toNat true []) :=
    exec_performs runs (show execStartInterfaceRequest v nonce s = _ from rfl) (if_pos (State.startable_iff.2 ⟨locked, same⟩))
  exact ⟨_, step, Sp.get_set_self .., rfl, rfl⟩

theorem startInterfaceRequest_refuses (bad : (s.vf v.toNat).st ≠ .locked ∨ (s.vf v.toNat).nonce ≠ nonce) :
    exec (.startInterfaceRequest v nonce) s = .next (s.tell v.toNat false []) := by
  have shut := mt State.startable_iff.1 fun ⟨locked, same⟩ => bad.elim (· locked) (· same)
  exact exec_refuses runs (show execStartInterfaceRequest v nonce s = _ from rfl) (if_neg shut)

/-! ### A stop -/

theorem stopInterfaceRequest_refuses (unlocked : (s.vf v.toNat).st = .unlocked) :
    exec (.stopInterfaceRequest v) s = .next (s.tell v.toNat false []) :=
  exec_of_runs runs (show execStopInterfaceRequest v s = _ from rfl) (if_pos (beq_iff_eq.2 unlocked))

theorem stopInterfaceRequest_stops (serving : (s.vf v.toNat).st ≠ .unlocked) :
    exec (.stopInterfaceRequest v) s = .next (s.stop v.toNat false) :=
  exec_of_runs runs (show execStopInterfaceRequest v s = _ from rfl) (if_neg (by rw [beq_iff_eq]; exact serving))

omit runs in
/-- A stop's end unlocks the function, and answers. -/
theorem State.stopEnd_ends (x : Stop) : ∃ u : State, s.stopEnd x = (if x.managed then u.answer true else u.tell x.vf true []) ∧
    u.vf x.vf = { s.vf x.vf with st := .unlocked, nonce := 0 } ∧ u.trust.stops = s.trust.stops ∧ u.trust.outbox = s.trust.outbox ∧
    u.trust.pending = s.trust.pending ∧ u.trust.calls = s.trust.calls ∧ u.colours = s.colours := by
  refine ⟨_, rfl, ?_⟩
  split
  · exact ⟨Sp.get_set_self .., rfl, rfl, rfl, rfl, rfl⟩
  · exact ⟨Sp.get_set_self .., rfl, rfl, rfl, rfl, rfl⟩

theorem stopInterfaceRequest_tells (serving : (s.vf v.toNat).st ≠ .unlocked)
    (bare : ∀ e ∈ s.colours, e.2.vf = v → e.2.valid = false ∧ e.2.keyed = false) :
    s.Tells v (.stopInterfaceRequest v) [] fun t => (t.vf v.toNat).st = .unlocked ∧ (t.vf v.toNat).nonce = 0 := by
  have none : s.coloursOf v.toNat = [] := by
    rw [State.coloursOf, List.map_eq_nil_iff, List.filter_eq_nil_iff]
    intro e mem held
    rw [Bool.and_eq_true, beq_iff_eq] at held
    obtain ⟨invalid, unkeyed⟩ := bare e mem (BitVec.eq_of_toNat_eq held.1)
    rw [invalid, unkeyed] at held
    exact absurd held.2 (by decide)
  obtain ⟨u, ends, unlocked, -, -, pending, calls, -⟩ := State.stopEnd_ends (s := s) { vf := v.toNat, managed := false, scrubs := [] }
  refine ⟨u, ?_, ?_, pending, calls⟩
  · rw [stopInterfaceRequest_stops runs serving, State.stop_bare none, ends]; rfl
  · exact ⟨congrArg Vf.st unlocked, congrArg Vf.nonce unlocked⟩

theorem stopInterfaceRequest_scrubs {c : Nat} (serving : (s.vf v.toNat).st ≠ .unlocked) (mem : c ∈ s.coloursOf v.toNat) :
    ∃ t x, exec (.stopInterfaceRequest v) s = .next t ∧
      t.trust.stops = s.trust.stops ++ [x] ∧ x.vf = v.toNat ∧ x.managed = false ∧ t.vf v.toNat = s.vf v.toNat ∧
      t.trust.outbox = s.trust.outbox ∧ ∀ d ∈ s.coloursOf v.toNat, (t.colour d).valid = false ∧
        (∃ r ∈ x.scrubs, r.colour = d ∧ r.was = s.colour d ∧ r.t1 = s.now) ∧
        ∀ n, s.partOf n = some (s.colour d).part.toNat → t.Untranslated n d := by
  let r := s.scrubsBegin (s.coloursOf v.toNat) []
  have kept {β : Type} (g : State → β) (apart : ∀ (s : State) cs rs es en ex q,
      g { s with colours := cs, regions := rs, elems := es, entryq := en, exitq := ex, expect := q } = g s)
      (cores : ∀ (s : State) cs w, g { s with cores := cs, walk := w } = g s) : g r.1 = g s := State.scrubsBegin_keeps g apart cores _ _
  refine ⟨_, ⟨v.toNat, false, r.2⟩, (stopInterfaceRequest_stops runs serving).trans (congrArg _ (State.stop_begins mem false)), ?_, rfl, rfl,
    ?_, ?_, fun d coloured => ⟨?_, State.mem_scrubsBegin coloured [], fun n mine => ?_⟩⟩
  · exact congrArg (· ++ _) (kept (·.trust.stops) (fun _ _ _ _ _ _ _ => rfl) fun _ _ _ => rfl)
  · exact kept (·.vf v.toNat) (fun _ _ _ _ _ _ _ => rfl) fun _ _ _ => rfl
  · exact kept (·.trust.outbox) (fun _ _ _ _ _ _ _ => rfl) fun _ _ _ => rfl
  · exact State.unbound_scrubsBegin coloured []
  · exact State.untranslated_scrubsBegin coloured mine []

end

theorem frozenSetChange_says : let q := s.vf v.toNat
    exec (.frozenSetChange v) s = .next (if (q.st = .locked ∨ q.st = .run) ∧ s.sealedError q.ctxid = true then
      s.setVf v.toNat { q with st := .error } else s) := by
  intro q
  refine (show exec (.frozenSetChange v) s = execFrozenSetChange v s from rfl).trans (congrArg Host.Outcome.next ?_)
  simp only [Bool.and_eq_true, Vf.serving_iff]
  rfl

/-! ### The scrubs of a stop -/

section
variable {k : Nat} {x : Stop} {c : Scrub} {rest : List Scrub} (kth : s.trust.stops[k]? = some x) (next : x.scrubs = c :: rest)
include kth next

theorem State.scrub_waits (unready : s.scrubReady c = false) : s.scrub k = s := by
  simp only [State.scrub, kth, next, unready]
  rfl

theorem State.scrub_more (ready : s.scrubReady c = true) (more : rest ≠ []) : s.scrub k =
    { s.scrubEnd c with trust := { (s.scrubEnd c).trust with stops := (s.scrubEnd c).trust.stops.set k { x with scrubs := rest } } } := by
  have full : rest.isEmpty = false := by rw [← Bool.not_eq_true, List.isEmpty_iff]; exact more
  simp only [State.scrub, kth, next, ready, full]
  rfl

theorem State.scrub_last (ready : s.scrubReady c = true) (last : rest = []) : s.scrub k =
    ({ s.scrubEnd c with trust := { (s.scrubEnd c).trust with stops := (s.scrubEnd c).trust.stops.eraseIdx k } } : State).stopEnd x := by
  subst last
  simp only [State.scrub, kth, next, ready]
  rfl

end

end

end Sys2Proof.Machine
end

section
/-!
PROOFS of family 26: each scrub of a stop, and what O52 says.
-/
namespace Sys2Proof.Machine

section
variable {s : State} {k : Nat} {x : Stop} {c : Scrub} {rest : List Scrub}

theorem State.scrubEnd_says (c : Scrub) : ∃ body, ((s.scrubEnd c).colour c.colour).key = 0 ∧ ((s.scrubEnd c).colour c.colour).keyed = false ∧
    (s.scrubEnd c).trust.outbox = s.trust.outbox ++
      [.receipt (if (s.vf c.was.vf.toNat).sess then some c.was.vf.toNat else none) body] ∧
    (s.scrubEnd c).trust.stops = s.trust.stops ∧ (s.scrubEnd c).vfs = s.vfs := by
  obtain ⟨u, body, vfs, trust, ends⟩ := State.scrubEnd_ends (s := s) c
  have colour : (s.scrubEnd c).colour c.colour = { u.colour c.colour with key := 0, keyed := false } := by
    rw [ends]; exact Sp.get_put_self ..
  refine ⟨body, by rw [colour], by rw [colour], ?_, ?_, ?_⟩
  · rw [ends, State.vf, State.vf, vfs, trust]
  · rw [ends, trust]
  · rw [ends, vfs]

theorem State.outbox_stopAnswer (x : Stop) (u : State) : (if x.managed then u.answer true else u.tell x.vf true []).trust.outbox =
    u.trust.outbox ++ [if x.managed then .answer true else .tdisp x.vf true []] := by
  cases x.managed <;> rfl

/-- What a scrub's turn leaves: its colour without a key, its receipt said, and the function unlocked after the last one. -/
def State.Scrubbed (s : State) (k : Nat) (x : Stop) (c : Scrub) (rest : List Scrub) (body : List Byte) (t : State) : Prop :=
  (t.colour c.colour).key = 0 ∧ (t.colour c.colour).keyed = false ∧
    (let dest := if (s.vf c.was.vf.toNat).sess then some c.was.vf.toNat else none
     let reply := if x.managed then TrustMsg.answer true else .tdisp x.vf true []
     t.trust.outbox = s.trust.outbox ++ [.receipt dest body] ++ (if rest = [] then [reply] else [])) ∧
    (rest ≠ [] → t.trust.stops = s.trust.stops.set k { x with scrubs := rest } ∧ t.vfs = s.vfs) ∧
    (rest = [] → t.trust.stops = s.trust.stops.eraseIdx k ∧ (t.vf x.vf).st = .unlocked)

variable (kth : s.trust.stops[k]? = some x) (next : x.scrubs = c :: rest) (ready : s.scrubReady c = true)
include kth next ready

theorem State.scrub_scrubs : ∃ body, s.Scrubbed k x c rest body (s.scrub k) := by
  obtain ⟨body, key, keyed, outbox, stops, vfs⟩ := State.scrubEnd_says (s := s) c
  refine ⟨body, ?_⟩
  by_cases last : rest = []
  · obtain ⟨u, ends, unlocked, kept, said, -, -, colours⟩ := State.stopEnd_ends
      (s := { s.scrubEnd c with trust := { (s.scrubEnd c).trust with stops := (s.scrubEnd c).trust.stops.eraseIdx k } }) x
    have colour : u.colour c.colour = (s.scrubEnd c).colour c.colour := congrArg (Sp.get Colour.reset · c.colour) colours
    rw [State.scrub_last kth next ready last, ends]
    refine ⟨?_, ?_, ?_, fun more => absurd last more, fun _ => ⟨?_, ?_⟩⟩
    · cases x.managed <;> exact (congrArg Colour.key colour).trans key
    · cases x.managed <;> exact (congrArg Colour.keyed colour).trans keyed
    · intro dest reply
      rw [if_pos last, ← outbox]
      exact (State.outbox_stopAnswer x u).trans (congrArg (fun l => l ++ [reply]) said)
    · rw [← stops]
      cases x.managed <;> exact kept
    · cases x.managed <;> exact congrArg Vf.st unlocked
  · rw [State.scrub_more kth next ready last]
    refine ⟨key, keyed, ?_, fun _ => ⟨congrArg (List.set · k _) stops, vfs⟩, fun none => absurd none last⟩
    intro dest reply
    rw [if_neg last, List.append_nil]
    exact outbox

end

end Sys2Proof.Machine
namespace Sys2Proof.Proofs
open Sys2Proof Sys2Proof.Machine

theorem sessionOf_eq (m : Spdm) : sessionOf m = { peerOf m with kind := if m.kind = 2 then 2 else 0 } := by
  simp only [sessionOf, beq_iff_eq]

/-- Settles O52: a request's guards decide whether its handler runs, each handler is one branch of its model, and a stop's scrubs begin by
a fold in which every colour is unbound as it stood. -/
theorem sessionsAndInterfaces : Obligations.SessionsAndInterfaces := by
  unfold Obligations.SessionsAndInterfaces
  intro s
  refine ⟨?_, ?_, ?_⟩
  · intro v nonce q after no yes all keyed authed coloured
    refine ⟨?_, ?_, ?_, frozenSetChange_says⟩
    · intro alone i message
      obtain ⟨f, hx⟩ := exec_tdisp (s := s) message
      exact hx.trans (State.tdispDo_rests alone)
    · intro authed shut i message
      obtain ⟨f, hx⟩ := exec_tdisp (s := s) message
      exact hx.trans (State.tdispDo_refuses authed shut)
    · intro authed sess en
      have runs := State.tdispDo_runs authed sess en
      refine ⟨getTdispVersion_tells runs, getTdispCapabilities_tells runs, ?_, getDeviceInterfaceReport_tells runs,
        lockInterfaceRequest_tells runs en, lockInterfaceRequest_refuses runs en, startInterfaceRequest_tells runs,
        startInterfaceRequest_refuses runs, stopInterfaceRequest_refuses runs, stopInterfaceRequest_tells runs, ?_⟩
      · have state := getDeviceInterfaceState_tells runs
        have code : BitVec.ofNat 8 (vfCode (s.vf v.toNat).st) =
            (match (s.vf v.toNat).st with | .unlocked => 0 | .locked => 1 | .run => 2 | .error => 3 : Byte) := by
          cases (s.vf v.toNat).st <;> rfl
        rw [code] at state
        exact state
      · intro c serving held
        have mem (d : Nat) (held : coloured d) : d ∈ s.coloursOf v.toNat := State.mem_coloursOf (congrArg _ held.1) held.2
        obtain ⟨t, x, hx, stops, vf, managed, same, outbox, scrubs⟩ := stopInterfaceRequest_scrubs runs serving (mem c held)
        exact ⟨t, x, hx, stops, vf, managed, same, outbox, fun d held => scrubs d (mem d held)⟩
  · intro k x c rest kth next
    refine ⟨fun unready => ?_, fun ready => ?_⟩
    · exact congrArg Host.Outcome.next (State.scrub_waits kth next unready)
    · obtain ⟨body, scrubbed⟩ := State.scrub_scrubs kth next ready
      exact ⟨_, body, rfl, scrubbed⟩
  · intro m q peer taken carried idle mine signed all sends ok bad chain digest same waits
    refine ⟨?_, ?_, ?_, ?_⟩
    · intro dropped i request
      obtain ⟨req, f, hx⟩ := exec_spdm (s := s) request
      exact hx.trans (State.spdm_discards dropped)
    · intro taken carried busy i request
      obtain ⟨req, f, hx⟩ := exec_spdm (s := s) request
      exact ⟨req, State.sends_error (hx.trans (State.spdm_busy taken carried (Bool.eq_true_of_not_eq_false busy)))⟩
    · intro taken carried idle tenant off i request
      obtain ⟨req, f, hx⟩ := exec_spdm (s := s) request
      exact ⟨req, State.sends_error (hx.trans (State.spdm_disabled taken carried idle tenant off))⟩
    · intro taken carried idle on
      have mine_iff (h : Handshake) : mine h ↔ h.peer = sessionOf m := by rw [sessionOf_eq]; rfl
      have opened := State.spdm_opens taken carried idle on
      have answers {i : Instr} {req : SpdmReq} {slot : Option Nat} {body : List Byte} {f : State → State} (hx : exec i s = s.spdm m req f)
          (hf : f s = s.reply' m req slot body) : ok i req slot body same := State.sends_response (exec_of_opened opened hx hf)
      refine ⟨answers (show execGetVersion m s = _ from rfl) rfl, answers (show execGetCapabilities m s = _ from rfl) rfl,
        fun session => ⟨heartbeat_answers opened session, keyUpdate_answers opened session⟩,
        fun bare => ⟨heartbeat_refuses opened bare, keyUpdate_refuses opened bare, endSession_refuses opened bare⟩,
        answers (show execChunkSend m s = _ from rfl) rfl, answers (show execChunkGet m s = _ from rfl) rfl,
        answers (show execGetDigests m s = _ from rfl) rfl, answers (show execGetCertificate m s = _ from rfl) rfl,
        answers (show execChallenge m s = _ from rfl) rfl, ⟨_, answers (show execGetMeasurements m s = _ from rfl) rfl⟩,
        negotiateAlgorithms_answers opened, negotiateAlgorithms_refuses opened, ?_, ?_, ?_, ?_,
        endSession_tenant opened, endSession_management opened, endSession_link opened, setCertificate_refuses opened, ?_, ?_,
        getCsr_bare opened, getCsr_refuses opened, getCsr_writes opened, vendorDefined_waits opened taken, vendorDefined_refuses opened taken⟩
      · refine ⟨keyExchange_size opened, fun size first => ?_, keyExchange_busy opened⟩
        obtain ⟨t, hx, ⟨kept, mem⟩, pending⟩ := keyExchange_answers opened size first
        exact ⟨t, hx, ⟨kept, _, mem, (mine_iff _).2 rfl, rfl, rfl⟩, pending⟩
      · exact fun unknown => finish_unknown opened fun h mem => mt (mine_iff h).2 (unknown h mem)
      · rintro tenant ⟨h, mem, known⟩
        obtain ⟨t, hx, ⟨vf, used⟩, pending⟩ := finish_tenant opened tenant ⟨h, mem, (mine_iff h).1 known⟩
        exact ⟨t, hx, ⟨vf, fun h mem => mt (mine_iff h).1 (used h mem)⟩, pending⟩
      · intro h link one known
        have mine := (mine_iff h).1 known
        refine ⟨finish_unverified opened link one mine, finish_management opened link one mine, fun good unmanaged trained => ?_⟩
        exact finish_trained opened link one mine good unmanaged trained
      · intro other free
        refine setCertificate_writes opened other ?_
        rw [State.slotWrite_now (w := (m.slot.toNat, false, m.body)) free]
        exact Sp.get_put_self ..
      · intro other waits
        refine setCertificate_writes opened other ?_
        rw [State.slotWrite_later (w := (m.slot.toNat, false, m.body)) waits]
        exact ⟨rfl, rfl⟩

end Sys2Proof.Proofs
end

section
/-!
PROOFS of family 24, the events: packets pass bridges and ports, and their windows deliver them once and in order (24 R330, R332, R334
to R336, R339, 26 R361).
-/
namespace Sys2Proof.Machine

/-! ### A packet passes an output -/

theorem fld_or (a b hi lo : Nat) : fld (a ||| b) hi lo = fld a hi lo ||| fld b hi lo := by
  rw [fld, Nat.or_div_two_pow, Nat.or_mod_two_pow]
  rfl

theorem Packet.d_sheared (p : Packet) : p.sheared.d 0 = p.d 0 ||| 2 ^ 55 := by
  rw [Packet.d, Packet.sheared]
  exact BitVec.toNat_or ..

theorem Packet.shear_sheared (p : Packet) : p.sheared.shear = true := by
  rw [Packet.shear, Packet.d_sheared, bitAt_eq_testBit, Nat.testBit_or, Nat.testBit_two_pow_self, Bool.or_true]

theorem Packet.len8_sheared (p : Packet) : p.sheared.len8 = p.len8 := by
  rw [Packet.len8, Packet.d_sheared, fld_or, show fld (2 ^ 55) 49 44 = 0 from rfl, Nat.or_zero]
  rfl

theorem Packet.seq_sheared (p : Packet) : p.sheared.seq = p.seq := by
  rw [Packet.seq, Packet.d_sheared, fld_or, show fld (2 ^ 55) 31 16 = 0 from rfl, Nat.or_zero]
  rfl

/-- An output whose queue holds too many places cuts the packet's payload off (R332). -/
def Packet.Cut (p : Packet) (queued : Nat) : Prop := p.frame = false ∧ p.shear = false ∧ p.payload ≠ [] ∧ 48 ≤ queued

/-- q is the packet p past one more output. -/
def Packet.Passed (p : Packet) (queued : Nat) (q : Packet) : Prop :=
  q.hops = p.hops + 1 ∧ (p.Cut queued → q.payload = [] ∧ q.shear = true ∧ q.len8 = p.len8 ∧ q.seq = p.seq) ∧
    (¬p.Cut queued → q.payload = p.payload ∧ q.hdr = p.hdr)

section
variable {k : Nat} {p : Packet} {s : State}

theorem Packet.cut_iff {queued : Nat} (plain : p.frame = false) : (!p.shear && !p.payload.isEmpty && decide (queued ≥ 48)) = true ↔
    p.Cut queued := by
  rw [Bool.and_eq_true, Bool.and_eq_true, Bool.not_eq_true', Bool.not_eq_true', decide_eq_true_eq, ← Bool.not_eq_true (p.payload.isEmpty),
    List.isEmpty_iff, Packet.Cut, and_assoc]
  exact ⟨fun cut => ⟨plain, cut⟩, And.right⟩

theorem State.pass_passed (s : State) (p : Packet) (port queued : Nat) : p.Passed queued (s.pass p port queued).2 := by
  by_cases frame : p.frame = true
  · rw [State.pass, if_pos frame]
    exact ⟨rfl, fun cut => absurd cut.1 (ne_false_of_eq_true frame), fun _ => ⟨rfl, rfl⟩⟩
  · have plain := Bool.eq_false_of_not_eq_true frame
    rw [State.pass, if_neg frame]
    dsimp only
    split
    case isTrue cut =>
      refine ⟨rfl, fun _ => ⟨rfl, p.shear_sheared, p.len8_sheared, p.seq_sheared⟩, fun whole => ?_⟩
      exact absurd ((Packet.cut_iff plain).1 cut) whole
    case isFalse whole => exact ⟨rfl, fun cut => absurd ((Packet.cut_iff plain).2 cut) whole, fun _ => ⟨rfl, rfl⟩⟩

theorem State.pass_keeps {β : Type} (g : State → β) (apart : ∀ (s : State) v, g { s with netp := v } = g s) (port queued : Nat) :
    g (s.pass p port queued).1 = g s := by
  rw [State.pass]
  split
  · rfl
  · dsimp only
    split
    · exact apart ..
    · rfl

/-! ### The next output of a packet's way -/

section
variable {l : List Hop} (found : s.net.flight[k]? = some p) (placed : s.placed p = true) (order : s.inOrder k p = true)
  (way : s.route p = some l) (queued : BitVec 7)
include found placed order way

theorem packetForward_bridge {b : Nat} {back : Bool} (hop : l[p.hops]? = some (.bridge b back)) : exec (.packetForward k queued) s = .next
    (if !s.permitted (s.partOfPacket p) (.bridge b back) then (s.dropFlight k).refuse p
     else (s.pass p b queued.toNat).1.setFlight ((s.pass p b queued.toNat).1.net.flight.set k (s.pass p b queued.toNat).2)) := by
  refine (show exec (.packetForward k queued) s = execPacketForward k queued s from rfl).trans (congrArg Host.Outcome.next ?_)
  simp only [found, placed, order, way, hop, Bool.not_true, Bool.or_self, Bool.false_eq_true, if_false]

theorem packetForward_port {e : Nat} (hop : l[p.hops]? = some (.port e)) : exec (.packetForward k queued) s = .next
    (if s.link e != .auth then s
     else if !s.permitted (s.partOfPacket p) (.port e) then (s.dropFlight k).refuse p
     else
      let dn := (Config.domainOf (s.partOfPacket p) p.to'.1).toNat
      if !(s.domain e dn).sends then s else
      let r := s.pass p (6 + e) queued.toNat
      let s' := (r.1.dropFlight k).setDomain e dn (s.domain e dn).sealed
      { s' with net := { s'.net with wire := s'.net.wire ++ [s.onWire e dn r.2] } }) := by
  refine (show exec (.packetForward k queued) s = execPacketForward k queued s from rfl).trans (congrArg Host.Outcome.next ?_)
  simp only [found, placed, order, way, hop, Bool.not_true, Bool.or_self, Bool.false_eq_true, if_false]

/-- What becomes of a packet that may not pass. -/
def State.Refused (s : State) (k : Nat) (queued : BitVec 7) (p : Packet) : Prop :=
  ∃ t, exec (.packetForward k queued) s = .next t ∧
    t.net.flight = s.net.flight.eraseIdx k ++ [{ control 5 true p with hops := if p.sdev = here then 1000 else 0 }]

omit found placed order way in
theorem State.refused_of (plain : p.frame = false) (small : p.type ≤ 3)
    (hx : exec (.packetForward k queued) s = .next ((s.dropFlight k).refuse p)) : s.Refused k queued p := by
  refine ⟨_, hx, ?_⟩
  rw [State.refuse, if_neg (ne_true_of_eq_false plain), if_pos small]
  simp only [beq_iff_eq]
  rfl

theorem packetForward_crosses {b : Nat} {back : Bool} (hop : l[p.hops]? = some (.bridge b back))
    (may : (s.lpermOf (s.partOfPacket p)).getLsbD (2 * b + b2n back) = true) :
    ∃ t q, exec (.packetForward k queued) s = .next t ∧ p.Passed queued.toNat q ∧ t.net.flight = s.net.flight.set k q := by
  refine ⟨_, _, (packetForward_bridge found placed order way queued hop).trans (congrArg _ (if_neg ?_)), s.pass_passed p b queued.toNat, ?_⟩
  · rw [Bool.not_eq_true']; exact ne_false_of_eq_true may
  · exact congrArg (List.set · k _) (State.pass_keeps (·.net.flight) (fun _ _ => rfl) b queued.toNat)

theorem packetForward_barred {b : Nat} {back : Bool} (hop : l[p.hops]? = some (.bridge b back))
    (bar : (s.lpermOf (s.partOfPacket p)).getLsbD (2 * b + b2n back) = false) :
    exec (.packetForward k queued) s = .next ((s.dropFlight k).refuse p) :=
  (packetForward_bridge found placed order way queued hop).trans (congrArg _ (if_pos (by rw [Bool.not_eq_true']; exact bar)))

theorem packetForward_closed {e : Nat} (hop : l[p.hops]? = some (.port e)) (closed : s.link e ≠ .auth) :
    exec (.packetForward k queued) s = .next s :=
  (packetForward_port found placed order way queued hop).trans (congrArg _ (if_pos (bne_iff_ne.2 closed)))

section
variable {e : Nat} (hop : l[p.hops]? = some (.port e)) (auth : s.link e = .auth)
include hop auth

theorem packetForward_forbidden (bar : (s.lpermOf (s.partOfPacket p)).getLsbD (12 + 2 * e) = false) :
    exec (.packetForward k queued) s = .next ((s.dropFlight k).refuse p) :=
  (packetForward_port found placed order way queued hop).trans
    (congrArg _ ((if_neg (by rw [auth]; decide)).trans (if_pos (by rw [Bool.not_eq_true']; exact bar))))

variable (may : (s.lpermOf (s.partOfPacket p)).getLsbD (12 + 2 * e) = true)
include may

theorem packetForward_waits (keyless : (s.domain e (Config.domainOf (s.partOfPacket p) p.to'.1).toNat).sends = false) :
    exec (.packetForward k queued) s = .next s :=
  (packetForward_port found placed order way queued hop).trans
    (congrArg _ ((if_neg (by rw [auth]; decide)).trans ((if_neg (by rw [Bool.not_eq_true']; exact ne_false_of_eq_true may)).trans
      (if_pos (by rw [Bool.not_eq_true']; exact keyless)))))

theorem packetForward_leaves (sends : (s.domain e (Config.domainOf (s.partOfPacket p) p.to'.1).toNat).sends = true) :
    ∃ t q, exec (.packetForward k queued) s = .next t ∧ p.Passed queued.toNat q ∧ t.net.flight = s.net.flight.eraseIdx k ∧
      t.net.wire = s.net.wire ++ [s.onWire e (Config.domainOf (s.partOfPacket p) p.to'.1).toNat q] ∧
      (t.domain e (Config.domainOf (s.partOfPacket p) p.to'.1).toNat).txcount =
        (s.domain e (Config.domainOf (s.partOfPacket p) p.to'.1).toNat).txcount + 1 := by
  refine ⟨_, _, (packetForward_port found placed order way queued hop).trans
    (congrArg _ ((if_neg (by rw [auth]; decide)).trans ((if_neg (by rw [Bool.not_eq_true']; exact ne_false_of_eq_true may)).trans
      (if_neg (by rw [Bool.not_eq_true']; exact ne_false_of_eq_true sends))))), s.pass_passed p (6 + e) queued.toNat, ?_, ?_, ?_⟩
  · exact congrArg (List.eraseIdx · k) (State.pass_keeps (·.net.flight) (fun _ _ => rfl) (6 + e) queued.toNat)
  · exact congrArg (· ++ _) (State.pass_keeps (·.net.wire) (fun _ _ => rfl) (6 + e) queued.toNat)
  · exact congrArg Domain.txcount (State.domain_setDomain (s := (s.pass p (6 + e) queued.toNat).1.dropFlight k) e _ _)

omit found placed order way hop auth may in
theorem Domain.sends_iff {d : Domain} : d.sends = true ↔ (if d.tx then d.key1 else d.key0) ≠ none ∧ d.stall = false := by
  rw [Domain.sends, Bool.and_eq_true, Option.isSome_iff_ne_none, Bool.not_eq_true']
  rfl

end
end
end

end Sys2Proof.Machine
end

section
/-!
PROOFS of family 24, the events: a window delivers a packet once and in order, and holes ask for theirs again (24 R334 to R336, R339).
-/
namespace Sys2Proof.Machine

section
variable {k : Nat} {p : Packet} {s : State}

/-! ### Windows -/

theorem Window.slide_bare {w : Window} (bare : w.got = []) (n : Nat) : w.slide n = w := by
  cases n with
  | zero => rfl
  | succ n => exact if_neg (by rw [bare, List.contains_nil]; decide)

theorem Window.take_oldest {w : Window} (bare : w.got = []) :
    w.take w.oldest = { w with got := [], oldest := (w.oldest + 1) % 65536 } := by
  rw [Window.take, Window.slide, bare, if_pos (by simp)]
  dsimp only
  rw [Window.slide_bare (by simp)]
  simp

theorem Window.dist_oldest {w : Window} : w.dist w.oldest = 0 := by
  rw [Window.dist, Nat.add_sub_cancel_left]

theorem Window.unseen_oldest {w : Window} (bare : w.got = []) : w.seen w.oldest = false := by
  rw [Window.seen, Window.dist_oldest, bare]
  rfl

theorem Window.seen_take {w : Window} (bare : w.got = []) (small : w.oldest < 65536) : (w.take w.oldest).seen w.oldest = true := by
  rw [Window.take_oldest bare, Window.seen, Window.dist, Bool.or_eq_true, decide_eq_true_eq]
  dsimp only
  omega

theorem State.window_setWindow (s : State) (p : Packet) (w : Window) : (s.setWindow p w).window p = w := Sp.get_put_self ..

theorem State.drainWindow_bare (bare : (s.window p).held = []) (n : Nat) : s.drainWindow p n = s := by
  cases n with
  | zero => rfl
  | succ n =>
    rw [State.drainWindow, bare]
    rfl

/-- A window whose only number is delivered has seen it, and holds no other. -/
theorem State.window_drained {w : Window} (first : p.seq = w.oldest) (got : w.got = []) (held : w.held = []) (n : Nat) :
    (s.setWindow p (w.take p.seq)).drainWindow p n = s.setWindow p (w.take p.seq) ∧
      ((s.setWindow p (w.take p.seq)).window p).seen p.seq = true := by
  have small : w.oldest < 65536 := first ▸ Nat.mod_lt _ (by decide)
  constructor
  · exact State.drainWindow_bare (by rw [State.window_setWindow, first, Window.take_oldest got]; exact held) n
  · rw [State.window_setWindow, first]
    exact Window.seen_take got small

theorem State.isDue_iff : s.isDue p = true ↔ ∃ q ∈ s.net.due, q.stream = p.stream ∧ q.seq = p.seq := by
  rw [State.isDue, List.any_eq_true]
  simp only [Bool.and_eq_true, beq_iff_eq]

theorem State.ackAgain_due (due : ∃ q ∈ s.net.due, q.stream = p.stream ∧ q.seq = p.seq) : s.ackAgain p = s :=
  if_pos (State.isDue_iff.2 due)

theorem State.ackAgain_done (done : ¬∃ q ∈ s.net.due, q.stream = p.stream ∧ q.seq = p.seq) : s.ackAgain p = s.ack p false :=
  if_neg (mt State.isDue_iff.1 done)

theorem any_held_eq_false {l : List (Nat × Packet)} {n : Nat} (none : ∀ h ∈ l, h.1 ≠ n) : (l.any fun h => h.1 == n) = false :=
  List.any_eq_false.2 fun h mem => by rw [beq_iff_eq]; exact none h mem

theorem State.mem_addHole : { core := p.dcore, hdr := p.hdr, asked := false } ∈ (s.addHole p).net.rereqs :=
  List.mem_append_right _ (List.mem_singleton.2 rfl)

/-- A packet at its destination, whose turn on its way has come. -/
def State.AtEnd (s : State) (k : Nat) (p : Packet) : Prop :=
  s.net.flight[k]? = some p ∧ p.frame = false ∧ s.arrived p = true ∧ s.inOrder k p = true

/-! ### A packet arrives -/

section
variable (atEnd : s.AtEnd k p)
include atEnd

section
variable (placed : s.placed p = true) (whole : p.shear = false) (small : p.type ≤ 3)
include placed whole small

omit atEnd placed whole in
theorem type_cases : (p.type == 4) = false ∧ (p.type == 5) = false ∧ ¬p.type > 5 :=
  ⟨beq_false_of_ne (by omega), beq_false_of_ne (by omega), by omega⟩

theorem packetArrival_seen (seen : (s.window p).seen p.seq = true) :
    exec (.packetArrival k) s = .next ((s.dropFlight k).ackAgain p) := by
  obtain ⟨found, plain, arrived, order⟩ := atEnd
  obtain ⟨four, five, more⟩ := type_cases small
  have known : ((s.dropFlight k).window p).seen p.seq = true := seen
  refine (show exec (.packetArrival k) s = execPacketArrival k s from rfl).trans (congrArg Host.Outcome.next ?_)
  simp only [found, plain, arrived, placed, order, whole, four, five, more, known, Bool.not_true, Bool.or_self, Bool.false_eq_true, if_false,
    if_true]

section
variable (fresh : (s.window p).seen p.seq = false)
include fresh

theorem packetArrival_fresh {t : State} (next : (let u := (s.dropFlight k).fillHole p
      if u.classRefused p then ((u.ack p true).setWindow p ((s.window p).take p.seq)).drainWindow p 64
      else if u.classSheared p then u.addHole p
      else if u.ordered p && decide ((s.window p).dist p.seq > 0) then
        if (s.window p).held.any fun h => h.1 == p.seq then u
        else u.setWindow p { s.window p with held := (s.window p).held ++ [(p.seq, p)] }
      else (({ u with net := { u.net with due := u.net.due ++ [p] } } : State).setWindow p ((s.window p).take p.seq)).drainWindow p 64) = t) :
    exec (.packetArrival k) s = .next t := by
  obtain ⟨found, plain, arrived, order⟩ := atEnd
  obtain ⟨four, five, more⟩ := type_cases small
  have unknown : ((s.dropFlight k).window p).seen p.seq = false := fresh
  refine (show exec (.packetArrival k) s = execPacketArrival k s from rfl).trans (congrArg Host.Outcome.next ?_)
  simp only [found, plain, arrived, placed, order, whole, four, five, more, unknown, Bool.not_true, Bool.or_self, Bool.false_eq_true, if_false]
  refine Eq.trans ?_ next
  dsimp only
  by_cases refused : ((s.dropFlight k).fillHole p).classRefused p = true
  · rw [if_pos refused, if_pos refused]; rfl
  · by_cases sheared : ((s.dropFlight k).fillHole p).classSheared p = true
    · rw [if_neg refused, if_neg refused, if_pos sheared, if_pos sheared]
    · have accepted : ((s.dropFlight k).fillHole p).accept p = ({ (s.dropFlight k).fillHole p with net :=
          { ((s.dropFlight k).fillHole p).net with due := ((s.dropFlight k).fillHole p).net.due ++ [p] } }, true) := by
        rw [State.accept, if_neg refused, if_neg sheared]
      rw [if_neg refused, if_neg refused, if_neg sheared, if_neg sheared]
      simp only [accepted]
      rfl

theorem packetArrival_holds (taken : s.classRefused p = false) (room : s.classSheared p = false) (ordered : s.ordered p = true)
    (later : (s.window p).dist p.seq ≠ 0) (first : ∀ h ∈ (s.window p).held, h.1 ≠ p.seq) :
    ∃ t, exec (.packetArrival k) s = .next t ∧ (t.window p).held = (s.window p).held ++ [(p.seq, p)] ∧ t.net.due = s.net.due := by
  let u := ((s.dropFlight k).fillHole p).setWindow p { s.window p with held := (s.window p).held ++ [(p.seq, p)] }
  have waits : (s.ordered p && decide ((s.window p).dist p.seq > 0)) = true := by
    rw [ordered, Bool.true_and, decide_eq_true_eq]; omega
  refine ⟨u, packetArrival_fresh atEnd placed whole small fresh ?_, congrArg Window.held (State.window_setWindow ..), rfl⟩
  exact (if_neg (ne_true_of_eq_false taken)).trans ((if_neg (ne_true_of_eq_false room)).trans ((if_pos waits).trans
    (if_neg (ne_true_of_eq_false (any_held_eq_false first)))))

end

section
variable (first : p.seq = (s.window p).oldest) (got : (s.window p).got = []) (held : (s.window p).held = [])
include first got held

omit atEnd placed whole small held in
theorem State.unseen_first : (s.window p).seen p.seq = false := by rw [first]; exact Window.unseen_oldest got

theorem packetArrival_delivers (taken : s.classRefused p = false) (room : s.classSheared p = false) :
    ∃ t, exec (.packetArrival k) s = .next t ∧ t.net.due = s.net.due ++ [p] ∧ (t.window p).seen p.seq = true := by
  let u := (s.dropFlight k).fillHole p
  have now : (s.ordered p && decide ((s.window p).dist p.seq > 0)) = false := by
    rw [first, Window.dist_oldest, Bool.and_eq_false_iff]; exact .inr rfl
  obtain ⟨drained, seen⟩ := State.window_drained (s := { u with net := { u.net with due := u.net.due ++ [p] } }) first got held 64
  refine ⟨_, packetArrival_fresh atEnd placed whole small (State.unseen_first first got) ((if_neg (ne_true_of_eq_false taken)).trans
    ((if_neg (ne_true_of_eq_false room)).trans ((if_neg (ne_true_of_eq_false now)).trans drained))), rfl, seen⟩

omit held in
theorem packetArrival_shears (taken : s.classRefused p = false) (full : s.classSheared p = true) :
    ∃ t, exec (.packetArrival k) s = .next t ∧ t.net.due = s.net.due ∧ (t.window p).oldest = (s.window p).oldest ∧
      { core := p.dcore, hdr := p.hdr, asked := false } ∈ t.net.rereqs :=
  ⟨_, packetArrival_fresh atEnd placed whole small (State.unseen_first first got)
    ((if_neg (ne_true_of_eq_false taken)).trans (if_pos full)), rfl, rfl, State.mem_addHole⟩

theorem packetArrival_refuses (route : p.type = 0) (refused : s.classRefused p = true) :
    ∃ t, exec (.packetArrival k) s = .next t ∧ t.net.due = s.net.due ∧
      t.net.flight = s.net.flight.eraseIdx k ++ [control 5 true p] ∧ (t.window p).seen p.seq = true := by
  have acked : ((s.dropFlight k).fillHole p).ack p true = ((s.dropFlight k).fillHole p).setFlight
      (((s.dropFlight k).fillHole p).net.flight ++ [control 5 true p]) := if_neg (by rw [route]; decide)
  obtain ⟨drained, seen⟩ := State.window_drained (s := ((s.dropFlight k).fillHole p).ack p true) first got held 64
  refine ⟨_, packetArrival_fresh atEnd placed whole small (State.unseen_first first got) ((if_pos refused).trans drained), ?_, ?_, seen⟩
  · rw [acked]; rfl
  · rw [acked]; rfl

end

omit atEnd placed whole small in
theorem State.classRefused_iff (route : p.type = 0) : s.classRefused p = false ↔
    s.corePresent p.dcore = true ∧ s.partOf p.dcore = some p.part ∧ (s.rcls p.part p.cls).getLsbD 63 = true := by
  simp [State.classRefused, route, and_assoc]

omit atEnd placed whole small in
theorem State.classSheared_iff (route : p.type = 0) : s.classSheared p = false ↔
    (s.core p.dcore).mask.getLsbD p.cls = false ∧ (s.core p.dcore).ring.cfg.getLsbD 63 = true ∧
      (s.core p.dcore).ring.count + s.ringDue p.dcore < (s.core p.dcore).ring.slots := by
  simp [State.classSheared, route, and_assoc]

omit atEnd placed whole small in
theorem State.memory_classes (remote : p.type ≠ 0) : s.classRefused p = false ∧ s.classSheared p = false := by
  simp [State.classRefused, State.classSheared, remote]

end

/-! ### A sheared header arrives -/

theorem shearedHeader_seen (sheared : p.shear = true) (seen : (s.window p).seen p.seq = true) :
    exec (.shearedHeader k) s = .next ((s.dropFlight k).ackAgain p) := by
  obtain ⟨found, plain, arrived, order⟩ := atEnd
  have known : ((s.dropFlight k).window p).seen p.seq = true := seen
  refine (show exec (.shearedHeader k) s = execShearedHeader k s from rfl).trans (congrArg Host.Outcome.next ?_)
  simp only [found, plain, arrived, order, sheared, known, Bool.not_true, Bool.or_self, Bool.false_eq_true, if_false, if_true]

theorem shearedHeader_opens (sheared : p.shear = true) (fresh : (s.window p).seen p.seq = false)
    (first : ∀ h ∈ (s.window p).held, h.1 ≠ p.seq) :
    exec (.shearedHeader k) s = .next ((s.dropFlight k).addHole p) := by
  obtain ⟨found, plain, arrived, order⟩ := atEnd
  have unknown : ((s.dropFlight k).window p).seen p.seq = false := fresh
  have none : (((s.dropFlight k).window p).held.any fun h => h.1 == p.seq) = false := any_held_eq_false first
  refine (show exec (.shearedHeader k) s = execShearedHeader k s from rfl).trans (congrArg Host.Outcome.next ?_)
  simp only [found, plain, arrived, order, sheared, unknown, none, Bool.not_true, Bool.or_self, Bool.false_eq_true, if_false]

end

/-! ### Holes ask again -/

/-- The destination core's pace toward the sender of a packet. -/
def Packet.pace (p : Packet) (n : Nat) : Nat := ((n * 2 + b2n (p.kind == 2)) * 1024 + p.sdev) * 1024 + p.score

/-- The re-request of a header. -/
def asking (p : Packet) : Packet := { hdr := p.hdr, payload := [], frame := false, hops := 0, again := false }

section
variable {n : CoreNum} {rest : List ReReq} (oldest : s.net.rereqs = { core := n.toNat, hdr := p.hdr, asked := false } :: rest)
include oldest

theorem reRequest_leaves (unmasked : p.type ≠ 0 ∨ (s.core n.toNat).mask.getLsbD p.cls = false)
    (rested : ∀ t, Sp.find? s.net.paced (p.pace n.toNat) = some t → (s.netOf p.part).lull ≤ s.cycle - t) :
    ∃ t, exec (.reRequest n) s = .next t ∧ t.net.flight = s.net.flight ++ [control 4 false p] ∧
      Sp.find? t.net.paced (p.pace n.toNat) = some s.cycle := by
  have open_ : (!((asking p).type == 0 && (s.core n.toNat).mask.getLsbD (asking p).cls)) = true := by
    rcases unmasked with memory | clear
    · rw [show ((asking p).type == 0) = false from beq_false_of_ne memory]; rfl
    · rw [show (s.core n.toNat).mask.getLsbD (asking p).cls = false from clear, Bool.and_false]; rfl
  refine Exists.intro ?t ⟨Eq.trans (show exec (.reRequest n) s = execReRequest n s from rfl) ?step, ?flight, ?paced⟩
  case step =>
    unfold execReRequest
    dsimp only
    rw [oldest, List.find?_cons_of_pos]
    rw [Bool.and_eq_true, Bool.and_eq_true, Bool.and_eq_true]
    refine ⟨⟨⟨beq_self_eq_true _, rfl⟩, open_⟩, ?_⟩
    split
    next t h => exact decide_eq_true (rested t h)
    next => rfl
  case flight => rfl
  case paced => exact (Sp.find?_put ..).trans (if_pos rfl)

theorem reRequest_waits {t : Nat} (only : rest = []) (last : Sp.find? s.net.paced (p.pace n.toNat) = some t)
    (soon : s.cycle - t < (s.netOf p.part).lull) : exec (.reRequest n) s = .next s := by
  refine Eq.trans (show exec (.reRequest n) s = execReRequest n s from rfl) ?_
  unfold execReRequest
  dsimp only
  rw [oldest, only, List.find?_cons_of_neg, List.find?_nil]
  rw [Bool.and_eq_true, not_and]
  intro _
  split
  next u h =>
    have same : u = t := Option.some.inj (h.symm.trans last)
    rw [decide_eq_true_eq, same]
    exact Nat.not_le.2 soon
  next h => exact absurd (h.symm.trans last) (by simp)

end

end

end Sys2Proof.Machine
end

section
/-!
PROOFS of family 24, the events: acknowledgements free places, and a timeout sends again or gives up (24 R333, R339, 26 R361).
-/
namespace Sys2Proof.Machine

section
variable {k : Nat} {p : Packet} {s : State}

/-- The packets that stay in a retransmit buffer stay as they are. -/
theorem State.pkts_freePlaces (key : Nat) (gone : Sent → Bool) : ((s.freePlaces key gone).sentBy key).map (·.pkt) =
    ((s.sentBy key).filter fun x => !gone x).map (·.pkt) := by
  rw [State.freePlaces, State.sentBy]
  dsimp only
  rw [Sp.get_set_self, List.map_append, List.map_map]
  have kept (l : List Sent) : ((fun (x : Sent) => x.pkt) ∘ fun (x : Sent) =>
      if x.times == 0 && !l.any (Sent.farFrom x.pkt) then { x with times := 1, time := s.cycle } else x) = fun x => x.pkt := by
    funext x
    rw [Function.comp_apply]
    split <;> rfl
  rw [kept, ← List.map_append, List.take_append_drop]

/-- The place of a nack's code (log 44). -/
theorem Packet.code_eq (p : Packet) : fld (p.d 2) 7 0 = (p.hdr.getD 2 0).toNat % 256 := by
  rw [fld, Nat.pow_zero, Nat.div_one]
  rfl

section
variable (atEnd : s.AtEnd k p) (five : p.type = 5)
include atEnd five

theorem acknowledgement_frees {e : Sent} (mine : (s.sentBy p.named.1).find? p.named.2 = some e) :
    exec (.acknowledgement k) s = .next (let u := (s.dropFlight k).freePlaces p.named.1 p.named.2
      if p.nack then u.record e.pkt.part
        { code := (p.hdr.getD 2 0).toNat % 256, kind := 5, colour := e.pkt.colour, core := e.pkt.score, addr := refusedWord e }
      else u) := by
  obtain ⟨found, plain, arrived, order⟩ := atEnd
  have named : ((s.dropFlight k).sentBy p.named.1).find? p.named.2 = some e := mine
  refine (show exec (.acknowledgement k) s = execAcknowledgement k s from rfl).trans (congrArg Host.Outcome.next ?_)
  simp only [found, plain, arrived, order, five, named, Packet.code_eq, Bool.not_true, Bool.or_self, bne_self_eq_false, Bool.false_eq_true,
    if_false]

theorem acknowledgement_unknown (none : (s.sentBy p.named.1).find? p.named.2 = none) :
    exec (.acknowledgement k) s = .next (if p.nack ∧ p.tag / 16 % 4 = 3 then
      (s.dropFlight k).record p.part
        { code := (p.hdr.getD 2 0).toNat % 256, kind := 5, colour := p.colour, core := p.dcore, addr := refusedRead p }
      else s.dropFlight k) := by
  obtain ⟨found, plain, arrived, order⟩ := atEnd
  have unnamed : ((s.dropFlight k).sentBy p.named.1).find? p.named.2 = .none := none
  refine (show exec (.acknowledgement k) s = execAcknowledgement k s from rfl).trans (congrArg Host.Outcome.next ?_)
  simp only [found, plain, arrived, order, five, unnamed, Packet.code_eq, Bool.not_true, Bool.or_self, bne_self_eq_false, Bool.false_eq_true,
    if_false, Bool.and_eq_true, beq_iff_eq]

end

/-! ### Timeouts -/

/-- The entries of a retransmit buffer that hold the packet of e. -/
def Sent.twin (e x : Sent) : Bool := x.pkt.stream == e.pkt.stream && x.pkt.seq == e.pkt.seq

theorem Sent.twin_again (e x : Sent) (time times : Nat) : e.twin { x with time := time, times := times } = e.twin x := rfl

/-- A kept packet is transmitted again: it is on its way, and the place counts one transmission more. -/
theorem State.resend_again {key : Nat} {e : Sent} (mine : (s.sentBy key).find? e.twin = some e) (sent : 0 < e.times) (few : e.times < 16) :
    (s.resend key e.twin).net.flight = s.net.flight ++ [{ e.pkt with hops := 0, again := true }] ∧
      ((s.resend key e.twin).sentBy key).find? e.twin = some { e with time := s.cycle, times := e.times + 1 } := by
  have may : ¬(e.times == 0 || decide (e.times ≥ 16)) = true := by
    rw [Bool.or_eq_true, beq_iff_eq, decide_eq_true_eq]; omega
  simp only [State.resend, mine, if_neg may]
  refine ⟨rfl, ?_⟩
  rw [State.sentBy, State.setFlight, Sp.get_put_self, List.find?_map]
  have same : (e.twin ∘ fun (x : Sent) => if e.twin x then { x with time := s.cycle, times := x.times + 1 } else x) = e.twin := by
    funext x
    rw [Function.comp_apply]
    split <;> rfl
  rw [same, mine, Option.map_some, if_pos (by simpa using List.find?_some mine)]

section
variable {key : Nat} {e : Sent} (kth : (s.net.sent.flatMap fun q => q.2.map fun e => (q.1, e))[k]? = some (key, e))
include kth

theorem exec_timeout : exec (.retransmitTimeout k) s = .next
    (if e.times == 0 || decide (s.cycle - e.time < 2 ^ 20) then s
     else if e.times < 16 then s.resend key e.twin
     else (s.freePlaces key e.twin).record e.pkt.part
      { code := 0x52, kind := 5, colour := e.pkt.colour, core := e.pkt.score, addr := e.pkt.hdr.getD 1 0 }) := by
  refine (show exec (.retransmitTimeout k) s = execRetransmitTimeout k s from rfl).trans (congrArg Host.Outcome.next ?_)
  simp only [kth]
  rfl

theorem retransmitTimeout_rests (early : e.times = 0 ∨ s.cycle - e.time < 2 ^ 20) : exec (.retransmitTimeout k) s = .next s :=
  (exec_timeout kth).trans (congrArg _ (if_pos (by rw [Bool.or_eq_true, beq_iff_eq, decide_eq_true_eq]; exact early)))

section
variable (late : 2 ^ 20 ≤ s.cycle - e.time)
include late

omit kth in
theorem Sent.overdue (sent : 0 < e.times) : ¬(e.times == 0 || decide (s.cycle - e.time < 2 ^ 20)) = true := by
  rw [Bool.or_eq_true, beq_iff_eq, decide_eq_true_eq]; omega

theorem retransmitTimeout_again (sent : 0 < e.times) (few : e.times < 16) (mine : (s.sentBy key).find? e.twin = some e) :
    ∃ t, exec (.retransmitTimeout k) s = .next t ∧ t.net.flight = s.net.flight ++ [{ e.pkt with hops := 0, again := true }] ∧
      (t.sentBy key).find? e.twin = some { e with time := s.cycle, times := e.times + 1 } :=
  ⟨_, (exec_timeout kth).trans (congrArg _ ((if_neg (Sent.overdue late sent)).trans (if_pos few))),
    State.resend_again mine sent few⟩

theorem retransmitTimeout_gives_up (many : 16 ≤ e.times) : exec (.retransmitTimeout k) s = .next ((s.freePlaces key e.twin).record e.pkt.part
    { code := 0x52, kind := 5, colour := e.pkt.colour, core := e.pkt.score, addr := e.pkt.hdr.getD 1 0 }) :=
  (exec_timeout kth).trans (congrArg _ ((if_neg (Sent.overdue late (by omega))).trans (if_neg (by omega))))

end
end
end

end Sys2Proof.Machine
end

section
/-!
PROOFS of family 24, the events: remote accesses at their homes and replies at their requesters (24 R337, 17 R262).
-/
namespace Sys2Proof.Machine

section
variable {k : Nat} {p : Packet} {s : State}

theorem State.ack_eq (answered : p.type ≠ 1) (nack : Bool) (code : Nat) :
    s.ack p nack code = s.setFlight (s.net.flight ++ [control 5 nack p code]) :=
  if_neg (by rw [beq_iff_eq]; exact answered)

theorem State.remoteKey_dropDue (n : Nat) (wr : Bool) : (s.dropDue k).remoteKey p n wr = s.remoteKey p n wr := rfl

theorem State.readHomeN_dropDue (key h n : Nat) : (s.dropDue k).readHomeN key h n = s.readHomeN key h n := by
  rw [State.readHomeN_eq_map, State.readHomeN_eq_map]
  rfl

/-! ### Headers -/

/-- A bare packet with a header. -/
def Header.packet (h : Header) (payload : List Byte) : Packet :=
  { hdr := h.dwords, payload := payload, frame := false, hops := 0, again := false }

theorem b2n_le (b : Bool) : b2n b ≤ 1 := by cases b <;> decide

section
variable {h : Header} {payload : List Byte}

theorem Header.type_packet (cls : h.cls < 16) (prio : h.prio < 4) (len8 : h.len8 < 64) (seq : h.seq < 65536) (tag : h.tag < 65536)
    (type : h.type < 16) : (h.packet payload).type = h.type := by
  have ord := b2n_le h.ord
  have poison := b2n_le h.poison
  have nack := b2n_le h.nack
  rw [Packet.type, Packet.d, Header.packet, Header.dwords, List.getD_cons_zero, w64, BitVec.toNat_ofNat, fld]
  omega

theorem Header.tag_packet (tag : h.tag < 65536) : (h.packet payload).tag = h.tag := by
  rw [Packet.tag, Packet.d, Header.packet, Header.dwords, List.getD_cons_zero, w64, BitVec.toNat_ofNat, fld]
  omega

section
variable (dcore : h.dcore < 1024) (part : h.part < 16) (colour : h.colour < 256)
include dcore part colour

theorem Header.ddev_packet (ddev : h.ddev < 1024) : (h.packet payload).ddev = h.ddev := by
  rw [Packet.ddev, Packet.d, Header.packet, Header.dwords, List.getD_cons_succ, List.getD_cons_zero, w64, BitVec.toNat_ofNat, fld]
  omega

theorem Header.dcore_packet : (h.packet payload).dcore = h.dcore := by
  rw [Packet.dcore, Packet.d, Header.packet, Header.dwords, List.getD_cons_succ, List.getD_cons_zero, w64, BitVec.toNat_ofNat, fld]
  omega

end
end

/-- A packet that is sent carries its header, with the next number of its stream. -/
theorem State.flight_sendPacket (who : Who) (h : Header) (payload : List Byte) (word : W64) : ∃ q, (q = 0 ∨ ∃ i, (i, q) ∈ s.net.seqs) ∧
    (s.sendPacket who h payload word).net.flight = s.net.flight ++ [({ h with seq := q } : Header).packet payload] := by
  refine ⟨Sp.get 0 s.net.seqs (h.packet payload).stream, ?_, rfl⟩
  cases found : Sp.find? s.net.seqs (h.packet payload).stream with
  | none => exact .inl (by rw [Sp.get, found]; rfl)
  | some q => exact .inr ⟨_, by rw [Sp.get, found]; exact Sp.mem_of_find? found⟩

/-! ### A remote read -/

/-- The header of the reply to a remote read. -/
def State.replyHeader (s : State) (p : Packet) : Header :=
  { type := 3, ord := true, poison := s.anyPoison p.addr (8 * p.len8), len8 := p.len8, tag := p.tag, score := s.unitOf p, ddev := p.sdev,
    dcore := p.score, part := p.part, colour := p.colour, addr := p.addr }

section
variable (due : s.dueNow k = some p)
include due

theorem remoteRead_refuses {c : Nat} (read : p.type = 1) (bad : s.remoteKey p (8 * p.len8) false = .error c) :
    exec (.remoteRead k) s = .next (s.dropDue k) := by
  refine (show exec (.remoteRead k) s = execRemoteRead k s from rfl).trans (congrArg Host.Outcome.next ?_)
  simp only [due, read, State.remoteKey_dropDue, bad, bne_self_eq_false, Bool.false_eq_true, if_false]

theorem remoteRead_step {key : Nat} (read : p.type = 1) (good : s.remoteKey p (8 * p.len8) false = .ok key) :
    exec (.remoteRead k) s = .next ((s.dropDue k).sendPacket (.bank (s.unitOf p)) (s.replyHeader p) (s.readHomeN key p.addr (8 * p.len8))) := by
  refine (show exec (.remoteRead k) s = execRemoteRead k s from rfl).trans (congrArg Host.Outcome.next ?_)
  simp only [due, read, State.remoteKey_dropDue, good, bne_self_eq_false, Bool.false_eq_true, if_false]
  rw [State.readHomeN_dropDue]
  rfl

theorem remoteRead_performs {key : Nat} (read : p.type = 1) (good : s.remoteKey p (8 * p.len8) false = .ok key) :
    ∃ (t : State) (r : Packet), exec (.remoteRead k) s = .next t ∧ t.net.due = s.net.due.eraseIdx k ∧
      t.net.flight = s.net.flight ++ [r] ∧ r.payload = s.readHomeN key p.addr (8 * p.len8) ∧
      ((∀ q ∈ s.net.seqs, q.2 < 65536) → r.type = 3 ∧ r.tag = p.tag ∧ r.ddev = p.sdev ∧ r.dcore = p.score) := by
  obtain ⟨q, numbered, flight⟩ := State.flight_sendPacket (s := s.dropDue k) (.bank (s.unitOf p)) (s.replyHeader p)
    (s.readHomeN key p.addr (8 * p.len8)) 0
  have field (v hi lo : Nat) : fld v hi lo < 2 ^ (hi + 1 - lo) := Nat.mod_lt _ (Nat.two_pow_pos _)
  refine ⟨_, _, remoteRead_step due read good, rfl, flight, rfl, fun small => ?_⟩
  have seq : q < 65536 := by
    rcases numbered with zero | ⟨i, mem⟩
    · rw [zero]; decide
    · exact small (i, q) mem
  exact ⟨Header.type_packet (by decide : 0 < 16) (by decide : 0 < 4) (field ..) seq (field ..) (by decide : 3 < 16), Header.tag_packet (field ..),
    Header.ddev_packet (field ..) (field ..) (field ..) (field ..), Header.dcore_packet (field ..) (field ..) (field ..)⟩

/-! ### A remote write -/

theorem remoteWrite_refuses {c : Nat} (write : p.type = 2) (bad : s.remoteKey p (max 1 p.payload.length) true = .error c) :
    exec (.remoteWrite k) s = .next ((s.dropDue k).ack p true c) := by
  have bad' : (s.dropDue k).remoteKey p (Nat.max 1 p.payload.length) true = .error c := bad
  refine (show exec (.remoteWrite k) s = execRemoteWrite k s from rfl).trans (congrArg Host.Outcome.next ?_)
  simp only [due, write, bad', bne_self_eq_false, Bool.false_eq_true, if_false]

theorem remoteWrite_step {key : Nat} (write : p.type = 2) (good : s.remoteKey p (max 1 p.payload.length) true = .ok key)
    (clean : p.poison = false) : exec (.remoteWrite k) s = .next (((s.dropDue k).write key p.addr p.payload).ack p false) := by
  have good' : (s.dropDue k).remoteKey p (Nat.max 1 p.payload.length) true = .ok key := good
  refine (show exec (.remoteWrite k) s = execRemoteWrite k s from rfl).trans (congrArg Host.Outcome.next ?_)
  simp only [due, write, good', clean, bne_self_eq_false, Bool.false_eq_true, if_false, State.writeAs]

theorem remoteWrite_performs {key : Nat} (write : p.type = 2) (good : s.remoteKey p (max 1 p.payload.length) true = .ok key)
    (clean : p.poison = false) (floor : ∀ i, i < p.payload.length → space (p.addr + i) = .floor) :
    ∃ t, exec (.remoteWrite k) s = .next t ∧
      (∀ i, i < p.payload.length → t.readHome 0 (p.addr + i) = p.payload.getD i 0) ∧
      (∀ a, space a ≠ .gddr → a < p.addr ∨ p.addr + p.payload.length ≤ a → t.readHome 0 a = s.readHome 0 a) ∧
      t.net.flight = s.net.flight ++ [control 5 false p] := by
  have sram (i : Nat) (lt : i < p.payload.length) : space (p.addr + i) ≠ .gddr := by rw [floor i lt]; decide
  have other : p.type ≠ 1 := by rw [write]; decide
  have net : ((s.dropDue k).write key p.addr p.payload).net = (s.dropDue k).net := State.write_keeps (·.net) (fun _ _ _ _ _ _ => rfl) ..
  have read (a : Nat) (home : space a ≠ .gddr) := State.readHome_write (s.dropDue k) key p.addr 0 a p.payload sram home
  refine ⟨_, remoteWrite_step due write good clean, fun i lt => ?_, fun a home out => ?_, ?_⟩
  · rw [State.ack_eq other]
    refine (read (p.addr + i) (sram i lt)).trans ?_
    rw [if_pos (by omega), Nat.add_sub_cancel_left]
  · rw [State.ack_eq other]
    exact (read a home).trans (if_neg (by omega))
  · rw [State.ack_eq other, net]
    rfl

/-! ### A reply -/

omit due in
/-- The bytes of a reply lie at their home addresses. -/
theorem find?_replyBytes (m : Sparse (Byte × Bool)) (r : RRead) {i : Nat} (inside : i < r.len) :
    Sp.find? (replyBytes m r p) (r.home + i) = some (p.payload.getD i 0, p.poison) := by
  have fill (n : Nat) (lt : i < n) : Sp.find? ((List.range n).foldl (fun m i => Sp.put m (r.home + i) (p.payload.getD i 0, p.poison)) m)
      (r.home + i) = some (p.payload.getD i 0, p.poison) := by
    induction n with
    | zero => omega
    | succ n ih =>
      rw [List.range_succ, List.foldl_append, List.foldl_cons, List.foldl_nil, Sp.find?_put]
      by_cases last : i = n
      · rw [if_pos (by omega), last]
      · rw [if_neg (by omega), ih (by omega)]
  exact fill r.len inside

theorem readReply_gives {r : RRead} {n : Nat} (reply : p.type = 3)
    (mine : s.net.reads.find? (fun r => r.tag == p.tag && r.who.sender == p.dcore) = some r) (asker : r.who = .core n) :
    ∃ t, exec (.readReply k) s = .next t ∧ (t.core n).rreq = none ∧ t.net.flight = s.net.flight ++ [control 5 false p] ∧
      ∀ i, i < r.len → Sp.find? (t.core n).blk.remote (r.home + i) = some (p.payload.getD i 0, p.poison) := by
  have acked := State.ack_eq (s := s.dropDue k) (p := p) (by rw [reply]; decide) false 0x1B
  have mine' : ((s.dropDue k).setFlight ((s.dropDue k).net.flight ++ [control 5 false p])).net.reads.find?
      (fun r => r.tag == p.tag && r.who.sender == p.dcore) = some r := mine
  refine Exists.intro ?t ⟨Eq.trans (show exec (.readReply k) s = execReadReply k s from rfl) ?step, ?idle, ?flight, ?bytes⟩
  case step =>
    unfold execReadReply
    simp only [due, reply, acked, mine', bne_self_eq_false, Bool.false_eq_true, if_false, State.giveReply, asker]
    exact rfl
  case idle => rw [State.core_setCore_self]
  case flight => rfl
  case bytes =>
    intro i inside
    rw [State.core_setCore_self]
    exact find?_replyBytes _ r inside

end

end

end Sys2Proof.Machine
end

section
/-!
PROOFS of family 24, the events: a delivered packet fills the next slot of the ring (24 R339), and what O49 says.
-/
namespace Sys2Proof.Machine

/-! ### The place of a slot -/

/-- A ring that is configured lies inside its pad, and its count word lies beside it. -/
theorem Ring.fits {r : Ring} (ok : ringOk r.cfg = true) :
    r.countOff + 4 ≤ r.base ∨ r.base + 512 * r.slots ≤ r.countOff := by
  have beside : ¬(r.base ≤ r.countOff ∧ r.countOff < r.base + 512 * r.slots) := by
    rw [ringOk, Bool.and_eq_true, Bool.not_eq_true', Bool.and_eq_false_iff, decide_eq_false_iff_not, decide_eq_false_iff_not] at ok
    exact fun ⟨above, below⟩ => ok.2.elim (· above) (· below)
  have base : r.base = fld r.cfg.toNat 18 9 * 512 := rfl
  have off : r.countOff = fld r.cfg.toNat 40 24 * 4 := rfl
  omega

/-- The home of the next slot that a packet fills. -/
def Ring.nextSlot (r : Ring) (n : Nat) : Nat := padHome n (r.base + (r.head + r.count) % r.slots * 512)
/-- The home of the count word. -/
def Ring.countWord (r : Ring) (n : Nat) : Nat := padHome n r.countOff

theorem Ring.slot_apart {r : Ring} (ok : ringOk r.cfg = true) (n : Nat) :
    r.countWord n + 4 ≤ r.nextSlot n ∨ r.nextSlot n + 512 ≤ r.countWord n := by
  have inside : (r.head + r.count) % r.slots < r.slots := Nat.mod_lt _ (Nat.two_pow_pos _)
  have beside := Ring.fits ok
  unfold Ring.countWord Ring.nextSlot padHome
  omega

section
variable {k : Nat} {p : Packet} {s : State}

/-- A write may answer a core that waits for its word; its ring stays. -/
theorem State.ring_write (key h n : Nat) (bs : List Byte) : ((s.write key h bs).core n).ring = (s.core n).ring := by
  have notified (s : State) (m : Nat) : ((s.padNotify h m).core n).ring = (s.core n).ring := by
    unfold State.padNotify
    dsimp only
    split
    · rfl
    · split
      · split
        · rw [State.core_setCore]
          split
          · subst_vars; rfl
          · rfl
        · rfl
      · rfl
  rw [State.write, notified, State.core, State.core, State.cores_clearMarks, State.cores_writeBytes]

/-! ### A slot is filled -/

/-- The class's handle and the header, as the slot begins. -/
def State.slotHead (s : State) (p : Packet) : List Byte :=
  (Sp.get 0 (s.netOf p.part).rhdl p.cls :: p.hdr).flatMap fun w => leBytes 8 w.toNat

theorem State.length_slotHead (four : p.hdr.length = 4) : (s.slotHead p).length = 40 := by
  obtain ⟨a, b, c, d, words⟩ : ∃ a b c d, p.hdr = [a, b, c, d] := by
    match hdr : p.hdr, four with
    | [a, b, c, d], _ => exact ⟨a, b, c, d, rfl⟩
  simp [State.slotHead, words, leBytes_length]

/-- The slot of a packet is filled. -/
def State.fillSlot (s : State) (k : Nat) (p : Packet) : State :=
  ((s.dropDue k).write 0 ((s.core p.dcore).ring.nextSlot p.dcore) (s.slotHead p)).write 0 ((s.core p.dcore).ring.nextSlot p.dcore + 40) p.payload

/-- The ring counts one slot more. -/
def State.countSlot (s t : State) (n : Nat) : State :=
  t.setCore n { t.core n with ring := { (s.core n).ring with count := (s.core n).ring.count + 1 } }

theorem State.net_countSlot (t : State) (n : Nat) : (s.countSlot t n).net = t.net := rfl

theorem State.readHome_countSlot (t : State) (n key a : Nat) : (s.countSlot t n).readHome key a = t.readHome key a := rfl

theorem routeClassDelivery_step (due : s.dueNow k = some p) (route : p.type = 0) (clean : p.poison = false) :
    exec (.routeClassDelivery k) s = .next (let u := s.countSlot (s.fillSlot k p) p.dcore
      (u.write 0 ((s.core p.dcore).ring.countWord p.dcore)
        (leBytes 4 ((u.readVal 0 ((s.core p.dcore).ring.countWord p.dcore) 4 + 1) % 2 ^ 32))).ack p false) := by
  refine (show exec (.routeClassDelivery k) s = execRouteClassDelivery k s from rfl).trans (congrArg Host.Outcome.next ?_)
  simp only [due, route, clean, bne_self_eq_false, Bool.false_eq_true, if_false, State.writeAs]
  rfl

theorem space_slot (r : Ring) (n i : Nat) : space (r.nextSlot n + i) ≠ .gddr := space_padHome_add _ _ _

theorem space_word (r : Ring) (n i : Nat) : space (r.countWord n + i) ≠ .gddr := space_padHome_add _ _ _

theorem space_payload (r : Ring) (n i : Nat) : space (r.nextSlot n + 40 + i) ≠ .gddr := by
  rw [Nat.add_assoc]; exact space_slot _ _ _

section
variable (four : p.hdr.length = 4)
include four

omit four in
theorem State.readHome_fillSlot_payload {i : Nat} (lt : i < p.payload.length) :
    (s.fillSlot k p).readHome 0 ((s.core p.dcore).ring.nextSlot p.dcore + 40 + i) = p.payload.getD i 0 := by
  rw [State.fillSlot, State.readHome_write _ _ _ _ _ _ (fun i _ => space_payload _ _ _) (space_payload _ _ _), if_pos (by omega),
    Nat.add_sub_cancel_left]

theorem State.readHome_fillSlot_apart {a : Nat} (home : space a ≠ .gddr)
    (apart : a < (s.core p.dcore).ring.nextSlot p.dcore ∨ (s.core p.dcore).ring.nextSlot p.dcore + 40 + p.payload.length ≤ a) :
    (s.fillSlot k p).readHome 0 a = s.readHome 0 a := by
  have head := State.length_slotHead (s := s) four
  rw [State.fillSlot, State.readHome_write _ _ _ _ _ _ (fun i _ => space_payload _ _ _) home, if_neg (by omega),
    State.readHome_write _ _ _ _ _ _ (fun i _ => space_slot _ _ _) home, if_neg (by rw [head]; omega)]
  rfl

variable (ok : Machine.ringOk (s.core p.dcore).ring.cfg = true) (short : p.payload.length ≤ 256)
include ok short

theorem State.readVal_fillSlot_count : (s.fillSlot k p).readVal 0 ((s.core p.dcore).ring.countWord p.dcore) 4 =
    s.readVal 0 ((s.core p.dcore).ring.countWord p.dcore) 4 := by
  have apart := Ring.slot_apart ok p.dcore
  rw [State.readVal, State.readVal, State.readHomeN_eq_map, State.readHomeN_eq_map]
  refine congrArg bytesNat (List.map_congr_left fun i mem => State.readHome_fillSlot_apart four (space_word _ _ _) ?_)
  have := List.mem_range.1 mem
  omega

theorem routeClassDelivery_fills (due : s.dueNow k = some p) (route : p.type = 0) (clean : p.poison = false) :
    let slot := (s.core p.dcore).ring.nextSlot p.dcore
    let word := (s.core p.dcore).ring.countWord p.dcore
    ∃ t, exec (.routeClassDelivery k) s = .next t ∧ (t.core p.dcore).ring.count = (s.core p.dcore).ring.count + 1 ∧
      (∀ i, i < p.payload.length → t.readHome 0 (slot + 40 + i) = p.payload.getD i 0) ∧
      t.readVal 0 word 4 = (s.readVal 0 word 4 + 1) % 2 ^ 32 ∧ t.net.flight = s.net.flight ++ [control 5 false p] ∧
      ∀ a, space a ≠ .gddr → a < slot ∨ slot + 40 + p.payload.length ≤ a → a < word ∨ word + 4 ≤ a →
        t.readHome 0 a = s.readHome 0 a := by
  intro slot word
  have step := routeClassDelivery_step due route clean
  have count : (s.countSlot (s.fillSlot k p) p.dcore).readVal 0 word 4 = s.readVal 0 word 4 :=
    (State.readVal_congr (s := s.fillSlot k p) (State.readHome_countSlot _ _ 0) word 4).trans (State.readVal_fillSlot_count four ok short)
  have other : p.type ≠ 1 := by rw [route]; decide
  dsimp only at step
  rw [count, State.ack_eq other] at step
  have apart := Ring.slot_apart ok p.dcore
  have net : (s.fillSlot k p).net = (s.dropDue k).net :=
    (State.write_keeps (·.net) (fun _ _ _ _ _ _ => rfl) ..).trans (State.write_keeps (·.net) (fun _ _ _ _ _ _ => rfl) ..)
  have wide (v : Nat) : (leBytes 4 v).length = 4 := leBytes_length 4 v
  have sram (v i : Nat) (_ : i < (leBytes 4 v).length) : space (word + i) ≠ .gddr := space_word _ _ _
  have read (v a : Nat) (home : space a ≠ .gddr) (out : a < word ∨ word + 4 ≤ a) :
      ((s.countSlot (s.fillSlot k p) p.dcore).write 0 word (leBytes 4 v)).readHome 0 a = (s.fillSlot k p).readHome 0 a := by
    refine (State.readHome_write _ _ _ _ _ _ (sram v) home).trans ((if_neg ?_).trans (State.readHome_countSlot ..))
    rw [wide]; omega
  have bumped (v : Nat) : ((s.countSlot (s.fillSlot k p) p.dcore).write 0 word (leBytes 4 v)).readVal 0 word 4 = v % 2 ^ 32 := by
    have bytes := State.readHomeN_write (s := s.countSlot (s.fillSlot k p) p.dcore) (off := 0) (n := 4) 0 0 (sram v) (by rw [wide])
    rw [Nat.add_zero, List.drop_zero, List.take_of_length_le (by rw [wide])] at bytes
    rw [State.readVal, bytes, bytesNat_leBytes]
  have counted (v : Nat) : (((s.countSlot (s.fillSlot k p) p.dcore).write 0 word (leBytes 4 v)).core p.dcore).ring.count =
      (s.core p.dcore).ring.count + 1 := by
    rw [State.ring_write, State.countSlot, State.core_setCore_self]
  have quiet (v : Nat) : ((s.countSlot (s.fillSlot k p) p.dcore).write 0 word (leBytes 4 v)).net.flight = s.net.flight := by
    rw [State.write_keeps (·.net) (fun _ _ _ _ _ _ => rfl), State.net_countSlot, net]
    rfl
  have modulus := Nat.mod_mod (s.readVal 0 word 4 + 1) (2 ^ 32)
  generalize (s.readVal 0 word 4 + 1) % 2 ^ 32 = v at step modulus ⊢
  specialize read v
  specialize bumped v
  specialize counted v
  specialize quiet v
  rw [modulus] at bumped
  generalize (s.countSlot (s.fillSlot k p) p.dcore).write 0 word (leBytes 4 v) = t at step read bumped counted quiet
  refine ⟨_, step, counted, fun i lt => ?_, (State.readVal_congr (fun _ => rfl) word 4).trans bumped,
    congrArg (· ++ [control 5 false p]) quiet, fun a home inSlot inWord => ?_⟩
  · exact (read _ (space_payload _ _ _) (by omega)).trans (State.readHome_fillSlot_payload lt)
  · exact (read a home inWord).trans (State.readHome_fillSlot_apart four home inSlot)

end
end

end Sys2Proof.Machine
end

section
/-!
PROOFS of family 24: what O49 says of the events of the network.
-/
namespace Sys2Proof.Machine

section
variable {k : Nat} {p : Packet} {s : State}

theorem Packet.pace_eq (p : Packet) (n : Nat) :
    p.pace n = ((n * 2 + (if p.kind = 2 then 1 else 0)) * 1024 + p.sdev) * 1024 + p.score := by
  simp only [Packet.pace, b2n, beq_iff_eq]

/-- A frame of this device that may not pass faults its own channel end (26 R361). -/
theorem State.refuse_frame {j : Nat} {e : ChanEnd} (frame : p.frame = true) (mine : p.fSdev = here) (found : s.endOfFrame p = some (j, e)) :
    s.refuse p = s.channelFault j e := by
  rw [State.refuse, if_pos frame]
  simp only [beq_iff_eq.2 mine, if_true, found]

end

end Sys2Proof.Machine
namespace Sys2Proof.Proofs
open Sys2Proof Sys2Proof.Machine

/-- Settles O49: each event is one branch of its model; a window of one number slides past it, and a slot lies beside the count word. -/
theorem networkEvents : Obligations.NetworkEvents := by
  unfold Obligations.NetworkEvents
  intro k p s gone inFlight atEnd w nack isDue ring
  refine ⟨?_, ?_, ?_, ?_, ?_, ?_, ?_⟩
  · intro l queued found placed order way cut passed refused
    refine ⟨fun b back hop => ⟨?_, ?_, ?_⟩, fun e hop => ?_⟩
    · intro may
      obtain ⟨t, q, hx, pass, flight⟩ := packetForward_crosses found placed order way queued hop may
      exact ⟨t, q, hx, pass, flight⟩
    · exact fun bar plain small => State.refused_of queued plain small (packetForward_barred found placed order way queued hop bar)
    · intro j e bar frame mine endOf
      exact (packetForward_barred found placed order way queued hop bar).trans (congrArg _ (State.refuse_frame frame mine endOf))
    · intro dn d
      refine ⟨packetForward_closed found placed order way queued hop, fun auth bar plain small => ?_, fun auth may => ?_⟩
      · exact State.refused_of queued plain small (packetForward_forbidden found placed order way queued hop auth bar)
      · refine ⟨fun idle => packetForward_waits found placed order way queued hop auth may ?_, fun key running =>
          packetForward_leaves found placed order way queued hop auth may (Domain.sends_iff.2 ⟨key, running⟩)⟩
        refine Bool.eq_false_of_not_eq_true (mt Domain.sends_iff.1 fun ⟨key, running⟩ => ?_)
        exact idle.elim key (ne_true_of_eq_false running)
  · intro atEnd placed whole small
    refine ⟨fun seen => ⟨?_, ?_⟩, ?_, fun first got held => ⟨?_, ?_⟩⟩
    · exact fun due => (packetArrival_seen atEnd placed whole small seen).trans (congrArg _ (State.ackAgain_due due))
    · exact fun done => (packetArrival_seen atEnd placed whole small seen).trans (congrArg _ (State.ackAgain_done done))
    · exact packetArrival_holds atEnd placed whole small
    · intro memory
      obtain ⟨taken, room⟩ := State.memory_classes (s := s) memory
      exact packetArrival_delivers atEnd placed whole small first got held taken room
    · intro taken room route
      refine ⟨fun mine space => ?_, fun mine full => ?_, fun refused => ?_⟩
      · exact packetArrival_delivers atEnd placed whole small first got held ((State.classRefused_iff route).2 mine)
          ((State.classSheared_iff route).2 space)
      · exact packetArrival_shears atEnd placed whole small first got ((State.classRefused_iff route).2 mine)
          (Bool.eq_true_of_not_eq_false (mt (State.classSheared_iff route).1 full))
      · exact packetArrival_refuses atEnd placed whole small first got held route
          (Bool.eq_true_of_not_eq_false (mt (State.classRefused_iff route).1 refused))
  · intro atEnd sheared
    refine ⟨fun seen => ⟨?_, ?_⟩, fun fresh first => ?_⟩
    · exact fun due => (shearedHeader_seen atEnd sheared seen).trans (congrArg _ (State.ackAgain_due due))
    · exact fun done => (shearedHeader_seen atEnd sheared seen).trans (congrArg _ (State.ackAgain_done done))
    · exact ⟨_, shearedHeader_opens atEnd sheared fresh first, State.mem_addHole, rfl, rfl⟩
  · intro n rest oldest pace
    have same : p.pace n.toNat = pace := p.pace_eq n.toNat
    rw [← same]
    exact ⟨reRequest_leaves oldest, fun t only last soon => reRequest_waits oldest only last soon⟩
  · intro atEnd five code
    refine ⟨fun e mine => ?_, fun none => acknowledgement_unknown atEnd five none⟩
    exact ⟨gone.freePlaces p.named.1 p.named.2, State.pkts_freePlaces .., rfl, acknowledgement_frees atEnd five mine⟩
  · intro key e kth f
    exact ⟨retransmitTimeout_rests kth, retransmitTimeout_again kth, retransmitTimeout_gives_up kth⟩
  · intro due
    refine ⟨fun read => ⟨fun c => remoteRead_refuses due read, fun key => remoteRead_performs due read⟩,
      fun write => ⟨fun c => remoteWrite_refuses due write, fun key => remoteWrite_performs due write⟩,
      fun r n => readReply_gives due, ?_⟩
    exact fun route ok four short clean => routeClassDelivery_fills four ok short due route clean

end Sys2Proof.Proofs
end
